-- ==== Sys2Proof/Word.lean ====
section
/-!
DEFINITION. Words, byte strings and sparse tables: the plain carriers every other file uses.
Nothing here is particular to the Thaza.
-/

namespace Sys2Proof

/-- One byte. -/
abbrev Byte := BitVec 8

/-- A 32-bit register or index. -/
abbrev Word := BitVec 32

/-- A byte string, in the order its bytes lie in memory (R16). -/
abbrev Bytes := List Byte

/-- A job named by its function, local job queue and ring index of its first slot. -/
structure JobRef where
  fn : Nat
  jq : Nat
  index : Word
  deriving DecidableEq, Repr

end Sys2Proof
end

