-- ==== Sys2Proof/Syntax.lean ====
section
/-!
DEFINITION. The commands the Thaza takes: one constructor per row of spec/opcode_table.json, in the table's order,
with the operands the row leaves open. A fact that comes from outside the digital machine (a sensor reading, a test
outcome, the answer of a host read) is an operand of the row that brings it.
-/

namespace Sys2Proof

/-- The transaction attributes of an access (R360): world, privilege, master identity and the debug flag, with the
current extension of a user access of the active unit (R361; 0 for none). -/
structure Attr where
  secure : Bool
  priv   : Bool
  master : Nat
  debug  : Bool
  ext    : Nat
  deriving DecidableEq, Repr

/-- Where a register lies: a PF0 BAR0 offset (R299), an offset in a function page (R310), or an offset in a
function's configuration space (R152 to R155). -/
inductive RegPlace where
  | bar  (addr : Nat)
  | page (f off : Nat)
  | cfg  (f off : Nat)
  deriving DecidableEq, Repr

/-- The IDE verdict that came with an inbound FLIT (R186): no IDE or both sides pass, one side fails, or both sides
fail on a stream. -/
inductive IdeCheck where
  | clean
  | oneSide
  | bothSides (stream : Nat)
  deriving DecidableEq, Repr

/-- What an outstanding DMA read serves (R150): a job or admin command, or the slots of a job queue's ring. -/
inductive ReadTarget where
  | job  (j : JobRef)
  | ring (f q : Nat)
  deriving DecidableEq, Repr

/-- The status a read completion carries (R150). -/
inductive ReadStatus where
  | ok
  | unsupported
  | abort
  | poisoned
  deriving DecidableEq, Repr

/-- Where the dispatcher places its next job (R109, R132): a pair, the public-key engine or the random source. A pair's
two parses of the entry agree with each other; `intakeOk` says whether they agree with the dispatch record (R87). -/
inductive DispatchTarget where
  | pair (p : Nat) (intakeOk : Bool)
  | publicKey
  | random
  deriving DecidableEq, Repr

/-- The registers held with an inverted shadow (R308). -/
inductive ShadowReg where
  | lc | lockClass | latch | world | class0 | class1 | class2
  deriving DecidableEq, Repr

/-- One mesh sample (R391): the 16 bits that came back, and the line resistance in ohms. -/
structure MeshReading where
  layer     : Nat
  returned  : BitVec 16
  ohms      : Nat
  deriving DecidableEq, Repr

/-- What the charger's converters report in one step (R403). -/
structure ChargerReading where
  vbatMv : Nat
  tempDc : Int
  iUa    : Nat
  deriving DecidableEq, Repr

/-- Why a cell service window closes (R409). -/
inductive WindowEnd where
  | expiry | cancel | powerLoss
  deriving DecidableEq, Repr

/-- One completed 4,096-bit window of a noise source (R281): its raw bits, and whether the two sides' copies of
the counts agree. -/
structure WindowReading where
  bits   : Bytes
  agree  : Bool
  deriving DecidableEq, Repr

/-- The stage whose stall watcher reached its limit (R419). -/
inductive StallStage where
  | lane (pair : Nat)
  | splitter (cluster : Nat)
  | controlUnit (iris : Bool)
  | drbg
  | pkCore (core : Nat)
  | control (block stage : Nat) (retryAgrees pass1 pass2 : Bool)
  | store (area addr : Nat) (again : Bool)   -- area as STORE_REPAIR numbers it (R441)
  | dieLink (offset : Nat) (write : Bool)
  deriving DecidableEq, Repr

/-- How Aster and Iris disagreed and what each step of the procedure of R433 found. -/
structure CuMismatch where
  checker     : Option Bool      -- the unit whose local checker fired: false Aster, true Iris
  ramParity   : Bool             -- that checker was a RAM word parity failure
  rollbackOk  : Bool             -- the units agree after the rollback
  asterPass   : Bool             -- diagnosis verdicts
  irisPass    : Bool
  ramRepair   : Bool             -- diagnosis found a RAM word to repair
  againOk     : Bool             -- the units agree after the repeated rollback
  second      : Bool             -- a second disagreement came during the diagnosis
  address     : Nat              -- instruction address
  deriving DecidableEq, Repr

/-- The outcome of main-die self-test (R449) and of the store checks made with it (R328, R337, R440). -/
structure SelfTest where
  pairsOk    : List Bool
  coresOk    : List Bool
  asterOk    : Bool
  irisOk     : Bool
  blocksOk   : Bool              -- no unit without a spare fails, and no control stage in both copies
  simplex    : List (Nat × Nat)  -- control stages whose one copy fails: block and stage
  drbgOk     : Bool
  railMv     : Nat               -- what PW's first read of the rail gives
  badCopies  : List Nat          -- persistent sets with one failed copy: 0 device set, 1 to 3 profiles, 4 role set
  badSets    : List Nat          -- persistent sets whose copies all fail
  deriving DecidableEq, Repr

/-- What the boot ROM found of the stored firmware images (R448): per area newest image valid, older image valid. -/
structure FirmwareScan where
  custodyNewer : Bool
  custodyOlder : Bool
  serviceNewer : Bool
  serviceOlder : Bool
  deriving DecidableEq, Repr

/-- How an FDP frame arrives (R346, R358): a whole Ethernet frame on the port, or an FDP frame on a relay channel. -/
inductive FdpRoute where
  | port (eth : Bytes)
  | relay (ch : Nat) (frame : Bytes)
  deriving DecidableEq, Repr

/-- The commands and events of the block, one constructor per row of the opcode table. -/
inductive Instr where
  /-- PAD (R121). A PAD entry fills the ring up to its end and is consumed without a completion record. -/
  | pad (f : Nat) (q : Nat)
  /-- NOP (R122). A one-slot NOP completes with OK when committed; with FENCE set it acts as a barrier. -/
  | nop (j : JobRef)
  /-- SEAL (R45). Derives a fragment key, encrypts the plaintext under AES-256-GCM and writes the sealed fragment with its header last. -/
  | seal (j : JobRef) (resent : Nat)
  /-- UNSEAL (R49). Checks the header, derives the key from it, decrypts, verifies the tag and compares identity; provisional or hold release. -/
  | unseal (j : JobRef) (resent : Nat)
  /-- CHECK_GEN (R62). Computes a CMAC or GMAC check value over the source data and writes it to CHECK_ADDR. -/
  | checkGen (j : JobRef) (resent : Nat)
  /-- CHECK_VERIFY (R62). Computes a check value and compares it with EXPECTED, completing OK or CHECK_MISMATCH. -/
  | checkVerify (j : JobRef)
  /-- RAW_ENCRYPT (R64). Encrypts the source in an SP 800-38A mode under a slot or session key and optionally writes NEXT_IV. -/
  | rawEncrypt (j : JobRef) (resent : Nat)
  /-- RAW_DECRYPT (R64). Decrypts the source in an SP 800-38A mode under a slot or session key and optionally writes NEXT_IV. -/
  | rawDecrypt (j : JobRef) (resent : Nat)
  /-- RNG_FILL (R296). Writes LEN random bytes from the generator to host memory as a class 5 consumer. -/
  | rngFill (j : JobRef)
  /-- PK_SIGN (R255). Signs a message or digest with a slot private key or an RSA key blob on a public-key core. -/
  | pkSign (j : JobRef)
  /-- PK_VERIFY (R263). Verifies a signature against a host or slot public key. -/
  | pkVerify (j : JobRef)
  /-- PK_KEYGEN (R260). Generates a key pair, writes the public key and a wrapped private key blob, and keeps neither. -/
  | pkKeygen (j : JobRef)
  /-- PK_AGREE (R261). Performs ECDH or X25519/X448 agreement and returns the secret or derives it into a new slot. -/
  | pkAgree (j : JobRef)
  /-- PK_ENCAPS (R255). Encapsulates a secret to a peer ML-KEM or RSA public key and writes the ciphertext and secret or new slot. -/
  | pkEncaps (j : JobRef)
  /-- PK_DECAPS (R261). Decapsulates a ciphertext with an ML-KEM slot key or RSA key blob and returns or stores the secret. -/
  | pkDecaps (j : JobRef)
  /-- CREATE_JQ (R139). Creates a job queue bound to a completion queue in a fixed class. -/
  | createJq (f : Nat)
  /-- DESTROY_JQ (R141). Drains a job queue, issuing ABORTED records, and removes it. -/
  | destroyJq (f : Nat)
  /-- RESET_JQ (R141). Drains a job queue and leaves it active with its configuration unchanged. -/
  | resetJq (f : Nat)
  /-- CREATE_CQ (R140). Creates a completion queue with its ring, mirror and vector. -/
  | createCq (f : Nat)
  /-- DESTROY_CQ (R142). Removes a completion queue that no job queue is bound to. -/
  | destroyCq (f : Nat)
  /-- DICT_READ (R340). Returns an object's value, stored profile value or descriptor after role checks. -/
  | dictRead (f : Nat)
  /-- DICT_WRITE (R341). Writes a dictionary object after ordered access, encoding, range and conditional checks, persisting class D and P values. -/
  | dictWrite (f : Nat)
  /-- FN_ALLOC (R161). Allocates pool resources to a VF and binds its tenant, all or nothing. -/
  | fnAlloc
  /-- FN_FREE (R163). Checks the slot quota, stops dirty logging, resets the function, and returns its resources. -/
  | fnFree
  /-- FREEZE (R180). Stops fetching for a function, lets committed work complete and sets it FROZEN. -/
  | freeze
  /-- SAVE (R181). Writes the encrypted function state blob of a frozen function under the domain transport key. -/
  | save
  /-- THAW (R180). Returns a frozen function to READY so that fetching resumes. -/
  | thaw
  /-- FN_STATE_LOAD (R182). Checks and restores a function state blob into a fresh function, leaving it FROZEN. -/
  | fnStateLoad
  /-- DIRTY_LOG_START (R176). Starts logging the host pages the device writes for a VF into range bitmaps. -/
  | dirtyLogStart
  /-- DIRTY_LOG_SYNC (R179). Merges cached dirty bits, swaps the active bitmap and reports the bits set. -/
  | dirtyLogSync
  /-- DIRTY_LOG_STOP (R179). Merges cached dirty bits, reports them and ends logging. -/
  | dirtyLogStop
  /-- FN_RESET (R169). PF0 command that performs a function reset of a VF and completes when it is done. -/
  | fnReset
  /-- KEY_CREATE (R207). Generates a key, splits and wraps it on both sides and places it in a slot. -/
  | keyCreate (f : Nat)
  /-- KEY_IMPORT (R209). Checks and unwraps a domain or tenant-wrapped blob and places its key in a slot. -/
  | keyImport (f : Nat)
  /-- KEY_EXPORT (R210). Writes a domain or tenant-wrapped blob of a slot's key to host memory. -/
  | keyExport (f : Nat)
  /-- KEY_ERASE (R211). Revokes every job holding the slot, erases copies, retiring generation and blob, and leaves the slot EMPTY. -/
  | keyErase (f : Nat)
  /-- REKEY (R212). KEY_ROTATE operation that creates a new key generation and epoch, optionally archiving the old key. -/
  | rekey (f : Nat)
  /-- REATTR (R212). KEY_ROTATE operation that narrows uses, limit, times and export under a new generation. -/
  | reattr (f : Nat)
  /-- KEY_QUERY (R215). Writes the 64-byte slot record and any public key to host memory. -/
  | keyQuery (f : Nat)
  /-- ATTEST_STATEMENT (R248). Writes a dual-signed COSE attestation statement with the given nonce. -/
  | attestStatement (f : Nat)
  /-- ATTEST_CHAIN_ECDSA (R247). Writes the ECDSA P-384 device certificate chain. -/
  | attestChainEcdsa (f : Nat)
  /-- ATTEST_CHAIN_MLDSA (R247). Writes the ML-DSA-65 device certificate chain. -/
  | attestChainMldsa (f : Nat)
  /-- APPROVE (R231). Checks a custodian's signed approval or rejection of the open ceremony and counts it. -/
  | approve
  /-- CEREMONY_OPEN (R227). Checks the parameter block, opens a ceremony and writes its challenge. -/
  | ceremonyOpen
  /-- CEREMONY_STATUS (R227). Writes the 16-byte status record of the open ceremony. -/
  | ceremonyStatus
  /-- CEREMONY_EXECUTE (R232). Runs the ceremony action if the quorum is held, otherwise refuses or waits for approvals. -/
  | ceremonyExecute
  /-- CEREMONY_CONTINUE (R244). Delivers a join or restore message to an executed ceremony in its continuation window. -/
  | ceremonyContinue
  /-- CEREMONY_CANCEL (R233). Closes the open ceremony at once and ends a waiting EXECUTE. -/
  | ceremonyCancel
  /-- INITIALISE (R234). Registers role keys, M and N, creates the Vesper root and enters INITIALIZED. -/
  | initialise
  /-- CUSTODIANS (R225). Replaces the role key table, M and N. -/
  | custodians
  /-- DOMAIN_CREATE (R241). Draws a domain key and identity, stores it wrapped, derives slot 1 and enters OPERATIONAL. -/
  | domainCreate
  /-- DOMAIN_ADMIT (R244). Sponsor side of a join: emits an OFFER and awaits the joiner's REQUEST. -/
  | domainAdmit
  /-- DOMAIN_JOIN (R244). Joiner side: checks the OFFER, emits a REQUEST and enters OPERATIONAL on a valid RESPONSE. -/
  | domainJoin
  /-- SHARE_EXPORT (R245). Splits the domain key into threshold shares encrypted to each recipient. -/
  | shareExport
  /-- SHARE_RESTORE (R246). Emits a restore request and rebuilds the domain key from K valid share records. -/
  | shareRestore
  /-- LOCK (R236). Enters LOCKED by ceremony, destroying session and IDE keys. -/
  | lock
  /-- UNLOCK (R235). Clears Vesper's latches when no alarm condition persists and leaves LOCKED according to the lock's cause. -/
  | unlock
  /-- DEBUG_ENTER (R221). With TEST_EN high, destroys production keys and enters DEBUG with the test root and test domain. -/
  | debugEnter
  /-- DEBUG_EXIT (R219). Destroys everything made in DEBUG and enters INITIALIZED with a new root. -/
  | debugExit
  /-- DECOMMISSION (R236). Destroys keys, registrations and stored profiles and enters the final DECOMMISSIONED state. -/
  | decommission
  /-- FW_REGISTER (R237). Checks and stores a new custody or service firmware base image for the next reset. -/
  | fwRegister
  /-- EXT_KEY (R238). Registers or revokes a service extension signing key. -/
  | extKey
  /-- DICT_QUORUM (R240). Applies all quorum-protected dictionary writes of the ceremony, or none. -/
  | dictQuorum
  /-- CELL_SERVICE (R239). Opens a cell service window in which cell removal and low VBAT act as class N. -/
  | cellService
  /-- FDP_RELAY (R358). Delivers FDP frames from host memory on a relay channel and returns pending outgoing frames. -/
  | fdpRelay
  /-- LOAD (R383). Extension manager operation that checks, maps and stores a signed extension image. -/
  | load
  /-- UNLOAD (R383). Extension manager operation that ends an extension's calls, zeroes its pages and erases its image. -/
  | unload
  /-- LIST (R383). Extension manager operation that writes the record of each loaded extension. -/
  | list
  /-- EXT_CALL (R385). Runs a call into a loaded service extension and completes it from the extension's RETURN. -/
  | extCall (f : Nat)
  /-- RETURN (R385). Extension service that ends the current call with a status, detail and RESULT1. -/
  | ret (x : Nat) (status : Nat) (detail : Nat) (result1 : Nat)
  /-- READ_IN (R384). Extension service that copies bytes of the call's IN buffer into extension pages by DMA. -/
  | readIn (x : Nat) (inOff : Nat) (dst : Nat) (n : Nat)
  /-- WRITE_OUT (R384). Extension service that copies bytes from extension pages to the call's OUT buffer. -/
  | writeOut (x : Nat) (src : Nat) (outOff : Nat) (n : Nat)
  /-- SUBMIT (R384). Extension service that runs a job entry as the calling function and returns its completion record. -/
  | submit (x : Nat) (entryAt : Nat) (slots : Nat) (recAt : Nat)
  /-- RANDOM (R384). Extension service that returns up to 256 random bytes as a class 5 consumer. -/
  | random (x : Nat) (dst : Nat) (n : Nat)
  /-- TIME (R384). Extension service that returns Meridian time. -/
  | time (x : Nat) (dst : Nat)
  /-- EXT_DICT_READ (R384). Extension service that reads a dictionary object with the calling function's role. -/
  | extDictRead (x : Nat) (index : Nat) (sub : Nat) (dst : Nat) (room : Nat)
  /-- LOG (R384). Extension service that records an EXT_LOG event. -/
  | log (x : Nat) (a1 : Nat) (a2 : Nat) (a3 : Nat)
  /-- FN_JQ_PI_WRITE (R118). Doorbell write of a job queue producer index, accepted or refused by the occupancy test. -/
  | fnJqPiWrite (f : Nat) (q : Nat) (v : Word)
  /-- FN_CQ_CI_WRITE (R119). Write of a completion queue consumer index, accepted or refused, freeing records. -/
  | fnCqCiWrite (f : Nat) (q : Nat) (v : Word)
  /-- FN_SK_KEY_WRITE (R67). Writes key words into a session key set's staging buffer. -/
  | fnSkKeyWrite (f : Nat) (set : Nat) (k : Nat) (wide : Bool) (v : Nat)
  /-- SESSION_KEY_LOAD (R68). FN_SK_CTL LOAD makes the staging buffer the set's key, or sets LOAD_ERR. -/
  | sessionKeyLoad (f : Nat) (set : Nat) (v : Word)
  /-- SESSION_KEY_CLEAR (R67). FN_SK_CTL CLEAR erases the set's key and staging buffer. -/
  | sessionKeyClear (f : Nat) (set : Nat) (v : Word)
  /-- ADMIN_QUEUE_ENABLE (R138). FN_AQ_CFG ENABLE = 1 creates the admin queue pair or refuses with CFG_ERR. -/
  | adminQueueEnable (f : Nat) (v : Word)
  /-- ADMIN_QUEUE_DISABLE (R138). FN_AQ_CFG ENABLE = 0 drains bound job queues and the admin pair and removes it. -/
  | adminQueueDisable (f : Nat) (v : Word)
  /-- FN_RNG_DATA_READ (R292). Read of fresh random bytes from the function's read buffer, stalling for refills. -/
  | fnRngDataRead (f : Nat) (off : Nat) (en : List Bool)
  /-- RNG_READ_STALL_LIMIT (R293). A stalled random-page read reaches rng.read.stall_max_us and completes with Completer Abort. -/
  | rngReadStallLimit (f : Nat)
  /-- ADVANCE (R317). EV_CTL ADVANCE moves the event cursor forward by one. -/
  | advance (a : Attr) (v : Word)
  /-- RETREAT (R317). EV_CTL RETREAT moves the event cursor back by one. -/
  | retreat (a : Attr) (v : Word)
  /-- KICK (R373). Writing 0x6C1E to CU_WDOG restarts the secure watchdog. -/
  | kick (a : Attr) (v : Word)
  /-- PW_REQ_WRITE (R376). Sets or withdraws a normal-world request to quiesce a block. -/
  | pwReqWrite (a : Attr) (v : Word)
  /-- PW_KEEP_WRITE (R376). Custody firmware sets or releases a keep-alive vote for a block. -/
  | pwKeepWrite (a : Attr) (v : Word)
  /-- ALIAS_WRITE (R303). Writes a single register bit through its alias as an indivisible read-modify-write. -/
  | aliasWrite (a : Attr) (where_ : RegPlace) (v : Word)
  /-- SET_MIRROR_WRITE (R304). Sets the RW bits given in the value through the set mirror. -/
  | setMirrorWrite (a : Attr) (addr : Nat) (v : Word)
  /-- CLEAR_MIRROR_WRITE (R304). Clears the RW bits given in the value through the clear mirror. -/
  | clearMirrorWrite (a : Attr) (addr : Nat) (v : Word)
  /-- TOGGLE_MIRROR_WRITE (R304). Inverts the RW bits given in the value through the toggle mirror. -/
  | toggleMirrorWrite (a : Attr) (addr : Nat) (v : Word)
  /-- GATE_RULE_WRITE (R369). Writes a gate rule or page owner table entry, effective once every gate uses it. -/
  | gateRuleWrite (a : Attr) (addr : Nat) (v : Word)
  /-- REGISTER_WRITE (R13). Write to a register without behaviour of its own, applied per its access codes and class. -/
  | registerWrite (a : Attr) (where_ : RegPlace) (size : Nat) (v : Nat)
  /-- BUS_MASTER_ENABLE_CLEAR (R151). Clearing Bus Master Enable of a function holding fetched work performs a function reset. -/
  | busMasterEnableClear (f : Nat)
  /-- FLR (R164). Initiate Function Level Reset starts a function reset of the function. -/
  | flr (f : Nat)
  /-- VF_ENABLE_CLEAR (R170). Clearing VF Enable resets every VF. -/
  | vfEnableClear
  /-- FUNCTION_RESET (R164). Stops fetching, drains and erases a function's work, and waits for its outstanding DMA reads. -/
  | functionReset (f : Nat) (cause : Nat)
  /-- FUNCTION_RESET_COMPLETE (R164). Once reads are done, erases session keys, removes queues, resets registers and returns the function to READY. -/
  | functionResetComplete (f : Nat)
  /-- D3HOT_WRITE (R175). Writing D3hot to PowerState starts quiescence of the function. -/
  | d3hotWrite (f : Nat)
  /-- QUIESCENCE_TIMEOUT (R175). Jobs still committed 10 ms after the D3hot write are stopped with ABORTED and the function enters D3hot. -/
  | quiescenceTimeout (f : Nat)
  /-- D0_WRITE (R175). Writing D0 returns the function at once, signals pending vectors and resumes fetching. -/
  | d0Write (f : Nat)
  /-- MSI_X_ENABLE_CLEAR (R174). Clearing MSI-X Enable discards pending events and PBA bits. -/
  | msixEnableClear (f : Nat)
  /-- MSI_X_UNMASK (R174). Unmasking a vector or function sends one message for pending events. -/
  | msixUnmask (f : Nat) (v : Option (Nat))
  /-- LINK_UP (R149). Link training completes; rate, width and degradation are recorded. -/
  | linkUp (rate : Nat) (width : Nat) (flit : Bool)
  /-- LINK_RESET (R451). Hot Reset, Disabled or DL_Down resets every function and its configuration space. -/
  | linkReset
  /-- INBOUND_FLIT (R85). An inbound FLIT is duplicated, CRC-checked on each side and accepted or replayed. -/
  | inboundFlit (a : Bool) (b : Bool) (ide : IdeCheck)
  /-- DMA_READ_COMPLETION (R150). A read completion arrives; failed status or poison ends the job with DMA_ERROR. -/
  | dmaReadCompletion (t : ReadTarget) (r : ReadStatus)
  /-- COMPLETION_TIMEOUT (R150). A DMA read meets its Completion Timeout and its job completes with DMA_ERROR. -/
  | completionTimeout (t : ReadTarget)
  /-- SPDM_REQUEST (R184). A CMA/SPDM request arrives through the DOE mailbox and is answered. -/
  | spdmRequest (obj : Bytes)
  /-- DOE_ABORT (R183). DOE Abort clears the mailbox exchange in progress. -/
  | doeAbort
  /-- IDE_KM_QUERY (R186). IDE_KM QUERY over a secured SPDM session reports IDE capability. -/
  | ideKmQuery (session : Nat) (port : Nat)
  /-- IDE_KM_KEY_PROG (R186). IDE_KM KEY_PROG programs a key set for a sub-stream. -/
  | ideKmKeyProg (session : Nat) (stream : Nat) (keySet : Nat) (sub : Nat) (tx : Bool) (key : Bytes) (iv : Bytes)
  /-- IDE_KM_K_SET_GO (R186). IDE_KM K_SET_GO activates a programmed key set. -/
  | ideKmKSetGo (session : Nat) (stream : Nat) (keySet : Nat) (sub : Nat) (tx : Bool)
  /-- IDE_KM_K_SET_STOP (R186). IDE_KM K_SET_STOP stops a key set. -/
  | ideKmKSetStop (session : Nat) (stream : Nat) (keySet : Nat) (sub : Nat) (tx : Bool)
  /-- ENTRY_FETCH (R131). The queue engine reserves a completion record and fetches published entries into run-ahead. -/
  | entryFetch
  /-- DISPATCH (R109). The dispatcher picks a job for a free pair, binds key and salt, charges credits and commits it. -/
  | dispatch (t : DispatchTarget)
  /-- COMMIT_REFUSAL (R132). An entry whose earlier entries are committed fails its commitment checks and completes as its refusal. -/
  | commitRefusal (j : JobRef)
  /-- JOB_COMPLETION (R135). After a job's last data write, its completion record, mirror and interrupt are issued in order. -/
  | jobCompletion (j : JobRef) (more : Bool) (resent : Nat)
  /-- MIRROR_WRITE (R127). The completion queue mirror is written no later than 64 records or 1 µs after the first uncovered record. -/
  | mirrorWrite (f : Nat) (q : Nat) (resent : Nat)
  /-- MODERATION_TIMER (R173). A vector's TIME_TH elapses from its first pending event and the vector is signalled. -/
  | moderationTimer (f : Nat) (v : Nat)
  /-- JOB_TIMEOUT (R134). A job's timeout expires and the job is ended according to its stage. -/
  | jobTimeout (j : JobRef)
  /-- PAIR_FAULT (R93). A pair fault fences the pair, drains it, erases its keys and withdraws its jobs. -/
  | pairFault (p : Nat) (cause : Nat)
  /-- PAIR_KAT_VERDICT (R95). The fenced pair's known-answer verdict rejoins it or makes it a half pair or failed. -/
  | pairKatVerdict (p : Nat) (a : Bool) (b : Bool)
  /-- SPARE_KAT (R98). Every 100 ms the spare reserve runs its known-answer set. -/
  | spareKat (a : Bool) (b : Bool)
  /-- JOB_RETRY (R94). A withdrawn job is placed at the head of its class for retry on an untried pair. -/
  | jobRetry (j : JobRef)
  /-- CREDIT_RESCALE (R108). Every 10 µs custody firmware rescales QoS credits and loads them into the dispatcher. -/
  | creditRescale
  /-- AVS_LOOP (R101). Every 1 ms PW evaluates fabric.cycle and commands a voltage step over AVSBus. -/
  | avsLoop (cycle : Nat) (oks : List (Bool)) (mv : Nat)
  /-- AVS_GUARD (R102). fabric.cycle above 1,780 ps commands +20 mV at once and every 100 µs while it lasts. -/
  | avsGuard (cycle : Nat) (oks : List (Bool))
  /-- REMASK_SWEEP_VISIT (R196). The sweep re-masks both copies of one slot and compares them. -/
  | remaskSweepVisit
  /-- SLOT_RELOAD (R198). Once no job holds a BAD slot, both copies are reloaded from the wrapped store. -/
  | slotReload (n : Nat) (okA : Bool) (okB : Bool)
  /-- CHECKPOINT_WRITE_DONE (R200). A usage checkpoint write completes and extends the slot's lease. -/
  | checkpointWriteDone (n : Nat)
  /-- PARITY_SCRUB (R307). Every 1 ms register parity is scrubbed and mismatches are handled. -/
  | parityScrub (bad : List (RegPlace))
  /-- SHADOW_MISMATCH (R308). A register disagrees with its inverted shadow; the least-grant value is used and VS values are re-read. -/
  | shadowMismatch (r : ShadowReg)
  /-- VS_ACCESS_TIMEOUT (R306). A VS access unanswered for 50 µs is aborted and treated as a detected fault. -/
  | vsAccessTimeout (offset : Nat) (write : Bool)
  /-- MESH_SAMPLE (R391). Vesper drives and compares a fresh mesh pattern and checks resistance, latching an alarm on failure. -/
  | meshSample (m : MeshReading)
  /-- XTAMP_SAMPLE (R472). Every 1 ms a switch input is sampled; two alarm-level samples raise its alarm condition. -/
  | xtampSample (input : Nat) (high : Bool)
  /-- TEMP_SAMPLE (R389). The Vesper die temperature is sampled against its low and high limits. -/
  | tempSample (dc : Int)
  /-- GLITCH (R390). A supply stands at `mv` for 5 ns or longer: 0 VDD_CORE, 1 VDD_SRAM, 2 to 4 VDD_PHY 0.75 V, 0.90 V and
  1.20 V, 5 VDD_IO, 6 VCHG. -/
  | glitch (supply mv : Nat)
  /-- FI_DELAY (R389). A delay-line sensor completes outside its matched band. -/
  | fiDelay (sensor : Nat)
  /-- VBAT_SAMPLE (R389). Every 1 s with main power VBAT is compared with tamp.vbat.low_mv. -/
  | vbatSample (mv : Nat)
  /-- VBAT_CUT (R399). VBAT below 2,000 mV on battery latches class V and erases the root. -/
  | vbatCut (mv : Nat)
  /-- CELL_PRESENCE_CHECK (R389). Every 1 s with main power the cell presence is checked. -/
  | cellPresenceCheck (present : Bool)
  /-- XTAL_FAIL (R411). No crystal edge for 2 ms; the calendar continues from the RC oscillator. -/
  | xtalFail
  /-- XTAL_RETURN (R411). The crystal returns; Vesper records it and resumes calibration. -/
  | xtalReturn
  /-- SHADOW_CHECK (R389). Every 1 ms Vesper compares the true and complement forms of its state. -/
  | shadowCheck (agree : Bool)
  /-- CHARGER_STEP (R403). Every 1 s with VCHG present Vesper runs the charger state machine. -/
  | chargerStep (c : ChargerReading)
  /-- ADAPTIVE_SAMPLING_UPDATE (R408). Every minute on battery Vesper sets the mesh sampling factor from the state of charge. -/
  | adaptiveSamplingUpdate
  /-- AGEING_UPDATE (R405). Every hour Vesper adds to the aged years and updates the capacity model. -/
  | ageingUpdate
  /-- SERVICE_WINDOW_CLOSE (R409). A cell service window closes by expiry, CANCEL or power loss and the cell is checked. -/
  | serviceWindowClose (why : WindowEnd) (mv : Nat) (present : Bool)
  /-- SUPPLY_SOURCE_CHANGE (R388). VCHG crosses 3.0 V and Vesper changes over between VCHG and VBAT. -/
  | supplySourceChange (vchg : Bool)
  /-- WATCH_OSCILLATOR_RECALIBRATION (R30). Every 1,024 crystal cycles Vesper recalibrates the watch oscillator. -/
  | watchOscillatorRecalibration (count : Nat)
  /-- MERIDIAN_SLEW (R31). Once per Vesper second Meridian is compared with the calendar and slewed. -/
  | meridianSlew
  /-- VESPER_CHECKPOINT (R412). Every 60 s with main power the life counters and calendar are checkpointed. -/
  | vesperCheckpoint
  /-- MERIDIAN_SOURCE_CHECK (R422). REFCLK and watch oscillator counts differing by over 0.5 % in 20 µs cause a source change or device fault. -/
  | meridianSourceCheck (ref : Nat) (osc : Nat) (cal : Nat)
  /-- WINDOW_COMPLETE (R281). A source completes a 4,096-bit window, which is tested and credited or discarded. -/
  | windowComplete (src : Nat) (w : WindowReading)
  /-- GENERATE_REQUEST (R286). The CTR_DRBG serves one 64-byte request to the next consumer, reseeding first when due. -/
  | generateRequest
  /-- RESEED_RESUME (R298). A credited window arrives while a reseed waits on an empty pool, and service resumes. -/
  | reseedResume
  /-- GENERATOR_RESTART (R421). A repeated output block, stall or illegal code discards state and re-instantiates the generator. -/
  | generatorRestart (cause : Nat)
  /-- MASK_GENERATOR_RESEED (R83). A mask generator asks for reseeding after 2^20 blocks served. -/
  | maskGeneratorReseed (g : Nat)
  /-- PK_JOB_START (R269). A free core takes the next committed public-key job and validates its inputs. -/
  | pkJobStart (core : Nat)
  /-- PK_YIELD_POINT (R270). A core reaches a yield point where it may park, gang, or stop the job. -/
  | pkYieldPoint (core : Nat)
  /-- PK_FINISH_POINT (R270). A public-key job's outputs are issued after its invariant check and its record is issued. -/
  | pkFinishPoint (core : Nat)
  /-- PK_CORE_FAULT (R268). A failed invariant check erases the context and restarts the job once, the core then testing itself. -/
  | pkCoreFault (core : Nat) (detail : Nat)
  /-- PK_CORE_KAT_VERDICT (R268). The core's known-answer set ends and the core returns to ACTIVE or becomes FAILED. -/
  | pkCoreKatVerdict (core : Nat) (pass : Bool)
  /-- QUIESCE_GRANT (R376). A requested block becomes idle with KEEP clear and is quiesced. -/
  | quiesceGrant (block : Nat)
  /-- STALL_LIMIT (R419). A stall watcher reaches its limit and the stage's fault is handled by its scope. -/
  | stallLimit (st : StallStage)
  /-- CONTROL_STAGE_DISAGREEMENT (R420). Copies of a duplicated control stage disagree; re-execution, simplex or device fault follows. -/
  | controlStageDisagreement (block : Nat) (stage : Nat) (retryAgrees : Bool) (pass1 : Bool) (pass2 : Bool)
  /-- CU_MISMATCH (R433). Aster and Iris disagree or a checker fires; repair, rollback or diagnosis follows. -/
  | cuMismatch (m : CuMismatch)
  /-- CU_RESYNC (R435). A dropped unit finishes self-test and resynchronises or becomes FAILED. -/
  | cuResync (pass : Bool) (us : Nat)
  /-- DEVICE_FAULT (R427). A device fault stops fetching and dispatch, erases keys and ends all work with FAULT. -/
  | deviceFault (seq : Nat)
  /-- DEVICE_FAULT_ACTION (R428). After the device fault records, the device warm-resets after 1 ms or holds. -/
  | deviceFaultAction
  /-- WATCHDOG (R373). The secure watchdog expires and causes a warm reset or the Ahnom-compatible halt. -/
  | watchdog
  /-- EVENT_RECORD_WRITE (R436). The recorder writes one event record in three durable steps. -/
  | eventRecordWrite
  /-- RATE_WINDOW_END (R439). A Meridian second ends and EV_SUPPRESSED records are written for suppressed codes. -/
  | rateWindowEnd
  /-- POWER_ON_RESET (R451). Main supplies rise from below their power-down thresholds. -/
  | powerOnReset
  /-- SUPPLY_LOSS (R445). A main supply falls below its power-down threshold; glitch groups are disarmed. -/
  | supplyLoss
  /-- GLITCH_ARM (R445). 1 ms after every main supply is valid Vesper arms the glitch groups. -/
  | glitchArm
  /-- PERST_N_FALL (R451). PERST_N low with supplies valid holds the main die in a warm reset. -/
  | perstFall
  /-- PERST_N_RISE (R446). PERST_N rises and the start-up sequence and link training begin. -/
  | perstRise
  /-- VESPER_STATE_READ (R401). Start-up stage 1 reads Vesper's state, checks for a cold Vesper and loads Meridian. -/
  | vesperStateRead
  /-- MAIN_DIE_SELF_TEST (R449). Start-up stage 2 tests the main die, assigns pair roles and chooses the profile. -/
  | mainDieSelfTest (r : SelfTest)
  /-- FIRMWARE_CHECK (R448). Start-up stage 3 checks and boots custody and service firmware images. -/
  | firmwareCheck (r : FirmwareScan)
  /-- ROOT_HAND_OFF (R450). Start-up stage 4 hands over the Vesper root as the lock class allows and enables the noise sources. -/
  | rootHandOff
  /-- FIRST_SEEDING (R289). Start-up stage 5 instantiates the generator from the first credited window. -/
  | firstSeeding
  /-- SLOTS_LOADED (R450). Start-up stage 6 creates slots 2 and 3 and reloads the domain and tenant slots. -/
  | slotsLoaded (bad : List (Nat))
  /-- QUEUES_OPEN (R446). Start-up stage 7 loads extensions, locks gates, enables fetch and dispatch and raises READY. -/
  | queuesOpen
  /-- DISCOVER (R350). An FDP DISCOVER is answered with an ANNOUNCE. -/
  | discover (r : FdpRoute)
  /-- HELLO (R351). An FDP HELLO starts a session and is answered with a HELLO_REPLY and attestation. -/
  | hello (r : FdpRoute)
  /-- AUTH (R351). A sealed AUTH is verified against the role key and the session is accepted or refused. -/
  | auth (r : FdpRoute)
  /-- REQUEST (R355). A sealed FDP REQUEST runs a permitted command and returns a RESPONSE. -/
  | request (r : FdpRoute)
  /-- CLOSE (R356). A CLOSE ends the FDP session and erases its keys. -/
  | close (r : FdpRoute)
  /-- FRAGMENT_TIMEOUT (R349). A partial FDP message not completed within 1 s is discarded. -/
  | fragmentTimeout (k : Nat)
  /-- AUTH_TIMEOUT (R351). A session with no valid AUTH 10 s after HELLO_REPLY is discarded. -/
  | authTimeout (session : Nat)
  /-- SESSION_IDLE_TIMEOUT (R356). An FDP session with no accepted frame for fdp.session.idle_s ends. -/
  | sessionIdleTimeout (session : Nat)
  /-- PLCA_BEACON_CHANGE (R345). PLCA beacons are lost or regained and the port changes access method. -/
  | plcaBeaconChange (present : Bool)
  /-- CHALLENGE_EXPIRY (R232). A ceremony not yet executing reaches EXPIRES and closes, discarding approvals. -/
  | challengeExpiry
  /-- CONTINUATION_WINDOW_EXPIRY (R244). An executed ceremony's continuation window ends and the ceremony closes. -/
  | continuationWindowExpiry
  /-- DEBUG_ACCESS (R379). A debug transaction is checked by the gates and locked regions read 0 and ignore writes. -/
  | debugAccess (addr : Nat) (write : Bool) (v : Word)
  /-- DEBUG_HALT (R380). A debug halt suspends the normal world, or both worlds in DEBUG. -/
  | debugHalt
  /-- REFCLK_LOSS (R30). REFCLK stops; Meridian continues from the watch oscillator without a step, the AVSBus master moves to 8 MHz and the management port falls silent. -/
  | refclkLoss
  /-- REFCLK_RETURN (R30). REFCLK returns; Meridian goes back to counting from REFCLK without a step and the AVSBus master and management port PLL resume from it. -/
  | refclkReturn
  /-- WRAPPED_STORE_RELOAD (R215). The key slot store brings a LOADING slot in from the wrapped store during the reload after a class Z unlock or after the domain key returns, waking jobs that wait on it. -/
  | wrappedStoreReload (n : Nat) (okA : Bool) (okB : Bool)
  /-- TIME_ADJUST_DONE (R410). A time.adjust_ms slew uses up its amount and the calendar returns to its normal rate, clearing VS_TIME.ADJUSTING. -/
  | timeAdjustDone
  /-- OPERATING_CONDITIONS_CHANGE (R416). Supplies or Tj leave or return to the operating conditions, changing condition 0 of red.conditions and recording GUARANTEE. -/
  | operatingConditionsChange (within : Bool)
  /-- DEBUG_RESUME (R380). A debug halt is released and the halted worlds resume, ending condition 6 of R416 and restarting the paused watchdog in DEBUG. -/
  | debugResume
  /-- MEMORY_SPACE_ENABLE_CLEAR (R293). Clearing Memory Space Enable discards the function's random-page read buffer and makes its BAR requests complete with Unsupported Request. -/
  | memorySpaceEnableClear (f : Nat)
  /-- BUS_MASTER_ENABLE_SET (R173). Setting Bus Master Enable lets a vector whose PBA bit was set send its single message once every condition holds. -/
  | busMasterEnableSet (f : Nat)
  /-- VESPER_SUPPLY_RISE (R468). Vesper's supply rises from nothing; Vesper starts cold without its retained state and begins the 2 s hold-off before evaluating the XTAL group. -/
  | vesperSupplyRise
  deriving DecidableEq, Repr

end Sys2Proof
end

