-- ==== Sys2Proof/Decode.lean ====
section
/-!
DEFINITION. The commands are register accesses, queue entries, frames and events of the block; no row of the opcode
table gives them bits, so no word spells one.
-/

namespace Sys2Proof

/-- The command a word of the table spells: none, since no row of the table gives bits. -/
def decodeTableWord (_nbits _w : Nat) : Option Instr := none

end Sys2Proof
end

