-- ==== Sys2Proof/Machine/Bits.lean ====
section
/-!
DEFINITION. Byte order, bit fields, sign extension and sparse tables: the helpers every other file uses.
-/

namespace Sys2Proof

namespace Bytes

/-- The byte at offset `i`; 0 past the end. -/
def at_ (b : Bytes) (i : Nat) : Byte := b.getD i 0

/-- `n` bytes starting at offset `o`; offsets past the end read 0. -/
def slice (b : Bytes) (o n : Nat) : Bytes := (List.range n).map fun k => b.getD (o + k) 0

/-- The little-endian number the bytes spell (R15). -/
def toLE : Bytes → Nat
  | [] => 0
  | x :: r => x.toNat + 256 * toLE r

/-- The big-endian number the bytes spell. -/
def toBE (b : Bytes) : Nat := b.foldl (fun a x => a * 256 + x.toNat) 0

/-- The little-endian integer field of `n` bytes at offset `o`. -/
def leAt (b : Bytes) (o n : Nat) : Nat := toLE (slice b o n)

/-- `n` as `k` little-endian bytes. -/
def ofLE : Nat → Nat → Bytes
  | 0, _ => []
  | k + 1, n => BitVec.ofNat 8 n :: ofLE k (n / 256)

/-- `n` as `k` big-endian bytes. -/
def ofBE (k n : Nat) : Bytes := (ofLE k n).reverse

/-- `n` zero bytes. -/
def zeros (n : Nat) : Bytes := List.replicate n 0

/-- Bytes given as plain numbers. -/
def ofNats (l : List Nat) : Bytes := l.map (BitVec.ofNat 8)

/-- The ASCII bytes of a string. -/
def ascii (s : String) : Bytes := s.toList.map fun c => BitVec.ofNat 8 c.toNat

/-- Bytewise exclusive or, as long as the shorter operand. -/
def xor (a b : Bytes) : Bytes := List.zipWith (· ^^^ ·) a b

/-- Every byte is zero. -/
def allZero (b : Bytes) : Bool := b.all (· == 0)

/-- Every byte of the `n` at offset `o` is zero. -/
def zeroAt (b : Bytes) (o n : Nat) : Bool := allZero (slice b o n)

/-- `b` cut or padded with zeros to exactly `n` bytes. -/
def fit (b : Bytes) (n : Nat) : Bytes := slice b 0 n

/-- `b` in pieces of `n` bytes, the last possibly shorter; `fuel` bounds the number of pieces. -/
def chunksFuel (n : Nat) : Nat → Bytes → List Bytes
  | 0, _ => []
  | _ + 1, [] => []
  | k + 1, b => b.take n :: chunksFuel n k (b.drop n)

/-- `b` in pieces of `n` bytes, the last possibly shorter. -/
def chunks (n : Nat) (b : Bytes) : List Bytes := chunksFuel n b.length b

/-- `b` with its bytes from offset `o` on replaced by `v`. -/
def patch (b : Bytes) (o : Nat) (v : Bytes) : Bytes := b.take o ++ v ++ b.drop (o + v.length)

end Bytes

/-- Bit `i` of a natural number. -/
def bit (n i : Nat) : Bool := n.testBit i

/-- Bits [hi:lo] of a natural number. -/
def bitsOf (n hi lo : Nat) : Nat := (n >>> lo) % 2 ^ (hi + 1 - lo)

/-- The bits of a double word. -/
abbrev allBits : Nat := 0xFFFFFFFF

/-- `a` with the bits of mask `m` taken from `b`. -/
def mergeBits (m a b : Nat) : Nat := (a ^^^ (a &&& m)) ||| (b &&& m)

/-- `n` rounded up to a multiple of `m`. -/
def roundUp (n m : Nat) : Nat := (n + m - 1) / m * m

/-- 1 for true, 0 for false. -/
def b2n (b : Bool) : Nat := if b then 1 else 0

/-- `n + 1`, held at `top` (a saturating counter). -/
def satAdd (n top : Nat) : Nat := if n < top then n + 1 else top

/-- Two byte ranges that share at least one byte. -/
def rangesMeet (a la b lb : Nat) : Bool := decide (a < b + lb) && decide (b < a + la) && decide (0 < la) && decide (0 < lb)

/-- Two's complement value of the low 32 bits. -/
def int32 (n : Nat) : Int := if n % 2 ^ 32 < 2 ^ 31 then (n % 2 ^ 32 : Nat) else ((n % 2 ^ 32 : Nat) : Int) - 2 ^ 32

/-- The low 32 bits of an integer, as a natural number. -/
def ofInt32 (i : Int) : Nat := (i % 2 ^ 32).toNat

/-- A sparse table: keys to values, keys strictly rising. A key that is not listed has the default of its reader. -/
abbrev FMap (α : Type) := List (Nat × α)

namespace FMap
variable {α : Type}

/-- The value listed under a key. -/
def find? (m : FMap α) (k : Nat) : Option α :=
  match m with
  | [] => none
  | (j, v) :: r => if j = k then some v else find? r k

/-- The value under a key, or the default. -/
def getD (m : FMap α) (k : Nat) (d : α) : α := (find? m k).getD d

/-- The table with `k` holding `v`, its keys still rising. -/
def set (m : FMap α) (k : Nat) (v : α) : FMap α :=
  match m with
  | [] => [(k, v)]
  | (j, w) :: r => if k < j then (k, v) :: (j, w) :: r else if k = j then (k, v) :: r else (j, w) :: set r k v

/-- The table without the key. -/
def erase (m : FMap α) (k : Nat) : FMap α := m.filter fun p => p.1 ≠ k

/-- The keys listed. -/
def keys (m : FMap α) : List Nat := m.map (·.1)

end FMap

/-- The lowest index below `n` at which the test holds. -/
def firstBelow (n : Nat) (p : Nat → Bool) : Option Nat := (List.range n).find? p

/-- Element with the largest score, the first of equals; none for the empty list. -/
def argMax {α : Type} (f : α → Int) : List α → Option α
  | [] => none
  | a :: r => match argMax f r with
    | none => some a
    | some b => if f a ≥ f b then some a else some b

/-- `l` rotated so that it begins with the first element after those not above `k` (round-robin order after `k`). -/
def rotateAfter (k : Nat) (l : List Nat) : List Nat := l.filter (· > k) ++ l.filter (· ≤ k)

end Sys2Proof
end

