-- ==== Sys2Proof/Config.lean ====
section
/-!
DEFINITION. What is fixed for the part, and the free values. Every constant here is opaque: nothing in Lean can
evaluate it, so a statement that holds, holds whatever it is.
-/

namespace Sys2Proof.Config

/-! ## Free values

Each is applied to the count of free values drawn so far, which the state holds, so that every draw is fresh. -/

/-- A number the manual leaves open. -/
opaque freeNat : Nat → Nat
/-- Byte `i` of a value the manual leaves open. -/
opaque freeByte : Nat → Nat → Byte
/-- Whether byte `i` of an abandoned destination has been written. -/
opaque freePick : Nat → Nat → Bool
/-- cell.soc_pm of a cell whose estimated capacity is 0, and the ratio of a measured capacity to a modelled one of 0: R404 and
R405 divide by them and state no result there. -/
opaque socEmpty : Nat → Nat
opaque ratioEmpty : Nat → Nat

/-! ## The part -/

/-- id.serial (R331). -/
opaque serial : Nat
/-- The management port's MAC address, 6 bytes (R331). -/
opaque mac : Bytes
/-- Meridian second of manufacture (R331). -/
opaque made : Nat
/-- Certificate chains of the two attestation keys (R247): ECDSA P-384 and ML-DSA-65. -/
opaque chainEcdsa : Bytes
opaque chainMldsa : Bytes
/-- Factory resistance of a mesh layer's line, in ohms (R389). -/
opaque meshOhms : Nat → Nat
/-- The public key of the attestation certificate a kid names, when its chain ends in the manufacturing CA (R247,
R248); the chain of a peer is not part of a statement. 1 names ECDSA P-384, 2 ML-DSA-65. -/
opaque attestedKey : (alg : Nat) → (kid : Bytes) → Option Bytes
/-- The DER of the two leaf certificates, for their kids (R248). -/
opaque leafEcdsa : Bytes
opaque leafMldsa : Bytes
/-- Digest of the boot ROM (R185). -/
opaque bootRomDigest : Bytes
/-- A firmware image of a kind (1 custody firmware, 2 service firmware base) carries a valid Fiboex signature (R237,
R448); the image's format is not in the manual. -/
opaque firmwareSigned : (kind : Nat) → (image : Bytes) → Bool
/-- The security version a firmware image's signature covers (R237). -/
opaque firmwareSvn : (image : Bytes) → Nat

/-! ## What the standards of the public-key operations leave to the part (R252) -/

/-- Private scalars and per-message secrets come from extra random bits, or from candidates that are tested; FIPS 186-5
describes both. -/
opaque extraBits : Bool
/-- Base of a round of the primality test of a candidate (FIPS 186-5, appendix B.3). -/
opaque primeBase : (candidate round : Nat) → Nat
/-- Random bytes that stand for what the device identity secret gives each attestation key; the manual does not give the
derivation (R190). -/
opaque attestSeed : (alg : Nat) → Bytes

/-! ## What SPDM (DSP0274, DSP0277) and PCI Express leave to the part (R154, R184, R186) -/

/-- CTExponent and DataTransferSize of CAPABILITIES, and the HeartbeatPeriod of a session in seconds. -/
opaque spdmCtExponent : Nat
opaque spdmTransfer : Nat
opaque spdmHeartbeat : Nat
/-- Digest of the certificate at the root of the device attestation chain. -/
opaque rootDigest : Bytes
/-- OpaqueData of a response, from that of the request. -/
opaque spdmOpaque : Bytes → Bytes
/-- RandomData that pads a secured message, by session and sequence number. -/
opaque spdmPad : (session seq : Nat) → Bytes
/-- A configuration register, or bits of one, that the hardware initialises and the manual does not give, by function and
offset. -/
opaque cfgInit : (f off : Nat) → Nat
/-- PF0's routing ID as the host assigned it, with the segment above bit 16. -/
opaque routingId : Nat

/-! ## Digests the manual names without fixing their input -/

/-- Digest of a profile's stored set (R332), whose stored form the manual does not give. -/
opaque profileDigest : Bytes → Bytes

end Sys2Proof.Config
end

