-- ==== Sys2Proof/Machine/State.lean ====
section
/-!
DEFINITION. Everything the Thaza holds, as plain data: the functions and their queues, the job table, the pairs, the
key slots in their two masked copies, custody, the engines, the registers, Vesper, the recorder, and the queue of
commands that are waiting. `State.reset` is a factory device at a power-on reset (R6, R451).
-/

namespace Sys2Proof.Machine

/-- Why the block stops. The manual gives every command a next state, so there is no reason: this type has no
constructor, and no step of the model faults. -/
inductive Fault where
  deriving DecidableEq, Repr

/-- Why a command has no meaning. -/
inductive Refusal where
  /-- A row of the opcode table whose meaning is not written; raised by its arm of exec alone. Safe. -/
  | notModelled (mnemonic : String)
  deriving DecidableEq, Repr

/-- The answer of a step of this machine. -/
abbrev Outcome (σ : Type) := Host.Outcome σ Fault Refusal

/-! ## Queues and jobs -/

/-- State of a job queue that exists (R141, R146). -/
inductive QueueState where
  | active | draining | failed
  deriving DecidableEq, Repr

/-- Class of a job queue (R105, R139). -/
inductive JobClass where
  | urgent | standard | bulk
  deriving DecidableEq, Repr

/-- A fetched entry of a ring, from FN_JQ_CI on (R129). -/
structure RingEntry where
  index : Word
  len   : Nat
  done  : Bool
  deriving DecidableEq, Repr

/-- A job queue (R114, R117, R139). -/
structure JobQueue where
  st       : QueueState := .active
  log2     : Nat
  ring     : Nat
  cq       : Nat
  cls      : JobClass := .standard
  defUs    : Nat := 1000000        -- default timeout, µs (R133)
  pi       : Word := 0
  ci       : Word := 0
  entries  : List RingEntry := []  -- fetched entries from FN_JQ_CI on, in ring order
  bells    : List (Word × Nat) := []   -- accepted producer indices with their arrival stamp (R109)
  unread   : Bool := false         -- the drain in progress met a slot that still cannot be read (R146)
  deriving DecidableEq, Repr

/-- A completion queue (R114, R117, R140). -/
structure CompQueue where
  log2     : Nat
  ring     : Nat
  mirror   : Nat
  vector   : Nat := 0
  irqEn    : Bool := false
  pi       : Word := 0
  ci       : Word := 0
  reserved : Nat := 0              -- records reserved (R126)
  covered  : Word := 0             -- producer index the mirror shows (R127)
  firstAt  : Nat := 0              -- Meridian time of the first uncovered record
  irqNow   : Bool := false         -- an uncovered record asks for an immediate interrupt
  deriving DecidableEq, Repr

/-- Where a job stands (the four stages before R129; completed jobs leave the table). -/
inductive Stage where
  | runAhead | committed
  deriving DecidableEq, Repr

/-- The engine a committed job runs on (R132). -/
inductive Engine where
  | none_
  | pair (p : Nat)
  | publicKey
  | random
  | firmware
  deriving DecidableEq, Repr

/-- Status, detail and results of a completion (R124). -/
structure Done where
  status : Nat
  detail : Nat := 0
  r0     : Nat := 0
  r1     : Nat := 0
  deriving DecidableEq, Repr

/-- Where the reads of a job stand (R150). -/
inductive Reads where
  | none_ | outstanding | arrived
  deriving DecidableEq, Repr

/-- A key or other secret held under a mask (R195): the stored value is the clear value XORed with the mask. -/
structure Masked where
  x : Bytes := []
  m : Bytes := []
  deriving DecidableEq, Repr

/-- What a public-key operation has computed and not yet released (R267): the completion, the bytes for OUT0 and OUT1,
the key for a new slot, and the detail of an invariant check that failed. -/
structure PkResult where
  done : Done
  out0 : Bytes := []
  out1 : Bytes := []
  key  : Bytes := []
  check : Option Nat := none
  deriving DecidableEq, Repr

/-- What an attempt drew from the engine's mask generator for its representation (R265): where the keystream stood. -/
structure Rep where
  key : Bytes := []
  ctr : Nat := 0
  deriving DecidableEq, Repr

/-- One entry of the job table. Admin commands have one too, on queue 0. -/
structure Job where
  ref      : JobRef
  entry    : Bytes
  len      : Nat                   -- slots the entry consumes (R123)
  header   : Option Done := none   -- refusal by the header checks
  stage    : Stage := .runAhead
  engine   : Engine := .none_
  atTime   : Nat := 0              -- Meridian time of the fetch (R133)
  arrival  : Nat := 0              -- doorbell arrival stamp (R109)
  attempts : Nat := 0
  pair     : Nat := 0xFF           -- pair of the last attempt (R124)
  tried    : List Nat := []        -- pairs already attempted (R94)
  withdrawn : Bool := false        -- waits at the head of its class for a retry
  charged  : Bool := false         -- credits and usage charged (R109, R199)
  downgraded : Bool := false       -- an urgent job scheduled in the standard class (R106)
  leaseWait : Bool := false        -- its commitment has waited for a usage checkpoint (R200)
  slot     : Nat := 0
  gen      : Nat := 0              -- slot generation bound at dispatch
  epoch    : Nat := 0
  tenant   : Nat := 0
  keyA     : Masked := {}          -- A lane or core key register
  keyB     : Masked := {}          -- B lane or core key register
  salt     : Bytes := []
  written  : Nat := 0              -- destination bytes an UNSEAL has written (R55)
  hold     : Nat := 0              -- bytes of staging reserved in hold mode (R57)
  reads    : Reads := .none_
  inA      : List Bytes := []      -- payload its reads brought, operand by operand, in the A side's staging (R25)
  inB      : List Bytes := []      -- ... and in the B side's
  claim    : Bool := false         -- a retry, refetch or restart holds the job's claim (R429)
  refetched : Bool := false        -- the entry has been refetched once (R87)
  restarts : Nat := 0              -- restarts of a public-key job (R268)
  badCore  : Option Nat := none    -- the core whose fault restarted it (R268)
  rep      : Rep := {}             -- the present attempt's random representation (R265)
  draws    : Bytes := []           -- random bytes drawn for the present attempt (R266)
  parkedFor : Nat := 0             -- Meridian time spent parked (R271)
  stop     : Option Done := none   -- what ends the job at its next yield point (R273), or when its retry settles (R430)
  ended    : Bool := false         -- squashed with that end: only its outstanding reads are awaited (R134, R144)
  silent   : Bool := false         -- ... without a record of its own (function reset, R164; drain, R141)
  result   : Option PkResult := none   -- public-key result awaiting its finish point
  phase    : Nat := 0              -- progress of a command that takes several steps
  work     : Bytes := []           -- bytes such a command holds between its steps
  since    : Nat := 0              -- Meridian time the present phase began
  outcome  : Option Done := none   -- completion decided, record not yet issued
  deriving DecidableEq, Repr

/-! ## Functions -/

/-- fn.state (R161). -/
inductive FnRun where
  | unallocated | ready | resetting | frozen | d3hot
  deriving DecidableEq, Repr

/-- A session key set (R67), its key in an A and a B copy (R69). -/
structure SessionSet where
  staging : Bytes := Bytes.zeros 32
  writtenK : List Nat := []        -- key words written since the last LOAD or CLEAR
  klen    : Nat := 0
  valid   : Bool := false
  loadErr : Bool := false
  a       : Masked := {}
  b       : Masked := {}
  deriving DecidableEq, Repr

/-- One interrupt vector: moderation register and state (R172, R173), MSI-X table entry (R171) and PBA bit. -/
structure Vector_ where
  countTh : Nat := 1
  timeTh  : Nat := 0
  pending : Bool := false
  n       : Nat := 0
  due     : Bool := false
  t0      : Nat := 0
  addr    : Nat := 0
  data    : Word := 0
  ctrl    : Word := 1              -- bit 0: masked
  pba     : Bool := false
  deriving DecidableEq, Repr

/-- A range whose pages are logged (R176). -/
structure DirtyRange where
  base  : Nat
  pages : Nat
  bmA   : Nat
  bmB   : Nat
  deriving DecidableEq, Repr

/-- Dirty-page logging of a function (R177 to R179). -/
structure DirtyLog where
  ranges  : List DirtyRange
  useB    : Bool := false          -- the active bitmap is BITMAP_B
  outside : Bool := false
  cache   : List (Nat × Nat) := [] -- cached 64-bit words: key range*2^32+word, bits
  count   : Nat := 0               -- bits set from 0 to 1 in the active bitmap so far
  deriving DecidableEq, Repr

/-- A read of FN_RNG_DATA that waits for fresh bytes (R292, R293). -/
structure StalledRead where
  got   : Bytes                    -- bytes taken so far
  need  : Nat                      -- bytes still to come
  since : Nat
  deriving DecidableEq, Repr

/-- Configuration space of a function, as far as software can change it or the device reports in it
(R151 to R158). -/
structure ConfigSpace where
  bme        : Bool := false       -- Bus Master Enable
  mse        : Bool := false       -- Memory Space Enable
  msixEnable : Bool := false
  msixMask   : Bool := false       -- Function Mask
  relaxed    : Bool := true        -- Enable Relaxed Ordering
  mps        : Nat := 0            -- Max_Payload_Size field
  mrrs       : Nat := 2            -- Max_Read_Request_Size field
  txPending  : Bool := false       -- Transactions Pending
  d3         : Bool := false       -- PowerState as written: D3hot
  numVfs     : Nat := 0            -- SR-IOV, PF0 only
  vfEnable   : Bool := false
  vfMse      : Bool := false
  uncor      : List Nat := []      -- AER uncorrectable status bits set (sticky)
  cor        : List Nat := []      -- AER correctable status bits set (sticky)
  firstErr   : Nat := 0            -- AER First Error Pointer (sticky)
  header     : List Nat := []      -- AER header log, four double words (sticky)
  regs       : FMap Nat := []      -- every other register software has written, by offset
  deriving DecidableEq, Repr

/-- One PCI Express function. -/
structure Fn where
  run      : FnRun := .unallocated
  tenant   : Nat := 0
  jqN      : Nat := 0
  cqN      : Nat := 0
  vecN     : Nat := 0
  skN      : Nat := 0
  quota    : Nat := 0
  share    : Nat := 0
  urgentQ  : Nat := 0
  release  : Nat := 0
  qosMin   : Nat := 0
  qosCeil  : Nat := 900000
  qosWeight : Nat := 100
  mc       : Int := 0              -- minimum credit (R108)
  ec       : Int := 0              -- excess credit
  cc       : Int := 0              -- ceiling credit
  jqs      : FMap JobQueue := []
  cqs      : FMap CompQueue := []
  aqJq     : Nat := 0              -- FN_AQ_JQ_BASE (R138)
  aqCq     : Nat := 0              -- FN_AQ_CQ_BASE
  aqMirror : Nat := 0
  aqJqLog  : Nat := 6
  aqCqLog  : Nat := 6
  aqVec    : Nat := 0
  aqIrqEn  : Bool := false
  aqBusy   : Bool := false
  aqErr    : Bool := false
  aqOn     : Bool := false
  sk       : FMap SessionSet := []
  rngBuf   : Bytes := []           -- random-page read buffer (R292)
  rngStall : List StalledRead := []   -- in the order they arrived
  rngAborted : Bool := false       -- FN_RNG_STAT.ABORTED
  event    : Word := 0             -- FN_EVENT
  qerr0    : Word := 0
  qerr1    : Word := 0
  irqVec   : Nat := 0              -- FN_IRQ_CFG.VECTOR
  irqEn    : Bool := false
  evEn     : Nat := 0              -- FN_IRQ_CFG.EV_EN
  vecs     : FMap Vector_ := []
  cfg      : ConfigSpace := {}
  quiesce  : Option Nat := none    -- Meridian time of a D3hot write whose quiescence runs (R175)
  freezing : Bool := false         -- a FREEZE waits for committed work (R180)
  thawed   : Bool := false         -- thawed since FN_ALLOC or the last reset (R182)
  sleptAt  : Nat := 0              -- Meridian time at which D3hot was entered (R175)
  froze    : Bool := false         -- FROZEN when D3hot was entered (R175, R180)
  reading  : List JobRef := []     -- jobs a function reset ended whose reads are still outstanding (R164)
  resetCause : Nat := 0
  resetAt  : Nat := 0
  log      : Option DirtyLog := none
  turnQ    : Nat := 0              -- queue served last by fetching in this function (R131)
  turnD    : Nat := 0              -- standard queue served last by dispatch in this function (R109)
  turnB    : Nat := 0              -- bulk queue served last by dispatch in this function
  deriving DecidableEq, Repr

/-! ## Cipher fabric -/

/-- fabric.pair.p.state, with its codes in the order of the table after R99. -/
inductive PairState where
  | absent | bulk | urgent | spare | fenced | halfA | halfB | failed
  deriving DecidableEq, Repr

/-- A pair (R22 to R24, R79, R93). -/
structure Pair where
  st     : PairState := .absent
  role   : PairState := .absent    -- the role held before the fence (R99)
  jobs   : List JobRef := []       -- current and next job, or chained-mode jobs, in order
  fences : List Nat := []          -- Meridian times of fences in the last 60 s (R96)
  spent  : Bool := false           -- the present fence reached fabric.fence.limit (R96)
  stands : List (Nat × PairState) := []  -- fenced pairs it stands in for, newest first, with the role held before (R24)
  leaving : Option PairState := none  -- role it returns to once its jobs have completed (R24)
  nested : Nat := 0                -- nested faults since the fence (R425)
  deriving DecidableEq, Repr

/-- A mask generator (R83): an AES-256 CTR keystream with the number of blocks served since its last seeding. -/
structure MaskGen where
  key    : Bytes := []
  ctr    : Nat := 0
  served : Nat := 0
  asks   : Bool := false           -- reseeding asked for
  deriving DecidableEq, Repr

/-- The cipher fabric and its voltage loop. -/
structure Fabric where
  pairs    : List Pair := List.replicate 10 {}
  slices   : List Nat := List.replicate 5 0     -- hold-mode bytes reserved per cluster slice (R25, R57)
  sc       : Int := 0                           -- spill credit (R108)
  scaled   : Bool := false                      -- s < 1 has been recorded
  lastMc   : Nat := 0                           -- functions chosen last in each step of pick (R109)
  lastEc   : Nat := 0
  lastAny  : Nat := 0
  cycle    : Nat := 0                           -- fabric.cycle, ps
  vdd      : Nat := 0                           -- voltage v of R101, mV; 0 until PW has read the rail
  vddRead  : Nat := 0                           -- avs.vdd
  avsRail  : Nat := 0                           -- rail in force since reset
  decHold  : Bool := false                      -- decreases stopped (R103)
  failRun  : Nat := 0                           -- consecutive failures
  okRun    : Nat := 0                           -- consecutive successes
  avsFails : Nat := 0                           -- PW_AVS.FAILS
  vlimit   : Bool := false                      -- the VLIMIT event has been recorded for the present excursion
  rxSplit  : Nat := 0                           -- consecutive one-sided inbound failures (R85)
  gens     : List MaskGen := List.replicate 13 {}  -- 0 to 9 cluster sides, 10 and 11 slot copies A and B, 12 PK
  deriving DecidableEq, Repr

/-! ## Key slots -/

/-- Slot state (R215). -/
inductive SlotState where
  | empty | loaded | bad | loading | erasing
  deriving DecidableEq, Repr

/-- One working copy of a slot (R195). -/
structure SlotCopy where
  key   : Masked := {}
  attr  : Nat := 0                 -- the ATTR word of R192
  count : Nat := 0
  limit : Nat := 0
  nb    : Nat := 0
  na    : Nat := 0
  deriving DecidableEq, Repr

/-- A retiring generation (R213). -/
structure Retiring where
  gen : Nat
  a   : SlotCopy
  b   : SlotCopy
  deriving DecidableEq, Repr

/-- A key slot with what the store die keeps for it (R191, R195, R200, R203). -/
structure Slot where
  st       : SlotState := .empty
  a        : SlotCopy := {}
  b        : SlotCopy := {}
  lastGen  : Nat := 0
  genTime  : Nat := 0
  point    : Nat := 0              -- checkpoint P (R200)
  pendingP : Option Nat := none    -- checkpoint write in progress
  retiring : Option Retiring := none
  reloadDue : Bool := false        -- marked BAD and not yet reloaded (R198)
  blob     : Bytes := []           -- domain blob in the wrapped store; [] for none
  deriving DecidableEq, Repr

/-- The key slot store (R190, R196). -/
structure Store where
  slots    : FMap Slot := []
  sweep    : Nat := 0              -- next slot of the re-mask sweep
  sweepAt  : Nat := 0              -- Meridian time the pass began
  lastMs   : Nat := 0              -- ks.remask.last_ms
  passOk   : Bool := false         -- the pass in progress began after the stage-6 reload
  reload   : Bool := false         -- a reload of LOADING slots is in progress (R215)
  deriving DecidableEq, Repr

/-! ## Life-cycle and the upper key hierarchy -/

/-- lc.state with its codes in order (R219). -/
inductive LifeState where
  | factory | initialized | operational | locked | debug | decommissioned
  deriving DecidableEq, Repr

/-- Lock classes in order of weight (R396): none, the lock ceremony and failed sets, L, Z, V. -/
inductive LockClass where
  | none_ | ceremony | l | z | v
  deriving DecidableEq, Repr

/-- Life-cycle, the Vesper root and the domain key (R189, R219, R241). -/
structure Life where
  lc        : LifeState := .factory
  changed   : Nat := 0
  lockTime  : Nat := 0
  lockClass : LockClass := .none_
  before    : LifeState := .factory   -- the state held before LOCKED
  root      : Bytes := []             -- Vesper root; [] when there is none
  rootMain  : Bytes := []             -- the main die's copy of it after hand-off (R450)
  dkWrapped : Bytes := []             -- wrapped domain key on the store die
  domId     : Bytes := Bytes.zeros 16
  domSince  : Nat := 0
  domHow    : Nat := 0
  deriving DecidableEq, Repr

/-! ## Time, records and registers -/

/-- Meridian and its sources (R30, R31, R422). -/
structure Clock where
  meridian : Nat := 0
  running  : Bool := false            -- the main die's counter runs
  refclk   : Bool := true             -- REFCLK present
  onRef    : Bool := true             -- the counter advances from REFCLK
  slew     : Int := 0                 -- rate correction, ppm
  slewAcc  : Int := 0                 -- accumulated correction, millionths of a unit
  deriving DecidableEq, Repr

/-- A record on its way to the ring (R437). -/
structure EventRec where
  time   : Nat
  code   : Nat
  level  : Nat
  nested : Bool := false
  vesper : Bool := false
  calendar : Bool := false
  p0     : Nat := 0
  p1     : Nat := 0
  p2     : Nat := 0
  p3     : Nat := 0
  deriving DecidableEq, Repr

/-- The event recorder and its ring on the store die (R317, R436, R439). -/
structure Recorder where
  queue  : List EventRec := []
  head   : Nat := 0                   -- EV_HEAD, modulo 2^32
  cursor : Word := 0xFFFFFFFF#32
  ring   : FMap Bytes := []           -- records by ring position
  window : Nat := 0                   -- Meridian second the counts belong to
  counts : FMap Nat := []             -- records accepted per code in the window
  suppressed : FMap Nat := []
  deriving DecidableEq, Repr

/-- The block registers that hold state of their own (R313 to R320). -/
structure Regs where
  err      : List Word := List.replicate 12 0
  errEn    : List Word := List.replicate 12 0x1FFFF#32
  serving  : List Bool := List.replicate 12 false   -- xx_STAT.READY
  fetchEn  : Bool := false
  dispatchEn : Bool := false
  dsrcPend : BitVec 256 := 0
  dsrcEn   : BitVec 256 := 0
  dsrcVec  : Nat := 0
  dsrcIrq  : Bool := false
  doorbells : Nat := 0
  fences   : Nat := 0                 -- CF_FENCES
  tgAddr   : Nat := 0                 -- TG_FAULT
  tgInfo   : Nat := 0                 -- TG_FAULT_INFO
  rulesLock : Bool := false
  rules    : FMap Nat := []           -- gate rule words by TG offset (R366)
  owners   : FMap Nat := []           -- page owner words by page (R362)
  pwReq    : Nat := 0
  pwKeep   : Nat := 0
  pwGrant  : Nat := 0
  mpRx     : Nat := 0
  mpTx     : Nat := 0
  deriving DecidableEq, Repr

/-- What leaves the device, other than memory writes. -/
inductive OutMsg where
  | msix (fn v addr : Nat) (data : Word)
  | readData (fn : Nat) (data : Bytes)
  | completerAbort (fn : Nat)
  | unsupported (fn : Nat)
  | frame (eth : Bytes)
  | doe (obj : Bytes)
  | debugRead (addr : Nat) (data : Word)
  | avs (rail mv : Nat)
  | avsRead (rail : Nat)
  | avsStatus (rail : Nat)
  | replayRequest
  deriving DecidableEq, Repr

/-! ## Dictionary -/

/-- State of a stored profile (R332). -/
inductive ProfState where
  | empty | valid | bad | factory
  deriving DecidableEq, Repr

/-- A stored profile (R337). -/
structure Profile where
  st      : ProfState := .empty
  vals    : FMap Bytes := []
  written : Nat := 0
  deriving DecidableEq, Repr

/-- The writable values of the dictionary that no other part of the state holds. Keys are index*2^16+subindex;
a key that is not listed has the object's default. -/
structure Dict where
  force    : FMap Bytes := []         -- class P values in force
  dev      : FMap Bytes := []         -- class D values
  profiles : FMap Profile := []       -- profiles 1 to 3
  active   : Nat := 0
  fallback : Bool := false
  pins     : Nat := 0
  counters : FMap Nat := []           -- saturating counters of 0x5100 by subindex
  bad      : List (Nat × Nat) := []   -- stored copies that fail their digests: set and copy (R328)
  commits  : Nat := 0                 -- commit records written (R327)
  deriving DecidableEq, Repr

/-! ## Management port -/

/-- A partial FDP message (R349): fragments received so far. -/
structure Partial where
  key   : Nat                         -- reassembly key: source address, relay channel or session
  ty    : Nat
  next  : Nat
  bytes : Bytes
  start : Nat
  deriving DecidableEq, Repr

/-- How far a session has come (R351). -/
inductive SessPhase where
  | replied | open_
  deriving DecidableEq, Repr

/-- The path an FDP session uses (R359). -/
inductive SessPath where
  | port (mac : Bytes)
  | relay (ch : Nat)
  deriving DecidableEq, Repr

/-- An FDP request that has not been answered (R355). -/
structure OpenReq where
  id      : Nat
  op      : Nat
  payload : Bytes
  since   : Nat := 0
  deriving DecidableEq, Repr

/-- A message of a session that waits for room on its relay channel (R359). -/
structure Reply where
  ty   : Nat
  body : Bytes
  ends : Bool := false                -- the RESPONSE that ends the outstanding request
  deriving DecidableEq, Repr

/-- An FDP session (R351 to R356). -/
structure Session where
  id     : Nat
  phase  : SessPhase := .replied
  path   : SessPath
  entry  : Nat                        -- role entry
  kCd    : Bytes
  kDc    : Bytes
  ivCd   : Bytes
  ivDc   : Bytes
  th     : Bytes
  rx     : Option Nat := none         -- highest SEQ accepted
  tx     : Nat := 0                   -- next SEQ to send
  fails  : Nat := 0                   -- consecutive failed frames
  last   : Nat := 0                   -- Meridian time of the last accepted frame
  replied : Option Nat := none        -- Meridian time at which HELLO_REPLY was sent
  req    : Option OpenReq := none
  lastId : Option Nat := none         -- REQ_ID of the last completed request
  lastResp : Bytes := []
  waiting : List Reply := []          -- messages held until the relay channel has room (R359)
  deriving DecidableEq, Repr

/-- Work of the port that waits for random bytes (R289, R291): a HELLO, or a request with its session and role entry. -/
inductive PortWork where
  | hello (r : SessPath) (m : Bytes)
  | request (session entry : Nat) (m : Bytes)
  deriving DecidableEq, Repr

/-- The management port (R345 to R359). -/
structure Mgmt where
  beacon   : Bool := false
  sessions : List Session := []
  nextId   : Nat := 1
  parts    : List Partial := []
  hellos   : List Nat := []           -- Meridian times of answered HELLOs in the last second
  errs     : List (Nat × Nat) := []   -- last ERROR per destination key
  relay    : FMap (List Bytes) := []  -- pending outgoing frames per channel
  work     : List PortWork := []      -- what waits for random bytes, oldest first
  deriving DecidableEq, Repr

/-! ## Host link, SPDM and IDE -/

/-- State of an IDE stream (R186). -/
inductive IdeState where
  | insecure | secure
  deriving DecidableEq, Repr

/-- One sub-stream key of one key set (R186). -/
structure IdeKey where
  key    : Bytes
  iv     : Bytes
  active : Bool := false
  deriving DecidableEq, Repr

/-- The secret of one direction of a secured session, and its next sequence number. -/
structure SpdmDir where
  secret : Bytes
  seq    : Nat := 0
  deriving DecidableEq, Repr

/-- An SPDM secured session (R184). -/
structure SpdmSession where
  id     : Nat
  ver    : Nat := 0x12
  handshake : Bool := true            -- key exchange done, FINISH not yet received
  base   : Bytes := []                -- handshake secret
  log    : Bytes := []                -- messages its transcript hashes cover
  req    : SpdmDir := { secret := [] }
  rsp    : SpdmDir := { secret := [] }
  old    : Option SpdmDir := none     -- request direction before a KEY_UPDATE that is not yet verified
  meas   : Bytes := []                -- measurement messages not yet signed
  deriving DecidableEq, Repr

/-- A large request on its way in by CHUNK_SEND (R184). -/
structure ChunkIn where
  handle : Nat
  seq    : Nat
  size   : Nat
  got    : Bytes
  deriving DecidableEq, Repr

/-- A large response on its way out by CHUNK_GET. -/
structure ChunkOut where
  handle : Nat
  seq    : Nat
  sent   : Nat := 0
  msg    : Bytes
  deriving DecidableEq, Repr

/-- An SPDM connection (R184): how far the negotiation is, and the transcripts. -/
structure SpdmConn where
  phase  : Nat := 0                   -- 1 version known, 2 capabilities, 3 algorithms
  ver    : Nat := 0                   -- negotiated version; 0 before GET_CAPABILITIES
  room   : Nat := 0                   -- the requester's DataTransferSize; 0 for none
  keyEx  : Bool := false              -- ECDHE, AEAD and key schedule agreed
  base   : Bytes := []                -- GET_VERSION to ALGORITHMS
  certs  : Bytes := []                -- digests and certificates exchanged
  meas   : Bytes := []                -- measurement messages not yet signed
  chunkIn : Option ChunkIn := none
  chunkOut : Option ChunkOut := none
  handle : Nat := 0                   -- last chunk handle
  nextId : Nat := 1                   -- next responder session number
  deriving DecidableEq, Repr

/-- The host link (R148, R149), its DOE mailbox, SPDM and IDE (R183 to R187). -/
structure Link where
  rate     : Nat := 0
  width    : Nat := 0
  flit     : Bool := false
  degraded : Bool := false
  doe      : Bytes := []              -- data object in the read mailbox
  mailbox  : Bytes := []              -- what the host has written to the write mailbox
  doeInt   : Bool := false            -- DOE Interrupt Status
  held     : Option Bytes := none     -- data object whose answer waits for random bytes
  conn     : SpdmConn := {}
  spdm     : List SpdmSession := []
  ide      : FMap IdeState := []      -- stream state, by stream number
  ideKeys  : FMap IdeKey := []        -- by ((stream*2+set)*2+tx)*3+sub
  deriving DecidableEq, Repr

/-! ## Start-up, supplies and pins -/

/-- How far start-up has come (R446 to R449). -/
inductive BootPhase where
  | unpowered | held | stage (n : Nat) | open_ | unbooted | devHold
  deriving DecidableEq, Repr

/-- A stored firmware image (R237, R448). -/
structure Image where
  svn     : Nat := 0
  digest  : Bytes := []
  bytes   : Bytes := []
  deriving DecidableEq, Repr

/-- Start-up, pins and the device fault state. -/
structure Boot where
  phase    : BootPhase := .held
  supplies : Bool := true
  perst    : Bool := false            -- level of PERST_N
  powerOn  : Bool := true             -- the start-up to come follows a power-on reset
  psel0    : Bool := false
  psel1    : Bool := false
  testEn   : Bool := false
  stage3   : Bool := false            -- stage 3 has passed since the last reset
  stuck    : Bool := false            -- held unbooted: nothing after stage 3 runs until a power-on reset (R448)
  serviceFw : Bool := false           -- a service firmware base runs
  custodyNew : Option Image := none
  custodyOld : Image := {}
  serviceNew : Option Image := none
  serviceOld : Image := {}
  custodySvn : Nat := 0
  serviceSvn : Nat := 0
  escalated : Option Nat := none      -- SEQ of a record that escalated to a device fault not yet taken (R424)
  devFault : Bool := false            -- a device fault has been recorded since the last reset
  dueAt    : Option Nat := none       -- Meridian time of the warm reset a device fault asked for
  faultReset : Option Nat := none     -- Meridian time of the last warm reset a device fault caused
  faultNLow : Bool := false           -- FAULT_N stays low since a device fault caused the reset
  deriving DecidableEq, Repr

/-- Redundancy of the control stages and control units (R416, R420, R432 to R435). -/
structure Redundancy where
  iris     : Bool := false            -- CU_ACTIVE.IRIS: Iris is active
  inStep   : Bool := true
  switches : Nat := 0
  aster    : Nat := 0                 -- red.cu.aster
  irisSt   : Nat := 1                 -- red.cu.iris
  drops    : List (Bool × Nat) := []  -- drops from step in the last 60 s: unit and time
  simplex  : Nat := 0                 -- red.simplex
  conditions : Nat := 0               -- red.conditions as last recorded
  broken   : Nat := 0                 -- bit c: a fault of block c that its recovery could not mend (R314)
  within   : Bool := true             -- supplies and Tj within the operating conditions
  vsSilent : Bool := false            -- a VS access unanswered since the last warm reset
  lastFault : Nat := 0                -- red.devfault.last
  retryAt  : Option Nat := none       -- last generator restart (R421)
  deriving DecidableEq, Repr

/-! ## Custody -/

/-- One entry of the role table (R224). -/
structure RoleKey where
  alg   : Nat
  key   : Bytes
  label : Bytes := []
  since : Nat := 0
  deriving DecidableEq, Repr

/-- How far a ceremony has come: approvals are gathered, its action executes, or its continuation window is open
(R226, R232). -/
inductive CerStage where
  | gathering | executing | window
  deriving DecidableEq, Repr

/-- Who gave a firmware command: an admin job or the request of an FDP session (R226), with the session's role entry and the
room its request gives for output, which outlast the session (R356). -/
inductive Caller where
  | admin (j : JobRef)
  | fdp (session entry room : Nat)
  deriving DecidableEq, Repr

/-- The open ceremony (R226 to R234, R242 to R246). -/
structure Ceremony where
  id        : Nat
  action    : Nat
  params    : Bytes
  challenge : Bytes
  lc        : Nat                     -- lc.state at OPEN
  expires   : Nat                     -- Meridian time
  fdpPath   : Bool := false           -- the path it was opened on
  stage     : CerStage := .gathering
  approvals : List Nat := []          -- role entries, in order of arrival
  caller    : Option Caller := none   -- the EXECUTE or CONTINUE that waits or runs
  windowEnd : Nat := 0                -- Meridian time the continuation window ends
  offer     : Bytes := []             -- OFFER of a join
  request   : Bytes := []             -- REQUEST of a join, or restore request
  secret    : Bytes := []             -- ephemeral secrets held for the continuation
  shares    : List (Nat × Bytes) := []   -- share index and value
  check     : Bytes := []             -- CHECK of the shares
  deriving DecidableEq, Repr

/-- Custodians, quorum and ceremonies (chapter 7). -/
structure Custody where
  roles     : FMap RoleKey := []
  quorumN   : Nat := 0
  quorumM   : Nat := 0
  mono      : Nat := 0
  monoFw    : Nat := 0
  cer       : Option Ceremony := none
  extKeys   : FMap RoleKey := []
  deriving DecidableEq, Repr

/-! ## Random source -/

/-- One noise source with its test statistics (R281 to R284). -/
structure Source where
  first    : Bool := true             -- the next window is the first after the source was enabled
  biasLim  : Nat := 384               -- limits latched when the window in progress began
  corrLim  : Nat := 384
  bias     : Int := 0
  corr     : Int := 0
  pass     : Nat := 0
  fail     : Nat := 0
  lastFail : Bool := false
  deriving DecidableEq, Repr

/-- The random source (chapter 9). -/
structure Rng where
  sources  : List Source := List.replicate 8 {}
  enabled  : Bool := false            -- the sources run (R280)
  pool     : List Bytes := []         -- credited windows, oldest first (R283)
  key      : Bytes := []              -- CTR_DRBG Key and V (R285)
  v        : Bytes := []
  seeded   : Bool := false
  requests : Nat := 0
  reseeds  : Nat := 0
  blocked  : Nat := 0                 -- rng.reseed.blocked
  waiting  : Bool := false            -- a reseed is due and the pool is empty
  restart  : Bool := false            -- a restart waits for its window (R290, R421)
  fault    : Bool := false            -- that restart follows a fault of the generator (R314, R421)
  aborts   : Nat := 0
  last     : Bytes := []              -- previous output block (R421)
  salts    : List Bytes := []         -- dispatcher salt buffer (R291)
  refill   : Bool := false            -- a refill of the salt buffer is in progress
  fwBuf    : Bytes := []              -- bytes drawn for custody firmware
  fwWant   : Nat := 0                 -- bytes custody firmware waits for
  fills    : List JobRef := []        -- committed RNG_FILL jobs, oldest first (R296)
  gap4     : Nat := 0                 -- requests served since class 4 last was, while it waited
  gap5     : Nat := 0                 -- and since class 5 last was
  turn4    : Nat := 0                 -- mask generator and function served last
  turn5    : Nat := 0
  deriving DecidableEq, Repr

/-! ## Public-key engine -/

/-- pk.core.c.state with its codes in order (R268). -/
inductive CoreState where
  | absent | active | testing | failed
  deriving DecidableEq, Repr

/-- One public-key core with its two contexts (R268, R271). -/
structure PkCore where
  st       : CoreState := .absent
  cur      : Option JobRef := none
  parked   : Option JobRef := none
  parkedAt : Nat := 0
  faults   : List Nat := []           -- Meridian times of faults in the last 60 s
  erased   : Nat := 0                 -- contexts erased so far (R275)
  deriving DecidableEq, Repr

/-- The public-key engine (R269). -/
structure Pk where
  cores  : List PkCore := List.replicate 4 {}
  queue  : List JobRef := []          -- committed jobs not yet on a core, oldest first
  turnFn : Nat := 0                   -- function served last
  deriving DecidableEq, Repr

/-! ## Worlds, extensions and the watchdog -/

/-- A loaded service extension (R381 to R383): its image header, measurement, signing key and control RAM pages. -/
structure Ext where
  id      : Nat
  header  : Bytes
  measure : Bytes
  key     : Nat                        -- KEY_INDEX
  kid     : Bytes                      -- KEY_ID of the signing key
  code    : List Nat                   -- code pages, in image order
  data    : List Nat                   -- initialised data pages
  zero    : List Nat                   -- ZERO_PAGES
  image   : Bytes                      -- as stored on the store die
  deriving DecidableEq, Repr

/-- A call of an extension (R383 to R385): the EXT_CALL entry it serves and what its services have done so far. -/
structure Call where
  job     : JobRef
  ext     : Nat
  out     : Nat := 0                   -- bytes WRITE_OUT has written
  recAt   : Option Nat := none         -- SUBMIT in progress: where its completion record goes
  subJob  : Option JobRef := none      -- ... and the job
  work    : Bytes := []                -- random bytes gathered for RANDOM
  deriving DecidableEq, Repr

/-- An access fault the active unit took (R370): 1 instruction, 5 load, 7 store; its address; and whose entry took it. -/
structure Trap where
  cause   : Nat
  addr    : Nat
  custody : Bool
  deriving DecidableEq, Repr

/-- A set of the active unit's counters (R372), of 64 bits each: cycle, instret, and hpmcounter3 to 6. -/
structure PerfSet where
  cycle    : Nat := 0
  instret  : Nat := 0
  bus      : Nat := 0                  -- bus transactions
  stalls   : Nat := 0                  -- stall handshakes
  irqs     : Nat := 0                  -- interrupts taken
  refusals : Nat := 0                  -- gate refusals of the normal world
  deriving DecidableEq, Repr

/-- The worlds of the control units: watchdog, halts, extensions and their calls (R372 to R386). -/
structure Worlds where
  kickAt   : Nat := 0                  -- Meridian time of the last KICK
  armed    : Bool := false             -- custody firmware runs, so the watchdog does
  halted   : Bool := false             -- the secure world is halted (R374)
  wdogs    : Nat := 0                  -- expiries counted (R373, step 1)
  debugHalt : Bool := false            -- a debug halt is in effect (R380)
  pausedAt : Option Nat := none        -- ... which pauses the watchdog, in DEBUG
  exts     : List Ext := []            -- in registration order
  stored   : List Bytes := []          -- extension images on the store die, in registration order
  calls    : List Call := []           -- in arrival order
  perf     : PerfSet := {}             -- the set the normal world reads (R372)
  perfM    : PerfSet := {}             -- the secure world's own set
  trap     : Option Trap := none       -- the access fault taken last (R370)
  restarts : Nat := 0                  -- restarts of the service firmware base (R370)
  taken    : Option (ShadowReg × Nat) := none   -- the value taken for a register that disagrees with its shadow (R308)
  deriving DecidableEq, Repr

/-! ## Vesper -/

/-- A cell service window (R409). -/
structure SvcWindow where
  ends : Nat                           -- Meridian time it expires
  low  : Bool := false                 -- VBAT has been below 1,500 mV during it
  deriving DecidableEq, Repr

/-- The life counters (R412); the two durations in units of Meridian time. -/
structure LifeCounters where
  powered  : Nat := 0
  battery  : Nat := 0
  powerOns : Nat := 0
  alarms   : Nat := 0
  voids    : Nat := 0
  xtalFail : Nat := 0
  deriving DecidableEq, Repr

/-- cell.charge.state with its codes in order (R334). -/
inductive ChargeState where
  | off | cc | cv | done | tempHold | fault | service
  deriving DecidableEq, Repr

/-- The backup cell as Vesper knows it (R403 to R409). -/
structure Cell where
  vbat      : Nat := 0                 -- last VBAT measurement, mV
  present   : Bool := false
  temp      : Int := 0                 -- NTC, 0.1 °C
  st        : ChargeState := .off
  iMeas     : Nat := 0                 -- measured charge current, µA
  tStart    : Nat := 0                 -- calendar time CC was entered
  tPre      : Option Nat := none       -- calendar time VBAT was found below 2,500 mV while charging
  lowFor    : Nat := 0                 -- seconds in a row below term_ua
  remaining : Nat := 0                 -- charge remaining, µA·s
  charged   : Nat := 0                 -- charge delivered since installation, µA·s
  installed : Nat := 0
  k         : Nat := 1000000000        -- k of R405, in 10^-9
  aged      : Nat := 0                 -- aged years A of R405, in 10^-12
  socStart  : Option Nat := none       -- soc_pm at which the charge in progress began
  qIn       : Nat := 0                 -- charge delivered since then, µA·s
  tempSum   : Int := 0                 -- NTC readings of the hour in progress
  tempCount : Nat := 0
  hours     : List Int := []           -- mean NTC temperature of past hours, newest first, 30 days
  capacity  : List Nat := []           -- capacity_est at past hours, newest first, 90 days
  deriving DecidableEq, Repr

/-- Vesper (R388 to R413). Its life-cycle, lock and root are in `Life`, its copy of the class policy here. -/
structure Vesper where
  vchg      : Bool := true             -- VCHG at or above 3.0 V
  cond      : Nat := 0                 -- VS_COND
  latch     : Nat := 0                 -- VS_LATCH
  latchedAt : FMap Nat := []           -- tamp.g.latched_at
  repeats   : Nat := 0                 -- repeat count (R395)
  classes   : List Nat := [3, 3, 2, 2, 1, 1, 1, 1, 2, 1, 1, 1, 1, 1, 2, 0, 3, 1, 0, 1]  -- class policy in force (R394)
  xtamp     : List (Option Bool) := [none, none, none, none]   -- last sample of each switch input
  armed     : Bool := false            -- the GLITCH groups are armed (R445)
  glitchRef : Nat := 825               -- reference of GLITCH_CORE, mV (R390)
  refRead   : Bool := false            -- PW has read the rail since the last reset
  xtalOk    : Bool := true
  rose      : Option Nat := none       -- calendar time of the last supply rise, while the XTAL hold-off runs (R468)
  patKey    : Bytes := Bytes.zeros 16  -- mesh pattern generator, AES-128 CTR (R391)
  patCtr    : Nat := 0
  buf       : List EventRec := []      -- records not yet passed on, oldest first (R402)
  lost      : Nat := 0                 -- VS_BUF.LOST
  calendar  : Nat := 0
  calAcc    : Int := 0                 -- part of a unit the calendar is ahead, in 10^-9
  adjust    : Int := 0                 -- what remains of time.adjust_ms, in 10^-9 units
  valid     : Bool := true             -- time.valid
  counts    : LifeCounters := {}
  cell      : Cell := {}
  dieTemp   : Int := 0                 -- Vesper die temperature, 0.1 °C
  window    : Option SvcWindow := none
  factor    : Nat := 1                 -- cell.adapt.factor
  watch     : Nat := 0                 -- watch oscillator cycles in 1,024 crystal cycles at the last calibration
  stored    : LifeCounters := {}       -- checkpoints on the store die (R412)
  storedCal : Nat := 0
  warm      : Bool := true             -- the state marker: the retained state survived (R413)
  deriving DecidableEq, Repr

/-! ## The whole machine -/

/-- The Thaza. -/
structure State where
  fns     : FMap Fn := []
  jobs    : List Job := []
  stamp   : Nat := 0               -- next doorbell arrival stamp
  turnFn  : Nat := 0               -- function served last by fetching (R131)
  turnU   : Nat := 0               -- urgent queue served last, function*64+queue
  turnA   : Nat := 0               -- admin queue served last, by function
  fab     : Fabric := {}
  store   : Store := {}
  life    : Life := {}
  clock   : Clock := {}
  evr     : Recorder := {}
  regs    : Regs := {}
  dict    : Dict := {}
  mgmt    : Mgmt := {}
  link    : Link := {}
  boot    : Boot := {}
  red     : Redundancy := {}
  custody : Custody := {}
  rng     : Rng := {}
  pk      : Pk := {}
  worlds  : Worlds := {}
  vesper  : Vesper := {}
  mem     : List Host.Cell := []   -- host memory, keyed function*2^65 + IOVA
  cram    : List Host.Cell := []   -- control RAM, by RAM offset
  out     : List OutMsg := []      -- what has left the device, newest first
  free    : Nat := 0               -- free values drawn so far
  pending : List Instr := []
  deriving DecidableEq, Repr

/-- PF0 with the share of the pool that is always its own (R159) and the credits of a new function (R108). -/
def pf0 : Fn :=
  { run := .ready, jqN := 64, cqN := 64, vecN := 64, skN := 4, share := 256, qosCeil := 900000, cc := 2250000 }

/-- A factory device right after a power-on reset, supplies valid and PERST_N low (R6, R451). -/
def State.reset : State := { fns := [(0, pf0)], vesper := { counts := { powerOns := 1 } } }

end Sys2Proof.Machine
end

