-- ==== Sys2Proof/Machine/Ops.lean ====
section
/-!
DEFINITION. The operations every meaning is built from: functions of the state, time, host memory with dirty-page
logging, event records, error bits and device sources, status events, interrupt vectors, and what a step owes when
the device's conditions have changed.
-/

namespace Sys2Proof.Machine

/-! ## Completion status codes (R20) -/

namespace Status
abbrev ok := 0x00
abbrev okRetried := 0x01
abbrev aborted := 0x10
abbrev squashed := 0x11
abbrev timeout := 0x12
abbrev badEntry := 0x20
abbrev badOpcode := 0x21
abbrev accessDenied := 0x22
abbrev dmaError := 0x23
abbrev tagMismatch := 0x30
abbrev checkMismatch := 0x31
abbrev keyAbsent := 0x40
abbrev keyRevoked := 0x41
abbrev keyStale := 0x42
abbrev keyLimit := 0x43
abbrev keyPolicy := 0x44
abbrev pkInputInvalid := 0x50
abbrev pkFault := 0x51
abbrev degraded := 0x60
abbrev fault := 0x61
abbrev locked := 0x70
abbrev unavailable := 0x71
abbrev quorumRequired := 0x72
end Status

/-! ## Block codes (R299) -/

namespace Block
abbrev id := 0
abbrev qe := 1
abbrev cf := 2
abbrev ks := 3
abbrev pk := 4
abbrev rg := 5
abbrev vs := 6
abbrev ev := 7
abbrev tg := 8
abbrev cu := 9
abbrev mp := 10
abbrev pw := 11
end Block

/-! ## Functions, time, parameters and free values -/

/-- Function `f`; one never touched is an unallocated function. -/
def State.fn (s : State) (f : Nat) : Fn := s.fns.getD f {}

/-- `s` with function `f` replaced. -/
def setFn (f : Nat) (g : Fn) (s : State) : State := { s with fns := s.fns.set f g }

/-- `s` with function `f` changed by `h`. -/
def modFn (f : Nat) (h : Fn → Fn) (s : State) : State := setFn f (h (s.fn f)) s

/-- Meridian time (R18). -/
def State.now (s : State) : Nat := s.clock.meridian

/-- Units of Meridian time in a second (R18). -/
abbrev second : Nat := 2 ^ 24

/-- At least `us` microseconds of Meridian time lie between `t0` and `now` (R29). -/
def elapsedUs (now t0 us : Nat) : Bool := decide ((now - t0) * 1000000 ≥ us * second)

/-- Microseconds of Meridian time from `t0` to `now`, rounded down. -/
def sinceUs (now t0 : Nat) : Nat := (now - t0) * 1000000 / second

/-- Dictionary key of an object (R321). -/
def objKey (index sub : Nat) : Nat := index * 65536 + sub

/-- The number in force for a class P object whose default is `d`. -/
def State.param (s : State) (index sub d : Nat) : Nat :=
  match s.dict.force.find? (objKey index sub) with
  | some b => Bytes.toLE b
  | none => d

/-- The number held by a class D object whose default is `d`. -/
def State.devParam (s : State) (index sub d : Nat) : Nat :=
  match s.dict.dev.find? (objKey index sub) with
  | some b => Bytes.toLE b
  | none => d

/-- Advance the saturating U32 counter 0x5100:`sub` (R335, R442). -/
def bump (sub : Nat) (s : State) : State :=
  { s with dict := { s.dict with
      counters := s.dict.counters.set sub (satAdd (s.dict.counters.getD sub 0) 0xFFFFFFFF) } }

/-- Persistent sets: 0 the device set, 1 to 3 the profiles, 4 the role set, of which there are four copies (R327, R328). -/
def copiesOf (set : Nat) : Nat := if set = 4 then 4 else 2

/-- A write of a set: every copy takes the new value with a fresh digest, and then one commit record stands for it (R327). -/
def persist (set : Nat) (s : State) : State :=
  { s with dict := { s.dict with bad := s.dict.bad.filter (fun b => decide (b.1 ≠ set)), commits := s.dict.commits + 1 } }

/-- Note that one free value has been drawn. -/
def drewFree (s : State) : State := { s with free := s.free + 1 }

/-- Refusals by name of a register access (R300, R301). -/
def refuseAccess (s : State) : State := bump 0x10 s

/-- What leaves the device. -/
def emit (m : OutMsg) (s : State) : State := { s with out := m :: s.out }

/-! ## Host memory -/

/-- The canonical form: keys strictly rising, and no entry equal to what an unlisted key reads as. -/
def Memory.wf : List Host.Cell → Bool
  | [] => true
  | [(_, b)] => decide (b ≠ 0)
  | (k, b) :: (j, c) :: r => decide (b ≠ 0) && decide (k < j) && wf ((j, c) :: r)

/-- The byte a memory holds at a key; a key that is not listed reads 0. -/
def Memory.get : List Host.Cell → Nat → Byte
  | [], _ => 0
  | (j, c) :: r, k => if j = k then c else get r k

/-- The memory with byte `b` at key `k`, in canonical form. -/
def Memory.put : List Host.Cell → Nat → Byte → List Host.Cell
  | [], k, b => if b = 0 then [] else [(k, b)]
  | (j, c) :: r, k, b =>
    if k < j then (if b = 0 then (j, c) :: r else (k, b) :: (j, c) :: r)
    else if k = j then (if b = 0 then r else (k, b) :: r)
    else (j, c) :: put r k b

/-- The memory with the bytes from key `k` on. -/
def Memory.putAll : List Host.Cell → Nat → Bytes → List Host.Cell
  | m, _, [] => m
  | m, k, b :: r => putAll (put m k b) (k + 1) r

/-- `n` bytes from key `k` on. -/
def Memory.getAll (m : List Host.Cell) (k n : Nat) : Bytes := (List.range n).map fun i => get m (k + i)

/-- Key of host address `a` in the address space of function `f` (R147): the low 64 bits, below the function. The keys of
two functions lie apart, so that an access that runs past the last address reaches no other function (DESIGN CHOICE, log entry 4). -/
def hostKey (f a : Nat) : Nat := f * 2 ^ 65 + a % 2 ^ 64

/-- `n` bytes of host memory as function `f` addresses it. -/
def State.hostRead (s : State) (f a n : Nat) : Bytes := Memory.getAll s.mem (hostKey f a) n

/-- Ranges and words a write of `n` bytes at `a` dirties in range `r`, number `i` (R177, R178). -/
def dirtyWords (i : Nat) (r : DirtyRange) (a n : Nat) : List (Nat × Nat) :=
  let p0 := a / 4096
  let p1 := (a + n - 1) / 4096
  (List.range (p1 + 1 - p0)).filterMap fun k =>
    let p := p0 + k
    if r.base / 4096 ≤ p ∧ p < r.base / 4096 + r.pages then
      let q := p - r.base / 4096
      some (i * 2 ^ 32 + q / 64, 2 ^ (q % 64))
    else none

/-- Some page of the write lies outside every range (R177). -/
def dirtyOutside (rs : List DirtyRange) (a n : Nat) : Bool :=
  let p0 := a / 4096
  let p1 := (a + n - 1) / 4096
  (List.range (p1 + 1 - p0)).any fun k =>
    !rs.any fun r => decide (r.base / 4096 ≤ p0 + k) && decide (p0 + k < r.base / 4096 + r.pages)

/-- The cache with the bits of a word added. -/
def dirtyAdd (cache : List (Nat × Nat)) (w : Nat × Nat) : List (Nat × Nat) :=
  FMap.set cache w.1 (FMap.getD cache w.1 0 ||| w.2)

/-- Number of one bits among the low `n`. -/
def popCount (n v : Nat) : Nat := ((List.range n).filter fun i => v.testBit i).length

/-- Merge one cached word into the active bitmap, in the address space of PF0 (R178): memory and bits newly set. -/
def mergeWord (l : DirtyLog) (acc : List Host.Cell × Nat) (w : Nat × Nat) : List Host.Cell × Nat :=
  match l.ranges[w.1 / 2 ^ 32]? with
  | none => acc
  | some r =>
    let a := hostKey 0 ((if l.useB then r.bmB else r.bmA) + (w.1 % 2 ^ 32) * 8)
    let old := Bytes.toLE (Memory.getAll acc.1 a 8)
    (Memory.putAll acc.1 a (Bytes.ofLE 8 (old ||| w.2)),
      acc.2 + popCount 64 (old ||| w.2) - popCount 64 old)

/-- Merge every cached word of function `f` into its active bitmap (R179). -/
def mergeDirty (f : Nat) (s : State) : State :=
  match (s.fn f).log with
  | none => s
  | some l =>
    let r := l.cache.foldl (mergeWord l) (s.mem, 0)
    modFn f (fun g => { g with log := some { l with cache := [], count := l.count + r.2 } }) { s with mem := r.1 }

/-- Words of 64 bits the device's dirty cache holds (R178). -/
def dirtyCacheUse (s : State) : Nat :=
  (s.fns.map fun p => match p.2.log with | none => 0 | some l => l.cache.length).foldl (· + ·) 0

/-- Mark the pages of a write by function `f` (R177); a cache that would pass its 4,096 words is merged first. -/
def logWrite (f a n : Nat) (s : State) : State :=
  match (s.fn f).log with
  | none => s
  | some l =>
    if n = 0 then s
    else
      let words := (List.range l.ranges.length).flatMap fun i =>
        match l.ranges[i]? with
        | none => []
        | some r => dirtyWords i r a n
      let l' := { l with cache := words.foldl dirtyAdd l.cache, outside := l.outside || dirtyOutside l.ranges a n }
      let s' := modFn f (fun g => { g with log := some l' }) s
      if dirtyCacheUse s' > 4096 then mergeDirty f s' else s'

/-- A posted write of function `f` (R147, R150): it always succeeds, and its pages are logged. -/
def hostWrite (f a : Nat) (b : Bytes) (s : State) : State :=
  logWrite f a b.length { s with mem := Memory.putAll s.mem (hostKey f a) b }

/-! ## Event records -/

/-- The record of one suppressed code at a window's end (R439). -/
def suppressedRec (w : Nat) (p : Nat × Nat) : EventRec :=
  { time := (w + 1) * second, code := 0x0F01, level := 0, p0 := p.1, p1 := p.2 }

/-- Begin the window of the present Meridian second, writing an EV_SUPPRESSED record per suppressed code of the
window that ended (R439). -/
def rollWindow (s : State) : State :=
  if s.now / second = s.evr.window then s
  else { s with evr := { s.evr with
    queue := s.evr.queue ++ s.evr.suppressed.map (suppressedRec s.evr.window)
    window := s.now / second, counts := [], suppressed := [] } }

/-- The recorder takes a record (R438, R439): levels 4 and 5 always, others while their code's count is within the
limit, and level 0 only while fewer than 256 records are pending; none while the secure world is halted (R374) or the
main die's counter does not run (R479). -/
def acceptRecord (e : EventRec) (s0 : State) : State :=
  if s0.worlds.halted || !s0.clock.running then s0 else
  let s := rollWindow s0
  let n := s.evr.counts.getD e.code 0
  let take : State → State := fun s => { s with evr := { s.evr with
    queue := s.evr.queue ++ [e], counts := s.evr.counts.set e.code (n + 1) } }
  if e.level ≥ 4 then take s
  else if n ≥ s.param 0x5200 3 64 then
    bump 0x1B { s with evr := { s.evr with
      suppressed := s.evr.suppressed.set e.code (s.evr.suppressed.getD e.code 0 + 1) } }
  else if e.level = 0 ∧ s.evr.queue.length ≥ 256 then bump 0x1B s
  else take s

/-- An uncorrectable error that concerns a request or completion, whose header is logged (R158). -/
def hasHeader (b : Nat) : Bool := b == 12 || b == 15 || b == 16 || b == 18 || b == 20 || b == 28

/-- An uncorrectable error of a function (R158): its AER status bit; the first one is pointed at, with its header logged. A
header's tag and requester are the host's, so the log holds free values. -/
def aerUncor (f b : Nat) (s : State) : State :=
  let log (n : Nat) (c : ConfigSpace) : ConfigSpace :=
    if c.uncor = [] then
      { c with firstErr := b, header := if hasHeader b then (List.range 4).map fun i => Config.freeNat (n + i) % 2 ^ 32 else [] }
    else c
  let s1 := modFn f (fun g => { g with cfg := { log s.free g.cfg with
    uncor := if b ∈ g.cfg.uncor then g.cfg.uncor else b :: g.cfg.uncor } }) s
  { s1 with free := if hasHeader b then s.free + 4 else s.free }

/-- The correctable bit. -/
def aerCor (f b : Nat) (s : State) : State :=
  modFn f (fun g => { g with cfg := { g.cfg with cor := if b ∈ g.cfg.cor then g.cfg.cor else b :: g.cfg.cor } }) s

/-- What a record's level reports in PF0's AER (R158, R423): Corrected Internal Error for levels 1 to 3, Uncorrectable
Internal Error for level 4. -/
def aerOfLevel (level : Nat) (s : State) : State :=
  if level = 4 then aerUncor 0 22 s
  else if 1 ≤ level ∧ level ≤ 3 then aerCor 0 14 s
  else s

/-- Record an event of the main die (R437, R441), with its parameters. -/
def record (code level : Nat) (p0 : Nat := 0) (p1 : Nat := 0) (p2 : Nat := 0) (p3 : Nat := 0)
    (nested : Bool := false) (s : State) : State :=
  aerOfLevel level (acceptRecord
    { time := s.now, code, level, nested, p0 := p0 % 2 ^ 32, p1 := p1 % 2 ^ 32, p2 := p2 % 2 ^ 32, p3 := p3 % 2 ^ 16 } s)

/-- The record accepted last escalates to a device fault (R424, R425). -/
def escalate (s : State) : State :=
  { s with boot := { s.boot with escalated := some ((s.evr.head + s.evr.queue.length + (2 ^ 32 - 1)) % 2 ^ 32) } }

/-- SEQ of the record accepted last (R436, R438). -/
def lastSeq (s : State) : Nat := (s.evr.head + s.evr.queue.length + (2 ^ 32 - 1)) % 2 ^ 32

/-! ## Interrupt vectors (R171 to R174) -/

/-- Vector `v` of a function. -/
def Fn.vec (g : Fn) (v : Nat) : Vector_ := g.vecs.getD v {}

/-- A vector with events meets its threshold (R173). The timer stands still in D3hot (R175). -/
def vecDue (g : Fn) (v : Vector_) (now : Nat) : Bool :=
  v.pending && (v.due || decide (v.n ≥ max v.countTh 1) ||
    (decide (v.timeTh ≠ 0) && decide (g.run ≠ .d3hot) && elapsedUs now v.t0 v.timeTh))

/-- Every condition for sending vector `v` holds (R173). -/
def vecMaySend (g : Fn) (v : Vector_) : Bool :=
  g.cfg.msixEnable && !g.cfg.msixMask && decide (v.ctrl.toNat % 2 = 0) && g.cfg.bme &&
    (decide (g.run = .ready) || decide (g.run = .frozen))

/-- Evaluate vector `v` of function `f`: send it, set its PBA bit, or leave it waiting (R173). -/
def evalVec (f v : Nat) (s : State) : State :=
  let g := s.fn f
  let x := g.vec v
  if x.pba || vecDue g x s.now then
    if vecMaySend g x then
      emit (.msix f v x.addr x.data)
        (setFn f { g with vecs := g.vecs.set v { x with pending := false, n := 0, due := false, pba := false } } s)
    else setFn f { g with vecs := g.vecs.set v { x with pba := true } } s
  else s

/-- Evaluate every vector of function `f` that has events. -/
def evalVecs (f : Nat) (s : State) : State := (s.fn f).vecs.keys.foldl (fun s v => evalVec f v s) s

/-- An event on vector `v` of function `f` (R173). Only allocated vectors of a function in service have events (R156,
R164). -/
def vecEvent (f v : Nat) (irqNow : Bool) (s : State) : State :=
  let g := s.fn f
  if v < g.vecN ∧ g.run ≠ .resetting ∧ g.run ≠ .unallocated then
    let x := g.vec v
    evalVec f v (setFn f { g with vecs := g.vecs.set v { x with
      t0 := if x.pending then x.t0 else s.now, pending := true, n := x.n + 1, due := x.due || irqNow } } s)
  else s

/-! ## Error bits, device sources and status events (R311, R313, R314) -/

/-- One event of the device sources, on PF0's vector for them (R313). -/
def signalDevice (s : State) : State := if s.regs.dsrcIrq then vecEvent 0 s.regs.dsrcVec false s else s

/-- Device source `n` goes pending (R313): it signals when it was not pending and is enabled. -/
def raiseSource (n : Nat) (s : State) : State :=
  if s.regs.dsrcPend.getLsbD n then s
  else
    let s' := { s with regs := { s.regs with dsrcPend := s.regs.dsrcPend ||| BitVec.ofNat 256 (2 ^ n) } }
    if s.regs.dsrcEn.getLsbD n then signalDevice s' else s'

/-- Set bit `n` of the error register of block `c` (R313, R314); PERR is bit 16 and always routed. -/
def setErr (c n : Nat) (s : State) : State :=
  let e := s.regs.err.getD c 0
  if e.getLsbD n then s
  else
    let s' := { s with regs := { s.regs with err := s.regs.err.set c (e ||| BitVec.ofNat 32 (2 ^ n)) } }
    if n = 16 then raiseSource (192 + c) s'
    else if (s.regs.errEn.getD c 0).getLsbD n then raiseSource (16 * c + n) s'
    else s'

/-- Set bit `n` of FN_EVENT of function `f` (R311), with its status event. -/
def setEvent (f n : Nat) (s : State) : State :=
  let g := s.fn f
  if g.event.getLsbD n then s
  else
    let s1 := setFn f { g with event := g.event ||| BitVec.ofNat 32 (2 ^ n) } s
    if g.evEn.testBit n then
      let s2 := if g.irqEn then vecEvent f g.irqVec false s1 else s1
      if f = 0 then raiseSource 204 s2 else s2
    else s1

/-- Set the FN_QERR bit of local queue `q` and FN_EVENT.QERR when a bit becomes set (R311). -/
def setQerr (f q : Nat) (s : State) : State :=
  let g := s.fn f
  let old := if q < 32 then g.qerr0.getLsbD q else g.qerr1.getLsbD (q - 32)
  let s1 := if q < 32 then setFn f { g with qerr0 := g.qerr0 ||| BitVec.ofNat 32 (2 ^ q) } s
    else setFn f { g with qerr1 := g.qerr1 ||| BitVec.ofNat 32 (2 ^ (q - 32)) } s
  if old then s1 else setEvent f 0 s1

/-! ## Conditions of the whole device -/

/-- The device is locked (R219). -/
def State.locked (s : State) : Bool := decide (s.life.lc = .locked)

/-- Pair `p`. -/
def State.pair (s : State) (p : Nat) : Pair := s.fab.pairs.getD p {}

/-- A full pair in service. -/
def PairState.full : PairState → Bool
  | .bulk | .urgent | .spare => true
  | _ => false

/-- A pair in half service (R97). -/
def PairState.half : PairState → Bool
  | .halfA | .halfB => true
  | _ => false

/-- The state a pair counts by: a fenced pair counts by the role it held (R99). -/
def Pair.counts (x : Pair) : PairState := if x.st = .fenced then x.role else x.st

/-- No full pair remains (R99). -/
def State.noPair (s : State) : Bool := !s.fab.pairs.any fun p => p.counts.full

/-- The pairs that leave no reserve (R416, condition 2). -/
def lostPairs (s : State) : Nat :=
  (s.fab.pairs.filter fun p => p.st.half || decide (p.st = .absent) || decide (p.st = .failed)).length

/-- red.conditions as the present state has it (R416): bit n is 1 while condition n fails. -/
def State.conditions (s : State) : Nat :=
  b2n (!s.red.within || decide (s.fab.cycle > 1800)) +
  2 * b2n (!s.red.inStep) +
  4 * b2n (decide (lostPairs s > 1)) +
  8 * b2n (!s.vesper.vchg || s.red.vsSilent) +
  16 * b2n s.worlds.halted +
  32 * b2n (decide (s.red.simplex ≠ 0)) +
  64 * b2n (s.worlds.debugHalt || decide (s.life.lc = .debug))

/-- A debug halt suspends both worlds: one in DEBUG (R380). -/
def State.debugStops (s : State) : Bool := s.worlds.debugHalt && decide (s.life.lc = .debug)

/-- Custody firmware executes: the secure world is neither halted (R374) nor suspended by a debug halt (R380). -/
def State.secureRuns (s : State) : Bool := !s.worlds.halted && !s.debugStops

/-- The normal world executes: no debug halt suspends it (R380). -/
def State.normalRuns (s : State) : Bool := !s.worlds.debugHalt

/-- The queues are open, or the device holds after a device fault with its firmware running (R428, R446). -/
def State.opened (s : State) : Bool := decide (s.boot.phase = .open_) || decide (s.boot.phase = .devHold)

/-- Functions in service, for an event that reaches every one of them. -/
def State.served (s : State) : List Nat := s.fns.keys.filter fun f => decide ((s.fn f).run ≠ .unallocated)

/-- Do `h` for every function in service. -/
def eachFn (h : Nat → State → State) (s : State) : State := s.served.foldl (fun s f => h f s) s

/-- The device evaluates its conditions: from the end of main-die self-test on (R416, R449). -/
def State.evaluates (s : State) : Bool :=
  match s.boot.phase with
  | .unpowered | .held => false
  | .stage n => decide (3 ≤ n)
  | _ => true

/-- Note the guarantee conditions, with a GUARANTEE record when they changed (R416). -/
def noteConditions (s : State) : State :=
  if s.conditions = s.red.conditions then s
  else record 0x0806 0 s.conditions s.red.conditions (s := { s with red := { s.red with conditions := s.conditions } })

/-- What a step owes when the conditions it leaves differ from those it found: FN_EVENT bits for LOCKED and NO_PAIR
(R311), and a GUARANTEE record (R416). -/
def settle (old : State) (s : State) : State :=
  if !old.evaluates || !s.evaluates then s
  else
    let s1 := if old.locked = s.locked then s else eachFn (fun f => setEvent f 1) s
    let s2 := if old.noPair = s1.noPair then s1 else eachFn (fun f => setEvent f 2) s1
    noteConditions s2

/-- The next state after a change of the device's conditions. -/
def settled (old s : State) : Outcome State := .next (settle old s)

end Sys2Proof.Machine
end

