-- ==== Sys2Proof/Machine/Operands.lean ====
section
/-!
DEFINITION. The operand forms of queue entries: the common header (R120), the body fields of the job opcodes, the
slot attribute word (R192), and the checks on an entry's own form (R41, R123, R253 to R256, R295).
-/

namespace Sys2Proof.Machine

/-! ## Opcodes (R1) -/

abbrev Op.seal := 0x10
abbrev Op.unseal := 0x11

namespace Op
abbrev pad := 0x00
abbrev nop := 0x01
abbrev checkGen := 0x18
abbrev checkVerify := 0x19
abbrev rawEncrypt := 0x20
abbrev rawDecrypt := 0x21
abbrev rngFill := 0x30
abbrev pkSign := 0x40
abbrev pkVerify := 0x41
abbrev pkKeygen := 0x42
abbrev pkAgree := 0x43
abbrev pkEncaps := 0x44
abbrev pkDecaps := 0x45
abbrev createJq := 0x80
abbrev destroyJq := 0x81
abbrev resetJq := 0x82
abbrev createCq := 0x83
abbrev destroyCq := 0x84
abbrev dictRead := 0x90
abbrev dictWrite := 0x91
abbrev fnAlloc := 0xA0
abbrev fnFree := 0xA1
abbrev fnStateSave := 0xA2
abbrev fnStateLoad := 0xA3
abbrev dirtyLog := 0xA4
abbrev fnReset := 0xA5
abbrev keyCreate := 0xB0
abbrev keyImport := 0xB1
abbrev keyExport := 0xB2
abbrev keyErase := 0xB3
abbrev keyRotate := 0xB4
abbrev keyQuery := 0xB5
abbrev attest := 0xC0
abbrev approve := 0xC1
abbrev ceremony := 0xC2
abbrev fdpRelay := 0xC3
abbrev extCall := 0xD0
end Op

/-- Opcode of an entry (R120). -/
def opOf (e : Bytes) : Nat := (e.at_ 0).toNat
/-- LEN of an entry (R120). -/
def lenOf (e : Bytes) : Nat := (e.at_ 1).toNat % 32
/-- FENCE (R120, R136). Of a PAD the Thaza takes OPCODE and LEN alone (R121), here and below; a PAD refused by checks 1 to 3
still returns its USER_TAG (R124). -/
def fenceOf (e : Bytes) : Bool := (e.at_ 2).getLsbD 0 && decide (opOf e ≠ Op.pad)
/-- IRQ_NOW (R120). -/
def irqNowOf (e : Bytes) : Bool := (e.at_ 2).getLsbD 1 && decide (opOf e ≠ Op.pad)
/-- TIMEOUT field (R120). -/
def timeoutOf (e : Bytes) : Nat := if opOf e = Op.pad then 0 else e.leAt 4 4
/-- USER_TAG (R120). -/
def tagOf (e : Bytes) : Bytes := e.slice 8 8

/-- The opcode is a job opcode (R1). -/
def isJobOp (op : Nat) : Bool := decide (op < 0x80)

/-- Entry length of an opcode in slots (R122 and each opcode's chapter); none for an opcode not listed. PAD's length is
its own. -/
def opLen : Nat → Option Nat
  | 0x01 => some 1
  | 0x10 | 0x11 | 0x18 | 0x19 | 0x20 | 0x21 => some 2
  | 0x30 => some 1
  | 0x40 | 0x41 | 0x42 | 0x43 | 0x44 | 0x45 => some 2
  | 0x80 | 0x81 | 0x82 | 0x83 | 0x84 | 0x90 | 0x91 => some 1
  | 0xA0 => some 2
  | 0xA1 | 0xA2 | 0xA3 | 0xA4 | 0xA5 => some 1
  | 0xB0 | 0xB1 | 0xB2 | 0xB3 | 0xB4 | 0xB5 => some 1
  | 0xC0 => some 2
  | 0xC1 => some 1
  | 0xC2 => some 2
  | 0xC3 | 0xD0 => some 1
  | _ => none

/-- An admin opcode that only PF0's admin queue accepts (R160, R227, R231, R358). -/
def pf0Only (op : Nat) : Bool :=
  decide (0xA0 ≤ op ∧ op ≤ 0xA5) || op == 0xC1 || op == 0xC2 || op == 0xC3

/-- An opcode of a queue admin command, which carries no timeout (R123, R133). -/
def isQueueAdmin (op : Nat) : Bool := decide (0x80 ≤ op ∧ op ≤ 0x84)

/-- An opcode that runs on a pair. -/
def isCipher (op : Nat) : Bool :=
  op == Op.seal || op == Op.unseal || op == Op.checkGen || op == Op.checkVerify || op == Op.rawEncrypt || op == Op.rawDecrypt

/-- An opcode of the public-key engine. -/
def isPk (op : Nat) : Bool := decide (0x40 ≤ op ∧ op ≤ 0x45)

/-- The two opcodes a half pair may run (R97). -/
def isCheck (op : Nat) : Bool := op == Op.checkGen || op == Op.checkVerify

/-- The first failing check of an ordered list. -/
def firstFail : List (Bool × Done) → Option Done
  | [] => none
  | (b, d) :: r => if b then some d else firstFail r

/-- A BAD_ENTRY completion with its detail. -/
abbrev bad (detail : Nat) (r0 : Nat := 0) : Done := { status := Status.badEntry, detail, r0 }

/-- Some byte of the listed ranges (offset, length) is not zero (R476). -/
def rsvSet (e : Bytes) (l : List (Nat × Nat)) : Bool := l.any fun r => !e.zeroAt r.1 r.2

/-! ## Header checks (R123) -/

/-- What the header checks find: the completion, or none, and the slots the entry consumes. DESIGN CHOICE (log entry 155): one that
runs past the ring end consumes no slot past PI, which R115 keeps from the Thaza, where PI lies before the ring end. -/
def headerCheck (f q : Nat) (e : Bytes) (toEnd toPi : Nat) : Option Done × Nat :=
  let n := lenOf e
  let op := opOf e
  if n = 0 ∨ n > 16 then (some (bad 0x08), 1)
  else if n > toEnd then (some (bad 0x09), min toEnd toPi)
  else if n > toPi then (some (bad 0x0A), toPi)
  else if op = Op.pad then (none, n)
  else
    (firstFail [
      ((opLen op).isNone, { status := Status.badOpcode }),
      (isJobOp op && decide (q = 0) || !isJobOp op && decide (q ≠ 0), { status := Status.badOpcode, detail := 0x01 }),
      (pf0Only op && decide (f ≠ 0), { status := Status.accessDenied, detail := 0x04 }),
      (decide (opLen op ≠ some n), bad 0x01),
      (decide ((e.at_ 1).toNat / 32 ≠ 0) || decide ((e.at_ 2).toNat / 4 ≠ 0) || decide (e.at_ 3 ≠ 0), bad 0x02),
      (decide (timeoutOf e ≠ 0) && (isQueueAdmin op || decide (timeoutOf e < 100) || decide (timeoutOf e > 60000000)),
        bad 0x0B)], n)

/-! ## Cipher bodies (R42 to R66) -/

/-- KEY_HANDLE (R43). -/
def handleOf (e : Bytes) : Nat := e.leAt 0x10 4
/-- Slot named by a handle. -/
def hSlot (h : Nat) : Nat := h % 65536
/-- Generation named by a handle; 0 for the current one. -/
def hGen (h : Nat) : Nat := h / 65536 % 65536
/-- JOB_FLAGS or PK_FLAGS. -/
def flagsOf (e : Bytes) : Nat := e.leAt 0x14 4
/-- SRC_ADDR. -/
def srcOf (e : Bytes) : Nat := e.leAt 0x18 8
/-- DST_ADDR or CHECK_ADDR. -/
def dstOf (e : Bytes) : Nat := e.leAt 0x20 8
/-- SRC_LEN. -/
def srcLenOf (e : Bytes) : Nat := e.leAt 0x28 4
/-- AAD_LEN (R44). -/
def aadLenOf (e : Bytes) : Nat := e.leAt 0x2C 2
/-- AAD_ADDR (R44). -/
def aadOf (e : Bytes) : Nat := e.leAt 0x30 8
/-- HOLD (R42). -/
def holdOf (e : Bytes) : Bool := bit (flagsOf e) 0
/-- KEY_SOURCE names a session key set (R42, R71). -/
def sessionOf (e : Bytes) : Bool := bit (flagsOf e) 1 && (isCheck (opOf e) || opOf e == Op.rawEncrypt || opOf e == Op.rawDecrypt)
/-- Session key set named by a handle (R43). -/
def setOf (e : Bytes) : Nat := handleOf e % 4
/-- NO_EXPECT (R42). -/
def noExpectOf (e : Bytes) : Bool := bit (flagsOf e) 2
/-- CHECK_ALG is GMAC (R42). -/
def gmacOf (e : Bytes) : Bool := bit (flagsOf e) 4
/-- RAW_MODE (R42). -/
def rawModeOf (e : Bytes) : Nat := bitsOf (flagsOf e) 11 8
/-- CTR_WIDTH field (R42). -/
def ctrWidthOf (e : Bytes) : Nat := bitsOf (flagsOf e) 13 12
/-- Counter width in bits (R42, R65). -/
def ctrBits : Nat → Nat
  | 0 => 128
  | 1 => 64
  | _ => 32
/-- NEXT_IV_ADDR (R64). -/
def nextIvOf (e : Bytes) : Nat := e.leAt 0x30 8
/-- IV of a RAW job (R64). -/
def ivOf (e : Bytes) : Bytes := e.slice 0x40 16
/-- FRAG_INDEX as its four bytes (R44). -/
def fragOf (e : Bytes) : Bytes := e.slice 0x38 4

/-- Largest fragment (R12). -/
abbrev maxLen : Nat := 0x01000000
/-- Largest SRC_LEN of a hold-mode UNSEAL (R57). -/
abbrev maxHold : Nat := 0x00100040

/-- Fields of a cipher body that must be 0 (R41, R42, R44, R61, R64). -/
def cipherRsv (e : Bytes) : Bool :=
  let op := opOf e
  let fl := flagsOf e
  if op = Op.seal then rsvSet e [(0x2E, 2), (0x3C, 4), (0x58, 40)] || decide (fl ≠ 0) ||
      (decide (aadLenOf e = 0) && rsvSet e [(0x30, 8)])
  else if op = Op.unseal then rsvSet e [(0x2E, 2), (0x3C, 4), (0x58, 40)] || decide (fl &&& 0x5 ≠ fl) ||
      (decide (aadLenOf e = 0) && rsvSet e [(0x30, 8)])
  else if isCheck op then rsvSet e [(0x2C, 4), (0x3C, 4), (0x50, 48)] || decide (fl &&& 0x12 ≠ fl) ||
      (if op = Op.checkGen then rsvSet e [(0x40, 16)] else rsvSet e [(0x20, 8)]) ||
      (!gmacOf e && rsvSet e [(0x30, 12)]) || (bit fl 1 && decide (handleOf e / 4 ≠ 0))
  else rsvSet e [(0x2C, 4), (0x38, 8), (0x50, 48)] ||
      (if rawModeOf e = 0 then decide (fl &&& 0x3F02 ≠ fl) else decide (fl &&& 0x0F02 ≠ fl)) ||
      (bit fl 1 && decide (handleOf e / 4 ≠ 0))

/-- SRC_LEN or AAD_LEN is out of range (R44, R59, R63). -/
def cipherLenBad (e : Bytes) : Bool :=
  let op := opOf e
  let n := srcLenOf e
  if op = Op.seal then decide (n > maxLen) || decide (aadLenOf e > 4096)
  else if op = Op.unseal then decide (n < 0x40) || decide (n > maxLen + 0x40) || decide (aadLenOf e > 4096)
  else if isCheck op then decide (n > maxLen)
  else match rawModeOf e with
    | 1 => decide (n > maxLen) || decide (n % 16 ≠ 0)
    | 2 | 3 | 4 => decide (n < 16) || decide (n > maxLen)
    | _ => decide (n > maxLen)

/-- Destination buffers of a cipher job, address and length (R41). -/
def cipherDsts (e : Bytes) : List (Nat × Nat) :=
  let op := opOf e
  let n := srcLenOf e
  if op = Op.seal then [(dstOf e, n + 64)]
  else if op = Op.unseal then [(dstOf e, n - 64)]
  else if op = Op.checkGen then [(dstOf e, 16)]
  else if op = Op.checkVerify then []
  else (dstOf e, n) :: (if nextIvOf e = 0 then [] else [(nextIvOf e, 16)])

/-- Source buffers of a cipher job (R41). -/
def cipherSrcs (e : Bytes) : List (Nat × Nat) :=
  (srcOf e, srcLenOf e) :: (if opOf e = Op.seal ∨ opOf e = Op.unseal then [(aadOf e, aadLenOf e)] else [])

/-- Some source meets some destination. -/
def overlaps (srcs dsts : List (Nat × Nat)) : Bool :=
  srcs.any fun a => dsts.any fun b => rangesMeet a.1 a.2 b.1 b.2

/-- The form of a cipher entry (R41, checks 2 to 8), under release policy `policy`. -/
def cipherForm (policy : Nat) (e : Bytes) : Option Done :=
  let raw := opOf e == Op.rawEncrypt || opOf e == Op.rawDecrypt
  let n := srcLenOf e
  firstFail [
    (cipherRsv e, bad 0x02),
    (raw && (decide (rawModeOf e > 6) || (decide (rawModeOf e = 0) && decide (ctrWidthOf e = 3))), bad 0x05),
    (cipherLenBad e, bad 0x03),
    (raw && decide (nextIvOf e ≠ 0) && (decide (2 ≤ rawModeOf e ∧ rawModeOf e ≤ 4) ||
      (decide (rawModeOf e = 5 ∨ rawModeOf e = 6) && decide (n % 16 ≠ 0))), bad 0x05),
    (raw && decide (rawModeOf e = 0) && decide (Bytes.toBE (ivOf e) % 2 ^ ctrBits (ctrWidthOf e) + (n + 15) / 16 ≥
      2 ^ ctrBits (ctrWidthOf e)), bad 0x06),
    (overlaps (cipherSrcs e) (cipherDsts e), bad 0x04),
    (decide (opOf e = Op.unseal) && decide (policy = 0) && holdOf e && decide (n > maxHold), bad 0x07)]

/-- An UNSEAL that runs in hold mode under the policy (R57, R58). -/
def holdMode (policy : Nat) (e : Bytes) : Bool :=
  opOf e == Op.unseal && (match policy with
    | 0 => holdOf e
    | 1 => true
    | _ => decide (srcLenOf e ≤ maxHold))

/-- Staging a hold-mode job reserves (R57). -/
def holdBytes (e : Bytes) : Nat := roundUp (srcLenOf e - 64) 4096

/-- The job runs in a chained mode (R80). -/
def chained (e : Bytes) : Bool :=
  (isCheck (opOf e) && !gmacOf e) ||
  (opOf e == Op.rawEncrypt && decide (1 ≤ rawModeOf e ∧ rawModeOf e ≤ 6)) ||
  (opOf e == Op.rawDecrypt && decide (rawModeOf e = 6))

/-- Bytes a cipher job is charged for (R109). -/
def chargeLen (e : Bytes) : Nat := roundUp (srcLenOf e) 16

/-! ## The attribute word (R192 to R194) -/

/-- TENANT of an ATTR word. -/
def attrTenant (a : Nat) : Nat := a % 65536
/-- GENERATION. -/
def attrGen (a : Nat) : Nat := bitsOf a 31 16
/-- EPOCH. -/
def attrEpoch (a : Nat) : Nat := bitsOf a 47 32
/-- Use bits SEAL, CHECK, RAW, WRAP, SIGN, AGREE from bit 0. -/
def attrUses (a : Nat) : Nat := bitsOf a 53 48
/-- ALG. -/
def attrAlg (a : Nat) : Nat := bitsOf a 58 54
/-- EXPORT. -/
def attrExport (a : Nat) : Nat := bitsOf a 60 59

/-- An ATTR word from its fields. -/
def mkAttr (tenant gen epoch uses alg ex : Nat) : Nat :=
  tenant % 65536 + (gen % 65536) * 2 ^ 16 + (epoch % 65536) * 2 ^ 32 + (uses % 64) * 2 ^ 48 + (alg % 32) * 2 ^ 54 +
    (ex % 4) * 2 ^ 59

/-- ATTR with another generation. -/
def attrWithGen (a g : Nat) : Nat :=
  mkAttr (attrTenant a) g (attrEpoch a) (attrUses a) (attrAlg a) (attrExport a)

/-- KEY_BYTES of an algorithm (R193); none for a code not listed. -/
def keyBytes : Nat → Option Nat
  | 0x01 => some 16
  | 0x02 => some 24
  | 0x03 => some 32
  | 0x08 => some 32
  | 0x09 => some 48
  | 0x0A => some 66
  | 0x0B => some 32
  | 0x0C => some 57
  | 0x0D => some 32
  | 0x0E => some 56
  | 0x14 => some 32
  | 0x15 => some 32
  | 0x18 => some 64
  | 0x19 => some 64
  | _ => none

/-- Whether a key of the algorithm may carry the use bits (R193, R194): none at all, or a listed combination. -/
def usesOk (alg uses : Nat) : Bool :=
  (keyBytes alg).isSome && (uses == 0 || (match alg with
    | 0x01 | 0x02 => uses == 4
    | 0x03 => uses == 1 || uses == 8 || uses == 2 || uses == 4 || uses == 6
    | 0x08 | 0x09 | 0x0A => uses == 16 || uses == 32
    | 0x0B | 0x0C | 0x14 | 0x15 => uses == 16
    | 0x0D | 0x0E | 0x18 | 0x19 => uses == 32
    | _ => false))

/-- An AES algorithm. -/
def isAes (alg : Nat) : Bool := decide (1 ≤ alg ∧ alg ≤ 3)

/-- Use bit an opcode requires (R72, R257). -/
def useOf (op : Nat) : Nat :=
  if op = Op.seal ∨ op = Op.unseal then 0
  else if op = Op.checkGen ∨ op = Op.checkVerify then 1
  else if op = Op.rawEncrypt ∨ op = Op.rawDecrypt then 2
  else if op = Op.pkSign ∨ op = Op.pkVerify then 4
  else if op = Op.pkKeygen then 3
  else 5

/-- A producing use of a slot (R202). -/
def producing (op : Nat) : Bool :=
  op == Op.seal || op == Op.checkGen || op == Op.rawEncrypt || op == Op.pkSign || op == Op.pkKeygen

/-! ## Public-key bodies (R252 to R261) -/

/-- ALG in PK_FLAGS (R254). -/
def pkAlg (e : Bytes) : Nat := flagsOf e % 32
/-- OUT_MODE. -/
def pkMode (e : Bytes) : Nat := bitsOf (flagsOf e) 7 6
/-- HASH. -/
def pkHash (e : Bytes) : Nat := bitsOf (flagsOf e) 10 8
/-- PREHASHED. -/
def pkPre (e : Bytes) : Bool := bit (flagsOf e) 11
/-- RSA_PAD is PKCS #1 v1.5. -/
def pkV15 (e : Bytes) : Bool := bit (flagsOf e) 12
/-- PUB_SLOT. -/
def pkPubSlot (e : Bytes) : Bool := bit (flagsOf e) 13
/-- Address of input `i` (R253). -/
def inAddr (e : Bytes) (i : Nat) : Nat := if i = 3 then e.leAt 0x60 8 else e.leAt (0x18 + 8 * i) 8
/-- Length of input `i`. -/
def inLen (e : Bytes) (i : Nat) : Nat := if i = 3 then e.leAt 0x68 4 else e.leAt (0x40 + 4 * i) 4
/-- Address of output `i`. -/
def outAddr (e : Bytes) (i : Nat) : Nat := e.leAt (0x30 + 8 * i) 8
/-- Room at output `i`. -/
def outMax (e : Bytes) (i : Nat) : Nat := e.leAt (0x4C + 4 * i) 4
/-- MODBITS. -/
def modBits (e : Bytes) : Nat := e.leAt 0x54 2
/-- SALT_LEN. -/
def saltLen (e : Bytes) : Nat := (e.at_ 0x56).toNat
/-- NEW_SLOT. -/
def newSlot (e : Bytes) : Nat := e.leAt 0x58 2
/-- NEW_USES. -/
def newUses (e : Bytes) : Nat := (e.at_ 0x5A).toNat
/-- NEW_EXPORT. -/
def newExport (e : Bytes) : Nat := (e.at_ 0x5B).toNat
/-- NEW_EPOCH. -/
def newEpoch (e : Bytes) : Nat := e.leAt 0x5C 2

/-- RSA. -/
abbrev rsa : Nat := 0x05
/-- A NIST curve. -/
def isP (alg : Nat) : Bool := decide (0x08 ≤ alg ∧ alg ≤ 0x0A)
/-- An EdDSA curve. -/
def isEd (alg : Nat) : Bool := alg == 0x0B || alg == 0x0C
/-- A Montgomery curve. -/
def isX (alg : Nat) : Bool := alg == 0x0D || alg == 0x0E
/-- ML-DSA. -/
def isMlDsa (alg : Nat) : Bool := alg == 0x14 || alg == 0x15
/-- ML-KEM. -/
def isMlKem (alg : Nat) : Bool := alg == 0x18 || alg == 0x19

/-- The opcode supports the algorithm (R252). -/
def pkSupports (op alg : Nat) : Bool :=
  if op = Op.pkSign ∨ op = Op.pkVerify then alg == rsa || isP alg || isEd alg || isMlDsa alg
  else if op = Op.pkKeygen then alg == rsa || isP alg || isEd alg || isX alg || isMlDsa alg || isMlKem alg
  else if op = Op.pkAgree then isP alg || isX alg
  else alg == rsa || isMlKem alg

/-- Public key length (R256); `k` is the RSA modulus length in bytes. -/
def pubLen (alg k : Nat) : Nat :=
  match alg with
  | 0x05 => k + 32
  | 0x08 => 65
  | 0x09 => 97
  | 0x0A => 133
  | 0x0B => 32
  | 0x0C => 57
  | 0x0D => 32
  | 0x0E => 56
  | 0x14 => 1952
  | 0x15 => 2592
  | 0x18 => 1184
  | 0x19 => 1568
  | _ => 0

/-- Signature length (R256). -/
def sigLen (alg k : Nat) : Nat :=
  match alg with
  | 0x05 => k
  | 0x08 => 64
  | 0x09 => 96
  | 0x0A => 132
  | 0x0B => 64
  | 0x0C => 114
  | 0x14 => 3309
  | 0x15 => 4627
  | _ => 0

/-- Ciphertext length (R256). -/
def ctLen (alg k : Nat) : Nat :=
  match alg with
  | 0x05 => k
  | 0x18 => 1088
  | 0x19 => 1568
  | _ => 0

/-- Shared secret length (R256). -/
def ssLen (alg k : Nat) : Nat :=
  match alg with
  | 0x05 => k
  | 0x08 => 32
  | 0x09 => 48
  | 0x0A => 66
  | 0x0D => 32
  | 0x0E => 56
  | 0x18 | 0x19 => 32
  | _ => 0

/-- Digest length of a hash code (R254). -/
def digestLen (h : Nat) : Nat :=
  match h with
  | 0 | 3 => 32
  | 1 | 4 => 48
  | _ => 64

/-- Length of an RSA key blob (R258). -/
def rsaBlobLen (k : Nat) : Nat := 64 + (96 + 7 * k / 2) + 8

/-- Length of a slot blob (R203). -/
def slotBlobLen (kb : Nat) : Nat := 64 + (64 + kb + 7) / 8 * 8 + 8

/-- Bytes a job needs at OUT0 (R255, R261). -/
def out0Need (e : Bytes) : Nat :=
  let op := opOf e
  let alg := pkAlg e
  let k := modBits e / 8
  if op = Op.pkSign then sigLen alg k
  else if op = Op.pkKeygen then pubLen alg k
  else if op = Op.pkEncaps then ctLen alg k
  else if op = Op.pkAgree ∨ op = Op.pkDecaps then (if pkMode e = 0 then ssLen alg k else 0)
  else 0

/-- Bytes a job needs at OUT1 (R255, R260). -/
def out1Need (e : Bytes) : Nat :=
  let op := opOf e
  let alg := pkAlg e
  let k := modBits e / 8
  if op = Op.pkKeygen then (if alg = rsa then rsaBlobLen k else slotBlobLen ((keyBytes alg).getD 0))
  else if op = Op.pkEncaps then (if pkMode e = 0 then ssLen alg k else 0)
  else 0

/-- The job places its secret in a new slot (R261). -/
def pkToSlot (e : Bytes) : Bool :=
  (opOf e == Op.pkAgree || opOf e == Op.pkEncaps || opOf e == Op.pkDecaps) && pkMode e == 1

/-- The job names a slot with KEY_HANDLE (R255). -/
def pkUsesSlot (e : Bytes) : Bool :=
  let op := opOf e
  op == Op.pkSign || op == Op.pkKeygen || op == Op.pkAgree || op == Op.pkDecaps || (op == Op.pkVerify && pkPubSlot e)

/-- KEY_HANDLE names a wrapping slot (R255). -/
def pkUsesWrap (e : Bytes) : Bool :=
  opOf e == Op.pkKeygen || ((opOf e == Op.pkSign || opOf e == Op.pkDecaps) && pkAlg e == rsa)

/-- PK_FLAGS bits the opcode and algorithm use (R254). -/
def pkFlagMask (e : Bytes) : Nat :=
  let op := opOf e
  let alg := pkAlg e
  0x1F + (if op = Op.pkAgree ∨ op = Op.pkEncaps ∨ op = Op.pkDecaps then 0xC0 else 0) +
    (if (op = Op.pkSign ∨ op = Op.pkVerify) ∧ (alg = rsa ∨ isP alg = true) then 0xF00 else 0) +
    (if (op = Op.pkSign ∨ op = Op.pkVerify) ∧ alg = rsa then 0x1000 else 0) +
    (if op = Op.pkVerify then 0x2000 else 0)

/-- Fields of a public-key body that must be 0 (R253, R254, R476). -/
def pkRsv (e : Bytes) : Bool :=
  let op := opOf e
  let fresh := pkToSlot e || op == Op.pkKeygen
  let pss := (op == Op.pkSign || op == Op.pkVerify) && pkAlg e == rsa && !pkV15 e
  rsvSet e [(0x57, 1), (0x5E, 2), (0x6C, 20)] ||
  decide (flagsOf e &&& pkFlagMask e ≠ flagsOf e) ||
  (decide (pkAlg e ≠ rsa) && rsvSet e [(0x54, 2)]) ||
  (!pss && rsvSet e [(0x56, 1)]) ||
  (!pkToSlot e && rsvSet e [(0x58, 2)]) ||
  (if fresh then decide (newUses e ≥ 64) || decide (newExport e ≥ 4) else rsvSet e [(0x5A, 4)]) ||
  (!pkUsesSlot e && rsvSet e [(0x10, 4)]) ||
  ((List.range 4).any fun i => decide (inLen e i = 0) && decide (inAddr e i ≠ 0)) ||
  ((List.range 2).any fun i => decide (outMax e i = 0) && decide (outAddr e i ≠ 0))

/-- An input whose length the algorithm fixes has another length, or an input the opcode does not take is present
(R255, R256). -/
def pkLenBad (e : Bytes) : Bool :=
  let op := opOf e
  let alg := pkAlg e
  let k := modBits e / 8
  let blob := (op == Op.pkSign || op == Op.pkDecaps) && alg == rsa
  let ctx := (op == Op.pkSign || op == Op.pkVerify) && (alg == 0x0C || isMlDsa alg)
  (op == Op.pkVerify && decide (inLen e 1 ≠ sigLen alg k)) ||
  (op == Op.pkVerify && decide (inLen e 2 ≠ (if pkPubSlot e then 0 else pubLen alg k))) ||
  ((op == Op.pkAgree || op == Op.pkEncaps) && decide (inLen e 0 ≠ pubLen alg k)) ||
  (op == Op.pkDecaps && decide (inLen e 0 ≠ ctLen alg k)) ||
  (op == Op.pkKeygen && decide (inLen e 0 ≠ 0)) ||
  ((op == Op.pkSign || op == Op.pkKeygen) && (decide (inLen e 1 ≠ 0) || decide (inLen e 2 ≠ 0))) ||
  (blob && decide (inLen e 3 ≠ rsaBlobLen k)) ||
  (!blob && !ctx && decide (inLen e 3 ≠ 0))

/-- A parameter or a free length is out of range (R253, R254, R256). -/
def pkRangeBad (e : Bytes) : Bool :=
  let op := opOf e
  let alg := pkAlg e
  let sv := op == Op.pkSign || op == Op.pkVerify
  let hashed := sv && (alg == rsa || isP alg)
  let hkdf := op == Op.pkAgree || op == Op.pkEncaps || op == Op.pkDecaps
  let ctx := sv && (alg == 0x0C || isMlDsa alg)
  (alg == rsa && (decide (modBits e % 512 ≠ 0) || decide (modBits e < 2048) || decide (modBits e > 8192) ||
    (op == Op.pkKeygen && decide (modBits e ≠ 2048 ∧ modBits e ≠ 3072 ∧ modBits e ≠ 4096)))) ||
  (hashed && decide (pkHash e > 5)) ||
  (sv && alg == rsa && pkV15 e && decide (pkHash e > 2)) ||
  (sv && alg == rsa && !pkV15 e && decide (saltLen e > digestLen (pkHash e))) ||
  (hkdf && decide (pkMode e > 1)) ||
  (sv && (if hashed && pkPre e then decide (inLen e 0 ≠ digestLen (pkHash e)) else decide (inLen e 0 > 0x100000))) ||
  (ctx && decide (inLen e 3 > 255)) ||
  (hkdf && (decide (inLen e 1 > 256) || decide (inLen e 2 > 64)))

/-- The form of a public-key entry (R262, check 2). -/
def pkForm (e : Bytes) : Option Done :=
  let op := opOf e
  let ins := (List.range 4).map fun i => (inAddr e i, inLen e i)
  let outs := (List.range 2).map fun i => (outAddr e i, outMax e i)
  firstFail [
    (pkRsv e, bad 0x02),
    (!pkSupports op (pkAlg e), bad 0x40),
    (pkLenBad e, bad 0x41),
    (decide (outMax e 0 < out0Need e), bad 0x24 (out0Need e)),
    (decide (outMax e 1 < out1Need e), bad 0x24 (out1Need e)),
    (pkRangeBad e, bad 0x43),
    (overlaps ins outs, bad 0x04),
    (pkToSlot e && (!usesOk 0x03 (newUses e) || decide (newExport e > 1)), bad 0x21),
    (op == Op.pkKeygen && (decide (newExport e > 1) ||
      (if pkAlg e = rsa then decide (newUses e ≠ 16 ∧ newUses e ≠ 32) else !usesOk (pkAlg e) (newUses e))), bad 0x21)]

/-! ## RNG_FILL body (R295) -/

/-- LEN of RNG_FILL. -/
def rngLen (e : Bytes) : Nat := e.leAt 0x18 4
/-- DST_ADDR of RNG_FILL. -/
def rngDst (e : Bytes) : Nat := e.leAt 0x10 8

/-- The form of an RNG_FILL entry (R295). -/
def rngForm (e : Bytes) : Option Done :=
  firstFail [(rsvSet e [(0x1C, 36)], bad 0x02), (decide (rngLen e < 1) || decide (rngLen e > 0x100000), bad 0x03)]

/-! ## What an entry has read from host memory -/

/-- Bytes an admin command reads at entry offset 0x18. -/
def adminInLen (e : Bytes) : Nat :=
  let op := opOf e
  if op = Op.ceremony then e.leAt 0x20 4
  else if op = Op.approve ∨ op = Op.dictWrite then e.leAt 0x16 2
  else if op = Op.dirtyLog then 32 * (e.at_ 0x14).toNat
  else e.leAt 0x14 4

/-- The host buffers an entry reads, address and length, operand by operand: source and additional data of a cipher job,
inputs 0 to 3 of a public-key job, the one buffer of an admin command. -/
def inputsOf (e : Bytes) : List (Nat × Nat) :=
  let op := opOf e
  if isCipher op then [(srcOf e, srcLenOf e), (aadOf e, if op = Op.seal ∨ op = Op.unseal then aadLenOf e else 0)]
  else if isPk op then (List.range 4).map fun i => (inAddr e i, inLen e i)
  else [(e.leAt 0x18 8, adminInLen e)]

end Sys2Proof.Machine
end

