-- ==== Sys2Proof/Machine/Checks.lean ====
section
/-!
DEFINITION. The checks of a job against the device as it stands (R73, R262, R295), made in run-ahead and again at
commitment, and the reading of slots they rest on.
-/

namespace Sys2Proof.Machine

/-! ## Slots -/

/-- Slot `n`. -/
def State.slot (s : State) (n : Nat) : Slot := s.store.slots.getD n {}

/-- `s` with slot `n` replaced. -/
def setSlot (n : Nat) (x : Slot) (s : State) : State :=
  { s with store := { s.store with slots := s.store.slots.set n x } }

/-- `s` with slot `n` changed by `h`. -/
def modSlot (n : Nat) (h : Slot → Slot) (s : State) : State := setSlot n (h (s.slot n)) s

/-- ATTR a slot shows: from its blob while LOADING, 0 while EMPTY, else its working copy (R215). -/
def Slot.attr (x : Slot) : Nat :=
  match x.st with
  | .empty => 0
  | .loading => x.blob.leAt 0x10 8
  | _ => x.a.attr

/-- A tenant owns the slot. -/
def Slot.ownedBy (x : Slot) (tenant : Nat) : Bool := decide (x.st ≠ .empty) && decide (attrTenant x.attr = tenant)

/-- Slots a tenant owns (R163). -/
def State.slotsOwned (s : State) (tenant : Nat) : Nat :=
  (s.store.slots.filter fun p => decide (p.1 ≥ 64) && p.2.ownedBy tenant).length

/-- A tenant's slot quota (R163). -/
def State.slotQuota (s : State) (tenant : Nat) : Nat :=
  ((s.fns.filter fun p => decide (p.2.tenant = tenant) && decide (p.2.run ≠ .unallocated)).map fun p => p.2.quota).foldl (· + ·) 0

/-- The lowest-numbered EMPTY slot from 64 up (R207). -/
def State.lowestEmpty (s : State) : Option Nat :=
  ((List.range (s.store.slots.length + 1)).map (· + 64)).find? fun n =>
    decide (n < 65536) && decide ((s.slot n).st = .empty)

/-- The clear value of a masked one (R195). -/
def Masked.clear (k : Masked) : Bytes := k.x.xor k.m

/-- The two copies of a slot agree in every field; the key by the cancelling test (R196). -/
def copiesAgree (x : Slot) : Bool :=
  decide (x.a.key.clear = x.b.key.clear) && decide (x.a.attr = x.b.attr) && decide (x.a.count = x.b.count) &&
  decide (x.a.limit = x.b.limit) && decide (x.a.nb = x.b.nb) && decide (x.a.na = x.b.na)

/-! ## Check rows shared by the job classes -/

/-- Device LOCKED (R73, R262, row 1). -/
def lockedRow (s : State) : Bool × Done := (s.locked, { status := Status.locked })

/-- In DECOMMISSIONED no job of a pair or of the public-key engine runs (R236). DESIGN CHOICE (log entry 151): its status and its
place after row 1; R73 and R262 list no row for it. -/
def finalRow (s : State) : Bool × Done := (decide (s.life.lc = .decommissioned), { status := Status.unavailable })

/-- The slot an entry's key handle is about, if it names one (R130). -/
def slotNamed (e : Bytes) : Option Nat :=
  if isCipher (opOf e) && !sessionOf e then some (hSlot (handleOf e))
  else if isPk (opOf e) && pkUsesSlot e then some (hSlot (handleOf e))
  else none

/-- The job waits for a reload that is bringing its slot in (R215). -/
def waitsForReload (s : State) (e : Bytes) : Bool :=
  match slotNamed e with
  | some n => decide ((s.slot n).st = .loading) && s.store.reload
  | none => false

/-- Rows on the slot a handle names: range and owner, presence, generation (R73, rows 3 to 5). -/
def slotRows (s : State) (tenant h : Nat) : List (Bool × Done) :=
  let x := s.slot (hSlot h)
  [(decide (hSlot h < 64), { status := Status.accessDenied, detail := 0x02 }),
   (decide (x.st ≠ .empty) && decide (attrTenant x.attr ≠ tenant), { status := Status.accessDenied, detail := 0x01 }),
   (decide (x.st = .empty) || decide (x.st = .erasing) || (decide (x.st = .loading) && !s.store.reload),
     { status := Status.keyAbsent }),
   (decide (x.st = .bad), { status := Status.keyAbsent, detail := 0x02 }),
   (decide (x.st = .loaded) && decide (hGen h ≠ 0) && decide (hGen h ≠ attrGen x.attr), { status := Status.keyStale })]

/-- Rows on the use, algorithm and times of a LOADED slot (R73, row 6; R202), and its limit (row 7; R199). -/
def policyRows (s : State) (h op : Nat) (algOk exportOk : Bool) : List (Bool × Done) :=
  let x := s.slot (hSlot h)
  let on := decide (x.st = .loaded)
  [(on && !bit (attrUses x.a.attr) (useOf op), { status := Status.keyPolicy, detail := 0x01 }),
   (on && !algOk, { status := Status.keyPolicy, detail := 0x02 }),
   (on && decide (s.now < x.a.nb), { status := Status.keyPolicy, detail := 0x03 }),
   (on && producing op && decide (x.a.na ≠ 0) && decide (s.now ≥ x.a.na), { status := Status.keyPolicy, detail := 0x04 }),
   (on && !exportOk, { status := Status.keyPolicy, detail := 0x05 }),
   (on && decide (x.a.limit ≠ 0) && decide (x.a.count ≥ x.a.limit), { status := Status.keyLimit })]

/-! ## Cipher jobs (R73) -/

/-- Session key set `n` of a function. -/
def Fn.set (g : Fn) (n : Nat) : SessionSet := g.sk.getD n {}

/-- The set exists and holds a key (R69, R162). -/
def Fn.setValid (g : Fn) (n : Nat) : Bool := decide (n < g.skN) && (g.set n).valid

/-- UNSEAL in hold mode beyond what staging holds (row 3). -/
def holdRow (s : State) (f : Nat) (e : Bytes) : Bool × Done :=
  (opOf e == Op.unseal && decide ((s.fn f).release = 1) && decide (srcLenOf e > maxHold),
    { status := Status.accessDenied, detail := 0x03 })

/-- Rows 1 to 3 of a cipher job: the device, the entry's form, the slot's range and owner, and the hold limit. -/
def cipherEarly (s : State) (f : Nat) (e : Bytes) : List (Bool × Done) :=
  [lockedRow s, finalRow s] ++ (match cipherForm (s.fn f).release e with | some d => [(true, d)] | none => []) ++
    (if sessionOf e then [] else (slotRows s (s.fn f).tenant (handleOf e)).take 2) ++ [holdRow s f e]

/-- Rows 4 to 7 for the key of a cipher job. -/
def cipherKeyRows (s : State) (f : Nat) (e : Bytes) : List (Bool × Done) :=
  let g := s.fn f
  let op := opOf e
  if sessionOf e then
    [(!g.setValid (setOf e), { status := Status.keyAbsent, detail := 0x01 }),
     (isCheck op && decide ((g.set (setOf e)).a.x.length ≠ 32), { status := Status.keyPolicy, detail := 0x02 })]
  else
    let alg := attrAlg (s.slot (hSlot (handleOf e))).a.attr
    (slotRows s g.tenant (handleOf e)).drop 2 ++
      policyRows s (handleOf e) op
        (if op = Op.rawEncrypt ∨ op = Op.rawDecrypt then isAes alg else decide (alg = 3)) true

/-- No pair of the kind the opcode requires remains (R72, R99). -/
def noPairFor (s : State) (op : Nat) : Bool :=
  s.noPair && !(isCheck op && s.fab.pairs.any fun p => p.counts.half)

/-- The check of a cipher job (R73). -/
def cipherCheck (s : State) (f : Nat) (e : Bytes) : Option Done :=
  firstFail (cipherEarly s f e ++ cipherKeyRows s f e ++ [(noPairFor s (opOf e), { status := Status.degraded })])

/-! ## Public-key jobs (R262) -/

/-- The slot in which a job's secret is to go: the one named, or the lowest empty one (R253). -/
def State.targetSlot (s : State) (n : Nat) : Option Nat := if n = 0 then s.lowestEmpty else some n

/-- Row 8: the new slot and the tenant's quota. -/
def newSlotRows (s : State) (f : Nat) (e : Bytes) : List (Bool × Done) :=
  let t := (s.fn f).tenant
  if pkToSlot e then
    [(match s.targetSlot (newSlot e) with | none => true | some n => decide ((s.slot n).st ≠ .empty), bad 0x20),
     (decide (s.slotsOwned t + 1 > s.slotQuota t), { status := Status.accessDenied, detail := 0x07 })]
  else []

/-- Rows 1 to 3 of a public-key job: the device, the entry's form, the range of both slots and the slot's owner. -/
def pkEarly (s : State) (f : Nat) (e : Bytes) : List (Bool × Done) :=
  [lockedRow s, finalRow s] ++ (match pkForm e with | some d => [(true, d)] | none => []) ++
    [(pkToSlot e && decide (newSlot e ≠ 0) && decide (newSlot e < 64), { status := Status.accessDenied, detail := 0x02 })] ++
    (if pkUsesSlot e then (slotRows s (s.fn f).tenant (handleOf e)).take 2 else [])

/-- Rows 4 to 7 for the slot of a public-key job. -/
def pkKeyRows (s : State) (f : Nat) (e : Bytes) : List (Bool × Done) :=
  let op := opOf e
  if pkUsesSlot e then
    let a := (s.slot (hSlot (handleOf e))).a.attr
    let wrap := pkUsesWrap e
    let op' := if wrap then Op.pkKeygen else op
    let hostOut := (op == Op.pkAgree || (op == Op.pkDecaps && !wrap)) && decide (pkMode e = 0)
    (slotRows s (s.fn f).tenant (handleOf e)).drop 2 ++
      (policyRows s (handleOf e) op' (if wrap then decide (attrAlg a = 3) else decide (attrAlg a = pkAlg e))
        (!hostOut || decide (attrExport a = 1))).map fun r =>
          -- a wrapping slot used to sign or decapsulate with an RSA blob keeps the opcode's own kind of use (R202)
          if wrap && !producing op && r.2 == { status := Status.keyPolicy, detail := 0x04 } then (false, r.2) else r
  else []

/-- The check of a public-key job (R262). -/
def pkCheck (s : State) (f : Nat) (e : Bytes) : Option Done :=
  firstFail (pkEarly s f e ++ pkKeyRows s f e ++ newSlotRows s f e ++
    [(!s.pk.cores.any fun c => decide (c.st = .active), { status := Status.degraded })])

/-! ## RNG_FILL (R295) -/

/-- The check of an RNG_FILL. -/
def rngCheck (s : State) (e : Bytes) : Option Done :=
  if s.life.lc = .decommissioned then some { status := Status.unavailable, detail := 0x02 } else rngForm e

/-- The check of a job of any class; a NOP has none (R122). One that waits for its slot's reload is checked up to its
owner, and against the slot once that is loaded (R215). -/
def jobCheck (s : State) (f : Nat) (e : Bytes) : Option Done :=
  let op := opOf e
  let wait := waitsForReload s e
  if isCipher op then (if wait then firstFail (cipherEarly s f e) else cipherCheck s f e)
  else if isPk op then (if wait then firstFail (pkEarly s f e) else pkCheck s f e)
  else if op = Op.rngFill then rngCheck s e
  else none

end Sys2Proof.Machine
end

