-- ==== Sys2Proof/Machine/Aes.lean ====
section
/-!
DEFINITION. The AES block cipher (FIPS 197) for the three key lengths, forward and inverse, on byte strings.
One pass of a lane computes one of these (R75); the rotations of R82 leave the result unchanged.
-/

namespace Sys2Proof.Machine

/-- The S-box, entry i in byte i of the number. -/
def aesSboxTable : Nat := 0x16bb54b00f2d99416842e6bf0d89a18cdf2855cee9871e9b948ed9691198f8e19e1dc186b95735610ef6034866b53e708a8bbd4b1f74dde8c6b4a61c2e2578ba08ae7a65eaf4566ca94ed58d6d37c8e779e4959162acd3c25c2406490a3a32e0db0b5ede14b8ee4688902a22dc4f816073195d643d7ea7c41744975fec130ccdd2f3ff1021dab6bcf5389d928f40a351a89f3c507f02f94585334d43fbaaefd0cf584c4a39becb6a5bb1fc20ed00d153842fe329b3d63b52a05a6e1b1a2c830975b227ebe28012079a059618c323c7041531d871f1e5a534ccf73f362693fdb7c072a49cafa2d4adf04759fa7dc982ca76abd7fe2b670130c56f6bf27b777c63

/-- The inverse S-box, entry i in byte i of the number. -/
def aesInvSboxTable : Nat := 0x7d0c2155631469e126d677ba7e042b17619953833cbbebc8b0f52aae4d3be0a0ef9cc9939f7ae52d0d4ab519a97f51605fec8027591012b131c7078833a8dd1ff45acd78fec0db9a2079d2c64b3e56fc1bbe18aa0e62b76f89c5291d711af1476edf751ce837f9e28535ade72274ac9673e6b4f0cecff297eadc674f4111913a6b8a130103bdafc1020f3fca8f1e2cd00645b3b80558e4f70ad3bc8c00abd890849d8da75746155edab9edfd5048706c92b6655dcc5ca4d41698688664f6f87225d18b6d49a25b76b224d92866a12e084ec3fa420b954cee3d23c2a632947b54cbe9dec444438e3487ff2f9b8239e37cfbd7f3819ea340bf38a53630d56a0952

/-- S-box lookup. -/
def aesSub (x : Byte) : Byte := BitVec.ofNat 8 (aesSboxTable >>> (8 * x.toNat))

/-- Inverse S-box lookup. -/
def aesInvSub (x : Byte) : Byte := BitVec.ofNat 8 (aesInvSboxTable >>> (8 * x.toNat))

/-- Multiplication by x in GF(2^8). -/
def aesXtime (x : Byte) : Byte := if x.msb then (x <<< 1) ^^^ 0x1B#8 else x <<< 1

/-- Multiplication by a small constant in GF(2^8). -/
def aesMul (c : Nat) (x : Byte) : Byte :=
  let x2 := aesXtime x
  let x4 := aesXtime x2
  let x8 := aesXtime x4
  (if c.testBit 0 then x else 0) ^^^ (if c.testBit 1 then x2 else 0) ^^^
  (if c.testBit 2 then x4 else 0) ^^^ (if c.testBit 3 then x8 else 0)

/-- Key expansion: the words already made, newest first, and the round constant. -/
def aesExpandFuel (nk : Nat) : Nat → Nat → Byte → List Bytes → List Bytes
  | 0, _, _, ws => ws
  | fuel + 1, i, rcon, ws =>
    let prev := ws.headD []
    let back := ws.getD (nk - 1) []
    let atKey := i % nk == 0
    let t := if atKey then
        match prev with
        | [a, b, c, d] => [aesSub b ^^^ rcon, aesSub c, aesSub d, aesSub a]
        | w => w
      else if nk == 8 && i % nk == 4 then prev.map aesSub else prev
    aesExpandFuel nk fuel (i + 1) (if atKey then aesXtime rcon else rcon) (Bytes.xor back t :: ws)

/-- Number of rounds for a key of `n` bytes. -/
def aesRounds (n : Nat) : Nat := n / 4 + 6

/-- The round keys of a key, 16 bytes each, in order. -/
def aesRoundKeys (key : Bytes) : List Bytes :=
  let nk := key.length / 4
  let ws := aesExpandFuel nk (4 * (aesRounds key.length + 1) - nk) nk 1#8 ((Bytes.chunks 4 key).reverse)
  Bytes.chunks 16 ws.reverse.flatten

/-- ShiftRows on a 16-byte state in column order. -/
def aesShiftRows (s : Bytes) : Bytes := (List.range 16).map fun i => s.getD ((i + 4 * (i % 4)) % 16) 0

/-- Inverse ShiftRows. -/
def aesInvShiftRows (s : Bytes) : Bytes := (List.range 16).map fun i => s.getD ((i + 16 - 4 * (i % 4)) % 16) 0

/-- One column through MixColumns. -/
def aesMixColumn : Bytes → Bytes
  | [a, b, c, d] =>
    [aesXtime a ^^^ aesXtime b ^^^ b ^^^ c ^^^ d, a ^^^ aesXtime b ^^^ aesXtime c ^^^ c ^^^ d,
     a ^^^ b ^^^ aesXtime c ^^^ aesXtime d ^^^ d, aesXtime a ^^^ a ^^^ b ^^^ c ^^^ aesXtime d]
  | w => w

/-- One column through inverse MixColumns. -/
def aesInvMixColumn : Bytes → Bytes
  | [a, b, c, d] =>
    [aesMul 14 a ^^^ aesMul 11 b ^^^ aesMul 13 c ^^^ aesMul 9 d, aesMul 9 a ^^^ aesMul 14 b ^^^ aesMul 11 c ^^^ aesMul 13 d,
     aesMul 13 a ^^^ aesMul 9 b ^^^ aesMul 14 c ^^^ aesMul 11 d, aesMul 11 a ^^^ aesMul 13 b ^^^ aesMul 9 c ^^^ aesMul 14 d]
  | w => w

/-- The rounds after the initial AddRoundKey; the last round key's round has no MixColumns. -/
def aesEncRounds : List Bytes → Bytes → Bytes
  | [], s => s
  | [k], s => Bytes.xor (aesShiftRows (s.map aesSub)) k
  | k :: ks, s => aesEncRounds ks (Bytes.xor (((Bytes.chunks 4 (aesShiftRows (s.map aesSub))).map aesMixColumn).flatten) k)

/-- The inverse rounds, with the round keys from the last but one down to the first. -/
def aesDecRounds : List Bytes → Bytes → Bytes
  | [], s => s
  | [k], s => Bytes.xor ((aesInvShiftRows s).map aesInvSub) k
  | k :: ks, s => aesDecRounds ks (((Bytes.chunks 4 (Bytes.xor ((aesInvShiftRows s).map aesInvSub) k)).map aesInvMixColumn).flatten)

/-- Forward cipher with expanded keys. -/
def aesEncWith (rk : List Bytes) (b : Bytes) : Bytes := aesEncRounds rk.tail (Bytes.xor (Bytes.fit b 16) (rk.headD []))

/-- Inverse cipher with expanded keys. -/
def aesDecWith (rk : List Bytes) (b : Bytes) : Bytes :=
  aesDecRounds rk.reverse.tail (Bytes.xor (Bytes.fit b 16) (rk.reverse.headD []))

/-- AES forward cipher of one block. -/
def aesEnc (key b : Bytes) : Bytes := aesEncWith (aesRoundKeys key) b

/-- AES inverse cipher of one block. -/
def aesDec (key b : Bytes) : Bytes := aesDecWith (aesRoundKeys key) b

end Sys2Proof.Machine
end

