-- ==== Sys2Proof/Machine/Modes.lean ====
section
/-!
DEFINITION. The modes of operation the manual names: the SP 800-38A modes with the ciphertext-stealing variants (R63),
CMAC (SP 800-38B), GCM and GMAC (SP 800-38D), key wrap with padding (SP 800-38F) and the counter-mode key derivation
of SP 800-108 (R36).
-/

namespace Sys2Proof.Machine

/-! ## CMAC and key derivation -/

/-- Doubling in GF(2^128) as CMAC uses it. -/
def cmacDouble (b : Bytes) : Bytes :=
  let n := Bytes.toBE b
  Bytes.ofBE 16 (if n.testBit 127 then (2 * n) % 2 ^ 128 ^^^ 0x87 else 2 * n)

/-- CMAC of a byte string under an AES key (SP 800-38B). -/
def cmac (key m : Bytes) : Bytes :=
  let rk := aesRoundKeys key
  let k1 := cmacDouble (aesEncWith rk (Bytes.zeros 16))
  let full := decide (0 < m.length) && m.length % 16 == 0
  let cut := if full then m.length - 16 else m.length / 16 * 16
  let last := m.drop cut
  let x := if full then Bytes.xor last k1 else Bytes.xor (Bytes.fit (last ++ [0x80#8]) 16) (cmacDouble k1)
  let c := (Bytes.chunks 16 (m.take cut)).foldl (fun c b => aesEncWith rk (Bytes.xor c b)) (Bytes.zeros 16)
  aesEncWith rk (Bytes.xor c x)

/-- The 61-byte derivation input M(i) of R36, every integer big-endian (R37). -/
def fragInput (i tenant obj ver frag : Nat) (salt : Bytes) (epoch : Nat) : Bytes :=
  Bytes.ofBE 4 i ++ Bytes.ascii "GLALET-FK-V1" ++ [0#8] ++ Bytes.ofBE 2 tenant ++ Bytes.ofBE 16 obj ++ Bytes.ofBE 8 ver ++
  Bytes.ofBE 4 frag ++ salt ++ Bytes.ofBE 2 epoch ++ Bytes.ofBE 4 256

/-- The fragment key K_F = K(1) || K(2) (R36). -/
def fragKey (kt : Bytes) (tenant obj ver frag : Nat) (salt : Bytes) (epoch : Nat) : Bytes :=
  cmac kt (fragInput 1 tenant obj ver frag salt epoch) ++ cmac kt (fragInput 2 tenant obj ver frag salt epoch)

/-! ## GCM -/

/-- One step of the product in GF(2^128) in the bit order of GHASH. -/
def ghashStep (x : Nat) (acc : Nat × Nat) (i : Nat) : Nat × Nat :=
  let (z, v) := acc
  (if x.testBit (127 - i) then z ^^^ v else z, if v.testBit 0 then (v >>> 1) ^^^ (0xE1 <<< 120) else v >>> 1)

/-- The product of two blocks, as big-endian numbers. -/
def ghashMul (x y : Nat) : Nat := ((List.range 128).foldl (ghashStep x) (0, y)).1

/-- GHASH over whole blocks. -/
def ghash (h : Nat) (bs : List Bytes) : Nat := bs.foldl (fun y b => ghashMul (y ^^^ Bytes.toBE (Bytes.fit b 16)) h) 0

/-- Increment of the last `w` bits of a 16-byte counter block. -/
def ctrAdd (w : Nat) (b : Bytes) (n : Nat) : Bytes :=
  let v := Bytes.toBE b
  Bytes.ofBE 16 (v / 2 ^ w * 2 ^ w + (v % 2 ^ w + n) % 2 ^ w)

/-- CTR mode: the counter is the last `w` bits of the block. Encryption and decryption are the same. -/
def ctrMode (key : Bytes) (w : Nat) (c0 src : Bytes) : Bytes :=
  let rk := aesRoundKeys key
  ((Bytes.chunks 16 src).zipIdx.map fun p => Bytes.xor p.1 (aesEncWith rk (ctrAdd w c0 p.2))).flatten

/-- The tag of GCM over additional data and ciphertext, for a 96-bit IV. -/
def gcmTag (key iv aad ct : Bytes) : Bytes :=
  let h := Bytes.toBE (aesEnc key (Bytes.zeros 16))
  let y := ghash h (Bytes.chunks 16 aad ++ Bytes.chunks 16 ct ++ [Bytes.ofBE 8 (8 * aad.length) ++ Bytes.ofBE 8 (8 * ct.length)])
  Bytes.xor (Bytes.ofBE 16 y) (aesEnc key (iv ++ Bytes.ofBE 4 1))

/-- The keystream part of GCM: encryption or decryption under a 96-bit IV. -/
def gcmCrypt (key iv src : Bytes) : Bytes := ctrMode key 32 (iv ++ Bytes.ofBE 4 2) src

/-- The IV of a fragment (R39). -/
def fragIv (frag : Nat) : Bytes := Bytes.ascii "SEALFRAG" ++ Bytes.ofBE 4 frag

/-! ## Chained modes -/

/-- CBC encryption of whole blocks. -/
def cbcEncBlocks (rk : List Bytes) : Bytes → List Bytes → List Bytes
  | _, [] => []
  | iv, b :: bs => let c := aesEncWith rk (Bytes.xor iv b); c :: cbcEncBlocks rk c bs

/-- CBC decryption of whole blocks. -/
def cbcDecBlocks (rk : List Bytes) : Bytes → List Bytes → List Bytes
  | _, [] => []
  | iv, c :: cs => Bytes.xor iv (aesDecWith rk c) :: cbcDecBlocks rk c cs

/-- CBC encryption. -/
def cbcEnc (key iv src : Bytes) : Bytes := (cbcEncBlocks (aesRoundKeys key) iv (Bytes.chunks 16 src)).flatten

/-- CBC decryption. -/
def cbcDec (key iv src : Bytes) : Bytes := (cbcDecBlocks (aesRoundKeys key) iv (Bytes.chunks 16 src)).flatten

/-- Length of the final block of a ciphertext-stealing message: 1 to 16. -/
def csTail (n : Nat) : Nat := (n + 15) % 16 + 1

/-- The CS1 form of a message whose blocks before the last two are `front`: C*(n-1) then C(n). The variants CS2 and CS3
exchange the two last blocks when the last is partial, and always (addendum to SP 800-38A). -/
def csSwaps (variant tail : Nat) : Bool := variant == 3 || (variant == 2 && tail != 16)

/-- CBC with ciphertext stealing, encryption. -/
def cbcCsEnc (variant : Nat) (key iv src : Bytes) : Bytes :=
  let d := csTail src.length
  let whole := cbcEnc key iv (src ++ Bytes.zeros (16 - d))
  if whole.length ≤ 16 then whole else
    let front := whole.take (whole.length - 32)
    let pen := (whole.drop (whole.length - 32)).take d
    let fin := whole.drop (whole.length - 16)
    if csSwaps variant d then front ++ fin ++ pen else front ++ pen ++ fin

/-- CBC with ciphertext stealing, decryption. -/
def cbcCsDec (variant : Nat) (key iv src : Bytes) : Bytes :=
  let d := csTail src.length
  if src.length ≤ 16 then cbcDec key iv src else
    let front := src.take (src.length - 16 - d)
    let rest := src.drop (src.length - 16 - d)
    let pen := if csSwaps variant d then rest.drop 16 else rest.take d
    let fin := if csSwaps variant d then rest.take 16 else rest.drop d
    let z := aesDec key fin
    let penFull := pen ++ z.drop d
    let chain := if front.length = 0 then iv else front.drop (front.length - 16)
    cbcDec key iv front ++ Bytes.xor chain (aesDec key penFull) ++ Bytes.xor pen (z.take d)

/-- CFB128 over blocks; `enc` tells encryption from decryption. -/
def cfbBlocks (rk : List Bytes) (enc : Bool) : Bytes → List Bytes → List Bytes
  | _, [] => []
  | iv, b :: bs => let o := Bytes.xor b (aesEncWith rk iv); o :: cfbBlocks rk enc (if enc then o else b) bs

/-- CFB128 mode. -/
def cfbMode (enc : Bool) (key iv src : Bytes) : Bytes := (cfbBlocks (aesRoundKeys key) enc iv (Bytes.chunks 16 src)).flatten

/-- The OFB output blocks O_1, O_2, …, `n` of them. -/
def ofbStream (rk : List Bytes) : Nat → Bytes → List Bytes
  | 0, _ => []
  | n + 1, o => let o' := aesEncWith rk o; o' :: ofbStream rk n o'

/-- OFB mode. -/
def ofbMode (key iv src : Bytes) : Bytes :=
  Bytes.xor src (ofbStream (aesRoundKeys key) ((src.length + 15) / 16) iv).flatten

/-! ## Key wrap with padding -/

/-- One step of the wrapping function W: the integrity block and the rest rotate through 64-bit halves. -/
def kwStep (rk : List Bytes) (st : Bytes × List Bytes) (t : Nat) : Bytes × List Bytes :=
  match st.2 with
  | [] => st
  | r :: rs =>
    let o := aesEncWith rk (st.1 ++ r)
    (Bytes.xor (o.take 8) (Bytes.ofBE 8 t), rs ++ [o.drop 8])

/-- One step of the inverse of W. -/
def kwUnstep (rk : List Bytes) (st : Bytes × List Bytes) (t : Nat) : Bytes × List Bytes :=
  match st.2.reverse with
  | [] => st
  | r :: rs =>
    let o := aesDecWith rk (Bytes.xor st.1 (Bytes.ofBE 8 t) ++ r)
    (o.take 8, o.drop 8 :: rs.reverse)

/-- The alternative initial value of KWP for a plaintext of `n` bytes. -/
def kwpAiv (n : Nat) : Bytes := Bytes.ofBE 4 0xA65959A6 ++ Bytes.ofBE 4 n

/-- KWP wrap (SP 800-38F). -/
def kwpWrap (key p : Bytes) : Bytes :=
  let rk := aesRoundKeys key
  let padded := p ++ Bytes.zeros ((8 - p.length % 8) % 8)
  if padded.length ≤ 8 then aesEncWith rk (kwpAiv p.length ++ padded) else
    let n := padded.length / 8
    let r := (List.range (6 * n)).foldl (fun st i => kwStep rk st (i + 1)) (kwpAiv p.length, Bytes.chunks 8 padded)
    r.1 ++ r.2.flatten

/-- KWP unwrap: the plaintext, or none when an integrity check fails. -/
def kwpUnwrap (key c : Bytes) : Option Bytes :=
  if c.length % 8 ≠ 0 || c.length < 16 then none else
    let rk := aesRoundKeys key
    let r := if c.length = 16 then
        let o := aesDecWith rk c
        (o.take 8, [o.drop 8])
      else
        let n := c.length / 8 - 1
        (List.range (6 * n)).foldl (fun st i => kwUnstep rk st (6 * n - i)) (c.take 8, Bytes.chunks 8 (c.drop 8))
    let p := r.2.flatten
    let len := Bytes.toBE (r.1.drop 4)
    if r.1.take 4 == Bytes.ofBE 4 0xA65959A6 && decide (len ≤ p.length) && decide (p.length < len + 8) &&
       Bytes.allZero (p.drop len) then some (p.take len) else none

end Sys2Proof.Machine
end

