-- ==== Sys2Proof/Machine/Fragment.lean ====
section
/-!
DEFINITION. What a pair computes, as functions of key, entry and data: sealed fragments (R34 to R51), check values
(R59) and the RAW modes (R63 to R66, R477).
-/

namespace Sys2Proof.Machine

/-- Header bytes 0x00 to 0x2F (R34). -/
def fragHead (epoch gen len : Nat) (aad : Bool) (frag obj ver salt : Bytes) : Bytes :=
  Bytes.ofNats [0xC7, 0x01, 0x01 + 16 * b2n aad, 0] ++ Bytes.ofLE 2 epoch ++ Bytes.ofLE 2 gen ++ Bytes.ofLE 4 len ++
    frag ++ obj ++ ver ++ salt

/-- The fragment key a header spells (R36, R50). -/
def headerKey (key : Bytes) (tenant : Nat) (hdr : Bytes) : Bytes :=
  fragKey key tenant (hdr.leAt 0x10 16) (hdr.leAt 0x20 8) (hdr.leAt 0x0C 4) (hdr.slice 0x28 8) (hdr.leAt 0x04 2)

/-- The tag over header, tenant additional data and ciphertext (R40). -/
def fragTag (kf hdr aad ct : Bytes) : Bytes :=
  gcmTag kf (fragIv (hdr.leAt 0x0C 4)) (hdr.slice 0 0x30 ++ aad) ct

/-- The sealed fragment of a SEAL entry (R33, R45). -/
def sealFragment (key : Bytes) (tenant epoch gen : Nat) (salt e plain aad : Bytes) : Bytes :=
  let hdr := fragHead epoch gen plain.length (decide (aadLenOf e ≠ 0)) (fragOf e) (e.slice 0x40 16) (e.slice 0x50 8) salt
  let kf := headerKey key tenant hdr
  let ct := gcmCrypt kf (fragIv (hdr.leAt 0x0C 4)) plain
  hdr ++ fragTag kf hdr aad ct ++ ct

/-- A header is well-formed (R35). -/
def headerWf (h : Bytes) : Bool :=
  decide (h.at_ 0 = 0xC7) && decide (h.at_ 1 = 0x01) && decide ((h.at_ 2).toNat % 16 = 1) &&
  decide ((h.at_ 2).toNat / 32 = 0) && decide (h.at_ 3 = 0) && decide (h.leAt 8 4 ≤ maxLen)

/-- The refusals an UNSEAL makes on its header (R49). -/
def headerRefusal (e h : Bytes) (epoch : Nat) : Option Done :=
  firstFail [
    (!headerWf h, { status := Status.tagMismatch, detail := 0x80 }),
    (decide (h.leAt 8 4 + 64 ≠ srcLenOf e), { status := Status.tagMismatch, detail := 0x08 }),
    (decide (h.leAt 4 2 ≠ epoch), { status := Status.keyStale, detail := 0x01 })]

/-- Identity and additional-data differences in an UNSEAL's detail (R51). -/
def identityBits (e h : Bytes) : Nat :=
  (if noExpectOf e then 0 else
    b2n (decide (h.slice 0x10 16 ≠ e.slice 0x40 16)) + 2 * b2n (decide (h.slice 0x20 8 ≠ e.slice 0x50 8)) +
      4 * b2n (decide (h.slice 0x0C 4 ≠ fragOf e))) +
  16 * b2n (decide ((h.at_ 2).getLsbD 4 ≠ decide (aadLenOf e ≠ 0)))

/-- Plaintext of a fragment's ciphertext (R50). -/
def unsealText (key : Bytes) (tenant : Nat) (h ct : Bytes) : Bytes :=
  gcmCrypt (headerKey key tenant h) (fragIv (h.leAt 0x0C 4)) ct

/-- The tag verdict (R50). -/
def unsealVerdict (key : Bytes) (tenant : Nat) (h aad ct : Bytes) : Bool :=
  decide (fragTag (headerKey key tenant h) h aad ct = h.slice 0x30 16)

/-- The check value of a CHECK entry (R59). -/
def checkValue (key e data : Bytes) : Bytes :=
  if gmacOf e then gcmTag key (e.slice 0x30 12) data [] else cmac key data

/-- The output of a RAW entry (R63, R64). -/
def rawOutput (key e src : Bytes) : Bytes :=
  let enc := opOf e == Op.rawEncrypt
  let iv := ivOf e
  match rawModeOf e with
  | 0 => ctrMode key (ctrBits (ctrWidthOf e)) iv src
  | 1 => if enc then cbcEnc key iv src else cbcDec key iv src
  | 2 => if enc then cbcCsEnc 1 key iv src else cbcCsDec 1 key iv src
  | 3 => if enc then cbcCsEnc 2 key iv src else cbcCsDec 2 key iv src
  | 4 => if enc then cbcCsEnc 3 key iv src else cbcCsDec 3 key iv src
  | 5 => cfbMode enc key iv src
  | _ => ofbMode key iv src

/-- NEXT_IV of a RAW entry (R63, R477). -/
def rawNextIv (e src out : Bytes) : Bytes :=
  let n := src.length
  if n = 0 then ivOf e
  else match rawModeOf e with
    | 0 => ctrAdd (ctrBits (ctrWidthOf e)) (ivOf e) ((n + 15) / 16)
    | 6 => Bytes.xor (src.slice (n - 16) 16) (out.slice (n - 16) 16)
    | _ => if opOf e = Op.rawEncrypt then out.slice (n - 16) 16 else src.slice (n - 16) 16

end Sys2Proof.Machine
end

