-- ==== Sys2Proof/Machine/Jobs.lean ====
section
/-!
DEFINITION. Jobs: the job table, completion records, mirrors and consumer indices, the resources a job holds, and the
ways a job ends early.
-/

namespace Sys2Proof.Machine

/-! ## The job table -/

/-- The job of a name. -/
def State.job? (s : State) (r : JobRef) : Option Job := s.jobs.find? fun j => decide (j.ref = r)

/-- `s` with a job changed. -/
def modJob (r : JobRef) (h : Job → Job) (s : State) : State :=
  { s with jobs := s.jobs.map fun j => if j.ref = r then h j else j }

/-- The job is committed (R132). -/
def Job.committed (j : Job) : Bool := decide (j.stage = .committed)

/-- Opcode of a job. -/
def Job.op (j : Job) : Nat := opOf j.entry

/-- Entries in run-ahead in the device (R131). Admin commands have no run-ahead (R137). -/
def State.runAhead (s : State) : Nat := (s.jobs.filter fun j => !j.committed && decide (j.ref.jq ≠ 0)).length

/-- Jobs of function `f` in flight (R131, R159). -/
def State.inFlight (s : State) (f : Nat) : Nat := (s.jobs.filter fun j => decide (j.ref.fn = f)).length

/-- Job queue `q` of function `f`. -/
def State.jq? (s : State) (f q : Nat) : Option JobQueue := (s.fn f).jqs.find? q

/-- Distance of an index from FN_JQ_CI of its queue (R115). -/
def State.place (s : State) (r : JobRef) : Nat :=
  match s.jq? r.fn r.jq with | some x => (r.index - x.ci).toNat | none => r.index.toNat

/-- Jobs of the same queue that lie before this one in the ring and have not completed. -/
def State.earlier (s : State) (r : JobRef) : List Job :=
  s.jobs.filter fun j => decide (j.ref.fn = r.fn) && decide (j.ref.jq = r.jq) && decide (s.place j.ref < s.place r)

/-- FENCE lets the job be committed (R136): its own fence, and no fence of an earlier uncommitted entry. -/
def State.fenceOk (s : State) (j : Job) : Bool :=
  let l := s.earlier j.ref
  (!fenceOf j.entry || l.isEmpty) && !l.any fun k => fenceOf k.entry && !k.committed

/-- Every earlier entry of the job's queue has been committed (R132). -/
def State.earlierCommitted (s : State) (j : Job) : Bool := (s.earlier j.ref).all Job.committed

/-! ## Queues -/

/-- Completion queue `c` of function `f`. -/
def State.cq? (s : State) (f c : Nat) : Option CompQueue := (s.fn f).cqs.find? c

/-- `s` with job queue `q` of `f` replaced. -/
def setJq (f q : Nat) (x : JobQueue) (s : State) : State := modFn f (fun g => { g with jqs := g.jqs.set q x }) s

/-- `s` with completion queue `c` of `f` replaced. -/
def setCq (f c : Nat) (x : CompQueue) (s : State) : State := modFn f (fun g => { g with cqs := g.cqs.set c x }) s

/-- Ring size in units (R114). -/
def JobQueue.size (x : JobQueue) : Nat := 2 ^ x.log2
/-- Ring size in records. -/
def CompQueue.size (x : CompQueue) : Nat := 2 ^ x.log2

/-- Host address of slot `i` of a job queue's ring (R114). -/
def JobQueue.slotAt (x : JobQueue) (i : Word) : Nat := x.ring + (i.toNat % x.size) * 64
/-- Host address of record `i` of a completion queue's ring (R114). -/
def CompQueue.recAt (x : CompQueue) (i : Word) : Nat := x.ring + (i.toNat % x.size) * 32

/-- The reservation test (R126). -/
def CompQueue.mayReserve (c : CompQueue) : Bool := decide ((c.pi - c.ci).toNat + c.reserved < c.size)

/-- The queue has a free record (R144). -/
def CompQueue.hasRoom (c : CompQueue) : Bool := decide ((c.pi - c.ci).toNat + c.reserved < c.size)

/-- Completion queue a job's record goes to (R113): that of its queue; 64, which is none, for a submitted job. -/
def State.cqOf (s : State) (r : JobRef) : Nat := match s.jq? r.fn r.jq with | some x => x.cq | none => 64

/-! ## Completion records, mirrors, consumer index -/

/-- A completion record (R124). -/
def recordBytes (j : Job) (d : Done) (now : Nat) : Bytes :=
  tagOf j.entry ++ Bytes.ofLE 4 j.ref.index.toNat ++ Bytes.ofNats [j.ref.jq, j.op, d.status, d.detail] ++
    Bytes.ofLE 4 d.r0 ++ Bytes.ofLE 4 d.r1 ++
    Bytes.ofNats [j.attempts, if j.attempts = 0 then 0xFF else j.pair, 0, 0] ++ Bytes.ofLE 4 (now % 2 ^ 32)

/-- Write the mirror of completion queue `c` when it does not cover every record, and count its event (R127, R173). -/
def writeMirror (f c : Nat) (s : State) : State :=
  match s.cq? f c with
  | none => s
  | some q =>
    if q.pi = q.covered then s
    else
      let s1 := setCq f c { q with covered := q.pi, irqNow := false } (hostWrite f q.mirror (Bytes.ofLE 4 q.pi.toNat) s)
      if q.irqEn then vecEvent f q.vector q.irqNow s1 else s1

/-- Issue a record to completion queue `c`, using a reservation when it holds one (R126, R135); the 64th uncovered
record writes the mirror (R127). -/
def issueRecord (f c : Nat) (b : Bytes) (reserved irqNow : Bool) (s : State) : State :=
  match s.cq? f c with
  | none => s
  | some q =>
    let s1 := setCq f c { q with pi := q.pi + 1, reserved := q.reserved - b2n reserved
                                 firstAt := if q.pi = q.covered then s.now else q.firstAt
                                 irqNow := q.irqNow || irqNow } (hostWrite f (q.recAt q.pi) b s)
    if (q.pi + 1 - q.covered).toNat ≥ 64 then writeMirror f c s1 else s1

/-- The consumer index past every completed entry at the ring's head (R129). -/
def advanceEntries : Word → List RingEntry → Word × List RingEntry
  | ci, [] => (ci, [])
  | ci, e :: r => if e.done then advanceEntries (ci + BitVec.ofNat 32 e.len) r else (ci, e :: r)

/-- Mark the entry at index `i` completed and advance FN_JQ_CI (R129). -/
def finishEntry (f q : Nat) (i : Word) (s : State) : State :=
  match s.jq? f q with
  | none => s
  | some x =>
    let a := advanceEntries x.ci (x.entries.map fun e => if e.index = i then { e with done := true } else e)
    setJq f q { x with ci := a.1, entries := a.2 } s

/-- The index of the next slot to fetch: past every fetched entry that lies without a gap after FN_JQ_CI. -/
def fetchWalk : Word → List RingEntry → Word
  | i, [] => i
  | i, e :: r => if e.index = i then fetchWalk (i + BitVec.ofNat 32 e.len) r else i

/-- The index of the next slot a queue fetches. -/
def JobQueue.next (x : JobQueue) : Word := fetchWalk x.ci x.entries

/-- A fetched entry in its ring order. -/
def insertEntry (ci : Word) (e : RingEntry) : List RingEntry → List RingEntry
  | [] => [e]
  | k :: r => if (e.index - ci).toNat < (k.index - ci).toNat then e :: k :: r else k :: insertEntry ci e r

/-! ## What a job holds -/

/-- A pair that stood in for one that has rejoined returns to its previous role once its jobs have completed (R24). -/
def returnRole (p : Nat) (s : State) : State :=
  let x := s.pair p
  match x.leaving with
  | some r =>
    if x.jobs.isEmpty && decide (x.st ≠ .fenced) then
      setErr Block.cf 5 (record 0x0103 3 p (x.st.ctorIdx) (r.ctorIdx)
        (s := { s with fab := { s.fab with pairs := s.fab.pairs.set p { x with st := r, leaving := none } } }))
    else s
  | none => s

/-- Take a job off the pair that holds it. -/
def leavePair (r : JobRef) (s : State) : State :=
  match (List.range 10).find? fun p => (s.pair p).jobs.contains r with
  | none => s
  | some p =>
    returnRole p { s with fab := { s.fab with
      pairs := s.fab.pairs.set p { s.pair p with jobs := (s.pair p).jobs.filter fun x => decide (x ≠ r) } } }

/-- Release hold-mode staging of a job in the slices of its pair's cluster (R57). -/
def releaseHold (j : Job) (s : State) : State :=
  if j.hold = 0 then s
  else { s with fab := { s.fab with slices := s.fab.slices.modify (j.pair / 2) (· - j.hold) } }

/-- What a context held of a job, overwritten: keys, draws, representation, operands and results (R275). -/
def eraseContext (j : Job) : Job :=
  { j with keyA := {}, keyB := {}, draws := [], rep := {}, inA := [], inB := [], result := none }

/-- A core holds the job in one of its contexts. -/
def PkCore.holds (c : PkCore) (r : JobRef) : Bool := decide (c.cur = some r) || decide (c.parked = some r)

/-- Take a job off the public-key engine: a context that held it is overwritten and read back before it serves another
(R275). The waits for that are left out with all durations. -/
def leavePk (r : JobRef) (s : State) : State :=
  let s1 := if s.pk.cores.any fun c => c.holds r then modJob r eraseContext s else s
  { s1 with pk := { s1.pk with
      queue := s1.pk.queue.filter fun x => decide (x ≠ r)
      cores := s1.pk.cores.map fun c =>
        if c.cur = some r then { c with cur := none, erased := c.erased + 1 }
        else if c.parked = some r then { c with parked := none, erased := c.erased + 1 } else c } }

/-- Erase a retiring generation that no job is bound to (R213). -/
def freeRetiring (n gen : Nat) (s : State) : State :=
  match (s.slot n).retiring with
  | some r =>
    if r.gen = gen ∧ ¬ (s.jobs.any fun j => decide (j.slot = n) && decide (j.gen = gen)) then
      modSlot n (fun x => { x with retiring := none }) s
    else s
  | none => s

/-- Function `f` still has committed work (R175, R180). -/
def State.busy (s : State) (f : Nat) : Bool := s.jobs.any fun j => decide (j.ref.fn = f) && j.committed

/-- Write the mirror of every completion queue of a function that lags. -/
def flushMirrors (f : Nat) (s : State) : State := (s.fn f).cqs.keys.foldl (fun s c => writeMirror f c s) s

/-- A function whose committed work has ended, its mirrors written, enters D3hot when its quiescence runs (R175). -/
def enterD3 (f : Nat) (s : State) : State :=
  if (s.fn f).quiesce.isSome && !s.busy f then
    modFn f (fun g => { g with run := .d3hot, quiesce := none, rngBuf := [], sleptAt := s.now }) (flushMirrors f s)
  else s

/-- The status of a job that succeeded: OK_RETRIED when it took more than one attempt (R94, R268). -/
def okStatus (j : Job) : Nat := if j.attempts > 1 ∨ j.restarts > 0 then Status.okRetried else Status.ok

/-- A reaction holds the job's claim until its record is issued (R429), or a firmware command's effect is done. -/
def Job.taken (j : Job) : Bool := j.ended || (j.outcome.isSome && (j.silent || decide (j.ref.jq = 0)))

/-- Decide a job's completion; JOB_COMPLETION issues its record. -/
def decideJob (r : JobRef) (d : Done) (s : State) : State := modJob r (fun j => { j with outcome := some d }) s

/-! ## Ending a job early -/

/-- Operand `i` of a job as its A side holds it; as host memory holds it while its read is outstanding. -/
def Job.input (j : Job) (i : Nat) (s : State) : Bytes :=
  if j.reads = .arrived then j.inA.getD i []
  else match (inputsOf j.entry)[i]? with
    | some b => s.hostRead j.ref.fn b.1 b.2
    | none => []

/-- A buffer that an abandoned attempt may have written. -/
structure TraceWrite where
  addr  : Nat
  len   : Nat
  new   : Option Bytes             -- what it would have written there; none where the bytes are undefined
  whole : Bool := false            -- all of it is written or none (R62, R478)

/-- The buffers an abandoned attempt may have written and what it would have written there: a SEAL's destination is then
undefined, a check value or a NEXT_IV is written as a whole, and NEXT_IV after the output (R48, R62, R66, R274, R296,
R478). -/
def attemptWrites (j : Job) (s : State) : List TraceWrite :=
  let e := j.entry
  let src := j.input 0 s
  if j.op = Op.seal then [{ addr := dstOf e, len := srcLenOf e + 64, new := none }]
  else if j.op = Op.rngFill then [{ addr := rngDst e, len := min j.work.length (rngLen e), new := some j.work }]
  else if isPk j.op then
    match j.result with
    | some p => [{ addr := outAddr e 0, len := p.out0.length, new := some p.out0 },
        { addr := outAddr e 1, len := p.out1.length, new := some p.out1 }]
    | none => []
  else if j.op = Op.checkGen then
    [{ addr := dstOf e, len := 16, new := some (checkValue j.keyA.clear e src), whole := true }]
  else if j.op = Op.rawEncrypt ∨ j.op = Op.rawDecrypt then
    let out := rawOutput j.keyA.clear e src
    { addr := dstOf e, len := srcLenOf e, new := some out } ::
      (if nextIvOf e = 0 ∨ j.reads ≠ .arrived then []
       else [{ addr := nextIvOf e, len := 16, new := some (rawNextIv e src out), whole := true }])
  else []

/-- Destination bytes of an abandoned attempt, each unchanged or written, or all alike, as a free value picks. -/
def disturbed (k : Nat) (old : Bytes) (w : TraceWrite) : Bytes :=
  old.zipIdx.map fun p =>
    if Config.freePick k (if w.whole then 0 else p.2) then
      (match w.new with | some n => n.getD p.2 p.1 | none => Config.freeByte k p.2) else p.1

/-- The attempt may have written something: its reads have arrived, or, for a job that streams, some of them. -/
def mayHaveWritten (j : Job) : Bool :=
  decide (j.reads = .arrived) ||
    (decide (j.reads = .outstanding) && (decide (j.op = Op.seal) || decide (j.op = Op.rawEncrypt) || decide (j.op = Op.rawDecrypt)))

/-- What a stopped attempt leaves in its destinations (R48, R62, R478). -/
def disturb (j : Job) (s : State) : State :=
  if mayHaveWritten j then
    (attemptWrites j s).foldl (fun s w =>
      drewFree (hostWrite j.ref.fn w.addr (disturbed s.free (s.hostRead j.ref.fn w.addr w.len) w) s)) s
  else s

/-- Destination bytes an UNSEAL has written when it is stopped: those recorded, and a free number of those its attempt
was writing in provisional mode. -/
def unsealWritten (j : Job) (s : State) : Nat :=
  if j.reads ≠ .none_ ∧ j.hold = 0 ∧ j.outcome = none then max j.written (Config.freeNat s.free % (srcLenOf j.entry - 63))
  else j.written

/-- Zero what an UNSEAL has written (R53, R55, R56). -/
def scrub (j : Job) (s : State) : State :=
  if j.op = Op.unseal then drewFree (hostWrite j.ref.fn (dstOf j.entry) (Bytes.zeros (unsealWritten j s)) s) else s

/-- Squash a job: nothing further of it runs, and its destination is left as its rules say. -/
def squash (j : Job) (s : State) : State := if j.committed then scrub j (disturb j s) else s

/-- Remove one job from the table with everything it holds. -/
def dropOne (j : Job) (s : State) : State :=
  let s1 := { s with jobs := s.jobs.filter fun k => decide (k.ref ≠ j.ref)
                     rng := { s.rng with fills := s.rng.fills.filter fun x => decide (x ≠ j.ref) } }
  let s2 := leavePk j.ref (releaseHold j (leavePair j.ref s1))
  enterD3 j.ref.fn (if j.gen = 0 then s2 else freeRetiring j.slot j.gen s2)

/-- Local queue number of a job an extension submits: it lies in no queue (R384). -/
abbrev subQueue : Nat := 64

/-- Pages of control RAM zeroed. -/
def zeroPages (pages : List Nat) (m : List Host.Cell) : List Host.Cell := m.filter fun c => !pages.contains (c.1 / 4096)

/-- The pages an extension's calls leave zeroed (R385). -/
def zeroOf (s : State) (x : Nat) : List Nat :=
  match s.worlds.exts.find? fun e => decide (e.id = x) with | some e => e.zero | none => []

/-- End the call an EXT_CALL job serves, if it serves one: its ZERO_PAGES are zeroed and the job it has submitted
stops (R385). -/
def closeCall (r : JobRef) (s : State) : State :=
  match s.worlds.calls.find? fun c => decide (c.job = r) with
  | none => s
  | some c =>
    let s1 := { s with
      worlds := { s.worlds with calls := s.worlds.calls.filter fun c => decide (c.job ≠ r) }
      cram := zeroPages (zeroOf s c.ext) s.cram }
    match c.subJob.bind s1.job? with
    | some k => dropOne k (squash k s1)
    | none => s1

/-- Remove a job from the table with everything it holds. -/
def dropJob (j : Job) (s : State) : State := closeCall j.ref (dropOne j s)

/-- The completion record of a submitted job goes to the extension that waits for it (R384). -/
def returnRecord (j : Job) (d : Done) (s : State) : State :=
  match s.worlds.calls.find? fun c => decide (c.subJob = some j.ref) with
  | none => s
  | some c =>
    { s with
      cram := (c.recAt.map fun a => Memory.putAll s.cram a (recordBytes j d s.now)).getD s.cram
      worlds := { s.worlds with calls := s.worlds.calls.map fun k =>
        (if k.subJob = some j.ref then { k with subJob := none, recAt := none } else k) } }

/-- Timeout of a job in microseconds: its TIMEOUT field, or its queue's default; none for a queue admin command (R133). -/
def timeoutUs (s : State) (j : Job) : Option Nat :=
  if isQueueAdmin j.op && decide (j.ref.jq = 0) then none
  else if timeoutOf j.entry ≠ 0 then some (timeoutOf j.entry)
  else match s.jq? j.ref.fn j.ref.jq with
    | some x => some x.defUs
    | none => if j.ref.jq = subQueue then some 1000000 else none

/-- The job's deadline has passed. -/
def expired (s : State) (j : Job) : Bool :=
  match timeoutUs s j with | some us => elapsedUs s.now j.atTime us | none => false

/-- Issue a job's completion record and remove the job (R125, R129, R135). The mirror is left to the caller. -/
def completeJob (j : Job) (d : Done) (s : State) : State :=
  if j.ref.jq = subQueue then dropJob j (returnRecord j d s)
  else dropJob j (finishEntry j.ref.fn j.ref.jq j.ref.index
    (issueRecord j.ref.fn (s.cqOf j.ref) (recordBytes j d s.now) true (irqNowOf j.entry) s))

/-- A job is on a core or parked there (R273). -/
def onCore (r : JobRef) (s : State) : Bool := s.pk.cores.any fun c => c.holds r

/-- Order in which reactions take a claim (R431): lock, erase, drain, timeout. -/
def reactionRank (d : Done) : Nat :=
  if d.status = Status.locked then 3 else if d.status = Status.keyRevoked then 2 else if d.status = Status.aborted then 1 else 0

/-- A reaction that finds a retry's claim held is suppressed. Its condition outlasts it: the first in the order of R431
presents itself again when the claim is released (R429, R430). `silent` is a drain's, which issues the record itself. -/
def suppress (j : Job) (d : Done) (silent : Bool) (s : State) : State :=
  if j.stop.all fun e => decide (reactionRank e < reactionRank d) then
    modJob j.ref (fun k => { k with stop := some d, silent := silent }) (bump 0x12 s)
  else bump 0x12 s

/-- A job stopped by a timeout, a drain or quiescence awaits the reads it has outstanding on a pair (R134, R144, R175). -/
def awaits (j : Job) (d : Done) : Bool :=
  j.committed && decide (j.reads = .outstanding) && decide (j.ref.jq ≠ 0) && !isPk j.op &&
    (decide (d.status = Status.timeout) || decide (d.status = Status.aborted))

/-- Squash a job whose outstanding reads are awaited: it leaves its pair, its keys are erased, and its completion `d` waits.
The reaction that ended it keeps the claim until then (R429). -/
def awaitReads (j : Job) (d : Done) (s : State) : State :=
  let s1 := releaseHold j (leavePair j.ref (squash j s))
  let s2 := modJob j.ref (fun k => { eraseContext k with
    ended := true, stop := some (k.stop.getD d), hold := 0, gen := 0, engine := .none_ }) s1
  if j.gen = 0 then s2 else freeRetiring j.slot j.gen s2

/-- End a job with the completion `d` (R55, R134, R141, R211, R220). `atOnce` stops a core too; otherwise a job on a
core ends at its next yield point (R273). A job whose claim a retry holds goes on until the retry settles (R429), and a
job that another reaction has ended keeps that end; a drained job's record is the drain's to issue; a job of a function
under reset has none (R168). The mirror follows the record. -/
def endJob (j : Job) (d : Done) (atOnce : Bool) (s : State) : State :=
  if (s.fn j.ref.fn).run = .resetting then bump 0x12 (if atOnce then leavePk j.ref s else s)
  else if j.taken then bump 0x12 s
  else if j.claim then suppress j d false s
  else if onCore j.ref s && (!atOnce || j.silent) then
    if j.stop.isSome then bump 0x12 (if atOnce then leavePk j.ref s else s)
    else modJob j.ref (fun k => { k with stop := some d }) s
  else if awaits j d then awaitReads j d s
  else writeMirror j.ref.fn (s.cqOf j.ref) (completeJob j (j.stop.getD d) (squash j s))

/-- The reads a stopped job awaited have ended: its record and the mirror, or, for a drained one, the drain's to issue. -/
def readsSettled (j : Job) (s : State) : State :=
  if j.silent then modJob j.ref (fun k => { k with reads := .none_, outcome := j.stop }) s
  else writeMirror j.ref.fn (s.cqOf j.ref) (completeJob j (j.stop.getD {status := Status.aborted}) s)

/-- End every job that meets a test, oldest first. -/
def endJobs (p : Job → Bool) (d : Job → Done) (atOnce : Bool) (s : State) : State :=
  (s.jobs.filter p).foldl (fun s j => match s.job? j.ref with | some k => endJob k (d k) atOnce s | none => s) s

/-- Return an entry of run-ahead to its ring: its reservations are released and it is fetched again later (R130). -/
def releaseEntry (j : Job) (s : State) : State :=
  let c := s.cqOf j.ref
  let s1 := { s with jobs := s.jobs.filter fun k => decide (k.ref ≠ j.ref) }
  match s1.cq? j.ref.fn c with
  | none => s1
  | some q => setCq j.ref.fn c { q with reserved := q.reserved - 1 } s1

/-- Release every run-ahead entry of function `f`; each is fetched again later (R130, R175, R180). -/
def releaseRunAhead (f : Nat) (s : State) : State :=
  let mine := s.jobs.filter fun j => decide (j.ref.fn = f) && !j.committed
  let s1 := mine.foldl (fun s j => releaseEntry j s) s
  modFn f (fun g => { g with jqs := g.jqs.map fun p =>
    (p.1, { p.2 with entries := p.2.entries.filter (fun e =>
      mine.all fun j => decide (j.ref.jq ≠ p.1) || decide (j.ref.index ≠ e.index)) }) }) s1

end Sys2Proof.Machine
end

