-- ==== Sys2Proof/Machine/Flags.lean ====
section
/-!
DEFINITION. Status bits and outputs that follow from the rest of the state: FN_STATUS, the common block status, and the
four status pins.
-/

namespace Sys2Proof.Machine

/-- FN_STATUS of function `f` (R311). -/
def State.fnStatus (s : State) (f : Nat) : Nat :=
  b2n (s.evaluates && decide ((s.fn f).run = .ready)) + 2 * b2n (decide ((s.fn f).run = .frozen)) + 4 * b2n s.locked +
    8 * b2n (s.evaluates && s.noPair) + 16 * b2n s.rng.seeded

/-- Block `c` holds a detected fault that is not recovered (R314, R426): its recovery goes on, or ended in a device fault. -/
def State.blockFault (s : State) (c : Nat) : Bool :=
  s.red.broken.testBit c ||
  (if c = Block.cf then s.fab.pairs.any fun p => decide (p.st = .fenced)
   else if c = Block.ks then s.store.slots.any fun p => p.2.reloadDue
   else if c = Block.pk then s.pk.cores.any fun k => decide (k.st = .testing)
   else if c = Block.rg then s.rng.fault
   else if c = Block.cu then decide (s.red.aster = 2 ∨ s.red.aster = 3 ∨ s.red.irisSt = 2 ∨ s.red.irisSt = 3)
   else false)

/-- A public-key operation of custody firmware's own is pending or running (R272): an approval to verify, a signature, a new
key, a join or a share. -/
def State.fwKeys (s : State) : Bool :=
  (s.jobs.any fun j => decide (j.ref.jq = 0) && j.outcome.isNone &&
    (decide (opOf j.entry = Op.attest) || decide (opOf j.entry = Op.approve) || decide (opOf j.entry = Op.keyCreate) || decide (opOf j.entry = Op.keyRotate))) ||
  s.link.held.isSome || s.mgmt.work.length ≠ 0 || s.custody.cer.any fun c => decide (c.stage = .executing)

/-- Custody firmware holds the keep-alive vote of block `c` for work of its own (R375): of PK while a public-key operation of
its own is pending or running, of MP while an FDP session or a ceremony is open. -/
def State.ownKeep (s : State) (c : Nat) : Bool :=
  (decide (c = Block.pk) && s.fwKeys) || (decide (c = Block.mp) && (!s.mgmt.sessions.isEmpty || s.custody.cer.isSome))

/-- PW_KEEP bit `c`: the vote written, or the one custody firmware holds itself. -/
def State.keeps (s : State) (c : Nat) : Bool := s.regs.pwKeep.testBit c || s.ownKeep c

/-- Block `c` honours a request and is idle (R375, R376): PK once every committed job has passed its finish point, MP between
frames. -/
def State.blockIdle (s : State) (c : Nat) : Bool :=
  if c = Block.pk then
    s.pk.queue.isEmpty && (s.pk.cores.all fun k => k.cur.isNone && k.parked.isNone) &&
      s.jobs.all fun j => !(j.committed && decide (j.engine = .publicKey) && j.outcome.isNone)
  else decide (c = Block.mp)

/-- Block `c` is quiesced (R376): granted, with no vote held and idle. -/
def State.quiesced (s : State) (c : Nat) : Bool := s.regs.pwGrant.testBit c && !s.keeps c && s.blockIdle c

/-- xx_STAT of block `c` (R314). -/
def State.blockStat (s : State) (c : Nat) : Nat :=
  b2n (s.regs.serving.getD c false && !s.quiesced c) + 2 * b2n (s.quiesced c) + 4 * b2n (s.blockFault c)

/-! ## Status outputs (R398, R423, R454) -/

/-- Levels of the status outputs; none while VDD_IO is absent. -/
structure Pins where
  ready   : Bool
  lockedN : Bool
  alarmN  : Bool
  faultN  : Bool
  deriving DecidableEq, Repr

/-- ALARM_N: low while a latch is set. -/
def State.alarmN (s : State) : Bool := decide (s.vesper.latch = 0)

/-- The status outputs. -/
def State.pins (s : State) : Option Pins :=
  let known : Pins := { ready := false, lockedN := !s.locked, alarmN := s.alarmN, faultN := true }
  let early : Pins :=
    if s.boot.powerOn then { ready := false, lockedN := false, alarmN := false, faultN := true }
    else { known with faultN := !s.boot.faultNLow }
  match s.boot.phase with
  | .unpowered => none
  | .held => some early
  | .stage n => some (if n ≤ 1 then early else { known with faultN := !s.boot.devFault })
  | .open_ => some { known with
      ready := true, faultN := !s.boot.devFault && !(List.range 12).any fun c => s.blockFault c }
  | .unbooted | .devHold => some { known with faultN := false }

end Sys2Proof.Machine
end

