-- ==== Sys2Proof/Machine/Frames.lean ====
section
/-!
DEFINITION. Frames of the Fiboex Dictionary Protocol that the Thaza sends: fragments, sealing, the two routes, the
answer to a request, and the end of a session.
-/

namespace Sys2Proof.Machine

/-! Frame types (R348). -/
namespace Fdp
abbrev discover := 0x01
abbrev announce := 0x02
abbrev hello := 0x10
abbrev helloReply := 0x11
abbrev auth := 0x12
abbrev authOk := 0x13
abbrev request := 0x20
abbrev response := 0x21
abbrev close := 0x30
abbrev error := 0x3F
/-- Payload bytes in one frame. -/
abbrev fragMax := 1464
/-- Bytes in one message (R349). -/
abbrev msgMax := 66560
/-- Pending outgoing bytes of a relay channel (R359). -/
abbrev relayMax := 96 * 1024
end Fdp

/-- A frame's first 20 bytes (R348). -/
def fdpHead (ty : Nat) (more : Bool) (frag session seq len : Nat) : Bytes :=
  Bytes.ofNats [1, ty, b2n more, frag] ++ Bytes.ofLE 4 session ++ Bytes.ofLE 8 seq ++ Bytes.ofLE 2 len ++ [0, 0]

/-- A message in fragments: at least one (R349). -/
def fragments (p : Bytes) : List Bytes := if p.isEmpty then [[]] else Bytes.chunks Fdp.fragMax p

/-- The frames of an unsealed message. -/
def plainFrames (ty session : Nat) (p : Bytes) : List Bytes :=
  let l := fragments p
  l.zipIdx.map fun c => fdpHead ty (decide (c.2 + 1 < l.length)) c.2 session c.2 c.1.length ++ c.1

/-- IV of a sealed frame: the direction's base XOR SEQ as a 96-bit big-endian integer (R352). -/
def fdpIv (base : Bytes) (seq : Nat) : Bytes := (base.fit 12).xor (Bytes.ofBE 12 seq)

/-- One sealed frame (R352). -/
def sealFrame (key base : Bytes) (ty : Nat) (more : Bool) (frag session seq : Nat) (p : Bytes) : Bytes :=
  let h := fdpHead ty more frag session seq p.length
  let iv := fdpIv base seq
  let ct := gcmCrypt key iv p
  h ++ ct ++ gcmTag key iv h ct

/-- The frames of a sealed message of a session, SEQ rising from its next one. -/
def sealedFrames (x : Session) (ty : Nat) (p : Bytes) : List Bytes :=
  let l := fragments p
  l.zipIdx.map fun c => sealFrame x.kDc x.ivDc ty (decide (c.2 + 1 < l.length)) c.2 x.id (x.tx + c.2) c.1

/-! ## Routes (R346, R358, R359) -/

/-- mp.enable. -/
def State.mpOn (s : State) : Bool := decide (s.param 0x6010 1 1 = 1)

/-- The port transmits and receives: enabled, clocked, not quiesced, its firmware running (R28, R336, R374, R375). -/
def State.portUp (s : State) : Bool := s.opened && s.mpOn && s.clock.refclk && !s.quiesced Block.mp && s.secureRuns

/-- An Ethernet frame that carries an FDP frame to `dst`, padded to the shortest frame (R346). -/
def ethFrame (dst f : Bytes) : Bytes :=
  let b := dst.fit 6 ++ Config.mac.fit 6 ++ Bytes.ofBE 2 0x88B5 ++ f
  b ++ Bytes.zeros (60 - b.length)

/-- Bytes pending on a relay channel. -/
def relayUse (s : State) (ch : Nat) : Nat := ((s.mgmt.relay.getD ch []).map List.length).foldl (· + ·) 0

/-- The frames fit on a route now. -/
def routeRoom (s : State) (r : SessPath) (fs : List Bytes) : Bool :=
  match r with
  | .port _ => true
  | .relay ch => decide (relayUse s ch + (fs.map List.length).foldl (· + ·) 0 ≤ Fdp.relayMax)

/-- Send frames on a route; a port that is down loses them, and a full channel discards what has not waited for room:
ANNOUNCE and ERROR (R359). -/
def sendFrames (r : SessPath) (fs : List Bytes) (s : State) : State :=
  let sent (s : State) : State := { s with regs := { s.regs with mpTx := min (s.regs.mpTx + fs.length) 0xFFFFFFFF } }
  match r with
  | .port mac => if s.portUp then sent (fs.foldl (fun s f => emit (.frame (ethFrame mac f)) s) s) else s
  | .relay ch =>
    if routeRoom s r fs && s.secureRuns then
      sent { s with mgmt := { s.mgmt with relay := s.mgmt.relay.set ch (s.mgmt.relay.getD ch [] ++ fs) } }
    else s

/-! ## Sessions -/

/-- Session `id`. -/
def State.session? (s : State) (id : Nat) : Option Session := s.mgmt.sessions.find? fun x => decide (x.id = id)

/-- A session changed. -/
def modSession (id : Nat) (h : Session → Session) (s : State) : State :=
  { s with mgmt := { s.mgmt with sessions := s.mgmt.sessions.map fun x => if x.id = id then h x else x } }

/-- Relay channel of a session plus 1, or 0 (R441). -/
def SessPath.chanCode : SessPath → Nat
  | .port _ => 0
  | .relay ch => ch + 1

/-- End a session: its keys and stored RESPONSE are gone; one that was open is recorded (R356). -/
def endSession (x : Session) (how : Nat) (s : State) : State :=
  let s1 := { s with mgmt := { s.mgmt with
    sessions := s.mgmt.sessions.filter fun y => decide (y.id ≠ x.id)
    parts := s.mgmt.parts.filter fun p => decide (p.key ≠ 2 ^ 64 + x.id) } }
  if x.phase = .open_ then record 0x0403 0 x.id x.entry how x.path.chanCode (s := s1) else s1

/-- End every session that meets a test (R356). -/
def endSessions (p : Session → Bool) (s : State) : State :=
  (s.mgmt.sessions.filter p).foldl (fun s x => endSession x 3 s) s

/-- A RESPONSE payload (R353). -/
def responseBytes (q : OpenReq) (d : Done) (out : Bytes) : Bytes :=
  Bytes.ofLE 4 q.id ++ Bytes.ofNats [q.op, d.status, d.detail, 0] ++ Bytes.ofLE 4 d.r0 ++ Bytes.ofLE 4 d.r1 ++
    Bytes.ofLE 4 out.length ++ Bytes.zeros 4 ++ out

/-- The frames of a session's message: HELLO_REPLY goes unsealed. -/
def replyFrames (x : Session) (m : Reply) : List Bytes :=
  if m.ty = Fdp.helloReply then plainFrames m.ty x.id m.body else sealedFrames x m.ty m.body

/-- A session once a message of it is sent, in `n` frames: SEQ rises (R352), a RESPONSE ends its request, and the idle timer
goes on from where the request stopped it (R355). -/
def replySent (now n : Nat) (m : Reply) (x : Session) : Session :=
  let y := if m.ty = Fdp.helloReply then { x with replied := some now } else { x with tx := x.tx + n }
  if m.ends then
    { y with req := none, last := match x.req with | some q => x.last + (now - q.since) | none => x.last }
  else y

/-- Send the messages of a session that wait, in order, as far as its channel has room (R359). -/
def flushSession (id : Nat) : List Reply → State → State
  | [], s => modSession id (fun x => { x with waiting := [] }) s
  | m :: r, s =>
    match s.session? id with
    | none => s
    | some x =>
      let fs := replyFrames x m
      if routeRoom s x.path fs then flushSession id r (sendFrames x.path fs (modSession id (replySent s.now fs.length m) s))
      else modSession id (fun x => { x with waiting := m :: r }) s

/-- Send a message of a session, behind those that wait; on a channel without room it waits (R355, R359). -/
def sendReply (id : Nat) (m : Reply) (s : State) : State :=
  match s.session? id with
  | none => s
  | some x => flushSession id (x.waiting ++ [m]) s

/-- Answer the outstanding request of a session; a session that has ended discards it (R355, R356). -/
def respond (id : Nat) (d : Done) (out : Bytes) (s : State) : State :=
  match s.session? id with
  | none => s
  | some x =>
    match x.req with
    | none => s
    | some q =>
      let p := responseBytes q d out
      sendReply id { ty := Fdp.response, body := p, ends := true } (modSession id (fun x => { x with lastId := some q.id, lastResp := p }) s)

/-- Send the messages of a channel that wait for room, in session order. -/
def drainWaiting (ch : Nat) (s : State) : State :=
  s.mgmt.sessions.foldl (fun s x => if x.path = .relay ch ∧ x.waiting ≠ [] then flushSession x.id x.waiting s else s) s

/-- The CPU of a relay or port key for reassembly (R349): a source address, a channel, or a session. -/
def SessPath.key : SessPath → Nat
  | .port mac => Bytes.toBE (mac.fit 6)
  | .relay ch => 2 ^ 63 + ch

/-- Send ERROR on a route, at most one a second to any one destination (R357). -/
def sendError (r : SessPath) (code session : Nat) (s : State) : State :=
  let k := r.key
  let recent := s.mgmt.errs.any fun e => decide (e.1 = k) && decide (s.now - e.2 < second)
  if recent then s
  else
    let s1 := { s with mgmt := { s.mgmt with errs := (k, s.now) :: s.mgmt.errs.filter fun e => decide (e.1 ≠ k) } }
    sendFrames r (plainFrames Fdp.error session (Bytes.ofNats [code, 0, 0, 0] ++ Bytes.ofLE 4 session)) s1

end Sys2Proof.Machine
end

