-- ==== Sys2Proof/Machine/Queues.lean ====
section
/-!
DEFINITION. Work queues (chapter 4): doorbells, fetching, refusals, completions, mirrors, timeouts, the admin queue,
queue creation and drains, and the completions of DMA reads.
-/

namespace Sys2Proof.Machine

/-- The host reaches function `f`'s page (R151, R156, R167): its BAR is enabled and the function is allocated, not
resetting and in D0. -/
def State.pageOpen (s : State) (f : Nat) : Bool :=
  s.clock.refclk && (if f = 0 then (s.fn 0).cfg.mse
    else (s.fn 0).cfg.vfEnable && decide (f ≤ (s.fn 0).cfg.numVfs) && (s.fn 0).cfg.vfMse) &&
  (decide ((s.fn f).run = .ready) || decide ((s.fn f).run = .frozen))

/-- A VF whose BAR is enabled, without an allocation: its pages read 0 and ignore writes (R156). -/
def State.vfIdle (s : State) (f : Nat) : Bool :=
  s.clock.refclk && decide (f ≠ 0) && (s.fn 0).cfg.vfEnable && decide (f ≤ (s.fn 0).cfg.numVfs) && (s.fn 0).cfg.vfMse &&
    decide ((s.fn f).run = .unallocated)

/-- The device holds after a device fault (R428). -/
def State.held (s : State) : Bool := decide (s.boot.phase = .devHold)

/-! ## Doorbells and consumer indices -/

/-- What a refused index write sets: the queue's bit, the record and the block's error bit (R118, R119). One to FN_CQ_CI
sets FN_EVENT.QERR even where the queue's bit was set (R119). -/
def refuseIndex (f q : Nat) (v : Word) (isCq : Bool) (s : State) : State :=
  let s1 := setQerr f q s
  setErr Block.qe 5 (record 0x0201 0 f q v.toNat (b2n isCq) (s := bump 0x15 (if isCq then setEvent f 0 s1 else s1)))

/-- FN_JQ_PI (R118). -/
def execFnJqPiWrite (f q : Nat) (v : Word) (s : State) : Outcome State :=
  .next <|
    if s.pageOpen f then
      match s.jq? f q with
      | none => s
      | some x =>
        if x.st = .draining ∨ v = x.pi then s
        else if (x.pi - x.ci).toNat ≤ (v - x.ci).toNat ∧ (v - x.ci).toNat ≤ x.size then
          setJq f q { x with pi := v, bells := x.bells ++ [(v, s.stamp)] }
            { s with stamp := s.stamp + 1, regs := { s.regs with doorbells := satAdd s.regs.doorbells 0xFFFFFFFF } }
        else refuseIndex f q v false s
    else s

/-! ## Fetching -/

/-- Arrival stamp of the doorbell that published index `i` (R109). -/
def arrivalOf (x : JobQueue) (i : Word) : Nat :=
  match x.bells.find? fun b => decide ((i - x.ci).toNat < (b.1 - x.ci).toNat) with
  | some b => b.2
  | none => 0

/-- What lies at the next unfetched slot of a queue: header outcome, slots consumed, first slot. -/
def nextEntry (f q : Nat) (x : JobQueue) (s : State) : Option Done × Nat × Bytes :=
  let e := s.hostRead f (x.slotAt x.next) 64
  let r := headerCheck f q e (x.size - x.next.toNat % x.size) (x.pi - x.next).toNat
  (r.1, r.2, e)

/-- The next unfetched entry is a PAD that passes its checks (R121). -/
def nextIsPad (f q : Nat) (x : JobQueue) (s : State) : Bool :=
  let r := nextEntry f q x s
  r.1.isNone && decide (opOf r.2.2 = Op.pad)

/-- Function `f` may have entries fetched: in service, not quiescing or freezing, and a bus master (R151, R175, R180). -/
def fetchingFn (s : State) (f : Nat) : Bool :=
  let g := s.fn f
  decide (g.run = .ready) && g.quiesce.isNone && !g.freezing && g.cfg.bme

/-- The queue engine may fetch (R315, R428): FETCH_EN, or PF0's admin queue in a hold. -/
def fetchOn (s : State) (f q : Nat) : Bool :=
  (s.regs.fetchEn || (s.held && decide (f = 0) && decide (q = 0))) && !bit s.regs.pwGrant Block.qe

/-- Room for one more entry of queue `q` (R126, R131, R137). -/
def fetchRoom (f q : Nat) (x : JobQueue) (s : State) : Bool :=
  let mine := s.jobs.filter fun j => decide (j.ref.fn = f) && decide (j.ref.jq = q)
  (match s.cq? f x.cq with | some c => c.mayReserve | none => false) &&
  decide (s.jobs.length < 16384) && decide (s.inFlight f < (s.fn f).share) &&
  (if q = 0 then mine.isEmpty
    else decide ((mine.filter fun j => !j.committed).length < 64) && decide (s.runAhead < 4096))

/-- The queue has an unfetched published slot that may be fetched now (R131). -/
def canFetch (s : State) (f q : Nat) : Bool :=
  match s.jq? f q with
  | none => false
  | some x => decide (x.st = .active) && decide (x.next ≠ x.pi) && fetchOn s f q && fetchingFn s f &&
      (nextIsPad f q x s || fetchRoom f q x s)

/-- `n` slots from index `i` on are done with: FN_JQ_CI follows when nothing before them is open (R129). -/
def passSlots (f q : Nat) (i : Word) (n : Nat) (s : State) : State :=
  match s.jq? f q with
  | none => s
  | some x => finishEntry f q i (setJq f q { x with
      entries := insertEntry x.ci { index := i, len := n, done := true } x.entries } s)

/-- Consume slots without a job: a PAD (R121, R129). -/
def passEntry (f q : Nat) (x : JobQueue) (n : Nat) (s : State) : State := passSlots f q x.next n s

/-- An urgent queue's cipher job is longer than qos.urgent.max_len (R106). -/
def tooLong (s : State) (x : JobQueue) (e : Bytes) : Bool :=
  decide (x.cls = .urgent) && isCipher (opOf e) && decide (srcLenOf e > s.param 0x3000 3 0x10000)

/-- Take the next entry of a queue into run-ahead, or on queue 0 into firmware (R126, R131, R137). -/
def takeEntry (f q : Nat) (x : JobQueue) (s : State) : State :=
  let r := nextEntry f q x s
  if r.1.isNone ∧ opOf r.2.2 = Op.pad then passEntry f q x r.2.1 s
  else
    let j : Job := { ref := { fn := f, jq := q, index := x.next }, entry := s.hostRead f (x.slotAt x.next) (64 * r.2.1)
                     len := r.2.1, header := r.1, atTime := s.now, arrival := arrivalOf x x.next
                     downgraded := tooLong s x (s.hostRead f (x.slotAt x.next) (64 * r.2.1))
                     stage := if q = 0 then .committed else .runAhead
                     engine := if q = 0 then .firmware else .none_ }
    let s1 := setJq f q { x with entries := insertEntry x.ci { index := x.next, len := r.2.1, done := false } x.entries
                                 bells := x.bells.filter fun b => decide ((x.next - x.ci).toNat < (b.1 - x.ci).toNat) } s
    let s2 := { (if j.downgraded then bump 0x0A s1 else s1) with jobs := s1.jobs ++ [j] }
    match s2.cq? f x.cq with
    | some c => setCq f x.cq { c with reserved := c.reserved + 1 } s2
    | none => s2

/-- The job queues of function `f` that meet a test. -/
def queuesOf (s : State) (f : Nat) (p : Nat → JobQueue → Bool) : List Nat :=
  ((s.fn f).jqs.filter fun k => p k.1 k.2 && canFetch s f k.1).map (·.1)

/-- Every urgent queue that may be fetched, as function*64+queue. -/
def urgentTurn (s : State) : List Nat :=
  rotateAfter s.turnU (s.fns.keys.flatMap fun f => (queuesOf s f fun _ x => decide (x.cls = .urgent)).map (f * 64 + ·))

/-- Every admin queue that may be fetched, by function. -/
def adminTurn (s : State) : List Nat := rotateAfter s.turnA (s.fns.keys.filter fun f => canFetch s f 0)

/-- Standard and bulk queues of one function. -/
def plainQueues (s : State) (f : Nat) : List Nat :=
  queuesOf s f fun q x => decide (q ≠ 0) && decide (x.cls ≠ .urgent)

/-- Functions with a standard or bulk queue that may be fetched. -/
def plainTurn (s : State) : List Nat := rotateAfter s.turnFn (s.fns.keys.filter fun f => !(plainQueues s f).isEmpty)

/-- Fetch from queue `q` of `f`. -/
def fetchFrom (f q : Nat) (s : State) : State :=
  match s.jq? f q with
  | some x => takeEntry f q x s
  | none => s

/-- The queue engine fetches one entry, from the queue whose turn it is (R131). -/
def execEntryFetch (s : State) : Outcome State :=
  .next <|
    match urgentTurn s with
    | k :: _ => { fetchFrom (k / 64) (k % 64) s with turnU := k }
    | [] =>
      match adminTurn s with
      | f :: _ => { fetchFrom f 0 s with turnA := f }
      | [] =>
        match plainTurn s with
        | f :: _ =>
          match rotateAfter (s.fn f).turnQ (plainQueues s f) with
          | q :: _ => { modFn f (fun g => { g with turnQ := q }) (fetchFrom f q s) with turnFn := f }
          | [] => s
        | [] => s

/-- A PAD at the head of the unfetched slots is consumed without a record (R121). -/
def execPad (f q : Nat) (s : State) : Outcome State :=
  .next <|
    match s.jq? f q with
    | none => s
    | some x => if canFetch s f q && nextIsPad f q x s then passEntry f q x (nextEntry f q x s).2.1 s else s

/-! ## Commitment without an engine (R132) -/

/-- An entry of run-ahead may be committed as far as ring order goes (R132, R136). -/
def mayCommit (s : State) (j : Job) : Bool := !j.committed && j.outcome.isNone && s.fenceOk j

/-- A NOP completes with OK when it is committed (R122, R132). -/
def execNop (r : JobRef) (s : State) : Outcome State :=
  .next <|
    match s.job? r with
    | none => s
    | some j =>
      if j.op = Op.nop && j.header.isNone && mayCommit s j && s.earlierCommitted j && s.regs.dispatchEn then
        modJob r (fun j => { j with stage := .committed, outcome := some { status := Status.ok } }) s
      else s

/-- Admin opcodes served in a hold (R428). -/
def heldOp (op : Nat) : Bool := op == Op.dictRead || op == Op.attest || op == Op.fdpRelay

/-- Completion of an admin entry that no command of its opcode takes: its header's refusal, a hold, or a reserved OP
value. -/
def adminRefusal (s : State) (j : Job) : Option Done :=
  let e := j.entry
  match j.header with
  | some d => some d
  | none =>
    firstFail [
      (s.held && !heldOp j.op, { status := Status.fault, detail := 0x04 }),
      (s.worlds.halted && !isQueueAdmin j.op && decide (j.op ≠ Op.extCall), { status := Status.unavailable, detail := 0x09 }),
      (j.op == Op.fnStateSave && decide (e.at_ 0x10 > 2#8) && rsvSet e [(0x11, 1), (0x14, 44)], bad 0x02),
      (j.op == Op.fnStateSave && decide (e.at_ 0x10 > 2#8), bad 0x15),
      (j.op == Op.dirtyLog && decide (e.at_ 0x10 > 2#8) && rsvSet e [(0x11, 1), (0x14, 44)], bad 0x02),
      (j.op == Op.dirtyLog && decide (e.at_ 0x10 > 2#8), bad 0x15),
      (j.op == Op.attest && decide (e.at_ 0x10 > 2#8) && rsvSet e [(0x11, 7), (0x24, 4), (0x68, 24)], bad 0x02),
      (j.op == Op.attest && decide (e.at_ 0x10 > 2#8), bad 0x30),
      (j.op == Op.ceremony && decide (e.at_ 0x10 > 4#8) && rsvSet e [(0x11, 3), (0x18, 12), (0x30, 80)], bad 0x02),
      (j.op == Op.ceremony && decide (e.at_ 0x10 > 4#8), bad 0x30)]

/-- An entry that fails its commitment checks is committed as its refusal once every earlier entry has been committed
(R132). -/
def execCommitRefusal (r : JobRef) (s : State) : Outcome State :=
  .next <|
    match s.job? r with
    | none => s
    | some j =>
      if r.jq = 0 then
        match adminRefusal s j with
        | some d => if j.outcome.isNone then decideJob r d s else s
        | none => s
      else if mayCommit s j && s.earlierCommitted j && s.regs.dispatchEn then
        match (match j.header with
          | some d => some d
          | none => jobCheck s r.fn j.entry) with
        | some d => modJob r (fun j => { j with stage := .committed, outcome := some d }) s
        | none => s
      else s

/-! ## Completions (R125, R127, R135) -/

/-- Outbound CRC mismatches on one FLIT (R88): each is assembled again and counted; `n` in a row. The comparison does not
tell which side is wrong, so LINK_SPLIT's failing side is a free value. -/
def txMismatches (n : Nat) (s : State) : State :=
  (List.range n).foldl (fun s i => record 0x0104 1 1 (Config.freeNat s.free % 2) (i + 1) (s := drewFree (bump 3 s))) s

/-- A FLIT that meets `n` mismatches on its way out (R88): at the third in a row it is a device fault, and nothing leaves. -/
def transmits (n : Nat) (s : State) (h : State → Outcome State) : Outcome State :=
  if n ≥ 3 then settled s (escalate (txMismatches 3 s)) else h (txMismatches n s)

/-- The record of a decided job, then the mirror unless more records follow at once. `resent` counts the mismatches its
FLIT met on its way out; the third in a row is a device fault, and nothing leaves (R88). -/
def execJobCompletion (r : JobRef) (more : Bool) (resent : Nat) (s : State) : Outcome State :=
  match s.job? r with
  | none => .next s
  | some j =>
    match j.outcome with
    | none => .next s
    | some d =>
      if j.silent then .next s else
      transmits resent s fun t =>
        let s1 := completeJob j d t
        settled s (if more then s1 else writeMirror r.fn (s.cqOf r) s1)

/-- The mirror is written no later than 1 µs after the first record it does not cover (R127); a function in D3hot or under
reset issues no request (R164, R175). -/
def execMirrorWrite (f q resent : Nat) (s : State) : Outcome State :=
  match s.cq? f q with
  | none => .next s
  | some c =>
    if (s.fn f).run = .d3hot ∨ (s.fn f).run = .resetting then .next s
    else if elapsedUs s.now c.firstAt 1 || decide ((c.pi - c.covered).toNat ≥ 64) then
      transmits resent s fun t => .next (writeMirror f q t)
    else .next s

/-- A vector's TIME_TH has elapsed (R173). -/
def execModerationTimer (f v : Nat) (s : State) : Outcome State := .next (evalVec f v s)

/-! ## Timeouts (R133, R134) -/

/-- The ceremony whose EXECUTE is given up goes back to gathering approvals. -/
def abandonCeremony (r : JobRef) (s : State) : State :=
  match s.custody.cer with
  | none => s
  | some c =>
    if c.caller = some (.admin r) then
      { s with custody := { s.custody with cer := some { c with
          caller := none, stage := if c.stage = .executing then .gathering else c.stage } } }
    else s

/-- A firmware command may be ended here (R134). DESIGN CHOICE (log entry 158): a KEY_ERASE that has made its slot ERASING runs to
its end, since its chapter gives no safe point between. -/
def safeToEnd (j : Job) : Bool := decide (j.ref.jq ≠ 0) || decide (j.op ≠ Op.keyErase) || decide (j.phase = 0)

/-- A slot whose KEY_ERASE is given up is as it was before it (R206): without working copies LOADING, with copies that
agree LOADED, else BAD. -/
def unErase (x : Slot) : Slot :=
  if x.st = .erasing then { x with st := if x.a.key.x = [] then .loading else if copiesAgree x then .loaded else .bad } else x

/-- What a firmware command gives up when it is ended before its effect: a KEY_ERASE by a lock or a device fault (R206), a
FREEZE that has not frozen yet (R180), a ceremony's EXECUTE (R232). -/
def abandonAdmin (j : Job) (s : State) : State :=
  if j.op = Op.keyErase ∧ j.phase ≠ 0 then modSlot (j.entry.leAt 0x10 2) unErase s
  else if j.op = Op.fnStateSave ∧ j.entry.at_ 0x10 = 0 then
    modFn (j.entry.leAt 0x12 2) (fun g => { g with freezing := false }) s
  else abandonCeremony j.ref s

/-- A job's timeout expires (R134): 0x01 before commitment, 0x02 after. A firmware command whose effect is done keeps
its own completion. DESIGN CHOICE (log entry 156): a function command that times out or is aborted has the detail of R134 or R143
too, though R188 gives 0x00 for a status it does not list. -/
def execJobTimeout (r : JobRef) (s : State) : Outcome State :=
  match s.job? r with
  | none => .next s
  | some j =>
    if expired s j then
      if j.taken || !safeToEnd j then .next (bump 0x12 s)
      else settled s (endJob j { status := Status.timeout, detail := if j.committed then 0x02 else 0x01 } false
        (if j.ref.jq = 0 then abandonAdmin j s else s))
    else .next s

/-! ## Admin commands -/

/-- The admin command of function `f` in progress, when it has the opcode and passed its header checks (R137), and is
served in a hold (R428) or while the secure world is halted (R374). -/
def State.admin? (s : State) (f op : Nat) : Option Job :=
  s.jobs.find? fun j => decide (j.ref.fn = f) && decide (j.ref.jq = 0) && decide (j.op = op) && j.header.isNone &&
    j.outcome.isNone && (!s.held || heldOp op) && (!s.worlds.halted || isQueueAdmin op || decide (op = Op.extCall)) &&
      !s.debugStops && (decide (op ≠ Op.extCall) || s.normalRuns)

/-- Run the admin command `op` of function `f`: the body gives its completion and the state after it. -/
def runAdmin (f op : Nat) (body : Job → State → Done × State) (s : State) : Outcome State :=
  match s.admin? f op with
  | none => .next s
  | some j => let r := body j s; settled s (decideJob j.ref r.1 r.2)

/-- Begin the DMA reads of an admin command; it goes on once they have arrived (R150). -/
def startReads (r : JobRef) (s : State) : State := modJob r (fun j => { j with reads := .outstanding }) s

/-- Do `h` once the command's reads have arrived; before that, start them, and wait. -/
def afterReads (j : Job) (s : State) (h : State → Option Done × State) : Option Done × State :=
  if j.reads = .arrived then h s else if j.reads = .none_ then (none, startReads j.ref s) else (none, s)

/-- Run an admin command that may take several steps: no completion means it goes on. -/
def runAdminSteps (f op : Nat) (body : Job → State → Option Done × State) (s : State) : Outcome State :=
  match s.admin? f op with
  | none => .next s
  | some j =>
    match body j s with
    | (some d, t) => settled s (decideJob j.ref d t)
    | (none, t) => settled s t

/-- A command that only checks and then changes the state. -/
def checked (rows : List (Bool × Done)) (effect : State → State) (ok : Done) (s : State) : Done × State :=
  match firstFail rows with
  | some d => (d, s)
  | none => (ok, effect s)

/-! ## Creating queues (R139, R140, R143) -/

/-- Address ranges of the rings of a function. -/
def ringsOf (g : Fn) : List (Nat × Nat) :=
  (g.jqs.map fun p => (p.2.ring, p.2.size * 64)) ++ (g.cqs.map fun p => (p.2.ring, p.2.size * 32))

/-- The 4 mirror bytes lie inside one of the ranges. -/
def mirrorInside (m : Nat) (l : List (Nat × Nat)) : Bool := l.any fun r => rangesMeet m 4 r.1 r.2

def classOf : Nat → JobClass
  | 0 => .urgent
  | 1 => .standard
  | _ => .bulk

/-- The job queue a CREATE_JQ body describes. -/
def newJq (e : Bytes) : JobQueue :=
  { log2 := (e.at_ 0x11).toNat, ring := e.leAt 0x18 8, cq := (e.at_ 0x12).toNat, cls := classOf ((e.at_ 0x13).toNat % 4)
    defUs := if e.leAt 0x14 4 = 0 then 1000000 else e.leAt 0x14 4 }

/-- Urgent queues a function holds (R139). -/
def urgentCount (g : Fn) : Nat := (g.jqs.filter fun p => decide (p.2.cls = .urgent)).length

def createJqRows (g : Fn) (e : Bytes) : List (Bool × Done) :=
  let q := (e.at_ 0x10).toNat
  let t := e.leAt 0x14 4
  [(decide ((e.at_ 0x13).toNat ≥ 4) || rsvSet e [(0x20, 32)], bad 0x02),
   (decide (q < 1) || decide (q > 63) || (g.jqs.find? q).isSome || (g.cqs.find? (e.at_ 0x12).toNat).isNone, bad 0x0C),
   (decide ((e.at_ 0x11).toNat < 6) || decide ((e.at_ 0x11).toNat > 16) || decide ((e.at_ 0x13).toNat % 4 = 3) ||
     (decide (t ≠ 0) && (decide (t < 100) || decide (t > 60000000))), bad 0x0F),
   (decide (e.leAt 0x18 8 % 4096 ≠ 0), bad 0x0E),
   (decide (g.jqs.length ≥ g.jqN), { status := Status.accessDenied, detail := 0x05 }),
   (decide ((e.at_ 0x13).toNat % 4 = 0) && decide (urgentCount g ≥ g.urgentQ), { status := Status.accessDenied, detail := 0x06 })]

/-- CREATE_JQ (R139). -/
def execCreateJq (f : Nat) (s : State) : Outcome State :=
  runAdmin f Op.createJq (fun j s => checked (createJqRows (s.fn f) j.entry)
    (setJq f (j.entry.at_ 0x10).toNat (newJq j.entry)) { status := Status.ok } s) s

/-- The completion queue a CREATE_CQ body describes. -/
def newCq (e : Bytes) : CompQueue :=
  { log2 := (e.at_ 0x11).toNat, ring := e.leAt 0x18 8, mirror := e.leAt 0x20 8, vector := (e.at_ 0x12).toNat % 64
    irqEn := (e.at_ 0x12).getLsbD 6 }

def createCqRows (g : Fn) (e : Bytes) : List (Bool × Done) :=
  let c := (e.at_ 0x10).toNat
  let n := newCq e
  [((e.at_ 0x12).getLsbD 7 || rsvSet e [(0x13, 5), (0x28, 24)], bad 0x02),
   (decide (c < 1) || decide (c > 63) || (g.cqs.find? c).isSome, bad 0x0C),
   (decide (n.log2 < 6) || decide (n.log2 > 16) || decide (n.vector ≥ g.vecN), bad 0x0F),
   (decide (n.ring % 4096 ≠ 0) || decide (n.mirror % 4 ≠ 0) || mirrorInside n.mirror ((n.ring, n.size * 32) :: ringsOf g), bad 0x0E),
   (decide (g.cqs.length ≥ g.cqN), { status := Status.accessDenied, detail := 0x05 })]

/-- CREATE_CQ (R140). -/
def execCreateCq (f : Nat) (s : State) : Outcome State :=
  runAdmin f Op.createCq (fun j s => checked (createCqRows (s.fn f) j.entry)
    (setCq f (j.entry.at_ 0x10).toNat (newCq j.entry)) { status := Status.ok } s) s

def destroyCqRows (g : Fn) (e : Bytes) : List (Bool × Done) :=
  let c := (e.at_ 0x10).toNat
  [(rsvSet e [(0x11, 47)], bad 0x02),
   (decide (c < 1) || decide (c > 63) || (g.cqs.find? c).isNone, bad 0x0C),
   (g.jqs.any fun p => decide (p.2.cq = c), bad 0x0D)]

/-- DESTROY_CQ (R142). -/
def execDestroyCq (f : Nat) (s : State) : Outcome State :=
  runAdmin f Op.destroyCq (fun j s => checked (destroyCqRows (s.fn f) j.entry)
    (modFn f fun g => { g with cqs := g.cqs.erase (j.entry.at_ 0x10).toNat }) { status := Status.ok } s) s

/-! ## Drains (R141, R144, R146) -/

/-- The completion of a drained job; one that another reaction has ended keeps that. -/
def drainDone (j : Job) (cause : Nat) : Done :=
  (if j.taken then j.outcome else none).getD { status := Status.aborted, detail := (if j.ref.jq = 0 then 1 else b2n j.committed) + cause * 2 }

/-- A drain reaches a job of its queue: one on a core stops at its next yield point, one whose claim a retry holds goes
on until the retry settles, one whose reads are outstanding awaits them, and any other stops at once (R144). The drain
issues its record, in ring order (R141, R429). -/
def drainJob (cause : Nat) (j : Job) (s : State) : State :=
  if j.ended then modJob j.ref (fun k => { k with silent := true }) (bump 0x12 s)
  else if j.taken then s
  else if j.claim then suppress j (drainDone j cause) true s
  else if onCore j.ref s || !safeToEnd j then
    modJob j.ref (fun k => { k with stop := some (drainDone j cause), silent := true }) s
  else
    let s1 := if j.ref.jq = 0 then abandonAdmin j s else s
    if j.committed && decide (j.reads = .outstanding) then
      awaitReads j (drainDone j cause) (modJob j.ref (fun k => { k with silent := true }) s1)
    else
      modJob j.ref (fun k => { eraseContext k with outcome := some (drainDone j cause), silent := true, reads := .none_, hold := 0 })
        (leavePk j.ref (releaseHold j (leavePair j.ref (squash j s1))))

/-- Begin a drain: doorbells ignored, fetching stopped, the queue's jobs stopped. -/
def drainStart (f q cause : Nat) (s : State) : State :=
  match s.jq? f q with
  | none => s
  | some x =>
    (s.jobs.filter fun j => decide (j.ref.fn = f ∧ j.ref.jq = q)).foldl
      (fun s j => match s.job? j.ref with | some k => drainJob cause k s | none => s)
      (setJq f q { x with st := .draining, unread := false } s)

/-- One step of a drain at index `i`: the next index, or none while it waits (a job still on a core or in a retry, or no
free record), and whether a slot could not be read. -/
def drainAt (f q cause : Nat) (i : Word) (s : State) : Option Word × Bool × State :=
  match s.jq? f q with
  | none => (some i, false, s)
  | some x =>
    match x.entries.find? fun e => decide (e.index = i) with
    | some e =>
      let next := i + BitVec.ofNat 32 e.len
      if e.done then (some next, false, s)
      else match s.job? { fn := f, jq := q, index := i } with
        | none => (some next, false, s)
        | some j =>
          if j.taken && j.outcome.isSome then (some next, false, completeJob j (drainDone j cause) s)
          else if onCore j.ref s || j.claim || j.ended || !safeToEnd j then (none, false, s)
          else (some next, false, completeJob j (drainDone j cause) (squash j s))
    | none =>
      if x.unread then (some x.pi, true, s)
      else
        let e := s.hostRead f (x.slotAt i) 64
        let r := headerCheck f q e (x.size - i.toNat % x.size) (x.pi - i).toNat
        let next := i + BitVec.ofNat 32 r.2
        let pad := decide (opOf e = Op.pad) && r.1.isNone
        if pad then (some next, false, s)
        else match s.cq? f x.cq with
          | none => (some next, false, s)
          | some c =>
            if c.hasRoom then
              (some next, false, passSlots f q i r.2 (issueRecord f x.cq
                (recordBytes { ref := { fn := f, jq := q, index := i }, entry := e, len := r.2 }
                  { status := Status.aborted, detail := cause * 2 } s.now) false (irqNowOf e) s))
            else (none, false, s)

/-- The drain from index `i` on; `fuel` is at least the ring's size. Ends with whether it is done and whether a slot
could not be read. -/
def drainWalk (f q cause : Nat) : Nat → Word → Bool → State → Bool × Bool × State
  | 0, _, lost, s => (true, lost, s)
  | n + 1, i, lost, s =>
    match s.jq? f q with
    | none => (true, lost, s)
    | some x =>
      if i = x.pi then (true, lost, s)
      else match drainAt f q cause i s with
        | (none, l, t) => (false, lost || l, t)
        | (some k, l, t) => drainWalk f q cause n k (lost || l) t

/-- Drain a queue as far as it goes; when it is done, write the mirror, move FN_JQ_CI to FN_JQ_PI and remove the
queue or leave it ACTIVE. -/
def drainRun (f q cause : Nat) (remove : Bool) (s : State) : Bool × Bool × State :=
  match s.jq? f q with
  | none => (true, false, s)
  | some x =>
    let r := drainWalk f q cause (x.size + 1) x.ci false s
    if r.1 then
      let t := writeMirror f x.cq r.2.2
      (true, r.2.1,
        if remove then modFn f (fun g => { g with jqs := g.jqs.erase q }) t
        else match t.jq? f q with
          | some y => setJq f q { y with st := .active, ci := y.pi, entries := [], bells := [], unread := false } t
          | none => t)
    else r

/-- Some published slot of the queue has not been fetched. -/
def hasUnfetched (s : State) (f q : Nat) : Bool :=
  match s.jq? f q with | some x => decide (x.next ≠ x.pi) | none => false

def drainRows (g : Fn) (e : Bytes) : List (Bool × Done) :=
  let q := (e.at_ 0x10).toNat
  [(rsvSet e [(0x11, 47)], bad 0x02), (decide (q < 1) || decide (q > 63) || (g.jqs.find? q).isNone, bad 0x0C)]

/-- DESTROY_JQ and RESET_JQ (R141): the first step starts the drain; slots never fetched are read in a later step, so
that a read that still fails can be seen (R146). -/
def drainCommand (f : Nat) (cause : Nat) (remove : Bool) (j : Job) (s : State) : Option Done × State :=
  let q := (j.entry.at_ 0x10).toNat
  if j.phase = 0 then
    match firstFail (drainRows (s.fn f) j.entry) with
    | some d => (some d, s)
    | none =>
      let s1 := drainStart f q cause s
      if hasUnfetched s1 f q then (none, modJob j.ref (fun j => { j with phase := 1 }) s1)
      else
        let r := drainRun f q cause remove s1
        if r.1 then (some { status := Status.ok, detail := b2n r.2.1 }, r.2.2)
        else (none, modJob j.ref (fun j => { j with phase := 1 }) r.2.2)
  else
    let r := drainRun f q cause remove s
    if r.1 then (some { status := Status.ok, detail := b2n r.2.1 }, r.2.2) else (none, r.2.2)

/-- DESTROY_JQ (R141). -/
def execDestroyJq (f : Nat) (s : State) : Outcome State := runAdminSteps f Op.destroyJq (drainCommand f 1 true) s

/-- RESET_JQ (R141). -/
def execResetJq (f : Nat) (s : State) : Outcome State := runAdminSteps f Op.resetJq (drainCommand f 2 false) s

/-! ## The admin queue's registers (R138) -/

/-- A page write reaches the function: as `pageOpen`, or an unassigned VF whose BAR is enabled (R156). -/
def aqReach (s : State) (f : Nat) : Bool :=
  s.pageOpen f || s.vfIdle f

/-- FN_AQ_CFG with its configuration fields as `v` writes them. -/
def aqFields (v : Word) (g : Fn) : Fn :=
  { g with aqJqLog := bitsOf v.toNat 4 0, aqCqLog := bitsOf v.toNat 12 8, aqVec := bitsOf v.toNat 21 16
           aqIrqEn := v.getLsbD 22, aqErr := g.aqErr && !v.getLsbD 30 }

/-- An enable is refused (R138, R156). -/
def aqRefused (g : Fn) : Bool :=
  decide (g.run = .unallocated) ||
  decide (g.aqJq % 4096 ≠ 0) || decide (g.aqCq % 4096 ≠ 0) ||
  decide (g.aqJqLog < 6) || decide (g.aqJqLog > 16) || decide (g.aqCqLog < 6) || decide (g.aqCqLog > 16) ||
  decide (g.aqVec ≥ g.vecN) ||
  mirrorInside (g.aqMirror / 4 * 4) [(g.aqJq, 2 ^ g.aqJqLog * 64), (g.aqCq, 2 ^ g.aqCqLog * 32)]

/-- The function with its admin pair created, all four indices 0. -/
def aqCreate (g : Fn) : Fn :=
  { g with aqOn := true
           jqs := g.jqs.set 0 { log2 := g.aqJqLog, ring := g.aqJq, cq := 0, defUs := 10000000 }
           cqs := g.cqs.set 0 { log2 := g.aqCqLog, ring := g.aqCq, mirror := g.aqMirror / 4 * 4, vector := g.aqVec, irqEn := g.aqIrqEn } }

/-- A write of FN_AQ_CFG with ENABLE = 1 (R138). -/
def execAdminQueueEnable (f : Nat) (v : Word) (s : State) : Outcome State :=
  .next <|
    let g := s.fn f
    if !aqReach s f || !v.getLsbD 31 then s
    else if g.aqBusy then refuseAccess s
    else if g.aqOn then setFn f { g with aqErr := g.aqErr && !v.getLsbD 30 } s
    else
      let h := aqFields v g
      if aqRefused h then setFn f { h with aqErr := true } s else setFn f (aqCreate h) s

/-- Job queues bound to completion queue 0, other than the admin queue. -/
def boundQueues (g : Fn) : List Nat := (g.jqs.filter fun p => decide (p.2.cq = 0) && decide (p.1 ≠ 0)).map (·.1)

/-- Drain the queues of a list in order, as far as it goes. -/
def drainList (f : Nat) : List Nat → State → Bool × State
  | [], s => (true, s)
  | q :: r, s =>
    let d := drainRun f q 3 true s
    if d.1 then drainList f r d.2.2 else (false, d.2.2)

/-- The drain of a queue has begun. -/
def draining (s : State) (f q : Nat) : Bool := match s.jq? f q with | some x => decide (x.st = .draining) | none => false

/-- Begin the drains of a list that have not begun. -/
def drainBegin (f : Nat) (l : List Nat) (s : State) : State :=
  l.foldl (fun s q => if draining s f q then s else drainStart f q 3 s) s

/-- The disable goes on: every job queue bound to completion queue 0, and after them the admin pair; when done BUSY and
ENABLE read 0 (R138). -/
def disableRun (f : Nat) (s : State) : State :=
  let d := drainList f (boundQueues (s.fn f)) (drainBegin f (boundQueues (s.fn f)) s)
  if d.1 then
    let a := drainList f [0] (drainBegin f [0] d.2)
    if a.1 then modFn f (fun g => { g with aqOn := false, aqBusy := false, cqs := g.cqs.erase 0 }) a.2 else a.2
  else d.2

/-- A disable of function `f` that waits goes on as far as it can; a function under reset loses its queues without records
(R145). -/
def disableStep (f : Nat) (s : State) : State :=
  if (s.fn f).aqBusy && decide ((s.fn f).run ≠ .resetting) then disableRun f s else s

/-- The next state after something that a disable may have waited for: a free record, an awaited read, a core or a retry
let go. -/
def settledOn (f : Nat) (old s : State) : Outcome State := settled old (disableStep f s)

/-- FN_CQ_CI (R119); a drain that waits for a free record of queue 0 goes on (R144). -/
def execFnCqCiWrite (f q : Nat) (v : Word) (s : State) : Outcome State :=
  if s.pageOpen f then
    match s.cq? f q with
    | none => .next s
    | some x =>
      if (v - x.ci).toNat ≤ (x.pi - x.ci).toNat then settledOn f s (setCq f q { x with ci := v } s)
      else .next (refuseIndex f q v true s)
  else .next s

/-- A write of FN_AQ_CFG with ENABLE = 0 (R138); one while BUSY is 1 is discarded (R312). -/
def execAdminQueueDisable (f : Nat) (v : Word) (s : State) : Outcome State :=
  let g := s.fn f
  if v.getLsbD 31 ∨ s.pageOpen f = false then .next s
  else if g.aqBusy then .next (refuseAccess s)
  else if g.aqOn then
    settledOn f s (setFn f { g with aqBusy := true, aqErr := g.aqErr && !v.getLsbD 30 } s)
  else .next (setFn f (aqFields v g) s)

/-! ## Completions of DMA reads (R150) -/

/-- Detail bit and AER status bit of a failed read (R150, R158). -/
def readFault : ReadStatus → Option (Nat × Nat)
  | .ok => none
  | .unsupported => some (2, 20)
  | .abort => some (2, 15)
  | .poisoned => some (4, 12)

/-- A failed read in the function's AER: the uncorrectable status, and an Advisory Non-Fatal Error when its severity is
non-fatal (R158). -/
def aerRead (f b : Nat) (s : State) : State :=
  let s1 := aerUncor f b s
  if ((s.fn f).cfg.regs.getD 0x10C 0x00462030).testBit b then s1 else aerCor f 13 s1

/-- The block whose DMA request failed (R314). -/
def readBlock (j : Job) : Nat := if j.ref.jq = 0 then Block.cu else if isPk j.op then Block.pk else Block.qe

/-- A read of a job failed: the job ends with DMA_ERROR (R56, R150). -/
def failRead (j : Job) (detail aer : Nat) (s : State) : State :=
  let s1 := setErr (readBlock j) 3 (aerRead j.ref.fn aer s)
  if j.ref.jq = 0 then
    decideJob j.ref { status := Status.dmaError, detail } s1
  else endJob j { status := Status.dmaError, detail } false s1

/-- A read of ring slots failed: the queue fails, or its drain meets a slot that still cannot be read (R146). -/
def failRing (f q aer : Nat) (s : State) : State :=
  match s.jq? f q with
  | none => s
  | some x =>
    let s1 := setErr Block.qe 3 (aerRead f aer s)
    if x.st = .draining then setJq f q { x with unread := true } s1
    else if x.st = .active ∧ x.next ≠ x.pi then
      setErr Block.qe 4 (record 0x0202 2 f q x.next.toNat (s := setQerr f q (setJq f q { x with st := .failed } s1)))
    else s

/-- The last read of a job that a function reset ended has completed or timed out (R164). -/
def endReading (k : JobRef) (aer : Option Nat) (s : State) : State :=
  if (s.fn k.fn).reading.contains k then
    let s1 := match aer with | some b => setErr Block.qe 3 (aerRead k.fn b s) | none => s
    modFn k.fn (fun g => { g with reading := g.reading.filter fun r => decide (r ≠ k) }) s1
  else s

/-- The host buffers a job has read: those of its entry, or the image of the FW_REGISTER that it executes (R237). -/
def readBuffers (j : Job) (s : State) : List (Nat × Nat) :=
  match s.custody.cer with
  | some c =>
    if c.caller = some (.admin j.ref) ∧ c.stage = .executing ∧ c.action = 0x30 then [(c.params.leAt 16 8, c.params.leAt 12 4)]
    else inputsOf j.entry
  | none => inputsOf j.entry

/-- What the reads of a job brought, operand by operand, lands in the staging of a side (R25). -/
def landed (j : Job) (s : State) : List Bytes := (readBuffers j s).map fun b => s.hostRead j.ref.fn b.1 b.2

/-- The reads of a job have arrived, on both sides (R25, R85). -/
def readsArrive (j : Job) (s : State) : State :=
  modJob j.ref (fun k => { k with reads := .arrived, inA := landed j s, inB := landed j s }) s

/-- A read of job `j` ends, well or with a fault: the job has its data, or ends with DMA_ERROR (R150); one that was
stopped meanwhile awaited no more (R134). -/
def readEnds (j : Job) (fault : Option (Nat × Nat)) (s : State) : State :=
  if j.ended then readsSettled j (match fault with | some (_, a) => setErr (readBlock j) 3 (aerRead j.ref.fn a s) | none => s)
  else match fault with
    | none => readsArrive j s
    | some (d, a) => failRead j d a s

/-- A read completion arrives (R150). -/
def execDmaReadCompletion (t : ReadTarget) (r : ReadStatus) (s : State) : Outcome State :=
  match t with
  | .job k =>
    match s.job? k with
    | none => .next (endReading k ((readFault r).map (·.2)) s)
    | some j =>
      if j.reads = .outstanding ∧ j.outcome = none then settledOn k.fn s (readEnds j (readFault r) s) else .next s
  | .ring f q =>
    match readFault r with
    | none => .next s
    | some (_, a) => settledOn f s (failRing f q a s)

/-- A read meets its Completion Timeout (R150), unless Completion Timeout Disable is set (R148). -/
def execCompletionTimeout (t : ReadTarget) (s : State) : Outcome State :=
  if ((s.fn 0).cfg.regs.getD 0x98 0).testBit 4 then .next s
  else match t with
  | .job k =>
    match s.job? k with
    | none => .next (endReading k (some 14) s)
    | some j =>
      if j.reads = .outstanding ∧ j.outcome = none then settledOn k.fn s (readEnds j (some (1, 14)) s) else .next s
  | .ring f q => settledOn f s (failRing f q 14 s)

end Sys2Proof.Machine
end

