-- ==== Sys2Proof/Machine/Keccak.lean ====
section
/-!
DEFINITION. The permutation of FIPS 202 and its functions: SHA3-256, SHA3-384, SHA3-512, SHAKE128 and SHAKE256. Rotation
distances and round constants are computed from the walk and the shift register that define them.
-/

namespace Sys2Proof.Machine

/-- The 5 × 5 lanes, lane (x, y) at place x + 5 y. -/
abbrev Lanes := List (BitVec 64)

/-- Lane (x, y), both taken modulo 5. -/
def Lanes.lane (a : Lanes) (x y : Nat) : BitVec 64 := a.getD (x % 5 + 5 * (y % 5)) 0

/-- Lanes given by a function of their coordinates. -/
def Lanes.build (f : Nat → Nat → BitVec 64) : Lanes := (List.range 25).map fun i => f (i % 5) (i / 5)

/-- The walk over the lanes other than (0, 0): after `t` moves at (x, y), the lane turns by (t + 1)(t + 2) / 2. -/
def rhoWalk : Nat → Nat → Nat → Nat → FMap Nat
  | 0, _, _, _ => []
  | n + 1, t, x, y => (rhoWalk n (t + 1) y ((2 * x + 3 * y) % 5)).set (x + 5 * y) ((t + 1) * (t + 2) / 2 % 64)

/-- Rotation distances of the 25 lanes. -/
def rhoDistances : List Nat := (List.range 25).map fun i => FMap.getD (rhoWalk 24 0 1 0) i 0

/-- `n` successive output bits of the shift register that holds `r`. -/
def iotaBits : Nat → Nat → List Bool
  | 0, _ => []
  | n + 1, r => r.testBit 0 :: iotaBits n (if r ≥ 128 then (2 * r) ^^^ 0x171 else 2 * r)

/-- The constant of a round: seven bits of the register, at places 0, 1, 3, 7, 15, 31 and 63. -/
def iotaConstants : List (BitVec 64) :=
  let b := iotaBits 168 1
  (List.range 24).map fun i =>
    BitVec.ofNat 64 ((List.range 7).foldl (fun v j => v + if b.getD (7 * i + j) false then 2 ^ (2 ^ j - 1) else 0) 0)

/-- Theta: each lane takes in the parities of two neighbouring columns. -/
def keccakTheta (a : Lanes) : Lanes :=
  let column := (List.range 5).map fun x => (List.range 5).foldl (fun v y => v ^^^ a.lane x y) 0
  let mix := (List.range 5).map fun x => column.getD ((x + 4) % 5) 0 ^^^ (column.getD ((x + 1) % 5) 0).rotateLeft 1
  List.zipWith (· ^^^ ·) a (mix ++ mix ++ mix ++ mix ++ mix)

/-- Rho and pi: the lanes turn, and lane (x, y) of the result is the former lane (x + 3 y, x). -/
def keccakMove (a : Lanes) : Lanes :=
  let turned : Lanes := List.zipWith BitVec.rotateLeft a rhoDistances
  Lanes.build fun x y => turned.lane (x + 3 * y) x

/-- Chi, and iota with a round's constant. -/
def keccakChi (a : Lanes) (rc : BitVec 64) : Lanes :=
  let b := Lanes.build fun x y => a.lane x y ^^^ (~~~(a.lane (x + 1) y) &&& a.lane (x + 2) y)
  b.set 0 (b.getD 0 0 ^^^ rc)

/-- The permutation of 24 rounds. -/
def keccak (a : Lanes) : Lanes := iotaConstants.foldl (fun b rc => keccakChi (keccakMove (keccakTheta b)) rc) a

/-- A block taken into the lanes. -/
def absorb (a : Lanes) (block : Bytes) : Lanes :=
  keccak (List.zipWith (· ^^^ ·) a ((Bytes.chunks 8 (block.fit 200)).map fun b => BitVec.ofNat 64 (Bytes.toLE b)))

/-- `n` blocks of `rate` bytes out of the lanes. -/
def squeeze (rate : Nat) : Nat → Lanes → Bytes
  | 0, _ => []
  | n + 1, a => (a.flatMap fun l => Bytes.ofLE 8 l.toNat).take rate ++ squeeze rate n (keccak a)

/-- A message with its suffix bits, padded to whole blocks of `rate` bytes. -/
def spongePad (rate suffix : Nat) (m : Bytes) : Bytes :=
  let p := m ++ [BitVec.ofNat 8 suffix]
  let q := p.fit (roundUp p.length rate)
  q.dropLast ++ [q.getLastD 0 ^^^ 0x80#8]

/-- The sponge: `n` bytes of output. -/
def sponge (rate suffix : Nat) (m : Bytes) (n : Nat) : Bytes :=
  let a := (Bytes.chunks rate (spongePad rate suffix m)).foldl absorb (List.replicate 25 0)
  (squeeze rate (n / rate + 1) a).take n

/-- SHA-3 with a digest of `n` bytes. -/
def sha3 (n : Nat) (m : Bytes) : Bytes := sponge (200 - 2 * n) 0x06 m n

/-- `n` bytes of SHAKE128 and of SHAKE256. -/
def shake128 (m : Bytes) (n : Nat) : Bytes := sponge 168 0x1F m n
def shake256 (m : Bytes) (n : Nat) : Bytes := sponge 136 0x1F m n

end Sys2Proof.Machine
end

