-- ==== Sys2Proof/Machine/Sha.lean ====
section
/-!
DEFINITION. The SHA-2 hash functions (FIPS 180-4) at both word widths, HMAC (FIPS 198-1) and HKDF (RFC 5869) with SHA-384.
The constants are computed from their definition: fraction bits of square and cube roots of the first primes.
-/

namespace Sys2Proof.Machine

/-! ## Constants -/

/-- The primes from `c` on, trying `n` candidates; `found` holds those below `c`. -/
def sievePrimes : Nat → Nat → List Nat → List Nat
  | 0, _, found => found
  | n + 1, c, found => sievePrimes n (c + 1) (if found.any fun q => c % q == 0 then found else found ++ [c])

/-- The 80 primes below 410. -/
def smallPrimes : List Nat := sievePrimes 408 2 []

/-- The largest `r` with `r ^ e ≤ n` that agrees with `r` above bit `k`. -/
def rootFrom (e n : Nat) : Nat → Nat → Nat
  | 0, r => r
  | k + 1, r => rootFrom e n k (if (r + 2 ^ k) ^ e ≤ n then r + 2 ^ k else r)

/-- The first `w` bits after the binary point of the `e`-th root of a prime below 410. -/
def rootFraction (e w p : Nat) : BitVec w := BitVec.ofNat w (rootFrom e (p * 2 ^ (e * w)) (w + 5) 0)

/-- Round constants, one for each round, at word width `w`. -/
def shaConstants (w rounds : Nat) : List (BitVec w) := (smallPrimes.take rounds).map (rootFraction 3 w)

/-! ## The compression function -/

/-- One of the four mixing functions: two rotations, and a third rotation or, in the schedule, a shift. -/
structure ShaMix where
  r1 : Nat
  r2 : Nat
  last : Nat
  shifts : Bool := false

/-- A mixing function of a word. -/
def ShaMix.of {w : Nat} (m : ShaMix) (x : BitVec w) : BitVec w :=
  x.rotateRight m.r1 ^^^ x.rotateRight m.r2 ^^^ (if m.shifts then x >>> m.last else x.rotateRight m.last)

/-- A SHA-2 family at one word width: its rounds and its mixing functions. -/
structure ShaFamily (w : Nat) where
  k : List (BitVec w)
  sum0 : ShaMix
  sum1 : ShaMix
  sched0 : ShaMix
  sched1 : ShaMix

/-- The 32-bit family, of SHA-256. -/
def sha32 : ShaFamily 32 :=
  { k := shaConstants 32 64, sum0 := ⟨2, 13, 22, false⟩, sum1 := ⟨6, 11, 25, false⟩
    sched0 := ⟨7, 18, 3, true⟩, sched1 := ⟨17, 19, 10, true⟩ }

/-- The 64-bit family, of SHA-384 and SHA-512. -/
def sha64 : ShaFamily 64 :=
  { k := shaConstants 64 80, sum0 := ⟨28, 34, 39, false⟩, sum1 := ⟨14, 18, 41, false⟩
    sched0 := ⟨1, 8, 7, true⟩, sched1 := ⟨19, 61, 6, true⟩ }

/-- The working variables: a to d and e to h, each the last four values of its own recurrence, newest first. -/
abbrev ShaWork (w : Nat) := List (BitVec w) × List (BitVec w)

/-- One round: both recurrences advance. -/
def ShaFamily.round {w : Nat} (f : ShaFamily w) (x : ShaWork w) (kw : BitVec w) : ShaWork w :=
  let old i := x.1.getD i 0
  let low i := x.2.getD i 0
  let choose := (low 0 &&& low 1) ||| (~~~(low 0) &&& low 2)
  let major := (old 0 &&& old 1) ||| (old 0 &&& old 2) ||| (old 1 &&& old 2)
  let t := kw + low 3 + f.sum1.of (low 0) + choose
  ((t + f.sum0.of (old 0) + major) :: x.1.take 3, (old 3 + t) :: x.2.take 3)

/-- The rounds over a block: `win` is the schedule's window of sixteen words, oldest first. -/
def ShaFamily.rounds {w : Nat} (f : ShaFamily w) : List (BitVec w) → List (BitVec w) → ShaWork w → ShaWork w
  | [], _, x => x
  | k :: ks, win, x =>
    let word i := win.getD i 0
    let next := f.sched1.of (word 14) + word 9 + f.sched0.of (word 1) + word 0
    f.rounds ks (win.drop 1 ++ [next]) (f.round x (k + word 0))

/-- One block of sixteen words folded into the hash value. -/
def ShaFamily.fold {w : Nat} (f : ShaFamily w) (h : List (BitVec w)) (block : Bytes) : List (BitVec w) :=
  let words := (Bytes.chunks (w / 8) block).map fun b => BitVec.ofNat w (Bytes.toBE b)
  let x := f.rounds f.k words (h.take 4, h.drop 4)
  List.zipWith (· + ·) h (x.1 ++ x.2)

/-- A message padded to whole blocks of sixteen words, its length in bits in the last two words. -/
def shaPad (w : Nat) (m : Bytes) : Bytes :=
  let used := (m.length + 1 + w / 4) % (2 * w)
  m ++ [0x80#8] ++ Bytes.zeros ((2 * w - used) % (2 * w)) ++ Bytes.ofBE (w / 4) (8 * m.length)

/-- The hash of a message from an initial value, before truncation. -/
def ShaFamily.hash {w : Nat} (f : ShaFamily w) (init : List (BitVec w)) (m : Bytes) : Bytes :=
  let h := (Bytes.chunks (2 * w) (shaPad w m)).foldl f.fold init
  h.flatMap fun x => Bytes.ofBE (w / 8) x.toNat

/-- The initial value of SHA-256 and SHA-512: square roots of the first eight primes. -/
def shaInit (w : Nat) : List (BitVec w) := (smallPrimes.take 8).map (rootFraction 2 w)

/-- The initial value of SHA-384: square roots of the next eight primes. -/
def sha384Init : List (BitVec 64) := ((smallPrimes.drop 8).take 8).map (rootFraction 2 64)

/-- SHA-256 of a byte string. -/
def sha256 (m : Bytes) : Bytes := sha32.hash (shaInit 32) m

/-- SHA-384 of a byte string. -/
def sha384 (m : Bytes) : Bytes := (sha64.hash sha384Init m).take 48

/-- SHA-512 of a byte string. -/
def sha512 (m : Bytes) : Bytes := sha64.hash (shaInit 64) m

/-! ## HMAC and HKDF over SHA-384 -/

/-- HMAC-SHA-384. -/
def hmac384 (key m : Bytes) : Bytes :=
  let k := Bytes.fit (if key.length > 128 then sha384 key else key) 128
  sha384 (k.map (· ^^^ 0x5C#8) ++ sha384 (k.map (· ^^^ 0x36#8) ++ m))

/-- The blocks of HKDF-Expand. -/
def hkdfBlocks (prk info : Bytes) : Nat → Nat → Bytes → Bytes
  | 0, _, _ => []
  | n + 1, i, prev =>
    let t := hmac384 prk (prev ++ info ++ Bytes.ofBE 1 i)
    t ++ hkdfBlocks prk info n (i + 1) t

/-- HKDF with SHA-384: salt, input keying material, info, output length. -/
def hkdf384 (salt ikm info : Bytes) (n : Nat) : Bytes :=
  (hkdfBlocks (hmac384 salt ikm) info (n / 48 + 1) 1 []).take n

end Sys2Proof.Machine
end

