-- ==== Sys2Proof/Machine/Curves.lean ====
section
/-!
DEFINITION. Elliptic curves of the public-key engine (R252): the NIST curves with ECDSA and ECDH (FIPS 186-5,
SP 800-56A), the Edwards curves with EdDSA (RFC 8032), and the X25519 and X448 functions (RFC 7748). A secret multiplier
runs on the representation of R265, whose random part `Blind` no result depends on.
-/

namespace Sys2Proof.Machine

/-! ## Modular arithmetic -/

/-- Bits of a number, most significant first, `n` of them. -/
def bitsDown (n v : Nat) : List Bool := (List.range n).reverse.map v.testBit

/-- `b ^ e` modulo `m`. -/
def powMod (b e m : Nat) : Nat :=
  (bitsDown (Nat.log2 e + 1) e).foldl (fun a set => if set then a * a % m * b % m else a * a % m) (1 % m)

/-- The inverse modulo a prime. -/
def invMod (a p : Nat) : Nat := powMod a (p - 2) p

/-- `a - b` modulo `p`, both reduced. -/
def subMod (a b p : Nat) : Nat := (a + p - b % p) % p

/-- Random values of one attempt's representation (R265): a coordinate factor, and 64-bit multiples of the group order for
the two multipliers a signature has. -/
structure Blind where
  lam : Nat := 1
  t1 : Nat := 0
  t2 : Nat := 0
  deriving DecidableEq, Repr

/-! ## NIST curves -/

/-- y² = x³ − 3x + b over the field of `p` elements; the base point has prime order `n`. Integers take `len` bytes. -/
structure NistCurve where
  p : Nat
  b : Nat
  n : Nat
  gx : Nat
  gy : Nat
  len : Nat

/-- P-256, P-384 and P-521 by algorithm code. -/
def nistCurve : Nat → NistCurve
  | 0x08 =>
    { p := 2 ^ 256 - 2 ^ 224 + 2 ^ 192 + 2 ^ 96 - 1, len := 32
      b := 0x5ac635d8aa3a93e7b3ebbd55769886bc651d06b0cc53b0f63bce3c3e27d2604b
      n := 2 ^ 256 - 2 ^ 224 + 2 ^ 192 - 89188191075325690597107910205041859247
      gx := 0x6b17d1f2e12c4247f8bce6e563a440f277037d812deb33a0f4a13945d898c296
      gy := 0x4fe342e2fe1a7f9b8ee7eb4a7c0f9e162bce33576b315ececbb6406837bf51f5 }
  | 0x09 =>
    { p := 2 ^ 384 - 2 ^ 128 - 2 ^ 96 + 2 ^ 32 - 1, len := 48
      b := 0xb3312fa7e23ee7e4988e056be3f82d19181d9c6efe8141120314088f5013875ac656398d8a2ed19d2a85c8edd3ec2aef
      n := 2 ^ 384 - 1388124618062372383947042015309946732620727252194336364173
      gx := 0xaa87ca22be8b05378eb1c71ef320ad746e1d3b628ba79b9859f741e082542a385502f25dbf55296c3a545e3872760ab7
      gy := 0x3617de4a96262c6f5d9e98bf9292dc29f8f41dbd289a147ce9da3113b5f0b8c00a60b1ce1d7e819d7a431d7c90ea0e5f }
  | _ =>
    { p := 2 ^ 521 - 1, len := 66
      b := 0x51953eb9618e1c9a1f929a21a0b68540eea2da725b99b315f3b8b489918ef109e156193951ec7e937b1652c0bd3bb1bf073573df883d2c34f1ef451fd46b503f00
      n := 2 ^ 521 - 657877501894328237357444332315020117536923257219387276263472201219398408051703
      gx := 0xc6858e06b70404e9cd9e3ecb662395b4429c648139053fb521f828af606b4d3dbaa14b5e77efe75928fe1dc127a2ffa8de3348b3c1856a429bf97e7e31c2e5bd66
      gy := 0x11839296a789a3bc0045c8a5fb42c7d1bd998f54449579b446817afbd17273e662c97ee72995ef42640c550b9013fad0761353c7086a272c24088be94769fd16650 }

/-- The affine point satisfies the curve's equation. -/
def NistCurve.holds (c : NistCurve) (x y : Nat) : Bool :=
  decide (y * y % c.p = (x * x % c.p * x + (c.p - 3) * x + c.b) % c.p)

/-- A point in Jacobian coordinates: (X / Z², Y / Z³); Z = 0 is the point at infinity. -/
structure Jacobian where
  x : Nat := 1
  y : Nat := 1
  z : Nat := 0
  deriving DecidableEq, Repr

/-- Twice a point. -/
def NistCurve.double (c : NistCurve) (a : Jacobian) : Jacobian :=
  let p := c.p
  let yy := a.y * a.y % p
  let zz := a.z * a.z % p
  let s := 4 * a.x * yy % p
  let m := 3 * subMod a.x zz p * (a.x + zz) % p
  let x := subMod (m * m) (2 * s) p
  { x := x, y := subMod (m * subMod s x p) (8 * yy * yy) p, z := 2 * a.y * a.z % p }

/-- The sum of two points. -/
def NistCurve.add (c : NistCurve) (a b : Jacobian) : Jacobian :=
  let p := c.p
  if a.z = 0 then b
  else if b.z = 0 then a
  else
    let za := a.z * a.z % p
    let zb := b.z * b.z % p
    let u := a.x * zb % p
    let v := a.y * zb % p * b.z % p
    let h := subMod (b.x * za) u p
    let r := subMod (b.y * za % p * a.z) v p
    if h = 0 then (if r = 0 then c.double a else {})
    else
      let hh := h * h % p
      let k := hh * h % p
      let w := u * hh % p
      let x := subMod (r * r) (k + 2 * w) p
      { x := x, y := subMod (r * subMod w x p) (v * k) p, z := a.z * b.z % p * h % p }

/-- A multiple of an affine point, on coordinates multiplied by `lam`. -/
def NistCurve.mul (c : NistCurve) (k lam x y : Nat) : Jacobian :=
  let l2 := lam * lam % c.p
  let g : Jacobian := { x := x * l2 % c.p, y := y * l2 % c.p * lam % c.p, z := lam % c.p }
  (bitsDown (Nat.log2 k + 1) k).foldl (fun a set => let d := c.double a; if set then c.add d g else d) {}

/-- Affine coordinates of a point; none of the point at infinity. -/
def NistCurve.affine (c : NistCurve) (a : Jacobian) : Option (Nat × Nat) :=
  if a.z % c.p = 0 then none
  else
    let i := invMod a.z c.p
    some (a.x * (i * i % c.p) % c.p, a.y * (i * i % c.p * i % c.p) % c.p)

/-- A private multiple of a point, the multiplier blinded by a multiple of the order (R265). -/
def NistCurve.secretMul (c : NistCurve) (k t lam x y : Nat) : Option (Nat × Nat) :=
  c.affine (c.mul (k + t * c.n) (if lam % c.p = 0 then 1 else lam) x y)

/-- A point in the uncompressed encoding of SEC 1 (R256). -/
def NistCurve.encode (c : NistCurve) (q : Option (Nat × Nat)) : Bytes :=
  match q with
  | some (x, y) => Bytes.ofNats [4] ++ Bytes.ofBE c.len x ++ Bytes.ofBE c.len y
  | none => Bytes.zeros (1 + 2 * c.len)

/-- Coordinates of an uncompressed encoding. -/
def NistCurve.coords (c : NistCurve) (b : Bytes) : Nat × Nat :=
  (Bytes.toBE (b.slice 1 c.len), Bytes.toBE (b.slice (1 + c.len) c.len))

/-- Public key of a private scalar. -/
def NistCurve.pub (c : NistCurve) (d : Nat) (bl : Blind) : Bytes := c.encode (c.secretMul d bl.t1 bl.lam c.gx c.gy)

/-- ECDH: the x-coordinate of the private multiple of the peer's point. -/
def NistCurve.ecdh (c : NistCurve) (d : Nat) (peer : Bytes) (bl : Blind) : Bytes :=
  let q := c.coords peer
  match c.secretMul d bl.t1 bl.lam q.1 q.2 with
  | some (x, _) => Bytes.ofBE c.len x
  | none => Bytes.zeros c.len

/-- The leftmost bits of a digest, as many as the order has. -/
def NistCurve.digestInt (c : NistCurve) (h : Bytes) : Nat :=
  Bytes.toBE h >>> (8 * h.length - (Nat.log2 c.n + 1))

/-- ECDSA with per-message secret `k`; none when r or s comes out 0. -/
def NistCurve.sign (c : NistCurve) (d k : Nat) (h : Bytes) (bl : Blind) : Option Bytes :=
  match c.secretMul k bl.t2 bl.lam c.gx c.gy with
  | none => none
  | some (x, _) =>
    let r := x % c.n
    let s := invMod k c.n * (c.digestInt h + r * d % c.n) % c.n
    if r = 0 ∨ s = 0 then none else some (Bytes.ofBE c.len r ++ Bytes.ofBE c.len s)

/-- The ECDSA verification equation, for r and s in range and a point on the curve. -/
def NistCurve.verify (c : NistCurve) (pub h sig : Bytes) : Bool :=
  let r := Bytes.toBE (sig.take c.len)
  let w := invMod (Bytes.toBE (sig.drop c.len)) c.n
  let q := c.coords pub
  let a := c.mul (c.digestInt h * w % c.n) 1 c.gx c.gy
  let b := c.mul (r * w % c.n) 1 q.1 q.2
  match c.affine (c.add a b) with
  | some (x, _) => decide (x % c.n = r)
  | none => false

/-! ## Edwards curves -/

/-- a·x² + y² = 1 + d·x²·y², with a = −1 (Ed25519) or 1 (Ed448); the base point has prime order `n`, encodings take
`len` bytes. -/
structure EdCurve where
  p : Nat
  a : Nat
  d : Nat
  n : Nat
  gy : Nat
  cof : Nat
  len : Nat

/-- Ed25519 and Ed448 by algorithm code. -/
def edCurve : Nat → EdCurve
  | 0x0B =>
    let p := 2 ^ 255 - 19
    { p := p, a := p - 1, d := subMod 0 (121665 * invMod 121666 p) p, cof := 8, len := 32
      n := 2 ^ 252 + 27742317777372353535851937790883648493, gy := 4 * invMod 5 p % p }
  | _ =>
    let p := 2 ^ 448 - 2 ^ 224 - 1
    { p := p, a := 1, d := p - 39081, cof := 4, len := 57
      n := 2 ^ 446 - 13818066809895115352007386748515426880336692474882178609894547503885
      gy := 298819210078481492676017930443930673437544040154080242095928241372331506189835876003536878655418784733982303233503462500531545062832660 }

/-- A point in projective coordinates (X / Z, Y / Z). -/
structure EdPoint where
  x : Nat := 0
  y : Nat := 1
  z : Nat := 1
  deriving DecidableEq, Repr

/-- The unified sum of two points. -/
def EdCurve.add (c : EdCurve) (u v : EdPoint) : EdPoint :=
  let p := c.p
  let k := u.z * v.z % p
  let kk := k * k % p
  let xx := u.x * v.x % p
  let yy := u.y * v.y % p
  let e := c.d * xx % p * yy % p
  let f := subMod kk e p
  let g := (kk + e) % p
  let cross := subMod ((u.x + u.y) * (v.x + v.y)) (xx + yy) p
  { x := k * f % p * cross % p, y := k * g % p * subMod yy (c.a * xx) p % p, z := f * g % p }

/-- A multiple of a point, on coordinates multiplied by `lam`. -/
def EdCurve.mul (c : EdCurve) (k lam : Nat) (q : EdPoint) : EdPoint :=
  let g : EdPoint := { x := q.x * lam % c.p, y := q.y * lam % c.p, z := q.z * lam % c.p }
  (bitsDown (Nat.log2 k + 1) k).foldl (fun a set => let d := c.add a a; if set then c.add d g else d) {}

/-- A square root modulo a prime that is 3 modulo 4 or 5 modulo 8, if there is one. -/
def sqrtMod (v p : Nat) : Option Nat :=
  let tries := if p % 4 = 3 then [powMod v ((p + 1) / 4) p]
    else let r := powMod v ((p + 3) / 8) p
      [r, r * powMod 2 ((p - 1) / 4) p % p]
  tries.find? fun r => decide (r * r % p = v % p)

/-- The x of a y and a sign bit; none where R263 or RFC 8032 rejects the encoding. -/
def EdCurve.recover (c : EdCurve) (y : Nat) (sign : Bool) : Option Nat :=
  if y ≥ c.p then none
  else
    let yy := y * y % c.p
    match sqrtMod (subMod 1 yy c.p * invMod (subMod c.a (c.d * yy) c.p) c.p % c.p) c.p with
    | none => none
    | some x => if x = 0 ∧ sign then none else some (if (x % 2 == 1) == sign then x else c.p - x)

/-- The point an encoding of `len` bytes stands for. -/
def EdCurve.decode (c : EdCurve) (b : Bytes) : Option EdPoint :=
  let v := Bytes.toLE b
  let y := v % 2 ^ (8 * c.len - 1)
  (c.recover y (v.testBit (8 * c.len - 1))).map fun x => { x := x, y := y }

/-- The encoding of a point. -/
def EdCurve.encode (c : EdCurve) (q : EdPoint) : Bytes :=
  let i := invMod q.z c.p
  Bytes.ofLE c.len (q.y * i % c.p + 2 ^ (8 * c.len - 1) * (q.x * i % c.p % 2))

/-- Two points are the same. -/
def EdCurve.same (c : EdCurve) (u v : EdPoint) : Bool :=
  decide (u.x * v.z % c.p = v.x * u.z % c.p) && decide (u.y * v.z % c.p = v.y * u.z % c.p)

/-- The base point: the even x of `gy`. -/
def EdCurve.g (c : EdCurve) : EdPoint := { x := (c.recover c.gy false).getD 0, y := c.gy }

/-- The point has small order: its cofactor multiple is the neutral element. -/
def EdCurve.smallOrder (c : EdCurve) (q : EdPoint) : Bool := c.same (c.mul c.cof 1 q) {}

/-- The hash of a variant: SHA-512, or SHAKE256 behind the prefix of Ed448 with its context. -/
def edHash (alg : Nat) (ctx m : Bytes) : Bytes :=
  if alg = 0x0B then sha512 m
  else shake256 (Bytes.ascii "SigEd448" ++ Bytes.ofNats [0, ctx.length] ++ ctx ++ m) 114

/-- The two halves of a private key's hash: the scalar with its fixed bits, and the prefix. -/
def edExpand (alg : Nat) (seed : Bytes) : Nat × Bytes :=
  let c := edCurve alg
  let h := if alg = 0x0B then sha512 seed else shake256 seed 114
  let s := Bytes.toLE (h.take c.len)
  (if alg = 0x0B then s % 2 ^ 254 / 8 * 8 + 2 ^ 254 else s % 2 ^ 447 / 4 * 4 + 2 ^ 447, h.drop c.len)

/-- Public key of a seed. -/
def edPub (alg : Nat) (seed : Bytes) (bl : Blind) : Bytes :=
  let c := edCurve alg
  c.encode (c.mul ((edExpand alg seed).1 + bl.t1 * c.n) (if bl.lam % c.p = 0 then 1 else bl.lam) c.g)

/-- EdDSA (RFC 8032); `pub` is the seed's public key. -/
def edSign (alg : Nat) (seed pub ctx m : Bytes) (bl : Blind) : Bytes :=
  let c := edCurve alg
  let k := edExpand alg seed
  let r := Bytes.toLE (edHash alg ctx (k.2 ++ m)) % c.n
  let rp := c.encode (c.mul (r + bl.t2 * c.n) (if bl.lam % c.p = 0 then 1 else bl.lam) c.g)
  rp ++ Bytes.ofLE c.len ((r + Bytes.toLE (edHash alg ctx (rp ++ pub ++ m)) % c.n * k.1) % c.n)

/-- S is below the order and R decodes (R263). -/
def edSigForm (alg : Nat) (sig : Bytes) : Bool :=
  let c := edCurve alg
  decide (Bytes.toLE (sig.drop c.len) < c.n) && (c.decode (sig.take c.len)).isSome

/-- The cofactorless equation [S]B = R + [k]A (R263). -/
def edVerify (alg : Nat) (pub ctx m sig : Bytes) : Bool :=
  let c := edCurve alg
  match c.decode pub, c.decode (sig.take c.len) with
  | some a, some r =>
    let k := Bytes.toLE (edHash alg ctx (sig.take c.len ++ pub ++ m)) % c.n
    c.same (c.mul (Bytes.toLE (sig.drop c.len)) 1 c.g) (c.add r (c.mul k 1 a))
  | _, _ => false

/-! ## X25519 and X448 -/

/-- Field prime, (A − 2) / 4, bits and bytes of an encoding. -/
structure MontCurve where
  p : Nat
  a24 : Nat
  bits : Nat
  len : Nat

/-- Curve25519 and curve448 by algorithm code. -/
def montCurve : Nat → MontCurve
  | 0x0D => { p := 2 ^ 255 - 19, a24 := 121665, bits := 255, len := 32 }
  | _ => { p := 2 ^ 448 - 2 ^ 224 - 1, a24 := 39081, bits := 448, len := 56 }

/-- The scalar of a private key: RFC 7748's fixed bits set and cleared. -/
def montScalar (alg : Nat) (key : Bytes) : Nat :=
  let v := Bytes.toLE key
  if alg = 0x0D then v % 2 ^ 254 / 8 * 8 + 2 ^ 254 else v % 2 ^ 447 / 4 * 4 + 2 ^ 447

/-- The ladder's pair of points, each as (X, Z). -/
structure Ladder where
  x2 : Nat
  z2 : Nat
  x3 : Nat
  z3 : Nat

/-- One rung for a clear bit: the first point doubled, the second their sum; `u` is the difference's coordinate. -/
def MontCurve.rung (c : MontCurve) (u : Nat) (l : Ladder) : Ladder :=
  let p := c.p
  let s := l.x2 + l.z2
  let t := subMod l.x2 l.z2 p
  let ss := s * s % p
  let tt := t * t % p
  let e := subMod ss tt p
  let m := subMod l.x3 l.z3 p * s % p
  let n := (l.x3 + l.z3) * t % p
  { x2 := ss * tt % p, z2 := e * (ss + c.a24 * e) % p
    x3 := (m + n) * (m + n) % p, z3 := u * (subMod m n p * subMod m n p % p) % p }

/-- The two points exchanged. -/
def Ladder.swap (l : Ladder) : Ladder := { x2 := l.x3, z2 := l.z3, x3 := l.x2, z3 := l.z2 }

/-- The u-coordinate of a multiple; the ladder starts on coordinates multiplied by `lam`. -/
def MontCurve.mul (c : MontCurve) (k u lam : Nat) : Nat :=
  let l0 : Ladder := { x2 := 1, z2 := 0, x3 := u * lam % c.p, z3 := lam % c.p }
  let l := (bitsDown c.bits k).foldl (fun l set => if set then (c.rung u l.swap).swap else c.rung u l) l0
  l.x2 * invMod l.z2 c.p % c.p

/-- X25519 or X448 of a private key and a peer's key: unused bits of the peer's key are masked, and it is reduced (R263). -/
def montShared (alg : Nat) (key peer : Bytes) (bl : Blind) : Bytes :=
  let c := montCurve alg
  let u := Bytes.toLE (peer.take c.len) % 2 ^ c.bits % c.p
  Bytes.ofLE c.len (c.mul (montScalar alg key) u (if bl.lam % c.p = 0 then 1 else bl.lam))

/-- Public key of a private key: the multiple of the base point, 9 or 5. -/
def montPub (alg : Nat) (key : Bytes) (bl : Blind) : Bytes :=
  montShared alg key (Bytes.ofLE (montCurve alg).len (if alg = 0x0D then 9 else 5)) bl

end Sys2Proof.Machine
end

