-- ==== Sys2Proof/Machine/Lattice.lean ====
section
/-!
DEFINITION. ML-KEM (FIPS 203) and ML-DSA (FIPS 204) of the public-key engine (R252). A polynomial is the list of its 256
coefficients modulo q; its transform is its value at the odd powers of a root of unity, and the inverse interpolates.
-/

namespace Sys2Proof.Machine

/-! ## Polynomials -/

/-- Coefficients, lowest first, reduced. -/
abbrev Poly := List Nat

/-- Coefficientwise sum, difference and product modulo `q`. -/
def Poly.add (q : Nat) (a b : Poly) : Poly := List.zipWith (fun x y => (x + y) % q) a b
def Poly.sub (q : Nat) (a b : Poly) : Poly := List.zipWith (fun x y => subMod x y q) a b
def Poly.dot (q : Nat) (a b : Poly) : Poly := List.zipWith (fun x y => x * y % q) a b

/-- The sum of a list of polynomials of `n` coefficients. -/
def Poly.sum (q n : Nat) (l : List Poly) : Poly := l.foldl (Poly.add q) (List.replicate n 0)

/-- Coefficients at the even and at the odd places. -/
def Poly.evens : Poly → Poly
  | a :: _ :: r => a :: Poly.evens r
  | l => l
def Poly.odds : Poly → Poly
  | _ :: b :: r => b :: Poly.odds r
  | _ => []

/-- Two lists merged place by place. -/
def Poly.weave (a b : Poly) : Poly := (a.zip b).flatMap fun x => [x.1, x.2]

/-- `n` bits in reverse order. -/
def reverseBits (n i : Nat) : Nat := (List.range n).foldl (fun v k => 2 * v + i / 2 ^ k % 2) 0

/-- The points of a transform: odd powers of a root `z` of order `2 ^ (n + 1)`, in the standards' order. -/
def nttPoints (q z n : Nat) : List Nat := (List.range (2 ^ n)).map fun i => powMod z (2 * reverseBits n i + 1) q

/-- Values at the points. -/
def valuesAt (q : Nat) (pts : List Nat) (a : Poly) : Poly := pts.map fun g => a.foldr (fun c v => (c + g * v) % q) 0

/-- The `n` coefficients with `v` as values at the points whose inverses are given, times the number of points; `w` holds
each value times the present power of its inverse point. -/
def coefficients (q : Nat) (inverses : List Nat) : Nat → Poly → Poly
  | 0, _ => []
  | n + 1, w => w.foldl (· + ·) 0 % q :: coefficients q inverses n (Poly.dot q w inverses)

/-- A transform: modulus, points, their inverses, and the inverse of their number. -/
structure Ntt where
  q : Nat
  pts : List Nat
  inverses : List Nat
  scale : Nat

/-- The transform on the odd powers of `z`. -/
def Ntt.of (q z n : Nat) : Ntt :=
  let p := nttPoints q z n
  { q := q, pts := p, inverses := p.map fun g => invMod g q, scale := invMod (2 ^ n) q }

/-- Back from values to coefficients. -/
def Ntt.back (t : Ntt) (v : Poly) : Poly := (coefficients t.q t.inverses t.pts.length v).map fun c => c * t.scale % t.q

/-- Coefficients of `d` bits each as bytes, the first in the lowest bits. -/
def packBits (d : Nat) (a : List Nat) : Bytes := Bytes.ofLE (a.length * d / 8) (a.foldr (fun c v => c % 2 ^ d + 2 ^ d * v) 0)

/-- `n` fields of `d` bits. -/
def unpackBits (d n : Nat) (b : Bytes) : List Nat :=
  let v := Bytes.toLE b
  (List.range n).map fun i => v / 2 ^ (d * i) % 2 ^ d

/-- A polynomial drawn from the mask generator's bytes (R265): three bytes a coefficient. -/
def maskPoly (q n : Nat) (mask : Bytes) (i : Nat) : Poly := (List.range n).map fun k => mask.leAt (3 * (n * i + k)) 3 % q

/-- The two additive shares of polynomial `i` (R265). -/
def sharesOf (q : Nat) (mask : Bytes) (i : Nat) (a : Poly) : Poly × Poly :=
  let m := maskPoly q a.length mask i
  (Poly.sub q a m, m)

/-! ## ML-KEM -/

/-- Parameters of a set: rank and the two compressions; both noise widths are 2. -/
structure KemSet where
  k : Nat
  du : Nat
  dv : Nat

/-- ML-KEM-768 and ML-KEM-1024 by algorithm code. -/
def kemSet : Nat → KemSet
  | 0x18 => { k := 3, du := 10, dv := 4 }
  | _ => { k := 4, du := 11, dv := 5 }

/-- The modulus of ML-KEM. -/
def kemQ : Nat := 3329

/-- Its transform has 128 points; even and odd coefficients are transformed apart. -/
def kemNtt : Ntt := Ntt.of kemQ 17 7

/-- The transform of a polynomial, and back. -/
def kemHat (a : Poly) : Poly := Poly.weave (valuesAt kemQ kemNtt.pts a.evens) (valuesAt kemQ kemNtt.pts a.odds)
def kemBack (a : Poly) : Poly := Poly.weave (kemNtt.back a.evens) (kemNtt.back a.odds)

/-- Product of two transformed polynomials: modulo X² less each point. -/
def kemTimes (a b : Poly) : Poly :=
  let ae := a.evens
  let ao := a.odds
  let be := b.evens
  let bo := b.odds
  Poly.weave (Poly.add kemQ (Poly.dot kemQ ae be) (Poly.dot kemQ (Poly.dot kemQ ao bo) kemNtt.pts))
    (Poly.add kemQ (Poly.dot kemQ ae bo) (Poly.dot kemQ ao be))

/-- The two 12-bit numbers in each three bytes. -/
def triples12 : Bytes → List Nat
  | a :: b :: c :: r => (a.toNat + 256 * (b.toNat % 16)) :: (b.toNat / 16 + 16 * c.toNat) :: triples12 r
  | _ => []

/-- A uniform transformed polynomial from the standard's least budget of 280 triples. -/
def kemUniform (seed : Bytes) : Poly :=
  let l := ((triples12 (shake128 seed 840)).filter (· < kemQ)).take 256
  l ++ List.replicate (256 - l.length) 0

/-- Noise of width 2 from 128 bytes. -/
def kemNoise (b : Bytes) : Poly :=
  (unpackBits 4 256 b).map fun v => subMod (v % 2 + v / 2 % 2) (v / 4 % 2 + v / 8) kemQ

/-- Noise polynomials `i` to `i + n - 1` of a seed. -/
def kemNoises (seed : Bytes) (i n : Nat) : List Poly :=
  (List.range n).map fun j => kemNoise (shake256 (seed ++ Bytes.ofBE 1 (i + j)) 128)

/-- Entry (i, j) of the public matrix. -/
def kemEntry (rho : Bytes) (i j : Nat) : Poly := kemUniform (rho ++ Bytes.ofNats [j, i])

/-- Rounding to `d` bits, and back. -/
def kemCompress (d : Nat) (a : Poly) : List Nat := a.map fun x => (2 ^ (d + 1) * x + kemQ) / (2 * kemQ) % 2 ^ d
def kemExpand (d : Nat) (a : List Nat) : Poly := a.map fun y => (2 * kemQ * y + 2 ^ d) / 2 ^ (d + 1)

/-- Inner product of transformed vectors. -/
def kemInner (a b : List Poly) : Poly := Poly.sum kemQ 256 (List.zipWith kemTimes a b)

/-- The secret vector, transformed, and the encapsulation key, from the seed d. -/
def kemKeys (s : KemSet) (d : Bytes) : List Poly × Bytes :=
  let g := sha3 64 (d ++ Bytes.ofBE 1 s.k)
  let rho := g.take 32
  let sec := (kemNoises (g.drop 32) 0 s.k).map kemHat
  let err := (kemNoises (g.drop 32) s.k s.k).map kemHat
  let t := (List.range s.k).map fun i =>
    Poly.add kemQ (kemInner ((List.range s.k).map (kemEntry rho i)) sec) (err.getD i [])
  (sec, (t.flatMap (packBits 12)) ++ rho)

/-- The encapsulation key of the 64 stored bytes d and z. -/
def kemPub (alg : Nat) (key : Bytes) : Bytes := (kemKeys (kemSet alg) (key.take 32)).2

/-- The transformed vector in an encapsulation key. -/
def kemVector (s : KemSet) (ek : Bytes) : List Poly :=
  (List.range s.k).map fun i => (unpackBits 12 256 (ek.slice (384 * i) 384)).map (· % kemQ)

/-- The modulus check of FIPS 203: every coefficient is below q. -/
def kemCheck (alg : Nat) (ek : Bytes) : Bool :=
  decide ((kemVector (kemSet alg) ek).flatMap (packBits 12) = ek.take (384 * (kemSet alg).k))

/-- Encryption of 32 bytes with the coins `r`. -/
def kemEncrypt (s : KemSet) (ek m r : Bytes) : Bytes :=
  let rho := ek.drop (384 * s.k)
  let y := (kemNoises r 0 s.k).map kemHat
  let u := (List.range s.k).map fun i =>
    Poly.add kemQ (kemBack (kemInner ((List.range s.k).map fun j => kemEntry rho j i) y)) ((kemNoises r (s.k + i) 1).getD 0 [])
  let mu := kemExpand 1 (unpackBits 1 256 m)
  let v := Poly.add kemQ (Poly.add kemQ (kemBack (kemInner (kemVector s ek) y)) ((kemNoises r (2 * s.k) 1).getD 0 [])) mu
  u.flatMap (fun a => packBits s.du (kemCompress s.du a)) ++ packBits s.dv (kemCompress s.dv v)

/-- Decryption, the secret vector in two shares. -/
def kemDecrypt (s : KemSet) (sec : List Poly) (c mask : Bytes) : Bytes :=
  let u := (List.range s.k).map fun i => kemHat (kemExpand s.du (unpackBits s.du 256 (c.slice (32 * s.du * i) (32 * s.du))))
  let v := kemExpand s.dv (unpackBits s.dv 256 (c.drop (32 * s.du * s.k)))
  let parts := sec.zipIdx.map fun x => sharesOf kemQ mask x.2 x.1
  let w := Poly.sub kemQ (Poly.sub kemQ v (kemBack (kemInner (parts.map (·.1)) u))) (kemBack (kemInner (parts.map (·.2)) u))
  packBits 1 (kemCompress 1 w)

/-- Encapsulation with the 32-byte message `m`: shared secret and ciphertext. -/
def kemEncaps (alg : Nat) (ek m : Bytes) : Bytes × Bytes :=
  let g := sha3 64 (m ++ sha3 32 ek)
  (g.take 32, kemEncrypt (kemSet alg) ek m (g.drop 32))

/-- Decapsulation: the implicit-rejection secret where the ciphertext is not the re-encryption (R263). -/
def kemDecaps (alg : Nat) (key c mask : Bytes) : Bytes :=
  let s := kemSet alg
  let keys := kemKeys s (key.take 32)
  let m := kemDecrypt s keys.1 c mask
  let x := kemEncaps alg keys.2 m
  if x.2 = c then x.1 else shake256 ((key.drop 32).take 32 ++ c) 32

/-! ## ML-DSA -/

/-- Parameters of a set: rows, columns, secret range, weight of a challenge, hints allowed, bytes of a challenge's hash. -/
structure DsaSet where
  k : Nat
  l : Nat
  eta : Nat
  tau : Nat
  omega : Nat
  hash : Nat

/-- ML-DSA-65 and ML-DSA-87 by algorithm code. -/
def dsaSet : Nat → DsaSet
  | 0x14 => { k := 6, l := 5, eta := 4, tau := 49, omega := 55, hash := 48 }
  | _ => { k := 8, l := 7, eta := 2, tau := 60, omega := 75, hash := 64 }

/-- The modulus of ML-DSA, its mask range and its rounding range. -/
def dsaQ : Nat := 8380417
def dsaGamma1 : Nat := 2 ^ 19
def dsaGamma2 : Nat := (dsaQ - 1) / 32

/-- The largest coefficient of a challenge times a secret. -/
def DsaSet.beta (s : DsaSet) : Nat := s.tau * s.eta

/-- Its transform has 256 points. -/
def dsaNtt : Ntt := Ntt.of dsaQ 1753 8

/-- The transform of a polynomial. -/
def dsaHat (a : Poly) : Poly := valuesAt dsaQ dsaNtt.pts a

/-- The absolute value of a coefficient taken in the symmetric range, and the largest of a vector. -/
def dsaAbs (x : Nat) : Nat := min x (dsaQ - x)
def dsaNorm (v : List Poly) : Nat := v.foldl (fun m a => a.foldl (fun m x => max m (dsaAbs x)) m) 0

/-- 23-bit numbers in each three bytes. -/
def triples23 : Bytes → List Nat
  | a :: b :: c :: r => (a.toNat + 256 * b.toNat + 65536 * (c.toNat % 128)) :: triples23 r
  | _ => []

/-- A uniform transformed polynomial from the standard's least budget of 298 triples. -/
def dsaUniform (seed : Bytes) : Poly :=
  let l := ((triples23 (shake128 seed 894)).filter (· < dsaQ)).take 256
  l ++ List.replicate (256 - l.length) 0

/-- The public matrix, by rows. -/
def dsaMatrix (s : DsaSet) (rho : Bytes) : List (List Poly) :=
  (List.range s.k).map fun r => (List.range s.l).map fun c => dsaUniform (rho ++ Bytes.ofNats [c, r])

/-- A small polynomial from the standard's least budget of 481 bytes. -/
def dsaSmall (s : DsaSet) (seed : Bytes) : Poly :=
  let halves := (shake256 seed 481).flatMap fun b => [b.toNat % 16, b.toNat / 16]
  let ok := if s.eta = 2 then (halves.filter (· < 15)).map (· % 5) else halves.filter (· < 9)
  (ok.take 256 ++ List.replicate (256 - ok.length) s.eta).map fun z => subMod s.eta z dsaQ

/-- What a seed ξ expands to: ρ, K and the secret vectors. -/
structure DsaKeys where
  rho : Bytes
  key : Bytes
  s1 : List Poly
  s2 : List Poly

/-- Expansion of a seed. -/
def dsaKeys (s : DsaSet) (xi : Bytes) : DsaKeys :=
  let h := shake256 (xi.take 32 ++ Bytes.ofNats [s.k, s.l]) 128
  let small i := dsaSmall s ((h.drop 32).take 64 ++ Bytes.ofLE 2 i)
  { rho := h.take 32, key := h.drop 96, s1 := (List.range s.l).map small
    s2 := (List.range s.k).map fun i => small (s.l + i) }

/-- The matrix times a transformed vector, back in coefficients. -/
def dsaApply (a : List (List Poly)) (v : List Poly) : List Poly :=
  a.map fun row => dsaNtt.back (Poly.sum dsaQ 256 (List.zipWith (Poly.dot dsaQ) row v))

/-- The high part of a coefficient of t: what is left when the nearest multiple's remainder is taken off. -/
def dsaRound (x : Nat) : Nat := (x + 2 ^ 12 - 1) / 2 ^ 13

/-- The vector t of a key. -/
def DsaKeys.t (k : DsaKeys) (s : DsaSet) : List Poly :=
  List.zipWith (Poly.add dsaQ) (dsaApply (dsaMatrix s k.rho) (k.s1.map dsaHat)) k.s2

/-- The public key of a key. -/
def DsaKeys.pub (k : DsaKeys) (s : DsaSet) : Bytes := k.rho ++ (k.t s).flatMap fun a => packBits 10 (a.map dsaRound)

/-- The public key of a seed. -/
def dsaPub (alg : Nat) (xi : Bytes) : Bytes := (dsaKeys (dsaSet alg) xi).pub (dsaSet alg)

/-- High and low parts of a coefficient for rounding range γ2, the low part symmetric. -/
def dsaSplit (x : Nat) : Nat × Int :=
  let m := 2 * dsaGamma2
  let low : Int := if x % m ≤ dsaGamma2 then (x % m : Nat) else ((x % m : Nat) : Int) - m
  if (x : Int) - low = dsaQ - 1 then (0, low - 1) else (((x : Int) - low).toNat / m, low)

/-- The high parts of a vector, packed. -/
def dsaHighs (v : List Poly) : Bytes := v.flatMap fun a => packBits 4 (a.map fun x => (dsaSplit x).1)

/-- The places and signs of a challenge: `i` counts up, `bytes` are the positions tried, and `c` the polynomial so far. -/
def dsaShuffle (signs top : Nat) : Nat → Nat → Bytes → Poly → Poly
  | 0, _, _, c => c
  | f + 1, i, bytes, c =>
    match bytes with
    | [] => c
    | b :: r =>
      if i ≥ 256 then c
      else if b.toNat > i then dsaShuffle signs top f i r c
      else
        let c1 := c.set i (c.getD b.toNat 0)
        dsaShuffle signs top f (i + 1) r (c1.set b.toNat (if signs.testBit (i - top) then dsaQ - 1 else 1))

/-- The challenge polynomial of a hash, from the standard's least budget of 121 bytes. -/
def dsaChallenge (s : DsaSet) (hash : Bytes) : Poly :=
  let h := shake256 hash 121
  dsaShuffle (Bytes.toLE (h.take 8)) (256 - s.tau) 121 (256 - s.tau) (h.drop 8) (List.replicate 256 0)

/-- The representative of a message with its context (pure ML-DSA). -/
def dsaMessage (pub ctx m : Bytes) : Bytes :=
  shake256 (shake256 pub 64 ++ Bytes.ofNats [0, ctx.length] ++ ctx ++ m) 64

/-- The mask vector of an attempt. -/
def dsaMask (s : DsaSet) (seed : Bytes) (kappa : Nat) : List Poly :=
  (List.range s.l).map fun r =>
    (unpackBits 20 256 (shake256 (seed ++ Bytes.ofLE 2 (kappa + r)) 640)).map fun z => subMod dsaGamma1 z dsaQ

/-- The encoding of a hint: the places set in each row, then the running counts. -/
def dsaHintPack (s : DsaSet) (h : List (List Nat)) : Bytes :=
  Bytes.ofNats (h.flatten ++ List.replicate (s.omega - h.flatten.length) 0 ++
    (List.range s.k).map fun i => ((h.take (i + 1)).map List.length).sum)

/-- The rows of a well-formed hint encoding: counts that rise, places that rise within a row, and zeros after the last. -/
def dsaHintUnpack (s : DsaSet) (b : Bytes) : Option (List (List Nat)) :=
  let v := b.map BitVec.toNat
  let ends := v.drop s.omega
  let rows := (0 :: ends).zip ends |>.map fun x => (v.take x.2).drop x.1
  let rising l := (l.zip (l.drop 1)).all fun x => decide (x.1 < x.2)
  if ((0 :: ends).zip ends).all (fun x => decide (x.1 ≤ x.2) && decide (x.2 ≤ s.omega)) && rows.all rising &&
      ((v.take s.omega).drop (ends.getLastD 0)).all (· == 0) then some rows else none

/-- One attempt at a signature; `y` is its mask. None where the attempt is rejected. -/
def dsaAttempt (s : DsaSet) (a : List (List Poly)) (s1 s2 t0 : List (Poly × Poly)) (mu : Bytes) (y : List Poly) :
    Option Bytes :=
  let w := dsaApply a (y.map dsaHat)
  let hash := shake256 (mu ++ dsaHighs w) s.hash
  let c := dsaHat (dsaChallenge s hash)
  let times v := v.map fun p =>
    Poly.add dsaQ (dsaNtt.back (Poly.dot dsaQ c (dsaHat p.1))) (dsaNtt.back (Poly.dot dsaQ c (dsaHat p.2)))
  let z := List.zipWith (Poly.add dsaQ) y (times s1)
  let r := List.zipWith (Poly.sub dsaQ) w (times s2)
  let ct := times t0
  let hint := List.zipWith (fun a b => ((List.zipWith (fun x u =>
    decide ((dsaSplit x).1 ≠ (dsaSplit ((x + u) % dsaQ)).1)) a b).zipIdx.filter (·.1)).map (·.2)) r ct
  if dsaNorm z ≥ dsaGamma1 - s.beta ∨ (r.any fun a => a.any fun x => decide ((dsaSplit x).2.natAbs ≥ dsaGamma2 - s.beta)) = true ∨
      dsaNorm ct ≥ dsaGamma2 ∨ hint.flatten.length > s.omega then none
  else some (hash ++ z.flatMap (fun a => packBits 20 (a.map fun x => subMod dsaGamma1 x dsaQ)) ++ dsaHintPack s hint)

/-- The first attempt that succeeds, at most `fuel`. -/
def dsaTry (f : Nat → Option Bytes) (step : Nat) : Nat → Nat → Option Bytes
  | 0, _ => none
  | n + 1, kappa => match f kappa with
    | some b => some b
    | none => dsaTry f step n (kappa + step)

/-- Hedged ML-DSA over the standard's least budget of 814 attempts; the secrets in two shares. -/
def dsaSign (alg : Nat) (xi ctx m rnd mask : Bytes) : Option Bytes :=
  let s := dsaSet alg
  let k := dsaKeys s xi
  let t := k.t s
  let t0 := t.map fun a => a.map fun x => subMod x (2 ^ 13 * dsaRound x) dsaQ
  let mu := dsaMessage (k.pub s) ctx m
  let seed := shake256 (k.key ++ rnd.fit 32 ++ mu) 64
  let a := dsaMatrix s k.rho
  let split from_ v := v.zipIdx.map fun x => sharesOf dsaQ mask (from_ + x.2) x.1
  dsaTry (fun kappa => dsaAttempt s a (split 0 k.s1) (split s.l k.s2) (split (s.l + s.k) t0) mu (dsaMask s seed kappa)) s.l 814 0

/-- The signature's vector z, and its hint. -/
def dsaZ (s : DsaSet) (sig : Bytes) : List Poly :=
  (List.range s.l).map fun i => (unpackBits 20 256 (sig.slice (s.hash + 640 * i) 640)).map fun v => subMod dsaGamma1 v dsaQ
def dsaHint (s : DsaSet) (sig : Bytes) : Option (List (List Nat)) := dsaHintUnpack s (sig.drop (s.hash + 640 * s.l))

/-- The hint encoding is well-formed (R263). -/
def dsaSigForm (alg : Nat) (sig : Bytes) : Bool := (dsaHint (dsaSet alg) sig).isSome

/-- The high part a hint restores. -/
def dsaRestore (x : Nat) (hinted : Bool) : Nat :=
  let v := dsaSplit x
  if hinted then (if v.2 > 0 then (v.1 + 1) % 16 else (v.1 + 15) % 16) else v.1

/-- The norm of z and the number of hints are in range (R267). -/
def dsaNormsOk (alg : Nat) (sig : Bytes) : Bool :=
  let s := dsaSet alg
  decide (dsaNorm (dsaZ s sig) < dsaGamma1 - s.beta) && (dsaHint s sig).any fun h => decide (h.flatten.length ≤ s.omega)

/-- A well-formed signature verifies. -/
def dsaVerify (alg : Nat) (pub ctx m sig : Bytes) : Bool :=
  let s := dsaSet alg
  let z := dsaZ s sig
  match dsaHint s sig with
  | none => false
  | some h =>
    let hash := sig.take s.hash
    let c := dsaHat (dsaChallenge s hash)
    let t1 := (List.range s.k).map fun i => unpackBits 10 256 (pub.slice (32 + 320 * i) 320)
    let az := dsaApply (dsaMatrix s (pub.take 32)) (z.map dsaHat)
    let w := List.zipWith (fun a t => Poly.sub dsaQ a (dsaNtt.back (Poly.dot dsaQ c (dsaHat (t.map (· * 2 ^ 13)))))) az t1
    let w1 := (w.zip h).flatMap fun x => packBits 4 (x.1.zipIdx.map fun v => dsaRestore v.1 (x.2.contains v.2))
    decide (dsaNorm z < dsaGamma1 - s.beta) && decide (shake256 (dsaMessage pub ctx m ++ w1) s.hash = hash)

end Sys2Proof.Machine
end

