-- ==== Sys2Proof/Machine/Rsa.lean ====
section
/-!
DEFINITION. RSA of the public-key engine (R252): PSS and PKCS #1 v1.5 signatures (RFC 8017), RSASVE (SP 800-56B), and
the generation of probable primes (FIPS 186-5, A.1.3). A private operation runs by CRT on the representation of R265.
-/

namespace Sys2Proof.Machine

/-! ## Digests (R254) -/

/-- The digest of a HASH code: 0 to 2 SHA-2, 3 to 5 SHA-3. -/
def digestOf (h : Nat) (m : Bytes) : Bytes :=
  match h with
  | 0 => sha256 m
  | 1 => sha384 m
  | 2 => sha512 m
  | _ => sha3 (digestLen h) m

/-! ## Encodings -/

/-- MGF1: `n` bytes of mask from a seed. -/
def mgf1 (h : Nat) (seed : Bytes) (n : Nat) : Bytes :=
  ((List.range (n / digestLen h + 1)).flatMap fun i => digestOf h (seed ++ Bytes.ofBE 4 i)).take n

/-- H of a PSS encoding: the digest behind eight zero bytes, and the salt. -/
def pssInner (h : Nat) (digest salt : Bytes) : Bytes := digestOf h (Bytes.zeros 8 ++ digest ++ salt)

/-- The PSS encoding of a digest for a modulus of `8 * k` bits: `k` bytes with the top bit clear. -/
def pssEncode (h k : Nat) (digest salt : Bytes) : Bytes :=
  let inner := pssInner h digest salt
  let db : Bytes := Bytes.zeros (k - salt.length - digestLen h - 2) ++ [1#8] ++ salt
  let masked := Bytes.xor db (mgf1 h inner db.length)
  [masked.at_ 0 &&& 0x7F#8] ++ masked.drop 1 ++ inner ++ [0xBC#8]

/-- A PSS encoding fits a digest, its salt `sLen` bytes long. -/
def pssFits (h k sLen : Nat) (digest em : Bytes) : Bool :=
  let n := k - digestLen h - 1
  let inner := em.slice n (digestLen h)
  let open_ := Bytes.xor (em.take n) (mgf1 h inner n)
  let db : Bytes := [open_.at_ 0 &&& 0x7F#8] ++ open_.drop 1
  decide (em.at_ (k - 1) = 0xBC) && !(em.at_ 0).getLsbD 7 && db.zeroAt 0 (n - sLen - 1) &&
    decide (db.at_ (n - sLen - 1) = 1) && decide (pssInner h digest (db.drop (n - sLen)) = inner)

/-- DigestInfo of a SHA-2 digest: the algorithm's identifier and the digest, in DER. -/
def digestInfo (h : Nat) (digest : Bytes) : Bytes :=
  let alg := Bytes.ofNats [0x06, 9, 0x60, 0x86, 0x48, 1, 101, 3, 4, 2, h + 1, 0x05, 0]
  let body := Bytes.ofNats [0x30, alg.length] ++ alg ++ Bytes.ofNats [0x04, digest.length] ++ digest
  Bytes.ofNats [0x30, body.length] ++ body

/-- The PKCS #1 v1.5 encoding of a digest in `k` bytes. -/
def v15Encode (h k : Nat) (digest : Bytes) : Bytes :=
  let t := digestInfo h digest
  Bytes.ofNats [0, 1] ++ List.replicate (k - t.length - 3) 0xFF#8 ++ [0#8] ++ t

/-! ## The private operation -/

/-- One step of Euclid's algorithm at a time: `u` and `v` are multiples of the number, by `a` and `b`, modulo `n`. -/
def euclid (n : Nat) : Nat → Nat → Nat → Nat → Nat → Nat
  | 0, _, _, a, _ => a
  | f + 1, u, v, a, b => if v = 0 then a else euclid n f v (u % v) b (subMod a (u / v * b) n)

/-- The inverse of a number coprime to `n`. -/
def invCoprime (x n : Nat) : Nat := euclid n (2 * Nat.log2 n + 2) (x % n) n 1 0 % n

/-- A private key with its CRT parts. -/
structure RsaKey where
  e : Nat
  n : Nat
  p : Nat
  q : Nat
  dp : Nat
  dq : Nat
  qinv : Nat
  deriving DecidableEq, Repr

/-- The private operation, its base blinded by `bl.lam` and its exponents by the two 64-bit multiples, and whether the
recombination check of R267 holds for the `expected` input. -/
def RsaKey.apply (key : RsaKey) (c expected : Nat) (bl : Blind) : Nat × Bool :=
  let r := bl.lam % key.n
  let cb := c * powMod r key.e key.n % key.n
  let mp := powMod (cb % key.p) (key.dp + bl.t1 * (key.p - 1)) key.p
  let mq := powMod (cb % key.q) (key.dq + bl.t2 * (key.q - 1)) key.q
  let sb := mq + key.q * (key.qinv * subMod mp mq key.p % key.p)
  let s := sb * invCoprime r key.n % key.n
  (s, decide (sb % key.p = mp) && decide (sb % key.q = mq) && decide (powMod s key.e key.n = expected % key.n))

/-- The bytes a signature signs: hash, padding (v1.5 or PSS), modulus bytes, digest, salt. -/
def rsaEncode (h k : Nat) (v15 : Bool) (digest salt : Bytes) : Bytes :=
  if v15 then v15Encode h k digest else pssEncode h k digest salt

/-- A signature below the modulus verifies. -/
def rsaVerify (h k sLen : Nat) (v15 : Bool) (n e : Nat) (digest sig : Bytes) : Bool :=
  let em := Bytes.ofBE k (powMod (Bytes.toBE sig) e n)
  if v15 then decide (em = v15Encode h k digest) else pssFits h k sLen digest em

/-! ## Random values -/

/-- The first of the successive values of `len` bytes in `rnd` that a test accepts, and the bytes after it; none when they
run out. `fuel` bounds the values. -/
def drawUntil (len : Nat) (ok : Nat → Option Nat) : Nat → Bytes → Option (Nat × Bytes)
  | 0, _ => none
  | f + 1, rnd =>
    if rnd.length < len then none
    else match ok (Bytes.toBE (rnd.take len)) with
      | some v => some (v, rnd.drop len)
      | none => drawUntil len ok f (rnd.drop len)

/-- RSASVE's secret value z, with 1 < z < N − 1. -/
def drawZ (k n : Nat) (rnd : Bytes) : Option Nat :=
  (drawUntil k (fun z => if 1 < z ∧ z < n - 1 then some z else none) (rnd.length + 1) rnd).map (·.1)

/-- A secret below an order of `8 * len` bits or fewer, from 1 up: by extra random bits, or by testing candidates; FIPS
186-5 describes both (A.2.1, A.2.2, A.3.1, A.3.2). -/
def drawScalar (extra : Bool) (n : Nat) (rnd : Bytes) : Option (Nat × Bytes) :=
  let bits := Nat.log2 n + 1
  let len := (bits + 7) / 8
  if extra then drawUntil (len + 8) (fun c => some (c % (n - 1) + 1)) 1 rnd
  else drawUntil len (fun c => if c % 2 ^ bits ≤ n - 2 then some (c % 2 ^ bits + 1) else none) (rnd.length + 1) rnd

/-- The power of two in a number, at most `fuel`. -/
def twos : Nat → Nat → Nat
  | 0, _ => 0
  | f + 1, n => if n % 2 = 0 then 1 + twos f (n / 2) else 0

/-- Repeated squaring from `x` meets n − 1 within `k` steps. -/
def meetsMinusOne (n : Nat) : Nat → Nat → Bool
  | 0, _ => false
  | k + 1, x => x == n - 1 || meetsMinusOne n k (x * x % n)

/-- Miller and Rabin's test of an odd number with the bases given. -/
def probablyPrime (bases : List Nat) (n : Nat) : Bool :=
  let a := twos (Nat.log2 n + 1) (n - 1)
  decide (n > 3) && bases.all fun b =>
    let x := powMod (2 + b % (n - 3)) ((n - 1) / 2 ^ a) n
    x == 1 || meetsMinusOne n a x

/-- A candidate of `half` bits as A.1.3 takes it: made odd, at least √2 · 2^(half − 1), prime to 65,537 less one, and
probably prime. -/
def primeCandidate (bases : Nat → List Nat) (half c : Nat) : Option Nat :=
  let p := c + (1 - c % 2)
  if p < 2 ^ half ∧ p * p ≥ 2 ^ (2 * half - 1) ∧ (p - 1) % 65537 ≠ 0 ∧ probablyPrime (bases p) p = true then some p else none

/-- The two primes of a modulus of `2 * half` bits, far enough apart. -/
def drawPrimes (bases : Nat → List Nat) (half : Nat) (rnd : Bytes) : Option (Nat × Nat) :=
  match drawUntil (half / 8) (primeCandidate bases half) (rnd.length + 1) rnd with
  | none => none
  | some (p, rest) =>
    let far q := decide (q + 2 ^ (half - 100) < p) || decide (p + 2 ^ (half - 100) < q)
    (drawUntil (half / 8) (fun c => (primeCandidate bases half c).filter far) (rnd.length + 1) rest).map fun x => (p, x.1)

/-- The private key of two primes, with E = 65,537. -/
def rsaKeyOf (p q : Nat) : RsaKey :=
  let d m := invCoprime 65537 (m - 1)
  { e := 65537, n := p * q, p := p, q := q, dp := d p, dq := d q, qinv := invMod q p }

end Sys2Proof.Machine
end

