-- ==== Sys2Proof/Machine/PkAlgo.lean ====
section
/-!
DEFINITION. The public-key algorithms by algorithm code (R252, R256): public keys, fresh private keys, signatures,
verification, agreement and encapsulation, and the checks of R263 on public inputs. A private operation takes the random
representation of R265, on which its value does not depend.
-/

namespace Sys2Proof.Machine

/-! ## Representations (R265) -/

/-- Keystream of a mask generator from block `ctr` on: AES-256 CTR (R83). -/
def keystream (key : Bytes) (ctr blocks : Nat) : Bytes :=
  (List.range blocks).flatMap fun i => aesEnc (key.fit 32) (Bytes.ofBE 16 ((ctr + i) % 2 ^ 128))

/-- Blocks of keystream set aside for an attempt: coordinates and multiples first, then additive shares. -/
abbrev Rep.blinds : Nat := 72
abbrev Rep.shares : Nat := 1104

/-- The coordinate factor and the two 64-bit multiples of an attempt. -/
def Rep.blind (r : Rep) : Blind :=
  let k := keystream r.key r.ctr Rep.blinds
  { t1 := k.leAt 0 8, t2 := k.leAt 8 8, lam := Bytes.toLE (k.drop 16) }

/-- The bytes of an attempt's additive shares. -/
def Rep.mask (r : Rep) : Bytes := keystream r.key (r.ctr + Rep.blinds) Rep.shares

/-! ## Keys -/

/-- Public key of a private key other than RSA's (R256). -/
def pkPublic (alg : Nat) (key : Bytes) (bl : Blind) : Bytes :=
  if isP alg then (nistCurve alg).pub (Bytes.toBE key) bl
  else if isEd alg then edPub alg key bl
  else if isX alg then montPub alg key bl
  else if isMlDsa alg then dsaPub alg key
  else if isMlKem alg then kemPub alg key
  else []

/-- A fresh private key in its stored form (R193) from random bytes, and the bytes left over; none when they are too
few. -/
def freshKey (alg : Nat) (rnd : Bytes) : Option (Bytes × Bytes) :=
  if isP alg then
    (drawScalar Config.extraBits (nistCurve alg).n rnd).map fun x => (Bytes.ofBE (nistCurve alg).len x.1, x.2)
  else
    let n := (keyBytes alg).getD 0
    if rnd.length < n then none else some (rnd.take n, rnd.drop n)

/-- The primes of an RSA key, from random bytes. -/
def freshPrimes (bits : Nat) (rnd : Bytes) : Option (Nat × Nat) :=
  drawPrimes (fun p => (List.range 5).map (Config.primeBase p)) (bits / 2) rnd

/-- A device attestation key, re-created from the device identity secret (R190): the ECDSA scalar by reduction, the ML-DSA
seed as it stands. -/
def attestKey (alg : Nat) : Bytes :=
  let b := Config.attestSeed alg
  if isP alg then Bytes.ofBE (nistCurve alg).len (Bytes.toBE b % ((nistCurve alg).n - 1) + 1) else b.fit 32

/-! ## Signatures -/

/-- ECDSA with the first per-message secret of `rnd` that gives a signature; none when the bytes run out. -/
def ecdsaSign (c : NistCurve) (d : Nat) (h : Bytes) (bl : Blind) : Nat → Bytes → Option Bytes
  | 0, _ => none
  | f + 1, rnd =>
    match drawScalar Config.extraBits c.n rnd with
    | none => none
    | some (k, rest) => match c.sign d k h bl with
      | some b => some b
      | none => ecdsaSign c d h bl f rest

/-- What an elliptic-curve or lattice signature signs: for ECDSA a digest, else a message with its context. -/
structure Signed where
  digest : Bytes := []
  ctx : Bytes := []
  msg : Bytes := []

/-- Sign with a private key other than RSA's; none when the random bytes run out. -/
def pkSign (alg : Nat) (key : Bytes) (m : Signed) (rnd : Bytes) (r : Rep) : Option Bytes :=
  if isP alg then ecdsaSign (nistCurve alg) (Bytes.toBE key) m.digest r.blind (rnd.length + 1) rnd
  else if isEd alg then some (edSign alg key (edPub alg key {}) m.ctx m.msg r.blind)
  else if rnd.length < 32 then none
  else dsaSign alg key m.ctx m.msg rnd r.mask

/-- The verification equation of a signature other than RSA's. -/
def pkVerifies (alg : Nat) (pub : Bytes) (m : Signed) (sig : Bytes) : Bool :=
  if isP alg then (nistCurve alg).verify pub m.digest sig
  else if isEd alg then edVerify alg pub m.ctx m.msg sig
  else dsaVerify alg pub m.ctx m.msg sig

/-- A component of a signature other than RSA's is out of range or malformed (R263). -/
def sigOutOfRange (alg : Nat) (sig : Bytes) : Bool :=
  if isP alg then
    let c := nistCurve alg
    let r := Bytes.toBE (sig.take c.len)
    let t := Bytes.toBE (sig.drop c.len)
    decide (r = 0) || decide (t = 0) || decide (r ≥ c.n) || decide (t ≥ c.n)
  else if isEd alg then !edSigForm alg sig
  else !dsaSigForm alg sig

/-! ## Agreement and encapsulation -/

/-- The shared secret of an agreement. -/
def pkAgree (alg : Nat) (key peer : Bytes) (bl : Blind) : Bytes :=
  if isP alg then (nistCurve alg).ecdh (Bytes.toBE key) peer bl else montShared alg key peer bl

/-- ML-KEM encapsulation: secret and ciphertext; none with fewer than 32 random bytes. -/
def pkEncaps (alg : Nat) (pub rnd : Bytes) : Option (Bytes × Bytes) :=
  if rnd.length < 32 then none else some (kemEncaps alg pub (rnd.take 32))

end Sys2Proof.Machine
end

