-- ==== Sys2Proof/Machine/Slots.lean ====
section
/-!
DEFINITION. Working slot copies: masks, BAD marks, the usage counter with its lease, and the copies a job is bound to.
-/

namespace Sys2Proof.Machine

/-! ## Masks (R83, R195, R196) -/

/-- Mask generator `g` has served `blocks` blocks more. -/
def passBlocks (g blocks : Nat) (s : State) : State :=
  let m := s.fab.gens.getD g {}
  { s with fab := { s.fab with
    gens := s.fab.gens.set g { m with ctr := (m.ctr + blocks) % 2 ^ 128, served := m.served + blocks } } }

/-- `n` keystream bytes of mask generator `g` (R83). -/
def drawMask (g n : Nat) (s : State) : Bytes × State :=
  let m := s.fab.gens.getD g {}
  let blocks := (n + 15) / 16
  ((keystream m.key m.ctr blocks).take n, passBlocks g blocks s)

/-- A key placed under a fresh mask of generator `g`. -/
def maskKey (g : Nat) (k : Bytes) (s : State) : Masked × State :=
  let r := drawMask g k.length s
  ({ x := k.xor r.1, m := r.1 }, r.2)

/-- A masked value under a fresh mask, its clear value unchanged (R196, step 2). -/
def remask (g : Nat) (k : Masked) (s : State) : Masked × State :=
  let r := drawMask g k.x.length s
  ({ x := (k.x.xor k.m).xor r.1, m := r.1 }, r.2)

/-! ## BAD slots (R198) -/

/-- Fields in which the two copies differ (R441): key, ATTR, counter, times. -/
def differing (x : Slot) : Nat :=
  b2n (decide (x.a.key.clear ≠ x.b.key.clear)) + 2 * b2n (decide (x.a.attr ≠ x.b.attr)) +
  4 * b2n (decide (x.a.count ≠ x.b.count) || decide (x.a.limit ≠ x.b.limit)) +
  8 * b2n (decide (x.a.nb ≠ x.b.nb) || decide (x.a.na ≠ x.b.na))

/-- Mark a slot BAD (R198, step 1). -/
def markBad (n : Nat) (s : State) : State :=
  record 0x0302 3 n (differing (s.slot n)) (s := setErr Block.ks 4 (bump 8
    (modSlot n (fun x => { x with st := .bad, reloadDue := true }) s)))

/-! ## Usage (R199, R200) -/

/-- ks.usage.lease. -/
def State.lease (s : State) : Nat := s.param 0x1001 3 4096

/-- The highest value of a usage counter, a limit and a checkpoint, which have 48 bits (R199). -/
abbrev countMax : Nat := 2 ^ 48 - 1

/-- Checkpoint of a counter that starts at `count` (R200, R207). DESIGN CHOICE (log entry 157): it never passes the 48 bits of a
counter, so a counter does not either. -/
def pointFrom (lease count limit : Nat) : Nat := min (count + lease) (if limit = 0 then countMax else limit)

/-- The checkpoint write of a slot: one starts when less than half a lease remains and none is pending (R200). -/
def aheadP (lease : Nat) (x : Slot) : Option Nat :=
  let c := x.a.count
  if x.pendingP.isNone ∧ 2 * ((x.point : Int) - c) < lease then some (pointFrom lease c x.a.limit) else x.pendingP

/-- Charge a slot's usage counter once (R199, R200). -/
def chargeUsage (n : Nat) (s : State) : State :=
  modSlot n (fun x =>
    let y := { x with a := { x.a with count := x.a.count + 1 }, b := { x.b with count := x.b.count + 1 } }
    { y with pendingP := aheadP s.lease y }) s

/-- A commitment that waits starts the checkpoint write it waits for, unless one is pending (R200). -/
def startCheckpoint (e : Bytes) (s : State) : State :=
  match slotNamed e with
  | some n => modSlot n (fun x => { x with pendingP := aheadP s.lease x }) s
  | none => s

/-- A checkpoint lies ahead of the counter of the slot an entry names (R200). -/
def leaseOk (s : State) (e : Bytes) : Bool :=
  match slotNamed e with
  | some n => decide ((s.slot n).a.count < (s.slot n).point)
  | none => true

/-! ## Binding (R69, R213) -/

/-- The copies of the generation a job is bound to: the current one, or the retiring one. -/
def boundCopies (s : State) (n gen : Nat) : SlotCopy × SlotCopy :=
  let x := s.slot n
  match x.retiring with
  | some r => if r.gen = gen then (r.a, r.b) else (x.a, x.b)
  | none => (x.a, x.b)

/-- Bind a job to the slot its entry names, at its first dispatch: generation, epoch and tenant (R72, R213). -/
def bindSlot (n : Nat) (s : State) (j : Job) : Job :=
  let a := (s.slot n).a.attr
  { j with slot := n, gen := attrGen a, epoch := attrEpoch a, tenant := attrTenant a }

/-- Put the keys of the bound generation, or of the session set, into the lane or core registers, each side under a fresh
mask of its generator: `ga` and `gb` (R83, R265). -/
def loadKeys (ga gb : Nat) (j : Job) (s : State) : Job × State :=
  let k : Masked × Masked := match slotNamed j.entry with
    | some n => let c := boundCopies s n j.gen; (c.1.key, c.2.key)
    | none => (j.keyA, j.keyB)
  let a := remask ga k.1 s
  let b := remask gb k.2 a.2
  ({ j with keyA := a.1, keyB := b.1 }, b.2)

/-! ## Blobs and new keys (R191, R203, R207) -/

/-- Fields of a slot blob's outer header (R203). -/
structure BlobHead where
  kind    : Nat
  slot    : Nat
  attr    : Nat
  limit   : Nat
  count   : Nat
  nb      : Nat
  na      : Nat
  binding : Bytes

/-- The outer header of a blob for key material of `kb` bytes. -/
def blobHead (h : BlobHead) (debug : Bool) (kb : Nat) : Bytes :=
  Bytes.ofLE 4 0x4B534647 ++ Bytes.ofLE 2 1 ++ Bytes.ofNats [h.kind + 128 * b2n debug, 0] ++ Bytes.ofLE 2 h.slot ++
    Bytes.ofLE 2 kb ++ Bytes.ofLE 4 (slotBlobLen kb) ++ Bytes.ofLE 8 h.attr ++ Bytes.ofLE 8 h.limit ++
    Bytes.ofLE 8 h.count ++ Bytes.ofLE 8 h.nb ++ Bytes.ofLE 8 h.na ++ h.binding.fit 8

/-- The device is in life-cycle state DEBUG. -/
def State.debug (s : State) : Bool := decide (s.life.lc = .debug)

/-- A slot blob: header and wrapped key (R203). -/
def makeBlob (wrapKey : Bytes) (h : BlobHead) (debug : Bool) (key : Bytes) : Bytes :=
  let o := blobHead h debug key.length
  o ++ kwpWrap wrapKey (o ++ key)

/-- The domain key, when slot 0 holds it (R190). -/
def State.domainKey (s : State) : Option Bytes :=
  if (s.slot 0).st = .loaded then some (s.slot 0).a.key.clear else none

/-- The domain key as each side reads it, from its own copy of slot 0 (R91, R195). -/
def State.domainKeys (s : State) : Bytes × Bytes := ((s.slot 0).a.key.clear, (s.slot 0).b.key.clear)

/-- The domain blob one side makes of its copy of a slot (R203). -/
def sideBlob (dk : Bytes) (n : Nat) (c : SlotCopy) (s : State) : Bytes :=
  makeBlob dk { kind := 0, slot := n, attr := c.attr, limit := c.limit, count := c.count, nb := c.nb, na := c.na
                binding := s.life.domId } s.debug c.key.clear

/-- The domain blob of a slot's working copies, which each side makes from its own; none when the two differ (R207). -/
def domainBlob (n : Nat) (a b : SlotCopy) (s : State) : Option Bytes :=
  let x := sideBlob s.domainKeys.1 n a s
  if x = sideBlob s.domainKeys.2 n b s then some x else none

/-- The generation after `g` (R191). -/
def nextGen (g : Nat) : Nat := if g ≥ 0xFFFF then 1 else g + 1

/-- The two copies of a key whose sides hold `ka` and `kb`, each under a fresh mask of its own (R195). -/
def freshCopies (c : SlotCopy) (ka kb : Bytes) (s : State) : (SlotCopy × SlotCopy) × State :=
  let a := maskKey 10 ka s
  let b := maskKey 11 kb a.2
  (({ c with key := a.1 }, { c with key := b.1 }), b.2)

/-- The two copies of a slot carried over, each changed by `h`, its key under a fresh mask of its own (R195). -/
def movedCopies (h : SlotCopy → SlotCopy) (x : Slot) (s : State) : (SlotCopy × SlotCopy) × State :=
  let a := remask 10 x.a.key s
  let b := remask 11 x.b.key a.2
  (({ h x.a with key := a.1 }, { h x.b with key := b.1 }), b.2)

/-- Place two copies in slot `n` under its next generation (R191, R207): its domain blob, its checkpoint. None when the
two sides' blobs differ, and then nothing is stored. -/
def placeKey (n : Nat) (c : SlotCopy × SlotCopy) (point : Nat) (s : State) : Option State :=
  let g := nextGen (s.slot n).lastGen
  let a := { c.1 with attr := attrWithGen c.1.attr g }
  let b := { c.2 with attr := attrWithGen c.2.attr g }
  (domainBlob n a b s).map fun blob => modSlot n (fun x => { x with
    st := .loaded, a := a, b := b, lastGen := g, genTime := s.now, point := point, pendingP := none
    reloadDue := false, blob := blob }) s

/-- Two sides that made different blobs: the slots among `l` whose copies disagree are marked BAD, and the command finds
its slot BAD (R198). DESIGN CHOICE (log entry 157): the manual compares the blobs and gives no status for it (R207). -/
def blobsDiffer (l : List Nat) (s : State) : Done × State :=
  ({ status := Status.keyAbsent, detail := 0x02 }, l.foldl (fun s n =>
    if (s.slot n).st = .loaded ∧ copiesAgree (s.slot n) = false then markBad n s else s) s)

/-- Public key of a slot's key, in the encoding of R256. -/
def publicOf (alg : Nat) (key : Bytes) : Bytes := (pkPublic alg key {}).fit (pubLen alg 0)

/-- The domain transport key K_DT of a domain key and identity (R242). -/
def transportKey (dk id : Bytes) : Bytes :=
  let n : Nat → Bytes := fun i =>
    Bytes.ofBE 4 i ++ Bytes.ascii "GLALET-DT-V1" ++ [0#8] ++ id.fit 16 ++ Bytes.ofBE 4 0x100
  cmac dk (n 1) ++ cmac dk (n 2)

/-- The domain transport key, when slot 1 holds it (R190, R242). -/
def State.transport (s : State) : Option Bytes :=
  if (s.slot 1).st = .loaded then some (s.slot 1).a.key.clear else none

/-! ## Reserved slots (R190, R241, R242) -/

/-- The copy of a reserved slot without its key: slots 0 and 1 wrap, 2 and 3 sign; tenant 0. -/
def reservedCopy (n : Nat) : SlotCopy :=
  { attr := if n ≤ 1 then mkAttr 0 0 0 8 3 0 else mkAttr 0 0 0 16 (if n = 2 then 0x09 else 0x14) 0 }

/-- A key in both copies of reserved slot `n`. -/
def putReserved (n : Nat) (ka kb : Bytes) (s : State) : State :=
  let r := freshCopies (reservedCopy n) ka kb s
  modSlot n (fun x => { x with st := .loaded, a := r.1.1, b := r.1.2, genTime := s.now, reloadDue := false }) r.2

/-- Slots 2 and 3, re-created from the device identity secret (R190, R450). -/
def putAttest (s : State) : State :=
  putReserved 3 (attestKey 0x14) (attestKey 0x14) (putReserved 2 (attestKey 0x09) (attestKey 0x09) s)

/-- Slots 0 and 1 from a domain key as each side has it, and its identity (R242). -/
def putDomain (dka dkb id : Bytes) (s : State) : State :=
  putReserved 1 (transportKey dka id) (transportKey dkb id) (putReserved 0 dka dkb s)

/-! ## Unwraps (R91, R204) -/

/-- The wrapped header equals the outer one; the key material (R204, conditions 2 and 3). -/
def blobKey (wk blob : Bytes) : Option Bytes :=
  match kwpUnwrap wk (blob.drop 64) with
  | some p => if p.take 64 = blob.take 64 ∧ p.length = 64 + blob.leAt 0x0A 2 then some (p.drop 64) else none
  | none => none

/-- The key of slot `n` as one side makes it again, `dk` being that side's copy of the domain key: slot 0 by an unwrap under
the Vesper root, slot 1 from the domain key, the attestation keys from the identity secret, others by an unwrap of their
blob (R190, R198, R450). -/
def sideKey (n : Nat) (dk : Bytes) (s : State) : Option Bytes :=
  if n = 0 then (if s.life.dkWrapped = [] then none else kwpUnwrap (s.life.rootMain.fit 32) s.life.dkWrapped)
  else if n = 2 then some (attestKey 0x09)
  else if n = 3 then some (attestKey 0x14)
  else if s.domainKey.isNone then none
  else if n = 1 then some (transportKey dk s.life.domId)
  else blobKey dk (s.slot n).blob

/-- The copy of a slot without its key, as a reload makes it: the counter resumes at the checkpoint (R200). -/
def reloadedCopy (n : Nat) (x : Slot) : SlotCopy :=
  if n < 64 then reservedCopy n
  else { attr := x.blob.leAt 0x10 8, count := x.point, limit := x.blob.leAt 0x18 6, nb := x.blob.leAt 0x28 8
         na := x.blob.leAt 0x30 8 }

/-- Slot `n` with its two copies made again, each by its own side; `okA` and `okB` say whether the store gave each side
what it holds whole. The slot is LOADED when both sides succeed and the copies agree (R198, step 4). -/
def reloadSlot (n : Nat) (okA okB : Bool) (s : State) : Bool × State :=
  let x := s.slot n
  match sideKey n s.domainKeys.1 s, sideKey n s.domainKeys.2 s with
  | some ka, some kb =>
    if okA && okB && decide (ka = kb) then
      let r := freshCopies (reloadedCopy n x) ka kb s
      (true, modSlot n (fun x => { x with st := .loaded, a := r.1.1, b := r.1.2, reloadDue := false }) r.2)
    else (false, s)
  | _, _ => (false, s)

/-! ## Session keys (R67 to R70) -/

/-- A session key set erased with its staging buffer (R67). -/
def eraseSet (x : SessionSet) : SessionSet := { klen := x.klen }

/-- Every session key set of function `f` erased (R70), KLEN with it. DESIGN CHOICE (log entry 153): R70 lists the key set, the staging
buffer, VALID and LOAD_ERR and not KLEN, which a CLEAR keeps. -/
def eraseSets (f : Nat) (s : State) : State := modFn f (fun g => { g with sk := [] }) s

/-- Every session key set of the device erased (R70), KLEN with it (DESIGN CHOICE, log entry 153, as in `eraseSets`). -/
def eraseAllSets (s : State) : State := { s with fns := s.fns.map fun p => (p.1, { p.2 with sk := [] }) }

end Sys2Proof.Machine
end

