-- ==== Sys2Proof/Machine/Fabric.lean ====
section
/-!
DEFINITION. The cipher fabric (chapter 3): dispatch to pairs, credits, the cipher jobs themselves, pair faults and their
recovery, and the voltage loop.
-/

namespace Sys2Proof.Machine

/-- The dummy rate k (R81). -/
def State.dummyRate (s : State) : Nat := s.param 0x3000 1 4

/-! ## Which job a pair takes (R109) -/

/-- Class a job is scheduled in (R105, R106). -/
def State.classOf (s : State) (j : Job) : JobClass :=
  match s.jq? j.ref.fn j.ref.jq with
  | some x => if x.cls = .urgent ∧ j.downgraded then .standard else x.cls
  | none => .bulk

/-- Staging slice of a cluster, in bytes (R25). -/
abbrev sliceBytes : Nat := 3 * 2 ^ 20

/-- A pair has room for one more job of the kind (R79, R80), and takes new work: a stand-in on its way back takes none
(R24). -/
def pairRoom (s : State) (p : Nat) (chain : Bool) : Bool :=
  let x := s.pair p
  x.leaving.isNone &&
  match x.jobs.head? with
  | none => true
  | some r => match s.job? r with
    | none => true
    | some k => (chained k.entry == chain) && decide (x.jobs.length < (if chain then 16 else 2))

/-- The hold-mode staging of a job fits in the slice of the pair's cluster (R57). -/
def stagingFits (s : State) (p : Nat) (j : Job) : Bool :=
  !holdMode (s.fn j.ref.fn).release j.entry ||
    decide (s.fab.slices.getD (p / 2) 0 + holdBytes j.entry ≤ sliceBytes)

/-- Everything but the lease that an uncommitted job needs before it may be committed (R73, R132, R136, R215). -/
def mayDispatch (s : State) (j : Job) : Bool :=
  s.regs.dispatchEn && !j.committed && j.header.isNone && j.outcome.isNone && decide ((s.fn j.ref.fn).run = .ready) &&
  s.fenceOk j && !waitsForReload s j.entry && (jobCheck s j.ref.fn j.entry).isNone

/-- A withdrawn job waits for an untried pair (R94). -/
def mayRetry (s : State) (p : Nat) (j : Job) : Bool :=
  s.regs.dispatchEn && j.withdrawn && !j.claim && j.outcome.isNone && !j.tried.contains p &&
  (match slotNamed j.entry with | some n => decide ((s.slot n).st ≠ .bad) | none => true)

/-- Pair `p` can take job `j` now (R21, R46, R57, R72, R94, R97). -/
def canTake (s : State) (p : Nat) (j : Job) : Bool :=
  let x := s.pair p
  isCipher j.op && decide ((s.fn j.ref.fn).cc > 0) &&
  (match x.st with
    | .bulk => true
    | .urgent => decide (s.classOf j = .urgent)
    | .halfA | .halfB => isCheck j.op
    | _ => false) &&
  (mayRetry s p j || (mayDispatch s j && leaseOk s j.entry)) &&
  (decide (j.op ≠ Op.seal) || !s.rng.salts.isEmpty) && stagingFits s p j && pairRoom s p (chained j.entry)

/-- A half pair that takes a check job takes it before any full pair (R97). -/
def halfTakes (s : State) (j : Job) : Bool :=
  (List.range 10).any fun q => (s.pair q).st.half && canTake s q j

/-- Jobs pair `p` can take. -/
def candidates (s : State) (p : Nat) : List Job :=
  s.jobs.filter fun j => canTake s p j && ((s.pair p).st.half || !halfTakes s j)

/-- The job that comes first: withdrawn jobs are at the head of their class (R93), then the earliest doorbell, then ring
order. -/
def earlierJob (s : State) (a b : Job) : Bool :=
  if a.withdrawn ≠ b.withdrawn then a.withdrawn
  else if a.arrival ≠ b.arrival then decide (a.arrival < b.arrival)
  else decide (s.place a.ref ≤ s.place b.ref)

/-- The first of a list of jobs. -/
def firstJob (s : State) : List Job → Option Job
  | [] => none
  | j :: r => match firstJob s r with
    | none => some j
    | some k => if earlierJob s j k then some j else some k

/-- The queue of class `c` that function `f` was served last (R109). -/
def Fn.turnOf (g : Fn) (c : JobClass) : Nat := if c = .bulk then g.turnB else g.turnD

/-- The job of class `c` of function `f` among `l`: a withdrawn one, else the first of the queue whose turn it is (R109).
The jobs an extension submits count as one queue more. -/
def jobOfFn (s : State) (f : Nat) (c : JobClass) (l : List Job) : Option Job :=
  let mine := l.filter fun j => decide (j.ref.fn = f)
  match firstJob s (mine.filter (·.withdrawn)) with
  | some j => some j
  | none =>
    match rotateAfter ((s.fn f).turnOf c)
        (((s.fn f).jqs.keys ++ [subQueue]).filter fun q => mine.any fun j => decide (j.ref.jq = q)) with
    | q :: _ => firstJob s (mine.filter fun j => decide (j.ref.jq = q))
    | [] => none

/-- Functions that have a job in `l`. -/
def fnsOf (s : State) (l : List Job) : List Nat := s.fns.keys.filter fun f => l.any fun j => decide (j.ref.fn = f)

/-- One tier and class of the choice: the function with the largest credit, ties in round-robin order after `last`. A
withdrawn job is at the head of the class (R93). -/
def tierPick (s : State) (credit : Fn → Int) (last : Nat) (c : JobClass) (l : List Job) : Option Job :=
  let fs := (fnsOf s l).filter fun f => decide (credit (s.fn f) > 0)
  match firstJob s (l.filter fun j => j.withdrawn && fs.contains j.ref.fn) with
  | some j => some j
  | none =>
    match argMax (fun f => credit (s.fn f)) (rotateAfter last fs) with
    | some f => jobOfFn s f c l
    | none => none

/-- Jobs of a class. -/
def ofClass (s : State) (c : JobClass) (l : List Job) : List Job := l.filter fun j => decide (s.classOf j = c)

/-- The work-conserving step: the function with the largest sum of credits; its standard job if any, else its bulk job. -/
def conservePick (s : State) (l : List Job) : Option Job :=
  match argMax (fun f => (s.fn f).mc + (s.fn f).ec) (rotateAfter s.fab.lastAny (fnsOf s l)) with
  | some f =>
    match jobOfFn s f .standard (ofClass s .standard l) with
    | some j => some j
    | none => jobOfFn s f .bulk (ofClass s .bulk l)
  | none => none

/-- The job the dispatcher places on pair `p`, and the step of R109 that chose it: 0 urgent, 1 minimum credit, 2 excess
credit, 3 work-conserving. -/
def pick (s : State) (p : Nat) : Option (Job × Nat) :=
  let l := candidates s p
  let urgent := firstJob s (ofClass s .urgent l)
  let plain := l.filter fun j => decide (s.classOf j ≠ .urgent)
  if (s.pair p).st = .urgent then urgent.map (·, 0)
  else
    (if s.fab.sc > 0 then urgent.map (·, 0) else none) <|>
    ((tierPick s (·.mc) s.fab.lastMc .standard (ofClass s .standard plain)).map (·, 1)) <|>
    ((tierPick s (·.mc) s.fab.lastMc .bulk (ofClass s .bulk plain)).map (·, 1)) <|>
    ((tierPick s (·.ec) s.fab.lastEc .standard (ofClass s .standard plain)).map (·, 2)) <|>
    ((tierPick s (·.ec) s.fab.lastEc .bulk (ofClass s .bulk plain)).map (·, 2)) <|>
    ((conservePick s plain).map (·, 3))

/-- Bulk pairs in the order in which they are offered work: idle ones, then those with a current job, lowest-numbered
first (R109). -/
def bulkOrder (s : State) : List Nat :=
  let b := (List.range 10).filter fun p => decide ((s.pair p).st = .bulk)
  b.filter (fun p => (s.pair p).jobs.isEmpty) ++ b.filter fun p => !(s.pair p).jobs.isEmpty

/-- It is pair `p`'s turn: no bulk pair before it in the order can take a job. -/
def pairTurn (s : State) (p : Nat) : Bool :=
  decide ((s.pair p).st ≠ .bulk) || ((bulkOrder s).takeWhile (· ≠ p)).all fun q => (pick s q).isNone

/-! ## Committing a job (R109, R199, R200) -/

/-- charge(): credits a job spends at its first dispatch (R109). -/
def chargeCredits (s : State) (p : Nat) (j : Job) : State :=
  let b : Int := chargeLen j.entry
  let g := s.fn j.ref.fn
  if s.classOf j = .urgent then
    let s1 := setFn j.ref.fn { g with cc := g.cc - b } s
    if (s.pair p).st = .bulk then { s1 with fab := { s1.fab with sc := s1.fab.sc - b } } else s1
  else
    let t := min b (max g.mc 0)
    setFn j.ref.fn { g with mc := g.mc - t, ec := g.ec - (b - t), cc := g.cc - b } s

/-- The queue a job of class `c` came from was served (R109). -/
def Fn.served (g : Fn) (c : JobClass) (q : Nat) : Fn := if c = .bulk then { g with turnB := q } else { g with turnD := q }

/-- Round-robin memory of the step that chose the job (R109). An urgent job and a withdrawn one are not chosen by queue,
and leave a function's turn. DESIGN CHOICE (log entry 154): a step of the two credit tiers remembers one function for both classes,
since the manual speaks of the function a step chose last and not of one for each class. -/
def noteTurn (j : Job) (step : Nat) (s : State) : State :=
  let s1 := if step = 0 ∨ j.withdrawn then s else modFn j.ref.fn (fun g => g.served (s.classOf j) j.ref.jq) s
  { s1 with fab :=
    (match step with
      | 1 => { s1.fab with lastMc := j.ref.fn }
      | 2 => { s1.fab with lastEc := j.ref.fn }
      | 3 => { s1.fab with lastAny := j.ref.fn }
      | _ => s1.fab) }

/-- Charge usage and bind the key at the first dispatch (R69, R199, R213). -/
def firstCommit (p : Nat) (j : Job) (s : State) : Job × State :=
  let s1 := chargeCredits s p j
  match slotNamed j.entry with
  | some n => ({ bindSlot n s1 j with charged := true }, chargeUsage n s1)
  | none =>
    let x := (s1.fn j.ref.fn).set (setOf j.entry)
    ({ j with charged := true, keyA := x.a, keyB := x.b, slot := 0, gen := 0 }, s1)

/-- The job needs a read before it can run. -/
def needsRead (e : Bytes) : Bool := decide (srcLenOf e ≠ 0) || decide ((opOf e = Op.seal ∨ opOf e = Op.unseal) ∧ aadLenOf e ≠ 0)

/-- Mask generators of the two sides of pair `p`'s cluster (R83). -/
def sideGen (p : Nat) : Nat × Nat := (2 * (p / 2), 2 * (p / 2) + 1)

/-- The job as it stands on a pair, its keys in the lanes: one more attempt, its reads issued. -/
def attempt (p : Nat) (salt : Bytes) (s : State) (j : Job) : Job :=
  { j with
    stage := .committed, engine := .pair p, pair := p, attempts := j.attempts + 1, tried := j.tried ++ [p]
    withdrawn := false, salt := salt, inA := [], inB := []
    hold := if holdMode (s.fn j.ref.fn).release j.entry then holdBytes j.entry else 0
    reads := if needsRead j.entry then .outstanding else .arrived }

/-- The two copies of a job's key differ. -/
def keysDiffer (j : Job) : Bool := decide (j.keyA.clear ≠ j.keyB.clear)

/-- A half pair found the two copies of a key different (R97): the slot is marked BAD, or the session set is erased with
an event, and the job completes with KEY_ABSENT. -/
def halfRefuses (j : Job) (s : State) : State :=
  match slotNamed j.entry with
  | some n => decideJob j.ref { status := Status.keyAbsent, detail := 0x02 } (markBad n s)
  | none =>
    decideJob j.ref { status := Status.keyAbsent, detail := 0x01 }
      (record 0x0901 1 (0x100 + j.ref.fn) (0x1000 + 0x40 * setOf j.entry)
        (s := modFn j.ref.fn (fun g => { g with sk := g.sk.set (setOf j.entry) (eraseSet (g.set (setOf j.entry))) }) s))

/-- The state without a charged job's own use of its slot, which its checks count no second time (R199). -/
def withoutOwn (j : Job) (s : State) : State :=
  match slotNamed j.entry with
  | some n => modSlot n (fun x => { x with a := { x.a with count := x.a.count - 1 } }) s
  | none => s

/-- The sides' parses differ from the dispatch record (R87): the entry is fetched and parsed once more, and a second
difference ends the job. -/
def intakeDiffers (j : Job) (s : State) : State :=
  let again := j.refetched
  let s1 := record 0x0105 2 j.ref.fn j.ref.index.toNat (if again then 2 else 1) j.ref.jq (s := setErr Block.cf 2 (bump 4 s))
  if again then
    modJob j.ref (fun _ => { j with stage := .committed, outcome := some { status := Status.fault, detail := 0x02 } }) s1
  else
    let e := match s.jq? j.ref.fn j.ref.jq with
      | some x => s.hostRead j.ref.fn (x.slotAt j.ref.index) (64 * j.len)
      | none => j.entry
    modJob j.ref (fun _ => { j with entry := e, stage := .committed, withdrawn := true, refetched := true
                                    outcome := jobCheck (withoutOwn j s) j.ref.fn e }) s1

/-- Place a job on a pair (R21, R46, R57, R77, R87, R97, R109). -/
def placeOnPair (p : Nat) (j : Job) (step : Nat) (intakeOk : Bool) (s : State) : State :=
  let r := if j.charged then (j, s) else firstCommit p j s
  let j1 := r.1
  let s1 := noteTurn j step r.2
  if !intakeOk then intakeDiffers j1 s1
  else
    let salt := if j.op = Op.seal then s1.rng.salts.headD [] else []
    let k := loadKeys (sideGen p).1 (sideGen p).2 j1 s1
    let j2 := attempt p salt s1 k.1
    let s2 := { k.2 with
      rng := { s1.rng with salts := if j.op = Op.seal then s1.rng.salts.drop 1 else s1.rng.salts }
      fab := { k.2.fab with slices := k.2.fab.slices.modify (p / 2) (· + j2.hold) } }
    let s3 := modJob j.ref (fun _ => j2)
      { s2 with fab := { s2.fab with pairs := s2.fab.pairs.set p { s2.pair p with jobs := (s2.pair p).jobs ++ [j.ref] } } }
    if (s.pair p).st.half && keysDiffer j2 then halfRefuses j2 s3 else s3

/-- A job that only its lease holds up has its slot's checkpoint write started, and is counted once (R200). -/
def noteLeaseWait (s : State) (j : Job) : State :=
  let s1 := startCheckpoint j.entry s
  if j.leaseWait then s1
  else setErr Block.ks 5 (bump 9 (modJob j.ref (fun k => { k with leaseWait := true }) s1))

/-- The jobs that only their lease holds up (R200). -/
def noteLeaseWaits (s : State) : State :=
  (s.jobs.filter fun j => !j.charged && mayDispatch s j && !leaseOk s j.entry).foldl noteLeaseWait s

/-- DISPATCH to pair `p` (R109). -/
def dispatchPair (p : Nat) (intakeOk : Bool) (s : State) : State :=
  if pairTurn s p then
    match pick s p with
    | some (j, step) => placeOnPair p j step intakeOk s
    | none => s
  else s

/-! ## Pair faults (R92 to R99) -/

/-- What an abandoned attempt of an UNSEAL leaves: a free number of plaintext bytes from the start, when it was
streaming (R53, R94). -/
def leaveTrace (j : Job) (s : State) : Nat × State :=
  if j.op = Op.unseal then
    if j.reads ≠ .none_ ∧ j.hold = 0 then
      let src := j.input 0 s
      let h := src.take 64
      if (headerRefusal j.entry h j.epoch).isSome then (j.written, s)
      else
        let n := Config.freeNat s.free % (srcLenOf j.entry - 63)
        (max j.written n, drewFree (hostWrite j.ref.fn (dstOf j.entry) ((unsealText j.keyA.clear j.tenant h (src.drop 64)).take n) s))
    else (j.written, s)
  else (j.written, disturb j s)

/-- Withdraw a job of a fenced pair (R93, step 4): the retry takes its claim (R429) until JOB_RETRY places it. -/
def withdraw (j : Job) (s : State) : State :=
  let r := leaveTrace j s
  modJob j.ref (fun k => { k with
    withdrawn := true, claim := true, engine := .none_, reads := .none_, salt := [], hold := 0, written := r.1
    inA := [], inB := []
    keyA := if sessionOf k.entry then k.keyA else {}, keyB := if sessionOf k.entry then k.keyB else {} }) (releaseHold j r.2)

/-- Change a pair. -/
def modPair (p : Nat) (h : Pair → Pair) (s : State) : State :=
  { s with fab := { s.fab with pairs := s.fab.pairs.set p (h (s.pair p)) } }

/-- A pair's state changes, with its PAIR_ROLE record (R24, R95). -/
def changeRole (p : Nat) (old new : PairState) (s : State) : State :=
  setErr Block.cf 5 (record 0x0103 3 p old.ctorIdx new.ctorIdx (s := modPair p (fun x => { x with st := new }) s))

/-- The pair that takes the place of a fenced one, if any (R24). -/
def replacement (s : State) (role : PairState) : Option Nat :=
  match (List.range 10).find? fun q => decide ((s.pair q).st = .spare) with
  | some q => if role = .bulk ∨ role = .urgent then some q else none
  | none => if role = .urgent then ((List.range 10).reverse).find? fun q => decide ((s.pair q).st = .bulk) else none

/-- The replacement takes the fenced pair's role for the duration of the fence (R24). -/
def standIn (p : Nat) (role : PairState) (s : State) : State :=
  match replacement s role with
  | some q =>
    let x := s.pair q
    changeRole q x.st role
      (modPair q (fun x => { x with stands := (p, x.leaving.getD x.st) :: x.stands, leaving := none }) s)
  | none => s

/-- Jobs of a pair that have not yet been decided. -/
def openJobs (s : State) (p : Nat) : List Job :=
  (s.pair p).jobs.filterMap fun r => (s.job? r).bind fun j => if j.outcome.isNone then some j else none

/-- Function and queue of the current job, for PAIR_FENCE. -/
def currentRef (l : List Job) : Nat :=
  match l with | j :: _ => j.ref.fn * 65536 + j.ref.jq | [] => 0

/-- Counters of the kind of fault. -/
def countCause (cause : Nat) (s : State) : State :=
  if cause = 3 then setErr Block.cf 1 (bump 5 s)
  else if cause = 4 then setErr Block.cf 0 (bump 6 s)
  else setErr Block.cf 2 s

/-- Fence times that still count (R96). -/
def recentFences (now : Nat) (l : List Nat) : List Nat := l.filter fun t => decide (now - t < 60 * second)

/-- fabric.fence.limit. -/
def State.fenceLimit (s : State) : Nat := s.param 0x3000 6 4

/-- Fence a pair (R93), or note a fault nested in its recovery (R425). -/
def fencePair (p cause : Nat) (s : State) : State :=
  let x := s.pair p
  if x.st = .fenced then
    let s1 := record 0x0101 3 p cause (nested := true) (s := bump 0x0F (countCause cause (modPair p (fun x => { x with nested := x.nested + 1 }) s)))
    if x.nested = 0 then s1 else escalate s1
  else if x.st.full || x.st.half then
    let l := openJobs s p
    let s1 := setErr Block.cf 4 (record 0x0101 3 p cause (currentRef l) l.length
      (s := bump 1 (countCause cause { s with regs := { s.regs with fences := satAdd s.regs.fences 0xFFFFFFFF } })))
    let times := s.now :: recentFences s.now x.fences
    let s2 := modPair p (fun x => { x with st := .fenced, role := x.st, nested := 0, fences := times
                                           spent := decide (times.length ≥ s.fenceLimit) }) s1
    let s3 := standIn p x.st s2
    let s4 := l.foldl (fun s j => withdraw j s) s3
    modPair p (fun x => { x with jobs := x.jobs.filter fun r => !l.any fun j => decide (j.ref = r) }) s4
  else s

/-- PAIR_FAULT (R92, R93). Causes: 1 egress, 2 intake, 3 illegal code, 4 stall, 5 skew. -/
def execPairFault (p cause : Nat) (s : State) : Outcome State := settled s (fencePair p cause s)

/-- State after the known-answer set, for a pair that held role `role` (R95, R97): a half pair keeps only its own lane. -/
def katOutcome (role : PairState) (a b : Bool) : PairState :=
  match role with
  | .halfA => if a then .halfA else .failed
  | .halfB => if b then .halfB else .failed
  | r => match a, b with
    | true, true => r
    | false, true => .halfB
    | true, false => .halfA
    | false, false => .failed

/-- The pair stands in for pair `p` no longer. The role it holds, when it took it for `p`, is its own for good, or it
returns to the one it held before; a role it took later for another pair has that one to return to instead (R24). -/
def Pair.stopFor (p : Nat) (keeps : Bool) (x : Pair) : Pair :=
  let later := x.stands.takeWhile fun e => decide (e.1 ≠ p)
  match x.stands.dropWhile fun e => decide (e.1 ≠ p) with
  | [] => x
  | e :: earlier =>
    if keeps then { x with stands := later }
    else match later.reverse with
      | [] => { x with stands := earlier, leaving := some e.2 }
      | l :: r => { x with stands := r.reverse ++ [(l.1, e.2)] ++ earlier }

/-- Pair `p` has rejoined, or (`keeps`) will not: the pair that stands in for it, if any, follows (R24). -/
def endStandIn (p : Nat) (keeps : Bool) (s : State) : State :=
  match (List.range 10).find? fun q => (s.pair q).stands.any fun e => decide (e.1 = p) with
  | some q => returnRole q (modPair q (Pair.stopFor p keeps) s)
  | none => s

/-- The state a known-answer verdict gives a fenced pair: one fenced too often, or at fault again meanwhile with both
lanes passing, is failed (R95, R96, R425). -/
def verdictState (x : Pair) (a b : Bool) : PairState :=
  let new := katOutcome x.role a b
  if x.spent || (decide (new = x.role) && decide (x.nested > 0)) then .failed else new

/-- PAIR_KAT_VERDICT (R95, R96). -/
def execPairKatVerdict (p : Nat) (a b : Bool) (s : State) : Outcome State :=
  let x := s.pair p
  if x.st = .fenced then
    let s1 := record 0x0102 3 p (b2n a + 2 * b2n b) (recentFences s.now x.fences).length (s := s)
    let new := verdictState x a b
    if new = x.role then
      settled s (endStandIn p false (returnRole p (modPair p (fun x => { x with st := new, nested := 0 }) s1)))
    else
      settled s (endStandIn p true (changeRole p .fenced new
        (modPair p (fun x => { x with nested := 0, stands := [], leaving := none }) s1)))
  else .next s

/-- SPARE_KAT (R98): the spare reserve runs its known-answer set. -/
def execSpareKat (a b : Bool) (s : State) : Outcome State :=
  match (List.range 10).find? fun q => decide ((s.pair q).st = .spare) with
  | none => .next s
  | some q =>
    let s1 := record 0x0102 3 q (b2n a + 2 * b2n b) 0 (s := s)
    let new := katOutcome .spare a b
    if new = .spare then settled s s1 else settled s (changeRole q .spare new s1)

/-- Some pair of the kind the job requires has not been tried and remains in service (R94, R99). -/
def untriedRemains (s : State) (j : Job) : Bool :=
  (List.range 10).any fun q => !j.tried.contains q && ((s.pair q).counts.full || (isCheck j.op && (s.pair q).counts.half))

/-- A withdrawn job ends here (R94, R198). -/
def retryEnd (s : State) (j : Job) : Option Done :=
  firstFail [
    (match slotNamed j.entry with | some n => decide ((s.slot n).st = .bad) | none => false,
      { status := Status.keyAbsent, detail := 0x02 }),
    (decide (j.attempts ≥ 3), { status := Status.fault, detail := 0x01 }),
    (!untriedRemains s j, { status := Status.degraded })]

/-- What ends a withdrawn job when its retry settles: a reaction suppressed meanwhile, or an expired timeout (R430). -/
def presentsAgain (s : State) (j : Job) : Option Done :=
  match j.stop with
  | some d => some d
  | none => if expired s j then some { status := Status.timeout, detail := 0x02 } else none

/-- JOB_RETRY (R94, R429 to R431): the retry settles and its claim is released. The job completes, or ends with the
reaction that presents itself again, or waits at the head of its class. -/
def execJobRetry (r : JobRef) (s : State) : Outcome State :=
  match s.job? r with
  | none => .next s
  | some j =>
    if j.withdrawn ∧ j.outcome = none then
      let s1 := modJob r (fun k => { k with claim := false, stop := none }) s
      match retryEnd s j with
      | some d => settledOn r.fn s (decideJob r d (scrub j s1))
      | none =>
        match presentsAgain s j with
        | some d =>
          if j.silent then settledOn r.fn s (decideJob r d (scrub j s1))
          else settledOn r.fn s (endJob { j with claim := false, stop := none } d false s1)
        | none => .next s1
    else .next s

/-! ## Cipher jobs (R45 to R66) -/

/-- The egress comparators have come to the job: a pair releases blocks in job order, while chained-mode jobs take turns
(R79, R80). -/
def atEgress (s : State) (j : Job) : Bool :=
  chained j.entry || (((openJobs s j.pair).map (·.ref)).head? == some j.ref)

/-- A job on a pair, its data arrived, its pair still running it. -/
def running (s : State) (r : JobRef) (op : Nat) : Option Job :=
  match s.job? r with
  | some j =>
    if j.op = op ∧ j.outcome = none ∧ j.reads = .arrived ∧ j.withdrawn = false ∧ (s.pair j.pair).jobs.contains r ∧
        j.committed = true ∧ atEgress s j = true then some j
    else none
  | none => none

/-- The two sides' copies of a job's key or of its data differ, so their outputs do. -/
def lanesDiffer (j : Job) : Bool := keysDiffer j || decide (j.inA ≠ j.inB)

/-- The mask generators of a cluster have served a job of one of its pairs: a free number of blocks, since the manual does
not say how many the dummies and rotations of a job take (R83). -/
def serveLanes (p : Nat) (s : State) : State :=
  let n := Config.freeNat s.free
  passBlocks (sideGen p).2 n (passBlocks (sideGen p).1 n (drewFree s))

/-- Run a cipher job's last step: a pair whose copies differ faults at its first egress comparison (R89, R196); a FLIT of its
output meets `resent` mismatches on its way out (R88). -/
def runCipher (r : JobRef) (op resent : Nat) (body : Job → State → State) (s : State) : Outcome State :=
  match running s r op with
  | none => .next s
  | some j =>
    if lanesDiffer j then settled s (fencePair j.pair 1 s)
    else transmits resent s fun t => settled s (serveLanes j.pair (body j t))

/-- Source data and tenant additional data of a job, as its A side holds them (R25). -/
def jobSrc (j : Job) : Bytes := j.inA.getD 0 []
def jobAad (j : Job) : Bytes := j.inA.getD 1 []

/-- SEAL (R45, R47): the ciphertext, then the header. -/
def sealJob (j : Job) (s : State) : State :=
  let frag := sealFragment j.keyA.clear j.tenant j.epoch j.gen j.salt j.entry (jobSrc j) (jobAad j)
  let s1 := hostWrite j.ref.fn (dstOf j.entry + 64) (frag.drop 64) s
  decideJob j.ref { status := okStatus j } (hostWrite j.ref.fn (dstOf j.entry) (frag.take 64) s1)

/-- SEAL. -/
def execSeal (j : JobRef) (resent : Nat) (s : State) : Outcome State := runCipher j Op.seal resent sealJob s

/-- Release an UNSEAL's staging and decide its completion; `n` destination bytes hold plaintext until its record is
issued. -/
def endUnseal (j : Job) (d : Done) (n : Nat) (s : State) : State :=
  decideJob j.ref d (modJob j.ref (fun k => { k with hold := 0, written := n }) (releaseHold j s))

/-- UNSEAL (R49 to R53, R57). -/
def unsealJob (j : Job) (s : State) : State :=
  let e := j.entry
  let src := jobSrc j
  let h := src.take 64
  match headerRefusal e h j.epoch with
  | some d => endUnseal j d 0 (scrub { j with reads := .none_ } s)
  | none =>
    let ct := src.drop 64
    let text := unsealText j.keyA.clear j.tenant h ct
    if unsealVerdict j.keyA.clear j.tenant h (jobAad j) ct then
      endUnseal j { status := okStatus j, detail := identityBits e h } text.length (hostWrite j.ref.fn (dstOf e) text s)
    else
      let n := if j.hold = 0 then max j.written text.length else j.written
      endUnseal j { status := Status.tagMismatch, detail := identityBits e h } 0
        (hostWrite j.ref.fn (dstOf e) (Bytes.zeros n) s)

/-- UNSEAL. -/
def execUnseal (j : JobRef) (resent : Nat) (s : State) : Outcome State := runCipher j Op.unseal resent unsealJob s

/-- CHECK_GEN (R59, R62). -/
def checkGenJob (j : Job) (s : State) : State :=
  decideJob j.ref { status := okStatus j }
    (hostWrite j.ref.fn (dstOf j.entry) (checkValue j.keyA.clear j.entry (jobSrc j)) s)

def execCheckGen (j : JobRef) (resent : Nat) (s : State) : Outcome State := runCipher j Op.checkGen resent checkGenJob s

/-- CHECK_VERIFY (R59, R62). -/
def checkVerifyJob (j : Job) (s : State) : State :=
  decideJob j.ref { status := if checkValue j.keyA.clear j.entry (jobSrc j) = j.entry.slice 0x40 16 then okStatus j
                              else Status.checkMismatch } s

def execCheckVerify (j : JobRef) (s : State) : Outcome State := runCipher j Op.checkVerify 0 checkVerifyJob s

/-- RAW_ENCRYPT and RAW_DECRYPT (R63 to R66, R477): the output, then NEXT_IV. -/
def rawJob (j : Job) (s : State) : State :=
  let src := jobSrc j
  let out := rawOutput j.keyA.clear j.entry src
  let s1 := hostWrite j.ref.fn (dstOf j.entry) out s
  decideJob j.ref { status := okStatus j }
    (if nextIvOf j.entry = 0 then s1 else hostWrite j.ref.fn (nextIvOf j.entry) (rawNextIv j.entry src out) s1)

/-- RAW_ENCRYPT. -/
def execRawEncrypt (j : JobRef) (resent : Nat) (s : State) : Outcome State := runCipher j Op.rawEncrypt resent rawJob s

/-- RAW_DECRYPT. -/
def execRawDecrypt (j : JobRef) (resent : Nat) (s : State) : Outcome State := runCipher j Op.rawDecrypt resent rawJob s

/-! ## Credits (R108) -/

/-- Functions with a standard or bulk job in run-ahead. -/
def activeFns (s : State) : List Nat :=
  s.fns.keys.filter fun f => s.jobs.any fun j =>
    decide (j.ref.fn = f) && decide (j.ref.jq ≠ 0) && !j.committed && decide (s.classOf j ≠ .urgent)

/-- Bytes one pair passes in a period of 10 µs. -/
def pairBytes (s : State) : Nat := (64 - s.dummyRate) * 2500000 / s.fab.cycle

/-- Bytes of a rate in Mbit/s in a period of 10 µs. -/
def rateBytes (mbit : Nat) : Nat := mbit * 5 / 4

/-- Credits of one active function after a rescale. -/
def accrue (c m e w : Nat) (g : Fn) : Fn :=
  let mine := if m ≤ c then rateBytes g.qosMin else rateBytes g.qosMin * c / m
  { g with
    mc := min (g.mc + mine) (2 * mine)
    ec := if g.cc > 0 then min (g.ec + ((e * g.qosWeight / w : Nat) : Int)) (16 * 2 ^ 20) else g.ec
    cc := min (g.cc + rateBytes g.qosCeil) (2 * rateBytes g.qosCeil) }

/-- Credits of a function without active jobs: it banks nothing. -/
def idleCredits (g : Fn) : Fn := { g with mc := min g.mc 0, ec := min g.ec 0 }

/-- CREDIT_RESCALE (R108); it stands still while the secure world is halted (R374). -/
def execCreditRescale (s : State) : Outcome State :=
  if !s.secureRuns then .next s else
  let act := activeFns s
  let c := ((s.fab.pairs.filter fun p => decide (p.st = .bulk)).length) * pairBytes s
  let m := (act.map fun f => rateBytes (s.fn f).qosMin).foldl (· + ·) 0
  let spill := min (pairBytes s) (c - m)
  let e := c - min m c - spill
  let w := ((act.filter fun f => decide ((s.fn f).cc > 0)).map fun f => (s.fn f).qosWeight).foldl (· + ·) 0
  let fns := s.fns.map fun p => (p.1, if act.contains p.1 then accrue c m e w p.2 else idleCredits p.2)
  let s1 := { s with fns := fns, fab := { s.fab with sc := spill, scaled := decide (m > c) } }
  if m > c then
    let s2 := bump 0x0B s1
    .next (if s.fab.scaled then s2 else record 0x0C02 0 (c * 1000 / m) (s := s2))
  else .next s1

/-! ## Voltage (R101 to R104) -/

/-- avs.enable. -/
def State.avsOn (s : State) : Bool := decide (s.param 0x3000 0x10 1 = 1)
/-- avs.target. -/
def State.avsTarget (s : State) : Nat := s.param 0x3000 0x11 800000

/-- AVS_CLK in kHz (R466): from REFCLK, or without it from the watch oscillator, so that the loop runs on. -/
def State.avsClock (s : State) : Nat := if s.clock.refclk then 10000 else 8000

/-- One AVSBus transaction succeeded (R103). -/
def avsOk (s : State) : State :=
  let n := s.fab.okRun + 1
  let s1 := { s with fab := { s.fab with okRun := n, failRun := 0 } }
  if s.fab.decHold ∧ n ≥ 10 then
    record 0x0C01 0 3 s.fab.cycle s.fab.vdd (s := { s1 with fab := { s1.fab with decHold := false } })
  else s1

/-- One AVSBus transaction failed (R103). -/
def avsFail (s : State) : State :=
  let n := s.fab.failRun + 1
  let s1 := bump 0x0C { s with fab := { s.fab with okRun := 0, failRun := n, avsFails := satAdd s.fab.avsFails 0xFF } }
  if n = 3 then
    let s2 := setErr Block.pw 4 { s1 with fab := { s1.fab with decHold := true } }
    if s.fab.decHold then s2 else record 0x0C01 1 1 s.fab.cycle s.fab.vdd (s := s2)
  else s1

/-- Attempt a transaction, retrying a failed one twice; `oks` says which attempts succeed. -/
def avsTry : Nat → List Bool → State → Bool × State
  | 0, _, s => (false, s)
  | n + 1, oks, s => if oks.headD true then (true, avsOk s) else avsTry n oks.tail (avsFail s)

/-- fabric.cycle above 1,800 ps at 900 mV is recorded once per excursion (R102). -/
def vlimitCheck (s : State) : State :=
  if s.fab.cycle > 1800 ∧ s.fab.vdd = 900 then
    if s.fab.vlimit then s
    else record 0x0C01 3 2 s.fab.cycle s.fab.vdd (s := setErr Block.pw 5 { s with fab := { s.fab with vlimit := true } })
  else { s with fab := { s.fab with vlimit := false } }

/-- The voltage the loop aims for (R101): t_goal is 1,700 ps, or 16,000,000 × (64 − k) / target if that is less. -/
def avsStep (k target t v : Nat) : Nat :=
  let n := 16000000 * (64 - k)
  let above := if n ≥ 1700 * target then decide (t * 100 > 1700 * 102) else decide (t * 100 * target > n * 102)
  let below := if n ≥ 1700 * target then decide (t * 100 < 1700 * 96) else decide (t * 100 * target < n * 96)
  let w := if t > 1750 then v + 20 else if above then v + 5 else if below && decide (t < 1700) then v - 5 else v
  max 620 (min w 900)

/-- Command a voltage (R101, R103); avs.vdd and the reference of GLITCH_CORE follow (R390). -/
def avsCommand (v : Nat) (oks : List Bool) (s : State) : State :=
  let r := avsTry 3 oks (emit (.avs s.fab.avsRail v) s)
  let s1 := if r.1 then { r.2 with fab := { r.2.fab with vdd := v }, vesper := { r.2.vesper with glitchRef := v } } else r.2
  { s1 with fab := { s1.fab with vddRead := s1.fab.vdd } }

/-- A read of the rail while avs.enable is 0 (R104): avs.vdd follows it, and the first such read is the reference of
GLITCH_CORE (R390). -/
def railRead (mv : Nat) (s : State) : State :=
  { s with fab := { s.fab with vddRead := mv }
           vesper := { s.vesper with refRead := true, glitchRef := if s.vesper.refRead then s.vesper.glitchRef else mv } }

/-- A read of the rail: its target voltage, and the status that tells of an alert (R101, R103). -/
def avsAsk (s : State) : State := emit (.avsStatus s.fab.avsRail) (emit (.avsRead s.fab.avsRail) s)

/-- AVS_LOOP (R101 to R104), with the period the cycle monitors measured, the outcome of each transaction attempted, and
the rail voltage read. It stands still while the secure world is halted (R374). -/
def execAvsLoop (cycle : Nat) (oks : List Bool) (mv : Nat) (s : State) : Outcome State :=
  let s0 := { s with fab := { s.fab with cycle := cycle }, vesper := { s.vesper with refRead := s.vesper.refRead && !s.avsOn } }
  if !s.secureRuns then .next s
  else if s.avsOn then
    let v := avsStep s.dummyRate s.avsTarget cycle s.fab.vdd
    let s1 :=
      if v > s.fab.vdd ∨ (v < s.fab.vdd ∧ s.fab.decHold = false) then avsCommand v oks s0
      else
        let r := if s.fab.decHold then avsTry 3 oks (avsAsk s0) else (true, s0)
        { r.2 with fab := { r.2.fab with vddRead := r.2.fab.vdd } }
    settled s (vlimitCheck s1)
  else settled s (railRead mv s0)

/-- AVS_GUARD (R102): above 1,780 ps, +20 mV at once. -/
def execAvsGuard (cycle : Nat) (oks : List Bool) (s : State) : Outcome State :=
  let s0 := { s with fab := { s.fab with cycle := cycle } }
  if s.avsOn ∧ cycle > 1780 then
    let v := min (s.fab.vdd + 20) 900
    settled s (vlimitCheck (if v = s.fab.vdd then s0 else avsCommand v oks s0))
  else settled s s0

/-! ## Mask generators (R83) -/

/-- Blocks a mask generator serves on one seeding before it asks for another (R83). -/
abbrev seedSpan : Nat := 2 ^ 20

/-- MASK_GENERATOR_RESEED: generator `g`, its blocks served, asks for reseeding, and goes on with its present seed. -/
def execMaskGeneratorReseed (g : Nat) (s : State) : Outcome State :=
  .next { s with fab := { s.fab with
    gens := s.fab.gens.modify g fun m => { m with asks := m.asks || decide (m.served ≥ seedSpan) } } }

/-! ## Checkpoints (R200) -/

/-- CHECKPOINT_WRITE_DONE: the checkpoint written becomes P. -/
def execCheckpointWriteDone (n : Nat) (s : State) : Outcome State :=
  match (s.slot n).pendingP with
  | none => .next s
  | some p => .next (modSlot n (fun x => { x with point := p, pendingP := none }) s)

end Sys2Proof.Machine
end

