-- ==== Sys2Proof/Machine/Pk.lean ====
section
/-!
DEFINITION. The public-key engine (chapter 8): commitment, cores and their schedule, input validation, the six
operations, yield and finish points, core faults.
-/

namespace Sys2Proof.Machine

/-! ## Job kinds -/

/-- PK_INPUT_INVALID with its detail. -/
abbrev invalid (d : Nat) : Done := { status := Status.pkInputInvalid, detail := d }
/-- CHECK_MISMATCH with its detail. -/
abbrev mismatch (d : Nat) : Done := { status := Status.checkMismatch, detail := d }

/-- The job needs output of the CTR_DRBG (R266). -/
def needsDraws (e : Bytes) : Bool :=
  let op := opOf e
  let alg := pkAlg e
  (op == Op.pkSign && (isP alg || isMlDsa alg)) || op == Op.pkEncaps || op == Op.pkKeygen

/-- A long job (R271). -/
def longJob (e : Bytes) : Bool :=
  pkAlg e == rsa && (opOf e == Op.pkKeygen ||
    ((opOf e == Op.pkSign || opOf e == Op.pkDecaps) && decide (modBits e ≥ 3072)))

/-- Input `i` of a job as its A side holds it. -/
def pkIn (j : Job) (i : Nat) : Bytes := j.inA.getD i []

/-- The B side's copy of an input (R267). -/
def pkInB (j : Job) (i : Nat) : Bytes := j.inB.getD i []

/-- RSA modulus length in bytes. -/
def modLen (j : Job) : Nat := modBits j.entry / 8

/-! ## Commitment (R262, R269) -/

/-- Places free in the engine queue. -/
def State.pkFree (s : State) : Nat := 32 - s.pk.queue.length

/-- The public-key job the dispatcher commits next: an urgent one first, then the earliest doorbell. -/
def pkPick (s : State) : Option Job :=
  let l := s.jobs.filter fun j => isPk j.op && mayDispatch s j && leaseOk s j.entry
  match firstJob s (ofClass s .urgent l) with
  | some j => some j
  | none => firstJob s l

/-- DISPATCH to the public-key engine. -/
def dispatchPk (s : State) : State :=
  if s.pkFree = 0 ∨ s.quiesced Block.pk = true then s
  else match pkPick s with
    | none => s
    | some j =>
      let r := match slotNamed j.entry with
        | some n => (bindSlot n s j, chargeUsage n s)
        | none => (j, s)
      let j' := { r.1 with stage := .committed, engine := .publicKey, charged := true
                           reads := if (List.range 4).any fun i => decide (inLen j.entry i ≠ 0) then .outstanding else .arrived }
      { modJob j.ref (fun _ => j') r.2 with pk := { r.2.pk with queue := r.2.pk.queue ++ [j.ref] } }

/-! ## RSA key blobs (R258, R259) -/

/-- Fields of clear RSA key material: E, N, P, Q, DP, DQ, QINV. -/
def rsaE (m : Bytes) : Nat := Bytes.toBE (m.slice 0 32)
def rsaN (k : Nat) (m : Bytes) : Nat := Bytes.toBE (m.slice 32 k)
def rsaP (k : Nat) (m : Bytes) : Nat := Bytes.toBE (m.slice (32 + k) (k / 2))
def rsaQ (k : Nat) (m : Bytes) : Nat := Bytes.toBE (m.slice (32 + k + k / 2) (k / 2))
def rsaQinv (k : Nat) (m : Bytes) : Nat := Bytes.toBE (m.slice (32 + 3 * k) (k / 2))

/-- The private key of clear material. -/
def rsaKeyIn (k : Nat) (m : Bytes) : RsaKey :=
  { e := rsaE m, n := rsaN k m, p := rsaP k m, q := rsaQ k m, dp := Bytes.toBE (m.slice (32 + 2 * k) (k / 2))
    dq := Bytes.toBE (m.slice (32 + 2 * k + k / 2) (k / 2)), qinv := rsaQinv k m }

/-- The material of a private key. -/
def rsaMaterial (k : Nat) (x : RsaKey) : Bytes :=
  Bytes.ofBE 32 x.e ++ Bytes.ofBE k x.n ++ [x.p, x.q, x.dp, x.dq, x.qinv].flatMap (Bytes.ofBE (k / 2))

/-- The header of an RSA key blob. -/
def rsaHead (use ex debug bits tenant slot epoch created : Nat) (nE : Bytes) : Bytes :=
  Bytes.ofLE 4 0x52534647 ++ Bytes.ofLE 2 1 ++ Bytes.ofNats [use + 2 * ex + 128 * debug, 0] ++ Bytes.ofLE 2 bits ++
    Bytes.ofLE 2 tenant ++ Bytes.ofLE 4 (rsaBlobLen (bits / 8)) ++ Bytes.ofLE 2 slot ++ Bytes.ofLE 2 epoch ++
    Bytes.zeros 4 ++ Bytes.ofLE 8 created ++ (sha384 nE).take 16 ++ Bytes.zeros 16

/-- The clear key material of a blob, unwrapped under `wk`; the copy of the header inside equals the outer one. -/
def rsaUnwrap (wk blob : Bytes) : Option Bytes :=
  match kwpUnwrap wk (blob.drop 64) with
  | some p => if p.take 64 = blob.take 64 then some (p.drop 64) else none
  | none => none

/-- R259: the refusal of a blob, if any. -/
def rsaBlobRefusal (j : Job) (debug : Bool) (blob : Bytes) : Option Done :=
  let k := modLen j
  let m := (rsaUnwrap j.keyA.clear blob).getD []
  let use := b2n (j.op == Op.pkDecaps)
  firstFail [
    (decide (blob.leAt 0 4 ≠ 0x52534647) || decide (blob.leAt 4 2 ≠ 1) || decide ((blob.at_ 6).toNat / 4 % 32 ≠ 0) ||
      decide (blob.at_ 7 ≠ 0) || !blob.zeroAt 0x14 4 || !blob.zeroAt 0x30 16 || decide (blob.leAt 8 2 ≠ modBits j.entry) ||
      decide (blob.leAt 0xC 4 ≠ blob.length) || (rsaUnwrap j.keyA.clear blob).isNone ||
      (rsaUnwrap j.keyB.clear blob).isNone || decide (m.length ≠ 32 + k + 5 * k / 2), invalid 0x07),
    (decide (blob.leAt 0xA 2 ≠ j.tenant) || decide (blob.leAt 0x10 2 ≠ j.slot) || decide (blob.leAt 0x12 2 ≠ j.epoch) ||
      decide ((blob.at_ 6).getLsbD 7 ≠ debug) || decide ((blob.at_ 6).toNat % 2 ≠ use), invalid 0x08),
    (decide (rsaP k m * rsaQ k m ≠ rsaN k m) || decide (rsaP k m / 2 ^ (4 * k - 1) ≠ 1) ||
      decide (rsaQ k m / 2 ^ (4 * k - 1) ≠ 1) || decide (rsaQinv k m * rsaQ k m % rsaP k m ≠ 1) ||
      decide (rsaE m % 2 = 0) || decide (rsaE m < 3) || decide (rsaE m ≥ rsaN k m), invalid 0x05)]

/-! ## Input validation (R263) -/

/-- Refusal of a public key or peer key of an algorithm. -/
def pubRefusal (alg k : Nat) (b : Bytes) : Option Done :=
  if isP alg then
    let c := nistCurve alg
    let q := c.coords b
    firstFail [(decide (b.at_ 0 ≠ 4), invalid 0x01), (decide (q.1 ≥ c.p) || decide (q.2 ≥ c.p), invalid 0x02),
      (!c.holds q.1 q.2, invalid 0x03)]
  else if isEd alg then
    match (edCurve alg).decode b with
    | none => some (invalid 0x01)
    | some q => if (edCurve alg).smallOrder q then some (invalid 0x04) else none
  else if alg = rsa then
    let n := Bytes.toBE (b.slice 0 k)
    let e := Bytes.toBE (b.slice k 32)
    firstFail [(decide (n % 2 = 0) || decide (n / 2 ^ (8 * k - 1) ≠ 1) || decide (e % 2 = 0) || decide (e < 3) ||
      decide (e ≥ n), invalid 0x05)]
  else if isMlKem alg then firstFail [(!kemCheck alg b, invalid 0x06)]
  else none

/-- Refusal of a slot's private scalar. -/
def scalarRefusal (alg : Nat) (key : Bytes) : Option Done :=
  if isP alg ∧ (Bytes.toBE key = 0 ∨ Bytes.toBE key ≥ (nistCurve alg).n) then some (invalid 0x02) else none

/-- An agreement's shared secret. -/
def agreed (j : Job) : Bytes := pkAgree (pkAlg j.entry) j.keyA.clear (pkIn j 0) j.rep.blind

/-- Public key a verification uses: the host's, or that of the slot (R257). -/
def verifyKey (j : Job) : Bytes :=
  if pkPubSlot j.entry then publicOf (pkAlg j.entry) j.keyA.clear else pkIn j 2

/-- What a core refuses before it computes (R259, R261, R263). -/
def inputRefusal (j : Job) (debug : Bool) : Option Done :=
  let alg := pkAlg j.entry
  let k := modLen j
  let blob := pkIn j 3
  let op := j.op
  if op = Op.pkSign then
    if alg = rsa then rsaBlobRefusal j debug blob else scalarRefusal alg j.keyA.clear
  else if op = Op.pkVerify then pubRefusal alg k (verifyKey j)
  else if op = Op.pkAgree then
    match pubRefusal alg k (pkIn j 0) with
    | some d => some d
    | none =>
      match scalarRefusal alg j.keyA.clear with
      | some d => some d
      | none => if isX alg && Bytes.allZero (agreed j) then some (invalid 0x04) else none
  else if op = Op.pkEncaps then pubRefusal alg k (pkIn j 0)
  else if op = Op.pkDecaps ∧ alg = rsa then
    match rsaBlobRefusal j debug blob with
    | some d => some d
    | none =>
      let n := rsaN k ((rsaUnwrap j.keyA.clear blob).getD [])
      let c := Bytes.toBE (pkIn j 0)
      firstFail [(decide (pkMode j.entry = 0) && !(blob.at_ 6).getLsbD 1, { status := Status.keyPolicy, detail := 0x05 }),
        (decide (c ≤ 1) || decide (c ≥ n - 1), invalid 0x02)]
  else none

/-! ## Cores (R262, R269, R271) -/

/-- Core `c`. -/
def State.core (s : State) (c : Nat) : PkCore := s.pk.cores.getD c {}

/-- Change a core. -/
def modCore (c : Nat) (h : PkCore → PkCore) (s : State) : State :=
  { s with pk := { s.pk with cores := s.pk.cores.set c (h (s.core c)) } }

/-- The draws of a job suffice (R266): a value of each kind the operation takes can be read off them. -/
def drawsReady (j : Job) : Bool :=
  let e := j.entry
  let alg := pkAlg e
  if !needsDraws e then true
  else if j.op = Op.pkSign then
    if isP alg then (drawScalar Config.extraBits (nistCurve alg).n j.draws).isSome else decide (j.draws.length ≥ 32)
  else if j.op = Op.pkEncaps then
    if alg = rsa then
      (pubRefusal alg (modLen j) (pkIn j 0)).isSome ||
        (drawZ (modLen j) (Bytes.toBE ((pkIn j 0).take (modLen j))) j.draws).isSome
    else decide (j.draws.length ≥ 32)
  else if alg = rsa then (freshPrimes (modBits e) j.draws).isSome
  else (freshKey alg j.draws).isSome

/-- Queued jobs that can start: reads arrived, draws ready (R266). -/
def startable (s : State) : List Job :=
  s.pk.queue.filterMap fun r => (s.job? r).bind fun j =>
    if j.outcome.isNone && decide (j.reads = .arrived) && drawsReady j then some j else none

/-- Core `c` may take a job: a restarted one goes to another core than the one that failed it, while another is ACTIVE
(R268). -/
def mayTake (s : State) (c : Nat) (j : Job) : Bool :=
  j.badCore != some c || !(s.pk.cores.zipIdx.any fun x => decide (x.2 ≠ c) && decide (x.1.st = .active))

/-- A restarted job first (R268), then urgent jobs, then the others; functions in round-robin order, and the oldest job of
the chosen function (R269). -/
def corePick (s : State) (l : List Job) : Option Job :=
  match l.find? fun j => decide (j.restarts > 0) with
  | some j => some j
  | none =>
    let u := ofClass s .urgent l
    let m := if u.isEmpty then l else u
    match rotateAfter s.pk.turnFn (fnsOf s m) with
    | f :: _ => m.find? fun j => decide (j.ref.fn = f)
    | [] => none

/-- pk.park.max_us. -/
def State.parkMax (s : State) : Nat := s.param 0x3200 1 1000

/-- Total time a parked job has been parked. -/
def parkedTime (s : State) (c : PkCore) (j : Job) : Nat := j.parkedFor + (s.now - c.parkedAt)

/-- A short job waits. -/
def shortWaits (s : State) : Bool := (startable s).any fun j => !longJob j.entry

/-- The parked job of a core is due to resume (R271). -/
def resumeDue (s : State) (c : PkCore) : Bool :=
  match c.parked.bind s.job? with
  | some j => !shortWaits s || elapsedUs (parkedTime s c j) 0 s.parkMax
  | none => false

/-- Bring a core's parked job back. -/
def resumeParked (c : Nat) (s : State) : State :=
  let x := s.core c
  match x.parked with
  | none => s
  | some r =>
    modJob r (fun j => { j with parkedFor := parkedTime s x j })
      (modCore c (fun x => { x with cur := some r, parked := none }) s)

/-- Mask generator of the public-key engine (R266). -/
abbrev pkGen : Nat := 12

/-- A fresh representation for an attempt: where the engine's mask generator stands, and its keys under fresh masks
(R265, R266). -/
def present (j : Job) (s : State) : Job × State :=
  let m := s.fab.gens.getD pkGen {}
  loadKeys pkGen pkGen { j with rep := { key := m.key, ctr := m.ctr } } (passBlocks pkGen (Rep.blinds + Rep.shares) s)

/-- A core takes a job: its key copies are compared, and its inputs validated (R262, R263). A refused job leaves the core
with its completion. -/
def takeJob (c : Nat) (j : Job) (s : State) : State :=
  let r := present j s
  let j1 := r.1
  let s1 := modJob j.ref (fun _ => j1) (modCore c (fun x => { x with cur := some j.ref })
    { r.2 with pk := { s.pk with queue := s.pk.queue.filter fun r => decide (r ≠ j.ref), turnFn := j.ref.fn } })
  if keysDiffer j1 then
    leavePk j.ref (decideJob j.ref { status := Status.keyAbsent, detail := 0x02 } (markBad j1.slot s1))
  else match inputRefusal j1 s.debug with
    | some d => leavePk j.ref (decideJob j.ref d s1)
    | none => s1

/-- PK_JOB_START (R269): a free core resumes its parked job or takes the next one. -/
def execPkJobStart (core : Nat) (s : State) : Outcome State :=
  let x := s.core core
  if x.st = .active ∧ x.cur = none ∧ s.quiesced Block.pk = false then
    if resumeDue s x then .next (resumeParked core s)
    else
      match corePick s ((startable s).filter (mayTake s core)) with
      | some j => settled s (takeJob core j s)
      | none => .next s
  else .next s

/-! ## The operations -/

/-- The job is the one its core runs, and its result is not yet known. -/
def computing (s : State) (r : JobRef) (op : Nat) : Option Job :=
  match s.job? r with
  | some j =>
    if j.op = op ∧ j.outcome = none ∧ j.result = none ∧ (s.pk.cores.any fun c => decide (c.cur = some r)) = true then some j
    else none
  | none => none

/-- A job whose draws held no usable value gives its core back and draws again, at the head of the engine queue. -/
def drawAgain (j : Job) (s : State) : State :=
  let s1 := leavePk j.ref s
  { modJob j.ref (fun k => { k with inA := j.inA, inB := j.inB }) s1 with pk := { s1.pk with queue := j.ref :: s1.pk.queue } }

/-- Compute an operation's result; it is released at the finish point (R267). It may draw a free value. -/
def compute (r : JobRef) (op : Nat) (body : Job → State → Option PkResult) (s : State) : Outcome State :=
  match computing s r op with
  | none => .next s
  | some j =>
    match body j s with
    | some p => .next (modJob r (fun k => { k with result := some p }) (drewFree s))
    | none => .next (drawAgain j s)

/-- Status of a public-key job that succeeded. -/
def pkOk (j : Job) (r0 : Nat := 0) (r1 : Nat := 0) : Done := { status := okStatus j, r0 := r0, r1 := r1 }

/-- The private key of a job with an RSA blob. -/
def jobRsaKey (j : Job) : RsaKey := rsaKeyIn (modLen j) ((rsaUnwrap j.keyA.clear (pkIn j 3)).getD [])

/-- What ECDSA and RSA sign of a message: its digest, or the input itself (R254). -/
def digestFor (e m : Bytes) : Bytes := if pkPre e then m else digestOf (pkHash e) m

/-- What a signature other than RSA's signs: message `m` with context `ctx`. -/
def signedOf (e m ctx : Bytes) : Signed := { digest := digestFor e m, ctx := ctx, msg := m }

/-- The detail of a check that failed (R267). -/
def checkOf (ok : Bool) (detail : Nat) : Option Nat := if ok then none else some detail

/-- RSA signature of a message given on both sides; the PSS salt is a free value, which the manual draws from nowhere. -/
def rsaSign (j : Job) (salt : Bytes) : Bytes × Bool :=
  let k := modLen j
  let em m := Bytes.toBE (rsaEncode (pkHash j.entry) k (pkV15 j.entry) (digestFor j.entry m) salt)
  let r := (jobRsaKey j).apply (em (pkIn j 0)) (em (pkInB j 0)) j.rep.blind
  (Bytes.ofBE k r.1, r.2)

/-- PK_SIGN (R255, R267). -/
def signResult (j : Job) (s : State) : Option PkResult :=
  let e := j.entry
  let alg := pkAlg e
  let n := sigLen alg (modLen j)
  if alg = rsa then
    let r := rsaSign j ((List.range (saltLen e)).map (Config.freeByte s.free))
    some { done := pkOk j n, out0 := r.1, check := checkOf r.2 0x03 }
  else
    (pkSign alg j.keyA.clear (signedOf e (pkIn j 0) (pkIn j 3)) j.draws j.rep).map fun sig =>
      { done := pkOk j n, out0 := sig
        check := if isMlDsa alg then checkOf (dsaNormsOk alg sig) 0x04
          else checkOf (pkVerifies alg (publicOf alg j.keyA.clear) (signedOf e (pkInB j 0) (pkInB j 3)) sig) 0x01 }

def execPkSign (j : JobRef) (s : State) : Outcome State := compute j Op.pkSign signResult s

/-- A component of a signature is out of range or malformed (R263). -/
def sigMalformed (alg k : Nat) (pub sig : Bytes) : Bool :=
  if alg = rsa then decide (Bytes.toBE sig ≥ Bytes.toBE (pub.slice 0 k)) else sigOutOfRange alg sig

/-- The verification equation of a signature in range, for the message, signature and context of one side (R267). -/
def equationHolds (j : Job) (pub m sig ctx : Bytes) : Bool :=
  let e := j.entry
  let k := modLen j
  if pkAlg e = rsa then
    rsaVerify (pkHash e) k (saltLen e) (pkV15 e) (Bytes.toBE (pub.slice 0 k)) (Bytes.toBE (pub.slice k 32)) (digestFor e m) sig
  else pkVerifies (pkAlg e) pub (signedOf e m ctx) sig

/-- PK_VERIFY (R263): the comparison is evaluated twice (R267). -/
def verifyResult (j : Job) : PkResult :=
  let pub := verifyKey j
  let ok := equationHolds j pub (pkIn j 0) (pkIn j 1) (pkIn j 3)
  let okB := equationHolds j pub (pkInB j 0) (pkInB j 1) (pkInB j 3)
  if sigMalformed (pkAlg j.entry) (modLen j) pub (pkIn j 1) then { done := mismatch 0x02 }
  else { done := if ok then pkOk j else mismatch 0x01, check := checkOf (ok == okB) 0x07 }

def execPkVerify (j : JobRef) (s : State) : Outcome State := compute j Op.pkVerify (fun j _ => some (verifyResult j)) s

/-- The two halves of a fresh key pair agree (R267): a signature verifies, or a secret comes back. -/
def pairwise (alg : Nat) (key pub : Bytes) : Bool :=
  if isP alg then ((nistCurve alg).sign (Bytes.toBE key) 1 (Bytes.zeros 32) {}).any ((nistCurve alg).verify pub (Bytes.zeros 32))
  else if isX alg then decide (montPub alg key {} = pub)
  else if isMlKem alg then
    let r := kemEncaps alg pub (Bytes.zeros 32)
    decide (kemDecaps alg key r.2 [] = r.1)
  else (pkSign alg key {} (Bytes.zeros 32) {}).any (pkVerifies alg pub {})

/-- PK_KEYGEN for RSA (R260): E is 65,537. -/
def rsaKeygen (j : Job) (s : State) (p q : Nat) : PkResult :=
  let e := j.entry
  let k := modLen j
  let key := rsaKeyOf p q
  let nE := Bytes.ofBE k key.n ++ Bytes.ofBE 32 key.e
  let h := rsaHead (b2n (bit (newUses e) 5)) (newExport e) (b2n s.debug) (modBits e) j.tenant j.slot j.epoch s.now nE
  let blob := h ++ kwpWrap j.keyA.clear (h ++ rsaMaterial k key)
  { done := pkOk j nE.length blob.length, out0 := nE, out1 := blob, check := checkOf (key.apply 2 2 j.rep.blind).2 0x06 }

/-- PK_KEYGEN for every other algorithm (R260). -/
def blobKeygen (j : Job) (s : State) (key : Bytes) : PkResult :=
  let e := j.entry
  let alg := pkAlg e
  let pub := pkPublic alg key j.rep.blind
  let blob := makeBlob j.keyA.clear
    { kind := 1, slot := 0, attr := mkAttr j.tenant 0 (newEpoch e) (newUses e) alg (newExport e), limit := 0, count := 0
      nb := 0, na := 0, binding := Bytes.ofLE 2 j.slot ++ Bytes.ofLE 2 j.epoch ++ Bytes.zeros 4 } s.debug key
  { done := pkOk j pub.length blob.length, out0 := pub, out1 := blob, check := checkOf (pairwise alg key pub) 0x06 }

/-- PK_KEYGEN (R260): the public key, and the private key wrapped under the slot. -/
def keygenResult (j : Job) (s : State) : Option PkResult :=
  if pkAlg j.entry = rsa then (freshPrimes (modBits j.entry) j.draws).map fun x => rsaKeygen j s x.1 x.2
  else (freshKey (pkAlg j.entry) j.draws).map fun x => blobKeygen j s x.1

def execPkKeygen (j : JobRef) (s : State) : Outcome State := compute j Op.pkKeygen keygenResult s

/-- The key an output mode 1 derives from a shared secret (R261). -/
def derivedKey (j : Job) (tenant : Nat) (z : Bytes) : Bytes :=
  hkdf384 (pkIn j 2) z (Bytes.ascii "GLALET-PKD-V1" ++ Bytes.ofBE 2 tenant ++ pkIn j 1) 32

/-- A shared secret to the host, or derived into a new slot (R261); `first` is what OUT0 receives before it. -/
def secretResult (j : Job) (first : Option Bytes) (z : Bytes) (s : State) : PkResult :=
  if pkMode j.entry = 0 then
    match first with
    | some c => { done := pkOk j c.length z.length, out0 := c, out1 := z }
    | none => { done := pkOk j z.length, out0 := z }
  else
    let c := first.getD []
    { done := pkOk j c.length, out0 := c, key := derivedKey j (s.fn j.ref.fn).tenant z }

/-- PK_AGREE (R261). -/
def execPkAgree (j : JobRef) (s : State) : Outcome State :=
  compute j Op.pkAgree (fun j s => some (secretResult j none (agreed j) s)) s

/-- Ciphertext and secret of an encapsulation; none while the draws hold no value for it. -/
def encapsulate (j : Job) : Option (Bytes × Bytes) :=
  let k := modLen j
  let pub := pkIn j 0
  if pkAlg j.entry = rsa then
    let n := Bytes.toBE (pub.take k)
    (drawZ k n j.draws).map fun z => (Bytes.ofBE k (powMod z (Bytes.toBE (pub.slice k 32)) n), Bytes.ofBE k z)
  else (pkEncaps (pkAlg j.entry) pub j.draws).map fun x => (x.2, x.1)

/-- PK_ENCAPS (R255, R261). -/
def encapsResult (j : Job) (s : State) : Option PkResult := (encapsulate j).map fun x => secretResult j (some x.1) x.2 s

def execPkEncaps (j : JobRef) (s : State) : Outcome State := compute j Op.pkEncaps encapsResult s

/-- PK_DECAPS (R261, R267). -/
def decapsResult (j : Job) (s : State) : PkResult :=
  let alg := pkAlg j.entry
  if alg = rsa then
    let r := (jobRsaKey j).apply (Bytes.toBE (pkIn j 0)) (Bytes.toBE (pkInB j 0)) j.rep.blind
    { secretResult j none (Bytes.ofBE (modLen j) r.1) s with check := checkOf r.2 0x03 }
  else
    let z := kemDecaps alg j.keyA.clear (pkIn j 0) j.rep.mask
    { secretResult j none z s with check := checkOf (z == kemDecaps alg j.keyB.clear (pkInB j 0) j.rep.mask) 0x05 }

def execPkDecaps (j : JobRef) (s : State) : Outcome State := compute j Op.pkDecaps (fun j s => some (decapsResult j s)) s

/-! ## Yield points and outputs (R270 to R275) -/

/-- A stopped job ends with the status of what stopped it; a drained job leaves its core and stays for the drain, and a
job of a function under reset has no record (R273). -/
def endStopped (j : Job) (d : Done) (s : State) : State :=
  if j.silent then (if (s.fn j.ref.fn).run = .resetting then dropJob j s else leavePk j.ref s)
  else writeMirror j.ref.fn (s.cqOf j.ref) (completeJob j d s)

/-- A long job may be parked on core `c` here, for a job that waits (R271). -/
def mayPark (s : State) (n : Nat) (c : PkCore) (j : Job) : Bool :=
  longJob j.entry && c.parked.isNone && (startable s).any (mayTake s n) &&
  !(s.pk.cores.any fun x => decide (x.st = .active) && x.cur.isNone) && !elapsedUs j.parkedFor 0 s.parkMax

/-- PK_YIELD_POINT: the job stops here if something stops it, or is parked for a waiting one. -/
def execPkYieldPoint (core : Nat) (s : State) : Outcome State :=
  let x := s.core core
  match x.cur.bind s.job? with
  | none => .next s
  | some j =>
    match j.stop with
    | some d => settledOn j.ref.fn s (endStopped j d s)
    | none =>
      if j.result.isNone && mayPark s core x j then
        let s1 := modCore core (fun x => { x with cur := none, parked := some j.ref, parkedAt := s.now }) s
        match corePick s1 ((startable s1).filter (mayTake s1 core)) with
        | some k => settled s (takeJob core k s1)
        | none => .next s
      else .next s

/-- The new slot of an output mode 1, checked again (R262, check 8), and its key placed (R261). -/
def placeSecret (j : Job) (p : PkResult) (s : State) : Done × State :=
  if pkToSlot j.entry then
    match firstFail (newSlotRows s j.ref.fn j.entry) with
    | some d => (d, s)
    | none =>
      match s.targetSlot (newSlot j.entry) with
      | none => (bad 0x20, s)
      | some n =>
        let a := mkAttr (s.fn j.ref.fn).tenant 0 (newEpoch j.entry) (newUses j.entry) 0x03 (newExport j.entry)
        let c := freshCopies { attr := a } p.key p.key s
        match placeKey n c.1 (pointFrom s.lease 0 0) c.2 with
        | some t => ({ p.done with r1 := n + 65536 * attrGen (t.slot n).a.attr }, t)
        | none => blobsDiffer [0] s
  else (p.done, s)

/-- The outputs of a public-key job. -/
def writeOuts (j : Job) (p : PkResult) (s : State) : State :=
  hostWrite j.ref.fn (outAddr j.entry 1) p.out1 (hostWrite j.ref.fn (outAddr j.entry 0) p.out0 s)

/-- A public-key result succeeded. -/
def isOk (d : Done) : Bool := d.status == Status.ok || d.status == Status.okRetried

/-! ## Core faults (R268) -/

/-- Faults of a core that still count. -/
def recentFaults (now : Nat) (l : List Nat) : List Nat := l.filter fun t => decide (now - t < 60 * second)

/-- The job of a faulting core: restarted once at the head of the engine queue, its draws fresh; a second fault ends it,
and a job that something has stopped is not restarted (R429). -/
def restartJob (core : Nat) (j : Job) (detail : Nat) (s : State) : State :=
  let s1 := leavePk j.ref s
  match j.stop with
  | some d => endStopped j d s1
  | none =>
    if j.restarts = 0 then
      { modJob j.ref (fun k => { k with restarts := 1, badCore := some core, inA := j.inA, inB := j.inB }) s1 with
        pk := { s1.pk with queue := j.ref :: s1.pk.queue } }
    else decideJob j.ref { status := Status.pkFault, detail := detail } s1

/-- A core fails for good: a job parked on it goes back to the queue, from its beginning. -/
def failCore (c : Nat) (s : State) : State :=
  let x := s.core c
  let s1 := modCore c (fun x => { x with st := .failed, cur := none, parked := none }) s
  match x.parked with
  | some r => { modJob r (fun k => { eraseContext k with inA := k.inA, inB := k.inB }) s1 with pk := { s1.pk with queue := r :: s1.pk.queue } }
  | none => s1

/-- The invariant checks an operation passes (R267), by their details. -/
def checksOf (e : Bytes) : List Nat :=
  let op := opOf e
  let alg := pkAlg e
  let curve := isP alg || isEd alg || isX alg
  [0x08] ++ (if curve then [0x02] else []) ++
    (if op = Op.pkSign then [if alg = rsa then 0x03 else if isMlDsa alg then 0x04 else 0x01]
     else if op = Op.pkDecaps then [if alg = rsa then 0x03 else 0x05]
     else if op = Op.pkKeygen then [0x06]
     else if op = Op.pkVerify then [0x07]
     else [])

/-- A fault of core `core` with an invariant's detail, or 0: its job restarts or ends, and the core is tested (R268). A
fault of a core under test fails it (R425). -/
def coreFault (core detail : Nat) (s : State) : State :=
  let x := s.core core
  let f := match x.cur with | some r => r.fn | none => 0
  if x.st = .active then
    let s1 := record 0x0501 2 core 1 detail f (s := setErr Block.pk 4 (bump 7 s))
    let s2 := match x.cur.bind s.job? with | some j => restartJob core j detail s1 | none => s1
    modCore core (fun y => { y with st := .testing, cur := none, faults := s.now :: recentFaults s.now y.faults }) s2
  else if x.st = .testing then
    failCore core (record 0x0501 3 core 3 detail f (nested := true) (s := bump 0x0F (setErr Block.pk 4 (bump 7 s))))
  else s

/-- PK_CORE_FAULT (R268): a failed check of the core's job, one of those its operation passes (R267); on a core without a
job, the read-back of a context (R275) or the parity of the operand memory. -/
def execPkCoreFault (core detail : Nat) (s : State) : Outcome State :=
  match (s.core core).cur.bind s.job? with
  | some j => if (checksOf j.entry).contains detail then settledOn j.ref.fn s (coreFault core detail s) else .next s
  | none => if detail = 0 ∨ detail = 8 then settled s (coreFault core detail s) else .next s

/-- PK_CORE_KAT_VERDICT (R268). -/
def execPkCoreKatVerdict (core : Nat) (pass : Bool) (s : State) : Outcome State :=
  let x := s.core core
  if x.st = .testing then
    if pass && decide ((recentFaults s.now x.faults).length < 4) then
      .next (record 0x0501 0 core 2 (s := modCore core (fun y => { y with st := .active }) s))
    else settled s (failCore core (record 0x0501 3 core 3 (s := s)))
  else .next s

/-! ## Finish points (R267, R270, R273) -/

/-- PK_FINISH_POINT: the outputs, the new slot and the record, with nothing in between (R270, R273). A result whose check
failed is not released: the core is at fault (R267, R268). -/
def execPkFinishPoint (core : Nat) (s : State) : Outcome State :=
  match (s.core core).cur.bind s.job? with
  | none => .next s
  | some j =>
    match j.result with
    | none => .next s
    | some p =>
      match j.stop with
      | some d => settledOn j.ref.fn s (endStopped j d (disturb j s))
      | none =>
        match p.check with
        | some d => settledOn j.ref.fn s (coreFault core d s)
        | none =>
        let r := placeSecret j p s
        let s1 := if isOk r.1 then writeOuts j p r.2 else r.2
        settled s (writeMirror j.ref.fn (s.cqOf j.ref) (completeJob j r.1 s1))

end Sys2Proof.Machine
end

