-- ==== Sys2Proof/Machine/Rng.lean ====
section
/-!
DEFINITION. The random source (chapter 9, R421): window tests and the entropy pool, the AES-256 CTR_DRBG, its consumers,
random-page reads and RNG_FILL.
-/

namespace Sys2Proof.Machine

/-! ## CTR_DRBG with derivation function (R285; SP 800-90A) -/

/-- BCC: CBC-MAC chaining over whole blocks. -/
def drbgBcc (rk : List Bytes) (data : Bytes) : Bytes :=
  (Bytes.chunks 16 data).foldl (fun c b => aesEncWith rk (Bytes.xor c (b.fit 16))) (Bytes.zeros 16)

/-- The derivation function, for 48 bytes of seed. -/
def drbgDf (input : Bytes) : Bytes :=
  let body := Bytes.ofBE 4 input.length ++ Bytes.ofBE 4 48 ++ input ++ [0x80#8]
  let s := body.fit (roundUp body.length 16)
  let rk := aesRoundKeys ((List.range 32).map (BitVec.ofNat 8))
  let temp := (List.range 3).flatMap fun i => drbgBcc rk (Bytes.ofBE 4 i ++ Bytes.zeros 12 ++ s)
  let rk' := aesRoundKeys (temp.take 32)
  let x0 := aesEncWith rk' ((temp.drop 32).take 16)
  let x1 := aesEncWith rk' x0
  x0 ++ x1 ++ aesEncWith rk' x1

/-- Block `i` after V, counting from 1. -/
def drbgBlock (rk : List Bytes) (v : Bytes) (i : Nat) : Bytes := aesEncWith rk (Bytes.ofBE 16 ((Bytes.toBE v + i) % 2 ^ 128))

/-- The update function. -/
def drbgUpdate (key v data : Bytes) : Bytes × Bytes :=
  let rk := aesRoundKeys key
  let t := Bytes.xor ((List.range 3).flatMap fun i => drbgBlock rk v (i + 1)) (data.fit 48)
  (t.take 32, t.drop 32)

/-- Instantiate from a window and the personalisation string id.serial, Meridian time (R285). -/
def instantiate (w : Bytes) (s : State) : State :=
  let seed := drbgDf (w ++ Bytes.ofBE 8 Config.serial ++ Bytes.ofBE 8 s.now)
  let kv := drbgUpdate (Bytes.zeros 32) (Bytes.zeros 16) seed
  { s with rng := { s.rng with key := kv.1, v := kv.2, seeded := true, requests := 0, restart := false, fault := false,
                               waiting := false } }

/-- Reseed from a window (R285, R286); it ends the wait for one, if there was one (R298). -/
def reseed (w : Bytes) (s : State) : State :=
  let kv := drbgUpdate s.rng.key s.rng.v (drbgDf w)
  let s1 := { s with rng := { s.rng with
    key := kv.1, v := kv.2, requests := 0, reseeds := satAdd s.rng.reseeds 0xFFFFFFFF, waiting := false } }
  if s.rng.waiting then record 0x0602 0 0 s1.rng.pool.length (s := s1) else s1

/-- One generate request: 64 bytes. -/
def generate (s : State) : Bytes × State :=
  let rk := aesRoundKeys s.rng.key
  let out := (List.range 4).flatMap fun i => drbgBlock rk s.rng.v (i + 1)
  let kv := drbgUpdate s.rng.key (Bytes.ofBE 16 ((Bytes.toBE s.rng.v + 4) % 2 ^ 128)) (Bytes.zeros 48)
  (out, { s with rng := { s.rng with key := kv.1, v := kv.2, requests := s.rng.requests + 1, last := out.drop 48 } })

/-- Two successive 16-byte output blocks are equal, the previous request's last one included (R421). -/
def repeats (last out : Bytes) : Bool :=
  let b := Bytes.chunks 16 (last ++ out)
  (b.zip b.tail).any fun p => p.1 == p.2

/-! ## Windows and the pool (R280 to R284) -/

/-- Limits in force for a window that begins now. -/
def latchLimits (s : State) (x : Source) : Source :=
  { x with first := false, biasLim := s.param 0x3100 2 384, corrLim := s.param 0x3100 3 384 }

/-- The raw bits of a window, x₀ first. DESIGN CHOICE (log entry 145): bit i is bit i mod 8 of byte i / 8 of the entropy input. -/
def rawBits (w : Bytes) : List Bool := w.flatMap fun b => (List.range 8).map b.getLsbD

/-- The number of ones of a window, and of its transitions. -/
def onesOf (w : WindowReading) : Nat := (rawBits w.bits).countP id
def transOf (w : WindowReading) : Nat := ((rawBits w.bits).zip (rawBits w.bits).tail).countP fun p => p.1 != p.2

/-- B and C of a window. -/
def biasOf (w : WindowReading) : Int := 2 * (onesOf w : Int) - 4096
def corrOf (w : WindowReading) : Int := 4095 - 2 * (transOf w : Int)

/-- The window passes under the limits latched when it began (R281). -/
def windowPasses (x : Source) (w : WindowReading) : Bool :=
  w.agree && decide ((biasOf w).natAbs ≤ x.biasLim) && decide ((corrOf w).natAbs ≤ x.corrLim)

/-- A credited window enters the pool, unless it is full (R283). -/
def credit (w : Bytes) (s : State) : State :=
  if s.rng.pool.length < 8 then { s with rng := { s.rng with pool := s.rng.pool ++ [w] } } else s

/-- Instantiate again from the oldest window, where R290 or R421 left that due. -/
def restartNow (s : State) : State :=
  match s.rng.pool with
  | w :: rest => if s.rng.restart then instantiate w { s with rng := { s.rng with pool := rest } } else s
  | [] => s

/-- A window ends at source `src` (R281, R282, R290). -/
def windowEnds (src : Nat) (w : WindowReading) (s : State) : State :=
  match s.rng.sources[src]? with
  | none => s
  | some x =>
    if s.rng.enabled = false then s
    else if x.first then { s with rng := { s.rng with sources := s.rng.sources.set src (latchLimits s x) } }
    else
      let ok := windowPasses x w
      let y := { latchLimits s x with bias := biasOf w, corr := corrOf w, lastFail := !ok
                                      pass := if ok then satAdd x.pass 0xFFFFFFFF else x.pass
                                      fail := if ok then x.fail else satAdd x.fail 0xFFFFFFFF }
      let s1 := { s with rng := { s.rng with sources := s.rng.sources.set src y } }
      if ok then restartNow (credit w.bits s1) else s1

/-- FIRST_SEEDING (R289): the first instantiation, from the first credited window. -/
def firstSeed (s : State) : Option State :=
  match s.rng.pool with
  | w :: rest => if s.rng.seeded then none else some (instantiate w { s with rng := { s.rng with pool := rest } })
  | [] => none

/-! ## Random-page reads (R292, R293) -/

/-- Serve stalled reads from the function's buffer, in the order they arrived. `fuel` bounds the reads. -/
def serveReads (f : Nat) : Nat → State → State
  | 0, s => s
  | n + 1, s =>
    let g := s.fn f
    match g.rngStall with
    | [] => s
    | r :: rest =>
      let k := min r.need g.rngBuf.length
      let r' := { r with got := r.got ++ g.rngBuf.take k, need := r.need - k }
      if r'.need = 0 then
        serveReads f n (emit (.readData f r'.got) (setFn f { g with rngBuf := g.rngBuf.drop k, rngStall := rest } s))
      else setFn f { g with rngBuf := g.rngBuf.drop k, rngStall := r' :: rest } s

/-- FN_RNG_DATA_READ (R292): `off` is the offset in FN_RNG_DATA, `en` the byte enables of the bytes read from there on; each
enabled byte takes one of the buffer. A VF without an allocation has no bytes, and its pages read 0 (R156). -/
def execFnRngDataRead (f off : Nat) (en : List Bool) (s : State) : Outcome State :=
  let n := en.length
  .next <|
    if s.vfIdle f && decide (s.life.lc ≠ .decommissioned) then emit (.readData f (Bytes.zeros (en.countP id))) s
    else if !s.pageOpen f || decide (s.life.lc = .decommissioned) then emit (.unsupported f) s
    else if off % 4 ≠ 0 ∨ n < 4 ∨ n > 64 ∨ off + n > 0x800 ∨ off / 64 ≠ (off + n - 1) / 64 then
      emit (.completerAbort f) s
    else
      let s1 := modFn f (fun g => { g with rngStall := g.rngStall ++ [{ got := [], need := en.countP id, since := s.now }] }) s
      serveReads f (s1.fn f).rngStall.length s1

/-- RNG_READ_STALL_LIMIT (R293): the oldest read that has reached rng.read.stall_max_us ends with Completer Abort, and
FN_EVENT.RNG_ABORT is set with FN_RNG_STAT.ABORTED (R311). -/
def execRngReadStallLimit (f : Nat) (s : State) : Outcome State :=
  .next <|
    let g := s.fn f
    match g.rngStall with
    | [] => s
    | r :: rest =>
      if elapsedUs s.now r.since (s.param 0x3100 4 5000) then
        setErr Block.rg 5 (setEvent f 3 (emit (.completerAbort f)
          { setFn f { g with rngStall := rest, rngAborted := true } s with
            rng := { s.rng with aborts := satAdd s.rng.aborts 0xFFFFFFFF } }))
      else s

/-! ## RNG_FILL (R295, R296) -/

/-- DISPATCH to the random source: at most 16 committed RNG_FILL jobs. -/
def dispatchRandom (s : State) : State :=
  if s.rng.fills.length ≥ 16 then s
  else match firstJob s (s.jobs.filter fun j => decide (j.op = Op.rngFill) && mayDispatch s j) with
    | none => s
    | some j =>
      { modJob j.ref (fun k => { k with stage := .committed, engine := .random, reads := .arrived }) s with
        rng := { s.rng with fills := s.rng.fills ++ [j.ref] } }

/-- RNG_FILL: once the generator has supplied every byte, they are written in address order (R296). -/
def execRngFill (j : JobRef) (s : State) : Outcome State :=
  match s.job? j with
  | none => .next s
  | some k =>
    if k.op = Op.rngFill ∧ k.engine = .random ∧ k.outcome = none ∧ k.work.length ≥ rngLen k.entry then
      .next (decideJob j { status := Status.ok, r0 := rngLen k.entry }
        (hostWrite j.fn (rngDst k.entry) (k.work.take (rngLen k.entry)) s))
    else .next s

/-! ## Consumers (R291) -/

/-- Class 1: the salt buffer is being refilled, or fewer than 32 salts remain. -/
def wantsSalts (s : State) : Bool := s.rng.refill || decide (s.rng.salts.length < 32)

/-- Class 3: the first engine job that still needs draws (R266). -/
def wantsDraws (s : State) : Option JobRef :=
  s.pk.queue.find? fun r => match s.job? r with | some j => !drawsReady j | none => false

/-- Class 4: the mask generator whose turn it is. -/
def wantsSeed (s : State) : Option Nat :=
  (rotateAfter s.rng.turn4 ((List.range s.fab.gens.length).filter fun g => (s.fab.gens.getD g {}).asks)).head?

/-- A fill of function `f` that still needs bytes. -/
def fillOf (s : State) (f : Nat) : Option JobRef :=
  s.rng.fills.find? fun r => decide (r.fn = f) && (match s.job? r with
    | some j => decide (j.work.length < rngLen j.entry) && j.outcome.isNone
    | none => false)

/-- Class 5: the function whose turn it is: one in service whose buffer is empty, or with a fill. -/
def wantsBytes (s : State) : Option Nat :=
  (rotateAfter s.rng.turn5 (s.fns.keys.filter fun f =>
    ((s.fn f).rngBuf.isEmpty && (decide ((s.fn f).run = .ready) || decide ((s.fn f).run = .frozen)) &&
      decide (s.life.lc ≠ .decommissioned)) || (fillOf s f).isSome)).head?

/-- The consumer a request goes to. -/
inductive Consumer where
  | salts
  | firmware
  | draws (j : JobRef)
  | seed (g : Nat)
  | bytes (f : Nat)
  deriving DecidableEq, Repr

/-- Class 5 takes at least every eighth request while it waits, class 4 at least every 64th; else the lowest class. -/
def consumer (s : State) : Option Consumer :=
  let c4 := (wantsSeed s).map Consumer.seed
  let c5 := (wantsBytes s).map Consumer.bytes
  let low := (if wantsSalts s then some .salts else none) <|> (if s.rng.fwWant ≠ 0 then some .firmware else none) <|>
    (wantsDraws s).map .draws <|> c4 <|> c5
  if s.rng.gap5 ≥ 7 ∧ c5.isSome then c5
  else if s.rng.gap4 ≥ 62 ∧ c4.isSome then c4
  else low

/-- Requests served while classes 4 and 5 waited. -/
def noteGaps (c : Consumer) (s : State) : State :=
  let w4 := (wantsSeed s).isSome
  let w5 := (wantsBytes s).isSome
  { s with rng := { s.rng with
    gap4 := (match c with | .seed _ => 0 | _ => if w4 then s.rng.gap4 + 1 else 0)
    gap5 := (match c with | .bytes _ => 0 | _ => if w5 then s.rng.gap5 + 1 else 0) } }

/-- Hand 64 bytes to a consumer; what it does not take is never delivered (R287). -/
def deliver (c : Consumer) (out : Bytes) (s : State) : State :=
  match c with
  | .salts =>
    let l := s.rng.salts ++ Bytes.chunks 8 out
    { s with rng := { s.rng with salts := l.take 64, refill := decide (l.length < 64) } }
  | .firmware => { s with rng := { s.rng with fwBuf := s.rng.fwBuf ++ out, fwWant := s.rng.fwWant - 64 } }
  | .draws r => modJob r (fun j => { j with draws := j.draws ++ out }) s
  | .seed g =>
    { s with rng := { s.rng with turn4 := g }
             fab := { s.fab with gens := s.fab.gens.set g { key := out.take 32, ctr := Bytes.toBE ((out.drop 32).take 16) } } }
  | .bytes f =>
    let s1 := { s with rng := { s.rng with turn5 := f } }
    if (s.fn f).rngBuf.isEmpty && (decide ((s.fn f).run = .ready) || decide ((s.fn f).run = .frozen)) &&
        decide (s.life.lc ≠ .decommissioned) then
      let s2 := modFn f (fun g => { g with rngBuf := out }) s1
      serveReads f (s2.fn f).rngStall.length s2
    else match fillOf s f with
      | some r => modJob r (fun j => { j with work := j.work ++ out }) s1
      | none => s1

/-! ## Generate, reseed, restart (R286, R298, R421) -/

/-- Erase the generator's state, the salt buffer and every read buffer (R421). -/
def eraseGenerator (s : State) : State :=
  { s with
    rng := { s.rng with key := [], v := [], seeded := false, requests := 0, salts := [], refill := false, last := []
                        waiting := false, restart := true, fault := true }
    fns := s.fns.map fun p => (p.1, { p.2 with rngBuf := [] }) }

/-- The generator restarts (R421): causes 1 repeat, 2 stall, 3 illegal code. A second fault within 1 s escalates. -/
def restartGenerator (cause : Nat) (s : State) : State :=
  let s0 := if cause = 3 then setErr Block.rg 1 (bump 5 s) else if cause = 2 then setErr Block.rg 0 (bump 6 s)
    else setErr Block.rg 2 s
  let s1 := record 0x0601 1 cause (s := s0)
  let again := match s.red.retryAt with | some t => decide (s.now - t < second) | none => false
  let s2 := restartNow (eraseGenerator { s1 with red := { s1.red with retryAt := some s.now } })
  if again then escalate s2 else s2

/-- A reseed has fallen due (R286). -/
def reseedDue (s : State) : Bool := decide (s.rng.requests ≥ 65536)

/-- A reseed falls due with the pool empty: the generator waits (R286). -/
def beginWait (s : State) : State :=
  if s.rng.waiting then s
  else record 0x0602 0 1 s.rng.pool.length (s := setErr Block.rg 4
    { s with rng := { s.rng with waiting := true, blocked := satAdd s.rng.blocked 0xFFFFFFFF } })

/-- One request to consumer `c`. -/
def serve (c : Consumer) (s : State) : State :=
  let r := generate s
  if repeats s.rng.last r.1 then restartGenerator 1 s else deliver c r.1 (noteGaps c r.2)

/-- One generate request, to the consumer whose turn it is, reseeding first when due; none while the generator serves
nothing, or nobody asks (R286, R289, R291). -/
def request (s : State) : Option State :=
  if s.rng.seeded = false then none
  else match consumer s with
    | none => none
    | some c =>
      if reseedDue s then
        match s.rng.pool with
        | [] => none
        | w :: rest => some (serve c (reseed w { s with rng := { s.rng with pool := rest } }))
      else some (serve c s)

/-- A consumer asks while a reseed is due and the pool is empty. -/
def starved (s : State) : Bool := s.rng.seeded && (consumer s).isSome && reseedDue s && s.rng.pool.isEmpty

/-- A generate request, or the beginning of the wait for a window (R286, R291). -/
def generateOrWait (s : State) : State :=
  match request s with
  | some t => t
  | none => if starved s then beginWait s else s

/-- A credited window ends the wait (R298). -/
def resumeReseed (s : State) : State :=
  match s.rng.pool with
  | [] => s
  | w :: rest => if s.rng.waiting then reseed w { s with rng := { s.rng with pool := rest } } else s

/-- WAITING of FN_RNG_STAT: a reseed is due and the pool is empty (R292). -/
def State.rngWaiting (s : State) : Bool := s.rng.seeded && reseedDue s && s.rng.pool.isEmpty

/-! ## Dispatch (R109, R132) -/

/-- DISPATCH: the dispatcher places its next job on a pair, the public-key engine or the random source. -/
def execDispatch (t : DispatchTarget) (s : State) : Outcome State :=
  let s1 := noteLeaseWaits s
  match t with
  | .pair p ok => settled s (dispatchPair p ok s1)
  | .publicKey => settled s (dispatchPk s1)
  | .random => settled s (dispatchRandom s1)

/-! ## Randomness for custody firmware (class 2) -/

/-- What firmware draws, or the state in which it waits for the generator. -/
abbrev Drawn (α : Type) := Except State (α × State)

/-- Go on with what was drawn; where the draw waits, so does what rests on it. -/
def Drawn.go {α β : Type} (d : Drawn α) (h : α → State → Except State β) : Except State β :=
  match d with
  | .ok (a, t) => h a t
  | .error t => .error t

/-- Firmware asks for one request more. -/
def fwAsk (s : State) : State := { s with rng := { s.rng with fwWant := max s.rng.fwWant 64 } }

/-- Firmware reads a value off its random bytes. While they do not suffice it asks for more, and the generator serves its
consumers in their order (R291) until they do; `fuel` bounds the requests. Where the generator serves nothing, firmware
waits with what it has (R289, R298). -/
def fwRead {α : Type} (take : Bytes → Option (α × Bytes)) : Nat → State → Drawn α
  | fuel, s =>
    match take s.rng.fwBuf with
    | some (a, rest) => .ok (a, { s with rng := { s.rng with fwBuf := rest, fwWant := 0 } })
    | none => match fuel with
      | 0 => .error (fwAsk s)
      | n + 1 => match request (fwAsk s) with
        | some t => fwRead take n t
        | none => .error (if starved (fwAsk s) then beginWait (fwAsk s) else fwAsk s)

/-- Requests within which firmware gets `n` bytes: its own, those of the salts, and those the lower classes are owed. -/
def fwFuel (n : Nat) : Nat := 16 + 2 * (n / 64 + 1)

/-- `n` random bytes for firmware. -/
def fwRandom (n : Nat) (s : State) : Drawn Bytes :=
  fwRead (fun b => if b.length < n then none else some (b.take n, b.drop n)) (fwFuel n) s

/-- A fresh private key of an algorithm for firmware. -/
def fwKey (alg : Nat) (s : State) : Drawn Bytes := fwRead (freshKey alg) (fwFuel 256) s

end Sys2Proof.Machine
end

