-- ==== Sys2Proof/Machine/KeySlots.lean ====
section
/-!
DEFINITION. The key slot store (chapter 6): the six slot commands, the re-mask sweep, reloads and the slot record.
-/

namespace Sys2Proof.Machine

/-! ## Shared checks (R205, R208, R215, R216) -/

/-- A slot is LOADING and a reload is bringing it in: the command waits (R215). -/
def slotWaits (s : State) (n : Nat) : Bool := decide ((s.slot n).st = .loading) && s.store.reload

/-- A slot is owned by a tenant other than `t`. -/
def foreign (s : State) (t n : Nat) : Bool :=
  decide ((s.slot n).st ≠ .empty) && decide (attrTenant (s.slot n).attr ≠ t)

/-- First rows of a slot command that PF0 may not issue: LOCKED, RSV, PF0, reserved slots, owners, domain (R216). -/
def slotCmdRows (s : State) (f : Nat) (rsv : Bool) (named owned : List Nat) : List (Bool × Done) :=
  let t := (s.fn f).tenant
  [(s.locked, { status := Status.locked }), (rsv, bad 0x02), (decide (f = 0), { status := Status.accessDenied, detail := 0x08 }),
   (named.any fun n => decide (n < 64), { status := Status.accessDenied, detail := 0x02 }),
   (owned.any fun n => foreign s t n, { status := Status.accessDenied, detail := 0x01 }),
   (s.domainKey.isNone, { status := Status.unavailable, detail := 0x01 })]

/-- Rows of a slot that must hold a usable key, and of the generation a handle names. DESIGN CHOICE (log entry 157): generation 0 of a
KEY_EXPORT's HANDLE means the current one, as in R43 and R212; R210 asks for the current generation. -/
def presentRows (s : State) (n gen : Nat) : List (Bool × Done) :=
  let x := s.slot n
  [(decide (x.st = .empty) || decide (x.st = .erasing) || decide (x.st = .loading), { status := Status.keyAbsent }),
   (decide (x.st = .bad), { status := Status.keyAbsent, detail := 0x02 }),
   (decide (gen ≠ 0) && decide (gen ≠ attrGen x.a.attr), { status := Status.keyStale })]

/-- The tenant's slot quota would be exceeded (R208). -/
def quotaRow (s : State) (f : Nat) : Bool × Done :=
  (decide (s.slotsOwned (s.fn f).tenant + 1 > s.slotQuota (s.fn f).tenant), { status := Status.accessDenied, detail := 0x07 })

/-- A target slot is not EMPTY, or SLOT 0 finds none (R207, R208). -/
def targetRow (s : State) (n : Nat) : Bool × Done :=
  (match s.targetSlot n with | none => true | some k => decide ((s.slot k).st ≠ .empty), bad 0x20)

/-- Length of the public key of an algorithm, 0 for AES. -/
def pubNeed (alg : Nat) : Nat := if isAes alg then 0 else pubLen alg 0

/-- PUB_ADDR nonzero for AES, or PUB_MAX too small. -/
def pubRow (alg addr room : Nat) : Bool × Done :=
  (if isAes alg then decide (addr ≠ 0) else decide (room < pubNeed alg), bad 0x24 (pubNeed alg))

/-- Validity times of a command. -/
def timesRow (nb na : Nat) : Bool × Done := (decide (na ≠ 0) && decide (na ≤ nb), bad 0x23)

/-- Record a completed slot command (R441). -/
def keyCmd (n f op : Nat) (s : State) : State := record 0x0301 0 n (s.slot n).lastGen f op (s := s)

/-- Handle of a slot's current generation. -/
def handleNow (s : State) (n : Nat) : Nat := n + 65536 * attrGen (s.slot n).a.attr

/-- Write the public key of slot `n` at `addr`, for an asymmetric key, and give its length. -/
def writePub (f addr n : Nat) (s : State) : Nat × State :=
  let x := s.slot n
  let alg := attrAlg x.a.attr
  if isAes alg then (0, s) else (pubNeed alg, hostWrite f addr (publicOf alg x.a.key.clear) s)

/-- OK with the handle and public key length, once the key is placed in slot `n`; where the two sides' blobs differ, the
completion that follows from it. `l` names the slots the key and its wrapping come from. -/
def placed (f addr n op : Nat) (l : List Nat) (s : State) (t : Option State) : Done × State :=
  match t with
  | none => blobsDiffer l s
  | some t =>
    let r := writePub f addr n t
    ({ status := Status.ok, r0 := handleNow r.2 n, r1 := r.1 }, keyCmd n f op r.2)

/-- A slot command is accepted: it has begun, and others on its slots wait for it (R205). -/
def acceptCmd (j : Job) (s : State) : State := modJob j.ref (fun k => { k with phase := max k.phase 1 }) s

/-- Go on with what firmware draws, or wait for the generator, the command accepted (R289, R291). -/
def withDrawn {α : Type} (j : Job) (d : State → Drawn α) (s : State) (h : α → State → Done × State) : Option Done × State :=
  match d s with
  | .ok (a, t) => let r := h a t; (some r.1, r.2)
  | .error t => (none, acceptCmd j t)

/-! ## Order of slot commands (R205, R218) -/

/-- The six slot commands. -/
def isSlotCmd (op : Nat) : Bool := decide (Op.keyCreate ≤ op) && decide (op ≤ Op.keyQuery)

/-- Slots a slot command names, its wrapping or archive slot among them; 0 names none. -/
def slotsOf (e : Bytes) : List Nat :=
  let op := opOf e
  let h := e.leAt 0x10 2
  let second :=
    if op = Op.keyImport then e.leAt 0x12 2
    else if op = Op.keyExport then (if (e.at_ 0x14).toNat % 2 = 1 then e.leAt 0x16 2 else 0)
    else if op = Op.keyRotate then (if (e.at_ 0x14).toNat % 2 = 0 then e.leAt 0x16 2 else 0)
    else 0
  [h, second].filter (· ≠ 0)

/-- Another slot command on a slot that `j` names has been accepted and is in progress: `j` waits for it (R205). -/
def slotTaken (s : State) (j : Job) : Bool :=
  decide (j.phase = 0) && s.jobs.any fun k =>
    decide (k.ref ≠ j.ref) && decide (k.ref.jq = 0) && isSlotCmd k.op && decide (k.phase ≠ 0) && k.outcome.isNone &&
      (slotsOf k.entry).any fun n => (slotsOf j.entry).contains n

/-- Run a slot command (R205, R215): it waits for another in progress on its slots, and for the reload of the slots
`waits` names, unless the device is LOCKED. -/
def runSlotCmd (f op : Nat) (waits : Bytes → List Nat) (body : Job → State → Option Done × State) (s : State) :
    Outcome State :=
  runAdminSteps f op (fun j s =>
    if slotTaken s j || (!s.locked && (waits j.entry).any (slotWaits s)) then (none, s) else body j s) s

/-! ## KEY_CREATE (R207) -/

def createRows (s : State) (f : Nat) (e : Bytes) : List (Bool × Done) :=
  let n := e.leAt 0x10 2
  let alg := (e.at_ 0x12).toNat % 32
  let uses := (e.at_ 0x13).toNat % 64
  slotCmdRows s f
      (decide ((e.at_ 0x12).toNat ≥ 32) || decide ((e.at_ 0x13).toNat ≥ 64) || decide ((e.at_ 0x14).toNat ≥ 4) ||
        rsvSet e [(0x15, 1), (0x1E, 2), (0x3C, 4)])
      (if n = 0 then [] else [n]) (if n = 0 then [] else [n]) ++
  [targetRow s n, (!usesOk alg uses, bad 0x21), (decide ((e.at_ 0x14).toNat % 4 > 1), bad 0x22),
   timesRow (e.leAt 0x20 8) (e.leAt 0x28 8), pubRow alg (e.leAt 0x30 8) (e.leAt 0x38 4), quotaRow s f]

/-- The attributes a KEY_CREATE body describes, and its key placed. -/
def createKey (f : Nat) (e key : Bytes) (s : State) : Done × State :=
  match s.targetSlot (e.leAt 0x10 2) with
  | none => (bad 0x20, s)
  | some n =>
    let limit := e.leAt 0x18 6
    let r := freshCopies { attr := mkAttr (s.fn f).tenant 0 (e.leAt 0x16 2) ((e.at_ 0x13).toNat % 64) ((e.at_ 0x12).toNat % 32)
                                     ((e.at_ 0x14).toNat % 4)
                           limit := limit, nb := e.leAt 0x20 8, na := e.leAt 0x28 8 } key key s
    placed f (e.leAt 0x30 8) n Op.keyCreate [0] s (placeKey n r.1 (pointFrom s.lease 0 limit) r.2)

/-- KEY_CREATE (R207): the key comes from the CTR_DRBG, by key generation for an asymmetric algorithm. -/
def execKeyCreate (f : Nat) (s : State) : Outcome State :=
  runSlotCmd f Op.keyCreate slotsOf (fun j s =>
    match firstFail (createRows s f j.entry) with
    | some d => (some d, s)
    | none => withDrawn j (fwKey ((j.entry.at_ 0x12).toNat % 32)) s (fun key t => createKey f j.entry key t)) s

/-! ## KEY_ERASE (R211) -/

/-- A job holds a reference to slot `n` (R211): one that names it and has not been refused, until its record is issued. -/
def holdsSlot (n : Nat) (j : Job) : Bool :=
  decide (slotNamed j.entry = some n) && decide (j.ref.jq ≠ 0) && j.header.isNone && !j.taken &&
    (!j.committed || decide (j.gen ≠ 0))

/-- Revoke every job that holds a slot; `again` passes over those that are stopped already. -/
def revokeJobs (n : Nat) (again : Bool) (s : State) : State :=
  endJobs (fun j => holdsSlot n j && !(again && j.stop.isSome)) (fun _ => { status := Status.keyRevoked }) false s

/-- The slot with its copies, retiring generation, blob and checkpoint erased; its last generation stays. -/
def emptySlot (x : Slot) : Slot := { lastGen := x.lastGen }

/-- The device holds a domain whose key an alarm's lock has taken, or none (R205, R215): while LOCKED, a domain held before
the lock counts. -/
def State.holdsDomain (s : State) : Bool := s.domainKey.isSome || (s.locked && decide (s.life.dkWrapped ≠ []))

def eraseRows (s : State) (f : Nat) (e : Bytes) : List (Bool × Done) :=
  let n := e.leAt 0x10 2
  [(rsvSet e [(0x12, 46)], bad 0x02),
   (decide (n < 64), { status := Status.accessDenied, detail := 0x02 }),
   (decide (f ≠ 0) && foreign s (s.fn f).tenant n, { status := Status.accessDenied, detail := 0x01 }),
   (!s.holdsDomain, { status := Status.unavailable, detail := 0x01 }),
   (decide ((s.slot n).st = .empty), { status := Status.keyAbsent })]

/-- The KEY_ERASE ends: with OK, or as the reaction that met it says. The record of a drained one is the drain's, and a
function reset leaves none (R164, R141). -/
def eraseEnds (j : Job) (s : State) : Option Done × State :=
  if j.silent then
    if (s.fn j.ref.fn).run = .resetting then (none, dropJob j s)
    else (none, modJob j.ref (fun k => { k with outcome := j.stop }) s)
  else (some { status := Status.ok }, s)

/-- A KEY_ERASE under way: revoke what still holds the slot; once nothing does, erase it. -/
def eraseGoes (f n : Nat) (j : Job) (again : Bool) (s : State) : Option Done × State :=
  let s1 := revokeJobs n again (modSlot n (fun x => { x with st := .erasing }) s)
  if s1.jobs.any (holdsSlot n) then (none, s1)
  else eraseEnds j (keyCmd n f Op.keyErase (modSlot n emptySlot s1))

/-- KEY_ERASE (R211). -/
def execKeyErase (f : Nat) (s : State) : Outcome State :=
  runSlotCmd f Op.keyErase (fun _ => []) (fun j s =>
    if j.phase = 0 then
      match firstFail (eraseRows s f j.entry) with
      | some d => (some d, s)
      | none => eraseGoes f (j.entry.leAt 0x10 2) j false (acceptCmd j s)
    else eraseGoes f (j.entry.leAt 0x10 2) j true s) s

/-! ## KEY_IMPORT (R204, R209) -/

/-- A wrapping slot a tenant may use: its own, LOADED, AES-256 with USE_WRAP, within its times (R209). -/
def wrapUsable (s : State) (t n : Nat) : Bool :=
  let x := s.slot n
  decide (x.st = .loaded) && decide (attrTenant x.a.attr = t) && decide (attrAlg x.a.attr = 3) &&
  bit (attrUses x.a.attr) 3 && decide (x.a.nb ≤ s.now) && (decide (x.a.na = 0) || decide (s.now < x.a.na))

/-- The slot named explicitly is a BAD one of the issuing tenant (R208). -/
def replacesBad (s : State) (f n : Nat) : Bool :=
  decide (n ≠ 0) && decide ((s.slot n).st = .bad) && decide (attrTenant (s.slot n).a.attr = (s.fn f).tenant)

/-- What is refused before anything is read. -/
def importRows (s : State) (f : Nat) (e : Bytes) : List (Bool × Done) :=
  let n := e.leAt 0x10 2
  let w := e.leAt 0x12 2
  slotCmdRows s f (rsvSet e [(0x2C, 20)]) ((if n = 0 then [] else [n]) ++ (if w = 0 then [] else [w])) (if n = 0 then [] else [n]) ++
  [(!replacesBad s f n && (targetRow s n).1, bad 0x20), (decide (e.leAt 0x18 8 % 8 ≠ 0), bad 0x27),
   (decide (e.leAt 0x14 4 < 72) || decide (e.leAt 0x14 4 > 208), bad 0x25)]

/-- The keys, of the A and the B side, that unwrap a blob, and the BINDING it must carry. -/
def unwrapKeys (s : State) (kind w : Nat) : Bytes × Bytes × Bytes :=
  let x := s.slot (if kind = 0 then 0 else w)
  (x.a.key.clear, x.b.key.clear,
    if kind = 0 then s.life.domId.take 8 else Bytes.ofLE 2 w ++ Bytes.ofLE 2 (attrEpoch x.a.attr) ++ Bytes.zeros 4)

/-- Conditions on a blob that has been read, in the order of R209 and R204. DESIGN CHOICE (log entry 157): 0x24, which rests on the
blob's ALG, comes after the blob's 0x21 and before the quota; R216 puts its row before the blob's. -/
def blobRows (s : State) (f : Nat) (e blob : Bytes) : List (Bool × Done) :=
  let kind := (blob.at_ 6).toNat % 2
  let w := e.leAt 0x12 2
  let kb := blob.leAt 0x0A 2
  let a := blob.leAt 0x10 8
  let k := unwrapKeys s kind w
  [(decide (blob.leAt 0 4 ≠ 0x4B534647) || decide (blob.leAt 4 2 ≠ 1) || decide ((blob.at_ 6).toNat / 2 % 64 ≠ 0) ||
      decide (blob.at_ 7 ≠ 0) || !blob.zeroAt 0x1E 2 || !blob.zeroAt 0x26 2 ||
      decide (blob.leAt 0x0C 4 ≠ blob.length) || decide (slotBlobLen kb ≠ blob.length), bad 0x25),
   (decide (kind = 0) && decide (w ≠ 0), bad 0x22),
   (decide (kind = 1) && !(decide (w ≠ 0) && wrapUsable s (s.fn f).tenant w), bad 0x28),
   ((blobKey k.1 blob).isNone || (blobKey k.2.1 blob).isNone, bad 0x25),
   (decide ((blob.at_ 6).getLsbD 7 ≠ s.debug) || decide (blob.slice 0x38 8 ≠ k.2.2) ||
      decide (attrTenant a ≠ (s.fn f).tenant), bad 0x26),
   (!usesOk (attrAlg a) (attrUses a) || decide (attrExport a > 1) || decide (a / 2 ^ 61 ≠ 0) ||
      decide (keyBytes (attrAlg a) ≠ some kb), bad 0x21),
   pubRow (attrAlg a) (e.leAt 0x20 8) (e.leAt 0x28 4),
   (!replacesBad s f (e.leAt 0x10 2) && (quotaRow s f).1, { status := Status.accessDenied, detail := 0x07 })]

/-- Place the key of a checked blob, as each side has unwrapped it. -/
def importKey (f : Nat) (e blob : Bytes) (n : Nat) (s : State) : Done × State :=
  let w := e.leAt 0x12 2
  let k := unwrapKeys s ((blob.at_ 6).toNat % 2) w
  let c : SlotCopy := { attr := blob.leAt 0x10 8, limit := blob.leAt 0x18 6, count := blob.leAt 0x20 6, nb := blob.leAt 0x28 8
                        na := blob.leAt 0x30 8 }
  let r := freshCopies c ((blobKey k.1 blob).getD []) ((blobKey k.2.1 blob).getD []) s
  placed f (e.leAt 0x20 8) n Op.keyImport [0, w] s (placeKey n r.1 (pointFrom s.lease c.count c.limit) r.2)

/-- The slot an import goes to: a BAD one it replaces is first erased with its jobs (R208). None while jobs hold it. -/
def importInto (f : Nat) (j : Job) (blob : Bytes) (s : State) : Option Done × State :=
  let e := j.entry
  let n := e.leAt 0x10 2
  if replacesBad s f n then
    let s1 := revokeJobs n (decide (j.phase = 2)) (modSlot n (fun x => { x with reloadDue := false }) s)
    if s1.jobs.any (holdsSlot n) then (none, modJob j.ref (fun k => { k with phase := 2 }) s1)
    else let r := importKey f e blob n (modSlot n emptySlot s1); (some r.1, r.2)
  else
    match s.targetSlot n with
    | none => (some (bad 0x20), s)
    | some m => let r := importKey f e blob m s; (some r.1, r.2)

/-- KEY_IMPORT (R209): the checks that read nothing, the read, the blob's checks, the key placed. -/
def execKeyImport (f : Nat) (s : State) : Outcome State :=
  runSlotCmd f Op.keyImport slotsOf (fun j s =>
    match firstFail (importRows s f j.entry) with
    | some d => (some d, s)
    | none => afterReads j (acceptCmd j s) (fun s =>
        let blob := j.input 0 s
        match firstFail (blobRows s f j.entry blob) with
        | some d => (some d, s)
        | none => importInto f j blob s)) s

/-! ## KEY_EXPORT (R210) -/

def exportRows (s : State) (f : Nat) (e : Bytes) : List (Bool × Done) :=
  let h := e.leAt 0x10 4
  let n := hSlot h
  let kind := (e.at_ 0x14).toNat % 2
  let w := e.leAt 0x16 2
  let x := s.slot n
  let on := decide (x.st = .loaded)
  let len := slotBlobLen ((keyBytes (attrAlg x.a.attr)).getD 0)
  slotCmdRows s f (decide ((e.at_ 0x14).toNat ≥ 2) || rsvSet e [(0x15, 1), (0x24, 28)])
      (n :: (if kind = 1 ∧ w ≠ 0 then [w] else [])) [n] ++
  [(decide (kind = 0) && decide (w ≠ 0), bad 0x22), (on && decide (e.leAt 0x20 4 < len), bad 0x24 len),
   (decide (e.leAt 0x18 8 % 8 ≠ 0), bad 0x27),
   (decide (kind = 1) && !(decide (w ≠ 0) && wrapUsable s (s.fn f).tenant w), bad 0x28),
   (decide (kind = 1) && on && decide (attrExport x.a.attr = 0), { status := Status.accessDenied, detail := 0x09 })] ++
  presentRows s n (hGen h)

/-- The blob a KEY_EXPORT writes, made on both sides; none where they differ. -/
def exportBlob (s : State) (n kind w : Nat) : Option Bytes :=
  let c := s.slot n
  if kind = 0 then domainBlob n c.a c.b s
  else
    let one : SlotCopy → SlotCopy → Bytes := fun c x =>
      makeBlob x.key.clear { kind := 1, slot := n, attr := c.attr, limit := c.limit, count := c.count, nb := c.nb, na := c.na
                             binding := Bytes.ofLE 2 w ++ Bytes.ofLE 2 (attrEpoch x.attr) ++ Bytes.zeros 4 } s.debug c.key.clear
    let a := one c.a (s.slot w).a
    if a = one c.b (s.slot w).b then some a else none

/-- KEY_EXPORT (R210). -/
def execKeyExport (f : Nat) (s : State) : Outcome State :=
  runSlotCmd f Op.keyExport slotsOf (fun j s =>
    let e := j.entry
    let n := hSlot (e.leAt 0x10 4)
    match firstFail (exportRows s f e) with
    | some d => (some d, s)
    | none =>
      match exportBlob s n ((e.at_ 0x14).toNat % 2) (e.leAt 0x16 2) with
      | none => let r := blobsDiffer [0, n, e.leAt 0x16 2] s; (some r.1, r.2)
      | some b => (some { status := Status.ok, r0 := b.length }, keyCmd n f Op.keyExport (hostWrite f (e.leAt 0x18 8) b s))) s

/-! ## KEY_ROTATE (R212 to R214) -/

/-- Jobs bound to the retiring generation of a slot. -/
def retiringJobs (s : State) (n : Nat) : Nat :=
  match (s.slot n).retiring with
  | some r => (s.jobs.filter fun j => decide (j.slot = n) && decide (j.gen = r.gen) && j.charged).length
  | none => 0

/-- Entries of the retiring table in use. -/
def State.retiringUsed (s : State) : Nat := (s.store.slots.filter fun p => p.2.retiring.isSome).length

/-- Rows of the retiring table (R214). -/
def retiringRows (s : State) (n : Nat) : List (Bool × Done) :=
  [((s.slot n).retiring.isSome, { status := Status.unavailable, detail := 0x03, r0 := retiringJobs s n }),
   (decide (s.retiringUsed ≥ 256), { status := Status.unavailable, detail := 0x03 })]

/-- The generation current until now becomes retiring, for as long as a committed job is bound to it (R213). -/
def retire (n : Nat) (old : Slot) (s : State) : State :=
  let g := attrGen old.a.attr
  if s.jobs.any fun j => decide (j.slot = n) && decide (j.gen = g) && j.charged && j.committed then
    modSlot n (fun x => { x with retiring := some { gen := g, a := old.a, b := old.b } }) s
  else s

def rekeyRows (s : State) (f : Nat) (e : Bytes) : List (Bool × Done) :=
  let h := e.leAt 0x10 4
  let n := hSlot h
  let arc := e.leAt 0x16 2
  let arcs := if arc = 0 then [] else [arc]
  let alg := attrAlg (s.slot n).a.attr
  slotCmdRows s f (decide ((e.at_ 0x14).toNat ≥ 2) || rsvSet e [(0x15, 1), (0x18, 24), (0x3C, 4)]) (n :: arcs) (n :: arcs) ++
  [(decide (arc ≠ 0) && decide ((s.slot arc).st ≠ .empty), bad 0x20),
   (decide ((s.slot n).st = .loaded) && (pubRow alg (e.leAt 0x30 8) (e.leAt 0x38 4)).1, bad 0x24 (pubNeed alg)),
   (decide (arc ≠ 0) && (quotaRow s f).1, { status := Status.accessDenied, detail := 0x07 })] ++
  presentRows s n (hGen h) ++ retiringRows s n

/-- End of validity of an archived key: now, or its old end if that is earlier (R212). -/
def archiveEnd (na now : Nat) : Nat := if na ≠ 0 ∧ na < now then na else now

/-- The old key moves into the archive slot with its counter, checkpoint and limit, each side's copy by itself. -/
def archive (arc : Nat) (old : Slot) (s : State) : Option State :=
  if arc = 0 then some s
  else
    let r := movedCopies (fun c => { c with na := archiveEnd c.na s.now }) old s
    placeKey arc r.1 old.point r.2

/-- The rotation point of a REKEY (R212, R213): the old key archived, then the new one placed. -/
def rekeySlot (f : Nat) (e key : Bytes) (s : State) : Done × State :=
  let n := hSlot (e.leAt 0x10 4)
  let old := s.slot n
  let a := old.a.attr
  let c : SlotCopy := { old.a with
    attr := mkAttr (attrTenant a) 0 (attrEpoch a + 1) (attrUses a) (attrAlg a) (attrExport a), count := 0 }
  placed f (e.leAt 0x30 8) n Op.keyRotate [0, n] s ((archive (e.leAt 0x16 2) old s).bind fun s1 =>
    let r := freshCopies c key key s1
    (placeKey n r.1 (pointFrom s.lease 0 old.a.limit) r.2).map (retire n old))

/-- REKEY (R212). -/
def execRekey (f : Nat) (s : State) : Outcome State :=
  runSlotCmd f Op.keyRotate slotsOf (fun j s =>
    let e := j.entry
    if (e.at_ 0x14).toNat % 2 ≠ 0 then (none, s)
    else match firstFail (rekeyRows s f e) with
      | some d => (some d, s)
      | none => withDrawn j (fwKey (attrAlg (s.slot (hSlot (e.leAt 0x10 4))).a.attr)) s (fun key t => rekeySlot f e key t)) s

def reattrRows (s : State) (f : Nat) (e : Bytes) : List (Bool × Done) :=
  let h := e.leAt 0x10 4
  let n := hSlot h
  let a := (s.slot n).a.attr
  let on := decide ((s.slot n).st = .loaded)
  let uses := (e.at_ 0x15).toNat % 64
  slotCmdRows s f (decide ((e.at_ 0x14).toNat ≥ 2) || decide ((e.at_ 0x15).toNat ≥ 64) || decide ((e.at_ 0x3C).toNat ≥ 4) ||
      rsvSet e [(0x16, 2), (0x1E, 2), (0x30, 12), (0x3D, 3)]) [n] [n] ++
  [(on && !usesOk (attrAlg a) uses, bad 0x21),
   (on && (decide (uses &&& attrUses a ≠ uses) || decide ((e.at_ 0x3C).toNat % 4 > attrExport a)), bad 0x22),
   timesRow (e.leAt 0x20 8) (e.leAt 0x28 8)] ++
  presentRows s n (hGen h) ++ retiringRows s n

/-- The rotation point of a REATTR: the key, EPOCH and counter stay, and with them the checkpoint. -/
def reattrSlot (f : Nat) (e : Bytes) (s : State) : Done × State :=
  let n := hSlot (e.leAt 0x10 4)
  let old := s.slot n
  let r := movedCopies (fun c => { c with
    attr := mkAttr (attrTenant c.attr) 0 (attrEpoch c.attr) ((e.at_ 0x15).toNat % 64) (attrAlg c.attr) ((e.at_ 0x3C).toNat % 4)
    limit := e.leAt 0x18 6, nb := e.leAt 0x20 8, na := e.leAt 0x28 8 }) old s
  match placeKey n r.1 old.point r.2 with
  | none => blobsDiffer [0, n] s
  | some t =>
    let s2 := retire n old (modSlot n (fun x => { x with pendingP := old.pendingP }) t)
    ({ status := Status.ok, r0 := handleNow s2 n }, keyCmd n f Op.keyRotate s2)

/-- REATTR (R212). -/
def execReattr (f : Nat) (s : State) : Outcome State :=
  runSlotCmd f Op.keyRotate slotsOf (fun j s =>
    let e := j.entry
    if (e.at_ 0x14).toNat % 2 ≠ 1 then (none, s)
    else match firstFail (reattrRows s f e) with
      | some d => (some d, s)
      | none => let r := reattrSlot f e s; (some r.1, r.2)) s

/-! ## KEY_QUERY (R215) -/

/-- Code of a slot's state. -/
def SlotState.code (x : SlotState) : Nat := x.ctorIdx

/-- The 64-byte slot record. -/
def slotRecord (s : State) (n : Nat) : Bytes :=
  let x := s.slot n
  if x.st = .empty then Bytes.ofLE 8 (x.lastGen * 65536) ++ Bytes.zeros 56
  else
    let a := x.attr
    let l := x.st = .loading
    let asym := !isAes (attrAlg a)
    Bytes.ofLE 8 a ++ Bytes.ofNats [x.st.code, 0] ++ Bytes.ofLE 2 (match x.retiring with | some r => r.gen | none => 0) ++
      Bytes.ofLE 2 ((keyBytes (attrAlg a)).getD 0) ++ Bytes.ofLE 2 (if asym then pubNeed (attrAlg a) else 0) ++
      Bytes.ofLE 6 (if l then x.point else x.a.count) ++ Bytes.zeros 2 ++ Bytes.ofLE 8 (if l then x.blob.leAt 0x18 6 else x.a.limit) ++
      Bytes.ofLE 8 (if l then x.blob.leAt 0x28 8 else x.a.nb) ++ Bytes.ofLE 8 (if l then x.blob.leAt 0x30 8 else x.a.na) ++
      Bytes.ofLE 8 x.genTime ++ Bytes.ofLE 6 x.point ++ Bytes.zeros 2

/-- The public key that follows a record: that of an asymmetric key held in the working copies. -/
def queryPub (s : State) (n : Nat) : Bytes :=
  let x := s.slot n
  let alg := attrAlg x.a.attr
  if (x.st = .loaded ∨ x.st = .bad) ∧ isAes alg = false then publicOf alg x.a.key.clear else []

def queryRows (s : State) (f : Nat) (e : Bytes) : List (Bool × Done) :=
  let n := e.leAt 0x10 2
  let len := 64 + (queryPub s n).length
  [(rsvSet e [(0x12, 6), (0x24, 28)], bad 0x02),
   (decide (n < 64), { status := Status.accessDenied, detail := 0x02 }),
   (decide (f ≠ 0) && foreign s (s.fn f).tenant n, { status := Status.accessDenied, detail := 0x01 }),
   (decide (e.leAt 0x20 4 < len), bad 0x24 len), (decide (e.leAt 0x18 8 % 8 ≠ 0), bad 0x27)]

/-- KEY_QUERY (R215). -/
def execKeyQuery (f : Nat) (s : State) : Outcome State :=
  runSlotCmd f Op.keyQuery (fun _ => []) (fun j s =>
    let e := j.entry
    let b := slotRecord s (e.leAt 0x10 2) ++ queryPub s (e.leAt 0x10 2)
    let r := checked (queryRows s f e) (hostWrite f (e.leAt 0x18 8) b) { status := Status.ok, r0 := b.length } s
    (some r.1, r.2)) s

/-! ## The sweep (R196) -/

/-- A copy re-masked by generator `g`. -/
def remaskCopy (g : Nat) (c : SlotCopy) (s : State) : SlotCopy × State :=
  let r := remask g c.key s
  ({ c with key := r.1 }, r.2)

/-- Both copies of slot `n`, and of its retiring generation, re-masked. -/
def remaskSlot (n : Nat) (s : State) : State :=
  let x := s.slot n
  let a := remaskCopy 10 x.a s
  let b := remaskCopy 11 x.b a.2
  let s1 := modSlot n (fun x => { x with a := a.1, b := b.1 }) b.2
  match x.retiring with
  | none => s1
  | some r =>
    let ra := remaskCopy 10 r.a s1
    let rb := remaskCopy 11 r.b ra.2
    modSlot n (fun x => { x with retiring := some { r with a := ra.1, b := rb.1 } }) rb.2

/-- The session key sets of a function re-masked by the same sweep (R69). -/
def remaskSets (f : Nat) (s : State) : State :=
  (s.fn f).sk.foldl (fun s p =>
    let a := remask 10 p.2.a s
    let b := remask 11 p.2.b a.2
    modFn f (fun g => { g with sk := g.sk.set p.1 { p.2 with a := a.1, b := b.1 } }) b.2) s

/-- Stage 6 has loaded the slots since the last reset (R196, R450). -/
def State.slotsIn (s : State) : Bool :=
  match s.boot.phase with | .stage n => decide (n ≥ 7) | .open_ => true | _ => false

/-- The next slot of the sweep; at slot 0 a pass ends and the session sets are re-masked. ks.remask.last_ms is that of the
first pass begun after stage 6, then of each that follows. -/
def sweepOn (s : State) : State :=
  let n := (s.store.sweep + 1) % 65536
  if n = 0 then
    let s1 := s.fns.keys.foldl (fun s f => remaskSets f s) s
    { s1 with store := { s1.store with
      sweep := 0, sweepAt := s.now, passOk := s.slotsIn
      lastMs := if s.store.passOk then sinceUs s.now s.store.sweepAt / 1000 else s.store.lastMs } }
  else { s with store := { s.store with sweep := n } }

/-- REMASK_SWEEP_VISIT (R196): re-mask both copies of one slot and compare them. -/
def execRemaskSweepVisit (s : State) : Outcome State :=
  let n := s.store.sweep
  let x := s.slot n
  let s1 := if x.st = .loaded ∨ x.st = .bad ∨ x.st = .erasing then remaskSlot n s else s
  let s2 := if x.st = .loaded ∧ copiesAgree x = false then markBad n s1 else s1
  settled s (sweepOn s2)

/-! ## Reloads (R198, R215) -/

/-- Some job holds the slot. -/
def slotHeld (s : State) (n : Nat) : Bool := s.jobs.any fun j => decide (j.slot = n) && j.charged

/-- SLOT_RELOAD (R198): once no job holds a BAD slot, it is reloaded; a slot that fails stays BAD. -/
def execSlotReload (n : Nat) (okA okB : Bool) (s : State) : Outcome State :=
  if (s.slot n).st = .bad ∧ (s.slot n).reloadDue = true ∧ slotHeld s n = false ∧
      (n < 64 ∨ s.domainKey.isSome = true) then
    let r := reloadSlot n okA okB s
    settled s (record 0x0303 1 n (if r.1 then 1 else 2)
      (s := if r.1 then r.2 else modSlot n (fun x => { x with reloadDue := false }) s))
  else .next s

/-- No LOADING slot is left: the reload in progress ends. -/
def endReload (s : State) : State :=
  if s.store.slots.any fun p => decide (p.2.st = .loading) then s else { s with store := { s.store with reload := false } }

/-- A LOADING slot whose reload fails is BAD and stays so (R198, R215). -/
def reloadFails (n : Nat) (s : State) : State :=
  modSlot n (fun x => { x with
    reloadDue := false, a := { x.a with attr := x.blob.leAt 0x10 8 }, b := { x.b with attr := x.blob.leAt 0x10 8 } }) (markBad n s)

/-- WRAPPED_STORE_RELOAD (R215): the reload in progress brings in one LOADING slot; copies that fail their unwrap or
disagree leave it BAD. -/
def execWrappedStoreReload (n : Nat) (okA okB : Bool) (s : State) : Outcome State :=
  if (s.slot n).st = .loading ∧ s.store.reload = true then
    let r := reloadSlot n okA okB s
    settled s (endReload (if r.1 then r.2 else reloadFails n s))
  else .next s

end Sys2Proof.Machine
end

