-- ==== Sys2Proof/Machine/Functions.lean ====
section
/-!
DEFINITION. PCI Express functions (chapter 5): allocation, function reset, session key registers, interrupts as power
state and masks change, dirty-page logging, and migration.
-/

namespace Sys2Proof.Machine

/-! ## The pool (R107, R159) -/

/-- Sum of a count over the allocated functions. -/
def sumFns (s : State) (h : Fn → Nat) : Nat :=
  ((s.fns.filter fun p => decide (p.2.run ≠ .unallocated)).map fun p => h p.2).foldl (· + ·) 0

/-- What remains of each pooled resource: job queues, completion queues, vectors, job table, slot quota (R161). -/
def poolFree (s : State) : List Nat :=
  [8192 - sumFns s (·.jqN), 8192 - sumFns s (·.cqN), 16384 - sumFns s (·.vecN), 16384 - sumFns s (·.share),
   65472 - sumFns s (·.quota)]

/-- qos.admission_limit at dummy rate `k` (R107). -/
def admissionLimit (k : Nat) : Nat := 14 * (64 - k) * 10000 / 18

/-- qos.min_sum (R107). -/
def minSum (s : State) : Nat := sumFns s (·.qosMin)

/-- A guaranteed minimum `m` for function `f` is admitted (R107). -/
def admits (s : State) (f m : Nat) : Bool := decide (minSum s - (s.fn f).qosMin + m ≤ admissionLimit s.dummyRate)

/-- The credits of a new or reset function (R108). -/
def freshCredits (g : Fn) : Fn := { g with mc := 0, ec := 0, cc := 2 * rateBytes g.qosCeil }

/-- Record a completed function command (R441). -/
def fnAdmin (f op : Nat) (s : State) : State := record 0x0204 0 f (s.fn f).tenant op (s := s)

/-- Rows every command on an allocated VF begins with (R188). -/
def fnRows (s : State) (f : Nat) : List (Bool × Done) :=
  [(decide (f < 1) || decide (f > 2048), bad 0x12), (decide ((s.fn f).run = .unallocated), bad 0x13)]

/-! ## FN_ALLOC (R160, R161) -/

/-- The function an FN_ALLOC body describes; its configuration space stays, and so does FN_EVENT.PERR (R311). -/
def newFn (e : Bytes) (g : Fn) : Fn :=
  freshCredits
    { run := .ready, tenant := e.leAt 0x12 2, jqN := e.leAt 0x14 1, cqN := e.leAt 0x15 1, vecN := e.leAt 0x16 1
      skN := e.leAt 0x17 1, quota := e.leAt 0x18 4, share := e.leAt 0x1C 2, urgentQ := e.leAt 0x1E 1
      release := e.leAt 0x1F 1, qosMin := e.leAt 0x20 4, qosCeil := e.leAt 0x24 4, qosWeight := e.leAt 0x28 2
      cfg := g.cfg, event := g.event &&& 0x10#32 }

/-- Some field but FUNCTION is out of range (R161, check 4). -/
def allocRange (e : Bytes) : Bool :=
  let n := newFn e {}
  decide (n.tenant < 1) || decide (n.jqN < 1) || decide (n.jqN > 64) || decide (n.cqN < 1) || decide (n.cqN > 64) ||
  decide (n.vecN < 1) || decide (n.vecN > 64) || decide (n.skN > 4) || decide (n.quota > 65472) ||
  decide (n.share < 1) || decide (n.share > 16384) || decide (n.urgentQ ≥ n.jqN) || decide (n.release > 2) ||
  decide (n.qosCeil > 900000) || decide (n.qosWeight < 1) || decide (n.qosWeight > 10000)

/-- RESULT0 of a pool that is short (R188). -/
def poolShort (s : State) (e : Bytes) : Nat :=
  let n := newFn e {}
  (([n.jqN, n.cqN, n.vecN, n.share, n.quota].zip (poolFree s)).zipIdx.map fun p =>
    if p.1.1 > p.1.2 then 2 ^ p.2 else 0).foldl (· + ·) 0

def allocRows (s : State) (e : Bytes) : List (Bool × Done) :=
  let f := e.leAt 0x10 2
  [(rsvSet e [(0x2A, 86)], bad 0x02), (decide (f < 1) || decide (f > 2048), bad 0x12),
   (decide ((s.fn f).run ≠ .unallocated), bad 0x13), (allocRange e, bad 0x15),
   (decide (e.leAt 0x24 4 < e.leAt 0x20 4), bad 0x11), (decide (poolShort s e ≠ 0), bad 0x14 (poolShort s e)),
   (!admits s f (e.leAt 0x20 4), bad 0x10)]

/-- FN_ALLOC. -/
def execFnAlloc (s : State) : Outcome State :=
  runAdmin 0 Op.fnAlloc (fun j s =>
    let f := j.entry.leAt 0x10 2
    checked (allocRows s j.entry) (fun s => fnAdmin f Op.fnAlloc (modFn f (newFn j.entry) s))
      { status := Status.ok, r0 := f } s) s

/-! ## Function reset (R164 to R170) -/

/-- End one job of a function at its reset point: run-ahead and job-table entries are given up, a pair's attempt is
drained without scrubbing, a core stops at its next yield point, a firmware command at its next safe step, and reads in
flight are remembered (R164). -/
def resetJob (s : State) (j : Job) : State :=
  if onCore j.ref s || !safeToEnd j then modJob j.ref (fun k => { k with stop := some { status := Status.aborted }, silent := true }) s
  else
    let s1 := if j.ref.jq = 0 then abandonAdmin j s
      else if j.committed && j.outcome.isNone then (leaveTrace j s).2 else s
    let s2 := if j.reads = .outstanding then modFn j.ref.fn (fun g => { g with reading := j.ref :: g.reading }) s1 else s1
    if j.committed then dropJob j s2 else releaseEntry j s2

/-- Configuration space after a reset: the sticky AER status stays (R164, R166). -/
def resetCfg (c : ConfigSpace) : ConfigSpace := { uncor := c.uncor, cor := c.cor, firstErr := c.firstErr, header := c.header }

/-- Answer the reads stalled on a function's random page (R167). -/
def dropStalled (f : Nat) (s : State) : State := (s.fn f).rngStall.foldl (fun s _ => emit (.unsupported f) s) s

/-- The reset point of a function reset (R164); a function without an allocation has only its configuration space to
reset. A function already being reset goes on with that reset (R168). -/
def beginReset (f cause : Nat) (s : State) : State :=
  match (s.fn f).run with
  | .resetting => s
  | .unallocated => modFn f (fun g => { g with cfg := resetCfg g.cfg }) s
  | _ =>
    let s1 := dropStalled f ((s.jobs.filter fun j => decide (j.ref.fn = f)).foldl resetJob s)
    modFn f (fun g => { g with
      run := .resetting, cfg := { resetCfg g.cfg with txPending := true }, rngBuf := [], rngStall := [], vecs := []
      quiesce := none, freezing := false, froze := false, resetCause := cause, resetAt := s.now }) s1

/-- Stop dirty logging for every function (R170, R452). -/
def stopLogs (s : State) : State := { s with fns := s.fns.map fun p => (p.1, { p.2 with log := none }) }

/-- Reset every VF (R170). -/
def resetVfs (cause : Nat) (s : State) : State :=
  (s.fns.keys.filter (· ≠ 0)).foldl (fun s f => beginReset f cause s) s

/-- A function reset as any of its causes starts it. PF0's clears VF Enable and stops dirty logging with it (R170); one that
meets the reset in progress merges into it (R168). Cause 7, the loss of the link, reaches every function. -/
def startReset (f cause : Nat) (s : State) : State :=
  if f = 0 ∧ cause ≠ 7 ∧ (s.fn 0).run = .resetting then s
  else if f = 0 then resetVfs (if cause = 7 then 7 else 4) (stopLogs (beginReset 0 cause s)) else beginReset f cause s

/-- FLR (R164). -/
def execFlr (f : Nat) (s : State) : Outcome State := settled s (startReset f 1 s)

/-- FUNCTION_RESET: the reset point, with its cause (R164, R441). -/
def execFunctionReset (f cause : Nat) (s : State) : Outcome State := settled s (startReset f cause s)

/-- VF_ENABLE_CLEAR (R170). -/
def execVfEnableClear (s : State) : Outcome State :=
  if (s.fn 0).run = .resetting then .next s
  else settled s (resetVfs 4 (modFn 0 (fun g => { g with cfg := { g.cfg with vfEnable := false } }) s))

/-- BUS_MASTER_ENABLE_CLEAR (R151): a function that holds fetched work is reset. -/
def execBusMasterEnableClear (f : Nat) (s : State) : Outcome State :=
  if (s.fn f).run = .resetting then .next s
  else
    let s1 := modFn f (fun g => { g with cfg := { g.cfg with bme := false } }) s
    settled s (if s.inFlight f = 0 then s1 else startReset f 3 s1)

/-- BUS_MASTER_ENABLE_SET (R173): vectors that wait for it are sent. -/
def execBusMasterEnableSet (f : Nat) (s : State) : Outcome State :=
  .next (if (s.fn f).run = .resetting then s
    else evalVecs f (modFn f (fun g => { g with cfg := { g.cfg with bme := true } }) s))

/-- MEMORY_SPACE_ENABLE_CLEAR (R151, R293): of PF0, or of the VFs, which share VF MSE; the read buffers are discarded. -/
def execMemorySpaceEnableClear (f : Nat) (s : State) : Outcome State :=
  .next (
    if (s.fn 0).run = .resetting then s
    else if f = 0 then modFn 0 (fun g => { g with rngBuf := [], cfg := { g.cfg with mse := false } }) s
    else
      let s1 := modFn 0 (fun g => { g with cfg := { g.cfg with vfMse := false } }) s
      { s1 with fns := s1.fns.map fun p => (p.1, if p.1 = 0 then p.2 else { p.2 with rngBuf := [] }) })

/-- The function after a reset: its allocation, sticky AER status, a PERR status bit, dirty logging and credits remain
(R108, R166, R311). -/
def afterReset (g : Fn) : Fn :=
  freshCredits
    { run := .ready, tenant := g.tenant, jqN := g.jqN, cqN := g.cqN, vecN := g.vecN, skN := g.skN, quota := g.quota
      share := g.share, urgentQ := g.urgentQ, release := g.release, qosMin := g.qosMin, qosCeil := g.qosCeil
      qosWeight := g.qosWeight, event := g.event &&& 0x10#32, cfg := resetCfg g.cfg, log := g.log }

/-- The admin command of PF0 that waits for the reset of function `f`: FN_RESET or FN_FREE. -/
def waitsReset (f op : Nat) (j : Job) : Bool :=
  decide (j.ref.fn = 0) && decide (j.ref.jq = 0) && decide (j.op = op) && decide (j.phase = 1) &&
  decide (j.entry.leAt 0x10 2 = f) && j.outcome.isNone

/-- Complete the commands that waited for the reset of `f` with OK (R169, R163): a freed function gives back what it
held. -/
def resetEnds (f : Nat) (s : State) : State :=
  match s.jobs.find? (waitsReset f Op.fnFree), s.jobs.find? (waitsReset f Op.fnReset) with
  | some j, _ =>
    decideJob j.ref { status := Status.ok } 
      (modFn f (fun g => { cfg := resetCfg g.cfg, event := g.event &&& 0x10#32 }) (fnAdmin f Op.fnFree s))
  | none, some j => decideJob j.ref { status := Status.ok } (fnAdmin f Op.fnReset s)
  | none, none => s

/-- FUNCTION_RESET_COMPLETE (R164): every read has ended and every core has let go of the function's jobs. -/
def execFunctionResetComplete (f : Nat) (s : State) : Outcome State :=
  let g := s.fn f
  if g.run = .resetting ∧ g.reading = [] ∧ s.inFlight f = 0 then
    settled s (resetEnds f (record 0x0203 0 f g.resetCause (sinceUs s.now g.resetAt) (s := modFn f afterReset s)))
  else .next s

/-- FN_RESET (R169): starts the reset, or joins the one in progress; it completes when that reset ends. -/
def execFnReset (s : State) : Outcome State :=
  runAdminSteps 0 Op.fnReset (fun j s =>
    let f := j.entry.leAt 0x10 2
    if j.phase ≠ 0 then (none, s)
    else match firstFail ((rsvSet j.entry [(0x12, 46)], bad 0x02) :: fnRows s f) with
      | some d => (some d, s)
      | none => (none, startReset f 2 (modJob j.ref (fun k => { k with phase := 1 }) s))) s

/-- The tenant's slots would exceed its quota without this function (R163, step 1). -/
def freeRows (s : State) (e : Bytes) : List (Bool × Done) :=
  let f := e.leAt 0x10 2
  let t := (s.fn f).tenant
  (rsvSet e [(0x12, 46)], bad 0x02) :: fnRows s f ++
    [(decide (s.slotsOwned t > s.slotQuota t - (s.fn f).quota), bad 0x16 (s.slotsOwned t))]

/-- FN_FREE (R163): stops dirty logging and resets the function; its resources return when the reset ends. -/
def execFnFree (s : State) : Outcome State :=
  runAdminSteps 0 Op.fnFree (fun j s =>
    let f := j.entry.leAt 0x10 2
    if j.phase ≠ 0 then (none, s)
    else match firstFail (freeRows s j.entry) with
      | some d => (some d, s)
      | none => (none, startReset f 6 (modFn f (fun g => { g with log := none })
          (modJob j.ref (fun k => { k with phase := 1 }) s)))) s

/-! ## Session key registers (R67, R68) -/

/-- FN_SK_KEY_WRITE: one word, or with `wide` the words k and k + 1 for an even k (R67). -/
def execFnSkKeyWrite (f set k : Nat) (wide : Bool) (v : Nat) (s : State) : Outcome State :=
  .next (
    if s.pageOpen f ∧ set < (s.fn f).skN ∧ k < 8 then
      if wide ∧ k % 2 ≠ 0 then refuseAccess s
      else
        modFn f (fun g =>
          let x := g.set set
          { g with sk := g.sk.set set { x with
              staging := x.staging.patch (4 * k) (Bytes.ofLE (if wide then 8 else 4) v)
              writtenK := (if wide then [k, k + 1] else [k]) ++ x.writtenK } }) s
    else s)

/-- Key words a KLEN requires (R67). -/
def keyWords (klen : Nat) : Nat := 4 + 2 * klen

/-- A LOAD may take effect (R68). -/
def loadable (x : SessionSet) (klen : Nat) : Bool :=
  decide (klen ≠ 3) && (List.range (keyWords klen)).all fun k => x.writtenK.contains k

/-- A write of FN_SK_CTL (R67, R68). DESIGN CHOICE (log entry 153): a KLEN written together with a LOAD that is refused is stored;
R68 says that the refused LOAD changes nothing and does not name the KLEN of the same write. In DECOMMISSIONED every LOAD is
refused (R236). -/
def writeSkCtl (f set : Nat) (v : Word) (s : State) : State :=
  if s.pageOpen f ∧ set < (s.fn f).skN then
    let x := (s.fn f).set set
    let klen := bitsOf v.toNat 1 0
    let y := { x with klen := klen, loadErr := x.loadErr && !v.getLsbD 17 }
    if v.getLsbD 9 then
      modFn f (fun g => { g with sk := g.sk.set set { eraseSet y with loadErr := y.loadErr } }) s
    else if v.getLsbD 8 then
      if loadable x klen && decide (s.life.lc ≠ .decommissioned) then
        let key := x.staging.take (4 * keyWords klen)
        let a := maskKey 10 key s
        let b := maskKey 11 key a.2
        let z : SessionSet := { klen := klen, valid := true, loadErr := y.loadErr, a := a.1, b := b.1 }
        modFn f (fun g => { g with sk := g.sk.set set z }) b.2
      else modFn f (fun g => { g with sk := g.sk.set set { y with loadErr := true } }) s
    else modFn f (fun g => { g with sk := g.sk.set set y }) s
  else s

/-- SESSION_KEY_LOAD: a write of FN_SK_CTL with LOAD set (R68). -/
def execSessionKeyLoad (f set : Nat) (v : Word) (s : State) : Outcome State :=
  .next (if v.getLsbD 8 then writeSkCtl f set v s else s)

/-- SESSION_KEY_CLEAR: a write of FN_SK_CTL with CLEAR set (R67). -/
def execSessionKeyClear (f set : Nat) (v : Word) (s : State) : Outcome State :=
  .next (if v.getLsbD 9 then writeSkCtl f set v s else s)

/-! ## Power states (R175) -/

/-- D3HOT_WRITE: PowerState reads D3hot; in a function with an allocation, fetching stops, run-ahead is released, the read buffer is discarded, and the function sleeps once its
committed work has ended. -/
def execD3hotWrite (f : Nat) (s : State) : Outcome State :=
  let g := s.fn f
  if g.run = .resetting then .next s
  else
    let h := { g with cfg := { g.cfg with d3 := true } }
    if g.quiesce = none ∧ (g.run = .ready ∨ g.run = .frozen) then
      settled s (enterD3 f (releaseRunAhead f (setFn f { h with
        quiesce := some s.now, rngBuf := [], froze := decide (g.run = .frozen) } s)))
    else .next (setFn f h s)

/-- A job of a function in quiescence that is to stop (R134, R175). -/
def quiesceJob (f : Nat) (j : Job) : Bool := decide (j.ref.fn = f) && j.committed && !j.taken && safeToEnd j

/-- QUIESCENCE_TIMEOUT: 10 ms after the write, jobs and commands still committed are stopped with ABORTED, cause 0. -/
def execQuiescenceTimeout (f : Nat) (s : State) : Outcome State :=
  match (s.fn f).quiesce with
  | some t =>
    if elapsedUs s.now t 10000 then
      let s1 := (s.jobs.filter fun j => quiesceJob f j && decide (j.ref.jq = 0)).foldl (fun s j => abandonAdmin j s) s
      settled s (enterD3 f (endJobs (quiesceJob f) (fun _ => { status := Status.aborted, detail := 1 }) false s1))
    else .next s
  | none => .next s

/-- A vector's timer runs on from the age it held. -/
def resumeTimer (now slept : Nat) (v : Vector_) : Vector_ := { v with t0 := v.t0 + (now - max slept v.t0) }

/-- D0_WRITE: the function returns at once; vectors with their PBA bit set are sent. -/
def execD0Write (f : Nat) (s : State) : Outcome State :=
  let g := { s.fn f with cfg := { (s.fn f).cfg with d3 := false } }
  if g.run = .d3hot then
    .next (evalVecs f (setFn f { g with
      run := if g.froze then .frozen else .ready, froze := false
      vecs := g.vecs.map fun p => (p.1, resumeTimer s.now g.sleptAt p.2) } s))
  else if g.run = .resetting then .next s
  else .next (setFn f { g with quiesce := none, froze := if g.quiesce.isSome then false else g.froze } s)

/-! ## MSI-X (R174) -/

/-- MSI_X_ENABLE_CLEAR: pending events and PBA bits are discarded. -/
def execMsixEnableClear (f : Nat) (s : State) : Outcome State :=
  .next (if (s.fn f).run = .resetting then s
    else modFn f (fun g => { g with
      cfg := { g.cfg with msixEnable := false }
      vecs := g.vecs.map fun p => (p.1, { p.2 with pending := false, n := 0, due := false, pba := false }) }) s)

/-- MSI_X_UNMASK of a vector, or of the whole function; waiting vectors are sent. -/
def execMsixUnmask (f : Nat) (v : Option Nat) (s : State) : Outcome State :=
  .next (
    if (s.fn f).run = .resetting then s
    else match v with
      | none => evalVecs f (modFn f (fun g => { g with cfg := { g.cfg with msixMask := false } }) s)
      | some k =>
        if s.pageOpen f ∧ k < (s.fn f).vecN then
          let x := (s.fn f).vec k
          evalVec f k (modFn f (fun g => { g with vecs := g.vecs.set k { x with ctrl := x.ctrl &&& 0xFFFFFFFE#32 } }) s)
        else s)

/-! ## DIRTY_LOG (R176 to R179) -/

/-- Descriptor `i` of a range table. -/
def rangeAt (t : Bytes) (i : Nat) : DirtyRange :=
  { base := t.leAt (32 * i) 8, pages := t.leAt (32 * i + 8) 4, bmA := t.leAt (32 * i + 16) 8, bmB := t.leAt (32 * i + 24) 8 }

/-- Bytes of a bitmap (R178). -/
def bitmapLen (pages : Nat) : Nat := (pages + 63) / 64 * 8

/-- Some two entries of a list of ranges meet. -/
def someMeet : List (Nat × Nat) → Bool
  | [] => false
  | a :: r => (r.any fun b => rangesMeet a.1 a.2 b.1 b.2) || someMeet r

/-- Range descriptors out of range, misaligned or overlapping (R176, R188). DESIGN CHOICE (log entry 156): a nonzero RSV word at 0x0C
of a descriptor counts as a field out of range (0x15); R476 speaks of entry bodies only. -/
def rangesBad (t : Bytes) (l : List DirtyRange) : Bool :=
  (l.any fun r => decide (r.base % 4096 ≠ 0) || decide (r.pages < 1) || decide (r.pages > 2 ^ 28) ||
    decide (r.bmA % 8 ≠ 0) || decide (r.bmB % 8 ≠ 0)) ||
  ((List.range l.length).any fun i => decide (t.leAt (32 * i + 12) 4 ≠ 0)) ||
  someMeet (l.map fun r => (r.base, 4096 * r.pages)) ||
  someMeet (l.flatMap fun r => [(r.bmA, bitmapLen r.pages), (r.bmB, bitmapLen r.pages)])

def logRows (s : State) (e : Bytes) (start : Bool) : List (Bool × Done) :=
  let f := e.leAt 0x12 2
  [(rsvSet e (if start then [(0x11, 1), (0x15, 3), (0x20, 32)] else [(0x11, 1), (0x14, 44)]), bad 0x02)] ++ fnRows s f ++
  [(start && (decide (e.at_ 0x14 < 1#8) || decide (e.at_ 0x14 > 16#8) || decide (e.leAt 0x18 8 % 8 ≠ 0)), bad 0x15),
   (decide ((s.fn f).log.isSome = start), bad 0x17)]

/-- DIRTY_LOG START (R176). -/
def execDirtyLogStart (s : State) : Outcome State :=
  runAdminSteps 0 Op.dirtyLog (fun j s =>
    let e := j.entry
    let f := e.leAt 0x12 2
    if e.at_ 0x10 ≠ 0#8 then (none, s)
    else match firstFail (logRows s e true) with
      | some d => (some d, s)
      | none => afterReads j s fun s =>
          let n := (e.at_ 0x14).toNat
          let t := j.input 0 s
          let l := (List.range n).map (rangeAt t)
          if rangesBad t l then (some (bad 0x15), s)
          else (some { status := Status.ok }, fnAdmin f Op.dirtyLog (modFn f (fun g => { g with log := some { ranges := l } }) s))) s

/-- What a SYNC or STOP reports of the bitmap it retires (R179). -/
def logReport (l : DirtyLog) : Done :=
  { status := Status.ok, r0 := min l.count 0xFFFFFFFF, r1 := b2n l.outside + 2 * b2n l.useB }

/-- SYNC or STOP: merge the cache, report, and put `next` in the log's place. -/
def logStep (op : Byte) (next : DirtyLog → Option DirtyLog) (j : Job) (s : State) : Option Done × State :=
  let f := j.entry.leAt 0x12 2
  if j.entry.at_ 0x10 ≠ op then (none, s)
  else match firstFail (logRows s j.entry false) with
    | some d => (some d, s)
    | none =>
      let s1 := mergeDirty f s
      match (s1.fn f).log with
      | none => (none, s1)
      | some l => (some (logReport l), fnAdmin f Op.dirtyLog (modFn f (fun g => { g with log := next l }) s1))

/-- DIRTY_LOG SYNC (R179): the other bitmap becomes active. -/
def execDirtyLogSync (s : State) : Outcome State :=
  runAdminSteps 0 Op.dirtyLog (logStep 1#8 fun l => some { ranges := l.ranges, useB := !l.useB }) s

/-- DIRTY_LOG STOP (R179). -/
def execDirtyLogStop (s : State) : Outcome State := runAdminSteps 0 Op.dirtyLog (logStep 2#8 fun _ => none) s

/-! ## FN_STATE_SAVE (R180, R181) -/

/-- First rows of the three operations. -/
def stateRows (s : State) (e : Bytes) (save : Bool) : List (Bool × Done) :=
  [(rsvSet e (if save then [(0x11, 1), (0x20, 32)] else [(0x11, 1), (0x14, 44)]), bad 0x02)] ++ fnRows s (e.leAt 0x12 2)

/-- A FREEZE under way: it ends when nothing of the function is committed and no admin disable is in progress. -/
def freezeGoes (f : Nat) (s : State) : Option Done × State :=
  let g := s.fn f
  if g.run ≠ .ready ∨ g.freezing = false then (some (bad 0x19), modFn f (fun g => { g with freezing := false }) s)
  else if s.busy f || g.aqBusy then (none, s)
  else (some { status := Status.ok },
    fnAdmin f Op.fnStateSave (modFn f (fun g => { g with run := .frozen, freezing := false }) (flushMirrors f s)))

/-- FN_STATE_SAVE FREEZE. -/
def execFreeze (s : State) : Outcome State :=
  runAdminSteps 0 Op.fnStateSave (fun j s =>
    let f := j.entry.leAt 0x12 2
    if j.entry.at_ 0x10 ≠ 0#8 then (none, s)
    else if j.phase ≠ 0 then freezeGoes f s
    else match firstFail (stateRows s j.entry false ++ [(decide ((s.fn f).run ≠ .ready), bad 0x19)]) with
      | some d => (some d, s)
      | none => freezeGoes f (releaseRunAhead f (modFn f (fun g => { g with freezing := true })
          (modJob j.ref (fun k => { k with phase := 1 }) s)))) s

/-- FN_STATE_SAVE THAW. -/
def execThaw (s : State) : Outcome State :=
  runAdminSteps 0 Op.fnStateSave (fun j s =>
    let f := j.entry.leAt 0x12 2
    if j.entry.at_ 0x10 ≠ 2#8 then (none, s)
    else match firstFail (stateRows s j.entry false ++ [(decide ((s.fn f).run ≠ .frozen), bad 0x19)]) with
      | some d => (some d, s)
      | none => (some { status := Status.ok },
          fnAdmin f Op.fnStateSave (modFn f (fun g => { g with run := .ready, thawed := true }) s))) s

/-- FN_AQ_CFG (R138). -/
def aqCfgWord (g : Fn) : Nat :=
  g.aqJqLog + 2 ^ 8 * g.aqCqLog + 2 ^ 16 * g.aqVec + 2 ^ 22 * b2n g.aqIrqEn + 2 ^ 29 * b2n g.aqBusy +
    2 ^ 30 * b2n g.aqErr + 2 ^ 31 * b2n g.aqOn

/-- FN_SK_CTL (R67). -/
def skCtlWord (x : SessionSet) : Nat := x.klen + 2 ^ 16 * b2n x.valid + 2 ^ 17 * b2n x.loadErr

/-- ALLOC: the FN_ALLOC body with the present QoS and release values. -/
def saveAlloc (f : Nat) (g : Fn) : Bytes :=
  (Bytes.ofLE 2 f ++ Bytes.ofLE 2 g.tenant ++ Bytes.ofNats [g.jqN, g.cqN, g.vecN, g.skN] ++ Bytes.ofLE 4 g.quota ++
    Bytes.ofLE 2 g.share ++ Bytes.ofNats [g.urgentQ, g.release] ++ Bytes.ofLE 4 g.qosMin ++ Bytes.ofLE 4 g.qosCeil ++
    Bytes.ofLE 2 g.qosWeight).fit 64

/-- ADMIN: the admin queue registers and the four indices of the pair. -/
def saveAdmin (g : Fn) : Bytes :=
  let q := g.jqs.getD 0 { log2 := 6, ring := 0, cq := 0 }
  let c := g.cqs.getD 0 { log2 := 6, ring := 0, mirror := 0 }
  Bytes.ofLE 8 g.aqJq ++ Bytes.ofLE 8 g.aqCq ++ Bytes.ofLE 8 g.aqMirror ++ Bytes.ofLE 4 (aqCfgWord g) ++ Bytes.zeros 4 ++
    Bytes.ofLE 4 q.pi.toNat ++ Bytes.ofLE 4 q.ci.toNat ++ Bytes.ofLE 4 c.pi.toNat ++ Bytes.ofLE 4 c.ci.toNat

/-- A bit per key. -/
def keyMap (l : List Nat) : Nat := (l.map (2 ^ ·)).foldl (· + ·) 0

/-- SESSION: one record of 48 bytes. -/
def saveSet (x : SessionSet) : Bytes := Bytes.ofLE 4 (skCtlWord x) ++ x.a.clear.fit 32 ++ Bytes.zeros 12

/-- MSIX: one entry. -/
def saveEntry (g : Fn) (v : Nat) : Bytes :=
  if v < g.vecN then Bytes.ofLE 8 (g.vec v).addr ++ Bytes.ofLE 4 (g.vec v).data.toNat ++ Bytes.ofLE 4 (g.vec v).ctrl.toNat
  else Bytes.zeros 16

/-- IMOD: one record of 12 bytes. -/
def saveMod (g : Fn) (now v : Nat) : Bytes :=
  let x := g.vec v
  if v < g.vecN then
    Bytes.ofLE 4 (x.countTh + 2 ^ 8 * x.timeTh + 2 ^ 31 * b2n x.pending) ++ Bytes.ofLE 2 (min x.n 0xFFFF) ++
      Bytes.ofNats [b2n x.due, 0] ++ Bytes.ofLE 4 (if x.pending then sinceUs now x.t0 else 0)
  else Bytes.zeros 12

def classCode : JobClass → Nat
  | .urgent => 0 | .standard => 1 | .bulk => 2

/-- Offsets from FN_JQ_CI of the slots of completed entries. -/
def doneSlots (x : JobQueue) : List Nat :=
  (x.entries.filter (·.done)).flatMap fun e => (List.range e.len).map fun k => (e.index - x.ci).toNat + k

/-- DONE: a job queue's bitmap, up to the highest completed slot. -/
def saveDone (x : JobQueue) : Bytes :=
  let l := doneSlots x
  let n := l.foldl (fun m k => max m (k + 1)) 0
  Bytes.ofLE ((n + 63) / 64 * 8) (keyMap l)

/-- QUEUES: the 64-byte record of a job queue, with the length of its DONE bitmap. -/
def saveJq (p : Nat × JobQueue) : Bytes :=
  (Bytes.ofNats [p.1, p.2.log2, p.2.cq, classCode p.2.cls] ++ Bytes.ofLE 4 p.2.defUs ++ Bytes.ofLE 8 p.2.ring ++
    Bytes.ofLE 4 p.2.pi.toNat ++ Bytes.ofLE 4 p.2.ci.toNat ++ Bytes.ofNats [b2n (decide (p.2.st = .failed)), 0] ++
    Bytes.ofLE 4 (saveDone p.2).length).fit 64

/-- QUEUES: the 64-byte record of a completion queue. -/
def saveCq (p : Nat × CompQueue) : Bytes :=
  (Bytes.ofNats [p.1, p.2.log2, p.2.vector + 64 * b2n p.2.irqEn, 0] ++ Bytes.zeros 4 ++ Bytes.ofLE 8 p.2.ring ++
    Bytes.ofLE 8 p.2.mirror ++ Bytes.ofLE 4 p.2.pi.toNat ++ Bytes.ofLE 4 p.2.ci.toNat).fit 64

/-- Queues other than the admin pair. -/
def others {α : Type} (m : FMap α) : FMap α := m.filter fun p => decide (p.1 ≠ 0)

/-- The body of a blob (R181). -/
def saveBody (f : Nat) (g : Fn) (now : Nat) : Bytes :=
  let vs := List.range 64
  saveAlloc f g ++ saveAdmin g ++ Bytes.ofLE 8 (keyMap g.jqs.keys) ++ Bytes.ofLE 8 (keyMap g.cqs.keys) ++
    ((List.range 4).flatMap fun k => saveSet (g.set k)) ++ vs.flatMap (saveEntry g) ++
    Bytes.ofLE 8 (keyMap (vs.filter fun v => (g.vec v).pba)) ++ vs.flatMap (saveMod g now) ++ Bytes.zeros 56 ++
    (others g.jqs).flatMap saveJq ++ (others g.cqs).flatMap saveCq ++ (others g.jqs).flatMap fun p => saveDone p.2

/-- Seconds a blob stays valid (R181). -/
abbrev blobLife : Nat := 600 * second

/-- The header of a blob. -/
def saveHead (len tenant now : Nat) (dom iv : Bytes) : Bytes :=
  Bytes.ofLE 4 0x31534647 ++ Bytes.ofLE 2 1 ++ Bytes.zeros 2 ++ Bytes.ofLE 4 len ++ Bytes.ofLE 2 tenant ++ Bytes.zeros 2 ++
    dom.fit 16 ++ Bytes.ofLE 8 Config.serial ++ Bytes.ofLE 8 now ++ Bytes.ofLE 8 (now + blobLife) ++ iv.fit 12 ++
    Bytes.zeros 12

/-- The blob: header, encrypted body, tag (R181). -/
def saveBlob (key iv dom : Bytes) (f : Nat) (g : Fn) (now : Nat) : Bytes :=
  let body := saveBody f g now
  let h := saveHead (body.length + 96) g.tenant now dom iv
  let c := gcmCrypt key (iv.fit 12) body
  h ++ c ++ gcmTag key (iv.fit 12) h c

def saveRows (s : State) (e : Bytes) : List (Bool × Done) :=
  let f := e.leAt 0x12 2
  let n := (saveBody f (s.fn f) s.now).length + 96
  stateRows s e true ++
  [(decide (e.leAt 0x18 8 % 16 ≠ 0), bad 0x15), (decide ((s.fn f).run ≠ .frozen), bad 0x19),
   (s.transport.isNone, { status := Status.unavailable, detail := 0x01 }), (decide (e.leAt 0x14 4 < n), bad 0x18 n)]

/-- FN_STATE_SAVE SAVE: each draws a fresh IV. -/
def execSave (s : State) : Outcome State :=
  runAdminSteps 0 Op.fnStateSave (fun j s =>
    let e := j.entry
    let f := e.leAt 0x12 2
    if e.at_ 0x10 ≠ 1#8 then (none, s)
    else match firstFail (saveRows s e) with
      | some d => (some d, s)
      | none => withDrawn j (fwRandom 12) s fun iv s =>
          let b := saveBlob (s.transport.getD []) iv s.life.domId f (s.fn f) s.now
          ({ status := Status.ok, r0 := b.length }, fnAdmin f Op.fnStateSave (hostWrite 0 (e.leAt 0x18 8) b s))) s

/-! ## FN_STATE_LOAD (R182) -/

/-- Bits of a number below `n` that are set. -/
def bitsSet (n v : Nat) : List Nat := (List.range n).filter fun i => v.testBit i

/-- A job queue from its record, its completed slots from its bitmap. -/
def loadJq (r : Bytes) (done : List Nat) : JobQueue :=
  let ci : Word := BitVec.ofNat 32 (r.leAt 20 4)
  { st := if r.leAt 24 1 = 1 then .failed else .active, log2 := r.leAt 1 1, ring := r.leAt 8 8, cq := r.leAt 2 1
    cls := classOf (r.leAt 3 1), defUs := r.leAt 4 4, pi := BitVec.ofNat 32 (r.leAt 16 4), ci := ci
    entries := done.map fun k => { index := ci + BitVec.ofNat 32 k, len := 1, done := true } }

/-- A completion queue from its record. -/
def loadCq (r : Bytes) : CompQueue :=
  let pi : Word := BitVec.ofNat 32 (r.leAt 24 4)
  { log2 := r.leAt 1 1, ring := r.leAt 8 8, mirror := r.leAt 16 8, vector := r.leAt 2 1 % 64, irqEn := bit (r.leAt 2 1) 6
    pi := pi, covered := pi, ci := BitVec.ofNat 32 (r.leAt 28 4) }

/-- Job queues from their numbers, records and bitmap lengths in order, each taking its bitmap from the bytes that
remain. -/
def loadJqs : List Nat → List Bytes → List Nat → Bytes → FMap JobQueue
  | k :: ks, r :: rs, n :: ns, d =>
    FMap.set (loadJqs ks rs ns (d.drop n)) k (loadJq r (bitsSet (8 * n) (Bytes.toLE (d.take n))))
  | _, _, _, _ => []

/-- Vector `v` from a blob's body. -/
def loadVec (b : Bytes) (now v : Nat) : Vector_ :=
  let m := b.slice (0x548 + 12 * v) 12
  let w := m.leAt 0 4
  { countTh := w % 256, timeTh := w / 256 % 65536, pending := bit w 31, n := m.leAt 4 2, due := decide (m.leAt 6 1 ≠ 0)
    t0 := now - m.leAt 8 4 * second / 1000000, addr := b.leAt (0x140 + 16 * v) 8
    data := BitVec.ofNat 32 (b.leAt (0x148 + 16 * v) 4), ctrl := BitVec.ofNat 32 (b.leAt (0x14C + 16 * v) 4)
    pba := bit (b.leAt 0x540 8) v }

/-- Session key set `k` from a blob's body. -/
def loadSet (b : Bytes) (k : Nat) (s : State) : SessionSet × State :=
  let r := b.slice (0x80 + 48 * k) 48
  let w := r.leAt 0 4
  let x : SessionSet := { klen := w % 4, valid := bit w 16, loadErr := bit w 17 }
  if x.valid then
    let key := (r.slice 4 32).take (4 * keyWords x.klen)
    let m := maskKey 10 key s
    let n := maskKey 11 key m.2
    ({ x with a := m.1, b := n.1 }, n.2)
  else (x, s)

/-- Restore session set after session set. -/
def loadSets (f : Nat) (b : Bytes) (s : State) : State :=
  (List.range (s.fn f).skN).foldl (fun s k =>
    let r := loadSet b k s
    modFn f (fun g => { g with sk := g.sk.set k r.1 }) r.2) s

/-- The admin registers and pair from a blob's body. -/
def loadAdmin (b : Bytes) (g : Fn) : Fn :=
  let w := b.leAt 0x58 4
  let g1 := { g with
    aqJq := b.leAt 0x40 8, aqCq := b.leAt 0x48 8, aqMirror := b.leAt 0x50 8, aqJqLog := w % 32, aqCqLog := w / 256 % 32
    aqVec := w / 65536 % 64, aqIrqEn := bit w 22, aqErr := bit w 30 }
  if bit w 31 then
    let h := aqCreate g1
    let pi : Word := BitVec.ofNat 32 (b.leAt 0x68 4)
    { h with
      jqs := h.jqs.map fun p => (p.1, { p.2 with pi := BitVec.ofNat 32 (b.leAt 0x60 4), ci := BitVec.ofNat 32 (b.leAt 0x64 4) })
      cqs := h.cqs.map fun p => (p.1, { p.2 with pi := pi, covered := pi, ci := BitVec.ofNat 32 (b.leAt 0x6C 4) }) }
  else g1

/-- QoS and release values from a blob's ALLOC; a minimum that R107 would not admit leaves the function's own. -/
def loadQos (s : State) (f : Nat) (b : Bytes) (g : Fn) : Fn :=
  let m := b.leAt 0x10 4
  let h := { g with urgentQ := b.leAt 0x0E 1, release := b.leAt 0x0F 1, qosWeight := b.leAt 0x18 2 }
  if admits s f m then { h with qosMin := m, qosCeil := b.leAt 0x14 4 } else h

/-- Restore a function from a blob's body and leave it FROZEN. -/
def loadFn (f : Nat) (b : Bytes) (s : State) : State :=
  let jk := (bitsSet 64 (b.leAt 0x70 8)).filter (· ≠ 0)
  let ck := (bitsSet 64 (b.leAt 0x78 8)).filter (· ≠ 0)
  let rec_ : Nat → Bytes := fun i => b.slice (0x880 + 64 * i) 64
  let jr := (List.range jk.length).map rec_
  let cr := (List.range ck.length).map fun i => rec_ (jk.length + i)
  let lens := jr.map fun r => r.leAt 26 4
  let jqs := loadJqs jk jr lens (b.drop (0x880 + 64 * (jk.length + ck.length)))
  modFn f (fun g =>
    let h := loadAdmin b (loadQos s f b g)
    { h with
      run := .frozen
      jqs := h.jqs ++ jqs, cqs := h.cqs ++ ck.zip (cr.map loadCq)
      vecs := (List.range h.vecN).map fun v => (v, loadVec b s.now v) }) (loadSets f b s)

/-- Conditions on a blob that has been read (R182). -/
def stateBlobRows (s : State) (f : Nat) (blob : Bytes) : List (Bool × Done) :=
  let g := s.fn f
  let n := blob.length
  let h : Bytes := blob.take 80
  let c := (blob.drop 80).take (n - 96)
  let key := s.transport.getD []
  let b := gcmCrypt key (h.slice 0x38 12) c
  [(decide (n < 0x8E0) || decide (h.leAt 0 4 ≠ 0x31534647) || decide (h.leAt 4 2 ≠ 1) || decide (h.leAt 8 4 ≠ n) ||
      decide (gcmTag key (h.slice 0x38 12) h c ≠ blob.drop (n - 16)) || decide (h.slice 0x10 16 ≠ s.life.domId.fit 16), bad 0x1A),
   (decide (s.now ≥ h.leAt 0x30 8), bad 0x1B),
   (decide (h.leAt 0x0C 2 ≠ g.tenant) || decide (b.leAt 4 1 ≠ g.jqN) || decide (b.leAt 5 1 ≠ g.cqN) ||
      decide (b.leAt 6 1 ≠ g.vecN) || decide (b.leAt 7 1 ≠ g.skN) || decide (b.leAt 0x0C 2 ≠ g.share), bad 0x1C)]

/-- Rows before a FN_STATE_LOAD reads its blob; `stateBlobRows` follow. DESIGN CHOICE (log entry 156): R182 and R188 list the conditions
without an order; the function's state (0x19) comes first, then the domain, then the blob's 0x1A, 0x1B and 0x1C. -/
def loadRows (s : State) (e : Bytes) : List (Bool × Done) :=
  let f := e.leAt 0x10 2
  let g := s.fn f
  (rsvSet e [(0x12, 2), (0x20, 32)], bad 0x02) :: fnRows s f ++
  [(decide (g.run ≠ .ready) || g.quiesce.isSome || g.aqOn || !g.jqs.isEmpty || !g.cqs.isEmpty || g.thawed, bad 0x19),
   (s.transport.isNone, { status := Status.unavailable, detail := 0x01 })]

/-- FN_STATE_LOAD. -/
def execFnStateLoad (s : State) : Outcome State :=
  runAdminSteps 0 Op.fnStateLoad (fun j s =>
    let e := j.entry
    let f := e.leAt 0x10 2
    match firstFail (loadRows s e) with
    | some d => (some d, s)
    | none => afterReads j s fun s =>
        let blob := j.input 0 s
        match firstFail (stateBlobRows s f blob) with
        | some d => (some d, s)
        | none =>
          let b := gcmCrypt (s.transport.getD []) (blob.slice 0x38 12) ((blob.drop 80).take (blob.length - 96))
          (some { status := Status.ok }, fnAdmin f Op.fnStateLoad (loadFn f b s))) s

end Sys2Proof.Machine
end

