-- ==== Sys2Proof/Machine/Alarm.lean ====
section
/-!
DEFINITION. Life-cycle transitions, alarms and what they destroy: Vesper's records and latches, the response to a
raised lock class, the closing of a ceremony.
-/

namespace Sys2Proof.Machine

/-! ## Vesper's records (R402, R479) -/

/-- Vesper's buffer with one more record: when it is full, the first 56 and the newest 8 stay (R402). -/
def pushBuffer (e : EventRec) (v : Vesper) : Vesper :=
  if v.buf.length < 64 then { v with buf := v.buf ++ [e] }
  else { v with buf := v.buf.take 56 ++ (v.buf.drop 57 ++ [e]), lost := satAdd v.lost 255 }

/-- A record Vesper makes, stamped with Meridian time while the main die's counter runs and with calendar time otherwise
(R479). It is passed on at once while the counter runs, behind whatever still waits in the buffer (R401, R402). -/
def vesperRecord (code level : Nat) (p0 : Nat := 0) (p1 : Nat := 0) (p2 : Nat := 0) (p3 : Nat := 0) (s : State) : State :=
  let e : EventRec :=
    { time := if s.clock.running then s.now else s.vesper.calendar, code := code, level := level, vesper := true
      calendar := !s.clock.running, p0 := p0 % 2 ^ 32, p1 := p1 % 2 ^ 32, p2 := p2 % 2 ^ 32, p3 := p3 % 2 ^ 16 }
  if s.clock.running && s.vesper.buf.isEmpty then acceptRecord e s else { s with vesper := pushBuffer e s.vesper }

/-- Checkpoint the life counters and the calendar on the store die (R412). -/
def checkpoint (s : State) : State := { s with vesper := { s.vesper with stored := s.vesper.counts, storedCal := s.vesper.calendar } }

/-- One more alarm condition recorded, with its checkpoint while main power is present (R412). -/
def countAlarm (s : State) : State :=
  let s1 := { s with vesper := { s.vesper with counts := { s.vesper.counts with alarms := satAdd s.vesper.counts.alarms 0xFFFFFFFF } } }
  if s.clock.running then checkpoint s1 else s1

/-! ## Ceremonies cut short (R233) -/

/-- The EXECUTE or CONTINUE of a ceremony completes with `d`, over the path it came by; its output goes to OUT_ADDR or
into the RESPONSE (R227, R353). -/
def answerCaller (c : Option Caller) (d : Done) (out : Bytes) (s : State) : State :=
  match c with
  | none => s
  | some (.admin r) =>
    match s.job? r with
    | some j =>
      if j.outcome.isNone then decideJob r d (if out.isEmpty then s else hostWrite r.fn (j.entry.leAt 0x28 8) out s) else s
    | none => s
  | some (.fdp id _ _) => respond id d out s

/-- Record a ceremony's step (R441): 1 open, 2 execute, 3 close, 4 cancel, 5 expire. -/
def ceremonyRecord (c : Ceremony) (how : Nat) (s : State) : State :=
  record 0x0401 0 c.id c.action how (if c.fdpPath then 2 else 1) (s := s)

/-- Close the open ceremony: its approvals and ephemeral keys are gone, and a waiting or running command ends with
`d` (R232, R233). -/
def closeCeremony (how : Nat) (d : Done) (s : State) : State :=
  match s.custody.cer with
  | none => s
  | some c => ceremonyRecord c how (answerCaller c.caller d [] { s with custody := { s.custody with cer := none } })

/-- An alarm of class L, Z or V, or a reset of the secure world, closes the ceremony: a waiting EXECUTE completes with
QUORUM_REQUIRED, 0x04, and an executing action with LOCKED, 0x00 (R233). -/
def alarmCloses (s : State) : State :=
  match s.custody.cer with
  | none => s
  | some c => closeCeremony 3 (if c.stage = .executing then { status := Status.locked }
      else { status := Status.quorumRequired, detail := 0x04 }) s

/-! ## Erasures (R219, R397) -/

/-- Every IDE key erased: each stream goes insecure (R187). -/
def eraseIde (s : State) : State := { s with link := { s.link with ide := [], ideKeys := [] } }

/-- A slot whose working copies are erased: it returns from its blob, when a reload runs (R215). -/
def unloadSlot (x : Slot) : Slot :=
  match x.st with
  | .loaded | .bad | .erasing => { x with st := .loading, a := {}, b := {}, retiring := none, reloadDue := false, pendingP := none }
  | _ => { x with a := {}, b := {}, retiring := none, reloadDue := false, pendingP := none }

/-- Both working copies of every slot, and the retiring table, erased (R397). -/
def eraseSlots (s : State) : State :=
  { s with store := { s.store with slots := s.store.slots.map fun p => (p.1, unloadSlot p.2), reload := false } }

/-- The generator's state, the entropy pool and every buffer erased (R290). -/
def eraseRandom (s : State) : State :=
  let s1 := eraseGenerator s
  { s1 with rng := { s1.rng with pool := [], fwBuf := [], fault := false } }

/-- A slot command in flight (R220). -/
def isSlotCommand (j : Job) : Bool := decide (j.ref.jq = 0) && isSlotCmd j.op

/-- A transition ends every job and slot command in flight, except RNG_FILL jobs (R220). -/
def endsAtTransition (j : Job) : Bool := (decide (j.ref.jq ≠ 0) && decide (j.op ≠ Op.rngFill)) || isSlotCommand j

/-- A slot command ended before its effect: what it changed goes back, and one left over from a function's reset is gone
(R164, R206). -/
def undoSlotCommand (j : Job) (s : State) : State :=
  let s1 := abandonAdmin j s
  if j.silent && decide ((s.fn j.ref.fn).run = .resetting) then dropJob j s1 else s1

/-- End the work in flight with LOCKED. -/
def endWork (detail : Nat) (atOnce : Bool) (s : State) : State :=
  let s1 := (s.jobs.filter fun j => isSlotCommand j && !j.taken).foldl (fun s j => undoSlotCommand j s) s
  endJobs endsAtTransition (fun _ => { status := Status.locked, detail }) atOnce s1

/-- Erase the Vesper root, and with it the main die's copy (R397, R400). -/
def eraseRoot (s : State) : State :=
  { s with
    life := { s.life with root := [], rootMain := [] }
    vesper := { s.vesper with counts := { s.vesper.counts with
      voids := if s.life.root = [] then s.vesper.counts.voids else satAdd s.vesper.counts.voids 0xFFFFFFFF } } }

/-- The wrapped domain key destroyed: the domain objects return to 0 (R219, R236). -/
def eraseDomain (s : State) : State :=
  persist 4 { s with
    life := { s.life with dkWrapped := [], domId := Bytes.zeros 16, domSince := 0, domHow := 0 }
    store := { s.store with slots := (s.store.slots.set 0 (emptySlot (s.slot 0))).set 1 (emptySlot (s.slot 1)) } }

/-- Every slot, blob and usage checkpoint destroyed; last generations stay (R219). Slots 2 and 3 hold the attestation
keys, which the identity secret re-creates. -/
def destroyStore (s : State) : State :=
  { s with store := { s.store with
    slots := s.store.slots.map fun p => (p.1, if p.1 = 2 ∨ p.1 = 3 then p.2 else emptySlot p.2), reload := false } }

/-! ## Life-cycle (R219) -/

/-- Code of a life-cycle state. -/
def LifeState.code (x : LifeState) : Nat := x.ctorIdx

/-- Enter a life-cycle state and record it; `id` is the CEREMONY_ID, or 0 for an alarm. Outside LOCKED the lock class and
the time of the lock are 0 (R332). -/
def enterLife (x : LifeState) (id : Nat) (s : State) : State :=
  record 0x0304 0 s.life.lc.code x.code id (s := persist 0 { s with life := { s.life with
    lc := x, changed := if s.clock.running then s.now else s.vesper.calendar
    lockClass := if x = .locked then s.life.lockClass else .none_
    lockTime := if x = .locked then s.life.lockTime else 0 } })

/-- lc.lock_class: 1 L, 2 Z, 3 V, 4 lock ceremony or failed set (R228). -/
def LockClass.code : LockClass → Nat
  | .none_ => 0
  | .ceremony => 4
  | .l => 1
  | .z => 2
  | .v => 3

/-- Order of severity: 4, then L, then Z, then V (R396). -/
def LockClass.rank (x : LockClass) : Nat := x.ctorIdx

/-- The lock class of a response class code: 1 L, 2 Z, 3 V. -/
def lockOf : Nat → LockClass
  | 1 => .l
  | 2 => .z
  | 3 => .v
  | _ => .none_

/-- Enter LOCKED from INITIALIZED or OPERATIONAL (R219, R328, R396). -/
def enterLocked (c : LockClass) (at_ id : Nat) (s : State) : State :=
  enterLife .locked id { s with life := { s.life with before := s.life.lc, lockClass := c, lockTime := at_ } }

/-! ## The response to a latch (R395 to R399) -/

/-- What the device erases and ends when a class is raised, in the order of R397. -/
def respondTo (c : LockClass) (root : Bool) (s : State) : State :=
  let heavy := decide (c.rank ≥ LockClass.z.rank)
  let s1 := eraseIde (eraseAllSets (alarmCloses s))
  let s2 := if c = .v ∧ root = true then eraseRoot s1 else s1
  let s3 := endWork 0 heavy s2
  let s4 := if heavy then eraseRandom (eraseSlots s3) else s3
  if heavy then endSessions (fun _ => true) s4 else s4

/-- Lock class a latch of class `c` leaves (R396). -/
def raised (s : State) (c : LockClass) : LockClass := if s.life.lockClass.rank < c.rank then c else s.life.lockClass

/-- What a latch does that raises no lock class. Any alarm closes the ceremony and erases the session keys (R70, R233); one
of class Z or V also erases the IDE keys and the random source's state and ends the sessions (R187, R290, R356). -/
def repeatResponse (c : LockClass) (s : State) : State :=
  let s1 := eraseAllSets (alarmCloses s)
  if c.rank ≥ LockClass.z.rank then endSessions (fun _ => true) (eraseRandom (eraseIde s1)) else s1

/-- A latch of class `c` acts (R396, R397, R399): in INITIALIZED and OPERATIONAL it locks the device, in LOCKED its erasures
follow when it raises the lock class, and in the other states it acts without a change of state or of the root. -/
def lockResponse (c : LockClass) (s : State) : State :=
  match s.life.lc with
  | .initialized | .operational => respondTo c true (enterLocked c s.vesper.calendar 0 s)
  | .locked =>
    if s.life.lockClass.rank < c.rank then
      respondTo c true { s with life := { s.life with lockClass := c, lockTime := s.vesper.calendar } }
    else repeatResponse c s
  | _ => respondTo c false s

/-- Class in force of group `g`: 0 N, 1 L, 2 Z, 3 V, 7 OFF (R392, R394); CELL_GONE and VBAT_LOW act as class N while a
cell service window is open (R409). -/
def State.classOfGroup (s : State) (g : Nat) : Nat :=
  if (g = 15 ∨ g = 17) ∧ s.vesper.window.isSome = true then 0 else s.vesper.classes.getD g 0

/-- Group `g` latches with class `c` (R395). -/
def latchGroup (g c : Nat) (s : State) : State :=
  let v := s.vesper
  let s1 := { s with vesper := { v with latch := v.latch ||| 2 ^ g, latchedAt := v.latchedAt.set g v.calendar } }
  let new := match s.life.lc with
    | .initialized | .operational | .locked => (raised s (lockOf c)).code
    | _ => s.life.lockClass.code
  lockResponse (lockOf c) (setErr Block.vs 4 (countAlarm (vesperRecord 0x0701 5 g c new 1 (s := s1))))

/-- Group `g` finds its alarm condition present or absent (R389, R392, R395). -/
def sense (g : Nat) (present : Bool) (s : State) : State :=
  let v := s.vesper
  let c := s.classOfGroup g
  let was := v.cond.testBit g
  let set (b : Bool) (s : State) : State :=
    { s with vesper := { s.vesper with cond := if b then v.cond ||| 2 ^ g else v.cond - (if was then 2 ^ g else 0) } }
  if c = 7 then set false s
  else if present = false then set false s
  else
    let s1 := set true s
    if c = 0 then (if was then s1 else countAlarm (vesperRecord 0x0702 0 g (s := s1)))
    else if v.latch.testBit g then { s1 with vesper := { s1.vesper with repeats := satAdd s1.vesper.repeats 0xFFFFFFFF } }
    else latchGroup g c s1

end Sys2Proof.Machine
end

