-- ==== Sys2Proof/Machine/Vesper.lean ====
section
/-!
DEFINITION. Vesper's own commands: the sensors, the backup cell with its charger and models, the calendar, the watch
oscillator, and its supply.
-/

namespace Sys2Proof.Machine

/-- `s` with Vesper changed. -/
def modVesper (h : Vesper → Vesper) (s : State) : State := { s with vesper := h s.vesper }

/-- `s` with the cell changed. -/
def modCell (h : Cell → Cell) (s : State) : State := modVesper (fun v => { v with cell := h v.cell }) s

/-- After VBAT_CUT has latched on battery, Vesper does nothing else until a supply returns (R400). -/
def State.vesperWorks (s : State) : Bool := s.vesper.vchg || !s.vesper.cond.testBit 16

/-- A class P object of type I32. -/
def State.paramInt (s : State) (index sub : Nat) (d : Int) : Int := int32 (s.param index sub (ofInt32 d))

/-! ## Sensors (R389) -/

/-- The 16 bits a mesh sample drives: the first two bytes of the pattern generator's block, AES-128 in CTR mode (R391).
DESIGN CHOICE (log entry 144): the spec does not say which bits of the block are driven. -/
def Vesper.pattern (v : Vesper) : BitVec 16 :=
  BitVec.ofNat 16 (Bytes.toBE ((aesEnc v.patKey (Bytes.ofBE 16 v.patCtr)).take 2))

/-- Groups 0 to 3: a returned pattern bit differs, or, for the package mesh, the resistance is outside ±25 % (R389,
R391). -/
def meshAlarm (v : Vesper) (m : MeshReading) : Bool :=
  let r := Config.meshOhms m.layer
  decide (m.returned ≠ v.pattern) ||
    (decide (m.layer < 2) && (decide (4 * m.ohms < 3 * r) || decide (4 * m.ohms > 5 * r)))

/-- MESH_SAMPLE (R391): each sample takes a fresh pattern. An OFF group is not sampled (R392). -/
def execMeshSample (m : MeshReading) (s : State) : Outcome State :=
  if s.vesperWorks ∧ s.classOfGroup m.layer ≠ 7 ∧ m.layer < 4 then
    settled s (sense m.layer (meshAlarm s.vesper m) (modVesper (fun v => { v with patCtr := (v.patCtr + 1) % 2 ^ 128 }) s))
  else .next s

/-- The sampled level is the alarm level: an open contact reads high (R472), and mode 0 alarms when it is open (R392). -/
def xtampAlarm (s : State) (input : Nat) (high : Bool) : Bool :=
  if s.param 0x4000 (0x40 + input) 0 = 0 then high else !high

/-- XTAMP_SAMPLE (R389, R472): two equal samples in a row decide. -/
def execXtampSample (input : Nat) (high : Bool) (s : State) : Outcome State :=
  if s.vesperWorks ∧ s.classOfGroup (4 + input) ≠ 7 ∧ input < 4 then
    let s1 := modVesper (fun v => { v with xtamp := v.xtamp.set input (some high) }) s
    if s.vesper.xtamp.getD input none = some high then settled s (sense (4 + input) (xtampAlarm s input high) s1)
    else .next s1
  else .next s

/-- TEMP_SAMPLE (R389): the die temperature, in 0.1 °C, against both limits. -/
def execTempSample (dc : Int) (s : State) : Outcome State :=
  if s.vesperWorks then
    settled s (sense 9 (decide (dc > 10 * s.paramInt 0x4000 2 125))
      (sense 8 (decide (dc < 10 * s.paramInt 0x4000 1 (-30))) (modVesper (fun v => { v with dieTemp := dc }) s)))
  else .next s

/-- Group of a supply's window comparators: VDD_CORE, VDD_SRAM, the three VDD_PHY rails, VDD_IO and VCHG (R389). -/
def glitchGroup (supply : Nat) : Nat := if supply = 0 then 10 else if supply = 1 then 11 else if supply < 5 then 12 else 13

/-- A condition that appears and is over. -/
def senseOnce (g : Nat) (s : State) : State := sense g false (sense g true s)

/-- The voltage a supply's window lies around, in mV: the reference of GLITCH_CORE, or the nominal value (R390, R460). -/
def glitchNominal (s : State) (supply : Nat) : Nat :=
  match supply with
  | 0 => s.vesper.glitchRef
  | 1 | 2 => 750
  | 3 => 900
  | 4 => 1200
  | 5 => 1800
  | _ => 3300

/-- The power-down threshold of a main supply, in mV (R460): below it the device has lost power (R445). -/
def powerDown (supply : Nat) : Nat :=
  match supply with
  | 0 => 450
  | 1 | 2 => 550
  | 3 => 660
  | 4 => 880
  | 5 => 1350
  | _ => 0

/-- `mv` lies outside ±tamp.glitch.pct of `r` (R389). -/
def outside (pct r mv : Nat) : Bool := decide (100 * mv < (100 - pct) * r) || decide (100 * mv > (100 + pct) * r)

/-- GLITCH (R389, R390, R462): a supply stands at `mv` for 5 ns or longer while the groups are armed. Below
the power-down threshold it is a power loss and no alarm (R445). -/
def execGlitch (supply mv : Nat) (s : State) : Outcome State :=
  if s.vesperWorks ∧ s.vesper.armed = true ∧ outside (s.param 0x4000 4 15) (glitchNominal s supply) mv = true ∧ powerDown supply ≤ mv then
    settled s (senseOnce (glitchGroup supply) s)
  else .next s

/-- FI_DELAY (R389): a delay line has completed outside its band while the main supplies are valid. -/
def execFiDelay (_sensor : Nat) (s : State) : Outcome State :=
  if s.vesperWorks ∧ s.boot.supplies = true then settled s (senseOnce 14 s) else .next s

/-- tamp.vbat.low_mv. -/
def State.vbatLow (s : State) : Nat := s.param 0x4000 5 2400

/-- VBAT has been measured; a service window notes a reading below 1,500 mV (R409). -/
def noteVbat (mv : Nat) (s : State) : State :=
  modVesper (fun v => { v with
    cell := { v.cell with vbat := mv }
    window := v.window.map fun w => { w with low := w.low || decide (mv < 1500) } }) s

/-- VBAT_SAMPLE (R389): with main power, VBAT against tamp.vbat.low_mv. -/
def execVbatSample (mv : Nat) (s : State) : Outcome State :=
  if s.vesperWorks ∧ s.vesper.vchg = true then settled s (sense 15 (decide (mv < s.vbatLow)) (noteVbat mv s)) else .next s

/-- VBAT_CUT (R399): on battery, VBAT below 2,000 mV. -/
def execVbatCut (mv : Nat) (s : State) : Outcome State :=
  if s.vesper.vchg then .next s
  else settled s (sense 16 (decide (mv < 2000)) (noteVbat mv s))

/-- The charger feeds the cell. -/
def ChargeState.on : ChargeState → Bool
  | .cc | .cv => true
  | _ => false

/-- Condition of CELL_GONE (R389). -/
def cellGone (s : State) (present : Bool) (mv : Nat) : Bool :=
  !present || (decide (mv < 1500) && !s.vesper.cell.st.on)

/-- CELL_PRESENCE_CHECK (R389): with main power. -/
def execCellPresenceCheck (present : Bool) (s : State) : Outcome State :=
  if s.vesperWorks ∧ s.vesper.vchg = true then
    settled s (sense 17 (cellGone s present s.vesper.cell.vbat) (modCell (fun c => { c with present := present }) s))
  else .next s

/-- The 2 s after Vesper's supply first rose, in which XTAL is not evaluated (R468). -/
def xtalHoldOff (s : State) : Bool :=
  match s.vesper.rose with | some t => decide (s.vesper.calendar < t + 2 * second) | none => false

/-- XTAL_FAIL (R411): no crystal edge for 2 ms. -/
def execXtalFail (s : State) : Outcome State :=
  if s.vesperWorks ∧ s.vesper.xtalOk = true ∧ xtalHoldOff s = false then
    let s1 := modVesper (fun v => { v with
      xtalOk := false, counts := { v.counts with xtalFail := satAdd v.counts.xtalFail 0xFFFFFFFF } }) s
    settled s (vesperRecord 0x0704 0 1 (s := setErr Block.vs 5 (sense 18 true s1)))
  else .next s

/-- XTAL_RETURN (R411). -/
def execXtalReturn (s : State) : Outcome State :=
  if s.vesperWorks ∧ s.vesper.xtalOk = false then
    settled s (vesperRecord 0x0704 0 0 (s := sense 18 false (modVesper (fun v => { v with xtalOk := true }) s)))
  else .next s

/-- SHADOW_CHECK (R389): the true and complement forms of Vesper's state. -/
def execShadowCheck (agree : Bool) (s : State) : Outcome State :=
  if s.vesperWorks then settled s (sense 19 (!agree) s) else .next s

/-! ## Capacity and holdover (R404 to R406) -/

/-- cell.capacity_nom_uah. -/
def State.capNom (s : State) : Nat := s.param 0x4100 0x10 65000

/-- cell.charged_mah. -/
def Cell.chargedMah (c : Cell) : Nat := c.charged / 3600000

/-- 1 − 0.0005 × EFC − 0.03 × A, in 10^-9, floored at 0 (R405). -/
def fade (nom : Nat) (c : Cell) : Nat :=
  (1000000000 - ((c.chargedMah * 500000000 / nom + c.aged * 3 / 100000 : Nat) : Int)).toNat

/-- cell.capacity_est_uah (R405). -/
def State.capEst (s : State) : Nat := s.capNom * fade s.capNom s.vesper.cell * s.vesper.cell.k / 10 ^ 18

/-- cell.remaining_uah. -/
def Cell.remainingUah (c : Cell) : Nat := c.remaining / 3600

/-- cell.soc_pm (R404); of a cell of no estimated capacity the manual states none, and it is a free value. -/
def State.socPm (s : State) : Nat :=
  if s.capEst = 0 then Config.socEmpty s.free % 65536 else s.vesper.cell.remainingUah * 1000 / s.capEst

/-- The n-th root of `m`, rounded down, below 2^fuel. -/
def rootFuel (n m : Nat) : Nat → Nat → Nat
  | 0, x => x
  | k + 1, x => rootFuel n m k (if (x + 2 ^ k) ^ n ≤ m then x + 2 ^ k else x)

/-- 2^(d / 100) in 10^-12, rounded down. -/
def powTwo (d : Int) : Nat :=
  rootFuel 100 (if d ≥ 0 then 2 ^ d.toNat * 10 ^ 1200 else 10 ^ 1200 / 2 ^ (-d).toNat) 64 0

/-- Ageing of one hour at `t`, in 10^-12 years (R405). -/
def hourAge (t : Int) : Nat := powTwo (t - 250) / 8766

/-- Mean of a list of temperatures; the present reading when there is none. -/
def meanTemp (l : List Int) (now : Int) : Int := if l.isEmpty then now else l.foldl (· + ·) 0 / (l.length : Int)

/-- T̄, the mean NTC temperature of the past 30 days (R406). -/
def State.meanMonth (s : State) : Int := meanTemp s.vesper.cell.hours s.vesper.cell.temp

/-- I(1, T̄) + s in units of 1/876,000 µA (R406). -/
def drain876 (t : Int) (cap : Nat) : Nat := 26280 * (200 + (max 0 (t - 250)).toNat) + cap

/-- cell.hold_h (R406). -/
def State.holdH (s : State) : Nat :=
  (100 * s.vesper.cell.remainingUah - 5 * s.capEst) * 8760 / drain876 s.meanMonth s.capEst

/-- Capacity below which a full cell holds for less than `h` hours (R406): 0.95 × c / (I + s) = h. -/
def capFloor (t : Int) (h : Nat) : Nat := h * 26280 * (200 + (max 0 (t - 250)).toNat) / (832200 - h)

/-- Fall of the capacity in µAh per 90 days: that measured, or that of R405 while it is faster (R406). -/
def State.capFall (s : State) : Nat :=
  let old := s.vesper.cell.capacity.getLastD s.capEst
  let hours := s.vesper.cell.capacity.length
  let seen := if hours = 0 then 0 else (old - s.capEst) * 2160 / hours
  let aged := s.capNom * s.vesper.cell.k * 3 * hourAge s.meanMonth * 2160 / (100 * 10 ^ 21)
  max seen aged

/-- cell.replace_by (R406); the end of time when the capacity does not fall. -/
def State.replaceBy (s : State) : Nat :=
  let fl := capFloor s.meanMonth (s.param 0x4100 0x30 4380)
  if s.capFall = 0 then 2 ^ 64 - 1
  else min (2 ^ 64 - 1) (s.vesper.calendar + (s.capEst - fl) * (90 * 86400) / s.capFall * second)

/-! ## Charger (R403) -/

/-- v_cv at temperature `t` (0.1 °C): clamped from 2,950 to 3,200 mV. -/
def State.vCv (s : State) (t : Int) : Nat :=
  (max 2950 (min 3200 ((s.param 0x4100 0x12 3100 : Int) + s.paramInt 0x4100 0x13 (-3000) * (t - 250) / 10000))).toNat

/-- The NTC is open or shorted: above 1 MΩ or below 100 Ω (R470), as a temperature in 0.1 °C. -/
def ntcFault (t : Int) : Bool := decide (t < -601) || decide (t > 2235)

/-- The state changes, and every entry into FAULT is recorded (R403). -/
def chargeTo (st : ChargeState) (s : State) : State :=
  let old := s.vesper.cell.st
  let s1 := modCell (fun c => { c with st := st }) s
  if st = .fault ∧ old ≠ .fault then vesperRecord 0x0705 0 old.ctorIdx st.ctorIdx s.vesper.cell.vbat (s := s1) else s1

/-- CC begins. -/
def chargeCc (s : State) : State :=
  chargeTo .cc (modCell (fun c => { c with
    tStart := s.vesper.calendar, lowFor := 0, socStart := some s.socPm, qIn := 0 }) s)

/-- k after a charge that began at `soc` and brought in `q` µA·s (R405). The ratio to a modelled capacity of 0 is a free
value. -/
def nextK (s : State) (soc q : Nat) : Nat :=
  let c := s.vesper.cell
  let measured := q / 3600 * 1000 / (1000 - soc)
  let model := s.capNom * fade s.capNom c / 10 ^ 9
  max 500000000 (min 1100000000 ((3 * c.k + (if model = 0 then Config.ratioEmpty s.free else measured * 10 ^ 9 / model)) / 4))

/-- DONE: the count is full, and a deep enough charge corrects k (R404, R405). -/
def chargeDone (s : State) : State :=
  let c := s.vesper.cell
  let s1 := match c.socStart with
    | some soc => if soc ≤ 400 then modCell (fun c => { c with k := nextK s soc c.qIn }) s else s
    | none => s
  let s2 := chargeTo .done s1
  modCell (fun c => { c with remaining := s2.capEst * 3600, socStart := none }) s2

/-- One second of charge current `i`, counted (R404). -/
def countCharge (i : Nat) (s : State) : State :=
  modCell (fun c => { c with
    iMeas := i, charged := c.charged + i, qIn := c.qIn + i, remaining := min (c.remaining + i) (s.capEst * 3600) }) s

/-- The state machine past its stops: deep discharge, CC, CV and DONE, with the safety timer. -/
def chargeRun (r : ChargerReading) (s0 : State) : State :=
  let s := match s0.vesper.cell.st with | .off | .tempHold => chargeCc s0 | _ => s0
  let now := s.vesper.calendar
  let vcv := s.vCv r.tempDc
  if r.vbatMv < 2500 then
    let t0 := s.vesper.cell.tPre.getD now
    let s1 := countCharge r.iUa (modCell (fun c => { c with tPre := some t0 }) s)
    if now - t0 ≥ 36000 * second then chargeTo .fault s1 else s1
  else
    let s1 := modCell (fun c => { c with tPre := none }) s
    let s2 := match s1.vesper.cell.st with
      | .cc => let t := countCharge r.iUa s1; if r.vbatMv ≥ vcv then chargeTo .cv t else t
      | .cv =>
        let t := countCharge r.iUa s1
        let n := if r.iUa < s.param 0x4100 0x14 50 then t.vesper.cell.lowFor + 1 else 0
        let t1 := modCell (fun c => { c with lowFor := n }) t
        if n ≥ 60 then chargeDone t1 else t1
      | .done => let t := countCharge 0 s1; if r.vbatMv + 80 < vcv then chargeCc t else t
      | _ => countCharge 0 s1
    let i := s.param 0x4100 0x11 500
    if s2.vesper.cell.st.on ∧ (now - s2.vesper.cell.tStart) * (2 * i) > (3 * s.capNom + 4 * i) * 3600 * second then
      chargeTo .fault s2
    else s2

/-- CHARGER_STEP (R403): once a second while VCHG is present. -/
def execChargerStep (r : ChargerReading) (s : State) : Outcome State :=
  if s.vesper.vchg ∧ s.vesperWorks = true then
    let s1 := modCell (fun c => { c with temp := r.tempDc, tempSum := c.tempSum + r.tempDc, tempCount := c.tempCount + 1 })
      (noteVbat r.vbatMv s)
    let idle := countCharge 0 s1
    settled s (
      if s.vesper.window.isSome then chargeTo .service idle
      else if ntcFault r.tempDc then chargeTo .fault idle
      else if !s.vesper.cell.present then chargeTo .off idle
      else if s.vesper.cell.st = .fault then idle
      else if r.tempDc < 10 * s.paramInt 0x4100 0x15 0 ∨ r.tempDc > 10 * s.paramInt 0x4100 0x16 45 then chargeTo .tempHold idle
      else chargeRun r s1)
  else .next s

/-! ## Sampling factor, ageing (R405, R408) -/

/-- The mesh sampling factor at a state of charge (R408). -/
def factorOf (soc top : Nat) : Nat := min top (if soc ≥ 500 then 1 else if soc ≥ 250 then 2 else if soc ≥ 100 then 4 else 8)

/-- ADAPTIVE_SAMPLING_UPDATE (R408): on battery, after Vesper's own consumption of the minute, a free value, is counted
(R404). With main power the factor is 1. -/
def execAdaptiveSamplingUpdate (s : State) : Outcome State :=
  if s.vesper.vchg then .next (modVesper (fun v => { v with factor := 1 }) s)
  else if s.vesperWorks then
    let s1 := drewFree (modCell (fun c => { c with remaining := c.remaining - Config.freeNat s.free }) s)
    .next (modVesper (fun v => { v with factor := factorOf s1.socPm (s.param 0x4100 0x31 4) }) s1)
  else .next s

/-- AGEING_UPDATE (R405, R406): an hour's ageing at its mean temperature, the die's on battery. -/
def execAgeingUpdate (s : State) : Outcome State :=
  if s.vesperWorks then
    let c := s.vesper.cell
    let t := if s.vesper.vchg then (if c.tempCount = 0 then c.temp else c.tempSum / (c.tempCount : Int)) else s.vesper.dieTemp
    let s1 := modCell (fun c => { c with aged := c.aged + hourAge t, hours := (t :: c.hours).take 720, tempSum := 0, tempCount := 0 }) s
    .next (modCell (fun c => { c with capacity := (s1.capEst :: c.capacity).take 2160 }) s1)
  else .next s

/-! ## The cell service window (R409) -/

/-- The cell found at the close is a new one. -/
def newCell (s : State) : State :=
  let est := Config.freeNat s.free % (s.capNom + 1)
  let s1 := drewFree (modCell (fun c => { c with
    installed := s.vesper.calendar, charged := 0, aged := 0, k := 1000000000, remaining := est * 3600, hours := []
    capacity := [] }) s)
  chargeCc (vesperRecord 0x0706 0 s.vesper.cell.vbat est (s := s1))

/-- The checks at the close of a window. -/
def windowChecks (present : Bool) (mv : Nat) (low : Bool) (s : State) : State :=
  let ok2 := decide (mv ≥ s.vbatLow)
  let ok3 := decide (-400 ≤ s.vesper.cell.temp) && decide (s.vesper.cell.temp ≤ 850)
  let s1 := sense 17 (!present) (sense 15 (!ok2) s)
  let s2 := if ok3 then s1 else chargeTo .fault s1
  if present && ok2 && ok3 && low then newCell s2 else s2

/-- The window ends: the charger leaves SERVICE. -/
def endWindow (s : State) : State :=
  chargeTo .off (modVesper (fun v => { v with window := none }) s)

/-- The reason to close the window holds. -/
def windowOver (s : State) (w : SvcWindow) : WindowEnd → Bool
  | .expiry => decide (s.now ≥ w.ends)
  | .cancel => !s.custody.cer.any fun c => decide (c.action = 0x41) && decide (c.stage = .window)
  | .powerLoss => !s.vesper.vchg

/-- SERVICE_WINDOW_CLOSE (R239, R409): by expiry or CANCEL, with the cell's checks, or by loss of main power. The
ceremony whose continuation window it was closes with it. -/
def execServiceWindowClose (why : WindowEnd) (mv : Nat) (present : Bool) (s : State) : Outcome State :=
  match s.vesper.window with
  | none => .next s
  | some w =>
    if windowOver s w why then
      let s1 := match s.custody.cer with
        | some c => if c.action = 0x41 ∧ c.stage = .window then closeCeremony 3 { status := Status.ok } s else s
        | none => s
      let s2 := endWindow s1
      if why = .powerLoss then settled s s2
      else
        let s3 := noteVbat mv (modCell (fun c => { c with present := present }) s2)
        settled s (windowChecks present mv (w.low || decide (mv < 1500)) s3)
    else .next s

/-! ## Supplies (R388, R413, R468) -/

/-- SUPPLY_SOURCE_CHANGE (R388): VCHG crosses 3.0 V. Without it the charger is OFF and a service window closes at once
(R239); with it the sampling factor is 1 and a charger in FAULT starts again (R403). -/
def execSupplySourceChange (vchg : Bool) (s : State) : Outcome State :=
  if s.vesper.vchg = vchg then .next s
  else
    let s1 := modVesper (fun v => { v with vchg := vchg, factor := if vchg then 1 else v.factor }) s
    let s2 := modCell (fun c => { c with st := .off, iMeas := 0 }) s1
    settled s (if !vchg && s.vesper.window.isSome then
        (match s.custody.cer with
          | some c => if c.action = 0x41 ∧ c.stage = .window then closeCeremony 3 { status := Status.ok } (endWindow s2) else endWindow s2
          | none => endWindow s2)
      else s2)

/-- VESPER_SUPPLY_RISE (R413, R468): Vesper starts cold, without its retained state; what the store die holds stays. -/
def execVesperSupplyRise (s : State) : Outcome State :=
  let v := s.vesper
  settled s { s with
    life := { s.life with root := [], lockClass := .none_, lockTime := 0 }
    vesper := { vchg := v.vchg, rose := some 0, stored := v.stored, storedCal := v.storedCal, valid := false, warm := false
                cell := { charged := v.cell.charged, installed := v.cell.installed } } }

/-! ## Calendar and oscillators (R30, R31, R410 to R412) -/

/-- WATCH_OSCILLATOR_RECALIBRATION (R30, R411): while the crystal runs. -/
def execWatchOscillatorRecalibration (count : Nat) (s : State) : Outcome State :=
  if s.vesper.xtalOk then .next (modVesper (fun v => { v with watch := count }) s) else .next s

/-- Rate that takes Meridian to the calendar in a second, at most ±500 ppm (R31). -/
def slewFor (meridian calendar : Nat) : Int :=
  max (-500) (min 500 (((calendar : Int) - meridian) * 1000000 / 16777216))

/-- MERIDIAN_SLEW (R31): once per Vesper second. -/
def execMeridianSlew (s : State) : Outcome State :=
  if s.clock.running then .next { s with clock := { s.clock with slew := slewFor s.clock.meridian s.vesper.calendar } }
  else .next s

/-- VESPER_CHECKPOINT (R412): with main power. -/
def execVesperCheckpoint (s : State) : Outcome State := .next (if s.clock.running then checkpoint s else s)

/-- TIME_ADJUST_DONE (R410): the slew has used up its amount, and VS_TIME.ADJUSTING clears. -/
def execTimeAdjustDone (s : State) : Outcome State := .next (modVesper (fun v => { v with adjust := 0 }) s)

end Sys2Proof.Machine
end

