-- ==== Sys2Proof/Machine/Objects.lean ====
section
/-!
DEFINITION. The object dictionary's tables (chapter 11): the attributes of every object and the value it reads as.
-/

namespace Sys2Proof.Machine

/-! ## Attributes (R321 to R324) -/

/-! Type codes (R322). -/
namespace Ty
abbrev bool := 1
abbrev u8 := 2
abbrev u16 := 3
abbrev u32 := 4
abbrev u64 := 5
abbrev i32 := 6
abbrev time := 7
abbrev bytes := 8
abbrev string := 9
abbrev record := 10
end Ty

/-- Persistence classes (R323). -/
inductive Persist where
  | c | d | p | v | s
  deriving DecidableEq, Repr

/-- Attributes of an object. `wr` is the upper byte of the access mask: roles [5:0], AT_RESET [6], QUORUM [7]. -/
structure Obj where
  sub  : Nat
  ty   : Nat
  cls  : Persist
  wr   : Nat := 0
  len  : Nat
  lo   : Int := 0
  hi   : Int := 0
  dflt : Int := 0
  name : String
  deriving DecidableEq, Repr

/-! The Write column of R324. -/
namespace Wr
abbrev none_ := 0
abbrev o := 3
abbrev p := 8
abbrev op := 11
abbrev q := 128
abbrev oReset := 67
end Wr

/-- Bytes of a type of fixed length. -/
def tyLen (ty : Nat) : Nat :=
  if ty = Ty.u16 then 2 else if ty = Ty.u32 ∨ ty = Ty.i32 then 4 else if ty = Ty.u64 ∨ ty = Ty.time then 8 else 1

/-- The type takes numeric values. -/
def numericTy (ty : Nat) : Bool := decide (ty ≤ Ty.time)

/-- Lowest and highest value of a numeric type. -/
def tyRange (ty : Nat) : Int × Int :=
  if ty = Ty.bool then (0, 1)
  else if ty = Ty.i32 then (-(2 ^ 31), 2 ^ 31 - 1)
  else (0, 2 ^ (8 * tyLen ty) - 1)

/-- A numeric object over the whole range of its type. -/
def num (sub ty : Nat) (cls : Persist) (name : String) (dflt : Int := 0) (wr : Nat := 0) : Obj :=
  { sub, ty, cls, wr, len := tyLen ty, lo := (tyRange ty).1, hi := (tyRange ty).2, dflt, name }

/-- A numeric object with a range of its own. -/
def ranged (sub ty : Nat) (cls : Persist) (wr : Nat) (dflt lo hi : Int) (name : String) : Obj :=
  { sub, ty, cls, wr, len := tyLen ty, lo, hi, dflt, name }

/-- An object of bytes, a string or a record. -/
def blob (sub ty : Nat) (cls : Persist) (len : Nat) (name : String) (wr : Nat := 0) : Obj := { sub, ty, cls, wr, len, name }

/-- One object for each number below `n`. -/
def family (n : Nat) (h : Nat → Obj) : List Obj := (List.range n).map h

/-! ## Object tables (R331 to R337, and the chapters they name) -/

def objsIdentity : List Obj :=
  [blob 1 Ty.string .c 16 "id.part", num 2 Ty.u8 .c "id.stepping" 0x31, blob 3 Ty.string .c 16 "id.member",
   num 4 Ty.u64 .c "id.serial", num 5 Ty.time .c "id.made", num 6 Ty.u16 .c "id.pci.device" 0x7A09,
   num 7 Ty.u16 .c "id.pci.vf_device" 0x7A0A, blob 8 Ty.bytes .c 48 "id.rom", num 9 Ty.u16 .c "id.dict.rev" 1,
   num 0xA Ty.u32 .c "id.store_mbit" 256, num 0x10 Ty.u8 .c "family.clusters" 5,
   num 0x11 Ty.u8 .c "family.pairs_per_cluster" 2, num 0x12 Ty.u16 .c "family.functions" 2048,
   num 0x13 Ty.u32 .c "family.key_slots" 65536, num 0x14 Ty.u8 .c "family.pk_cores" 4, num 0x15 Ty.u8 .c "family.link_gen" 6,
   num 0x16 Ty.u8 .c "family.link_width" 16, num 0x17 Ty.u16 .c "family.staging_mib" 16,
   blob 0x20 Ty.bytes .d 48 "id.fw.custody", blob 0x21 Ty.bytes .d 48 "id.fw.service",
   num 0x22 Ty.u32 .d "id.fw.custody_svn", num 0x23 Ty.u32 .d "id.fw.service_svn"]

def objsLife : List Obj :=
  [num 1 Ty.u8 .d "lc.state", num 2 Ty.time .d "lc.changed", num 3 Ty.time .d "lc.lock_time", num 4 Ty.u8 .d "lc.lock_class",
   num 0x10 Ty.u8 .s "prof.active", num 0x11 Ty.bool .s "prof.fallback",
   ranged 0x12 Ty.u8 .d Wr.q 0 0 1 "prof.select.mode", ranged 0x13 Ty.u8 .d Wr.q 0 0 3 "prof.next",
   num 0x14 Ty.u8 .s "prof.pins", blob 0x15 Ty.record .d 2 "prof.copy" Wr.q] ++
  family 4 (fun n => num (0x20 + n) Ty.u8 .s ("prof." ++ toString n ++ ".state") (if n = 0 then 3 else 0)) ++
  family 4 (fun n => blob (0x24 + n) Ty.bytes .s 48 ("prof." ++ toString n ++ ".digest")) ++
  family 4 (fun n => num (0x28 + n) Ty.time .s ("prof." ++ toString n ++ ".written"))

def objsTime : List Obj :=
  [num 1 Ty.time .s "time.meridian", num 2 Ty.time .s "time.calendar", num 3 Ty.bool .s "time.valid",
   ranged 4 Ty.i32 .d Wr.o 0 (-200000) 200000 "time.trim_ppb", ranged 5 Ty.i32 .v Wr.op 0 (-1000) 1000 "time.adjust_ms",
   num 6 Ty.time .d "time.set" 0 Wr.q, num 0x10 Ty.u64 .s "life.powered_s", num 0x11 Ty.u64 .s "life.battery_s",
   num 0x12 Ty.u32 .s "life.power_ons", num 0x13 Ty.u32 .s "life.alarms", num 0x14 Ty.u32 .s "life.voids",
   num 0x15 Ty.u32 .s "life.xtal_fail", num 0x20 Ty.u64 .s "mono.ceremony", num 0x21 Ty.u64 .s "mono.fw"]

def objsQuorum : List Obj := [num 1 Ty.u8 .d "quorum.n", num 2 Ty.u8 .d "quorum.m", num 3 Ty.u16 .d "quorum.validity_s" 120]

def objsDomain : List Obj :=
  [blob 1 Ty.bytes .d 16 "dom.id", num 2 Ty.time .d "dom.since", num 3 Ty.u8 .d "dom.how",
   blob 0x10 Ty.bytes .d Config.chainEcdsa.length "attest.chain.ecdsa",
   blob 0x11 Ty.bytes .d Config.chainMldsa.length "attest.chain.mldsa"]

def objsSlots : List Obj :=
  [ranged 1 Ty.u16 .p Wr.o 1000 100 1000 "ks.remask.period_ms", num 2 Ty.u16 .s "ks.remask.last_ms",
   ranged 3 Ty.u32 .p Wr.q 4096 1 65536 "ks.usage.lease", num 4 Ty.u16 .s "ks.retiring.free" 256,
   num 5 Ty.u32 .s "ks.slots.loaded", num 6 Ty.u32 .s "ks.slots.bad"]

def objsFn : List Obj :=
  [num 1 Ty.u16 .v "fn.tenant", num 2 Ty.u8 .v "fn.alloc.jq", num 3 Ty.u8 .v "fn.alloc.cq", num 4 Ty.u8 .v "fn.alloc.vectors",
   num 5 Ty.u8 .v "fn.alloc.sk_sets", num 6 Ty.u32 .v "fn.alloc.slot_quota", num 7 Ty.u16 .v "fn.alloc.job_share",
   num 8 Ty.u8 .s "fn.state", ranged 0x20 Ty.u16 .v Wr.p 100 1 10000 "fn.qos.weight", num 0x21 Ty.u32 .v "fn.qos.min" 0 Wr.p,
   ranged 0x22 Ty.u32 .v Wr.p 900000 0 900000 "fn.qos.ceiling", ranged 0x23 Ty.u8 .v Wr.p 0 0 63 "fn.qos.urgent_queues",
   ranged 0x30 Ty.u8 .v Wr.p 0 0 2 "fn.unseal.release"]

def objsFabric : List Obj :=
  [ranged 1 Ty.u8 .p Wr.q 4 0 16 "fabric.dummy.rate", num 2 Ty.u8 .s "qos.class.urgent.pairs" 1,
   ranged 3 Ty.u32 .p Wr.op 0x10000 0x1000 0x100000 "qos.urgent.max_len", num 4 Ty.u32 .s "qos.admission_limit",
   num 5 Ty.u32 .s "qos.min_sum", ranged 6 Ty.u8 .p Wr.o 4 2 16 "fabric.fence.limit",
   num 0x10 Ty.bool .p "avs.enable" 1 Wr.o, ranged 0x11 Ty.u32 .p Wr.op 800000 533334 900000 "avs.target",
   ranged 0x12 Ty.u8 .p Wr.oReset 0 0 15 "avs.rail", num 0x13 Ty.u16 .s "avs.vdd", num 0x14 Ty.u16 .s "fabric.cycle"] ++
  family 10 (fun p => num (0x20 + p) Ty.u8 .s ("fabric.pair." ++ toString p ++ ".state"))

def objsRng : List Obj :=
  [num 1 Ty.bool .s "rng.seeded", ranged 2 Ty.u16 .p Wr.q 384 192 768 "rng.limit.bias",
   ranged 3 Ty.u16 .p Wr.q 384 192 768 "rng.limit.corr", ranged 4 Ty.u32 .p Wr.o 5000 100 50000 "rng.read.stall_max_us",
   num 5 Ty.u8 .s "rng.pool.windows", num 6 Ty.u32 .s "rng.reseed.count", num 7 Ty.u32 .s "rng.requests",
   num 8 Ty.u32 .s "rng.reseed.blocked", num 9 Ty.u32 .s "rng.read.aborts"] ++
  family 8 (fun n => num (0x10 + n) Ty.i32 .s ("rng.src." ++ toString n ++ ".bias")) ++
  family 8 (fun n => num (0x18 + n) Ty.i32 .s ("rng.src." ++ toString n ++ ".corr")) ++
  family 8 (fun n => num (0x20 + n) Ty.u32 .s ("rng.src." ++ toString n ++ ".pass")) ++
  family 8 (fun n => num (0x28 + n) Ty.u32 .s ("rng.src." ++ toString n ++ ".fail"))

def objsPk : List Obj :=
  [ranged 1 Ty.u32 .p Wr.o 1000 100 10000 "pk.park.max_us", num 2 Ty.u8 .s "pk.queue.free"] ++
  family 4 (fun n => num (0x10 + n) Ty.u8 .s ("pk.core." ++ toString n ++ ".state"))

/-- Default class of each sensor group: 0 N, 1 L, 2 Z, 3 V (R389). -/
def defaultClass : List Nat := [3, 3, 2, 2, 1, 1, 1, 1, 2, 1, 1, 1, 1, 1, 2, 0, 3, 1, 0, 1]

def objsTamper : List Obj :=
  [ranged 1 Ty.i32 .p Wr.q (-30) (-50) (-15) "tamp.temp.low_c", ranged 2 Ty.i32 .p Wr.q 125 115 135 "tamp.temp.high_c",
   ranged 3 Ty.u8 .p Wr.q 4 1 16 "tamp.mesh.base_ms", ranged 4 Ty.u8 .p Wr.q 15 8 20 "tamp.glitch.pct",
   ranged 5 Ty.u16 .p Wr.o 2400 2100 2800 "tamp.vbat.low_mv", num 0x10 Ty.u32 .s "tamp.cond", num 0x11 Ty.u32 .s "tamp.latch"] ++
  family 20 (fun g => ranged (0x20 + g) Ty.u8 .p Wr.q (defaultClass.getD g 0) 0 7 ("tamp." ++ toString g ++ ".class")) ++
  family 4 (fun i => ranged (0x40 + i) Ty.u8 .p Wr.q 0 0 1 ("tamp.xtamp." ++ toString i ++ ".mode")) ++
  family 20 (fun g => num (0x100 + g) Ty.time .s ("tamp." ++ toString g ++ ".latched_at"))

def objsCell : List Obj :=
  [num 1 Ty.u16 .s "cell.vbat_mv", num 2 Ty.bool .s "cell.present", num 3 Ty.i32 .s "cell.temp_dc",
   num 4 Ty.u8 .s "cell.charge.state", num 5 Ty.u16 .s "cell.charge.i_meas_ua",
   ranged 0x10 Ty.u32 .p Wr.o 65000 10000 500000 "cell.capacity_nom_uah",
   ranged 0x11 Ty.u16 .p Wr.o 500 100 2000 "cell.charge.i_ua", ranged 0x12 Ty.u16 .p Wr.o 3100 2950 3200 "cell.charge.v_mv",
   ranged 0x13 Ty.i32 .p Wr.o (-3000) (-6000) 0 "cell.charge.tcomp_uv",
   ranged 0x14 Ty.u16 .p Wr.o 50 20 200 "cell.charge.term_ua", ranged 0x15 Ty.i32 .p Wr.o 0 0 20 "cell.charge.t_min_c",
   ranged 0x16 Ty.i32 .p Wr.o 45 25 45 "cell.charge.t_max_c", num 0x20 Ty.u16 .s "cell.soc_pm",
   num 0x21 Ty.u32 .s "cell.remaining_uah", num 0x22 Ty.u32 .s "cell.capacity_est_uah", num 0x23 Ty.u16 .s "cell.health_pm",
   num 0x24 Ty.u32 .s "cell.hold_h", num 0x25 Ty.time .s "cell.replace_by", num 0x26 Ty.u32 .d "cell.charged_mah",
   num 0x27 Ty.time .d "cell.installed", ranged 0x30 Ty.u32 .p Wr.o 4380 720 17520 "cell.replace.hold_min_h",
   ranged 0x31 Ty.u8 .p Wr.q 4 1 16 "cell.adapt.max_factor", num 0x32 Ty.u8 .s "cell.adapt.factor"]

def objsRed : List Obj :=
  [num 1 Ty.bool .s "red.guarantee", num 2 Ty.u8 .s "red.conditions", num 3 Ty.u8 .s "red.cu.aster",
   num 4 Ty.u8 .s "red.cu.iris", ranged 5 Ty.u8 .p Wr.o 0 0 1 "red.devfault.action", num 6 Ty.time .d "red.devfault.last",
   num 7 Ty.u16 .s "red.simplex"]

/-- Names of the saturating counters, from subindex 1 (R335, R442). -/
def counterNames : List String :=
  ["cnt.cf.fence", "cnt.cf.split", "cnt.cf.txcrc", "cnt.cf.intake", "cnt.cf.illegal", "cnt.cf.stall", "cnt.pk.fault",
   "cnt.ks.bad", "cnt.ks.lease_wait", "cnt.qos.downgrade", "cnt.qos.scaled", "cnt.avs.fail", "cnt.cu.switch",
   "cnt.cu.mismatch", "cnt.err.nested", "cnt.reg.refused", "cnt.reg.perr", "cnt.race.suppressed", "cnt.tg.refused",
   "cnt.tg.debug", "cnt.qe.db_refused", "cnt.mp.auth_fail", "cnt.mp.replay", "cnt.dict.restore", "cnt.ev.overrun",
   "cnt.mp.hello_drop", "cnt.ev.suppressed", "cnt.cu.rollback", "cnt.ram.repair", "cnt.ctl.retry", "cnt.dev.fault",
   "cnt.mer.src"]

def objsCounters : List Obj := counterNames.zipIdx.map fun p => num (p.2 + 1) Ty.u32 .s p.1

def objsEvents : List Obj :=
  [num 1 Ty.u32 .s "ev.head", num 2 Ty.u32 .s "ev.oldest", ranged 3 Ty.u16 .p Wr.o 64 16 1024 "ev.rate_limit"]

def objsLink : List Obj :=
  [num 1 Ty.u8 .s "link.rate", num 2 Ty.u8 .s "link.width", num 3 Ty.bool .s "link.flit", num 4 Ty.bool .s "link.degraded",
   num 0x20 Ty.u32 .s "pool.free.jq", num 0x21 Ty.u32 .s "pool.free.cq", num 0x22 Ty.u32 .s "pool.free.vectors",
   num 0x23 Ty.u32 .s "pool.free.job_share", num 0x24 Ty.u32 .s "pool.free.slot_quota"]

def objsPort : List Obj :=
  [num 1 Ty.bool .p "mp.enable" 1 Wr.q, blob 2 Ty.bytes .c 6 "mp.mac", num 3 Ty.bool .p "mp.plca.enable" 1 Wr.o,
   num 4 Ty.u8 .p "mp.plca.node_id" 255 Wr.o, ranged 5 Ty.u8 .p Wr.o 8 1 255 "mp.plca.node_count",
   ranged 6 Ty.u8 .p Wr.o 32 1 255 "mp.plca.to_timer", num 7 Ty.u8 .p "mp.plca.max_bc" 0 Wr.o,
   ranged 8 Ty.u8 .p Wr.o 128 1 255 "mp.plca.burst_timer", ranged 0x10 Ty.u16 .p Wr.o 300 30 3600 "fdp.session.idle_s",
   num 0x11 Ty.u8 .c "fdp.sessions.max" 8, num 0x12 Ty.bool .p "fdp.relay.enable" 1 Wr.q]

/-- Largest length of a role key record (R223). -/
abbrev keyRecordMax : Nat := 64 + 1952

def objsFirmware : List Obj :=
  family 4 (fun i => blob (0x10 + i) Ty.record .d keyRecordMax "fw.ext_key") ++
  [num 0x20 Ty.bool .p "compat.ahnom.hang" 0 Wr.q, ranged 0x21 Ty.u16 .p Wr.q 100 10 1000 "fw.wdog.period_ms",
   num 0x22 Ty.bool .p "fw.gates.lock" 0 Wr.q] ++
  family 8 (fun e => blob (0x31 + e) Ty.record .s 176 ("fw.ext." ++ toString (e + 1) ++ ".record"))

/-- Objects of an index (R330). -/
def objsOf (index : Nat) : List Obj :=
  if index = 0x0000 then objsIdentity
  else if index = 0x0100 then objsLife
  else if index = 0x0200 then objsTime
  else if index = 0x0300 then objsQuorum
  else if index = 0x0301 then family 32 fun i => blob i Ty.record .d keyRecordMax "role.key"
  else if index = 0x0400 then objsDomain
  else if index = 0x1001 then objsSlots
  else if 0x2000 ≤ index ∧ index ≤ 0x2800 then objsFn
  else if index = 0x3000 then objsFabric
  else if index = 0x3100 then objsRng
  else if index = 0x3200 then objsPk
  else if index = 0x4000 then objsTamper
  else if index = 0x4100 then objsCell
  else if index = 0x5000 then objsRed
  else if index = 0x5100 then objsCounters
  else if index = 0x5200 then objsEvents
  else if index = 0x6000 then objsLink
  else if index = 0x6010 then objsPort
  else if index = 0x7000 then objsFirmware
  else []

/-- The object of an index and subindex, if there is one (R330). -/
def objOf (index sub : Nat) : Option Obj :=
  if index = 0x1000 then (if sub < 65536 then some (blob sub Ty.record .s 64 "slot.record") else none)
  else if index = 0x5201 then (if sub < 65536 then some (blob sub Ty.record .s 32 "ev.record") else none)
  else (objsOf index).find? fun o => decide (o.sub = sub)

/-- Objects a host VF may read of any function's (R325); the rest of its reach is its own. -/
def vfReadable (index sub : Nat) : Bool :=
  decide (index = 0) || decide (index = 0x0100 ∧ sub = 1) || decide (index = 0x3100 ∧ sub = 1) || decide (index = 0x1000) ||
    decide (0x2000 ≤ index ∧ index ≤ 0x2800)

/-- The access mask (R324, R325). -/
def accessMask (index : Nat) (o : Obj) : Nat := (if vfReadable index o.sub then 0x3F else 0x2F) + 256 * o.wr

/-! ## Values -/

/-- A number in the encoding of a type of `n` bytes (R322). -/
def encInt (n : Nat) (i : Int) : Bytes := Bytes.ofLE n (i % 2 ^ (8 * n)).toNat

/-- The default of an object, encoded. -/
def Obj.default (o : Obj) : Bytes := if numericTy o.ty then encInt o.len o.dflt else Bytes.zeros o.len

/-- A role key record (R223); an empty entry is all zeros. -/
def keyRecord (role : Nat) (r : Option RoleKey) : Bytes :=
  match r with
  | none => Bytes.zeros 64
  | some r => Bytes.ofNats [role, r.alg] ++ Bytes.ofLE 2 r.key.length ++ Bytes.zeros 4 ++ Bytes.ofLE 8 r.since ++
      (sha384 r.key).take 16 ++ r.label.fit 32 ++ r.key

/-- Role of a role table entry (R223): 1 custodian, 2 operator, 3 auditor. -/
def roleOfEntry (i : Nat) : Nat := if i < 16 then 1 else if i < 24 then 2 else 3

/-- Profile `n`; profile 0 is the factory profile (R337). -/
def State.profile (s : State) (n : Nat) : Profile := if n = 0 then { st := .factory } else s.dict.profiles.getD n {}

/-- The stored set of a profile, as a byte string for its digest. -/
def profileSet (p : Profile) : Bytes := p.vals.flatMap fun v => Bytes.ofLE 4 v.1 ++ v.2

/-- Record of extension `e` (R371). -/
def extRecord (s : State) (e : Nat) : Bytes :=
  match s.worlds.exts.find? fun x => decide (x.id = e) with
  | some x => x.header.fit 128 ++ x.measure.fit 48
  | none => Bytes.zeros 176

/-- Code of fn.state (R161). -/
def FnRun.code (x : FnRun) : Nat := x.ctorIdx

/-- Milliseconds of time.adjust_ms that remain. -/
def adjustMs (v : Vesper) : Int := v.adjust / (16777216 * 1000000)

/-- Values of the identity, life-cycle, time, quorum and domain objects that are not stored as they are written. -/
def valueLow (s : State) (index sub : Nat) : Option Bytes :=
  let n (k v : Nat) : Option Bytes := some (Bytes.ofLE k v)
  if index = 0x0000 then
    if sub = 1 then some (Bytes.ascii "FXG-T9") else if sub = 3 then some (Bytes.ascii "Glalet Thaza")
    else if sub = 4 then n 8 Config.serial else if sub = 5 then n 8 (Config.made * second)
    else if sub = 8 then some (Config.bootRomDigest.fit 48) else if sub = 0x20 then some (s.boot.custodyOld.digest.fit 48)
    else if sub = 0x21 then some (if s.boot.serviceFw then s.boot.serviceOld.digest.fit 48 else Bytes.zeros 48)
    else if sub = 0x22 then n 4 s.boot.custodySvn else if sub = 0x23 then n 4 s.boot.serviceSvn else none
  else if index = 0x0100 then
    if sub = 1 then n 1 s.life.lc.code else if sub = 2 then n 8 s.life.changed else if sub = 3 then n 8 s.life.lockTime
    else if sub = 4 then n 1 s.life.lockClass.code else if sub = 0x10 then n 1 s.dict.active
    else if sub = 0x11 then n 1 (b2n s.dict.fallback) else if sub = 0x14 then n 1 s.dict.pins
    else if sub = 0x15 then some (Bytes.zeros 2)
    else if 0x20 ≤ sub ∧ sub < 0x24 then n 1 (s.profile (sub - 0x20)).st.ctorIdx
    else if 0x24 ≤ sub ∧ sub < 0x28 then some ((Config.profileDigest (profileSet (s.profile (sub - 0x24)))).fit 48)
    else if 0x28 ≤ sub ∧ sub < 0x2C then n 8 (s.profile (sub - 0x28)).written
    else none
  else if index = 0x0200 then
    let c := s.vesper.counts
    if sub = 1 then n 8 s.now else if sub = 2 then n 8 s.vesper.calendar else if sub = 3 then n 1 (b2n s.vesper.valid)
    else if sub = 5 then some (encInt 4 (adjustMs s.vesper)) else if sub = 0x10 then n 8 (c.powered / second)
    else if sub = 0x11 then n 8 (c.battery / second) else if sub = 0x12 then n 4 c.powerOns else if sub = 0x13 then n 4 c.alarms
    else if sub = 0x14 then n 4 c.voids else if sub = 0x15 then n 4 c.xtalFail else if sub = 0x20 then n 8 s.custody.mono
    else if sub = 0x21 then n 8 s.custody.monoFw else none
  else if index = 0x0300 then
    if sub = 1 then n 1 s.custody.quorumN else if sub = 2 then n 1 s.custody.quorumM else none
  else if index = 0x0301 then some (keyRecord (roleOfEntry sub) (s.custody.roles.find? sub))
  else if index = 0x0400 then
    if sub = 1 then some (s.life.domId.fit 16) else if sub = 2 then n 8 s.life.domSince else if sub = 3 then n 1 s.life.domHow
    else if sub = 0x10 then some Config.chainEcdsa else if sub = 0x11 then some Config.chainMldsa else none
  else none

/-- Values of the slot, function, fabric, random source and public-key objects. -/
def valueMid (s : State) (index sub : Nat) : Option Bytes :=
  let n (k v : Nat) : Option Bytes := some (Bytes.ofLE k v)
  if index = 0x1000 then some (slotRecord s sub)
  else if index = 0x1001 then
    if sub = 2 then n 2 s.store.lastMs else if sub = 4 then n 2 (256 - s.retiringUsed)
    else if sub = 5 then n 4 (s.store.slots.filter fun p => decide (p.2.st = .loaded)).length
    else if sub = 6 then n 4 (s.store.slots.filter fun p => decide (p.2.st = .bad)).length else none
  else if 0x2000 ≤ index ∧ index ≤ 0x2800 then
    let g := s.fn (index - 0x2000)
    if sub = 1 then n 2 g.tenant else if sub = 2 then n 1 g.jqN else if sub = 3 then n 1 g.cqN else if sub = 4 then n 1 g.vecN
    else if sub = 5 then n 1 g.skN else if sub = 6 then n 4 g.quota else if sub = 7 then n 2 g.share
    else if sub = 8 then n 1 g.run.code else if sub = 0x20 then n 2 g.qosWeight else if sub = 0x21 then n 4 g.qosMin
    else if sub = 0x22 then n 4 g.qosCeil else if sub = 0x23 then n 1 g.urgentQ else if sub = 0x30 then n 1 g.release else none
  else if index = 0x3000 then
    if sub = 4 then n 4 (admissionLimit s.dummyRate) else if sub = 5 then n 4 (minSum s)
    else if sub = 0x13 then n 2 s.fab.vddRead else if sub = 0x14 then n 2 s.fab.cycle
    else if 0x20 ≤ sub ∧ sub < 0x2A then n 1 (s.pair (sub - 0x20)).st.ctorIdx else none
  else if index = 0x3100 then
    let src (k : Nat) : Source := s.rng.sources.getD k {}
    if sub = 1 then n 1 (b2n s.rng.seeded) else if sub = 5 then n 1 s.rng.pool.length else if sub = 6 then n 4 s.rng.reseeds
    else if sub = 7 then n 4 s.rng.requests else if sub = 8 then n 4 s.rng.blocked else if sub = 9 then n 4 s.rng.aborts
    else if 0x10 ≤ sub ∧ sub < 0x18 then some (encInt 4 (src (sub - 0x10)).bias)
    else if 0x18 ≤ sub ∧ sub < 0x20 then some (encInt 4 (src (sub - 0x18)).corr)
    else if 0x20 ≤ sub ∧ sub < 0x28 then n 4 (src (sub - 0x20)).pass
    else if 0x28 ≤ sub ∧ sub < 0x30 then n 4 (src (sub - 0x28)).fail else none
  else if index = 0x3200 then
    if sub = 2 then n 1 s.pkFree else if 0x10 ≤ sub ∧ sub < 0x14 then n 1 (s.core (sub - 0x10)).st.ctorIdx else none
  else none

/-- ev.oldest (R439). -/
def State.oldest (s : State) : Nat := if s.evr.head ≤ 65536 then 0 else s.evr.head - 65536

/-- Values of the tamper, cell, redundancy, counter, event, link and firmware objects. -/
def valueHigh (s : State) (index sub : Nat) : Option Bytes :=
  let n (k v : Nat) : Option Bytes := some (Bytes.ofLE k v)
  if index = 0x4000 then
    if sub = 0x10 then n 4 s.vesper.cond else if sub = 0x11 then n 4 s.vesper.latch
    else if 0x100 ≤ sub ∧ sub < 0x114 then n 8 (s.vesper.latchedAt.getD (sub - 0x100) 0) else none
  else if index = 0x4100 then
    let c := s.vesper.cell
    if sub = 1 then n 2 c.vbat else if sub = 2 then n 1 (b2n c.present) else if sub = 3 then some (encInt 4 c.temp)
    else if sub = 4 then n 1 c.st.ctorIdx else if sub = 5 then n 2 c.iMeas else if sub = 0x20 then n 2 s.socPm
    else if sub = 0x21 then n 4 c.remainingUah else if sub = 0x22 then n 4 s.capEst
    else if sub = 0x23 then n 2 (s.capEst * 1000 / s.capNom) else if sub = 0x24 then n 4 s.holdH
    else if sub = 0x25 then n 8 s.replaceBy else if sub = 0x26 then n 4 c.chargedMah else if sub = 0x27 then n 8 c.installed
    else if sub = 0x32 then n 1 s.vesper.factor else none
  else if index = 0x5000 then
    if sub = 1 then n 1 (b2n (decide (s.conditions = 0))) else if sub = 2 then n 1 s.conditions
    else if sub = 3 then n 1 s.red.aster else if sub = 4 then n 1 s.red.irisSt else if sub = 6 then n 8 s.red.lastFault
    else if sub = 7 then n 2 s.red.simplex else none
  else if index = 0x5100 then n 4 (s.dict.counters.getD sub 0)
  else if index = 0x5200 then if sub = 1 then n 4 s.evr.head else if sub = 2 then n 4 s.oldest else none
  else if index = 0x5201 then some ((s.evr.ring.getD sub []).fit 32)
  else if index = 0x6000 then
    if sub = 1 then n 1 s.link.rate else if sub = 2 then n 1 s.link.width else if sub = 3 then n 1 (b2n s.link.flit)
    else if sub = 4 then n 1 (b2n s.link.degraded) else if 0x20 ≤ sub ∧ sub < 0x25 then n 4 ((poolFree s).getD (sub - 0x20) 0)
    else none
  else if index = 0x6010 then if sub = 2 then some (Config.mac.fit 6) else none
  else if index = 0x7000 then
    if 0x10 ≤ sub ∧ sub < 0x14 then some (keyRecord 0 (s.custody.extKeys.find? (sub - 0x10)))
    else if 0x31 ≤ sub ∧ sub < 0x39 then some (extRecord s (sub - 0x30)) else none
  else none

/-- The value in force of an object (R326). -/
def objValue (s : State) (index : Nat) (o : Obj) : Bytes :=
  match (valueLow s index o.sub).or ((valueMid s index o.sub).or (valueHigh s index o.sub)) with
  | some b => b
  | none =>
    match o.cls with
    | .p => s.dict.force.getD (objKey index o.sub) o.default
    | .d => s.dict.dev.getD (objKey index o.sub) o.default
    | _ => o.default

/-- The value of a class P object stored in profile `n`; an EMPTY profile has profile 0's (R340). -/
def storedValue (s : State) (n index : Nat) (o : Obj) : Bytes := (s.profile n).vals.getD (objKey index o.sub) o.default

/-- The descriptor (R342). -/
def descriptor (index : Nat) (o : Obj) : Bytes :=
  let lim (i : Int) : Bytes := if numericTy o.ty then Bytes.ofLE 8 (i % 2 ^ 64).toNat else Bytes.zeros 8
  Bytes.ofLE 2 index ++ Bytes.ofLE 2 o.sub ++ Bytes.ofNats [o.ty, o.cls.ctorIdx] ++ Bytes.ofLE 2 (accessMask index o) ++
    Bytes.ofLE 4 o.len ++ Bytes.zeros 4 ++ lim o.lo ++ lim o.hi ++
    (if o.len ≤ 8 then o.default.fit 8 else Bytes.zeros 8) ++ (Bytes.ascii o.name).fit 40

end Sys2Proof.Machine
end

