-- ==== Sys2Proof/Machine/Dict.lean ====
section
/-!
DEFINITION. Reading and writing the object dictionary (R325 to R343): the checks in their order, profiles, and what a
value written changes.
-/

namespace Sys2Proof.Machine

/-- Who accesses the dictionary: a role by its bit in the access mask (0 custodian, 1 operator, 2 auditor, 3 host PF,
4 host VF), its function, the path of R441 (1 admin, 2 FDP) and the function or role entry recorded. -/
structure DictUser where
  role : Nat
  fn   : Nat
  path : Nat
  who  : Nat
  deriving DecidableEq, Repr

/-- The host function `f` as a dictionary user. -/
def hostUser (f : Nat) : DictUser := { role := if f = 0 then 3 else 4, fn := f, path := 1, who := f }

/-- What every role may read in DECOMMISSIONED (R325). -/
def openWhenGone (index sub : Nat) : Bool :=
  decide (index = 0) || decide (index = 0x0100 ∧ sub = 1) || decide (0x5200 ≤ index ∧ index ≤ 0x52FF)

/-- Detail with which a host VF's access is refused, if it is (R325). -/
def vfRefusal (s : State) (u : DictUser) (index sub : Nat) : Option Nat :=
  if u.role ≠ 4 then none
  else if 0x2000 ≤ index ∧ index ≤ 0x2800 then (if index = 0x2000 + u.fn then none else some 0x0D)
  else if index = 0x1000 then
    (if (s.slot sub).st = .empty ∨ (s.slot sub).ownedBy (s.fn u.fn).tenant = true then none else some 0x0C)
  else if vfReadable index sub then none
  else some 0x0C

/-- An access denied with a detail. -/
abbrev denied (detail : Nat) : Done := { status := Status.accessDenied, detail }

def vfRow (s : State) (u : DictUser) (index sub : Nat) : Bool × Done :=
  ((vfRefusal s u index sub).isSome, denied ((vfRefusal s u index sub).getD 0))

/-! ## DICT_READ (R340) -/

def dictIndex (e : Bytes) : Nat := e.leAt 0x10 2
def dictSub (e : Bytes) : Nat := e.leAt 0x12 2
/-- FLAGS bits of a dictionary command: DESCRIBE or COND, STORED or TARGET. -/
def dictFlag0 (e : Bytes) : Bool := (e.at_ 0x14).getLsbD 0
def dictFlag1 (e : Bytes) : Bool := (e.at_ 0x14).getLsbD 1
def dictProfile (e : Bytes) : Nat := (e.at_ 0x15).toNat

/-- Reserved fields of DICT_READ; DST_MAX without DST_ADDR is one on the admin path (R340, R353). -/
def readRsv (e : Bytes) (fdp : Bool) : Bool :=
  decide ((e.at_ 0x14).toNat ≥ 4) || (!dictFlag1 e && decide (dictProfile e ≠ 0)) || rsvSet e [(0x16, 2), (0x24, 28)] ||
    (!fdp && decide (e.leAt 0x18 8 = 0) && decide (e.leAt 0x20 4 ≠ 0))

/-- The checks of DICT_READ up to the output, in their order. -/
def readRows (s : State) (u : DictUser) (e : Bytes) : List (Bool × Done) :=
  let index := dictIndex e
  let sub := dictSub e
  let o := objOf index sub
  let p := dictProfile e
  [(readRsv e (decide (u.path = 2)), bad 0x02), (o.isNone, bad 0x50),
   (decide (s.life.lc = .decommissioned) && !openWhenGone index sub, { status := Status.unavailable, detail := 0x02 }),
   vfRow s u index sub,
   (o.any fun o => !(accessMask index o).testBit u.role, denied 0x0C),
   (dictFlag1 e && ((o.any fun o => decide (o.cls ≠ .p)) || decide (p > 3) || decide ((s.profile p).st = .bad)), bad 0x53)]

/-- The bytes DICT_READ returns: the descriptor, a stored value, or the value in force. -/
def readBytes (s : State) (e : Bytes) : Bytes :=
  match objOf (dictIndex e) (dictSub e) with
  | none => []
  | some o =>
    if dictFlag0 e then descriptor (dictIndex e) o
    else if dictFlag1 e then storedValue s (dictProfile e) (dictIndex e) o
    else objValue s (dictIndex e) o

/-- A value of at most 8 bytes in RESULT0 and RESULT1. -/
def inResults (b : Bytes) : Done := { status := Status.ok, r0 := b.leAt 0 4, r1 := b.leAt 4 4 }

/-- The output of DICT_READ: in the completion, or as bytes that fit DST_MAX. -/
def readOutput (b : Bytes) (buffer : Bool) (room : Nat) : Done × Bytes :=
  if buffer then (if b.length ≤ room then ({ status := Status.ok, r0 := b.length }, b) else (bad 0x24 b.length, []))
  else if b.length ≤ 8 then (inResults b, [])
  else (bad 0x24 b.length, [])

/-- DICT_READ by a user: its completion and the bytes for its buffer. -/
def dictReadBy (u : DictUser) (e : Bytes) (s : State) : Done × Bytes :=
  match firstFail (readRows s u e) with
  | some d => (d, [])
  | none =>
    readOutput (readBytes s e) (if u.path = 2 then decide (e.leAt 0x20 4 ≠ 0) else decide (e.leAt 0x18 8 ≠ 0)) (e.leAt 0x20 4)

/-! ## Checks of a value (R322, R341) -/

/-- The number a value spells, by its type. -/
def decInt (ty : Nat) (v : Bytes) : Int := if ty = Ty.i32 then int32 v.toLE else v.toLE

/-- LEN does not fit the type (R322). -/
def lenBad (o : Obj) (n : Nat) : Bool :=
  if o.ty = Ty.bytes ∨ o.ty = Ty.string then decide (n > o.len) || decide (n < 1) else decide (n ≠ o.len)

/-- Lowest class of each sensor group; 8 marks the groups that may also be OFF (R389, R392). -/
def lowestClass : List Nat := [2, 2, 8, 8, 8, 8, 8, 8, 1, 0, 1, 1, 1, 1, 1, 0, 3, 0, 0, 1]

/-- A class that a group does not take (R393). -/
def classRefused (g v : Nat) : Bool :=
  let low := lowestClass.getD g 0
  decide (g = 16) || !(decide (v < 4) || (decide (v = 7) && decide (low = 8))) || (decide (low ≠ 8) && decide (v < low))

/-- Rules of its own that an object gives (R107, R338, R393, R410). -/
def ownRule (s : State) (index sub : Nat) (v : Bytes) : Option Done :=
  let n := v.toLE
  if index = 0x3000 ∧ sub = 1 then (if admissionLimit n < minSum s then some (bad 0x10) else none)
  else if 0x2000 ≤ index ∧ index ≤ 0x2800 then
    let f := index - 0x2000
    if sub = 0x21 then (if !admits s f n then some (bad 0x10) else if n > (s.fn f).qosCeil then some (bad 0x11) else none)
    else if sub = 0x22 then (if n < (s.fn f).qosMin then some (bad 0x11) else none)
    else none
  else if index = 0x4000 ∧ 0x20 ≤ sub ∧ sub < 0x34 then (if classRefused (sub - 0x20) n then some (bad 0x02) else none)
  else if index = 0x0200 ∧ sub = 6 then (if n < s.vesper.calendar + second then some (bad 0x02) else none)
  else if index = 0x0100 ∧ sub = 0x15 then
    let a := (v.at_ 0).toNat
    let b := (v.at_ 1).toNat
    if a > 3 ∨ b < 1 ∨ b > 3 then some (bad 0x02) else if (s.profile a).st = .bad then some (bad 0x53) else none
  else none

/-- Encoding, range and own rules of a value whose length fits. -/
def valueRefusal (s : State) (index : Nat) (o : Obj) (v : Bytes) : Option Done :=
  if numericTy o.ty ∧ (decInt o.ty v < o.lo ∨ decInt o.ty v > o.hi) then some (bad 0x02)
  else ownRule s index o.sub v

/-! ## Effects of a value -/

/-- A STORE_REPAIR record of an area; the manual does not give record addresses. -/
def repairRecord (area : Nat) (s : State) : State := record 0x0809 1 area (Config.freeNat s.free) (s := drewFree s)

/-- One copy of a persistent set has failed and is rewritten from another (R328). -/
def repairCopy (s : State) : State := repairRecord 2 (bump 0x18 s)

/-- The lock of a device whose device set or role set is lost, with what the lock-ceremony row destroys (R219, R328). -/
def lockForLoss (s : State) : State :=
  match s.life.lc with
  | .initialized | .operational => respondTo .ceremony false (enterLocked .ceremony s.now 0 s)
  | _ => s

/-- The objects of the device set at their defaults (R328). -/
def deviceDefaults (s : State) : State :=
  { s with
    dict := { s.dict with dev := [] }
    red := { s.red with lastFault := 0 }
    custody := { s.custody with extKeys := [] }
    life := { s.life with changed := 0 }
    boot := { s.boot with custodySvn := 0, serviceSvn := 0 }
    vesper := { s.vesper with cell := { s.vesper.cell with charged := 0, installed := 0 } } }

/-- The objects of the role set likewise. -/
def roleDefaults (s : State) : State :=
  { s with
    custody := { s.custody with roles := [], quorumN := 0, quorumM := 0 }
    life := { s.life with domId := Bytes.zeros 16, domSince := 0, domHow := 0 } }

/-- Every copy of a persistent set has failed (R328, R337). -/
def loseSet (set : Nat) (s : State) : State :=
  if set = 0 then lockForLoss (repairRecord 2 (deviceDefaults s))
  else if set = 4 then lockForLoss (repairRecord 2 (roleDefaults s))
  else { s with dict := { s.dict with profiles := s.dict.profiles.set set { st := .bad } } }

/-- The copies of a set are checked against their digests (R328): failed ones are rewritten from one that agrees. -/
def checkSet (set : Nat) (s : State) : State :=
  let failed := s.dict.bad.filter fun b => decide (b.1 = set)
  let s1 := { s with dict := { s.dict with bad := s.dict.bad.filter fun b => decide (b.1 ≠ set) } }
  if failed = [] then s
  else if failed.length ≥ copiesOf set then loseSet set s1
  else failed.foldl (fun s _ => repairCopy s) s1

/-- The class policy follows its objects (R394); an OFF group shows no condition (R392). -/
def applyPolicy (s : State) : State :=
  let cls := (List.range 20).map fun g => s.param 0x4000 (0x20 + g) (defaultClass.getD g 0)
  modVesper (fun v => { v with
    classes := cls
    cond := ((List.range 20).filter fun g => v.cond.testBit g && decide (cls.getD g 0 ≠ 7)).foldl (fun a g => a + 2 ^ g) 0 }) s

/-- What class P values change besides themselves: the class policy (R394) and the sessions of a port that is switched
off (R356). -/
def applyForce (s : State) : State :=
  let s1 := applyPolicy s
  if s1.mpOn then s1 else endSessions (fun _ => true) s1

/-- A class P value in a stored profile; an EMPTY one first becomes a copy of profile 0 (R338). -/
def storeIn (n key : Nat) (v : Bytes) (s : State) : State :=
  let p := s.profile n
  persist n { s with dict := { s.dict with profiles := s.dict.profiles.set n { st := .valid, vals := p.vals.set key v, written := s.now } } }

/-- A class P value written in force (R338). -/
def putForce (index sub : Nat) (v : Bytes) (s : State) : Done × State :=
  let s1 := { s with dict := { s.dict with force := s.dict.force.set (objKey index sub) v } }
  if s.dict.active = 0 then ({ status := Status.ok, detail := 0x01 }, applyForce s1)
  else ({ status := Status.ok }, applyForce (storeIn s.dict.active (objKey index sub) v s1))

/-- An object whose written value takes effect at the next reset (R324). -/
def atReset (key : Nat) : Bool := (objOf (key / 65536) (key % 65536)).any fun o => o.wr.testBit 6

/-- The values that come into force at once when a profile's do; the AT_RESET ones stay as they are (R338). -/
def forceNow (old new : FMap Bytes) : FMap Bytes :=
  (old.filter fun p => atReset p.1).foldl (fun m p => m.set p.1 p.2) (new.filter fun p => !atReset p.1)

/-- prof.copy (R338): TO becomes a copy of FROM, in force at once when TO is active. -/
def copyProfile (a b : Nat) (s0 : State) : State :=
  let s := checkSet a s0
  let src := s.profile a
  let s1 := persist b { s with dict := { s.dict with profiles := s.dict.profiles.set b { st := .valid, vals := src.vals, written := s.now } } }
  record 0x0904 0 b 2 a (s := if s.dict.active = b then applyForce { s1 with dict := { s1.dict with force := forceNow s.dict.force src.vals } } else s1)

/-- A class V value of a function (R162). -/
def putFn (f sub n : Nat) (s : State) : State :=
  modFn f (fun g =>
    if sub = 0x20 then { g with qosWeight := n } else if sub = 0x21 then { g with qosMin := n }
    else if sub = 0x22 then { g with qosCeil := n } else if sub = 0x23 then { g with urgentQ := n }
    else if sub = 0x30 then { g with release := n } else g) s

/-- A value takes its place (R326, R327, R338, R410). -/
def putValue (index : Nat) (o : Obj) (v : Bytes) (s : State) : Done × State :=
  let ok : Done := { status := Status.ok }
  match o.cls with
  | .p => putForce index o.sub v s
  | .v =>
    if index = 0x0200 then (ok, modVesper (fun x => { x with adjust := decInt Ty.i32 v * (16777216 * 1000000) }) s)
    else (ok, putFn (index - 0x2000) o.sub v.toLE s)
  | _ =>
    if index = 0x0100 ∧ o.sub = 0x15 then (ok, copyProfile (v.at_ 0).toNat (v.at_ 1).toNat s)
    else
      let s1 := persist 0 { s with dict := { s.dict with dev := s.dict.dev.set (objKey index o.sub) v } }
      if index = 0x0200 ∧ o.sub = 6 then (ok, modVesper (fun x => { x with calendar := v.toLE, calAcc := 0, valid := true }) s1)
      else (ok, s1)

/-- Record a dictionary write (R441): object, path, who, and the profile it was stored in. -/
def dictRecord (u : DictUser) (index sub prof : Nat) (s : State) : State :=
  record 0x0903 0 (index * 65536 + sub) u.path u.who prof (s := s)

/-! ## The command DICT_READ -/

/-- A read of a stored value reads the store, whose copies are checked then (R328). -/
def readStore (e : Bytes) (s : State) : State := if dictFlag1 e then checkSet (dictProfile e) s else s

/-- DICT_READ (R340). -/
def execDictRead (f : Nat) (s : State) : Outcome State :=
  runAdmin f Op.dictRead (fun j s0 =>
    let s := readStore j.entry s0
    let r := dictReadBy (hostUser f) j.entry s
    (r.1, if r.2.isEmpty then s else hostWrite f (j.entry.leAt 0x18 8) r.2 s)) s

/-! ## DICT_WRITE (R341) -/

def writeLen (e : Bytes) : Nat := e.leAt 0x16 2

/-- Checks 1 to 3 of DICT_WRITE. -/
def writeAccessRows (s : State) (u : DictUser) (e : Bytes) : List (Bool × Done) :=
  let index := dictIndex e
  let sub := dictSub e
  let o := objOf index sub
  let mask := (o.map fun o => accessMask index o).getD 0
  [(decide ((e.at_ 0x14).toNat ≥ 4) || (!dictFlag1 e && decide (dictProfile e ≠ 0)), bad 0x02), (o.isNone, bad 0x50),
   (decide (s.life.lc = .decommissioned), { status := Status.unavailable, detail := 0x02 }),
   vfRow s u index sub,
   (mask.testBit 15, { status := Status.quorumRequired, detail := 0x05 }),
   (!mask.testBit (8 + u.role) || (o.any fun o => decide (o.cls = .c) || decide (o.cls = .s)), denied 0x0C),
   (s.locked && !(decide (u.role = 3) && o.any fun o => decide (o.cls = .v)), { status := Status.locked })]

/-- Check 4 on LEN and COND. -/
def writeLenRows (o : Obj) (e : Bytes) : List (Bool × Done) :=
  [(lenBad o (writeLen e) || decide (writeLen e > 4096) || (decide (e.leAt 0x18 8 = 0) && decide (writeLen e > 24)), bad 0x51)]

/-- Checks 5 and 6, once the value is known: encoding and range, COND, TARGET, the object's own rules. -/
def writeValueRefusal (s : State) (o : Obj) (e v : Bytes) : Option Done :=
  let index := dictIndex e
  let now := objValue s index o
  let p := dictProfile e
  firstFail [
    (decide (o.ty = Ty.bool) && decide (v.toLE > 1), bad 0x02),
    (dictFlag0 e && decide (o.len > 8), bad 0x56),
    (dictFlag1 e && (decide (o.cls ≠ .p) || decide (p < 1) || decide (p > 3) || decide ((s.profile p).st = .bad)), bad 0x53),
    ((valueRefusal s index o v).isSome, (valueRefusal s index o v).getD (bad 0x02)),
    (dictFlag0 e && decide (e.leAt 0x20 8 ≠ now.toLE), { inResults now with status := Status.badEntry, detail := 0x52 })]

/-- The write itself, after every check. -/
def writeGoes (u : DictUser) (o : Obj) (e v : Bytes) (s : State) : Done × State :=
  let index := dictIndex e
  if dictFlag1 e then
    ({ status := Status.ok }, dictRecord u index o.sub (dictProfile e) (storeIn (dictProfile e) (objKey index o.sub) v s))
  else
    let r := putValue index o v s
    (r.1, dictRecord u index o.sub (if o.cls = .p then s.dict.active else 0) r.2)

/-- DICT_WRITE by a user. `data` is the value when SRC_ADDR names it, none while it has still to be read. -/
def dictWriteBy (u : DictUser) (e : Bytes) (data : Option Bytes) (s : State) : Option Done × State :=
  match firstFail (writeAccessRows s u e), objOf (dictIndex e) (dictSub e) with
  | some d, _ => (some d, s)
  | none, none => (some (bad 0x50), s)
  | none, some o =>
    match firstFail (writeLenRows o e) with
    | some d => (some d, s)
    | none =>
      match data with
      | none => (none, s)
      | some v =>
        match writeValueRefusal s o e v with
        | some d => (some d, s)
        | none => let r := writeGoes u o e v s; (some r.1, r.2)

/-- DICT_WRITE (R341). -/
def execDictWrite (f : Nat) (s : State) : Outcome State :=
  runAdminSteps f Op.dictWrite (fun j s =>
    let e := j.entry
    let v : Option Bytes :=
      if e.leAt 0x18 8 = 0 then some (e.slice 0x28 (writeLen e))
      else if j.reads = .arrived then some (j.input 0 s)
      else none
    match dictWriteBy (hostUser f) e v s with
    | (some d, t) => (some d, t)
    | (none, t) => if j.reads = .none_ then (none, startReads j.ref t) else (none, t)) s

end Sys2Proof.Machine
end

