-- ==== Sys2Proof/Machine/Attest.lean ====
section
/-!
DEFINITION. Attestation (R247 to R249): CBOR, the signatures of the device's keys, the statement, and the check of a
peer's statement.
-/

namespace Sys2Proof.Machine

/-! ## Signatures of custody firmware (R230) -/

/-- The algorithm code of R193 behind ALG 1 and 2 of R223. -/
def sigAlg (alg : Nat) : Nat := if alg = 1 then 0x09 else 0x14

/-- Length of a signature under ALG 1 or 2 (R230). -/
def sigBytes (alg : Nat) : Nat := if alg = 1 then 96 else 3309

/-- Length of a public key under ALG 1 or 2 (R223). -/
def pubBytes (alg : Nat) : Nat := if alg = 1 then 97 else 1952

/-- What a signature under ALG 1 or 2 covers, of a message or of its digest (R230): ECDSA signs a digest. -/
def fwSigned (digest : Bool) (msg : Bytes) : Signed := { digest := if digest then msg else sha384 msg, msg := msg }

/-- A signature under ALG 1 or 2 verifies over a message, or over its digest. -/
def verifySig (alg : Nat) (digest : Bool) (pub msg sig : Bytes) : Bool :=
  decide (sig.length = sigBytes alg) && !sigOutOfRange (sigAlg alg) sig &&
    pkVerifies (sigAlg alg) pub (fwSigned digest msg) sig

/-- A signature by an attestation key (R190, R248), with a representation of its own (R265). -/
def attSign (alg : Nat) (msg : Bytes) (s : State) : Drawn Bytes :=
  let m := s.fab.gens.getD pkGen {}
  (fwRead (fun b => (pkSign (sigAlg alg) (attestKey (sigAlg alg)) (fwSigned false msg) b { key := m.key, ctr := m.ctr }).map
    fun g => (g.fit (sigBytes alg), [])) (fwFuel 256) s).go fun g s =>
      .ok (g, passBlocks pkGen (Rep.blinds + Rep.shares) s)

/-! ## CBOR (RFC 8949), as far as a statement uses it -/

namespace Cbor

/-- The head of an item in its shortest form. -/
def head (major n : Nat) : Bytes :=
  let m := major * 32
  if n < 24 then Bytes.ofNats [m + n]
  else if n < 256 then Bytes.ofNats [m + 24, n]
  else if n < 65536 then Bytes.ofNats [m + 25] ++ Bytes.ofBE 2 n
  else if n < 2 ^ 32 then Bytes.ofNats [m + 26] ++ Bytes.ofBE 4 n
  else Bytes.ofNats [m + 27] ++ Bytes.ofBE 8 n

def uint (n : Nat) : Bytes := head 0 n
/-- The negative integer -1 - n. -/
def nint (n : Nat) : Bytes := head 1 n
def bstr (b : Bytes) : Bytes := head 2 b.length ++ b
def tstr (t : String) : Bytes := head 3 (Bytes.ascii t).length ++ Bytes.ascii t
def array (l : List Bytes) : Bytes := head 4 l.length ++ l.flatten
/-- A map with integer keys, given in rising order. -/
def map (l : List (Nat × Bytes)) : Bytes := head 5 l.length ++ l.flatMap fun p => uint p.1 ++ p.2
def null : Bytes := [0xF6]

/-- A decoded item; map keys and values alternate. -/
inductive Item where
  | int (n : Nat)
  | neg (n : Nat)
  | bytes (b : Bytes)
  | text (b : Bytes)
  | list (l : List Item)
  | pairs (l : List Item)
  | tag (n : Nat) (x : Item)
  | null

/-- Major type, argument and rest of an item's head. -/
def readHead (b : Bytes) : Option (Nat × Nat × Bytes) :=
  match b with
  | [] => none
  | x :: r =>
    let k := x.toNat % 32
    let m := x.toNat / 32
    if k < 24 then some (m, k, r)
    else if k < 28 then
      let w := 2 ^ (k - 24)
      if r.length < w then none else some (m, Bytes.toBE (r.take w), r.drop w)
    else none

mutual
/-- One item; `fuel` bounds the nesting and the number of items. -/
def read : Nat → Bytes → Option (Item × Bytes)
  | 0, _ => none
  | k + 1, b =>
    match readHead b with
    | none => none
    | some (0, n, r) => some (.int n, r)
    | some (1, n, r) => some (.neg n, r)
    | some (2, n, r) => if r.length < n then none else some (.bytes (r.take n), r.drop n)
    | some (3, n, r) => if r.length < n then none else some (.text (r.take n), r.drop n)
    | some (4, n, r) => (readList k n r).map fun p => (.list p.1, p.2)
    | some (5, n, r) => (readList k (2 * n) r).map fun p => (.pairs p.1, p.2)
    | some (6, n, r) => (read k r).map fun p => (.tag n p.1, p.2)
    | some (_, n, r) => if n = 22 then some (.null, r) else none
/-- `n` items in a row. -/
def readList : Nat → Nat → Bytes → Option (List Item × Bytes)
  | 0, _, _ => none
  | _ + 1, 0, b => some ([], b)
  | k + 1, n + 1, b =>
    match read k b with
    | none => none
    | some (x, r) => (readList k n r).map fun p => (x :: p.1, p.2)
end

/-- The value under an integer key of a decoded map. -/
def look (key : Nat) : List Item → Option Item
  | .int n :: x :: r => if n = key then some x else look key r
  | _ :: _ :: r => look key r
  | _ => none

end Cbor

/-! ## The statement (R248, R249) -/

/-- Measurement `i` of the part (R185). -/
def measurement (s : State) (i : Nat) : Bytes :=
  match i with
  | 1 => Config.bootRomDigest.fit 48
  | 2 => s.boot.custodyOld.digest.fit 48
  | 3 => if s.boot.serviceFw then s.boot.serviceOld.digest.fit 48 else Bytes.zeros 48
  | 4 => sha384 (s.worlds.exts.flatMap fun x => x.measure.fit 48)
  | 5 => Bytes.ofNats [s.life.lc.code, s.dict.active]
  | _ => Bytes.ofNats [5, 2] ++ Bytes.ofLE 2 2048 ++ Bytes.ofLE 4 65536 ++ Bytes.ofNats [4, 6, 16] ++ Bytes.ofLE 2 16

/-- KEY_ID of a public key (R223). -/
def keyId (pub : Bytes) : Bytes := (sha384 pub).take 16

/-- KEY_ID of a role entry; zeros for an empty one. -/
def roleId (s : State) (i : Nat) : Bytes :=
  match s.custody.roles.find? i with | some r => keyId r.key | none => Bytes.zeros 16

/-- The device's stepping code (R5). -/
def stepping : Nat := 0x31

/-- The CBOR payload of a statement (R249). -/
def attPayload (s : State) (nonce : Bytes) : Bytes :=
  Cbor.map
    [(1, Cbor.tstr "glalet-att-1"), (2, Cbor.uint Config.serial), (3, Cbor.tstr "FXG-T9"), (4, Cbor.uint stepping),
     (5, Cbor.array ([5, 2, 2048, 65536, 4, 6, 16, 16].map Cbor.uint)), (6, Cbor.uint s.life.lc.code),
     (7, Cbor.uint s.dict.active),
     (8, Cbor.map ([1, 2, 3, 4].map fun i => (i, Cbor.bstr (measurement s i)))),
     (9, Cbor.array (s.worlds.exts.map fun x => Cbor.array [Cbor.bstr x.kid, Cbor.bstr x.measure])),
     (10, if s.life.domHow = 0 then Cbor.null else Cbor.bstr (s.life.domId.fit 16)), (11, Cbor.bstr nonce),
     (12, Cbor.uint s.now),
     (13, Cbor.bstr (sha384 ((List.range 16).flatMap (roleId s) ++ Bytes.ofNats [s.custody.quorumM]))),
     (14, Cbor.array [Cbor.uint s.custody.quorumM, Cbor.uint s.custody.quorumN]),
     (15, Cbor.uint (if s.locked then s.life.lockClass.code else 0)),
     (16, Cbor.map [(1, Cbor.uint s.boot.custodySvn), (2, Cbor.uint s.boot.serviceSvn)])]

/-- Protected header of the body: content type application/cbor. -/
def attBodyHead : Bytes := Cbor.map [(3, Cbor.uint 60)]
/-- Protected header of a signature: algorithm -35 or -49. -/
def attSigHead (alg : Nat) : Bytes := Cbor.map [(1, Cbor.nint (if alg = 1 then 34 else 48))]

/-- What a signature of a statement covers (RFC 9052). -/
def sigStructure (alg : Nat) (payload : Bytes) : Bytes :=
  Cbor.array [Cbor.tstr "Signature", Cbor.bstr attBodyHead, Cbor.bstr (attSigHead alg), Cbor.bstr [], Cbor.bstr payload]

/-- The kid of a leaf certificate. -/
def leafKid (alg : Nat) : Bytes := keyId (if alg = 1 then Config.leafEcdsa else Config.leafMldsa)

/-- The tagged COSE_Sign statement with its payload and its two signatures (R248). -/
def statement (p e m : Bytes) : Bytes :=
  let sig (alg : Nat) (g : Bytes) : Bytes :=
    Cbor.array [Cbor.bstr (attSigHead alg), Cbor.map [(4, Cbor.bstr (leafKid alg))], Cbor.bstr g]
  Cbor.head 6 98 ++ Cbor.array [Cbor.bstr attBodyHead, Cbor.map [], Cbor.bstr p, Cbor.array [sig 1 e, sig 2 m]]

/-- A statement made now; firmware waits for what its signatures draw. -/
def makeStatement (nonce : Bytes) (s : State) : Drawn Bytes :=
  let p := attPayload s nonce
  (attSign 1 (sigStructure 1 p) s).go fun e s => (attSign 2 (sigStructure 2 p) s).go fun m s => .ok (statement p e m, s)

/-! ## A peer's statement (R244) -/

/-- What a verifier reads in a peer's statement. -/
structure PeerClaims where
  serial  : Nat
  lc      : Nat
  domain  : Bytes
  nonce   : Bytes
  keyE    : Bytes
  keyM    : Bytes
  deriving DecidableEq, Repr

/-- The key of one signature, when the signature verifies and its certificate is genuine. -/
def peerKey (alg : Nat) (payload : Bytes) : Cbor.Item → Option Bytes
  | .list [.bytes p, .pairs [.int 4, .bytes kid], .bytes sig] =>
    match Config.attestedKey alg kid with
    | some k => if p = attSigHead alg ∧ verifySig alg false k (sigStructure alg payload) sig = true then some k else none
    | none => none
  | _ => none

/-- The claims of a payload. -/
def peerPayload (ke km : Bytes) : Cbor.Item → Option PeerClaims
  | .pairs l =>
    match Cbor.look 2 l, Cbor.look 6 l, Cbor.look 10 l, Cbor.look 11 l with
    | some (.int n), some (.int lc), some (.bytes d), some (.bytes x) => some { serial := n, lc, domain := d, nonce := x, keyE := ke, keyM := km }
    | some (.int n), some (.int lc), some .null, some (.bytes x) => some { serial := n, lc, domain := [], nonce := x, keyE := ke, keyM := km }
    | _, _, _, _ => none
  | _ => none

/-- The claims of a peer's statement, when both its signatures verify (R248). -/
def peerClaims (att : Bytes) : Option PeerClaims :=
  match Cbor.read 1024 att with
  | some (.tag 98 (.list [.bytes h, .pairs [], .bytes p, .list [e, m]]), []) =>
    if h ≠ attBodyHead then none
    else match peerKey 1 p e, peerKey 2 p m, Cbor.read 1024 p with
      | some ke, some km, some (x, []) => peerPayload ke km x
      | _, _, _ => none
  | _ => none

/-! ## ATTEST (R247, R250) -/

/-- OP of ATTEST. -/
def attOp (e : Bytes) : Nat := (e.at_ 0x10).toNat

/-- Reserved fields of ATTEST. -/
def attRsv (e : Bytes) : Bool :=
  rsvSet e [(0x12, 6), (0x24, 4), (0x68, 24)] || (decide (attOp e ≠ 0) && decide (e.at_ 0x11 ≠ 0))

/-- The checks of ATTEST up to the output. -/
def attRows (e : Bytes) : List (Bool × Done) :=
  [(attRsv e, bad 0x02), (decide (attOp e > 2), bad 0x30), (decide ((e.at_ 0x11).toNat > 64), bad 0x00)]

/-- What a firmware command comes to: its completion, none while it waits, its output and the state after it. -/
abbrev Answer := Option Done × Bytes × State

/-- A refusal: nothing has changed. -/
def refuse (d : Done) (s : State) : Answer := (some d, [], s)

/-- The answer once what it draws is there; it waits until then. -/
def answered {α : Type} (d : Drawn α) (h : α → State → Answer) : Answer :=
  match d with
  | .ok (a, t) => h a t
  | .error t => (none, [], t)

/-- Output of ATTEST; one too long for DST_MAX is not sent. -/
def attAnswer (e out : Bytes) (s : State) : Answer :=
  if out.length > e.leAt 0x20 4 then refuse (bad 0x24 out.length) s
  else (some { status := Status.ok, r0 := out.length }, out, s)

/-- ATTEST by any caller. -/
def attestBy (e : Bytes) (s : State) : Answer :=
  match firstFail (attRows e) with
  | some d => refuse d s
  | none =>
    if attOp e = 0 then answered (makeStatement (e.slice 0x28 (e.at_ 0x11).toNat) s) (attAnswer e)
    else attAnswer e (if attOp e = 1 then Config.chainEcdsa else Config.chainMldsa) s

/-- ATTEST on an admin queue, for the row with operation `op`. -/
def runAttest (f op : Nat) (s : State) : Outcome State :=
  runAdminSteps f Op.attest (fun j s =>
    if attOp j.entry ≠ op then (none, s)
    else
      let r := attestBy j.entry s
      (r.1, if r.2.1.isEmpty then r.2.2 else hostWrite f (j.entry.leAt 0x18 8) r.2.1 r.2.2)) s

/-- ATTEST_STATEMENT (R248). -/
def execAttestStatement (f : Nat) (s : State) : Outcome State := runAttest f 0 s

/-- ATTEST_CHAIN_ECDSA (R247). -/
def execAttestChainEcdsa (f : Nat) (s : State) : Outcome State := runAttest f 1 s

/-- ATTEST_CHAIN_MLDSA (R247). -/
def execAttestChainMldsa (f : Nat) (s : State) : Outcome State := runAttest f 2 s

end Sys2Proof.Machine
end

