-- ==== Sys2Proof/Machine/Extensions.lean ====
section
/-!
DEFINITION. Service extensions (R381 to R387): the extension manager, calls, and the services an extension obtains.
-/

namespace Sys2Proof.Machine

/-! ## Images (R382) -/

/-- Length of an image's header. -/
abbrev imgHead : Nat := 128
def imgId (b : Bytes) : Nat := (b.at_ 6).toNat
def imgKey (b : Bytes) : Nat := (b.at_ 7).toNat
def imgCode (b : Bytes) : Nat := b.leAt 0x0C 4
def imgData (b : Bytes) : Nat := b.leAt 0x10 4
def imgZero (b : Bytes) : Nat := b.leAt 0x14 2
/-- VF_CALLABLE, JOBS, DICT. -/
def imgFlag (b : Bytes) (i : Nat) : Bool := (b.leAt 0x16 2).testBit i
/-- Pages of an extension. -/
def imgPages (b : Bytes) : Nat := imgCode b / 4096 + imgData b / 4096 + imgZero b

/-- The image bytes before its signature, and its signature. -/
def imgSigned (b : Bytes) : Bytes := b.take (imgHead + imgCode b + imgData b)
def imgSig (b : Bytes) : Bytes := b.drop (imgHead + imgCode b + imgData b)

/-- The image is well-formed, its key registered and its signature valid (R382, R383). -/
def imgGood (s : State) (b : Bytes) : Bool :=
  match s.custody.extKeys.find? (imgKey b) with
  | none => false
  | some k =>
    decide (b.leAt 0 4 = 0x58454647) && decide (b.leAt 4 2 = 1) && decide (1 ≤ imgId b ∧ imgId b ≤ 8) &&
    decide (b.leAt 8 4 = b.length) && decide (b.length = imgHead + imgCode b + imgData b + sigBytes k.alg) &&
    decide (imgCode b % 4096 = 0) && decide (imgData b % 4096 = 0) && decide (b.leAt 0x16 2 < 8) && b.zeroAt 0x40 64 &&
    decide (b.leAt 0x1C 4 % 64 = 0) && decide (b.leAt 0x1C 4 < imgCode b) &&
    verifySig k.alg true k.key (sha384 (imgSigned b)) (imgSig b)

/-! ## Pages (R362, R363, R383) -/

/-- Pages of control RAM from which custody firmware assigns extension pages. -/
def extPool : List Nat := (List.range 256).map (· + 600)

/-- Pages of the pool that have no owner entry. -/
def freePages (s : State) : List Nat := extPool.filter fun p => decide (s.regs.owners.getD p 0 = 0)

/-- Pages in use by extensions. -/
def usedPages (s : State) : Nat := (s.worlds.exts.map fun x => x.code.length + x.data.length + x.zero.length).foldl (· + ·) 0

/-- Owner entry of an extension's page: NORMAL, its EXT, and CODE. -/
def extOwner (id : Nat) (code : Bool) : Nat := 1 + 16 * b2n code + 256 * id

/-- Owner entries of pages set. -/
def setOwners (pages : List Nat) (v : Nat) (s : State) : State :=
  { s with regs := { s.regs with owners := pages.foldl (fun m p => if v = 0 then m.erase p else m.set p v) s.regs.owners } }

/-- Bytes laid out over pages. -/
def fillPages (pages : List Nat) (b : Bytes) (m : List Host.Cell) : List Host.Cell :=
  (pages.zip (Bytes.chunks 4096 b)).foldl (fun m p => Memory.putAll m (p.1 * 4096) p.2) m

/-- Every page of an extension. -/
def Ext.pages (x : Ext) : List Nat := x.code ++ x.data ++ x.zero

/-- Extension `id`, if it is loaded. -/
def State.ext? (s : State) (id : Nat) : Option Ext := s.worlds.exts.find? fun x => decide (x.id = id)

/-- Record an extension's event (R441): 1 loaded, 2 unloaded, 3 revoked, 4 fault. -/
def extEvent (id how key : Nat) (s : State) : State := record 0x0A04 (if how = 4 then 2 else 0) id how key (s := s)

/-- The pages an image needs are there (R381, R383). -/
def pagesFit (s : State) (b : Bytes) : Bool :=
  decide (imgPages b ≤ 64) && decide (usedPages s + imgPages b ≤ 256) && decide (imgPages b ≤ (freePages s).length)

/-- Place a checked image: pages assigned and filled (R383). -/
def placeExt (b : Bytes) (s : State) : State :=
  let free := freePages s
  let nc := imgCode b / 4096
  let nd := imgData b / 4096
  let code := free.take nc
  let data := (free.drop nc).take nd
  let zero := (free.drop (nc + nd)).take (imgZero b)
  let id := imgId b
  let kid := match s.custody.extKeys.find? (imgKey b) with | some k => keyId k.key | none => []
  let x : Ext := { id := id, header := b.take imgHead, measure := sha384 (imgSigned b), key := imgKey b, kid, code, data, zero, image := b }
  let s1 := setOwners code (extOwner id true) (setOwners (data ++ zero) (extOwner id false) s)
  let m := fillPages code ((b.drop imgHead).take (imgCode b)) (zeroPages (code ++ data ++ zero) s1.cram)
  { s1 with
    cram := fillPages data ((b.drop (imgHead + imgCode b)).take (imgData b)) m
    worlds := { s1.worlds with exts := s1.worlds.exts ++ [x] } }

/-- End every call of an extension, in progress or waiting, with a completion; `keep` is a job left out. -/
def endCalls (id : Nat) (d : Done) (s : State) : State :=
  (s.worlds.calls.filter fun c => decide (c.ext = id)).foldl (fun s c =>
    match s.job? c.job with
    | some j => closeCall c.job (if j.outcome.isNone then decideJob c.job d s else s)
    | none => closeCall c.job s) s

/-- End an extension (R386): its calls end, its pages are zeroed, its image is erased. Owner entries stay while
RULES_LOCK is 1. -/
def endExt (x : Ext) (how : Nat) (s : State) : State :=
  let s1 := endCalls x.id { status := Status.unavailable, detail := 0x0A } s
  let s2 := { s1 with
    cram := zeroPages x.pages s1.cram
    worlds := { s1.worlds with
      exts := s1.worlds.exts.filter fun y => decide (y.id ≠ x.id)
      stored := s1.worlds.stored.filter fun b => decide (b ≠ x.image) } }
  extEvent x.id how x.key (if s2.regs.rulesLock then s2 else setOwners x.pages 0 s2)

/-! ## EXT_CALL (R383, R387) -/

def callService (e : Bytes) : Nat := (e.at_ 0x10).toNat
def callCode (e : Bytes) : Nat := (e.at_ 0x11).toNat
def callInLen (e : Bytes) : Nat := e.leAt 0x14 4
def callIn (e : Bytes) : Nat := e.leAt 0x18 8
def callOut (e : Bytes) : Nat := e.leAt 0x20 8
def callMax (e : Bytes) : Nat := e.leAt 0x28 4
def callArg0 (e : Bytes) : Nat := e.leAt 0x2C 4

/-- An extension that may be called: loaded, with a service firmware base to run it. -/
def callable (s : State) (id : Nat) : Bool := (s.ext? id).isSome && s.boot.serviceFw

/-- The checks of EXT_CALL that come before its service, in the order of R387. -/
def callRows (s : State) (f : Nat) (e : Bytes) : List (Bool × Done) :=
  let x := callService e
  let c := callCode e
  let changes := decide (x = 0) && decide (c < 2)
  [(rsvSet e [(0x12, 2), (0x38, 8)], bad 0x02),
   (decide (s.life.lc = .decommissioned), { status := Status.unavailable, detail := 0x02 }),
   (decide (x > 8) || (decide (x = 0) && decide (c > 2)) || decide (callInLen e > 0x100000), bad 0x60),
   (decide (f ≠ 0) && (decide (x = 0) || ((s.ext? x).any fun y => !imgFlag y.header 0)), denied 0x0E),
   (decide (x = 0) && s.worlds.halted, { status := Status.unavailable, detail := 0x09 }),
   (changes && s.locked, { status := Status.locked }),
   (changes && s.regs.rulesLock, { status := Status.unavailable, detail := 0x0B }),
   (decide (x ≠ 0) && !callable s x, { status := Status.unavailable, detail := 0x0A })]

/-- Run a manager operation of PF0's admin queue with code `c`. -/
def runManager (c : Nat) (body : Job → State → Option Done × State) (s : State) : Outcome State :=
  runAdminSteps 0 Op.extCall (fun j s =>
    if callService j.entry ≠ 0 ∨ callCode j.entry ≠ c then (none, s)
    else match firstFail (callRows s 0 j.entry) with
      | some d => (some d, s)
      | none => body j s) s

/-- LOAD (R383). -/
def execLoad (s : State) : Outcome State :=
  runManager 0 (fun j s => if callInLen j.entry = 0 then (some (bad 0x61), s) else afterReads j s fun s =>
    let b := j.input 0 s
    if imgGood s b = false then (some (bad 0x61), s)
    else if (s.ext? (imgId b)).isSome || !pagesFit s b then (some (bad 0x62), s)
    else
      let s1 := placeExt b s
      (some { status := Status.ok, r1 := imgId b },
        extEvent (imgId b) 1 (imgKey b) { s1 with worlds := { s1.worlds with stored := s1.worlds.stored ++ [b] } })) s

/-- UNLOAD (R383, R386). -/
def execUnload (s : State) : Outcome State :=
  runManager 1 (fun j s =>
    match s.ext? (callArg0 j.entry) with
    | none => (some { status := Status.unavailable, detail := 0x0A }, s)
    | some x => (some { status := Status.ok }, endExt x 2 s)) s

/-- LIST (R383): the record of each loaded extension, by number. -/
def execList (s : State) : Outcome State :=
  runManager 2 (fun j s =>
    let b := (List.range 9).flatMap fun e => if (s.ext? e).isSome then extRecord s e else []
    if b.length > callMax j.entry then (some (bad 0x24 b.length), s)
    else (some { status := Status.ok, r0 := b.length }, hostWrite 0 (callOut j.entry) b s)) s

/-- EXT_CALL (R385): a call of an extension takes its place; a manager operation has its own row. -/
def execExtCall (f : Nat) (s : State) : Outcome State :=
  runAdminSteps f Op.extCall (fun j s =>
    if s.worlds.calls.any fun c => decide (c.job = j.ref) then (none, s)
    else match firstFail (callRows s f j.entry) with
      | some d => (some d, s)
      | none =>
        if callService j.entry = 0 then (none, s)
        else (none, { s with worlds := { s.worlds with
          calls := s.worlds.calls ++ [{ job := j.ref, ext := callService j.entry }] } })) s

/-! ## Services (R384) -/

/-- The call an extension runs: its first one, unless a service of it is still in progress or it has ended. -/
def currentCall (s : State) (x : Nat) : Option (Call × Job) :=
  match s.worlds.calls.find? fun c => decide (c.ext = x) with
  | none => none
  | some c =>
    match s.job? c.job with
    | none => none
    | some j => if j.outcome.isNone && c.subJob.isNone then some (c, j) else none

/-- Offset in control RAM of an internal address (R362). -/
def ramOffset (a : Nat) : Nat := a - 0x10000000

/-- Every byte from internal address `a` on lies in one of the pages. -/
def inPages (pages : List Nat) (a n : Nat) : Bool :=
  decide (0x10000000 ≤ a) &&
    (List.range ((ramOffset a % 4096 + n + 4095) / 4096)).all fun i => pages.contains (ramOffset a / 4096 + i)

/-- An extension faults: its call completes with FAULT, detail 0x03, and the fault is recorded (R370, R385). -/
def extFault (x : Nat) (s : State) : State :=
  match s.worlds.calls.find? fun c => decide (c.ext = x) with
  | none => s
  | some c =>
    match s.job? c.job with
    | none => s
    | some j =>
      if j.outcome.isSome then s
      else extEvent x 4 ((s.ext? x).map (·.key) |>.getD 0)
        (closeCall c.job (decideJob c.job { status := Status.fault, detail := 0x03 } s))

/-- Run a service of extension `x`. A buffer it reads must lie in its pages, one it writes in its data pages. -/
def runService (x : Nat) (reads writes : Nat × Nat) (body : Ext → Call → Job → State → State) (s : State) : Outcome State :=
  match (if s.normalRuns then currentCall s x else none), s.ext? x with
  | some (c, j), some e =>
    if (decide (reads.2 = 0) || inPages e.pages reads.1 reads.2) && (decide (writes.2 = 0) || inPages (e.data ++ e.zero) writes.1 writes.2)
    then settled s (body e c j s)
    else settled s (extFault x s)
  | _, _ => .next s

/-- A call changed. -/
def modCall (r : JobRef) (h : Call → Call) (s : State) : State :=
  { s with worlds := { s.worlds with calls := s.worlds.calls.map fun c => if c.job = r then h c else c } }

/-- Write bytes at an internal address of control RAM. -/
def ramWrite (a : Nat) (b : Bytes) (s : State) : State := { s with cram := Memory.putAll s.cram (ramOffset a) b }

/-- Bytes at an internal address of control RAM. -/
def State.ramRead (s : State) (a n : Nat) : Bytes := Memory.getAll s.cram (ramOffset a) n

/-- A status and detail an extension may return (R385). -/
def returnOk (status detail : Nat) : Bool :=
  (status == Status.ok || status == Status.badEntry || status == Status.accessDenied || status == Status.unavailable) &&
    decide (0x80 ≤ detail ∧ detail ≤ 0xFF)

/-- RETURN (R385). -/
def execRet (x status detail result1 : Nat) (s : State) : Outcome State :=
  runService x (0, 0) (0, 0) (fun _ c _ s =>
    if returnOk status detail then closeCall c.job (decideJob c.job { status, detail, r0 := c.out, r1 := result1 } s)
    else extFault x s) s

/-- READ_IN (R384): by DMA, within the IN buffer. -/
def execReadIn (x inOff dst n : Nat) (s : State) : Outcome State :=
  runService x (0, 0) (dst, n) (fun _ c j s =>
    let k := min n (callInLen j.entry - inOff)
    if k = 0 then s
    else if j.reads = .arrived then
      modJob c.job (fun j => { j with reads := .none_ }) (ramWrite dst ((j.input 0 s).slice inOff k) s)
    else if j.reads = .none_ then startReads c.job s
    else s) s

/-- WRITE_OUT (R384): within OUT_MAX. -/
def execWriteOut (x src outOff n : Nat) (s : State) : Outcome State :=
  runService x (src, n) (0, 0) (fun _ c j s =>
    let k := min n (callMax j.entry - outOff)
    modCall c.job (fun c => { c with out := c.out + k })
      (if k = 0 then s else hostWrite c.job.fn (callOut j.entry + outOff) (s.ramRead src k) s)) s

/-- The refusal of a submitted entry by the header checks, or because its opcode is none of a job. -/
def submitHeader (f : Nat) (e : Bytes) (slots : Nat) : Option Done :=
  match (headerCheck f 1 e slots slots).1 with
  | some d => some d
  | none => if opOf e = Op.pad then some { status := Status.badOpcode } else none

/-- SUBMIT (R384): the entry becomes a job of the calling function, with a place in its job table. -/
def execSubmit (x entryAt slots recAt : Nat) (s : State) : Outcome State :=
  runService x (entryAt, 64 * slots) (recAt, 32) (fun e c _ s =>
    let b := s.ramRead entryAt (64 * slots)
    let f := c.job.fn
    if imgFlag e.header 1 = false then extFault x s
    else if s.inFlight f ≥ (s.fn f).share ∨ s.jobs.length ≥ 16384 then s
    else
      let r : JobRef := { fn := f, jq := subQueue, index := BitVec.ofNat 32 s.stamp }
      let j : Job := { ref := r, entry := b, len := slots, header := submitHeader f b slots, atTime := s.now, arrival := s.stamp }
      modCall c.job (fun c => { c with recAt := some (ramOffset recAt), subJob := some r })
        { s with stamp := s.stamp + 1, jobs := s.jobs ++ [j] }) s

/-- RANDOM (R384): up to 256 bytes from the calling function's read buffer. -/
def execRandom (x dst n : Nat) (s : State) : Outcome State :=
  let m := min n 256
  runService x (0, 0) (dst, m) (fun _ c _ s =>
    let g := s.fn c.job.fn
    let k := min (m - c.work.length) g.rngBuf.length
    let w := c.work ++ g.rngBuf.take k
    let s1 := setFn c.job.fn { g with rngBuf := g.rngBuf.drop k } s
    if w.length ≥ m then modCall c.job (fun c => { c with work := [] }) (ramWrite dst w s1)
    else modCall c.job (fun c => { c with work := w }) s1) s

/-- TIME (R384). -/
def execTime (x dst : Nat) (s : State) : Outcome State :=
  runService x (0, 0) (dst, 8) (fun _ _ _ s => ramWrite dst (Bytes.ofLE 8 s.now) s) s

/-- The entry of the DICT_READ an extension asks for. -/
def dictReadEntry (index sub room : Nat) : Bytes :=
  Bytes.zeros 16 ++ Bytes.ofLE 2 index ++ Bytes.ofLE 2 sub ++ Bytes.zeros 4 ++ Bytes.ofLE 8 1 ++ Bytes.ofLE 4 room ++ Bytes.zeros 28

/-- DICT_READ of an extension (R384): with the role of the calling function; a refused read writes nothing, and so does one
that a halted secure world does not serve (R374). -/
def execExtDictRead (x index sub dst room : Nat) (s : State) : Outcome State :=
  let readOf (s : State) (f : Nat) : Bytes := if s.secureRuns = false then [] else (dictReadBy (hostUser f) (dictReadEntry index sub room) s).2
  let n := match currentCall s x with | some (c, _) => (readOf s c.job.fn).length | none => 0
  runService x (0, 0) (dst, n) (fun e c _ s =>
    if imgFlag e.header 2 then ramWrite dst (readOf s c.job.fn) s else extFault x s) s

/-- LOG (R384). -/
def execLog (x a1 a2 a3 : Nat) (s : State) : Outcome State :=
  runService x (0, 0) (0, 0) (fun _ _ _ s => record 0x0A03 0 x a1 a2 a3 (s := s)) s

end Sys2Proof.Machine
end

