-- ==== Sys2Proof/Machine/Ceremony.lean ====
section
/-!
DEFINITION. Ceremonies (R222 to R233): parameter blocks, OPEN, STATUS, approvals, EXECUTE up to the start of its
action, CANCEL, and the end of a challenge.
-/

namespace Sys2Proof.Machine

/-! ## Actions (R225) -/

namespace Act
abbrev initialise := 0x01
abbrev custodians := 0x02
abbrev domainCreate := 0x10
abbrev domainAdmit := 0x11
abbrev domainJoin := 0x12
abbrev shareExport := 0x13
abbrev shareRestore := 0x14
abbrev lock := 0x20
abbrev unlock := 0x21
abbrev debugEnter := 0x22
abbrev debugExit := 0x23
abbrev decommission := 0x24
abbrev fwRegister := 0x30
abbrev extKey := 0x31
abbrev dictQuorum := 0x40
abbrev cellService := 0x41
end Act

/-- Life-cycle states in which an action may be opened; none for a code that names no action. -/
def openIn : Nat → Option (List LifeState)
  | 0x01 => some [.factory]
  | 0x02 => some [.initialized, .operational]
  | 0x10 => some [.initialized]
  | 0x11 => some [.operational]
  | 0x12 => some [.initialized]
  | 0x13 => some [.operational]
  | 0x14 => some [.initialized]
  | 0x20 => some [.initialized, .operational]
  | 0x21 => some [.locked]
  | 0x22 => some [.initialized, .operational, .locked]
  | 0x23 => some [.debug]
  | 0x24 => some [.initialized, .operational, .locked, .debug]
  | 0x30 => some [.initialized, .operational]
  | 0x31 => some [.initialized, .operational]
  | 0x40 => some [.initialized, .operational, .debug]
  | 0x41 => some [.initialized, .operational, .locked, .debug]
  | _ => none

/-! ## Parameter blocks (R228) -/

/-- The bytes are UTF-8. `fuel` bounds the characters. -/
def utf8Fuel : Nat → Bytes → Bool
  | _, [] => true
  | 0, _ => false
  | k + 1, x :: r =>
    let n := x.toNat
    let tail (m : Nat) : Bool := decide (r.length ≥ m) && (r.take m).all fun y => decide (y.toNat / 64 = 2)
    let y := (Bytes.at_ r 0).toNat
    if n < 0x80 then utf8Fuel k r
    else if 0xC2 ≤ n ∧ n < 0xE0 then tail 1 && utf8Fuel k (r.drop 1)
    else if 0xE0 ≤ n ∧ n < 0xF0 then
      tail 2 && (decide (n ≠ 0xE0) || decide (y ≥ 0xA0)) && (decide (n ≠ 0xED) || decide (y < 0xA0)) && utf8Fuel k (r.drop 2)
    else if 0xF0 ≤ n ∧ n < 0xF5 then
      tail 3 && (decide (n ≠ 0xF0) || decide (y ≥ 0x90)) && (decide (n ≠ 0xF4) || decide (y < 0x90)) && utf8Fuel k (r.drop 3)
    else false

def utf8 (b : Bytes) : Bool := utf8Fuel (b.length + 1) b

/-- A length padded to a multiple of 8. -/
def pad8 (n : Nat) : Nat := roundUp n 8

/-- A public key parses as a key of its ALG (R228). -/
def keyParses (alg : Nat) (key : Bytes) : Bool :=
  (decide (alg = 1) || decide (alg = 2)) && decide (key.length = pubBytes alg) && (pubRefusal (sigAlg alg) 0 key).isNone

/-- A role entry of a parameter block. -/
structure RoleEntry where
  role  : Nat
  index : Nat
  alg   : Nat
  label : Bytes
  key   : Bytes
  deriving DecidableEq, Repr

/-- One role entry at the head of `b`, and the rest; none when it is malformed. -/
def readRole (b : Bytes) : Option (RoleEntry × Bytes) :=
  let n := b.leAt 4 2
  let e : RoleEntry := { role := (b.at_ 0).toNat, index := (b.at_ 1).toNat, alg := (b.at_ 2).toNat, label := b.slice 8 32, key := b.slice 40 n }
  if b.length < pad8 (40 + n) ∨ b.at_ 3 ≠ 0 ∨ b.leAt 6 2 ≠ 0 ∨ b.zeroAt (40 + n) (pad8 (40 + n) - (40 + n)) = false ∨
      e.index > 31 ∨ e.role ≠ roleOfEntry e.index ∨ keyParses e.alg e.key = false ∨ utf8 e.label = false then none
  else some (e, b.drop (pad8 (40 + n)))

/-- `n` role entries that fill `b`. -/
def readRoles : Nat → Bytes → Option (List RoleEntry)
  | 0, b => if b.isEmpty then some [] else none
  | n + 1, b =>
    match readRole b with
    | none => none
    | some (e, r) => (readRoles n r).map (e :: ·)

/-- The role entries of an INITIALISE or CUSTODIANS block. -/
def blockRoles (p : Bytes) : Option (List RoleEntry) := readRoles (p.at_ 9).toNat (p.drop 16)

/-- The custodians of a list. -/
def custodiansOf (l : List RoleEntry) : List RoleEntry := l.filter fun e => decide (e.role = 1)

/-- A role list is allowed: distinct entries and KEY_IDs, 2 to 16 custodians, M from 2 to their number (R224, R228). -/
def rolesGood (p : Bytes) : Bool :=
  match blockRoles p with
  | none => false
  | some l =>
    let n := (custodiansOf l).length
    let m := (p.at_ 8).toNat
    p.zeroAt 10 6 && decide (2 ≤ n ∧ n ≤ 16) && decide (2 ≤ m ∧ m ≤ n) &&
      decide ((l.map (·.index)).Nodup) && decide ((l.map fun e => keyId e.key).Nodup)

/-- A recipient of SHARE_EXPORT. -/
abbrev recipientLen : Nat := 1704
def recipient (p : Bytes) (i : Nat) : Bytes := p.slice (24 + recipientLen * i) recipientLen

/-- The recipient's keys parse. -/
def recipientGood (r : Bytes) : Bool :=
  utf8 (r.take 32) && (pubRefusal 0x09 0 (r.slice 32 97)).isNone && (pubRefusal 0x19 0 (r.slice 129 1568)).isNone && r.zeroAt 1697 7

/-- One write of a DICT_QUORUM block. -/
structure QuorumWrite where
  index : Nat
  sub   : Nat
  value : Bytes
  deriving DecidableEq, Repr

/-- `n` writes that fill `b`. -/
def readWrites : Nat → Bytes → Option (List QuorumWrite)
  | 0, b => if b.isEmpty then some [] else none
  | n + 1, b =>
    let l := b.leAt 4 2
    if b.length < pad8 (8 + l) ∨ b.leAt 6 2 ≠ 0 ∨ b.zeroAt (8 + l) (pad8 (8 + l) - (8 + l)) = false then none
    else (readWrites n (b.drop (pad8 (8 + l)))).map ({ index := b.leAt 0 2, sub := b.leAt 2 2, value := b.slice 8 l } :: ·)

/-- The writes of a DICT_QUORUM block. -/
def blockWrites (p : Bytes) : Option (List QuorumWrite) := readWrites (p.at_ 8).toNat (p.drop 16)

/-- The refusal of one DICT_QUORUM write (R228, R322, R341). -/
def quorumRefusal (s : State) (w : QuorumWrite) : Option Done :=
  match objOf w.index w.sub with
  | none => some (bad 0x50)
  | some o =>
    firstFail [
      (!(accessMask w.index o).testBit 15, denied 0x0C),
      (lenBad o w.value.length, bad 0x51),
      ((valueRefusal s w.index o w.value).isSome, (valueRefusal s w.index o w.value).getD (bad 0x02))]

/-- The fields after the header have the form of the action. -/
def paramForm (action : Nat) (p : Bytes) : Bool :=
  let n := p.length
  if action = Act.initialise ∨ action = Act.custodians then rolesGood p
  else if action = Act.domainCreate then decide (n = 8)
  else if action = Act.domainAdmit then
    decide (n = 24) && p.zeroAt 18 6 && decide (60 ≤ p.leAt 16 2 ∧ p.leAt 16 2 ≤ 600)
  else if action = Act.domainJoin then
    decide (n = pad8 (36 + p.leAt 32 4)) && p.zeroAt (36 + p.leAt 32 4) (n - (36 + p.leAt 32 4))
  else if action = Act.shareExport then
    let k := (p.at_ 8).toNat
    let m := (p.at_ 9).toNat
    decide (2 ≤ m ∧ m ≤ 16) && decide (2 ≤ k ∧ k ≤ m) && p.zeroAt 10 6 && p.zeroAt 20 4 && decide (n = 24 + recipientLen * m) &&
      decide (p.leAt 16 4 ≥ 1809 * m) && (List.range m).all fun i => recipientGood (recipient p i)
  else if action = Act.shareRestore then
    decide (n = 48) && p.zeroAt 41 7 && decide (2 ≤ (p.at_ 40).toNat ∧ (p.at_ 40).toNat ≤ 16)
  else if action = Act.lock ∨ action = Act.debugEnter ∨ action = Act.debugExit ∨ action = Act.decommission then
    decide (n = 40) && utf8 (p.slice 8 32)
  else if action = Act.unlock then decide (n = 56) && p.zeroAt 9 7 && utf8 (p.slice 24 32)
  else if action = Act.fwRegister then
    decide (n = 80) && p.zeroAt 9 3 && p.zeroAt 28 4 && (p.at_ 8 == 1 || p.at_ 8 == 2)
  else if action = Act.extKey then
    let l := p.leAt 12 2
    let key := p.slice 16 l
    decide (n = pad8 (16 + l)) && p.zeroAt (16 + l) (n - (16 + l)) && decide ((p.at_ 8).toNat ≤ 3) && decide ((p.at_ 9).toNat ≤ 1) &&
      decide (p.at_ 11 = 0) && p.zeroAt 14 2 && (decide (p.at_ 9 = 1) || keyParses (p.at_ 10).toNat key)
  else if action = Act.dictQuorum then
    decide (1 ≤ (p.at_ 8).toNat ∧ (p.at_ 8).toNat ≤ 16) && p.zeroAt 9 7 && (blockWrites p).isSome
  else decide (n = 16) && p.zeroAt 10 6 && decide (60 ≤ p.leAt 8 2 ∧ p.leAt 8 2 ≤ 3600)

/-- The refusal of a parameter block (R228). -/
def paramRefusal (s : State) (action : Nat) (p : Bytes) : Option Done :=
  firstFail [
    (decide (p.leAt 0 2 ≠ action) || decide (p.leAt 2 2 ≠ 1) || decide (p.leAt 4 4 ≠ p.length) || !paramForm action p, bad 0x32),
    (decide (action = Act.unlock) && (decide ((p.at_ 8).toNat ≠ s.life.lockClass.code) || decide (p.leAt 16 8 ≠ s.life.lockTime)), bad 0x33),
    (decide (action = Act.dictQuorum) && (((blockWrites p).getD []).findSome? (quorumRefusal s)).isSome,
      (((blockWrites p).getD []).findSome? (quorumRefusal s)).getD (bad 0x32))]

/-! ## Challenges (R229) and the quorum (R225) -/

/-- QUORUM_M of an action: the approvals needed of current custodians, or of those named for INITIALISE. -/
def quorumNeed (s : State) (action : Nat) (p : Bytes) : Nat :=
  if action = Act.initialise then (custodiansOf ((blockRoles p).getD [])).length else s.custody.quorumM

/-- The challenge of a ceremony opened now. -/
def challengeOf (s : State) (id action : Nat) (p nonce : Bytes) : Bytes :=
  Bytes.ofLE 4 0x50414647 ++ Bytes.ofLE 2 1 ++ Bytes.ofLE 2 action ++ Bytes.ofLE 8 Config.serial ++ Bytes.ofLE 4 id ++
    Bytes.ofNats [s.life.lc.code, quorumNeed s action p, 0, 0] ++ Bytes.ofLE 8 s.now ++ Bytes.ofLE 8 (s.now + 120 * second) ++
    nonce.fit 16 ++ sha384 p

/-- Custodians of a CUSTODIANS block that are new: their key is none of a current custodian. -/
def newCustodians (s : State) (p : Bytes) : List RoleEntry :=
  (custodiansOf ((blockRoles p).getD [])).filter fun e =>
    !s.custody.roles.any fun r => decide (r.1 < 16) && decide (keyId r.2.key = keyId e.key)

/-- The keys that may approve a ceremony as custodian `c`, with the mark under which each counts: a current custodian
by its entry, a custodian of the block by 16 more. -/
def approvers (s : State) (x : Ceremony) (c : Nat) : List (Nat × Nat × Bytes) :=
  let current := if x.action = Act.initialise then [] else
    ((s.custody.roles.find? c).map fun r => (c, r.alg, r.key)).toList
  let block := if x.action = Act.initialise then custodiansOf ((blockRoles x.params).getD [])
    else if x.action = Act.custodians then newCustodians s x.params else []
  if c < 16 then current ++ ((block.filter fun e => decide (e.index = c)).map fun e => (16 + c, e.alg, e.key)) else []

/-- The approvals R225 asks for are held. -/
def quorumHeld (s : State) (x : Ceremony) : Bool :=
  let blockHeld (l : List RoleEntry) : Bool := l.all fun e => x.approvals.contains (16 + e.index)
  if x.action = Act.initialise then blockHeld (custodiansOf ((blockRoles x.params).getD []))
  else
    decide ((x.approvals.filter fun c => decide (c < 16) && (s.custody.roles.find? c).isSome).length ≥ s.custody.quorumM) &&
    (decide (x.action ≠ Act.custodians) || blockHeld (newCustodians s x.params))

/-! ## The CEREMONY command (R227) -/

def cerOp (e : Bytes) : Nat := (e.at_ 0x10).toNat
def cerAction (e : Bytes) : Nat := e.leAt 0x12 2
def cerId (e : Bytes) : Nat := e.leAt 0x14 4
def cerIn (e : Bytes) : Nat := e.leAt 0x18 8
def cerInLen (e : Bytes) : Nat := e.leAt 0x20 4
def cerMax (e : Bytes) : Nat := e.leAt 0x24 4
def cerOut (e : Bytes) : Nat := e.leAt 0x28 8

/-- Reserved fields of CEREMONY for its OP. -/
def cerRsv (e : Bytes) : Bool :=
  let op := cerOp e
  rsvSet e [(0x30, 80)] || decide ((e.at_ 0x11).toNat ≥ 2) || (decide (op ≠ 2) && decide (e.at_ 0x11 ≠ 0)) ||
    (decide (op ≠ 0) && rsvSet e [(0x12, 2)]) || (decide (op ≠ 0 ∧ op ≠ 3) && rsvSet e [(0x18, 12)])

/-- The checks of OPEN before its parameter block is read. -/
def openRows (s : State) (e : Bytes) : List (Bool × Done) :=
  [(cerRsv e, bad 0x02), ((openIn (cerAction e)).isNone, bad 0x30), (decide (cerId e ≠ 0), bad 0x31),
   (!((openIn (cerAction e)).getD []).contains s.life.lc, { status := Status.unavailable, detail := 0x02 }),
   (s.custody.cer.isSome, { status := Status.unavailable, detail := 0x04 }),
   (decide (cerInLen e < 8) || decide (cerInLen e > 65536), bad 0x32)]

/-- OPEN with its parameter block (R226 to R229). -/
def openGo (fdp : Bool) (e p : Bytes) (s : State) : Answer :=
  match firstFail (openRows s e) with
  | some d => refuse d s
  | none =>
    match paramRefusal s (cerAction e) p with
    | some d => refuse d s
    | none =>
      if cerMax e < 104 then refuse (bad 0x24 104) s
      else answered (fwRandom 16 s) fun nonce t =>
        let count := s.custody.mono + 1
        let id := count % 2 ^ 32
        let ch := challengeOf s id (cerAction e) p nonce
        let c : Ceremony := { id := id, action := cerAction e, params := p, challenge := ch, lc := s.life.lc.code
                              expires := s.now + 120 * second, fdpPath := fdp }
        (some { status := Status.ok, r0 := id }, ch,
          ceremonyRecord c 1 { t with custody := { t.custody with mono := count, cer := some c } })

/-- The open ceremony, when an entry names it. -/
def State.named (s : State) (e : Bytes) : Option Ceremony := s.custody.cer.filter fun c => decide (c.id = cerId e)

/-- STATUS (R227); to a ceremony in its continuation window only CONTINUE and CANCEL apply (R232). -/
def statusGo (e : Bytes) (s : State) : Answer :=
  if cerRsv e then refuse (bad 0x02) s
  else match s.named e with
    | none => refuse (bad 0x31) s
    | some c =>
      if c.stage = .window then refuse (bad 0x31) s
      else if cerMax e < 16 then refuse (bad 0x24 16) s
      else (some { status := Status.ok, r0 := 16 },
        Bytes.ofLE 4 c.id ++ Bytes.ofLE 2 c.action ++ Bytes.ofNats [c.approvals.length, (c.challenge.at_ 0x15).toNat] ++
          Bytes.ofLE 8 c.expires, s)

/-- The ceremony changed. -/
def modCer (h : Ceremony → Ceremony) (s : State) : State := { s with custody := { s.custody with cer := s.custody.cer.map h } }

/-- An alarm condition of class L or above persists (R235, R395). -/
def alarmPersists (s : State) : Bool :=
  (List.range 20).any fun g => s.vesper.cond.testBit g && decide (1 ≤ s.classOfGroup g ∧ s.classOfGroup g ≤ 3)

/-- What keeps an action from starting although its quorum is held (R235, R236). -/
def startRefusal (s : State) (c : Ceremony) : Option Done :=
  firstFail [
    (decide (c.action = Act.unlock) && alarmPersists s, { status := Status.unavailable, detail := 0x05 }),
    (decide (c.action = Act.debugEnter) && !s.boot.testEn, { status := Status.unavailable, detail := 0x06 })]

/-- EXECUTE with its quorum held: the action starts, or the ceremony stays open (R232). -/
def startAction (who : Caller) (c : Ceremony) (s : State) : Option Done × State :=
  match startRefusal s c with
  | some d => (some d, modCer (fun c => { c with caller := none }) s)
  | none => (none, ceremonyRecord c 2 (modCer (fun c => { c with stage := .executing, caller := some who }) s))

/-- A waiting EXECUTE is still in progress: an admin one until its job ends; one over FDP runs to its end, whether its
session goes on or not (R356). -/
def callerAlive (s : State) : Option Caller → Bool
  | none => false
  | some (.admin r) => (s.job? r).any fun j => j.outcome.isNone
  | some (.fdp _ _ _) => true

/-- EXECUTE (R232). -/
def executeGo (who : Caller) (e : Bytes) (s : State) : Answer :=
  if cerRsv e then refuse (bad 0x02) s
  else match s.named e with
    | none => refuse (bad 0x31) s
    | some c =>
      if c.caller = some who then (none, [], s)
      else if c.stage ≠ .gathering ∨ s.now ≥ c.expires ∨ callerAlive s c.caller = true then refuse (bad 0x31) s
      else if quorumHeld s c then let r := startAction who c s; (r.1, [], r.2)
      else if e.at_ 0x11 = 1 then (none, [], modCer (fun c => { c with caller := some who }) s)
      else refuse { status := Status.quorumRequired, detail := 0x01 } s

/-- CANCEL (R233): the ceremony closes at once. It does not stop an action that executes. -/
def cancelGo (e : Bytes) (s : State) : Answer :=
  if cerRsv e then refuse (bad 0x02) s
  else match s.named e with
    | none => refuse (bad 0x31) s
    | some c =>
      if c.stage = .executing then refuse (bad 0x31) s
      else (some { status := Status.ok }, [], closeCeremony 4 { status := Status.quorumRequired, detail := 0x04 } s)

/-! ## APPROVE (R230, R231) -/

def apprId (e : Bytes) : Nat := e.leAt 0x10 4
def apprWho (e : Bytes) : Nat := (e.at_ 0x14).toNat
def apprDecision (e : Bytes) : Nat := (e.at_ 0x15).toNat
def apprLen (e : Bytes) : Nat := e.leAt 0x16 2

/-- The string a custodian signs (R230). -/
def approvalTbs (challenge : Bytes) (who decision : Nat) : Bytes :=
  Bytes.ascii "GLALET-APPROVE-V1" ++ challenge ++ Bytes.ofNats [who, decision]

/-- The ceremony an approval is for, while it takes approvals. -/
def approvable (s : State) (e : Bytes) : Option Ceremony :=
  s.custody.cer.filter fun c => decide (c.id = apprId e) && decide (c.stage = .gathering) && decide (s.now < c.expires)

/-- The checks of APPROVE before its signature is read. -/
def apprRows (s : State) (e : Bytes) (fdp : Bool) : List (Bool × Done) :=
  let l := match approvable s e with | some c => approvers s c (apprWho e) | none => []
  [(rsvSet e [(0x20, if fdp then 96 else 32)], bad 0x02), (decide (apprDecision e ≠ 1 ∧ apprDecision e ≠ 2), bad 0x30),
   ((approvable s e).isNone, bad 0x31), (l.isEmpty, denied 0x0B),
   (!l.any fun a => decide (sigBytes a.2.1 = apprLen e), denied 0x0A)]

/-- Record an approval, a rejection or a refusal (R231). -/
def apprRecord (e : Bytes) (how detail : Nat) (s : State) : State := record 0x0402 0 (apprId e) (apprWho e) how detail (s := s)

/-- A refused approval. -/
def apprRefused (e : Bytes) (d : Done) (s : State) : Answer := (some d, [], apprRecord e 3 d.detail s)

/-- A waiting EXECUTE whose quorum is now held runs (R232). -/
def wakeExecute (s : State) : State :=
  match s.custody.cer with
  | none => s
  | some c =>
    match c.caller with
    | none => s
    | some who =>
      if c.stage = .gathering ∧ quorumHeld s c = true ∧ callerAlive s c.caller = true then
        let r := startAction who c s
        match r.1 with
        | some d => answerCaller (some who) d [] r.2
        | none => r.2
      else s

/-- APPROVE with its signature. -/
def approveGo (fdp : Bool) (e sig : Bytes) (s : State) : Answer :=
  match firstFail (apprRows s e fdp) with
  | some d => apprRefused e d s
  | none =>
    match approvable s e with
    | none => apprRefused e (bad 0x31) s
    | some c =>
      match (approvers s c (apprWho e)).find? fun a =>
          verifySig a.2.1 false a.2.2 (approvalTbs c.challenge (apprWho e) (apprDecision e)) sig with
      | none => apprRefused e (denied 0x0A) s
      | some a =>
        if apprDecision e = 2 then
          (some { status := Status.ok }, [],
            closeCeremony 3 { status := Status.quorumRequired, detail := 0x03 } (apprRecord e 2 0 s))
        else if c.approvals.contains a.1 then (some { status := Status.ok, detail := 0x01 }, [], apprRecord e 1 1 s)
        else (some { status := Status.ok }, [],
          wakeExecute (modCer (fun c => { c with approvals := c.approvals ++ [a.1] }) (apprRecord e 1 0 s)))

/-! ## The commands on PF0's admin queue -/

/-- Write the output of an admin command and decide its completion. -/
def adminAnswer (j : Job) (addr : Nat) (r : Answer) : Option Done × State :=
  (r.1, if r.2.1.isEmpty then r.2.2 else hostWrite j.ref.fn addr r.2.1 r.2.2)

/-- Run CEREMONY with operation `op`. -/
def runCeremony (op : Nat) (body : Job → State → Option Done × State) (s : State) : Outcome State :=
  runAdminSteps 0 Op.ceremony (fun j s => if cerOp j.entry = op then body j s else (none, s)) s

/-- CEREMONY_OPEN (R227). -/
def execCeremonyOpen (s : State) : Outcome State :=
  runCeremony 0 (fun j s =>
    match firstFail (openRows s j.entry) with
    | some d => (some d, s)
    | none => afterReads j s fun s =>
        adminAnswer j (cerOut j.entry) (openGo false j.entry (j.input 0 s) s)) s

/-- CEREMONY_STATUS (R227). -/
def execCeremonyStatus (s : State) : Outcome State :=
  runCeremony 1 (fun j s => adminAnswer j (cerOut j.entry) (statusGo j.entry s)) s

/-- CEREMONY_EXECUTE (R232). -/
def execCeremonyExecute (s : State) : Outcome State :=
  runCeremony 2 (fun j s => adminAnswer j (cerOut j.entry) (executeGo (.admin j.ref) j.entry s)) s

/-- CEREMONY_CANCEL (R233). -/
def execCeremonyCancel (s : State) : Outcome State :=
  runCeremony 4 (fun j s => adminAnswer j (cerOut j.entry) (cancelGo j.entry s)) s

/-- APPROVE (R231). -/
def execApprove (s : State) : Outcome State :=
  runAdminSteps 0 Op.approve (fun j s =>
    match firstFail (apprRows s j.entry false) with
    | some d => let r := apprRefused j.entry d s; (r.1, r.2.2)
    | none => afterReads j s fun s =>
        let r := approveGo false j.entry (j.input 0 s) s
        (r.1, r.2.2)) s

/-! ## Ends by time (R232, R244) -/

/-- CHALLENGE_EXPIRY (R232): a ceremony that has not begun to execute closes at EXPIRES. -/
def execChallengeExpiry (s : State) : Outcome State :=
  match s.custody.cer with
  | none => .next s
  | some c =>
    if c.stage = .gathering ∧ s.now ≥ c.expires then
      settled s (closeCeremony 5 { status := Status.quorumRequired, detail := 0x02 } s)
    else .next s

/-- CONTINUATION_WINDOW_EXPIRY (R232, R244): the window of an executed ceremony ends. A cell service window ends with
its own checks (R409). -/
def execContinuationWindowExpiry (s : State) : Outcome State :=
  match s.custody.cer with
  | none => .next s
  | some c =>
    if c.stage = .window ∧ c.action ≠ Act.cellService ∧ s.now ≥ c.windowEnd then
      settled s (closeCeremony 5 { status := Status.badEntry, detail := 0x3A } s)
    else .next s

end Sys2Proof.Machine
end

