-- ==== Sys2Proof/Machine/Domain.lean ====
section
/-!
DEFINITION. The actions of ceremonies (R219 to R221, R234 to R246): initialisation and custodians, the domain key and
its transport, joins, threshold shares, life-cycle transitions, firmware and extension keys.
-/

namespace Sys2Proof.Machine

/-! ## The domain key (R190, R241, R242) -/

/-- The reload of LOADING slots begins, when there are any and the device holds their domain key (R215). -/
def beginReload (s : State) : State :=
  if s.domainKey.isSome && s.store.slots.any fun p => decide (p.2.st = .loading) then
    { s with store := { s.store with reload := true } }
  else s

/-- A domain key acquired (R241): each side wraps its copy under the Vesper root, and one of the two results, which agree,
is stored; slots 0 and 1 made, the slots that wait for the domain reloaded. `how` is dom.how. -/
def acquireDomain (dk id : Bytes) (how : Nat) (s : State) : State :=
  let s1 := putDomain dk dk id s
  beginReload <| persist 4 { s1 with life := { s1.life with
    dkWrapped := kwpWrap (s.life.rootMain.fit 32) s1.domainKeys.1, domId := id.fit 16, domSince := s.now, domHow := how } }

/-- Slots 0 and 1 again from the wrapped domain key, each side by its own unwrap; a key that does not unwrap leaves slot 0
BAD (R198, R450). -/
def reloadDomain (s : State) : State :=
  if s.life.dkWrapped = [] then s
  else match sideKey 0 s.domainKeys.1 s, sideKey 0 s.domainKeys.2 s with
    | some ka, some kb => putDomain ka kb s.life.domId s
    | _, _ => markBad 0 s

/-- A new Vesper root, handed to the main die too (R219, R234). -/
def newRoot (root : Bytes) (s : State) : State := { s with life := { s.life with root := root, rootMain := root } }

/-! ## Transitions (R219, R220, R356) -/

/-- Latches cleared (R235, R396). -/
def clearLatches (s : State) : State := modVesper (fun v => { v with latch := 0, repeats := 0 }) s

/-- The part of a ceremony's transition that comes before the new state: jobs end with LOCKED, 0x01; session keys, IDE
keys and, but for the exceptions of R356, FDP sessions go; latches of FACTORY and DEBUG are cleared. -/
def leaveLife (atOnce keepSessions : Bool) (s : State) : State :=
  let s1 := endWork 1 atOnce (eraseIde (eraseAllSets s))
  let s2 := if keepSessions then s1 else endSessions (fun _ => true) s1
  if s.life.lc = .factory ∨ s.life.lc = .debug then clearLatches s2 else s2

/-- A transition by ceremony that destroys nothing but session and IDE keys. -/
def moveLife (x : LifeState) (id : Nat) (s : State) : State := enterLife x id (leaveLife false false s)

/-- What entry into DEBUG and DECOMMISSIONED destroys (R219). -/
def destroyAll (s : State) : State :=
  eraseRoot (eraseDomain (destroyStore (eraseSlots (leaveLife true false s))))

/-! ## Running an action -/

/-- What becomes of a ceremony after its EXECUTE. -/
inductive CerNext where
  | close
  | window (ends : Nat)
  | reopen

/-- The outcome of an action: its completion, output, state, and the ceremony's next stage. -/
structure ActOut where
  done : Done
  out  : Bytes := []
  next : CerNext := .close
  s    : State

/-- An action that succeeded. -/
def acted (s : State) : ActOut := { done := { status := Status.ok }, s := s }

/-- An action that is refused: nothing has changed, and the ceremony stays open. -/
def notActed (d : Done) (s : State) : ActOut := { done := d, next := .reopen, s := s }

/-- Room for the caller's output (R227, R353). -/
def callerRoom (s : State) : Option Caller → Nat
  | none => 0
  | some (.admin r) => match s.job? r with | some j => cerMax j.entry | none => 0
  | some (.fdp _ _ room) => room

/-- The ceremony after its action, and the answer to its caller. A caller without room for the output gets BAD_ENTRY,
0x24, and nothing happens. -/
def finishAction (c : Ceremony) (a : ActOut) (old : State) : State :=
  let gather (s : State) : State := modCer (fun c => { c with stage := .gathering, caller := none }) s
  if a.out.length > callerRoom old c.caller then answerCaller c.caller (bad 0x24 a.out.length) [] (gather old)
  else
    let d := if a.out.isEmpty then a.done else { a.done with r0 := a.out.length }
    match a.next with
    | .reopen => answerCaller c.caller d [] (gather a.s)
    | .window e =>
      answerCaller c.caller d a.out (modCer (fun c => { c with stage := .window, windowEnd := e, caller := none }) a.s)
    | .close =>
      answerCaller c.caller d a.out (ceremonyRecord c 3 { a.s with custody := { a.s.custody with cer := none } })

/-- The action `n` of the ceremony that executes. -/
def runAction (n : Nat) (body : Ceremony → State → ActOut) (s : State) : Outcome State :=
  match s.custody.cer with
  | none => .next s
  | some c =>
    if c.action = n ∧ c.stage = .executing ∧ s.secureRuns = true then settled s (finishAction c (body c s) s) else .next s

/-- An action that draws random bytes, all of them before its effect: it waits for the generator (R234, R289, R291). -/
def runDraw (n : Nat) (body : Ceremony → State → Except State ActOut) (s : State) : Outcome State :=
  match s.custody.cer with
  | none => .next s
  | some c =>
    if c.action = n ∧ c.stage = .executing ∧ s.secureRuns = true then
      match body c s with
      | .ok a => settled s (finishAction c a s)
      | .error t => settled s t
    else .next s

/-! ## Roles (R234, R225, R224) -/

/-- The role table of a block. -/
def roleTable (now : Nat) (l : List RoleEntry) : FMap RoleKey :=
  l.foldl (fun m e => m.set e.index { alg := e.alg, key := e.key, label := e.label, since := now }) []

/-- Role table, M and N replaced. -/
def putRoles (p : Bytes) (s : State) : State :=
  let l := (blockRoles p).getD []
  persist 4 { s with custody := { s.custody with roles := roleTable s.now l, quorumM := (p.at_ 8).toNat, quorumN := (custodiansOf l).length } }

/-- INITIALISE (R234). -/
def execInitialise (s : State) : Outcome State :=
  runDraw Act.initialise (fun c s =>
    (fwRandom 32 s).go fun root t => .ok (acted (moveLife .initialized c.id (putRoles c.params (newRoot root t))))) s

/-- CUSTODIANS (R225): sessions of entries removed or replaced end (R356). -/
def execCustodians (s : State) : Outcome State :=
  runAction Act.custodians (fun c s =>
    let t := putRoles c.params s
    let key (s : State) (i : Nat) : Option Bytes := (s.custody.roles.find? i).map (·.key)
    acted (endSessions (fun x => decide (key s x.entry ≠ key t x.entry)) t)) s

/-! ## Domain creation (R241) -/

/-- DOMAIN_CREATE. -/
def execDomainCreate (s : State) : Outcome State :=
  runDraw Act.domainCreate (fun c s =>
    (fwRandom 48 s).go fun b t => .ok (acted (moveLife .operational c.id (acquireDomain (b.take 32) (b.drop 32) 1 t)))) s

/-! ## Joins (R243, R244) -/

/-- A join message's header. -/
def joinHead (ty len : Nat) : Bytes :=
  Bytes.ofLE 4 0x4D444647 ++ Bytes.ofNats [ty, 0, 0, 0] ++ Bytes.ofLE 4 len ++ Bytes.ofLE 8 Config.serial

/-- A join message with its header. -/
def joinMsg (ty : Nat) (body : Bytes) : Bytes := (joinHead ty (20 + body.length)) ++ body

/-- A message has the header of a type and its own length. -/
def joinOk (ty : Nat) (m : Bytes) : Bool :=
  decide (m.length ≥ 20) && decide (m.leAt 0 4 = 0x4D444647) && decide ((m.at_ 4).toNat = ty) && m.zeroAt 5 3 &&
    decide (m.leAt 8 4 = m.length)

/-- SENDER_SERIAL. -/
def joinSender (m : Bytes) : Nat := m.leAt 12 8

/-- An ephemeral pair: its secrets, the P-384 scalar and the ML-KEM-1024 seed, and its two public keys. -/
structure Ephemeral where
  secret : Bytes
  epk    : Bytes
  ek     : Bytes

/-- An ephemeral P-384 key, and the secret part of an ML-KEM-1024 key, drawn by firmware. -/
def drawPair (s : State) : Drawn Ephemeral :=
  (fwKey 0x09 s).go fun e s => (fwKey 0x19 s).go fun k s =>
    .ok ({ secret := e ++ k, epk := publicOf 0x09 e, ek := publicOf 0x19 k }, s)

/-- Shared secrets with a peer's public keys, from our ephemeral P-384 key and an encapsulation of 32 random bytes `m`
(Z_E and Z_K, then CT). -/
def hybridSend (e epk ek m : Bytes) : Bytes × Bytes :=
  let k := kemEncaps 0x19 ek m
  (pkAgree 0x09 e epk {} ++ k.1, k.2)

/-- Shared secrets from a peer's ephemeral point and ciphertext, with our secrets. -/
def hybridReceive (secret epk ct : Bytes) : Bytes :=
  pkAgree 0x09 (secret.take 48) epk {} ++ kemDecaps 0x19 (secret.drop 48) ct []

/-- The key-encryption key of a join (R244). -/
def joinKek (th z id : Bytes) : Bytes := hkdf384 th z (Bytes.ascii "GLALET-DJ-V1" ++ id.fit 16) 32

/-- What SIG_E and SIG_M sign. -/
def joinTbs (th wrapped : Bytes) : Bytes := Bytes.ascii "GLALET-DJ-RESP-V1" ++ sha384 (th ++ wrapped)

/-- The peer's claims agree with what the ceremony names. -/
def peerIs (c : Option PeerClaims) (serial lc : Nat) (domain nonce : Bytes) : Bool :=
  c.any fun p => decide (p.serial = serial) && decide (p.lc = lc) && decide (p.domain = domain) && decide (p.nonce = nonce)

/-- DOMAIN_ADMIT (R244, step 1): the OFFER. -/
def execDomainAdmit (s : State) : Outcome State :=
  runDraw Act.domainAdmit (fun c s =>
    (fwRandom 32 s).go fun nonce s => (makeStatement nonce s).go fun att s =>
      let ends := s.now + c.params.leAt 16 2 * second
      let offer := joinMsg 1 (s.life.domId.fit 16 ++ c.params.slice 8 8 ++ Bytes.ofLE 8 ends ++ nonce ++ Bytes.ofLE 4 att.length ++ att)
      .ok { done := { status := Status.ok }, out := offer, next := .window ends, s := modCer (fun c => { c with offer := offer }) s }) s

/-- The OFFER of a DOMAIN_JOIN parameter block. -/
def offerOf (p : Bytes) : Bytes := p.slice 36 (p.leAt 32 4)

/-- The statement in an OFFER. -/
def offerAtt (o : Bytes) : Bytes := o.slice 88 (o.leAt 84 4)

/-- The OFFER is well-formed and made for this device and this domain. -/
def offerOk (p : Bytes) : Bool :=
  let o := offerOf p
  joinOk 1 o && decide (o.length = 88 + o.leAt 84 4) && decide (o.slice 20 16 = p.slice 16 16) &&
    decide (o.leAt 36 8 = Config.serial) && decide (joinSender o = p.leAt 8 8)

/-- DOMAIN_JOIN (R244, step 2): the REQUEST. -/
def execDomainJoin (s : State) : Outcome State :=
  runDraw Act.domainJoin (fun c s =>
    let o := offerOf c.params
    if offerOk c.params = false then .ok (notActed (bad 0x35) s)
    else if peerIs (peerClaims (offerAtt o)) (c.params.leAt 8 8) 2 (c.params.slice 16 16) (o.slice 52 32) = false then
      .ok (notActed (bad 0x36) s)
    else (fwRandom 32 s).go fun nonce s => (drawPair s).go fun k s =>
      let front := nonce ++ k.epk ++ k.ek
      (makeStatement (sha384 (o ++ front)) s).go fun att s =>
        let req := joinMsg 2 (front ++ Bytes.ofLE 4 att.length ++ att)
        .ok { done := { status := Status.ok }, out := req, next := .window (s.now + 600 * second)
              s := modCer (fun c => { c with offer := o, request := req, secret := k.secret }) s }) s

/-- CONTINUE of the sponsor (R244, step 3): the joiner's REQUEST is checked and answered with the RESPONSE. -/
def continueAdmit (c : Ceremony) (m : Bytes) (s : State) : Except State ActOut :=
  let epk := m.slice 52 97
  let ek := m.slice 149 1568
  let att := m.slice 1721 (m.leAt 1717 4)
  if (joinOk 2 m && decide (m.length = 1721 + m.leAt 1717 4) && decide (joinSender m = c.params.leAt 8 8) &&
      (pubRefusal 0x09 0 epk).isNone && (pubRefusal 0x19 0 ek).isNone) = false then .ok (notActed (bad 0x35) s)
  else if peerIs (peerClaims att) (c.params.leAt 8 8) 1 [] (sha384 (c.offer ++ m.slice 20 1697)) = false then
    .ok (notActed (bad 0x36) s)
  else (fwKey 0x09 s).go fun e s => (fwRandom 32 s).go fun rnd s =>
    let own := publicOf 0x09 e
    let z := hybridSend e epk ek rnd
    let th := sha384 (c.offer ++ m ++ own ++ z.2)
    let id := s.life.domId.fit 16
    let wrapped := kwpWrap (joinKek th z.1 id) (id ++ (s.domainKey.getD []).fit 32)
    let tbs := joinTbs th wrapped
    (attSign 1 tbs s).go fun g1 s => (attSign 2 tbs s).go fun g2 s =>
      .ok { done := { status := Status.ok }, out := joinMsg 3 (own ++ z.2 ++ wrapped ++ g1 ++ g2), s := s }

/-- Ephemeral keys erased after a failed check (R244). -/
def dropSecret (d : Done) (s : State) : ActOut := notActed d (modCer (fun c => { c with secret := [] }) s)

/-- CONTINUE of the joiner (R244, step 4). -/
def continueJoin (c : Ceremony) (m : Bytes) (s : State) : ActOut :=
  if (joinOk 3 m && decide (m.length = 5146) && (pubRefusal 0x09 0 (m.slice 20 97)).isNone) = false then dropSecret (bad 0x35) s
  else
    let epk := m.slice 20 97
    let ct := m.slice 117 1568
    let wrapped := m.slice 1685 56
    let th := sha384 (c.offer ++ c.request ++ epk ++ ct)
    let tbs := joinTbs th wrapped
    let sigs := (peerClaims (offerAtt c.offer)).any fun p =>
      verifySig 1 false p.keyE tbs (m.slice 1741 96) && verifySig 2 false p.keyM tbs (m.slice 1837 3309)
    let id := c.params.slice 16 16
    let plain := kwpUnwrap (joinKek th (hybridReceive c.secret epk ct) id) wrapped
    match plain with
    | some b =>
      if sigs && decide (c.secret ≠ []) && decide (b.length = 48) && decide (b.take 16 = id) then
        acted (moveLife .operational c.id (acquireDomain (b.drop 16) id 2 s))
      else dropSecret (bad 0x37) s
    | none => dropSecret (bad 0x37) s

/-! ## Threshold shares (R245, R246) -/

/-- Multiplication in GF(2^8) with x^8 + x^4 + x^3 + x + 1. -/
def gfMul (a b : Byte) : Byte :=
  ((List.range 8).foldl (fun p i => (if b.getLsbD i then p.1 ^^^ p.2 else p.1, aesXtime p.2)) ((0 : Byte), a)).1

/-- The inverse: a^254. -/
def gfInv (a : Byte) : Byte := (List.range 253).foldl (fun p _ => gfMul p a) a

/-- Value at `x` of the polynomial with the given coefficients, constant first. -/
def gfEval (x : Byte) (l : Bytes) : Byte := l.foldr (fun c v => gfMul v x ^^^ c) 0

/-- Share `x`: each key byte is the constant of its own polynomial, whose other coefficients are in `coef`. -/
def shareOf (dk coef : Bytes) (k x : Nat) : Bytes :=
  (dk.fit 32).zipIdx.map fun p => gfEval (BitVec.ofNat 8 x) (p.1 :: coef.slice ((k - 1) * p.2) (k - 1))

/-- The Lagrange coefficient at 0 of share `x` among the indices `xs`. -/
def gfWeight (xs : List Nat) (x : Nat) : Byte :=
  let b (n : Nat) : Byte := BitVec.ofNat 8 n
  (xs.filter fun y => decide (y ≠ x)).foldl (fun p y => gfMul p (gfMul (b y) (gfInv (b x ^^^ b y)))) 1

/-- The values at 0 of the polynomials through the shares. -/
def interpolate (l : List (Nat × Bytes)) : Bytes :=
  let xs := l.map (·.1)
  (List.range 32).map fun i => l.foldl (fun v p => v ^^^ gfMul (gfWeight xs p.1) (p.2.at_ i)) 0

/-- CHECK of a domain key (R245). -/
def shareCheck (id dk : Bytes) : Bytes := (sha384 (Bytes.ascii "GLALET-DKCHK-V1" ++ id.fit 16 ++ dk.fit 32)).take 16

/-- AES key and IV of a share, from its header and the shared secrets. -/
def shareKeys (head z : Bytes) : Bytes × Bytes :=
  let b := hkdf384 (sha384 head) z (Bytes.ascii "GLALET-SH-V1") 44
  (b.take 32, b.drop 32)

/-- RECIPIENT_ID of two public keys. -/
def recipientId (p384 mlkem : Bytes) : Bytes := (sha384 (p384 ++ mlkem)).take 16

/-- First 0x60 bytes of a share record. -/
def shareHead (k n x : Nat) (id set check : Bytes) (now : Nat) (rid : Bytes) : Bytes :=
  Bytes.ofLE 4 0x48534647 ++ Bytes.ofLE 2 1 ++ Bytes.ofNats [k, n, x] ++ Bytes.zeros 7 ++ id.fit 16 ++ set.fit 16 ++
    check.fit 16 ++ Bytes.ofLE 8 now ++ rid.fit 16 ++ Bytes.zeros 8

/-- A share record for a recipient, from an ephemeral P-384 key and 32 random bytes. -/
def shareRecord (head value p384 mlkem e rnd : Bytes) : Bytes :=
  let z := hybridSend e p384 mlkem rnd
  let k := shareKeys head z.1
  let ct := gcmCrypt k.1 k.2 value
  head ++ publicOf 0x09 e ++ z.2 ++ ct ++ gcmTag k.1 k.2 head ct

/-- What the records of an export draw for `n` recipients: an ephemeral key and 32 bytes each. -/
def drawShares : Nat → State → Drawn (List (Bytes × Bytes))
  | 0, s => .ok ([], s)
  | n + 1, s => (fwKey 0x09 s).go fun e s => (fwRandom 32 s).go fun b s => (drawShares n s).go fun l s => .ok ((e, b) :: l, s)

/-- SHARE_EXPORT (R245). -/
def execShareExport (s : State) : Outcome State :=
  runDraw Act.shareExport (fun c s =>
    let k := (c.params.at_ 8).toNat
    let n := (c.params.at_ 9).toNat
    let nc := 32 * (k - 1)
    (fwRandom (16 + nc) s).go fun b s => (drawShares n s).go fun l s =>
      let dk := (s.domainKey.getD []).fit 32
      let id := s.life.domId.fit 16
      let out := l.zipIdx.flatMap fun x =>
        let p := recipient c.params x.2
        let head := shareHead k n (x.2 + 1) id (b.take 16) (shareCheck id dk) s.now (recipientId (p.slice 32 97) (p.slice 129 1568))
        shareRecord head (shareOf dk (b.drop 16) k (x.2 + 1)) (p.slice 32 97) (p.slice 129 1568) x.1.1 x.1.2
      .ok { done := { status := Status.ok }, out := out, s := s }) s

/-- SHARE_RESTORE (R246, step 1): the restore request. -/
def execShareRestore (s : State) : Outcome State :=
  runDraw Act.shareRestore (fun c s =>
    let front := c.params.slice 8 32
    (drawPair s).go fun k s => (makeStatement (sha384 (front ++ k.epk ++ k.ek)) s).go fun att s =>
      let req := joinMsg 4 (front ++ Bytes.ofNats [(c.params.at_ 40).toNat] ++ k.epk ++ k.ek ++ att)
      .ok { done := { status := Status.ok }, out := req, next := .window (s.now + 3600 * second)
            s := modCer (fun c => { c with request := k.epk ++ k.ek, secret := k.secret }) s }) s

/-- The value of a share record for this restore; none when the record is refused. -/
def openShare (c : Ceremony) (m : Bytes) : Option Bytes :=
  let head := m.take 0x60
  let ks := shareKeys head (hybridReceive c.secret (m.slice 0x60 97) (m.slice 0xC1 1568))
  let enc := m.slice 0x6E1 32
  if m.length = 1809 ∧ m.leAt 0 4 = 0x48534647 ∧ m.leAt 4 2 = 1 ∧ m.at_ 6 = c.params.at_ 40 ∧ m.at_ 7 ≥ m.at_ 6 ∧ m.at_ 7 ≤ 16#8 ∧
      m.at_ 8 ≥ 1#8 ∧ m.at_ 8 ≤ m.at_ 7 ∧ m.zeroAt 9 7 = true ∧ m.zeroAt 0x58 8 = true ∧ m.slice 0x10 32 = c.params.slice 8 32 ∧
      (c.check = [] ∨ c.check = m.slice 0x30 16) ∧ m.slice 0x48 16 = recipientId (c.request.take 97) (c.request.drop 97) ∧
      (pubRefusal 0x09 0 (m.slice 0x60 97)).isNone = true ∧ (c.shares.any fun p => decide (p.1 = (m.at_ 8).toNat)) = false ∧
      gcmTag ks.1 ks.2 head enc = m.slice 0x701 16 then some (gcmCrypt ks.1 ks.2 enc)
  else none

/-- CONTINUE of a restore (R246, steps 3 and 4). -/
def continueRestore (c : Ceremony) (m : Bytes) (s : State) : ActOut :=
  match openShare c m with
  | none => notActed (bad 0x38) s
  | some v =>
    let l := c.shares ++ [((m.at_ 8).toNat, v)]
    let check := m.slice 0x30 16
    if l.length < (c.params.at_ 40).toNat then
      { done := { status := Status.ok }, next := .reopen, s := modCer (fun c => { c with shares := l, check := check }) s }
    else
      let dk := interpolate l
      let id := c.params.slice 8 16
      if shareCheck id dk = check then acted (moveLife .operational c.id (acquireDomain dk id 3 s))
      else { done := bad 0x39, s := s }

/-! ## CONTINUE (R227, R244, R246) -/

/-- The checks of CONTINUE before its message is read. -/
def continueRows (s : State) (e : Bytes) : List (Bool × Done) :=
  let takes : Bool := (s.named e).any fun c =>
    decide (c.stage = .window) && (c.action == Act.domainAdmit || c.action == Act.domainJoin || c.action == Act.shareRestore)
  [(cerRsv e, bad 0x02), (!takes, bad 0x31), ((s.named e).any fun c => decide (s.now ≥ c.windowEnd), bad 0x3A),
   (decide (cerInLen e < 8) || decide (cerInLen e > 65536), bad 0x35)]

/-- CONTINUE by its ceremony's action; the sponsor's waits for the generator. -/
def continueAct (c : Ceremony) (m : Bytes) (s : State) : Except State ActOut :=
  if c.action = Act.domainAdmit then continueAdmit c m s
  else .ok (if c.action = Act.domainJoin then continueJoin c m s else continueRestore c m s)

/-- CONTINUE with its message. A refusal leaves the window open. -/
def continueGo (e m : Bytes) (s : State) : Answer :=
  match firstFail (continueRows s e), s.named e with
  | some d, _ => refuse d s
  | none, none => refuse (bad 0x31) s
  | none, some c =>
    match continueAct c m s with
    | .error t => (none, [], t)
    | .ok a =>
      if a.out.length > cerMax e then refuse (bad 0x24 a.out.length) s
      else
        let d := if a.out.isEmpty then a.done else { a.done with r0 := a.out.length }
        match a.next with
        | .close => (some d, a.out, ceremonyRecord c 3 { a.s with custody := { a.s.custody with cer := none } })
        | _ => (some d, a.out, a.s)

/-- CEREMONY_CONTINUE (R244). -/
def execCeremonyContinue (s : State) : Outcome State :=
  runCeremony 3 (fun j s =>
    match firstFail (continueRows s j.entry) with
    | some d => (some d, s)
    | none => afterReads j s fun s =>
        adminAnswer j (cerOut j.entry) (continueGo j.entry (j.input 0 s) s)) s

/-! ## Locks, DEBUG and the end (R219, R221, R235, R236) -/

/-- LOCK (R236): session and IDE keys go, the lock class is 4. -/
def execLock (s : State) : Outcome State :=
  runAction Act.lock (fun c s => acted (enterLocked .ceremony s.vesper.calendar c.id (leaveLife false true s))) s

/-- UNLOCK after class V: a new root, no domain (R219, R235). -/
def unlockVoid (id : Nat) (root : Bytes) (s : State) : State :=
  enterLife .initialized id (newRoot root (eraseDomain s))

/-- UNLOCK (R235): latches cleared, then what the cause of the lock asks for; `root` is the root drawn after class V. -/
def unlockGo (c : Ceremony) (root : Bytes) (s : State) : State :=
  let cls := s.life.lockClass
  let s1 := clearLatches (vesperRecord 0x0703 0 cls.code s.vesper.repeats (s := s))
  let s2 := leaveLife false (decide (cls ≠ .z) && decide (cls ≠ .v)) s1
  match cls with
  | .v => unlockVoid c.id root (putAttest s2)
  | .z => beginReload (reloadDomain (putAttest (enterLife s.life.before c.id s2)))
  | _ => enterLife s.life.before c.id s2

/-- UNLOCK (R235). After class V its root is drawn first. -/
def execUnlock (s : State) : Outcome State :=
  runDraw Act.unlock (fun c s =>
    match startRefusal s c with
    | some d => .ok (notActed d s)
    | none =>
      if s.life.lockClass = .v then (fwRandom 32 s).go fun root s => .ok (acted (unlockGo c root s))
      else .ok (acted (unlockGo c [] s))) s

/-- The test root (R221). -/
def testRoot : Bytes := Bytes.ofNats (List.range 32)

/-- DEBUG_ENTER (R219, R221, R236). -/
def execDebugEnter (s : State) : Outcome State :=
  runDraw Act.debugEnter (fun c s =>
    match startRefusal s c with
    | some d => .ok (notActed d s)
    | none => (fwRandom 48 s).go fun b s =>
      let s1 := enterLife .debug c.id (newRoot testRoot (destroyAll s))
      .ok (acted (acquireDomain (b.take 32) (b.drop 32) 4 (putAttest s1)))) s

/-- DEBUG_EXIT (R219): everything made in DEBUG goes. -/
def execDebugExit (s : State) : Outcome State :=
  runDraw Act.debugExit (fun c s =>
    (fwRandom 32 s).go fun root s =>
      .ok (acted (enterLife .initialized c.id (newRoot root (eraseDomain (destroyStore (leaveLife true false s))))))) s

/-- DECOMMISSION (R219, R236, R339): as entry into DEBUG, with the role table and the stored profiles. -/
def execDecommission (s : State) : Outcome State :=
  runAction Act.decommission (fun c s =>
    let s1 := destroyAll s
    let s2 := persist 4 { s1 with
      custody := { s1.custody with roles := [], quorumM := 0, quorumN := 0 }
      dict := { s1.dict with profiles := [] } }
    acted (enterLife .decommissioned c.id (putAttest s2))) s

/-! ## Firmware and extension keys (R237, R238) -/

/-- The image of an FW_REGISTER block passes (R237). -/
def imagePasses (s : State) (p image : Bytes) : Bool :=
  let kind := (p.at_ 8).toNat
  decide (sha384 image = p.slice 32 48) && Config.firmwareSigned kind image && decide (Config.firmwareSvn image = p.leAt 24 4) &&
    decide (p.leAt 24 4 ≥ (if kind = 1 then s.boot.custodySvn else s.boot.serviceSvn))

/-- FW_REGISTER with its image: stored beside the running one, counted in mono.fw. -/
def registerImage (p image : Bytes) (s : State) : State :=
  let i : Image := { svn := p.leAt 24 4, digest := p.slice 32 48, bytes := image }
  { s with
    boot := if p.at_ 8 = 1 then { s.boot with custodyNew := some i } else { s.boot with serviceNew := some i }
    custody := { s.custody with monoFw := s.custody.monoFw + 1 } }

/-- The image of an FW_REGISTER: what its DMA read brought, or, for an EXECUTE over FDP, what custody firmware reads now. -/
def imageRead (c : Ceremony) (s : State) : Bytes :=
  match c.caller with
  | some (.admin r) => match s.job? r with | some j => j.inA.getD 0 [] | none => []
  | _ => s.hostRead 0 (c.params.leAt 16 8) (c.params.leAt 12 4)

/-- FW_REGISTER (R237): the image is read from PF0's memory by DMA. -/
def execFwRegister (s : State) : Outcome State :=
  match s.custody.cer with
  | none => .next s
  | some c =>
    if c.action = Act.fwRegister ∧ c.stage = .executing then
      let go (s : State) : Outcome State :=
        runAction Act.fwRegister (fun c s =>
          let image := imageRead c s
          if imagePasses s c.params image then acted (registerImage c.params image s) else notActed (bad 0x34) s) s
      match c.caller with
      | some (.admin r) =>
        match s.job? r with
        | some j =>
          if j.outcome.isSome then .next (modCer (fun c => { c with stage := .gathering, caller := none }) s)
          else if j.reads = .arrived then go s else if j.reads = .none_ then .next (startReads r s) else .next s
        | none => .next (modCer (fun c => { c with stage := .gathering, caller := none }) s)
      | _ => go s
    else .next s

/-- EXT_KEY (R238): a key is registered, or revoked with every extension it signed. -/
def execExtKey (s : State) : Outcome State :=
  runAction Act.extKey (fun c s =>
    let i := (c.params.at_ 8).toNat
    if c.params.at_ 9 = 0 then
      let k : RoleKey := { alg := (c.params.at_ 10).toNat, key := c.params.slice 16 (c.params.leAt 12 2), since := s.now }
      acted <| persist 0 { s with custody := { s.custody with extKeys := s.custody.extKeys.set i k, monoFw := s.custody.monoFw + 1 } }
    else
      let s1 := persist 0 { s with custody := { s.custody with extKeys := s.custody.extKeys.erase i } }
      acted ((s.worlds.exts.filter fun x => decide (x.key = i)).foldl (fun s x => endExt x 3 s) s1)) s

/-! ## Dictionary and cell (R239, R240) -/

/-- Who writes by a ceremony: its caller, with custodian's reach. -/
def quorumUser : Option Caller → DictUser
  | some (.fdp _ entry _) => { role := 0, fn := 0, path := 2, who := entry }
  | _ => { role := 0, fn := 0, path := 1, who := 0 }

/-- One write of DICT_QUORUM, as a DICT_WRITE of its value. -/
def quorumWrite (u : DictUser) (w : QuorumWrite) (s : State) : State :=
  match objOf w.index w.sub with
  | none => s
  | some o => dictRecord u w.index w.sub (if o.cls = .p then s.dict.active else 0) (putValue w.index o w.value s).2

/-- DICT_QUORUM (R240): all of its writes, or none. -/
def execDictQuorum (s : State) : Outcome State :=
  runAction Act.dictQuorum (fun c s =>
    let l := (blockWrites c.params).getD []
    match l.findSome? (quorumRefusal s) with
    | some d => { done := d, s := s }
    | none => acted (l.foldl (fun s w => quorumWrite (quorumUser c.caller) w s) s)) s

/-- CELL_SERVICE (R239): the window opens, and the charger is in SERVICE. -/
def execCellService (s : State) : Outcome State :=
  runAction Act.cellService (fun c s =>
    let ends := s.now + c.params.leAt 8 2 * second
    { done := { status := Status.ok }, next := .window ends
      s := chargeTo .service (modVesper (fun v => { v with window := some { ends := ends } }) s) }) s

end Sys2Proof.Machine
end

