-- ==== Sys2Proof/Machine/Fdp.lean ====
section
/-!
DEFINITION. The management port (R345 to R359): frames received on the port and on relay channels, session set-up,
requests, and FDP_RELAY.
-/

namespace Sys2Proof.Machine

/-! ## Frames (R346, R348) -/

def frameTy (f : Bytes) : Nat := (f.at_ 1).toNat
def frameMore (f : Bytes) : Bool := (f.at_ 2).getLsbD 0
def frameFrag (f : Bytes) : Nat := (f.at_ 3).toNat
def frameSession (f : Bytes) : Nat := f.leAt 4 4
def frameSeq (f : Bytes) : Nat := f.leAt 8 8
def frameLen (f : Bytes) : Nat := f.leAt 0x10 2
def framePayload (f : Bytes) : Bytes := f.slice 0x14 (frameLen f)

/-- A frame type that is sealed. -/
def sealedTy (t : Nat) : Bool :=
  t == Fdp.auth || t == Fdp.authOk || t == Fdp.request || t == Fdp.response || t == Fdp.close

/-- Length of a frame from its VERSION byte to its end. -/
def frameSize (f : Bytes) : Nat := 20 + frameLen f + (if sealedTy (frameTy f) then 16 else 0)

/-- The fields of a frame have the form of R348. -/
def frameForm (f : Bytes) : Bool :=
  decide (f.length ≥ frameSize f) && decide ((f.at_ 2).toNat < 2) && f.zeroAt 0x12 2 && decide (frameLen f ≤ Fdp.fragMax) &&
    decide (frameFrag f ≤ 45) && (sealedTy (frameTy f) || decide (frameSeq f = frameFrag f))

/-- The FDP frame in an Ethernet frame the MAC accepts (R346), given without its check sequence, and its source. -/
def ethAccept (eth : Bytes) : Option (SessPath × Bytes) :=
  let dst := eth.take 6
  if 60 ≤ eth.length ∧ eth.length ≤ 1514 ∧ eth.slice 12 2 = Bytes.ofBE 2 0x88B5 ∧
      (dst = Config.mac.fit 6 ∨ dst = List.replicate 6 0xFF) then some (.port (eth.slice 6 6), eth.drop 14)
  else none

/-! ## Reassembly (R349) -/

/-- Without the partial message of a key. -/
def dropPart (k : Nat) (s : State) : State := { s with mgmt := { s.mgmt with parts := s.mgmt.parts.filter fun p => decide (p.key ≠ k) } }

/-- The partial message of a key, while it is within its second. -/
def State.part? (s : State) (k : Nat) : Option Partial :=
  s.mgmt.parts.find? fun p => decide (p.key = k) && decide (s.now - p.start < second)

/-- Add a fragment: the whole message when it is the last one. -/
def addFragment (k ty frag : Nat) (more : Bool) (b : Bytes) (s : State) : Option Bytes × State :=
  let held : Option Partial :=
    if frag = 0 then some { key := k, ty := ty, next := 0, bytes := [], start := s.now }
    else (s.part? k).filter fun p => decide (p.ty = ty) && decide (p.next = frag)
  let s1 := dropPart k s
  match held with
  | none => (none, s1)
  | some p =>
    let m := p.bytes ++ b
    if m.length > Fdp.msgMax then (none, s1)
    else if more then (none, { s1 with mgmt := { s1.mgmt with parts := { p with next := frag + 1, bytes := m } :: s1.mgmt.parts } })
    else (some m, s1)

/-! ## DISCOVER and HELLO (R350, R351) -/

/-- Open sessions. -/
def openSessions (s : State) : Nat := (s.mgmt.sessions.filter fun x => decide (x.phase = .open_)).length

/-- The payload of ANNOUNCE. -/
def announceBytes (s : State) : Bytes :=
  Bytes.ofLE 8 Config.serial ++ Bytes.ofNats [stepping, s.life.lc.code, s.dict.active, openSessions s] ++ s.life.domId.fit 16

/-- A DISCOVER is answered with ANNOUNCE (R350). -/
def discovered (r : SessPath) (f : Bytes) (s : State) : State :=
  if frameLen f = 0 ∧ frameMore f = false ∧ frameFrag f = 0 ∧ frameSession f = 0 then
    sendFrames r (plainFrames Fdp.announce 0 (announceBytes s)) s
  else s

/-- A HELLO message is well-formed. -/
def helloOk (m : Bytes) : Bool :=
  decide (m.length = 1701) && decide ((m.at_ 32).toNat ≤ 31) && m.zeroAt 33 3 && (pubRefusal 0x09 0 (m.slice 36 97)).isNone &&
    (pubRefusal 0x19 0 (m.slice 133 1568)).isNone

/-- Sessions at once (R336). -/
abbrev sessionsMax : Nat := 8

/-- Times of HELLOs answered within the last second. -/
def recentHellos (s : State) : List Nat := s.mgmt.hellos.filter fun t => decide (s.now - t < second)

/-- The next SESSION number: never 0. -/
def nextSession (n : Nat) : Nat := if n + 1 ≥ 2 ^ 32 then 1 else n + 1

/-- The payload of HELLO_REPLY and the shared secrets behind it (R351). -/
def helloReply (m : Bytes) (s : State) : Drawn (Bytes × Bytes) :=
  (fwRandom 32 s).go fun nonce s => (fwKey 0x09 s).go fun e s => (fwRandom 32 s).go fun rnd s =>
    let z := hybridSend e (m.slice 36 97) (m.slice 133 1568) rnd
    let front := nonce ++ publicOf 0x09 e ++ z.2
    (makeStatement (sha384 (m ++ front)) s).go fun att s => .ok ((front ++ Bytes.ofLE 4 att.length ++ att, z.1), s)

/-- A session set up by a HELLO `m` and its HELLO_REPLY (R351). -/
def helloSession (r : SessPath) (m reply z : Bytes) (s : State) : Session :=
  let th := sha384 (m ++ reply)
  let keys := hkdf384 th z (Bytes.ascii "GLALET-FDP-V1" ++ Bytes.ofBE 4 s.mgmt.nextId) 88
  { id := s.mgmt.nextId, path := r, entry := (m.at_ 32).toNat, kCd := keys.take 32, kDc := keys.slice 32 32
    ivCd := keys.slice 64 12, ivDc := keys.slice 76 12, th := th, last := s.now }

/-- Set up a session; what the HELLO_REPLY draws may have to be waited for. -/
def startSession (r : SessPath) (m : Bytes) (s : State) : State :=
  match helloReply m s with
  | .error t => { t with mgmt := { t.mgmt with work := t.mgmt.work ++ [.hello r m] } }
  | .ok ((reply, z), t) =>
    let x := helloSession r m reply z t
    sendReply x.id { ty := Fdp.helloReply, body := reply }
      { t with mgmt := { t.mgmt with sessions := t.mgmt.sessions ++ [x], nextId := nextSession x.id } }

/-- Sessions set up or being set up. -/
def sessionCount (s : State) : Nat :=
  s.mgmt.sessions.length + (s.mgmt.work.filter fun w => match w with | .hello _ _ => true | .request _ _ _ => false).length

/-- A whole HELLO (R350, R351, R357). -/
def helloed (r : SessPath) (m : Bytes) (s : State) : State :=
  if (recentHellos s).length ≥ 10 then bump 0x1A s
  else if helloOk m = false then sendError r 0x05 0 s
  else if sessionCount s ≥ sessionsMax then sendError r 0x03 0 s
  else startSession r m { s with mgmt := { s.mgmt with hellos := s.now :: recentHellos s } }

/-- A fragment of a HELLO. -/
def helloFrame (r : SessPath) (f : Bytes) (s : State) : State :=
  if frameSession f ≠ 0 then sendError r 0x05 (frameSession f) s
  else match addFragment r.key Fdp.hello (frameFrag f) (frameMore f) (framePayload f) s with
    | (some m, t) => helloed r m t
    | (none, t) => t

/-! ## Sealed frames (R352, R359) -/

/-- The route of a frame is the session's. -/
def samePath : SessPath → SessPath → Bool
  | .port _, .port _ => true
  | .relay a, .relay b => decide (a = b)
  | _, _ => false

/-- The plaintext of a sealed frame whose tag is right. -/
def openFrame (x : Session) (f : Bytes) : Option Bytes :=
  let iv := fdpIv x.ivCd (frameSeq f)
  let ct := framePayload f
  if gcmTag x.kCd iv (f.take 20) ct = f.slice (20 + frameLen f) 16 then some (gcmCrypt x.kCd iv ct) else none

/-- A failed frame of a session; the sixteenth in a row ends it (R352). -/
def failFrame (x : Session) (s : State) : State :=
  if x.fails + 1 ≥ 16 then endSession x 3 s else modSession x.id (fun x => { x with fails := x.fails + 1 }) s

/-- The plaintext of an accepted sealed frame, or what its refusal leaves. -/
def acceptFrame (r : SessPath) (f : Bytes) (s : State) : Option (Session × Bytes) × State :=
  match s.session? (frameSession f) with
  | none => (none, sendError r 0x02 (frameSession f) s)
  | some x =>
    if samePath x.path r = false then (none, bump 0x17 s)
    else match openFrame x f with
      | none => (none, failFrame x (setErr Block.mp 5 (bump 0x16 s)))
      | some p =>
        if (x.rx.any fun n => decide (frameSeq f ≤ n)) = true then (none, failFrame x (bump 0x17 s))
        else (some (x, p), modSession x.id (fun x => { x with rx := some (frameSeq f), fails := 0, last := s.now }) s)

/-- Reassembly key of a session. -/
def sessionKey (id : Nat) : Nat := 2 ^ 64 + id

/-- A fragment of a sealed message, handed on when the message is whole. -/
def sealedFrame (r : SessPath) (f : Bytes) (go : Session → Bytes → State → State) (s : State) : State :=
  match acceptFrame r f s with
  | (none, t) => t
  | (some (x, p), t) =>
    match addFragment (sessionKey x.id) (frameTy f) (frameFrag f) (frameMore f) p t with
    | (some m, u) => go x m u
    | (none, u) => u

/-- ROLE of a role entry (R223). -/
def roleBit (entry : Nat) : Nat := roleOfEntry entry - 1

/-- What AUTH's SIG covers (R351). -/
def authTbs (x : Session) : Bytes :=
  Bytes.ascii "GLALET-FDP-AUTH-V1" ++ x.th ++ Bytes.ofBE 8 Config.serial ++ Bytes.ofNats [x.entry]

/-- fdp.session.idle_s. -/
def State.idleS (s : State) : Nat := s.param 0x6010 0x10 300

/-- A whole AUTH (R351): the session opens, or its keys are discarded. -/
def authed (x : Session) (m : Bytes) (s : State) : State :=
  if x.phase ≠ .replied then s
  else if m.length < 4 ∨ m.zeroAt 2 2 = false ∨ m.length ≠ 4 + m.leAt 0 2 then sendError x.path 0x05 x.id s
  else
    let ok := (s.custody.roles.find? x.entry).any fun k => verifySig k.alg false k.key (authTbs x) (m.drop 4)
    if ok then
      let m := Bytes.ofNats [roleOfEntry x.entry, x.entry] ++ Bytes.ofLE 2 s.idleS ++ Bytes.ofNats [s.life.lc.code, 0, 0, 0]
      sendReply x.id { ty := Fdp.authOk, body := m } (record 0x0403 0 x.id x.entry 1 x.path.chanCode
        (s := modSession x.id (fun y => { y with phase := .open_ }) s))
    else endSession x 3 (sendError x.path 0x04 x.id s)

/-! ## Requests (R353 to R355) -/

/-- The dictionary user of a session with a role entry. -/
def sessionUser (entry : Nat) : DictUser := { role := roleBit entry, fn := 0, path := 2, who := entry }

def reqId (m : Bytes) : Nat := m.leAt 0 4
def reqOp (m : Bytes) : Nat := (m.at_ 4).toNat
def reqLen (m : Bytes) : Nat := m.leAt 8 4
def reqData (m : Bytes) : Bytes := m.drop 0x80

/-- A command a role may issue (R354). -/
def permitted (role : Nat) (m : Bytes) : Bool :=
  let op := reqOp m
  if op = Op.dictRead ∨ op = Op.attest then true
  else if op = Op.dictWrite ∨ op = Op.approve then decide (role ≠ 2)
  else if op = Op.ceremony then decide (role ≠ 2) || decide (cerOp m = 1)
  else false

/-- Served over FDP in a hold (R428). -/
def heldRequest (m : Bytes) : Bool :=
  reqOp m == Op.dictRead || reqOp m == Op.attest || (reqOp m == Op.ceremony && decide (cerOp m = 1))

/-- The length field of BODY that DATA_LEN must equal. -/
def bodyLen (m : Bytes) : Nat :=
  let op := reqOp m
  if op = Op.ceremony then (if cerOp m = 0 ∨ cerOp m = 3 then cerInLen m else 0)
  else if op = Op.approve then apprLen m
  else if op = Op.dictWrite then (if writeLen m > 24 then writeLen m else 0)
  else 0

/-- The checks common to every request (R353, R354, R428). -/
def requestRows (s : State) (entry : Nat) (m : Bytes) : List (Bool × Done) :=
  let op := reqOp m
  let addrs := rsvSet m [(0x18, 8)] || (decide (op = Op.ceremony) && rsvSet m [(0x28, 8)])
  [(decide (op ≠ Op.pad) && (opLen op).isNone, { status := Status.badOpcode }),
   (!permitted (roleBit entry) m, denied 0x04),
   (s.held && !heldRequest m, { status := Status.fault, detail := 0x04 }),
   (rsvSet m [(5, 3), (0xC, 4)] || (decide (opLen op = some 1) && rsvSet m [(0x40, 64)]), bad 0x02),
   (addrs || decide (reqLen m ≠ bodyLen m) || decide (m.length ≠ 0x80 + reqLen m), bad 0x15)]

/-- The command of a request, by session and role entry: its completion, or none while it waits or an EXECUTE runs. -/
def runRequest (id entry : Nat) (m : Bytes) (s : State) : Answer :=
  match firstFail (requestRows s entry m) with
  | some d => refuse d s
  | none =>
    let op := reqOp m
    if op = Op.dictRead then let t := readStore m s; let r := dictReadBy (sessionUser entry) m t; (some r.1, r.2, t)
    else if op = Op.dictWrite then
      let r := if writeLen m > 24 then dictWriteBy (sessionUser entry) (m.patch 0x18 [1]) (some (reqData m)) s
        else dictWriteBy (sessionUser entry) m (some (m.slice 0x28 (writeLen m))) s
      (some (r.1.getD (bad 0x51)), [], r.2)
    else if op = Op.attest then attestBy m s
    else if op = Op.approve then approveGo true m (reqData m) s
    else if cerOp m = 0 then openGo true m (reqData m) s
    else if cerOp m = 1 then statusGo m s
    else if cerOp m = 2 then executeGo (.fdp id entry (cerMax m)) m s
    else if cerOp m = 3 then continueGo m (reqData m) s
    else if cerOp m = 4 then cancelGo m s
    else refuse (if cerRsv m then bad 0x02 else bad 0x30) s

/-- A request that is still in progress without its answer is an EXECUTE its ceremony holds; any other waits for the
generator. -/
def isExecute (m : Bytes) : Bool := reqOp m == Op.ceremony && decide (cerOp m = 2)

/-- Run the command of a request, and answer it or leave it waiting; a session that has ended discards the RESPONSE. -/
def runWork (id entry : Nat) (m : Bytes) (s : State) : State :=
  match runRequest id entry m s with
  | (some d, out, t) => respond id d out t
  | (none, _, t) =>
    if isExecute m then t else { t with mgmt := { t.mgmt with work := t.mgmt.work ++ [.request id entry m] } }

/-- The answer to a REQUEST that finds another outstanding (R355). -/
def busyReply (m : Bytes) : Reply :=
  { ty := Fdp.response
    body := responseBytes { id := reqId m, op := reqOp m, payload := [] } { status := Status.unavailable, detail := 0x07 } [] }

/-- A whole REQUEST (R355). -/
def requested (x0 : Session) (m : Bytes) (s : State) : State :=
  match s.session? x0.id with
  | none => s
  | some x =>
    if x.phase ≠ .open_ ∨ m.length < 0x80 then s
    else if x.req.any fun q => decide (q.id = reqId m) then s
    else if x.lastId = some (reqId m) then sendReply x.id { ty := Fdp.response, body := x.lastResp } s
    else if x.req.isSome then sendReply x.id (busyReply m) s
    else
      runWork x.id x.entry m
        (modSession x.id (fun x => { x with req := some { id := reqId m, op := reqOp m, payload := m, since := s.now } }) s)

/-- A whole CLOSE (R356). -/
def closed (x : Session) (_m : Bytes) (s : State) : State := endSession x 2 s

/-! ## A frame arrives -/

/-- Handle one FDP frame by its route (R348 to R357); a message of a type only the Thaza sends has no effect, and an
unknown type is dropped. -/
def receiveFrame (r : SessPath) (f : Bytes) (s0 : State) : State :=
  let s := { s0 with regs := { s0.regs with mpRx := satAdd s0.regs.mpRx 0xFFFFFFFF } }
  let t := frameTy f
  if f.at_ 0 ≠ 1 then sendError r 0x01 (frameSession f) s
  else if frameForm f = false then
    (if t = Fdp.hello ∨ t = Fdp.auth then sendError r 0x05 (frameSession f) s else s)
  else if t = Fdp.discover then discovered r f s
  else if t = Fdp.hello then helloFrame r f s
  else if t = Fdp.auth then sealedFrame r f authed s
  else if t = Fdp.request then sealedFrame r f requested s
  else if t = Fdp.close then sealedFrame r f closed s
  else if sealedTy t then sealedFrame r f (fun _ _ s => s) s
  else s

/-- The frame of a route, where the device takes it in (R346, R336, R358, R374). -/
def routeFrame (s : State) : FdpRoute → Option (SessPath × Bytes)
  | .port eth => if s.portUp then ethAccept eth else none
  | .relay ch f => if !s.opened || !s.secureRuns || decide (s.param 0x6010 0x12 1 = 0) || decide (f.length < 20) then none else some (.relay ch, f)

/-- A frame of type `ty` arrives. -/
def arrive (ty : Nat) (r : FdpRoute) (s : State) : Outcome State :=
  match routeFrame s r with
  | none => .next s
  | some (p, f) => if frameTy f = ty then settled s (receiveFrame p f s) else .next s

/-- DISCOVER (R350). -/
def execDiscover (r : FdpRoute) (s : State) : Outcome State := arrive Fdp.discover r s
/-- HELLO (R351). -/
def execHello (r : FdpRoute) (s : State) : Outcome State := arrive Fdp.hello r s
/-- AUTH (R351). -/
def execAuth (r : FdpRoute) (s : State) : Outcome State := arrive Fdp.auth r s
/-- REQUEST (R355). -/
def execRequest (r : FdpRoute) (s : State) : Outcome State := arrive Fdp.request r s
/-- CLOSE (R356). -/
def execClose (r : FdpRoute) (s : State) : Outcome State := arrive Fdp.close r s

/-! ## Timers of the port -/

/-- FRAGMENT_TIMEOUT (R349): a partial message not completed within 1 s is discarded. -/
def execFragmentTimeout (k : Nat) (s : State) : Outcome State :=
  .next { s with mgmt := { s.mgmt with parts := s.mgmt.parts.filter fun p => decide (p.key ≠ k) || decide (s.now - p.start < second) } }

/-- AUTH_TIMEOUT (R351): no valid AUTH within 10 s of HELLO_REPLY. -/
def execAuthTimeout (session : Nat) (s : State) : Outcome State :=
  .next <| match s.session? session with
    | none => s
    | some x =>
      if decide (x.phase = .replied) && x.replied.any fun t => decide (s.now - t ≥ 10 * second) then endSession x 3 s else s

/-- SESSION_IDLE_TIMEOUT (R356): the timer does not run while a request is outstanding (R355). -/
def execSessionIdleTimeout (session : Nat) (s : State) : Outcome State :=
  match s.session? session with
  | none => .next s
  | some x =>
    if x.phase = .open_ ∧ x.req.isNone = true ∧ s.now - x.last ≥ s.idleS * second then settled s (endSession x 3 s) else .next s

/-- The beacons seen change (R314, R345). -/
def setBeacon (present : Bool) (s : State) : State :=
  if s.mgmt.beacon = present then s else setErr Block.mp 4 { s with mgmt := { s.mgmt with beacon := present } }

/-- How the port reaches the segment. -/
inductive SegmentAccess where
  | plcaCoordinator | plcaFollower | csmaCd
  deriving DecidableEq, Repr

/-- The access method in force (R345): PLCA as its settings and the beacons allow, CSMA/CD otherwise. -/
def State.access (s : State) : SegmentAccess :=
  let node := s.param 0x6010 4 1
  if s.param 0x6010 3 1 = 0 ∨ node = 255 then .csmaCd
  else if node = 0 then .plcaCoordinator
  else if s.mgmt.beacon then .plcaFollower else .csmaCd

/-- PLCA_BEACON_CHANGE (R345): the access method follows the beacons, which only a port with its clock receives. -/
def execPlcaBeaconChange (present : Bool) (s : State) : Outcome State :=
  settled s (if present && !(s.mpOn && s.clock.refclk) then s else setBeacon present s)

/-! ## FDP_RELAY (R358, R359) -/

def relayCh (e : Bytes) : Nat := (e.at_ 0x10).toNat
def relayInLen (e : Bytes) : Nat := e.leAt 0x14 4
def relayIn (e : Bytes) : Nat := e.leAt 0x18 8
def relayOut (e : Bytes) : Nat := e.leAt 0x20 8
def relayRoom (e : Bytes) : Nat := e.leAt 0x28 4
def relayWait (e : Bytes) : Nat := e.leAt 0x2C 4

/-- The checks of FDP_RELAY. -/
def relayRows (s : State) (e : Bytes) : List (Bool × Done) :=
  [(rsvSet e [(0x11, 3), (0x30, 16)], bad 0x02),
   (decide (s.param 0x6010 0x12 1 = 0), { status := Status.unavailable, detail := 0x08 }),
   (decide (relayCh e > 3) || decide (relayWait e > 100000) || decide (relayInLen e > 65536) || decide (relayIn e % 4 ≠ 0) ||
     decide (relayOut e % 4 ≠ 0), bad 0x55)]

/-- A frame record, with its padding. -/
def relayRecord (f : Bytes) : Bytes :=
  let b := Bytes.ofLE 2 f.length ++ [0, 0] ++ f
  b ++ Bytes.zeros (roundUp b.length 4 - b.length)

/-- Deliver the frames of IN in order; whether a malformed record was met. `fuel` bounds the records. -/
def deliverRelay (ch : Nat) : Nat → Bytes → State → Bool × State
  | 0, _, s => (false, s)
  | k + 1, b, s =>
    if b.isEmpty then (false, s)
    else
      let n := b.leAt 0 2
      let len := roundUp (4 + n) 4
      let f := b.slice 4 n
      if b.length < 4 ∨ b.length < len ∨ b.zeroAt 2 2 = false ∨ n < 20 ∨ n ≠ frameSize f ∨ b.zeroAt (4 + n) (len - (4 + n)) = false then (true, s)
      else deliverRelay ch k (b.drop len) (receiveFrame (.relay ch) f s)

/-- As many pending frames as fit, and those that stay. -/
def takeFrames : Nat → List Bytes → List Bytes × List Bytes
  | _, [] => ([], [])
  | room, f :: r =>
    let n := (relayRecord f).length
    if n ≤ room then let t := takeFrames (room - n) r; (f :: t.1, t.2) else ([], f :: r)

/-- The pending frames written to OUT, and the completion. -/
def relayAnswer (e : Bytes) (s : State) : Done × State :=
  let ch := relayCh e
  let t := takeFrames (relayRoom e) (s.mgmt.relay.getD ch [])
  let b := t.1.flatMap relayRecord
  let s1 := { s with mgmt := { s.mgmt with relay := s.mgmt.relay.set ch t.2 } }
  ({ status := Status.ok, r0 := b.length, r1 := t.1.length },
    drainWaiting ch (if b.isEmpty then s1 else hostWrite 0 (relayOut e) b s1))

/-- Wait for an outgoing frame, or for WAIT_US. -/
def relayWaits (j : Job) (s : State) : Option Done × State :=
  let since := if j.phase = 0 then s.now else j.since
  if s.mgmt.relay.getD (relayCh j.entry) [] ≠ [] ∨ elapsedUs s.now since (relayWait j.entry) = true then
    let r := relayAnswer j.entry s
    (some r.1, r.2)
  else (none, modJob j.ref (fun j => { j with phase := 1, since := since }) s)

/-- FDP_RELAY (R358). -/
def execFdpRelay (s : State) : Outcome State :=
  runAdminSteps 0 Op.fdpRelay (fun j s =>
    if j.phase = 1 then relayWaits j s
    else match firstFail (relayRows s j.entry) with
      | some d => (some d, s)
      | none =>
        if relayInLen j.entry = 0 then relayWaits j s
        else afterReads j s fun s =>
          let b := j.input 0 s
          let r := deliverRelay (relayCh j.entry) b.length b s
          if r.1 then (some (bad 0x54), r.2) else relayWaits j r.2) s

end Sys2Proof.Machine
end

