-- ==== Sys2Proof/Machine/ConfigSpace.lean ====
section
/-!
DEFINITION. What a read of configuration space returns (R148, R152 to R158, R171, R183, R186): the identity values, the
capabilities at the offsets of R154 with the values the manual chooses, and the registers software has written. The places
of fields inside a register are those of PCI Express Base 6.0; a value that base specification leaves to the hardware and
the manual does not give is `Config.cfgInit`.
-/

namespace Sys2Proof.Machine

/-! ## The main die and its link (R28) -/

/-- The main die is out of its power-on hold. -/
def State.mainOn (s : State) : Bool := decide (s.boot.phase ≠ .held) && decide (s.boot.phase ≠ .unpowered)

/-- The link can train and carry requests: the main die is on, and REFCLK, without which the link is down, is there. -/
def State.linkOn (s : State) : Bool := s.mainOn && s.clock.refclk

/-- The link changed. -/
def modLink (h : Link → Link) (s : State) : State := { s with link := h s.link }

/-- The configuration space of function `f` answers: past the retry status (R447 to R449), and the function is there. -/
def cfgReach (s : State) (f : Nat) : Bool :=
  s.clock.refclk && (s.opened || decide (s.boot.phase = .unbooted)) &&
    (decide (f = 0) || ((s.fn 0).cfg.vfEnable && decide (f ≤ (s.fn 0).cfg.numVfs) && decide (f ≤ 2048))) &&
    decide ((s.fn f).run ≠ .resetting)

/-! ## Registers software writes -/

/-- Size of a VF's BAR (R153): 16 KiB or the System Page Size, whichever is larger, of the sizes R155 supports. -/
def vfBarSize (s : State) : Nat :=
  if (s.fn 0).cfg.regs.getD 0x180 1 = 0x10 then 0x10000 else 0x4000

/-- Offset inside its block of a Selective IDE stream register, for an offset in the eight blocks. -/
def ideBlockAt (d : Nat) : Option Nat := if 0x314 ≤ d ∧ d < 0x3B4 then some ((d - 0x314) % 20) else none

/-- RW bits of PF0's registers beside those it shares with VFs. -/
def pfMask (s : State) (d : Nat) : Nat :=
  if d = 0x04 then 0x540 else if d = 0x0C ∨ d = 0x3C then 0xFF
  else if d = 0x10 then 0xFC000000 else if d = 0x14 ∨ d = 0x1C then allBits else if d = 0x18 then 0xFFFFC000
  else if d = 0x80 then 0xFC3 else if d = 0x98 then 0x101F else if d = 0xA0 then 0xFFFF
  else if d = 0x168 then 0x10 else if d = 0x180 then allBits
  else if d = 0x184 then allBits - (vfBarSize s - 1) else if d = 0x188 then allBits
  else if d = 0x1B4 then 0xFE03 else if d = 0x1E4 then 0x80000000
  else if d = 0x2E8 then 0x2
  else if d = 0x30C then 0xFF380101
  else match ideBlockAt d with
    | some 4 => 0xFF780101
    | some 12 => 0x00FFFF00
    | some 16 => 0x00FFFF01
    | _ => 0

/-- RW bits of the plain configuration registers, by offset. ECRC is not supported (R148), so the bits that enable it stay
0. -/
def cfgMask (s : State) (f d : Nat) : Nat :=
  if d = 0x78 then (if f = 0 then 0x10F else 0xF)
  else if d = 0x108 ∨ d = 0x10C then 0x17FFF030 else if d = 0x114 then 0xF1C1
  else if d = 0x14C then 0x000C0000
  else if f = 0 then pfMask s d else 0

/-- Standard reset values of the plain registers that are not 0. -/
def cfgReset (d : Nat) : Nat :=
  if d = 0x10C then 0x00462030 else if d = 0x114 then 0x2000 else if d = 0xA0 then 6 else if d = 0x180 then 1
  else if d = 0x1E4 then 0x80000000 else 0

/-! ## Values the hardware gives -/

/-- Bits of a status list. -/
def statusBits (l : List Nat) : Nat := l.foldl (fun a b => a ||| 2 ^ b) 0

/-- The header of an extended capability. -/
def capHead (id ver next : Nat) : Nat := id + 2 ^ 16 * ver + 2 ^ 20 * next

/-- The extended capabilities of PF0: offset, ID, version, in their order (R154). -/
def pfCaps : List (Nat × Nat × Nat) :=
  [(0x100, 0x0001, 2), (0x148, 0x000D, 1), (0x150, 0x000E, 1), (0x160, 0x0010, 1), (0x1A0, 0x0003, 1), (0x1B0, 0x0019, 1),
   (0x1E0, 0x0025, 1), (0x1F0, 0x0026, 1), (0x220, 0x002A, 1), (0x250, 0x0031, 1), (0x280, 0x0027, 1), (0x2D0, 0x0022, 1),
   (0x2E0, 0x002E, 2), (0x300, 0x0030, 1)]

/-- Those of a VF. -/
def vfCaps : List (Nat × Nat × Nat) := [(0x100, 0x0001, 2), (0x148, 0x000D, 1), (0x150, 0x000E, 1)]

/-- The extended capability header at an offset; each names the next. -/
def extHead (d : Nat) : List (Nat × Nat × Nat) → Option Nat
  | [] => none
  | c :: r => if c.1 = d then some (capHead c.2.1 c.2.2 ((r.head?.map (·.1)).getD 0)) else extHead d r

/-- Index of a VF's or PF0's BAR that holds its function page (R171). -/
def pageBir (f : Nat) : Nat := if f = 0 then 2 else 0

/-- MSI-X Table Size (R156, R171): VECTORS − 1, and that of one entry without an allocation. -/
def msixSize (s : State) (f : Nat) : Nat := (s.fn f).vecN - 1

/-- A time of Readiness Time Reporting: the value, and the exponent of its scale in powers of 32 ns. -/
def readyTime (value scale : Nat) : Nat := value + 512 * scale

/-- Status of an IDE stream: 0 Insecure, 2 Secure (R186). -/
def ideStatus (s : State) (stream : Nat) : Nat := if s.link.ide.find? stream = some .secure then 2 else 0

/-- The type 0 header and its capabilities (R148, R152 to R154, R171). -/
def headWord (s : State) (f d : Nat) : Nat :=
  let c := (s.fn f).cfg
  let pf (v : Nat) : Nat := if f = 0 then v else 0
  match d with
  | 0x00 => if f = 0 then 0x7A091FB7 else 0xFFFFFFFF
  | 0x04 => 0x00100000 + pf (2 * b2n c.mse) + 4 * b2n c.bme
  | 0x08 => 0x10800000 + 0x31
  | 0x10 => pf 4
  | 0x18 => pf 4
  | 0x2C => 0x00091FB7
  | 0x34 => 0x40
  | 0x40 => 0x00035001
  | 0x44 => 8 + 3 * b2n c.d3
  | 0x50 => 0x7011 + 2 ^ 16 * msixSize s f + 2 ^ 30 * b2n c.msixMask + 2 ^ 31 * b2n c.msixEnable
  | 0x54 => 0x3800 + pageBir f
  | 0x58 => 0x3C00 + pageBir f
  | 0x70 => 0x80020010
  | 0x74 => 0x10008022
  | 0x78 => pf (16 * b2n c.relaxed + 32 * c.mps + 4096 * c.mrrs) + 2 ^ 21 * b2n c.txPending
  | 0x7C => pf (0x00400906 + Config.cfgInit f d % 8 * 2 ^ 15)
  | 0x80 => pf (2 ^ 16 * (s.link.rate + 16 * s.link.width))
  | 0x94 => 0x0003001F
  | 0x9C => pf 0x7E
  | 0xA0 => pf (2 ^ 26 * b2n s.link.flit)
  | _ => 0

/-- The extended capabilities of every function (R157, R158). -/
def extWord (s : State) (f d : Nat) : Nat :=
  let c := (s.fn f).cfg
  match d with
  | 0x104 => statusBits c.uncor
  | 0x110 => statusBits c.cor
  | 0x118 => c.firstErr
  | 0x11C => c.header.getD 0 0
  | 0x120 => c.header.getD 1 0
  | 0x124 => c.header.getD 2 0
  | 0x128 => c.header.getD 3 0
  | 0x14C => 0xC
  | _ => 0

/-- The extended capabilities of PF0 alone (R154, R155, R183, R186). -/
def pfWord (s : State) (d : Nat) : Nat :=
  let c := (s.fn 0).cfg
  match d with
  | 0x168 => b2n c.vfEnable + 8 * b2n c.vfMse
  | 0x16C => 2048 + 2048 * 2 ^ 16
  | 0x170 => c.numVfs
  | 0x174 => 1 + 2 ^ 16
  | 0x178 => 0x7A0A0000
  | 0x17C => 0x17
  | 0x184 => 4
  | 0x1A4 => Config.serial % 2 ^ 32
  | 0x1A8 => Config.serial / 2 ^ 32 % 2 ^ 32
  | 0x1E4 => 1
  | 0x2D4 => readyTime 287 4 + 2 ^ 12 * readyTime 20 4 + 2 ^ 31
  | 0x2D8 => readyTime 31 3 + 2 ^ 12 * readyTime 31 3
  | 0x2E4 => 1 + 2 * 63
  | 0x2EC => b2n s.link.held.isSome + 2 * b2n s.link.doeInt + 2 ^ 31 * b2n (!s.link.doe.isEmpty)
  | 0x2F4 => s.link.doe.leAt 0 4
  | 0x304 => 0x00070063
  | 0x310 => ideStatus s 0
  | _ =>
    if ideBlockAt d = some 8 then ideStatus s ((d - 0x314) / 20 + 1)
    else if (0x1B8 ≤ d ∧ d < 0x1DC) ∨ d = 0x1E8 ∨ (0x1F4 ≤ d ∧ d < 0x220) ∨ (0x224 ≤ d ∧ d < 0x250) ∨ (0x254 ≤ d ∧ d < 0x280) ∨
        (0x284 ≤ d ∧ d < 0x2C8) then Config.cfgInit 0 d % 2 ^ 32
    else 0

/-- The double word at offset `d` of function `f`'s configuration space. -/
def cfgWord (s : State) (f d : Nat) : Nat :=
  match extHead d (if f = 0 then pfCaps else vfCaps) with
  | some h => h
  | none =>
    (if d < 0x100 then headWord s f d else extWord s f d ||| (if f = 0 then pfWord s d else 0)) |||
      ((s.fn f).cfg.regs.getD d (cfgReset d) &&& cfgMask s f d)

/-- What a request to a register comes back with. -/
inductive ReadAnswer where
  | data (v : Nat)                    -- the value
  | retry                             -- Configuration Request Retry Status
  | unsupported                       -- Unsupported Request
  | abort                             -- Completer Abort
  | refused                           -- an internal access that a gate refused
  deriving DecidableEq, Repr

/-- A read of `n` bytes at an offset of function `f`'s configuration space (R152 to R158, R447). While the function is being
reset, its registers have their reset values (R164, R167). -/
def readCfg (f off n : Nat) (s : State) : ReadAnswer :=
  let there := decide (f = 0) || ((s.fn 0).cfg.vfEnable && decide (f ≤ (s.fn 0).cfg.numVfs) && decide (f ≤ 2048))
  if s.linkOn = false ∨ off ≥ 4096 ∨ off % 4 + n > 4 then .unsupported
  else if cfgReach s f || (there && s.opened) then .data (cfgWord s f (off / 4 * 4) >>> (8 * (off % 4)) % 2 ^ (8 * n))
  else if there then .retry
  else .unsupported

end Sys2Proof.Machine
end

