-- ==== Sys2Proof/Machine/Spdm.lean ====
section
/-!
DEFINITION. The DOE mailbox (R183), the SPDM responder behind it (R184, R185), and IDE_KM inside its secured sessions
(R186). What the manual's table chooses stands here as it chooses; the codes and layouts of messages, the key schedule and
the secured messages are those of DSP0274 and DSP0277, and those of IDE_KM PCI Express's.
-/

namespace Sys2Proof.Machine

namespace Spdm
/-! Error codes. -/
abbrev invalidRequest := 0x01
abbrev unexpected := 0x04
abbrev decryptError := 0x06
abbrev unsupported := 0x07
abbrev sessionLimit := 0x0A
abbrev requestTooLarge := 0x0E
abbrev largeResponse := 0x0F
abbrev versionMismatch := 0x41
/-- Sessions at once (R184). -/
abbrev sessions := 4
end Spdm

/-! ## Messages -/

/-- An SPDM message. -/
def spdmMsg (ver code p1 p2 : Nat) (body : Bytes) : Bytes := Bytes.ofNats [ver, code, p1, p2] ++ body

/-- An ERROR response. -/
def spdmError (ver code data : Nat) : Bytes := spdmMsg ver 0x7F code data []

def spdmVerOf (m : Bytes) : Nat := (m.at_ 0).toNat
def spdmCode (m : Bytes) : Nat := (m.at_ 1).toNat
def spdmP1 (m : Bytes) : Nat := (m.at_ 2).toNat
def spdmP2 (m : Bytes) : Nat := (m.at_ 3).toNat

/-- The SPDM connection changed. -/
def modConn (h : SpdmConn → SpdmConn) (s : State) : State := modLink (fun l => { l with conn := h l.conn }) s

/-- A session changed. -/
def modSpdm (id : Nat) (h : SpdmSession → SpdmSession) (s : State) : State :=
  modLink (fun l => { l with spdm := l.spdm.map fun x => if x.id = id then h x else x }) s

/-- A session ends. -/
def dropSpdm (id : Nat) (s : State) : State := modLink (fun l => { l with spdm := l.spdm.filter fun x => decide (x.id ≠ id) }) s

/-- Session of a number. -/
def State.spdm? (s : State) (id : Nat) : Option SpdmSession := s.link.spdm.find? fun x => decide (x.id = id)

/-- The certificate chain of slot 0 as SPDM carries it. -/
def spdmChain : Bytes :=
  Bytes.ofLE 2 (52 + Config.chainEcdsa.length) ++ [0, 0] ++ Config.rootDigest.fit 48 ++ Config.chainEcdsa

/-- OpaqueData with its length. -/
def spdmOpaque (asked : Bytes) : Bytes := let b := Config.spdmOpaque asked; Bytes.ofLE 2 b.length ++ b

/-- The ECDSA P-384 signature of a response over a transcript: from version 1.2 on its digest is signed behind a prefix that
names the response. -/
def spdmSign (ver : Nat) (name : String) (transcript : Bytes) (s : State) : Drawn Bytes :=
  if ver < 0x12 then attSign 1 transcript s
  else
    let c := Bytes.ascii name
    let p := Bytes.ascii "dmtf-spdm-v1.2.*"
    attSign 1 (p ++ p ++ p ++ p ++ Bytes.zeros (36 - c.length) ++ c ++ sha384 transcript) s

/-! ## Key schedule and secured messages -/

/-- HKDF-Expand under a label of the key schedule. -/
def spdmExpand (ver : Nat) (secret : Bytes) (label : String) (context : Bytes) (n : Nat) : Bytes :=
  let info := Bytes.ofLE 2 n ++ Bytes.ascii (if ver < 0x12 then "spdm1.1 " else "spdm1.2 ") ++ Bytes.ascii label ++ context
  (hkdfBlocks secret info (n / 48 + 1) 1 []).take n

/-- The secret of a direction, from a base secret and a transcript hash. -/
def spdmDir (ver : Nat) (base : Bytes) (label : String) (th : Bytes) : SpdmDir := { secret := spdmExpand ver base label th 48 }

/-- The direction after a key update. -/
def SpdmDir.next (ver : Nat) (d : SpdmDir) : SpdmDir := { secret := spdmExpand ver d.secret "traffic upd" [] 48 }

/-- The master secret behind a handshake secret. -/
def spdmMaster (ver : Nat) (base : Bytes) : Bytes := hmac384 (spdmExpand ver base "derived" [] 48) (Bytes.zeros 48)

/-- The verify data of a direction over a transcript. -/
def spdmVerify (ver : Nat) (d : SpdmDir) (log : Bytes) : Bytes := hmac384 (spdmExpand ver d.secret "finished" [] 48) (sha384 log)

/-- AEAD key and IV of a direction's next message. -/
def SpdmDir.keys (ver : Nat) (d : SpdmDir) : Bytes × Bytes :=
  (spdmExpand ver d.secret "key" [] 32, (spdmExpand ver d.secret "iv" [] 12).xor (Bytes.ofLE 12 d.seq))

/-- A secured message. -/
def spdmSeal (id ver : Nat) (d : SpdmDir) (m : Bytes) : Bytes :=
  let k := d.keys ver
  let text := Bytes.ofLE 2 m.length ++ m ++ Config.spdmPad id d.seq
  let head := Bytes.ofLE 4 id ++ Bytes.ofLE 2 (text.length + 16)
  let ct := gcmCrypt k.1 k.2 text
  head ++ ct ++ gcmTag k.1 k.2 head ct

/-- The message inside a secured one. -/
def spdmOpen (ver : Nat) (d : SpdmDir) (m : Bytes) : Option Bytes :=
  let n := m.leAt 4 2
  let k := d.keys ver
  let ct := m.slice 6 (n - 16)
  if n < 18 ∨ m.length < 6 + n ∨ gcmTag k.1 k.2 (m.take 6) ct ≠ m.slice (6 + (n - 16)) 16 then none
  else
    let p := gcmCrypt k.1 k.2 ct
    if p.length < 2 + p.leAt 0 2 then none else some (p.slice 2 (p.leAt 0 2))

/-! ## Measurements (R185) -/

/-- A measurement block in the DMTF format: a digest, or raw. -/
def measurementBlock (s : State) (i : Nat) : Bytes :=
  let v := measurement s i
  let ty := if i = 1 then 0 else if i < 5 then 1 else if i = 5 then 0x83 else 0x82
  Bytes.ofNats [i, 1] ++ Bytes.ofLE 2 (v.length + 3) ++ Bytes.ofNats [ty] ++ Bytes.ofLE 2 v.length ++ v

/-- Every measurement block. -/
def allMeasurements (s : State) : Bytes := (List.range 6).flatMap fun i => measurementBlock s (i + 1)

/-- The measurement blocks a request asks for: a number, all of them, or one. -/
def measurementBody (s : State) (op : Nat) : Option (Nat × Bytes) :=
  if op = 0 then some (0, [])
  else if op = 0xFF then some (6, allMeasurements s)
  else if op ≤ 6 then some (1, measurementBlock s op)
  else none

/-- The measurement summary hash of a type: none, or over all blocks; none for a type that is not defined. -/
def measurementSummary (s : State) (ty : Nat) : Option Bytes :=
  if ty = 0 then some [] else if ty = 1 ∨ ty = 0xFF then some (sha384 (allMeasurements s)) else none

/-! ## Negotiation (R184) -/

/-- Capability flags of a version: certificates, challenge, signed and fresh measurements; from 1.1 on encryption, MAC, key
exchange, heartbeat and key update; from 1.2 on chunks. -/
def spdmFlags (ver : Nat) : Nat := if ver < 0x11 then 0x36 else if ver < 0x12 then 0x62F6 else 0x262F6

/-- What a response of a drawn kind comes to without a draw. -/
def spdmSays (m : Bytes) (s : State) : Drawn Bytes := .ok (m, s)

/-- GET_VERSION: a new connection, with no session. -/
def spdmVersion (m : Bytes) (s : State) : Drawn Bytes :=
  if spdmVerOf m ≠ 0x10 then spdmSays (spdmError 0x10 Spdm.versionMismatch 0) s
  else
    let r := spdmMsg 0x10 0x04 0 0 (Bytes.ofNats [0, 3, 0, 0x10, 0, 0x11, 0, 0x12])
    spdmSays r (modLink (fun l => { l with conn := { phase := 1, base := m ++ r }, spdm := [] }) s)

/-- Length of GET_CAPABILITIES by version. -/
def capsLen (ver : Nat) : Nat := if ver < 0x11 then 4 else if ver < 0x12 then 12 else 20

/-- GET_CAPABILITIES. -/
def spdmCapabilities (m : Bytes) (s : State) : Drawn Bytes :=
  let ver := spdmVerOf m
  let room := if ver < 0x12 then 0 else m.leAt 12 4
  if m.length < capsLen ver ∨ (ver ≥ 0x12 ∧ room < 42) then spdmSays (spdmError ver Spdm.invalidRequest 0) s
  else
    let r := spdmMsg ver 0x61 0 0 (Bytes.ofNats [0, Config.spdmCtExponent, 0, 0] ++ Bytes.ofLE 4 (spdmFlags ver) ++
      (if ver < 0x12 then [] else Bytes.ofLE 4 Config.spdmTransfer ++ Bytes.ofLE 4 Config.spdmTransfer))
    spdmSays r (modConn (fun c => { c with phase := 2, ver := ver, room := room, base := c.base ++ m ++ r }) s)

/-- The bit of an algorithm table that the device supports: ECDHE secp384r1, AES-256-GCM, none for a requester's signature,
the SPDM key schedule. -/
def algBit (ty : Nat) : Nat := if ty = 2 then 0x10 else if ty = 3 then 2 else if ty = 5 then 1 else 0

/-- `n` algorithm tables: type and what of it both sides support. -/
def algTables : Nat → Bytes → List (Nat × Nat)
  | 0, _ => []
  | n + 1, b => ((b.at_ 0).toNat, b.leAt 2 2 &&& algBit (b.at_ 0).toNat) :: algTables n (b.drop (4 + 4 * ((b.at_ 1).toNat % 16)))

/-- NEGOTIATE_ALGORITHMS: ECDSA P-384, SHA-384 for both hashes, secp384r1, AES-256-GCM. -/
def spdmAlgorithms (m : Bytes) (s : State) : Drawn Bytes :=
  let ver := spdmVerOf m
  if m.length < 32 ∨ m.leAt 4 2 ≠ m.length ∨ bit (m.leAt 8 4) 7 = false ∨ bit (m.leAt 12 4) 1 = false then
    spdmSays (spdmError ver Spdm.invalidRequest 0) s
  else
    let l := if ver < 0x11 then [] else algTables (spdmP1 m) (m.drop (32 + 4 * ((m.at_ 28).toNat + (m.at_ 29).toNat)))
    let meas := (m.at_ 6).toNat % 2
    let other := if ver < 0x12 then 0 else (m.at_ 7).toNat &&& 2
    let r := spdmMsg ver 0x63 l.length 0 (Bytes.ofLE 2 (36 + 4 * l.length) ++ Bytes.ofNats [meas, other] ++ Bytes.ofLE 4 (4 * meas) ++
      Bytes.ofLE 4 0x80 ++ Bytes.ofLE 4 2 ++ Bytes.zeros 16 ++ l.flatMap fun p => Bytes.ofNats [p.1, 0x20] ++ Bytes.ofLE 2 p.2)
    let agreed := [2, 3, 5].all fun ty => l.any fun p => decide (p.1 = ty) && decide (p.2 ≠ 0)
    spdmSays r (modConn (fun c => { c with phase := 3, keyEx := agreed, base := c.base ++ m ++ r }) s)

/-! ## Certificates, challenge, measurements, key exchange (R184) -/

/-- GET_DIGESTS. -/
def spdmDigests (m : Bytes) (s : State) : Drawn Bytes :=
  let r := spdmMsg (spdmVerOf m) 0x01 0 1 (sha384 spdmChain)
  spdmSays r (modConn (fun c => { c with certs := c.certs ++ m ++ r }) s)

/-- GET_CERTIFICATE: slot 0 only. -/
def spdmCertificate (m : Bytes) (s : State) : Drawn Bytes :=
  if spdmP1 m % 16 ≠ 0 ∨ m.leAt 4 2 ≥ spdmChain.length then spdmSays (spdmError (spdmVerOf m) Spdm.invalidRequest 0) s
  else
    let part := (spdmChain.drop (m.leAt 4 2)).take (m.leAt 6 2)
    let r := spdmMsg (spdmVerOf m) 0x02 0 0
      (Bytes.ofLE 2 part.length ++ Bytes.ofLE 2 (spdmChain.length - m.leAt 4 2 - part.length) ++ part)
    spdmSays r (modConn (fun c => { c with certs := c.certs ++ m ++ r }) s)

/-- CHALLENGE: slot 0 only. -/
def spdmChallenge (m : Bytes) (s : State) : Drawn Bytes :=
  let ver := spdmVerOf m
  match measurementSummary s (spdmP2 m) with
  | none => spdmSays (spdmError ver Spdm.invalidRequest 0) s
  | some sum =>
    if spdmP1 m ≠ 0 ∨ m.length < 36 then spdmSays (spdmError ver Spdm.invalidRequest 0) s
    else (fwRandom 32 s).go fun nonce s =>
      let r := spdmMsg ver 0x03 0 1 (sha384 spdmChain ++ nonce ++ sum ++ spdmOpaque [])
      (spdmSign ver "responder-challenge_auth signing" (s.link.conn.base ++ s.link.conn.certs ++ m ++ r) s).go fun g s =>
        .ok (r ++ g, modConn (fun c => { c with certs := [] }) s)

/-- The transcript of the measurement messages so far, in a session or outside. -/
def measLog (x : Option SpdmSession) (s : State) : Bytes := match x with | some y => y.meas | none => s.link.conn.meas

/-- That transcript replaced. -/
def setMeasLog (x : Option SpdmSession) (b : Bytes) (s : State) : State :=
  match x with
  | some y => modSpdm y.id (fun y => { y with meas := b }) s
  | none => modConn (fun c => { c with meas := b }) s

/-- GET_MEASUREMENTS, with a signature where it asks for one: then for slot 0 only. -/
def spdmMeasurements (x : Option SpdmSession) (m : Bytes) (s : State) : Drawn Bytes :=
  let ver := spdmVerOf m
  let sign := (m.at_ 2).getLsbD 0
  match measurementBody s (spdmP2 m) with
  | none => spdmSays (spdmError ver Spdm.invalidRequest 0) s
  | some b =>
    if sign ∧ (m.length < 36 ∨ (ver ≥ 0x11 ∧ (m.at_ 36).toNat % 16 ≠ 0)) then spdmSays (spdmError ver Spdm.invalidRequest 0) s
    else (fwRandom 32 s).go fun nonce s =>
      let r := spdmMsg ver 0x60 (if spdmP2 m = 0 then 6 else 0) 0
        (Bytes.ofNats [b.1] ++ Bytes.ofLE 3 b.2.length ++ b.2 ++ nonce ++ spdmOpaque [])
      if sign then
        (spdmSign ver "responder-measurements signing"
          ((if ver < 0x12 then [] else s.link.conn.base) ++ measLog x s ++ m ++ r) s).go fun g s => .ok (r ++ g, setMeasLog x [] s)
      else .ok (r, setMeasLog x (measLog x s ++ m ++ r) s)

/-- The next responder session number. -/
def nextSpdm (n : Nat) : Nat := if n + 1 ≥ 0xFFFF then 1 else n + 1

/-- KEY_EXCHANGE: a session in its handshake, unless four are there; slot 0 only. -/
def spdmKeyExchange (m : Bytes) (s : State) : Drawn Bytes :=
  let ver := spdmVerOf m
  let peer := [4#8] ++ m.slice 40 96
  match measurementSummary s (spdmP1 m) with
  | none => spdmSays (spdmError ver Spdm.invalidRequest 0) s
  | some sum =>
    if s.link.conn.keyEx = false then spdmSays (spdmError ver Spdm.unexpected 0) s
    else if spdmP2 m ≠ 0 ∨ m.length < 138 ∨ (pubRefusal 0x09 0 peer).isSome = true then
      spdmSays (spdmError ver Spdm.invalidRequest 0) s
    else if s.link.spdm.length ≥ Spdm.sessions then spdmSays (spdmError ver Spdm.sessionLimit 0) s
    else (fwRandom 32 s).go fun nonce s => (fwKey 0x09 s).go fun e s =>
      let n := s.link.conn.nextId
      let r := spdmMsg ver 0x64 Config.spdmHeartbeat 0 (Bytes.ofLE 2 n ++ [0, 0] ++ nonce ++ (publicOf 0x09 e).drop 1 ++ sum ++
        spdmOpaque (m.slice 138 (m.leAt 136 2)))
      let th := s.link.conn.base ++ sha384 spdmChain ++ m ++ r
      (spdmSign ver "responder-key_exchange_rsp signing" th s).go fun g s =>
        let base := hmac384 (Bytes.zeros 48) (pkAgree 0x09 e peer {})
        let rsp := spdmDir ver base "rsp hs data" (sha384 (th ++ g))
        let v := spdmVerify ver rsp (th ++ g)
        let x : SpdmSession :=
          { id := m.leAt 4 2 + 65536 * n, ver := ver, base := base, log := th ++ g ++ v, rsp := rsp
            req := spdmDir ver base "req hs data" (sha384 (th ++ g)) }
        .ok (r ++ g ++ v, modLink (fun l => { l with spdm := l.spdm ++ [x], conn := { l.conn with nextId := nextSpdm n } }) s)

/-! ## IDE_KM (R186) -/

/-- Where the key of a set, direction and sub-stream lies. -/
def ideIndex (stream keySet sub : Nat) (tx : Bool) : Nat := ((stream * 2 + keySet) * 2 + b2n tx) * 3 + sub

/-- Key set, direction and sub-stream as IDE_KM messages carry them. -/
def ideSelect (keySet sub : Nat) (tx : Bool) : Nat := keySet + 2 * b2n tx + 16 * sub

/-- Streams the device has: 0 the link stream, 1 to 8 selective. -/
def ideStream (n : Nat) : Bool := decide (n ≤ 8)

/-- An IDE_KM request as its object carries it. -/
structure IdeReq where
  op     : Nat
  stream : Nat
  select : Nat
  port   : Nat
  data   : Bytes

def ideReq (p : Bytes) : IdeReq :=
  let op := (p.at_ 1).toNat
  { op := op, stream := (p.at_ 4).toNat, select := (p.at_ 6).toNat, port := if op = 0 then (p.at_ 3).toNat else (p.at_ 7).toNat
    data := p.drop 8 }

/-- The bytes of an IDE_KM object. -/
def ideObject (op stream status select port : Nat) : Bytes := Bytes.ofNats [0, op, 0, 0, stream, status, select, port]

def IdeReq.keySet (q : IdeReq) : Nat := q.select % 2
def IdeReq.tx (q : IdeReq) : Bool := q.select.testBit 1
def IdeReq.sub (q : IdeReq) : Nat := q.select / 16
def IdeReq.index (q : IdeReq) : Nat := ideIndex q.stream q.keySet q.sub q.tx

/-- QUERY: the IDE capability of the port, from its registers on. -/
def ideQuery (q : IdeReq) (s : State) : Bytes :=
  Bytes.ofNats [0, 1, 0, q.port] ++ Bytes.ofLE 2 Config.routingId ++ Bytes.ofNats [Config.routingId / 65536, 0] ++
    (List.range 44).flatMap fun i => Bytes.ofLE 4 (cfgWord s 0 (0x304 + 4 * i))

/-- KEY_PROG: a key for one sub-stream and direction of a key set that is not in use. -/
def ideKeyProg (q : IdeReq) (s : State) : Bytes × State :=
  let status := if q.data.length ≠ 40 then 1 else if q.port ≠ 0 then 2
    else if ideStream q.stream = false ∨ q.sub > 2 then 3
    else if (s.link.ideKeys.find? q.index).any (·.active) then 4 else 0
  (ideObject 3 q.stream status q.select q.port,
    if status = 0 then modLink (fun l => { l with
      ideKeys := l.ideKeys.set q.index { key := q.data.take 32, iv := q.data.drop 32 } }) s else s)

/-- Every sub-stream of a key set is active in both directions. -/
def ideSetActive (l : Link) (stream keySet : Nat) : Bool :=
  (List.range 3).all fun k => [false, true].all fun tx => (l.ideKeys.find? (ideIndex stream keySet k tx)).any (·.active)

/-- The keys with key `i` no longer active. -/
def ideOff (i : Nat) (m : FMap IdeKey) : FMap IdeKey := m.map fun p => (p.1, { p.2 with active := p.2.active && decide (p.1 ≠ i) })

/-- K_SET_GO: a programmed key takes over from the other set's; with all of a set active the stream is secure. -/
def ideKeyGo (q : IdeReq) (s : State) : Bytes × State :=
  let ack := ideObject 6 q.stream 0 q.select q.port
  match s.link.ideKeys.find? q.index with
  | none => (ack, s)
  | some k =>
    (ack, modLink (fun l =>
      let l' := { l with ideKeys := FMap.set (ideOff (ideIndex q.stream (1 - q.keySet) q.sub q.tx) l.ideKeys) q.index { k with active := true } }
      if ideSetActive l' q.stream q.keySet then { l' with ide := l'.ide.set q.stream .secure } else l') s)

/-- K_SET_STOP: the key is erased; a stream that used it goes insecure. -/
def ideKeyStop (q : IdeReq) (s : State) : Bytes × State :=
  let used := (s.link.ideKeys.find? q.index).any (·.active)
  (ideObject 6 q.stream 0 q.select q.port, modLink (fun l => { l with
    ideKeys := l.ideKeys.erase q.index, ide := if used then l.ide.set q.stream .insecure else l.ide }) s)

/-- The answer to an IDE_KM object; none for one that is no request. -/
def ideAnswer (p : Bytes) (s : State) : Option (Bytes × State) :=
  let q := ideReq p
  if p.at_ 0 ≠ 0 then none
  else match q.op with
    | 0 => some (ideQuery q s, s)
    | 2 => some (ideKeyProg q s)
    | 4 => some (ideKeyGo q s)
    | 5 => some (ideKeyStop q s)
    | _ => none

/-- The vendor-defined header of PCI-SIG's protocols, with a payload. -/
def vendorBody (p : Bytes) : Bytes := Bytes.ofNats [3, 0, 2, 1, 0] ++ Bytes.ofLE 2 p.length ++ p

/-- A vendor-defined request: IDE_KM, or unsupported. -/
def spdmVendor (m : Bytes) (s : State) : Drawn Bytes :=
  let ver := spdmVerOf m
  match if m.slice 4 5 = Bytes.ofNats [3, 0, 2, 1, 0] then ideAnswer (m.slice 11 (m.leAt 9 2)) s else none with
  | some (p, t) => .ok (spdmMsg ver 0x7E 0 0 (vendorBody p), t)
  | none => spdmSays (spdmError ver Spdm.unsupported (spdmCode m)) s

/-! ## Requests -/

/-- The first phase in which a request is expected: 0 none, 1 version known, 2 capabilities known, 3 negotiated. -/
def spdmPhase (code : Nat) : Option Nat :=
  if code = 0x84 then some 0 else if code = 0xE1 then some 1 else if code = 0xE3 then some 2
  else if code = 0x81 ∨ code = 0x82 ∨ code = 0x83 ∨ code = 0xE0 ∨ code = 0xE4 then some 3
  else none

/-- A request that belongs inside a secured session. -/
def spdmInside (code : Nat) : Bool := code == 0xE5 || code == 0xE8 || code == 0xE9 || code == 0xEC || code == 0xFE

/-- The version of a request is the connection's; before GET_CAPABILITIES, one of those supported. -/
def spdmVerOk (c : SpdmConn) (m : Bytes) : Bool :=
  if c.phase < 2 then decide (0x10 ≤ spdmVerOf m ∧ spdmVerOf m ≤ 0x12) else decide (spdmVerOf m = c.ver)

/-- A request outside a session. One that is none of a measurement ends the transcript of measurements. -/
def spdmPlain (m : Bytes) (s0 : State) : Drawn Bytes :=
  let ver := spdmVerOf m
  let code := spdmCode m
  let c := s0.link.conn
  let s := if code = 0xE0 then s0 else modConn (fun c => { c with meas := [] }) s0
  match spdmPhase code with
  | none => spdmSays (spdmError ver (if spdmInside code ∧ code ≠ 0xFE then Spdm.unexpected else Spdm.unsupported) code) s
  | some ph =>
    if code = 0x84 then spdmVersion m s
    else if spdmVerOk c m = false then spdmSays (spdmError ver Spdm.versionMismatch 0) s
    else if c.phase < ph ∨ (ph < 3 ∧ c.phase ≠ ph) then spdmSays (spdmError ver Spdm.unexpected 0) s
    else if code = 0xE1 then spdmCapabilities m s
    else if code = 0xE3 then spdmAlgorithms m s
    else if code = 0x81 then spdmDigests m s
    else if code = 0x82 then spdmCertificate m s
    else if code = 0x83 then spdmChallenge m s
    else if code = 0xE0 then spdmMeasurements none m s
    else if ver < 0x11 then spdmSays (spdmError ver Spdm.unsupported code) s
    else spdmKeyExchange m s

/-- FINISH: without a requester's signature; its verify data open the session, or end it. -/
def spdmFinish (x : SpdmSession) (m : Bytes) (s : State) : Drawn Bytes :=
  let r := spdmMsg x.ver 0x65 0 0 []
  if (m.at_ 2).getLsbD 0 then spdmSays (spdmError x.ver Spdm.invalidRequest 0) s
  else if m.slice 4 48 = spdmVerify x.ver x.req (x.log ++ m.take 4) then
    let th := sha384 (x.log ++ m ++ r)
    let base := spdmMaster x.ver x.base
    spdmSays r (modSpdm x.id (fun y => { y with
      handshake := false, base := [], log := [], rsp := spdmDir x.ver base "rsp app data" th
      req := spdmDir x.ver base "req app data" th }) s)
  else spdmSays (spdmError x.ver Spdm.decryptError 0) (dropSpdm x.id s)

/-- KEY_UPDATE: the request direction, both, or the new key verified. -/
def spdmKeyUpdate (x : SpdmSession) (m : Bytes) (s : State) : Drawn Bytes :=
  let op := spdmP1 m
  let r := spdmMsg x.ver 0x69 op (spdmP2 m) []
  let up (y : SpdmSession) : SpdmSession := { y with req := y.req.next y.ver, old := some y.req }
  if op = 1 then spdmSays r (modSpdm x.id up s)
  else if op = 2 then spdmSays r (modSpdm x.id (fun y => { up y with rsp := y.rsp.next y.ver }) s)
  else if op = 3 then spdmSays r (modSpdm x.id (fun y => { y with old := none }) s)
  else spdmSays (spdmError x.ver Spdm.invalidRequest 0) s

/-- A request inside a session. -/
def spdmInner (x : SpdmSession) (m : Bytes) (s0 : State) : Drawn Bytes :=
  let code := spdmCode m
  let s := if code = 0xE0 then s0 else setMeasLog (some x) [] s0
  if spdmVerOf m ≠ x.ver then spdmSays (spdmError x.ver Spdm.versionMismatch 0) s
  else if x.handshake then (if code = 0xE5 then spdmFinish x m s else spdmSays (spdmError x.ver Spdm.unexpected 0) s)
  else if code = 0xEC then spdmSays (spdmMsg x.ver 0x6C 0 0 []) (dropSpdm x.id s)
  else if code = 0xE8 then spdmSays (spdmMsg x.ver 0x68 0 0 []) s
  else if code = 0xE9 then spdmKeyUpdate x m s
  else if code = 0xFE then spdmVendor m s
  else if code = 0xE0 then spdmMeasurements (some x) m s
  else if code = 0x81 then spdmDigests m s
  else if code = 0x82 then spdmCertificate m s
  else spdmSays (spdmError x.ver (if (spdmPhase code).isSome ∨ code = 0xE5 then Spdm.unexpected else Spdm.unsupported) code) s

/-- A request, inside the session `x` or outside. -/
def spdmRun (x : Option SpdmSession) (m : Bytes) (s : State) : Drawn Bytes :=
  match x with | some y => spdmInner y m s | none => spdmPlain m s

/-! ## Chunks (R184) -/

/-- A response longer than the requester's DataTransferSize leaves by CHUNK_GET. -/
def spdmFits (ver : Nat) (r : Bytes) (s : State) : Bytes × State :=
  let c := s.link.conn
  if ver < 0x12 ∨ c.room = 0 ∨ r.length ≤ c.room then (r, s)
  else
    let h := (c.handle + 1) % 256
    (spdmMsg ver 0x7F Spdm.largeResponse 0 (Bytes.ofNats [h]),
      modConn (fun c => { c with handle := h, chunkOut := some { handle := h, seq := 0, msg := r } }) s)

/-- A refused chunk: its message is given up. -/
def chunkBad (m : Bytes) (code : Nat) (s : State) : Drawn Bytes :=
  .ok (spdmMsg 0x12 0x05 1 (spdmP2 m) (Bytes.ofLE 2 (m.leAt 4 2) ++ spdmError 0x12 code 0), modConn (fun c => { c with chunkIn := none }) s)

/-- CHUNK_SEND: the next piece of a large request, which runs once it is whole. -/
def chunkSend (x : Option SpdmSession) (m : Bytes) (s : State) : Drawn Bytes :=
  let seq := m.leAt 4 2
  let last := (m.at_ 2).getLsbD 0
  let head := if seq = 0 then 16 else 12
  let held : Option ChunkIn :=
    if seq = 0 then some { handle := spdmP2 m, seq := 0, size := m.leAt 12 4, got := [] }
    else s.link.conn.chunkIn.filter fun c => decide (c.handle = spdmP2 m) && decide (c.seq = seq)
  match held with
  | none => chunkBad m Spdm.invalidRequest s
  | some c =>
    let got := c.got ++ m.drop head
    if c.size > Config.spdmTransfer then chunkBad m Spdm.requestTooLarge s
    else if m.length ≠ head + m.leAt 8 4 ∨ got.length > c.size ∨ decide (got.length = c.size) ≠ last then
      chunkBad m Spdm.invalidRequest s
    else if last then
      (spdmRun x got s).go fun r s =>
        let t := spdmFits 0x12 r (modConn (fun c => { c with chunkIn := none }) s)
        .ok (spdmMsg 0x12 0x05 0 (spdmP2 m) (Bytes.ofLE 2 seq ++ t.1), t.2)
    else .ok (spdmMsg 0x12 0x05 0 (spdmP2 m) (Bytes.ofLE 2 seq),
      modConn (fun k => { k with chunkIn := some { c with seq := seq + 1, got := got } }) s)

/-- CHUNK_GET: the next piece of a large response. -/
def chunkGet (m : Bytes) (s : State) : Drawn Bytes :=
  match s.link.conn.chunkOut.filter fun c => decide (c.handle = spdmP2 m) && decide (c.seq = m.leAt 4 2) with
  | none => .ok (spdmError 0x12 Spdm.invalidRequest 0, s)
  | some c =>
    let head := if c.seq = 0 then 16 else 12
    let part := (c.msg.drop c.sent).take (s.link.conn.room - head)
    let done := decide (c.sent + part.length ≥ c.msg.length)
    .ok (spdmMsg 0x12 0x06 (b2n done) c.handle (Bytes.ofLE 2 c.seq ++ [0, 0] ++ Bytes.ofLE 4 part.length ++
        (if c.seq = 0 then Bytes.ofLE 4 c.msg.length else []) ++ part),
      modConn (fun k => { k with
        chunkOut := if done then none else some { c with seq := c.seq + 1, sent := c.sent + part.length } }) s)

/-- The response to a request, by chunks where it comes or goes so. -/
def spdmRespond (x : Option SpdmSession) (m : Bytes) (s : State) : Drawn Bytes :=
  let c := s.link.conn
  if (spdmCode m = 0x85 ∨ spdmCode m = 0x86) ∧ c.phase ≥ 2 ∧ c.ver = 0x12 ∧ spdmVerOf m = 0x12 then
    (if spdmCode m = 0x85 then chunkSend x m s else chunkGet m s)
  else (spdmRun x m s).go fun r s => let t := spdmFits (spdmVerOf m) r s; .ok (t.1, t.2)

/-! ## Secured messages in and out -/

/-- The session of a secured message with the key that opens it, and the message: the current key, or the one before a
KEY_UPDATE that is not verified, which then stands. -/
def spdmOpened (m : Bytes) (s : State) : Option (SpdmSession × Bytes) :=
  match s.spdm? (m.leAt 0 4) with
  | none => none
  | some x =>
    match spdmOpen x.ver x.req m with
    | some b => some (x, b)
    | none => match x.old with
      | none => none
      | some o => (spdmOpen x.ver o m).map fun b => ({ x with req := o, old := none }, b)

/-- The direction that seals the response to `m`: the session's own, which the response itself may have replaced by a key
update, but not by the end of the handshake. -/
def sealDir (x : SpdmSession) (s : State) : SpdmDir :=
  match s.spdm? x.id with
  | some y => if y.handshake = x.handshake then y.rsp else x.rsp
  | none => x.rsp

/-- A message of session `x` that came in its next place, answered by a secured message. -/
def spdmSecured (x : SpdmSession) (m : Bytes) (s : State) : Drawn Bytes :=
  let x1 := { x with req := { x.req with seq := x.req.seq + 1 } }
  (spdmRespond (some x1) m (modSpdm x.id (fun _ => x1) s)).go fun r t =>
    let d := sealDir x1 t
    .ok (spdmSeal x.id x.ver d r, modSpdm x.id (fun y => if y.rsp = d then { y with rsp := { d with seq := d.seq + 1 } } else y) t)

/-! ## The DOE mailbox (R183) -/

/-- A DOE data object of a type, padded to whole double words. -/
def doeObject (ty : Nat) (m : Bytes) : Bytes :=
  let p := m ++ Bytes.zeros (roundUp m.length 4 - m.length)
  Bytes.ofLE 2 1 ++ Bytes.ofNats [ty, 0] ++ Bytes.ofLE 4 ((p.length + 8) / 4) ++ p

/-- Place a response in the mailbox, with the DOE interrupt when it is enabled (R183). -/
def doeReply (obj : Bytes) (s : State) : State :=
  let s1 := emit (.doe obj) (modLink (fun l => { l with doe := obj, held := none }) s)
  if ((s.fn 0).cfg.regs.getD 0x2E8 0).testBit 1 then vecEvent 0 63 false (modLink (fun l => { l with doeInt := true }) s1) else s1

/-- DOE Discovery: the three object types, by index. -/
def doeDiscovery (m : Bytes) : Bytes :=
  let i := (m.at_ 0).toNat
  doeObject 0 (if i < 3 then Bytes.ofLE 2 1 ++ Bytes.ofNats [i, if i < 2 then i + 1 else 0] else Bytes.ofLE 2 0xFFFF ++ [0, 0])

/-- A response, or the data object that waits for random bytes. -/
def doeAnswer (obj : Bytes) (ty : Nat) (r : Drawn Bytes) : State :=
  match r with
  | .ok (m, t) => doeReply (doeObject ty m) t
  | .error t => modLink (fun l => { l with held := some obj }) t

/-- A data object of PF0's mailbox is answered. A malformed object, one longer than 65,536 bytes, one of another type and a
secured message that no session opens are dropped. -/
def doeServe (obj : Bytes) (s : State) : State :=
  let m := obj.drop 8
  let ty := (obj.at_ 2).toNat
  if obj.length > 65536 ∨ obj.length < 8 ∨ obj.leAt 0 2 ≠ 1 ∨ obj.leAt 4 4 % 2 ^ 18 * 4 ≠ obj.length then s
  else if ty = 0 then doeReply (doeDiscovery m) s
  else if ty = 1 then doeAnswer obj 1 (spdmRespond none m s)
  else if ty = 2 then
    match spdmOpened m s with
    | none => s
    | some (x, b) => doeAnswer obj 2 (spdmSecured x b s)
  else s

/-- SPDM_REQUEST (R183, R184): an object is answered while firmware serves (R374), one at a time. -/
def execSpdmRequest (obj : Bytes) (s : State) : Outcome State :=
  .next (if s.linkOn && s.secureRuns && s.link.held.isNone then doeServe obj s else s)

/-- DOE_ABORT (R183). -/
def execDoeAbort (s : State) : Outcome State := .next (modLink (fun l => { l with doe := [], mailbox := [], held := none }) s)

/-! ## The commands of IDE_KM (R186) -/

/-- An IDE_KM object sent inside an open secured session. -/
def ideKm (session : Nat) (p : Bytes) (s : State) : Outcome State :=
  match s.spdm? session with
  | none => .next s
  | some x =>
    if x.handshake || !s.secureRuns || s.link.held.isSome then .next s
    else match spdmSecured x (spdmMsg x.ver 0xFE 0 0 (vendorBody p)) s with
      | .ok (m, t) => .next (doeReply (doeObject 2 m) t)
      | .error t => .next t

/-- IDE_KM_QUERY: the IDE capability of a port. -/
def execIdeKmQuery (session port : Nat) (s : State) : Outcome State := ideKm session (Bytes.ofNats [0, 0, 0, port]) s

/-- IDE_KM_KEY_PROG: a key for one sub-stream and direction of a key set that is not in use. -/
def execIdeKmKeyProg (session stream keySet sub : Nat) (tx : Bool) (key iv : Bytes) (s : State) : Outcome State :=
  ideKm session (ideObject 2 stream 0 (ideSelect keySet sub tx) 0 ++ key ++ iv) s

/-- IDE_KM_K_SET_GO. -/
def execIdeKmKSetGo (session stream keySet sub : Nat) (tx : Bool) (s : State) : Outcome State :=
  ideKm session (ideObject 4 stream 0 (ideSelect keySet sub tx) 0) s

/-- IDE_KM_K_SET_STOP. -/
def execIdeKmKSetStop (session stream keySet sub : Nat) (tx : Bool) (s : State) : Outcome State :=
  ideKm session (ideObject 5 stream 0 (ideSelect keySet sub tx) 0) s

end Sys2Proof.Machine
end

