-- ==== Sys2Proof/Machine/HostLink.lean ====
section
/-!
DEFINITION. The host link (R85, R148, R149, R451): training, loss, resets and inbound FLITs.
-/

namespace Sys2Proof.Machine

/-! ## Link training and resets -/

/-- LINK_UP (R148, R149): rate, width and degradation, with a record. A link at 64 GT/s is in FLIT mode; one offered x2
trains at x1. -/
def execLinkUp (rate width : Nat) (flit : Bool) (s : State) : Outcome State :=
  if s.linkOn then
    let w := if width = 2 then 1 else width
    let fl := flit || decide (rate = 6)
    let low := decide (rate ≠ 6) || decide (w ≠ 16)
    settled s (record 0x0205 0 rate w (b2n fl) (b2n low)
      (s := modLink (fun l => { l with rate := rate, width := w, flit := fl, degraded := low }) s))
  else .next s

/-- What a link reset takes from the link: its training, the mailbox, SPDM sessions and IDE keys (R452). -/
def linkDown (s : State) : State := modLink (fun l => { degraded := l.degraded }) s

/-- The link goes down or is reset (R451): a function reset of every function, with cause 7, and its configuration space. -/
def resetLink (s : State) : State := startReset 0 7 (linkDown s)

/-- LINK_RESET (R451). -/
def execLinkReset (s : State) : Outcome State := if s.linkOn then settled s (resetLink s) else .next s

/-! ## Inbound FLITs (R85, R186) -/

/-- A failure on one side only: replay, an internal split fault, and the third in a row escalates. -/
def splitFailure (side : Nat) (s : State) : State :=
  let n := s.fab.rxSplit + 1
  let s1 := record 0x0104 1 0 side n (s := bump 2 { s with fab := { s.fab with rxSplit := n } })
  emit .replayRequest (if n ≥ 3 then escalate s1 else s1)

/-- A stream goes insecure. -/
def ideInsecure (stream : Nat) (s : State) : State :=
  modLink (fun l => { l with
    ide := l.ide.set stream .insecure
    ideKeys := l.ideKeys.map fun p => (p.1, if p.1 / 12 = stream then { p.2 with active := false } else p.2) }) s

/-- The IDE verdict of an accepted FLIT. A failure on both sides is IDE Check Failed in PF0's AER (R158). -/
def ideVerdict (v : IdeCheck) (s : State) : State :=
  match v with
  | .clean => s
  | .oneSide => escalate (record 0x0104 1 2 (Config.freeNat s.free % 2) 1 (s := drewFree s))
  | .bothSides st => aerUncor 0 28 (ideInsecure st s)

/-- INBOUND_FLIT (R85): `a` and `b` say whether each side's CRC passes. A link error is a Receiver Error in PF0's AER
(R158). -/
def execInboundFlit (a b : Bool) (v : IdeCheck) (s : State) : Outcome State :=
  let done (s : State) : State := { s with fab := { s.fab with rxSplit := 0 } }
  if s.linkOn = false then .next s
  else if a && b then settled s (ideVerdict v (done s))
  else if !a && !b then .next (emit .replayRequest (aerCor 0 0 (done s)))
  else settled s (splitFailure (b2n a) s)

end Sys2Proof.Machine
end

