-- ==== Sys2Proof/Machine/Gates.lean ====
section
/-!
DEFINITION. The target gates (chapter 12): internal addresses, the page owner table, the rule sets, the decision on an
access, and what a refusal does.
-/

namespace Sys2Proof.Machine

/-! ## Addresses and pages (R362, R363) -/

/-- The gate in front of an internal address. -/
def gateOf (addr : Nat) : Option Nat :=
  if addr < 0x10000 then some 0
  else if 0x10000000 ≤ addr ∧ addr < 0x10400000 then some 1
  else if 0x18000000 ≤ addr ∧ addr < 0x18080000 then some 2
  else if 0x20000000 ≤ addr ∧ addr < 0x22000000 then some 3
  else if 0x30000000 ≤ addr ∧ addr < 0x31000000 then some 4
  else if 0x40000000 ≤ addr ∧ addr < 0x40C00000 then some (8 + (addr - 0x40000000) / 0x100000)
  else none

/-- The page of an address behind gates 1 to 3. -/
def pageOf (g addr : Nat) : Nat :=
  if g = 1 then (addr - 0x10000000) / 4096
  else if g = 2 then 1024 + (addr - 0x18000000) / 4096
  else 1152 + (addr - 0x20000000) / 4096

/-- Internal address of an offset in PF0's BAR0. -/
def barInternal (addr : Nat) : Nat := 0x40000000 + addr

/-- Page owner table entry: the fixed pages are ENGINE. -/
def State.owner (s : State) (p : Nat) : Nat := if 1024 ≤ p then 0x23 else s.regs.owners.getD p 0

/-! ## Rights (R364, R366, R367) -/

/-- The access types: their codes in TG_FAULT_INFO and their bits in a rights field. -/
inductive Access where
  | read | write | execute
  deriving DecidableEq, Repr

/-- Code of an access type (R319). -/
def Access.code (x : Access) : Nat := x.ctorIdx

/-- A master whose engine rights alone are checked (R360). -/
def isEngine (a : Attr) : Bool := decide (0x0010 ≤ a.master ∧ a.master ≤ 0x0016)

/-- A transaction of secure world and user privilege, which does not exist (R364). -/
def impossible (a : Attr) : Bool := a.secure && !a.priv && !isEngine a

/-- Rights bits, R 1, W 2, X 4, that an owner word gives (R364). -/
def ownerRights (w : Nat) (a : Attr) : Nat :=
  let mine := decide (a.ext ≠ 0) && decide (bitsOf w 11 8 = a.ext)
  match w % 4 with
  | 0 => if isEngine a then 0 else if a.secure then 7 else 0
  | 1 => if isEngine a then 0 else if a.secure then 3 else if a.priv then 7
         else if mine then (if w.testBit 4 then 5 else 3) else 0
  | 2 => if isEngine a then 3 else if a.secure then 3 else if a.priv then 3 else if mine then 3 else 0
  | _ => if isEngine a then 3 else 0

/-- Rights of the default map; a user master has none (R367). -/
def defaultRights (g : Nat) (a : Attr) : Nat :=
  if isEngine a then (if g = 0 then 0 else 3)
  else if a.secure then (if g = 0 then 5 else if g = 1 then 7 else if g = 2 ∨ g = 3 then 0 else 3)
  else if a.priv then (if g = 1 then 7 else if 8 ≤ g then 3 else 0)
  else 0

/-- Word `w` of rule `r` of gate `g`, as stored. -/
def State.ruleWord (s : State) (g r w : Nat) : Nat := s.regs.rules.getD (0x1000 + 0x100 * g + 0x10 * r + 4 * w) 0

/-- Rule `r` of gate `g` is in force, covers the byte, and applies to the master and its extension (R366, R367). -/
def ruleApplies (s : State) (g : Nat) (a : Attr) (addr r : Nat) : Bool :=
  let m := s.ruleWord g r 3
  m.testBit 31 && decide (s.ruleWord g r 0 / 64 * 64 ≤ addr) && decide (addr ≤ s.ruleWord g r 1 ||| 0x3F) &&
    (decide (m % 65536 = 0xFFFF) || decide (m % 65536 = a.master)) &&
    (decide (bitsOf m 19 16 = 0) || decide (bitsOf m 19 16 = a.ext))

/-- Rights bits a rule gives a master. -/
def ruleRights (w : Nat) (a : Attr) : Nat :=
  if isEngine a then bitsOf w 10 9 else if a.secure then bitsOf w 2 0 else if a.priv then bitsOf w 5 3 else bitsOf w 8 6

/-- One byte of an access is granted (R364, R367). -/
def byteGranted (s : State) (a : Attr) (x : Access) (addr : Nat) : Bool :=
  match gateOf addr with
  | none => false
  | some g =>
    let r := match (List.range 16).find? (ruleApplies s g a addr) with
      | some r => ruleRights (s.ruleWord g r 2) a
      | none => defaultRights g a
    !impossible a && r.testBit x.code &&
      (!(decide (1 ≤ g) && decide (g ≤ 3)) || (ownerRights (s.owner (pageOf g addr)) a).testBit x.code)

/-- An access is performed only if every byte it touches is granted (R368). -/
def granted (s : State) (a : Attr) (x : Access) (addr n : Nat) : Bool :=
  (List.range n).all fun i => byteGranted s a x (addr + i)

/-! ## Refusals (R370, R379) -/

/-- Capture an access in the TG_FAULT registers (R319). -/
def captureFault (a : Attr) (x : Access) (addr : Nat) (s : State) : State :=
  { s with regs := { s.regs with
      tgAddr := addr
      tgInfo := a.master % 65536 + 65536 * b2n a.secure + 131072 * b2n a.priv + 262144 * b2n a.debug + 524288 * x.code } }

/-- Block of an engine master (R360). -/
def engineBlock (master : Nat) : Nat := if master = 0x0016 then Block.mp else if master = 0x0015 then Block.ev else master - 0x000F

/-- Level of a gate refusal's record (R441): 0 for the normal world, 3 for the secure world and engines. -/
def refusalLevel (a : Attr) : Nat := if isEngine a || a.secure then 3 else 0

/-- Cause of the access fault that a refused access of the active unit raises (R370). -/
def Access.cause : Access → Nat
  | .read => 5
  | .write => 7
  | .execute => 1

/-- The active unit takes an access fault (R370): of a user at the base's entry, of any other code at custody firmware's. -/
def takeTrap (a : Attr) (x : Access) (addr : Nat) (s : State) : State :=
  { s with worlds := { s.worlds with trap := some { cause := x.cause, addr := addr, custody := a.secure || a.priv } } }

/-- hpmcounter6 counts a refusal of the normal world, in both sets (R372). -/
def countRefusal (s : State) : State :=
  { s with worlds := { s.worlds with
      perf := { s.worlds.perf with refusals := (s.worlds.perf.refusals + 1) % 2 ^ 64 }
      perfM := { s.worlds.perfM with refusals := (s.worlds.perfM.refusals + 1) % 2 ^ 64 } } }

/-- What a refused access of the active unit leads to (R370): the fault is taken; an extension's call ends, and custody
firmware restarts the base after a fault of the base's own. -/
def unitFault (a : Attr) (x : Access) (addr : Nat) (s : State) : State :=
  let s1 := takeTrap a x addr (if a.secure then s else countRefusal s)
  if a.secure then s1
  else if a.priv then { s1 with worlds := { s1.worlds with restarts := s1.worlds.restarts + 1 } }
  else extFault a.ext s1

/-- A gate refuses an access that no debug master made (R370). For the host PF it is only counted and captured. -/
def gateRefuse (a : Attr) (x : Access) (addr : Nat) (s : State) : State :=
  let s1 := captureFault a x addr (bump 0x13 s)
  if 0x0100 ≤ a.master then s1
  else
    let s2 := record 0x0A01 (refusalLevel a) ((gateOf addr).getD 0) a.master addr x.code (s := setErr Block.tg 4 s1)
    if isEngine a then setErr (engineBlock a.master) 3 s2
    else if a.master = 0x0001 then unitFault a x addr s2
    else s2

/-! ## The active unit (R361, R372) -/

/-- World, privilege and current extension of code fetched from a page (R361); nothing executes from a SHARED or an ENGINE
page. -/
def pageAttr (w : Nat) : Option (Bool × Bool × Nat) :=
  match w % 4 with
  | 0 => some (true, true, 0)
  | 1 => if w.testBit 2 then some (false, true, 0) else if w.testBit 4 then some (false, false, bitsOf w 11 8) else none
  | _ => none

/-- The active unit can issue a transaction with these attributes (R361, R374, R380): its world runs, and some page gives
them. Which pages hold the service firmware base the manual does not say, so for the base it is enough that it was started;
a page without an entry of its own is SECURE. -/
def unitRuns (s : State) (a : Attr) : Bool :=
  (if a.secure then s.secureRuns else s.normalRuns) &&
    ((!a.secure && a.priv && s.boot.serviceFw) || (a.secure && a.priv && decide (s.regs.owners.length < 1024)) ||
      s.regs.owners.any fun p => decide (p.1 < 1024) && decide (pageAttr p.2 = some (a.secure, a.priv, a.ext)))

/-- A counter set after a bus transaction and some handshakes and instructions, whose numbers no command shows. -/
def PerfSet.moved (n : Nat) (p : PerfSet) : PerfSet :=
  { p with
    bus := (p.bus + 1) % 2 ^ 64, cycle := (p.cycle + Config.freeNat n) % 2 ^ 64
    instret := (p.instret + Config.freeNat (n + 1)) % 2 ^ 64, stalls := (p.stalls + Config.freeNat (n + 2)) % 2 ^ 64
    irqs := (p.irqs + Config.freeNat (n + 3)) % 2 ^ 64 }

/-- The active unit issues a transaction: its counters count, those of the normal world only there, and CU_WORLD has just
been written by the fetch of the instruction (R361, R372). -/
def unitTurn (a : Attr) (s : State) : State :=
  if a.master = 0x0001 then
    { s with
      free := s.free + 4
      worlds := { s.worlds with
        taken := none, perfM := s.worlds.perfM.moved s.free
        perf := if a.secure then s.worlds.perf else s.worlds.perf.moved s.free } }
  else s

/-- A counter CSR read (R372): `m` for a counter of the secure world's own set, which reads 0 to the normal world; `k` 0 for
cycle, 1 instret, 3 to 6 the hpmcounters. -/
def readCounter (secure m : Bool) (k : Nat) (s : State) : Nat :=
  if m && !secure then 0
  else
    let p := if m then s.worlds.perfM else s.worlds.perf
    match k with
    | 0 => p.cycle | 1 => p.instret | 3 => p.bus | 4 => p.stalls | 5 => p.irqs | 6 => p.refusals | _ => 0

/-- A debug access meets a locked region: counted, captured and recorded, without any other effect (R379). -/
def debugRefuse (a : Attr) (x : Access) (addr : Nat) (s : State) : State :=
  record 0x0A02 0 addr x.code (s := captureFault a x addr (bump 0x14 s))

end Sys2Proof.Machine
end

