-- ==== Sys2Proof/Machine/Registers.lean ====
section
/-!
DEFINITION. The registers of chapter 10: the table of the PF0 BAR0 windows with their access codes and classes, what a
read of one returns, what a write of one does directly, through an alias or through a mirror, the function page, and
configuration space.
-/

namespace Sys2Proof.Machine

/-- The state a meaning leaves. -/
def after (o : Outcome State) (s : State) : State := match o with | .next t => t | _ => s

/-! ## Register table (R314 to R320, chapter 13) -/

/-- Class and access codes of a register: `secure` for class S, else class P; masks of its RW, W1C, W1S and WO bits. -/
structure RegInfo where
  secure : Bool := false
  rw     : Nat := 0
  w1c    : Nat := 0
  w1s    : Nat := 0
  wo     : Nat := 0
  deriving DecidableEq, Repr

/-- RO registers of each block from window offset 0x0100 on. -/
def roOffsets (c : Nat) : List Nat :=
  match c with
  | 0 => [0x100, 0x108, 0x10C, 0x110, 0x114, 0x118, 0x11C, 0x120, 0x124]
  | 1 => [0x100, 0x104, 0x108]
  | 2 => [0x100, 0x104, 0x108, 0x10C, 0x110]
  | 3 => [0x100, 0x108, 0x10C, 0x110]
  | 4 => [0x100, 0x104, 0x108]
  | 5 => [0x100, 0x104, 0x108]
  | 6 => [0x100, 0x104, 0x10C, 0x110, 0x114, 0x120, 0x124, 0x140, 0x144, 0x900, 0x904]
  | 7 => [0x100, 0x120, 0x124, 0x128, 0x12C, 0x130, 0x134, 0x138, 0x13C]
  | 8 => [0x100, 0x104, 0x108]
  | 9 => [0x100]
  | 10 => [0x100, 0x108, 0x10C]
  | _ => [0x100, 0x104, 0x118]

/-- TG offsets that hold rule words (R366): gates 5 to 7 have none. -/
def isRuleWord (off : Nat) : Bool :=
  decide (0x1000 ≤ off) && decide (off < 0x2400) && !(decide (0x1500 ≤ off) && decide (off < 0x1800))

/-- TG offsets of the page owner table (R363). -/
def isOwnerWord (off : Nat) : Bool := decide (0x4000 ≤ off) && decide (off < 0xD200)

/-- RW bits of a rule word (R366). -/
def ruleMask (off : Nat) : Nat :=
  match off % 16 with
  | 0 => 0xFFFFFFC0 | 4 => 0xFFFFFFC0 | 8 => 0x7FF | _ => 0x800FFFFF

/-- Registers of a block that are not plain RO. -/
def specialReg (c off : Nat) : Option RegInfo :=
  match c with
  | 0 => if off = 0x200 then some { secure := true, rw := 3 }
         else if 0x300 ≤ off ∧ off < 0x320 then some { w1c := allBits }
         else if 0x320 ≤ off ∧ off < 0x340 then some { rw := allBits }
         else if off = 0x340 then some { rw := 0x7F } else none
  | 6 => if off = 0x108 ∨ off = 0x908 then some { secure := true }
         else if off = 0x130 ∨ off = 0x134 then some { secure := true, rw := allBits }
         else if off = 0x138 then some { secure := true, rw := 0xFFFF }
         else if off = 0x930 ∨ off = 0x934 ∨ off = 0x938 then some { secure := true } else none
  | 7 => if off = 0x104 then some { rw := allBits } else if off = 0x108 then some { wo := 3 } else none
  | 8 => if off = 0x200 then some { secure := true, w1s := 1 }
         else if isRuleWord off then some { secure := true, rw := ruleMask off }
         else if isOwnerWord off then some { secure := true, rw := 0xF1F } else none
  | 9 => if off = 0x104 ∨ off = 0x904 then some { secure := true }
         else if off = 0x108 then some { secure := true, wo := 0xFFFF } else none
  | 11 => if off = 0x110 then some { rw := 0xFFF } else if off = 0x114 then some { secure := true, rw := 0xFFF } else none
  | _ => none

/-- The register at a window offset, if one lies there. -/
def regInfo (c off : Nat) : Option RegInfo :=
  if off % 4 ≠ 0 then none
  else if off = 0 ∨ off = 4 then some {}
  else if off = 8 then some { w1c := 0x1FFFF }
  else if off = 0xC then some { rw := 0xFFFF }
  else if (roOffsets c).contains off then some {}
  else specialReg c off

/-- The offset is the low half of a wide value, or of two records' words read together (R309, R317). -/
def isWide (c off : Nat) : Bool :=
  match c with
  | 0 => decide (off = 0x108 ∨ off = 0x120)
  | 6 => decide (off = 0x110)
  | 7 => decide (off = 0x120 ∨ off = 0x128 ∨ off = 0x130 ∨ off = 0x138)
  | 8 => decide (off = 0x100)
  | _ => false

/-! ## What a read returns -/

/-- The number an object of the dictionary holds (R302). -/
def State.obj (s : State) (index sub : Nat) : Nat :=
  match objOf index sub with
  | some o => Bytes.toLE (objValue s index o)
  | none => 0

/-- Four-bit codes packed, the first lowest. -/
def pack4 : List Nat → Nat
  | [] => 0
  | x :: r => x % 16 + 16 * pack4 r

/-- States of `n` pairs from pair `p` on. -/
def pairStates (s : State) (p n : Nat) : Nat := pack4 ((List.range n).map fun k => (s.pair (p + k)).st.ctorIdx)

/-- The record the event window shows (R317). -/
def windowRec (s : State) : Bytes :=
  let d := (BitVec.ofNat 32 s.evr.head - s.evr.cursor).toNat
  if d = 0 ∨ d > 65536 then Bytes.zeros 32 else Bytes.fit (s.evr.ring.getD (s.evr.cursor.toNat % 65536) []) 32

/-- Word `k` of 32 bits of a device-source set. -/
def srcWord (b : BitVec 256) (k : Nat) : Nat := (b.toNat >>> (32 * k)) % 2 ^ 32

def readId (s : State) (off : Nat) : Nat :=
  if off = 0x100 then 0x00317A09
  else if off = 0x108 then Config.serial % 2 ^ 32 else if off = 0x10C then Config.serial / 2 ^ 32
  else if off = 0x110 then 0x06040205 else if off = 0x114 then 0x00100800 else if off = 0x118 then 0x00010000
  else if off = 0x11C then 16
  else if off = 0x120 then s.now % 2 ^ 32 else if off = 0x124 then s.now / 2 ^ 32
  else if off = 0x200 then b2n s.regs.fetchEn + 2 * b2n s.regs.dispatchEn
  else if off < 0x320 then srcWord s.regs.dsrcPend ((off - 0x300) / 4)
  else if off < 0x340 then srcWord s.regs.dsrcEn ((off - 0x320) / 4)
  else s.regs.dsrcVec + 64 * b2n s.regs.dsrcIrq

/-- A read of QE, CF, KS, PK or RG (R316). -/
def readWork (s : State) (c off : Nat) : Nat :=
  match c with
  | 1 => if off = 0x100 then (s.jobs.filter fun j => decide (j.ref.jq ≠ 0)).length + 65536 * s.runAhead
         else if off = 0x104 then ((s.fns.flatMap fun p => p.2.cqs.map fun q => q.2.reserved).foldl (· + ·) 0)
         else s.regs.doorbells
  | 2 => if off = 0x100 then pairStates s 0 8 else if off = 0x104 then pairStates s 8 2
         else if off = 0x108 then s.fab.cycle else if off = 0x10C then s.dummyRate else s.regs.fences
  | 3 => if off = 0x100 then s.store.lastMs + 65536 * s.obj 0x1001 1 else if off = 0x108 then s.obj 0x1001 5
         else if off = 0x10C then s.obj 0x1001 6 else s.obj 0x1001 4
  | 4 => if off = 0x100 then pack4 (s.pk.cores.map fun k => k.st.ctorIdx) else if off = 0x104 then s.obj 0x3200 2
         else s.obj 0x3200 1
  | _ => if off = 0x100 then b2n s.rng.seeded + 2 * b2n s.rng.waiting + 256 * s.rng.pool.length
         else if off = 0x104 then s.rng.requests
         else (s.rng.sources.zipIdx.map fun p => if p.1.lastFail then 2 ^ p.2 else 0).foldl (· + ·) 0

/-- The class policy in force, eight groups from `g` on. -/
def classWord (s : State) (g : Nat) : Nat := pack4 ((s.vesper.classes.drop g).take 8)

/-- A read of a VS register (R318, chapter 13). -/
def readVs (s : State) (off : Nat) : Nat :=
  let v := s.vesper
  if off = 0x100 then s.life.lc.code else if off = 0x104 then s.life.lockClass.code else if off = 0x108 then v.latch
  else if off = 0x10C then v.cond else if off = 0x110 then v.calendar % 2 ^ 32 else if off = 0x114 then v.calendar / 2 ^ 32
  else if off = 0x120 then v.cell.vbat % 4096 + 65536 * b2n v.window.isSome
  else if off = 0x124 then v.cell.st.ctorIdx + 256 * v.factor
  else if off = 0x130 then classWord s 0 else if off = 0x134 then classWord s 8 else if off = 0x138 then classWord s 16
  else if off = 0x140 then v.buf.length + 256 * min v.lost 255
  else b2n v.xtalOk + 2 * b2n v.valid + 4 * b2n (decide (v.adjust ≠ 0))

/-- Block and offset of a shadowed register (R308). -/
def shadowPlace : ShadowReg → Nat × Nat
  | .lc => (Block.vs, 0x100)
  | .lockClass => (Block.vs, 0x104)
  | .latch => (Block.vs, 0x108)
  | .world => (Block.cu, 0x104)
  | .class0 => (Block.vs, 0x130)
  | .class1 => (Block.vs, 0x134)
  | .class2 => (Block.vs, 0x138)

/-- CU_WORLD.SECURE_RUN to a master other than the active unit: 0 before custody firmware runs and while the secure world is
halted; else which world executes is the firmware's, which the model does not
run. -/
def secureRun (s : State) : Nat :=
  if s.secureRuns && s.worlds.armed then Config.freeNat s.free % 2 else 0

/-- The value taken in place of a shadowed register after a disagreement (R308). -/
def State.taken? (s : State) (c off : Nat) : Option Nat :=
  match s.worlds.taken with
  | some (r, v) => if shadowPlace r = (c, off) then some v else none
  | none => none

/-- A read of an EV, TG, CU, MP or PW register (R317, R319, R320). -/
def readControl (s : State) (c off : Nat) : Nat :=
  match c with
  | 7 => if off = 0x100 then s.evr.head % 2 ^ 32 else if off = 0x104 then s.evr.cursor.toNat
         else if off = 0x108 then 0 else Bytes.leAt (windowRec s) (off - 0x120) 4
  | 8 => if off = 0x100 then s.regs.tgAddr % 2 ^ 32 else if off = 0x104 then s.regs.tgAddr / 2 ^ 32
         else if off = 0x108 then s.regs.tgInfo else if off = 0x200 then b2n s.regs.rulesLock
         else if off < 0x4000 then s.regs.rules.getD off 0 ||| (if off % 16 = 4 then 0x3F else 0)
         else s.owner ((off - 0x4000) / 4)
  | 9 => if off = 0x100 then b2n s.red.iris + 2 * b2n (s.evaluates && s.red.inStep) + 256 * s.red.switches
         else if off = 0x104 then secureRun s else 0
  | 10 => if off = 0x100 then b2n s.mgmt.beacon + 256 * s.obj 0x6010 4 + 65536 * s.obj 0x6010 5 + 16777216 * openSessions s
          else if off = 0x108 then s.regs.mpRx else s.regs.mpTx
  | _ => if off = 0x100 then s.fab.vddRead
         else if off = 0x104 then b2n s.avsOn + 2 * b2n s.fab.decHold + 256 * min s.fab.avsFails 255
         else if off = 0x110 then s.regs.pwReq
         else if off = 0x114 then ((List.range 12).filter s.keeps).foldl (fun a c => a + 2 ^ c) 0
         else ((List.range 12).filter s.quiesced).foldl (fun a c => a + 2 ^ c) 0

/-- The value of a register that is not the shadow of another. -/
def readPlain (s : State) (c off : Nat) : Nat :=
  if (s.taken? c off).isSome then (s.taken? c off).getD 0
  else if off = 0 then c + 0x100
  else if off = 4 then s.blockStat c
  else if off = 8 then (s.regs.err.getD c 0).toNat
  else if off = 0xC then (s.regs.errEn.getD c 0).toNat
  else if c = 0 then readId s off
  else if c ≤ 5 then readWork s c off
  else if c = 6 then readVs s off
  else readControl s c off

/-- The value of a register (R308: a shadow reads inverted). -/
def readReg (s : State) (c off : Nat) : Nat :=
  if (regInfo c off).isNone then 0
  else if (c = 6 ∨ c = 9) ∧ 0x900 ≤ off then 0xFFFFFFFF - readPlain s c (off - 0x800)
  else readPlain s c off

/-- What RW bits hold as stored: that of PW_KEEP is the vote written, beside firmware's own. -/
def storedReg (s : State) (c off : Nat) : Nat := if c = 11 ∧ off = 0x114 then s.regs.pwKeep else readReg s c off

/-- What a master reads (R361): the active unit sees the world of its own instruction in CU_WORLD and in its shadow. -/
def readAs (s : State) (a : Attr) (c off : Nat) : Nat :=
  if a.master = 0x0001 ∧ c = 9 ∧ off = 0x104 then b2n a.secure
  else if a.master = 0x0001 ∧ c = 9 ∧ off = 0x904 then 0xFFFFFFFF - b2n a.secure
  else readReg s c off

/-! ## What a write does -/

/-- The bits a write presents: the new values of RW bits, the ones for W1C and W1S bits, and the data for WO bits. -/
structure Bits where
  rw   : Nat
  ones : Nat := 0
  wo   : Nat := 0
  deriving DecidableEq, Repr

/-- Set word `k` of a device-source set. -/
def putWord (b : BitVec 256) (k v : Nat) : BitVec 256 := BitVec.ofNat 256 (b.toNat - srcWord b k <<< (32 * k) + v <<< (32 * k))

/-- Sources that are pending and enabled. -/
def activeSources (s : State) : BitVec 256 := s.regs.dsrcPend &&& s.regs.dsrcEn

/-- One device-source event for each of `n` sources. -/
def signalTimes : Nat → State → State
  | 0, s => s
  | n + 1, s => signalTimes n (signalDevice s)

/-- ID_DSRC_EN (R313): each pending source that becomes enabled signals. -/
def putDsrcEn (k v : Nat) (s : State) : State :=
  let s1 := { s with regs := { s.regs with dsrcEn := putWord s.regs.dsrcEn k v } }
  signalTimes (popCount 256 ((activeSources s1) &&& ~~~ (activeSources s)).toNat) s1

/-- ID_DSRC_CFG (R313): IRQ_EN rising with some source pending and enabled signals. -/
def putDsrcCfg (v : Nat) (s : State) : State :=
  let s1 := { s with regs := { s.regs with dsrcVec := v % 64, dsrcIrq := v.testBit 6 } }
  if !s.regs.dsrcIrq && v.testBit 6 && decide (activeSources s ≠ 0) then signalDevice s1 else s1

/-- PW_REQ (R376): a request cleared is withdrawn, and its block resumes. -/
def putReq (v : Nat) (s : State) : State := { s with regs := { s.regs with pwReq := v, pwGrant := s.regs.pwGrant &&& v } }

/-- PW_KEEP (R376): a vote set resumes a granted block, whose request then waits again. -/
def putKeep (v : Nat) (s : State) : State :=
  { s with regs := { s.regs with pwKeep := v, pwGrant := s.regs.pwGrant ^^^ (s.regs.pwGrant &&& v) } }

/-- KICK restarts the secure watchdog (R373). -/
def kickDog (v : Nat) (s : State) : State :=
  if v % 65536 = 0x6C1E ∧ s.worlds.halted = false then { s with worlds := { s.worlds with kickAt := s.now } } else s

/-- EV_CTL (R317). -/
def moveCursor (v : Nat) (s : State) : State :=
  let d : Word := if v.testBit 0 = v.testBit 1 then 0 else if v.testBit 0 then 1 else 0xFFFFFFFF#32
  { s with evr := { s.evr with cursor := s.evr.cursor + d } }

/-- A rule word or page owner entry (R363, R366, R371): ignored while RULES_LOCK is 1; fixed pages keep theirs. -/
def putRule (off v : Nat) (s : State) : State :=
  if s.regs.rulesLock then s
  else if off < 0x4000 then { s with regs := { s.regs with rules := s.regs.rules.set off v } }
  else if (off - 0x4000) / 4 < 1024 then { s with regs := { s.regs with owners := s.regs.owners.set ((off - 0x4000) / 4) v } }
  else s

/-- Store a register: `v` its RW bits' new value, `b` what the write presented. The alarm class registers hold dictionary
objects, so a register write leaves them (R302). -/
def storeReg (c off v : Nat) (b : Bits) (s : State) : State :=
  if off = 8 then
    { s with regs := { s.regs with err := s.regs.err.modify c (fun e => e &&& ~~~ (BitVec.ofNat 32 b.ones)) } }
  else if off = 0xC then
    { s with regs := { s.regs with errEn := s.regs.errEn.modify c (fun _ => BitVec.ofNat 32 (v % 65536 + 65536)) } }
  else if c = 0 then
    if off = 0x200 then { s with regs := { s.regs with fetchEn := v.testBit 0, dispatchEn := v.testBit 1 } }
    else if off < 0x320 then
      let k := (off - 0x300) / 4
      let w := srcWord s.regs.dsrcPend k
      { s with regs := { s.regs with dsrcPend := putWord s.regs.dsrcPend k (w ^^^ (w &&& b.ones)) } }
    else if off < 0x340 then putDsrcEn ((off - 0x320) / 4) v s
    else putDsrcCfg v s
  else if c = 7 then
    if off = 0x104 then { s with evr := { s.evr with cursor := BitVec.ofNat 32 v } } else moveCursor b.wo s
  else if c = 8 then
    if off = 0x200 then { s with regs := { s.regs with rulesLock := s.regs.rulesLock || b.ones.testBit 0 } } else putRule off v s
  else if c = 9 then kickDog b.wo s
  else if c = 11 then (if off = 0x110 then putReq v s else putKeep v s)
  else s

/-- The master is in a register's class (R301). Engine masters are checked against engine rights only (R360). -/
def RegInfo.admits (i : RegInfo) (a : Attr) : Bool := isEngine a || (if i.secure then a.secure else a.priv)

/-- Write a register by its access codes (R13, R301): a master outside its class is refused. -/
def writeReg (a : Attr) (c off : Nat) (b : Bits) (s : State) : State :=
  match regInfo c off with
  | none => s
  | some i =>
    if !i.admits a then refuseAccess s
    else if i.rw = 0 ∧ i.w1c = 0 ∧ i.w1s = 0 ∧ i.wo = 0 then s
    else storeReg c off (mergeBits i.rw (storedReg s c off) b.rw) { b with ones := b.ones &&& (i.w1c ||| i.w1s), wo := b.wo &&& i.wo } s

/-- Set/clear/toggle blocks: ID, VS, TG and CU (R299). -/
def mirrored (c : Nat) : Bool := decide (c = 0 ∨ c = 6 ∨ c = 8 ∨ c = 9)

/-- The bits a mirror write presents (R304): 1 set, 2 clear, 3 toggle. -/
def mirrorBits (kind old v : Nat) : Bits :=
  { rw := if kind = 1 then old ||| v else if kind = 2 then old ^^^ (old &&& v) else old ^^^ v }

/-- The bits an alias write of bit `b` presents (R303). -/
def aliasBits (b old v : Nat) : Bits := { rw := mergeBits (2 ^ b) old ((v % 2) <<< b), ones := (v % 2) <<< b }

/-- A four-byte write at a window offset: a register, a mirror or an alias (R299, R303, R304). -/
def writeWindow (a : Attr) (c off v : Nat) (s : State) : State :=
  if off < 0x10000 then writeReg a c off { rw := v, ones := v, wo := v } s
  else if mirrored c && decide (off < 0x40000) then
    writeReg a c (off % 0x10000) (mirrorBits (off / 0x10000) (storedReg s c (off % 0x10000)) v) s
  else if !mirrored c && decide (0x40000 ≤ off) && decide (off < 0x80000) then
    let r := (off - 0x40000) / 128 * 4
    writeReg a c r (aliasBits ((off - 0x40000) % 128 / 4) (storedReg s c r) v) s
  else s

/-! ## The rights of a debug access (R377 to R379) -/

/-- The debug access port exists (R377). -/
def State.debugPort (s : State) : Bool := s.boot.testEn && s.mainOn

/-- Attributes of a debug transaction (R378). -/
def debugAttr (s : State) : Attr :=
  { secure := decide (s.life.lc = .debug), priv := true, master := 0x00F0, debug := true, ext := 0 }

/-- The register an access at a BAR0 offset falls on: itself, or the one mirrored or aliased there. -/
def regUnder (addr : Nat) : Nat × Nat :=
  let c := addr / 0x100000
  let o := addr % 0x100000
  (c, if o < 0x10000 then o else if mirrored c && decide (o < 0x40000) then o % 0x10000
      else if !mirrored c && decide (0x40000 ≤ o) && decide (o < 0x80000) then (o - 0x40000) / 128 * 4 else 0x10000)

/-- A byte lies in a locked region (R378): outside DEBUG also gates 0 and 4, SECURE pages and class S registers. -/
def debugLocked (s : State) (x : Access) (addr : Nat) : Bool :=
  let a := debugAttr s
  !byteGranted s a x addr ||
    (!a.secure && match gateOf addr with
      | some g => decide (g = 0 ∨ g = 4) ||
          (decide (8 ≤ g) && ((regInfo (regUnder ((addr - 0x40000000) / 4 * 4)).1 (regUnder ((addr - 0x40000000) / 4 * 4)).2).map (·.secure)).getD false)
      | none => true)

/-! ## Accesses to the windows -/

/-- A read of a window offset (R299, R301, R303, R304), with what it leaves: one outside the register's class reads 0 and is
counted. -/
def readWindow (a : Attr) (c off : Nat) (s : State) : Nat × State :=
  let r := (regUnder (c * 0x100000 + off)).2
  match regInfo c r with
  | none => (0, s)
  | some i =>
    if !i.admits a then (0, refuseAccess s)
    else
      let v := readAs s a c r
      let s1 := if c = 9 ∧ (r = 0x104 ∨ r = 0x904) then drewFree s else s
      (if off < 0x40000 then v else v >>> (off % 128 / 4) % 2, s1)

/-- The master can issue an access to the BAR0 windows: the host PF while its BAR answers (R151, R447, R448), the active
unit while code with these attributes executes, the debug port with the rights of R378, and any other internal master while
the main die is out of reset. -/
def windowReach (s : State) (a : Attr) : Bool :=
  if a.master = 0x0100 then s.opened && s.pageOpen 0
  else if a.master = 0x00F0 then decide (a = debugAttr s) && s.debugPort
  else s.mainOn && decide (a.master < 0x0100) && (decide (a.master ≠ 0x0001) || unitRuns s a)

/-- The host PF's offsets beyond the windows are reserved (R299); any other master's are behind no gate (R362). -/
def hostReserved (a : Attr) (addr : Nat) : Bool := decide (a.master = 0x0100) && decide (0xC00000 ≤ addr)

/-- The state after a gate refused an access, if it does (R368): a debug access of a locked region is captured and counted by
its own rule (R379). -/
def gateStops (a : Attr) (x : Access) (addr n : Nat) (s : State) : Option State :=
  if a.master = 0x00F0 then
    (if (List.range n).any fun i => debugLocked s x (addr + i) then some (debugRefuse a x addr s) else none)
  else if granted s a x addr n then none else some (gateRefuse a x addr s)

/-- A register lies under a BAR0 offset. -/
def hasReg (addr : Nat) : Bool := (regInfo (regUnder addr).1 (regUnder addr).2).isSome

/-- A write of `n` bytes at BAR0 offset `addr` (R300, R301, R368): the gate first, then size, then class. -/
def writeBar (a : Attr) (addr n v : Nat) (s : State) : State :=
  if !windowReach s a || hostReserved a addr then s
  else
    let s1 := unitTurn a s
    match gateStops a .write (barInternal addr) n s1 with
    | some t => t
    | none =>
      let c := addr / 0x100000
      let off := addr % 0x100000
      if n = 4 ∧ addr % 4 = 0 then writeWindow a c off v s1
      else if n = 8 ∧ addr % 8 = 0 ∧ isWide c off = true then writeReg a c off { rw := v % 2 ^ 32 } s1
      else if hasReg (addr / 4 * 4) then refuseAccess s1
      else s1

/-- A request that breaks its rules completes with Completer Abort, which is reported in the function it went to (R158). -/
def abortRead (f : Nat) (s : State) : ReadAnswer × State := (.abort, aerUncor f 15 s)

/-- A read of `n` bytes at BAR0 offset `addr` (R300, R301, R309, R368), and what it leaves. -/
def readBar (a : Attr) (addr n : Nat) (s : State) : ReadAnswer × State :=
  if !windowReach s a then (.unsupported, s)
  else if hostReserved a addr then (.data 0, s)
  else
    let s1 := unitTurn a s
    match gateStops a .read (barInternal addr) n s1 with
    | some t => (if a.master = 0x0100 ∨ a.master = 0x00F0 then .data 0 else .refused, t)
    | none =>
      let c := addr / 0x100000
      let off := addr % 0x100000
      if n = 4 ∧ addr % 4 = 0 then let r := readWindow a c off s1; (.data r.1, r.2)
      else if n = 8 ∧ addr % 8 = 0 ∧ isWide c off = true then
        let lo := readWindow a c off s1
        let hi := readWindow a c (off + 4) lo.2
        (.data (lo.1 + 2 ^ 32 * hi.1), hi.2)
      else if hasReg (addr / 4 * 4) then abortRead 0 s1
      else (.data 0, s1)

/-! ## The function page (R310, R311) -/

/-- The master whose accesses reach the page of function `f` (R301, R360). -/
def pageMaster (f : Nat) : Nat := if f = 0 then 0x0100 else 0x1000 + f

/-- A page register of four bytes lies at the offset. -/
def pageReg (off : Nat) : Bool :=
  decide (off % 4 = 0) && (decide (off < 0x400) || (decide (0x800 ≤ off) && decide (off < 0x81C)) ||
    (decide (0x1000 ≤ off) && decide (off < 0x1100) && decide (off % 64 < 0x24)) || decide (off = 0x2800) ||
    (decide (0x3000 ≤ off) && decide (off < 0x3014)) || (decide (0x3100 ≤ off) && decide (off < 0x3300)) ||
    (decide (0x3400 ≤ off) && decide (off < 0x3500)) || (decide (0x3800 ≤ off) && decide (off < 0x3C08)))

/-- The low half of a wide value on the page: an admin ring base or mirror, or an MSI-X address (R309). -/
def pageWide (off : Nat) : Bool :=
  decide (off = 0x800 ∨ off = 0x808 ∨ off = 0x810) || (decide (0x3800 ≤ off) && decide (off < 0x3C00) && decide (off % 16 = 0))

/-- Replace the low or the high half of a wide value, or all of it. -/
def putHalf (old : Nat) (high wide : Bool) (v : Nat) : Nat :=
  if wide then v % 2 ^ 64 else if high then old % 2 ^ 32 + v % 2 ^ 32 * 2 ^ 32 else old / 2 ^ 32 * 2 ^ 32 + v % 2 ^ 32

/-- A base or mirror register of the admin queue, which takes writes only while ENABLE reads 0 (R138). -/
def writeAqBase (f off : Nat) (wide : Bool) (v : Nat) (s : State) : State :=
  let g := s.fn f
  let hi := decide (off % 8 = 4)
  if g.aqOn then s
  else if off < 0x808 then setFn f { g with aqJq := putHalf g.aqJq hi wide v } s
  else if off < 0x810 then setFn f { g with aqCq := putHalf g.aqCq hi wide v } s
  else setFn f { g with aqMirror := putHalf g.aqMirror hi wide v } s

/-- FN_AQ_CFG (R138, R312). -/
def writeAqCfg (f : Nat) (v : Word) (s : State) : State :=
  if (s.fn f).aqBusy then refuseAccess s
  else if v.getLsbD 31 then after (execAdminQueueEnable f v s) s
  else after (execAdminQueueDisable f v s) s

/-- W1C bits of FN_EVENT, FN_QERR0 and FN_QERR1 (R311). -/
def clearStatus (f off : Nat) (v : Word) (s : State) : State :=
  let g := s.fn f
  if off = 0x3004 then setFn f { g with event := g.event &&& ~~~ v } s
  else if off = 0x3008 then setFn f { g with qerr0 := g.qerr0 &&& ~~~ v } s
  else if off = 0x300C then setFn f { g with qerr1 := g.qerr1 &&& ~~~ v } s
  else s

/-- FN_IRQ_CFG: a vector the function does not have is refused (R311). -/
def writeIrqCfg (f : Nat) (v : Word) (s : State) : State :=
  let g := s.fn f
  if v.toNat % 64 ≥ g.vecN then refuseAccess s
  else setFn f { g with irqVec := v.toNat % 64, irqEn := v.getLsbD 6, evEn := bitsOf v.toNat 20 16 } s

/-- FN_IMOD_v: the count reached is kept (R172, R173). -/
def writeImod (f v : Nat) (w : Word) (s : State) : State :=
  let g := s.fn f
  if v < g.vecN then
    evalVec f v (setFn f { g with vecs := g.vecs.set v { g.vec v with countTh := bitsOf w.toNat 7 0, timeTh := bitsOf w.toNat 23 8 } } s)
  else s

/-- An MSI-X table entry (R171): address, data, or vector control with its mask. -/
def writeMsix (f off : Nat) (wide : Bool) (v : Nat) (s : State) : State :=
  let g := s.fn f
  let k := (off - 0x3800) / 16
  let x := g.vec k
  if g.vecN ≤ k then s
  else if off % 16 < 8 then setFn f { g with vecs := g.vecs.set k { x with addr := putHalf x.addr (off % 16 = 4) wide v / 4 * 4 } } s
  else if off % 16 = 8 then setFn f { g with vecs := g.vecs.set k { x with data := BitVec.ofNat 32 v } } s
  else if v % 2 = 0 then after (execMsixUnmask f (some k) s) s
  else setFn f { g with vecs := g.vecs.set k { x with ctrl := x.ctrl ||| 1#32 } } s

/-- A page write of an accepted size to a function in service. -/
def writePageReg (f off : Nat) (wide : Bool) (v : Nat) (s : State) : State :=
  let w := BitVec.ofNat 32 v
  if off < 0x400 then
    if off % 16 = 0 then after (execFnJqPiWrite f (off / 16) w s) s
    else if off % 16 = 12 then after (execFnCqCiWrite f (off / 16) w s) s else s
  else if off < 0x818 then writeAqBase f off wide v s
  else if off = 0x818 then writeAqCfg f w s
  else if off < 0x1100 then
    let set := (off - 0x1000) / 64
    if off % 64 < 0x20 then after (execFnSkKeyWrite f set (off % 64 / 4) wide v s) s else writeSkCtl f set w s
  else if off = 0x2800 then modFn f (fun g => { g with rngAborted := g.rngAborted && !w.getLsbD 2 }) s
  else if off < 0x3010 then clearStatus f off w s
  else if off = 0x3010 then writeIrqCfg f w s
  else if off < 0x3300 then
    clearStatus f (0x3000 + (off - 0x3100) / 128 * 4) (BitVec.ofNat 32 ((v % 2) <<< ((off - 0x3100) % 128 / 4))) s
  else if off < 0x3500 then writeImod f ((off - 0x3400) / 4) w s
  else if off < 0x3C00 then writeMsix f off wide v s
  else s

/-- A write of `n` bytes to a function page (R156, R300, R310): its sizes, then its effect. -/
def writePage (f off n v : Nat) (s : State) : State :=
  if !aqReach s f then s
  else if (s.fn f).run = .unallocated then (if off = 0x818 ∧ n = 4 then writeAqCfg f (BitVec.ofNat 32 v) s else s)
  else if (0x2000 ≤ off ∧ off < 0x2800) ∨ pageReg (off / 4 * 4) = false then s
  else if off % 4 = 0 ∧ n = 4 then writePageReg f off false v s
  else if off % 8 = 0 ∧ n = 8 ∧ (pageWide off = true ∨ (0x1000 ≤ off ∧ off < 0x1100 ∧ off % 64 < 0x20)) then writePageReg f off true v s
  else refuseAccess s

/-- FN_AQ_CFG as it reads (R138). -/
def aqCfg (g : Fn) : Nat :=
  g.aqJqLog + 2 ^ 8 * g.aqCqLog + 2 ^ 16 * g.aqVec + 2 ^ 22 * b2n g.aqIrqEn + 2 ^ 29 * b2n g.aqBusy + 2 ^ 30 * b2n g.aqErr + 2 ^ 31 * b2n g.aqOn

/-- Half of a wide value, as its LO or HI register shows it (R309). -/
def half (v off : Nat) : Nat := if off % 8 = 4 then v / 2 ^ 32 % 2 ^ 32 else v % 2 ^ 32

/-- A queue register (R117): 0 for a queue that does not exist. -/
def readQueue (g : Fn) (off : Nat) : Nat :=
  let n := off / 16
  match off % 16 with
  | 0 => ((g.jqs.find? n).map fun q => q.pi.toNat).getD 0
  | 4 => ((g.jqs.find? n).map fun q => q.ci.toNat).getD 0
  | 8 => ((g.cqs.find? n).map fun q => q.pi.toNat).getD 0
  | _ => ((g.cqs.find? n).map fun q => q.ci.toNat).getD 0

/-- The admin queue registers (R138). -/
def readAdmin (g : Fn) (off : Nat) : Nat :=
  if off < 0x808 then half g.aqJq off else if off < 0x810 then half g.aqCq off else if off < 0x818 then half g.aqMirror off
  else aqCfg g

/-- A session key set's registers (R67): key words and the bits of LOAD and CLEAR are WO and read 0 (R13); a set the function
does not have reads 0. -/
def readKeySet (g : Fn) (off : Nat) : Nat :=
  let x := g.set ((off - 0x1000) / 64)
  if off % 64 = 0x20 ∧ (off - 0x1000) / 64 < g.skN then x.klen + 2 ^ 16 * b2n x.valid + 2 ^ 17 * b2n x.loadErr else 0

/-- FN_RNG_STAT (R292). -/
def rngStat (s : State) (g : Fn) : Nat :=
  b2n s.rng.seeded + 2 * b2n s.rngWaiting + 4 * b2n g.rngAborted + 2 ^ 8 * g.rngBuf.length

/-- The interrupt and status registers (R311). -/
def readStatus (s : State) (f off : Nat) : Nat :=
  let g := s.fn f
  match off with
  | 0x3000 => s.fnStatus f
  | 0x3004 => g.event.toNat
  | 0x3008 => g.qerr0.toNat
  | 0x300C => g.qerr1.toNat
  | _ => g.irqVec + 2 ^ 6 * b2n g.irqEn + 2 ^ 16 * g.evEn

/-- FN_IMOD_v, with PENDING (R172); a vector the function does not have reads 0. -/
def readImod (g : Fn) (v : Nat) : Nat :=
  let x := g.vec v
  if v < g.vecN then x.countTh + 2 ^ 8 * x.timeTh + 2 ^ 31 * b2n x.pending else 0

/-- The MSI-X table and the pending bits (R171). -/
def readMsix (g : Fn) (off : Nat) : Nat :=
  let k := (off - 0x3800) / 16
  if 0x3C00 ≤ off then
    ((List.range 32).filter fun b => (g.vec (8 * (off - 0x3C00) + b)).pba).foldl (fun a b => a + 2 ^ b) 0
  else if g.vecN ≤ k then 0
  else if off % 16 < 8 then half (g.vec k).addr off
  else if off % 16 = 8 then (g.vec k).data.toNat
  else (g.vec k).ctrl.toNat

/-- The value of a function page register (R310). FN_RNG_DATA has its own command. -/
def readPageReg (s : State) (f off : Nat) : Nat :=
  let g := s.fn f
  if off < 0x400 then readQueue g off
  else if off < 0x81C then readAdmin g off
  else if off < 0x1100 then readKeySet g off
  else if off = 0x2800 then rngStat s g
  else if off < 0x3014 then readStatus s f off
  else if off < 0x3300 then readStatus s f (0x3000 + (off - 0x3100) / 128 * 4) >>> ((off - 0x3100) % 128 / 4) % 2
  else if off < 0x3500 then readImod g ((off - 0x3400) / 4)
  else readMsix g off

/-- A read of `n` bytes of a function page outside FN_RNG_DATA, and what it leaves: an unassigned VF's page and every offset
without a register read 0 (R156, R310), a function being reset or without its BAR answers Unsupported Request (R151, R167),
and a size no rule admits ends with Completer Abort (R300). -/
def readPage (f off n : Nat) (s : State) : ReadAnswer × State :=
  if !aqReach s f then (.unsupported, s)
  else if (s.fn f).run = .unallocated ∨ pageReg (off / 4 * 4) = false then (.data 0, s)
  else if off % 4 = 0 ∧ n = 4 then (.data (readPageReg s f off), s)
  else if off % 8 = 0 ∧ n = 8 ∧ (pageWide off = true ∨ off = 0x3C00) then
    (.data (readPageReg s f off + 2 ^ 32 * readPageReg s f (off + 4)), s)
  else abortRead f s

/-! ## Configuration space (R151 to R158), by the layouts of PCI Express -/

/-- The Command register: Memory Space Enable of PF0, Bus Master Enable. -/
def writeCommand (f v : Nat) (s : State) : State :=
  let c := (s.fn f).cfg
  let s1 :=
    if f ≠ 0 then s
    else if v.testBit 1 then modFn 0 (fun g => { g with cfg := { g.cfg with mse := true } }) s
    else if c.mse then after (execMemorySpaceEnableClear 0 s) s else s
  if v.testBit 2 then (if c.bme then s1 else after (execBusMasterEnableSet f s1) s1)
  else if c.bme then after (execBusMasterEnableClear f s1) s1 else s1

/-- MSI-X Message Control: MSI-X Enable and Function Mask. -/
def writeMsixControl (f : Nat) (enable mask : Bool) (s : State) : State :=
  let c := (s.fn f).cfg
  let s1 := if !enable && c.msixEnable then after (execMsixEnableClear f s) s else s
  evalVecs f (modFn f (fun g => { g with cfg := { g.cfg with msixEnable := enable, msixMask := mask } }) s1)

/-- Device Control: Enable Relaxed Ordering, Max_Payload_Size and Max_Read_Request_Size of PF0, and Initiate FLR. -/
def writeDeviceControl (f v : Nat) (s : State) : State :=
  let s1 :=
    if f ≠ 0 then s
    else modFn 0 (fun g => { g with cfg := { g.cfg with
      relaxed := v.testBit 4, mps := bitsOf v 7 5, mrrs := bitsOf v 14 12 } }) s
  if v.testBit 15 then startReset f 1 s1 else s1

/-- SR-IOV Control of PF0: VF Enable and VF MSE. -/
def writeSriovControl (v : Nat) (s : State) : State :=
  let c := (s.fn 0).cfg
  let s1 := if v.testBit 0 then modFn 0 (fun g => { g with cfg := { g.cfg with vfEnable := true } }) s
    else if c.vfEnable then after (execVfEnableClear s) s else s
  if v.testBit 3 then modFn 0 (fun g => { g with cfg := { g.cfg with vfMse := true } }) s1
  else if c.vfMse then after (execMemorySpaceEnableClear 1 s1) s1 else s1

/-- The bytes written fall on byte `b` of the register. -/
def covers (o n b : Nat) : Bool := decide (o ≤ b) && decide (b < o + n)

/-- The DOE registers of PF0 (R183), in their standard places: Abort and Go of DOE Control, DOE Interrupt Status, the Write
Data Mailbox, whose writes gather the request, and the Read Data Mailbox, a write of which takes the double word it showed. -/
def writeDoe (d o n v : Nat) (s : State) : State :=
  if d = 0x2E8 then
    if covers o n 0 && v.testBit 0 then after (execDoeAbort s) s
    else if covers o n 3 && v.testBit 31 then
      after (execSpdmRequest s.link.mailbox (modLink (fun l => { l with mailbox := [] }) s)) s
    else s
  else if d = 0x2EC then (if covers o n 0 && v.testBit 1 then modLink (fun l => { l with doeInt := false }) s else s)
  else if d = 0x2F0 ∧ n = 4 then modLink (fun l => { l with mailbox := l.mailbox ++ Bytes.ofLE 4 v }) s
  else if d = 0x2F4 then modLink (fun l => { l with doe := l.doe.drop 4 }) s
  else s

/-- A configuration write of `n` bytes at an offset, `v` shifted to its register's bits by `o` bytes. -/
def writeCfgReg (f d o n v : Nat) (s : State) : State :=
  let m := (2 ^ (8 * n) - 1) <<< (8 * o)
  let old := (s.fn f).cfg.regs.getD d (cfgReset d)
  let k := cfgMask s f d &&& m
  let s1 := if k = 0 then s
    else modFn f (fun g => { g with cfg := { g.cfg with regs := g.cfg.regs.set d (mergeBits k old v) } }) s
  if d = 0x04 then (if covers o n 0 then writeCommand f v s1 else s1)
  else if d = 0x44 then
    if !covers o n 0 then s1
    else if v % 4 = 3 then after (execD3hotWrite f s1) s1 else if v % 4 = 0 then after (execD0Write f s1) s1 else s1
  else if d = 0x50 then (if covers o n 3 then writeMsixControl f (v.testBit 31) (v.testBit 30) s1 else s1)
  else if d = 0x78 then (if covers o n 0 && covers o n 1 then writeDeviceControl f v s1 else s1)
  else if d = 0x104 then modFn f (fun g => { g with cfg := { g.cfg with uncor := g.cfg.uncor.filter fun b => !(v &&& m).testBit b } }) s1
  else if d = 0x110 then modFn f (fun g => { g with cfg := { g.cfg with cor := g.cfg.cor.filter fun b => !(v &&& m).testBit b } }) s1
  else if f ≠ 0 then s1
  else if 0x2E8 ≤ d then writeDoe d o n v s1
  else if d = 0x168 then (if covers o n 0 then writeSriovControl v s1 else s1)
  else if d = 0x170 then
    (if covers o n 0 && covers o n 1 && !(s.fn 0).cfg.vfEnable then
      modFn 0 (fun g => { g with cfg := { g.cfg with numVfs := v % 65536 } }) s1 else s1)
  else s1

/-- A configuration write (R151 to R158, R167). -/
def writeCfg (f off n v : Nat) (s : State) : State :=
  let o := off % 4
  if cfgReach s f && decide (o + n ≤ 4) then writeCfgReg f (off - o) o n (v <<< (8 * o)) s else s

/-! ## The register commands -/

/-- REGISTER_WRITE (R13, R300, R301). -/
def execRegisterWrite (a : Attr) (where_ : RegPlace) (size v : Nat) (s : State) : Outcome State :=
  match where_ with
  | .bar addr => settled s (writeBar a addr size v s)
  | .page f off => settled s (if a.master = pageMaster f then writePage f off size v s else s)
  | .cfg f off => settled s (writeCfg f off size v s)

/-- ALIAS_WRITE (R303): of a window of an alias block, or of a function page. -/
def execAliasWrite (a : Attr) (where_ : RegPlace) (v : Word) (s : State) : Outcome State :=
  match where_ with
  | .bar addr =>
    settled s (if 0x40000 ≤ addr % 0x100000 ∧ addr % 0x100000 < 0x80000 then writeBar a addr 4 v.toNat s else s)
  | .page f off =>
    settled s (if 0x3100 ≤ off ∧ off < 0x3300 ∧ a.master = pageMaster f then writePage f off 4 v.toNat s else s)
  | .cfg _ _ => .next s

/-- A write through the mirror of a kind: 1 set, 2 clear, 3 toggle (R304). -/
def writeMirrorOf (kind : Nat) (a : Attr) (addr : Nat) (v : Word) (s : State) : Outcome State :=
  settled s (if addr % 0x100000 / 0x10000 = kind then writeBar a addr 4 v.toNat s else s)

/-- SET_MIRROR_WRITE. -/
def execSetMirrorWrite (a : Attr) (addr : Nat) (v : Word) (s : State) : Outcome State := writeMirrorOf 1 a addr v s
/-- CLEAR_MIRROR_WRITE. -/
def execClearMirrorWrite (a : Attr) (addr : Nat) (v : Word) (s : State) : Outcome State := writeMirrorOf 2 a addr v s
/-- TOGGLE_MIRROR_WRITE. -/
def execToggleMirrorWrite (a : Attr) (addr : Nat) (v : Word) (s : State) : Outcome State := writeMirrorOf 3 a addr v s

/-- GATE_RULE_WRITE (R369): a rule or page owner entry at a TG offset. -/
def execGateRuleWrite (a : Attr) (addr : Nat) (v : Word) (s : State) : Outcome State :=
  settled s (if isRuleWord addr || isOwnerWord addr then writeBar a (0x800000 + addr) 4 v.toNat s else s)

/-- ADVANCE (R317): a write of EV_CTL with ADVANCE set. -/
def execAdvance (a : Attr) (v : Word) (s : State) : Outcome State :=
  settled s (if v.getLsbD 0 then writeBar a 0x700108 4 v.toNat s else s)

/-- RETREAT (R317): a write of EV_CTL with RETREAT set. -/
def execRetreat (a : Attr) (v : Word) (s : State) : Outcome State :=
  settled s (if v.getLsbD 1 then writeBar a 0x700108 4 v.toNat s else s)

/-- KICK (R373): a write of CU_WDOG. -/
def execKick (a : Attr) (v : Word) (s : State) : Outcome State := settled s (writeBar a 0x900108 4 v.toNat s)

/-- PW_REQ_WRITE (R376). -/
def execPwReqWrite (a : Attr) (v : Word) (s : State) : Outcome State := settled s (writeBar a 0xB00110 4 v.toNat s)

/-- PW_KEEP_WRITE (R376). -/
def execPwKeepWrite (a : Attr) (v : Word) (s : State) : Outcome State := settled s (writeBar a 0xB00114 4 v.toNat s)

/-- QUIESCE_GRANT (R376). -/
def execQuiesceGrant (block : Nat) (s : State) : Outcome State :=
  settled s (
    if s.mainOn && s.regs.pwReq.testBit block && !s.keeps block && !s.regs.pwGrant.testBit block && s.blockIdle block then
      { s with regs := { s.regs with pwGrant := s.regs.pwGrant ||| 2 ^ block } }
    else s)

/-! ## Parity and shadows (R307, R308) -/

/-- The reset value of a block register that takes it after a parity mismatch. -/
def resetReg (c off : Nat) (s : State) : State :=
  if off = 0xC then storeReg c off 0xFFFF { rw := 0 } s
  else if c = Block.ev then { s with evr := { s.evr with cursor := BitVec.ofNat 32 s.evr.head - 1 } }
  else storeReg c off 0 { rw := 0 } s

/-- A page register holds an RW field, and so a parity bit. -/
def pageParity (off : Nat) : Bool :=
  pageReg off && ((decide (off < 0x400) && decide (off % 8 ≠ 4) && decide (off % 16 ≠ 8)) || (decide (0x800 ≤ off) && decide (off < 0x81C)) ||
    (decide (0x1000 ≤ off) && decide (off < 0x1100) && decide (off % 64 = 0x20)) || decide (off = 0x3010) ||
    (decide (0x3400 ≤ off) && decide (off < 0x3C00)))

/-- The record of a parity mismatch; `again` marks one in a register that is being restored, which is a device fault
(R425). -/
def parityRecord (p0 off how : Nat) (again : Bool) (s : State) : State :=
  let s1 := record 0x0901 1 p0 off how 0 again (bump 0x11 s)
  if again then escalate (bump 0x0F s1) else s1

/-- A parity mismatch in one register (R307): how it is handled, 1 restored, 2 reset value, 3 function reset. -/
def parityError (r : RegPlace) (again : Bool) (s : State) : State :=
  match r with
  | .bar addr =>
    let c := addr / 0x100000
    let off := addr % 0x100000
    match regInfo c off with
    | none => s
    | some i =>
      if i.rw = 0 ∨ 12 ≤ c then s
      else if i.secure then parityRecord c off 1 again (setErr c 16 s)
      else parityRecord c off 2 false (setErr c 16 (resetReg c off s))
  | .page f off =>
    if pageParity off ∧ (s.fn f).run ≠ .unallocated ∧ (s.fn f).run ≠ .resetting then
      startReset f 5 (setEvent f 4 (parityRecord (0x100 + f) off 3 false s))
    else s
  | .cfg _ _ => s

/-- The mismatches of a scrub in order; one found again is nested. -/
def scrubAll : List RegPlace → List RegPlace → State → State
  | _, [], s => s
  | seen, r :: rest, s => scrubAll (r :: seen) rest (parityError r (seen.contains r) s)

/-- PARITY_SCRUB (R307). -/
def execParityScrub (bad : List RegPlace) (s : State) : Outcome State :=
  settled s (if s.mainOn then scrubAll [] bad s else s)

/-- The value the logic takes while a register and its shadow hold `x` and `y` (R308), field by field: LOCKED, the greater lock
class, either latch, the normal world, the more severe alarm class. -/
def leastGrant (r : ShadowReg) (x y : Nat) : Nat :=
  match r with
  | .lc => if x = y then x else LifeState.locked.code
  | .lockClass => max x y
  | .latch => x ||| y
  | .world => x &&& y
  | _ => pack4 ((List.range 8).map fun k => max (x >>> (4 * k) % 16) (y >>> (4 * k) % 16))

/-- The least-granting value is taken; which value the failed copy holds no command shows, but in the one bit of CU_WORLD. -/
def takeLeast (r : ShadowReg) (s : State) : State :=
  let x := readReg s (shadowPlace r).1 (shadowPlace r).2
  let y := if r = .world then 1 - x else Config.freeNat s.free % 2 ^ 32
  drewFree { s with worlds := { s.worlds with taken := some (r, leastGrant r x y) } }

/-- A VS value is read again from Vesper's latches; the world stands until the next instruction is fetched. -/
def reRead (s : State) : State :=
  match s.worlds.taken with
  | some (.world, _) => s
  | _ => { s with worlds := { s.worlds with taken := none } }

/-- SHADOW_MISMATCH (R308): a detected fault. The re-read of a VS value is part of the step. -/
def execShadowMismatch (r : ShadowReg) (s : State) : Outcome State :=
  settled s (
    if s.mainOn then
      reRead (takeLeast r (record 0x0902 1 (shadowPlace r).2 (s := setErr (shadowPlace r).1 2 s)))
    else s)

/-- An access to Vesper unanswered for 50 µs (R306): a second one without an answer in between is a device fault (R417). -/
def vesperSilent (offset : Nat) (write : Bool) (s : State) : State :=
  let s1 := record 0x0707 3 offset (b2n write) (s := setErr Block.vs 0 s)
  let s2 := if s.red.vsSilent then escalate s1 else { s1 with red := { s1.red with vsSilent := true } }
  if write then s2 else emit (.completerAbort 0) s2

/-- VS_ACCESS_TIMEOUT (R306). -/
def execVsAccessTimeout (offset : Nat) (write : Bool) (s : State) : Outcome State :=
  settled s (if s.mainOn then vesperSilent offset write s else s)

/-! ## Debug (R377 to R380) -/

/-- What the TAP offers (R377). -/
inductive TapUse where
  | idcode | bypass | samplePreload
  | scanDrive                         -- boundary-scan instructions that drive pins
  | debugPort
  deriving DecidableEq, Repr

/-- A use of the TAP is available: the first three always, the others with TEST_EN high alone, and driving the pins only in
FACTORY and DEBUG (R377). -/
def State.tapOffers (s : State) : TapUse → Bool
  | .scanDrive => s.boot.testEn && (decide (s.life.lc = .factory) || decide (s.life.lc = .debug))
  | .debugPort => s.debugPort
  | _ => true

/-- What a debug read of an open address returns: registers, control RAM, or a memory whose contents the manual does not
give. -/
def debugValue (s : State) (addr : Nat) : Nat :=
  match gateOf addr with
  | some 1 => Bytes.toLE (s.ramRead addr 4)
  | some g =>
    if g < 8 then Config.freeNat s.free % 2 ^ 32
    else
      let b := addr - 0x40000000
      let r := regUnder b
      let v := readReg s r.1 r.2
      if b % 4 ≠ 0 then 0
      else if mirrored r.1 || decide (b % 0x100000 < 0x40000) then v else v >>> (b % 128 / 4) % 2
  | none => 0

/-- DEBUG_ACCESS (R379): four bytes at an internal address. -/
def execDebugAccess (addr : Nat) (write : Bool) (v : Word) (s : State) : Outcome State :=
  if !s.debugPort then .next s
  else
    let x : Access := if write then .write else .read
    let a := debugAttr s
    let answer (d : Nat) (s : State) : State := if write then s else emit (.debugRead addr (BitVec.ofNat 32 d)) s
    if (List.range 4).any fun i => debugLocked s x (addr + i) then settled s (answer 0 (debugRefuse a x addr s))
    else if !write then .next (answer (debugValue s addr) (drewFree s))
    else match gateOf addr with
      | some 1 => .next (ramWrite addr (Bytes.ofLE 4 v.toNat) s)
      | some g => settled s (if g < 8 then s else writeBar a (addr - 0x40000000) 4 v.toNat s)
      | none => .next s

/-- DEBUG_HALT (R380): in DEBUG it pauses the secure watchdog too. -/
def execDebugHalt (s : State) : Outcome State :=
  if s.debugPort ∧ s.worlds.debugHalt = false then
    settled s { s with worlds := { s.worlds with
      debugHalt := true, pausedAt := if s.life.lc = .debug ∧ s.worlds.armed then some s.now else none } }
  else .next s

/-- DEBUG_RESUME (R380): a paused watchdog runs on from the age it held. -/
def execDebugResume (s : State) : Outcome State :=
  if s.worlds.debugHalt then
    settled s { s with worlds := { s.worlds with
      debugHalt := false, pausedAt := none, kickAt := s.worlds.kickAt + (s.worlds.pausedAt.map (s.now - ·)).getD 0 } }
  else .next s

end Sys2Proof.Machine
end

