-- ==== Sys2Proof/Machine/Reset.lean ====
section
/-!
DEFINITION. The resets of the whole device (R451, R452): what a warm and a power-on reset keep and lose, and the
commands of supplies, PERST_N and REFCLK.
-/

namespace Sys2Proof.Machine

/-! ## Records on the store die (R436, R437, R440) -/

/-- FLAGS of a record. -/
def recFlags (e : EventRec) : Nat := b2n e.nested + 2 * b2n e.vesper + 4 * b2n e.calendar

/-- The valid mark of SEQ. -/
def markOf (seq : Nat) : Nat := (seq / 65536 % 65536) ^^^ 0xA5C3

/-- A record as it lies in the ring (R437). -/
def eventBytes (seq : Nat) (e : EventRec) : Bytes :=
  Bytes.ofLE 8 e.time ++ Bytes.ofLE 4 seq ++ Bytes.ofLE 2 e.code ++ Bytes.ofLE 1 e.level ++ Bytes.ofLE 1 (recFlags e) ++
  Bytes.ofLE 4 e.p0 ++ Bytes.ofLE 4 e.p1 ++ Bytes.ofLE 4 e.p2 ++ Bytes.ofLE 2 e.p3 ++ Bytes.ofLE 2 (markOf seq)

/-- The position holds a record whose mark fits its SEQ. -/
def markHolds (b : Bytes) : Bool := decide (b.leAt 0x1E 2 = markOf (b.leAt 8 4))

/-- EV_HEAD as the recorder finds it: the highest SEQ with a valid mark, plus one (R440). -/
def foundHead (ring : FMap Bytes) : Nat :=
  ring.foldl (fun h p => if markHolds p.2 then max h (p.2.leAt 8 4 + 1) else h) 0 % 2 ^ 32

/-- Positions that were written and whose marks fail. -/
def failedMarks (ring : FMap Bytes) : Nat := (ring.filter fun p => !markHolds p.2).length

/-- What a power loss leaves of the record being written, if one was: the old record, a position whose mark fails, with
the first bytes of the new record written, or the new record (R436). Which of them is a free value. -/
def tearRecord (s : State) : State :=
  match s.evr.queue with
  | [] => s
  | e :: _ =>
    let n := s.evr.head
    let new := eventBytes n e
    let old := s.evr.ring.getD (n % 65536) (Bytes.zeros 32)
    let k := Config.freeNat (s.free + 1) % 31
    let torn := new.take k ++ (old.drop k).take (30 - k) ++ Bytes.ofLE 2 (0xFFFF - markOf n)
    let put (b : Bytes) : State := { s with free := s.free + 2, evr := { s.evr with ring := s.evr.ring.set (n % 65536) b } }
    match Config.freeNat s.free % 3 with
    | 0 => { s with free := s.free + 2 }
    | 1 => put torn
    | _ => put new

/-! ## What a reset of the device keeps (R452) -/

/-- Function `f` after a reset of the device: its allocation is gone but for PF0's own (R159). A warm reset keeps the
sticky AER status and FN_EVENT's PERR bit (R158, R311); a power-on reset clears them. -/
def resetFn (cold : Bool) (f : Nat) (g : Fn) : Fn :=
  let base : Fn := if f = 0 then pf0 else {}
  if cold then base else { base with event := g.event &&& 0x10#32, cfg := resetCfg g.cfg }

/-- Slot `n` after a reset of the device: what the store die holds of it. A tenant slot with a blob waits to be
reloaded; slots 0 to 3 are made again in stage 6 (R200, R450). -/
def resetSlot (n : Nat) (x : Slot) : Slot :=
  { st := if n ≥ 4 ∧ x.blob ≠ [] then .loading else .empty, lastGen := x.lastGen, genTime := x.genTime, point := x.point
    blob := x.blob }

/-- A noise source after a reset: its counters stay through a warm one. -/
def resetSource (cold : Bool) (x : Source) : Source := if cold then {} else { pass := x.pass, fail := x.fail }

/-- What the jobs in flight have written to host memory when a reset ends them (R48, R55, R125). -/
def leaveTraces (s : State) : State :=
  s.jobs.foldl (fun s j => if j.committed && j.outcome.isNone && decide (j.ref.jq ≠ 0) then (leaveTrace j s).2 else s) s

/-- Main-die state a reset clears, warm or power-on: jobs, queues, sessions, keys, working slot copies, extensions,
block registers (R452). What it keeps: allocations of PF0 alone, the event ring and the records on their way to it, the
store die, dictionary classes D and P, Vesper. Saturating counters stay through a warm reset. -/
def clearMainDie (cold : Bool) (s0 : State) : State :=
  let s := leaveTraces s0
  { s with
    fns := FMap.set (s.fns.map fun p => (p.1, resetFn cold p.1 p.2)) 0 (resetFn cold 0 (s.fn 0))
    jobs := [], stamp := 0, turnFn := 0, turnU := 0, turnA := 0
    fab := { cycle := s.fab.cycle, vdd := if cold then 0 else s.fab.vdd, vddRead := if cold then 0 else s.fab.vddRead
             avsFails := if cold then 0 else s.fab.avsFails }
    store := { slots := s.store.slots.map fun p => (p.1, resetSlot p.1 p.2) }
    life := { s.life with rootMain := [] }
    clock := { s.clock with slew := 0, slewAcc := 0 }
    evr := if cold then { head := s.evr.head, cursor := s.evr.cursor, ring := s.evr.ring } else s.evr
    regs := if cold then {} else { doorbells := s.regs.doorbells, fences := s.regs.fences, mpRx := s.regs.mpRx, mpTx := s.regs.mpTx }
    dict := { s.dict with counters := if cold then [] else s.dict.counters }
    mgmt := {}
    link := if cold then {} else { degraded := s.link.degraded }
    boot := { s.boot with
      stage3 := false, serviceFw := false, escalated := none, devFault := false, dueAt := none
      faultReset := if cold then none else s.boot.faultReset, faultNLow := false }
    red := if cold then { within := s.red.within, lastFault := s.red.lastFault }
      else { iris := s.red.iris, switches := s.red.switches, within := s.red.within, lastFault := s.red.lastFault
             conditions := s.red.conditions }
    custody := { s.custody with cer := none }
    rng := { sources := s.rng.sources.map (resetSource cold), reseeds := if cold then 0 else s.rng.reseeds
             blocked := if cold then 0 else s.rng.blocked, aborts := if cold then 0 else s.rng.aborts }
    pk := {}
    worlds := { stored := s.worlds.stored, wdogs := if cold then 0 else s.worlds.wdogs }
    cram := []
    vesper := { s.vesper with refRead := false, adjust := 0 } }

/-- A warm reset the Thaza triggers itself: the sequence begins at once (R446, R451). `fault` tells that a device fault
caused it (R428, R454). -/
def warmReset (fault : Bool) (s : State) : State :=
  let s1 := clearMainDie false s
  { s1 with
    boot := { s1.boot with
      phase := .stage 1, faultNLow := fault, faultReset := if fault then some s.now else s1.boot.faultReset } }

/-! ## PERST_N (R446, R451, R453) -/

/-- PERST_N_FALL: a warm reset, held while PERST_N is low. Meridian counts on (R452), but Vesper stamps its records with
calendar time (R479). -/
def execPerstFall (s : State) : Outcome State :=
  if s.boot.supplies ∧ s.boot.perst = true then
    let s1 := clearMainDie false s
    .next { s1 with
      clock := { s1.clock with running := false }
      boot := { s1.boot with phase := .held, perst := false } }
  else .next s

/-- PERST_N_RISE: start-up begins at stage 1, and link training with it (R446). The Meridian counter is loaded in stage 1
of the start-up after a power-on reset; after a warm reset it has kept counting. -/
def execPerstRise (s : State) : Outcome State :=
  if s.boot.phase = .held ∧ s.boot.supplies = true then
    .next { s with
      clock := { s.clock with running := !s.boot.powerOn }
      boot := { s.boot with phase := .stage 1, perst := true } }
  else .next s

/-! ## Supplies (R443, R445, R451) -/

/-- SUPPLY_LOSS: a main supply falls below its power-down threshold. The main die loses everything it does not keep on
the store die, where a record being written may be torn; Vesper disarms the GLITCH groups, and the next start is a power-on reset. -/
def execSupplyLoss (s : State) : Outcome State :=
  if s.boot.phase = .unpowered then .next s
  else
    let s1 := clearMainDie true (if s.mainOn then tearRecord s else s)
    .next { s1 with
      clock := { s1.clock with meridian := 0, running := false, onRef := s1.clock.refclk }
      boot := { s1.boot with phase := .unpowered, supplies := false, perst := false, powerOn := true }
      vesper := { s1.vesper with armed := false } }

/-- POWER_ON_RESET: the main supplies have risen. Aster is active (R32), the recorder finds EV_HEAD (R440) and the event
cursor shows the newest record (R317), Vesper counts a power-on (R412) and judges VDD_CORE by 825 mV (R390). -/
def execPowerOnReset (s : State) : Outcome State :=
  if s.boot.phase = .unpowered then
    let n := s.vesper.counts.powerOns
    let h := foundHead s.evr.ring
    .next { s with
      boot := { s.boot with phase := .held, supplies := true, powerOn := true, stuck := false }
      evr := { s.evr with head := h, cursor := BitVec.ofNat 32 h - 1 }
      vesper := { s.vesper with
        counts := { s.vesper.counts with powerOns := satAdd n 0xFFFFFFFF }
        glitchRef := 825, refRead := false } }
  else .next s

/-- GLITCH_ARM: 1 ms after every main supply has become valid (R445). -/
def execGlitchArm (s : State) : Outcome State :=
  .next (if s.boot.supplies then { s with vesper := { s.vesper with armed := true } } else s)

/-! ## REFCLK (R28, R30, R345) -/

/-- REFCLK_LOSS (R28): Meridian goes on from the watch oscillator without a step, the link goes down, which is a link reset
(R451), and the management port, whose PLL runs from REFCLK, falls silent. -/
def execRefclkLoss (s : State) : Outcome State :=
  if s.clock.refclk then
    let s1 := setBeacon false { s with clock := { s.clock with refclk := false, onRef := false } }
    settled s (if s.mainOn then resetLink s1 else s1)
  else .next s

/-- REFCLK_RETURN: Meridian counts from REFCLK again, without a step. -/
def execRefclkReturn (s : State) : Outcome State :=
  if s.clock.refclk then .next s else .next { s with clock := { s.clock with refclk := true, onRef := true } }

/-! ## Operating conditions (R416) -/

/-- OPERATING_CONDITIONS_CHANGE: condition 0 of R416. -/
def execOperatingConditionsChange (within : Bool) (s : State) : Outcome State :=
  settled s { s with red := { s.red with within := within } }

end Sys2Proof.Machine
end

