-- ==== Sys2Proof/Machine/Faults.lean ====
section
/-!
DEFINITION. Faults outside the pairs and cores, and what they lead to (chapter 14): stall limits, control stages, the
control units, the Meridian source, the device fault and its action, the secure watchdog; and the event recorder.
-/

namespace Sys2Proof.Machine

/-- The main die runs: it is powered, and PERST_N does not hold it in reset. -/
def State.runs (s : State) : Bool := s.mainOn

/-- Do `h` while the main die runs. -/
def whileRunning (h : State → State) (s : State) : Outcome State := if s.runs then settled s (h s) else .next s

/-! ## Meridian source (R422) -/

/-- Two counts over the same window lie within 0.5 % of the second. -/
def agrees (x y : Nat) : Bool := decide ((max x y - min x y) * 200 ≤ y)

/-- MERIDIAN_SOURCE_CHECK: the counts of REFCLK, of the watch oscillator and of the calendar over one 20 µs window. On a
difference above 0.5 % Meridian continues on the source that agrees with the calendar; with neither, a device fault. -/
def execMeridianSourceCheck (ref osc cal : Nat) (s : State) : Outcome State :=
  whileRunning (fun s =>
    if s.clock.refclk = false ∨ agrees osc ref = true then s
    else
      let ppm := if ref = 0 then 1000000 else (max ref osc - min ref osc) * 1000000 / ref
      let onRef := if s.clock.onRef then agrees ref cal || !agrees osc cal else agrees ref cal && !agrees osc cal
      let s1 := record 0x0808 1 (b2n (!onRef)) ppm (s := s)
      if !agrees ref cal && !agrees osc cal then escalate s1
      else if onRef = s.clock.onRef then s1
      else bump 0x20 { s1 with clock := { s1.clock with onRef := onRef } }) s

/-! ## Control stages (R420) -/

/-- A fault that the recovery of block `c` could not mend: a device fault follows (R314, R423). -/
def breakBlock (c : Nat) (s : State) : State := escalate { s with red := { s.red with broken := s.red.broken ||| 2 ^ c } }

/-- The outcome of the comparison of a duplicated control stage: whether the copies agree when they execute again, and
the verdict of each copy's self-test. -/
def controlStage (block stage : Nat) (retryAgrees pass1 pass2 : Bool) (s : State) : State :=
  if retryAgrees then bump 0x1E (record 0x0804 1 block stage 1 (s := s))
  else if pass1 ≠ pass2 then
    record 0x0804 3 block stage 3 (s := { s with red := { s.red with simplex := s.red.simplex ||| 2 ^ block } })
  else breakBlock block (record 0x0804 1 block stage 1 (s := s))

/-- CONTROL_STAGE_DISAGREEMENT. -/
def execControlStageDisagreement (block stage : Nat) (retryAgrees pass1 pass2 : Bool) (s : State) : Outcome State :=
  whileRunning (fun s => controlStage block stage retryAgrees pass1 pass2 (setErr block 2 s)) s

/-! ## Control units (R432 to R435) -/

/-- red.cu of a unit: 0 ACTIVE, 1 STANDBY, 2 DIAGNOSING, 3 RESYNC, 4 FAILED (R416). -/
def setUnit (iris : Bool) (n : Nat) (s : State) : State :=
  { s with red := if iris then { s.red with irisSt := n } else { s.red with aster := n } }

/-- State of a unit. -/
def State.unit (s : State) (iris : Bool) : Nat := if iris then s.red.irisSt else s.red.aster

/-- A fault in the active unit: the standby unit becomes active from the held transaction onward (R434). Causes: 1
checker, 2 diagnosis. -/
def switchOver (cause : Nat) (s : State) : State :=
  let now := !s.red.iris
  let n := satAdd s.red.switches 255
  let s1 := setUnit now 0 { s with red := { s.red with iris := now, switches := n } }
  record 0x0802 3 (b2n now) cause n (s := setErr Block.cu 4 (bump 0x0D s1))

/-- Times of a unit's drops from step in the last 60 s (R435). -/
def recentDrops (now : Nat) (l : List (Bool × Nat)) : List (Bool × Nat) := l.filter fun d => decide (now - d.2 < 60 * second)

/-- A unit leaves step: it resynchronises, or, at its third drop within 60 s, is FAILED without a further test
(R435). -/
def dropUnit (iris : Bool) (s : State) : State :=
  let l := (iris, s.now) :: recentDrops s.now s.red.drops
  let s1 := { s with red := { s.red with inStep := false, drops := l } }
  if (l.filter fun d => decide (d.1 = iris)).length ≥ 3 then record 0x0803 3 (b2n iris) 2 (s := setUnit iris 4 s1)
  else setUnit iris 3 s1

/-- The unit at fault is switched over when it was active, and dropped from step (R434). -/
def faultUnit (iris : Bool) (cause : Nat) (s : State) : State :=
  dropUnit iris (if s.red.iris = iris then switchOver cause s else s)

/-- A masked disagreement: 1 rollback agreed, 2 RAM repaired, with its counter. -/
def cuMasked (how unit : Nat) (m : CuMismatch) (s : State) : State :=
  bump (if how = 1 then 0x1C else 0x1D) (record 0x0801 1 how unit m.address (s := s))

/-- What the diagnosis program found (R433, steps 3 and 4). A second disagreement during it is nested, and a device fault
(R425). -/
def diagnosed (m : CuMismatch) (s : State) : State :=
  if m.second then breakBlock Block.cu (record 0x0801 3 3 2 m.address (nested := true) (s := bump 0x0F s))
  else if m.asterPass ≠ m.irisPass then
    faultUnit m.asterPass 2 (record 0x0801 3 3 (b2n m.asterPass) m.address (s := s))
  else if m.asterPass && m.ramRepair then
    if m.againOk then cuMasked 2 2 m s else breakBlock Block.cu (record 0x0801 3 3 2 m.address (s := bump 0x1D s))
  else breakBlock Block.cu (record 0x0801 3 3 2 m.address (s := s))

/-- The procedure of R433 for two units in step. -/
def cuProcedure (m : CuMismatch) (s : State) : State :=
  match m.checker with
  | some u =>
    if m.ramParity then cuMasked 2 (b2n u) m s
    else faultUnit u 1 (record 0x0801 3 3 (b2n u) m.address (s := s))
  | none => if m.rollbackOk then cuMasked 1 2 m s else diagnosed m s

/-- With one unit out of step nothing is compared; a checker of the active unit then has no unit to hand over to: a
device fault, nested while the other unit resynchronises (R425). -/
def cuAlone (m : CuMismatch) (s : State) : State :=
  if m.checker = some s.red.iris then
    let nested := decide (s.unit (!s.red.iris) = 3)
    breakBlock Block.cu (record 0x0801 3 3 (b2n s.red.iris) m.address (nested := nested) (s := if nested then bump 0x0F s else s))
  else s

/-- The handling of a disagreement or checker, common to both ways of finding one. -/
def cuHandle (m : CuMismatch) (s : State) : State :=
  if s.red.inStep then cuProcedure m (if m.checker.isNone then setErr Block.cu 2 (bump 0x0E s) else s) else cuAlone m s

/-- CU_MISMATCH (R433). -/
def execCuMismatch (m : CuMismatch) (s : State) : Outcome State :=
  whileRunning (cuHandle m) s

/-- CU_RESYNC (R435): the self-test of a unit that left step, and with a pass its return as the standby. -/
def execCuResync (pass : Bool) (us : Nat) (s : State) : Outcome State :=
  whileRunning (fun s =>
    let u := !s.red.iris
    if s.unit u = 3 then
      if pass then record 0x0803 0 (b2n u) 1 us (s := setUnit u 1 { s with red := { s.red with inStep := true } })
      else record 0x0803 3 (b2n u) 2 us (s := setUnit u 4 s)
    else s) s

/-! ## Stall limits (R419) -/

/-- The block a stall of the store die is reported in, by the area of the operation. -/
def areaBlock (area : Nat) : Nat := if area = 1 then Block.ks else if area = 3 then Block.ev else Block.cu

/-- A stall counted and shown in its block. -/
def stallIn (block : Nat) (s : State) : State := setErr block 0 (bump 6 s)

/-- STALL_LIMIT. Each stage's stall is handled by its scope. -/
def execStallLimit (st : StallStage) (s : State) : Outcome State :=
  match st with
  | .pkCore c => if s.runs then execPkCoreFault c 0 (stallIn Block.pk s) else .next s
  | .lane p => whileRunning (fencePair p 4) s
  | .splitter c => whileRunning (fun s => fencePair (2 * c + 1) 4 (fencePair (2 * c) 4 s)) s
  | .controlUnit iris =>
    whileRunning (fun s => cuHandle
      { checker := some iris, ramParity := false, rollbackOk := false, asterPass := iris, irisPass := !iris
        ramRepair := false, againOk := false, second := false, address := 0 } (stallIn Block.cu s)) s
  | .drbg => whileRunning (fun s => if s.rng.seeded then restartGenerator 2 s else stallIn Block.rg s) s
  | .control b st retryAgrees pass1 pass2 => whileRunning (fun s => controlStage b st retryAgrees pass1 pass2 (stallIn b s)) s
  | .store area addr again =>
    whileRunning (fun s =>
      let s1 := record 0x0809 1 area addr (s := stallIn (areaBlock area) s)
      if again then breakBlock (areaBlock area) s1 else s1) s
  | .dieLink off w => whileRunning (fun s => vesperSilent off w (bump 6 s)) s

/-! ## The device fault (R427, R428) -/

/-- A device fault is held rather than reset: by choice, during start-up (R449), or soon after a warm reset an earlier
one caused (R428). -/
def holdsFault (s : State) : Bool :=
  decide (s.param 0x5000 5 0 = 1) || decide (s.boot.phase ≠ .open_) ||
    match s.boot.faultReset with | some t => decide (s.now - t < 60 * second) | none => false

/-- Claims in progress are released, a retry's and a drain's; the device fault, suppressed at first, presents itself
again and comes before every other reaction (R429 to R431). -/
def releaseClaims (s : State) : State :=
  s.jobs.foldl (fun s j =>
    if (j.claim || j.silent) && decide ((s.fn j.ref.fn).run ≠ .resetting) then
      bump 0x12 (modJob j.ref (fun k =>
        { k with claim := false, stop := none, silent := false, outcome := if j.silent then none else k.outcome }) s)
    else s) s

/-- Jobs a device fault ends: those in flight. -/
def faultEnds (s : State) : List Job := s.jobs.filter fun j => decide (j.ref.jq ≠ 0) && !j.taken

/-- Every job and admin command in progress ends with FAULT, 0x04, at once. -/
def endAll (s : State) : State :=
  s.jobs.foldl (fun s j =>
    match s.job? j.ref with
    | some k =>
      endJob k { status := Status.fault, detail := 0x04 } true
        (if k.ref.jq = 0 ∧ k.outcome.isNone then abandonAdmin k s else s)
    | none => s) s

/-- Lane and core key registers, operand memories and draws erased. -/
def eraseLanes (s : State) : State :=
  { s with jobs := s.jobs.map fun j => { j with keyA := {}, keyB := {}, draws := [], result := none } }

/-- The device fault of the record `seq`. -/
def deviceFault (seq : Nat) (s : State) : State :=
  let s0 := releaseClaims s
  let hold := holdsFault s
  let s1 := record 0x0805 4 seq (b2n hold) (faultEnds s0).length (s := bump 0x1F s0)
  let s2 := persist 0 { s1 with
    red := { s1.red with lastFault := s.now }
    regs := { s1.regs with fetchEn := false, dispatchEn := false }
    boot := { s1.boot with
      escalated := none, devFault := true, dueAt := if hold then none else some (s1.boot.dueAt.getD s.now) } }
  eraseLanes (endAll s2)

/-- DEVICE_FAULT (R427): the escalation of the record `seq`. -/
def execDeviceFault (seq : Nat) (s : State) : Outcome State :=
  if s.boot.escalated = some seq then whileRunning (deviceFault seq) s else .next s

/-- DEVICE_FAULT_ACTION (R428): a warm reset 1 ms later, or the hold; held unbooted when no firmware runs (R449). -/
def execDeviceFaultAction (s : State) : Outcome State :=
  if s.boot.devFault then
    match s.boot.dueAt with
    | some t => if elapsedUs s.now t 1000 then .next (warmReset true s) else .next s
    | none =>
      match s.boot.phase with
      | .open_ | .stage _ =>
        settled s { s with boot := { s.boot with
          phase := if s.boot.stage3 then .devHold else .unbooted, stuck := s.boot.stuck || !s.boot.stage3 } }
      | _ => .next s
  else .next s

/-! ## The secure watchdog (R373, R374) -/

/-- fw.wdog.period_ms. -/
def State.wdogPeriod (s : State) : Nat := s.param 0x7000 0x21 100

/-- compat.ahnom.hang. -/
def State.ahnomHang (s : State) : Nat := s.param 0x7000 0x20 0

/-- An admin command the halted secure world no longer serves (R374). -/
def haltStops (j : Job) : Bool := decide (j.ref.jq = 0) && j.outcome.isNone && !isQueueAdmin j.op && decide (j.op ≠ Op.extCall)

/-- The secure world halts: ceremonies are closed, sessions lapse, admin commands it was running end (R374). -/
def haltSecure (s : State) : State :=
  let s1 := { s with custody := { s.custody with cer := none }, mgmt := { s.mgmt with sessions := [], parts := [], relay := [] } }
  let s2 := (s1.jobs.filter haltStops).foldl
    (fun s j => decideJob j.ref { status := Status.unavailable, detail := 0x09 } (abandonAdmin j s)) s1
  { s2 with worlds := { s2.worlds with halted := true } }

/-- The watchdog has run out. A debug halt in DEBUG pauses it (R380). -/
def wdogExpired (s : State) : Bool :=
  s.worlds.armed && !s.worlds.halted && s.worlds.pausedAt.isNone && elapsedUs s.now s.worlds.kickAt (s.wdogPeriod * 1000)

/-- WATCHDOG (R373): a warm reset, or the Ahnom-compatible halt; before stage 7 a device fault (R453). -/
def execWatchdog (s : State) : Outcome State :=
  if s.runs && wdogExpired s && !s.boot.devFault then
    let s1 := setErr Block.cu 5 { s with worlds := { s.worlds with wdogs := satAdd s.worlds.wdogs 0xFFFFFFFF } }
    match s.boot.phase with
    | .stage _ =>
      settled s (escalate (record 0x0807 3 s.ahnomHang (s := { s1 with worlds := { s1.worlds with kickAt := s.now } })))
    | _ => if s.ahnomHang = 0 then .next (warmReset false (record 0x0807 3 0 (s := s1))) else settled s (haltSecure s1)
  else .next s

/-! ## The event recorder (R436, R439) -/

/-- The record at EV_CURSOR lies in the ring at the position about to be written. -/
def overrunsCursor (s : State) : Bool :=
  decide (s.evr.head ≥ 65536) && decide ((s.evr.head + 2 ^ 32 - s.evr.cursor.toNat) % 2 ^ 32 = 65536)

/-- EVENT_RECORD_WRITE: the oldest pending record takes the next SEQ and its ring position, and EV_HEAD moves past
it. -/
def execEventRecordWrite (s : State) : Outcome State :=
  match s.evr.queue with
  | [] => .next s
  | e :: rest =>
    let n := s.evr.head
    if s.runs then
      let s1 := if overrunsCursor s then setErr Block.ev 4 (bump 0x19 s) else s
      .next { s1 with evr := { s1.evr with
        queue := rest, head := (n + 1) % 2 ^ 32, ring := s1.evr.ring.set (n % 65536) (eventBytes n e) } }
    else .next s

/-- RATE_WINDOW_END: the Meridian second has changed (R439). -/
def execRateWindowEnd (s : State) : Outcome State := .next (if s.clock.running then rollWindow s else s)

end Sys2Proof.Machine
end

