-- ==== Sys2Proof/Machine/Startup.lean ====
section
/-!
DEFINITION. The start-up sequence (R446 to R450): its seven stages, each a command of its own.
-/

namespace Sys2Proof.Machine

/-- Stage `n` of start-up is in progress, and no device fault has ended the sequence (R449). -/
def starting (n : Nat) (s : State) : Bool :=
  decide (s.boot.phase = .stage n) && s.boot.escalated.isNone && !s.boot.devFault

/-- Go on to stage `n`. -/
def toStage (n : Nat) (s : State) : State := { s with boot := { s.boot with phase := .stage n } }

/-! ## Stage 1: Vesper's state (R401, R413, R30) -/

/-- TIME of the newest event record in the ring; 0 when there is none. -/
def newestTime (s : State) : Nat :=
  match s.evr.ring.find? ((s.evr.head + (2 ^ 32 - 1)) % 65536) with
  | some b => b.leAt 0 8
  | none => 0

/-- A cold Vesper (R413): its calendar and counters come back from their checkpoints, and a device that may hold a
domain latches VBAT_CUT with class V. -/
def restoreVesper (s : State) : State :=
  let s1 := modVesper (fun v => { v with
    counts := v.stored, calendar := max (v.storedCal + 60 * second) (newestTime s), calAcc := 0, valid := false, warm := true }) s
  match s.life.lc with
  | .initialized | .operational | .locked => latchGroup 16 3 s1
  | _ => s1

/-- After a power-on reset Meridian takes the calendar's seconds (R30). -/
def loadMeridian (s : State) : State :=
  if s.boot.powerOn then
    { s with clock := { s.clock with meridian := s.vesper.calendar / second * second, slewAcc := 0 } }
  else s

/-- VESPER_STATE_READ: the end of stage 1. -/
def execVesperStateRead (s : State) : Outcome State :=
  if starting 1 s then
    let s1 := loadMeridian (if s.vesper.warm then s else restoreVesper s)
    settled s (toStage 2 { s1 with
      clock := { s1.clock with running := true }
      boot := { s1.boot with powerOn := false, faultNLow := false } })
  else .next s

/-! ## Stage 2: main-die self-test (R449) -/

/-- Vesper's buffered records go to the ring before any of the main die's own (R401). -/
def drainVesper (s : State) : State :=
  s.vesper.buf.foldl (fun s e => acceptRecord e s) { s with vesper := { s.vesper with buf := [] } }

/-- The persistent sets self-test found with failed copies (R328): one copy, or every one. -/
def noteCopies (r : SelfTest) (s : State) : State :=
  { s with dict := { s.dict with
      bad := r.badCopies.map (fun n => (n, 0)) ++ r.badSets.flatMap fun n => (List.range (copiesOf n)).map fun k => (n, k) } }

/-- Roles of the pairs that passed (R23): the highest is the urgent reserve, the highest of another cluster the spare
reserve, every other one a bulk pair. -/
def pairRole (ok : List Bool) (p : Nat) : PairState :=
  let passed := ((List.range 10).filter fun q => ok.getD q false).reverse
  match passed with
  | [] => .absent
  | u :: rest =>
    if ok.getD p false = false then .absent
    else if p = u then .urgent
    else if rest.find? (fun q => decide (q / 2 ≠ u / 2)) = some p then .spare
    else .bulk

/-- The pairs with their roles, the cores with their states (R449). -/
def placeUnits (r : SelfTest) (s : State) : State :=
  { s with
    fab := { s.fab with pairs := (List.range 10).map fun p => { st := pairRole r.pairsOk p, role := pairRole r.pairsOk p } }
    pk := { s.pk with cores := (List.range 4).map fun c => { st := if r.coresOk.getD c false then .active else .absent } }
    regs := { s.regs with serving := List.replicate 12 true } }

/-- The control units (R32, R449): one that fails is FAILED, and the other is active. -/
def placeControl (r : SelfTest) (s : State) : State :=
  let iris := if r.asterOk then s.red.iris && r.irisOk else r.irisOk
  let st (ok mine : Bool) : Nat := if ok then (if mine then 0 else 1) else 4
  { s with red := { s.red with iris := iris, inStep := r.asterOk && r.irisOk, aster := st r.asterOk (!iris), irisSt := st r.irisOk iris } }

/-- A control stage whose one copy fails runs simplex (R420, R449). -/
def noteSimplex (x : Nat × Nat) (s : State) : State :=
  record 0x0804 3 x.1 x.2 3 (s := { s with red := { s.red with simplex := s.red.simplex ||| 2 ^ x.1 } })

/-- The profile in force (R337). -/
def chooseProfile (s : State) : State :=
  let pins := b2n s.boot.psel0 + 2 * b2n s.boot.psel1
  let n := if s.devParam 0x0100 0x12 0 = 1 then s.devParam 0x0100 0x13 0 else pins
  let p := s.profile n
  let use (force : FMap Bytes) (active : Nat) (fallback : Bool) : State :=
    { s with dict := { s.dict with force := force, active := active, fallback := fallback, pins := pins } }
  match p.st with
  | .factory | .empty => use [] n false
  | .valid => use p.vals n false
  | .bad => record 0x0904 1 n 1 (s := use [] 0 true)

/-- PW takes over the rail: its first read (R390, R444). With avs.enable the loop starts from the voltage it last
commanded, or after a power-on reset from the one it finds. DESIGN CHOICE (log entry 27): it starts at the multiple of 5 mV at or
below a rail between two, since it commands only such values (R101). -/
def takeRail (mv : Nat) (s : State) : State :=
  let v := if s.avsOn && decide (s.fab.vdd ≠ 0) then s.fab.vdd else mv / 5 * 5
  { s with
    fab := { s.fab with vdd := v, vddRead := if s.avsOn then v else mv, avsRail := s.param 0x3000 0x12 0 }
    vesper := { s.vesper with glitchRef := if s.avsOn then v else mv, refRead := !s.avsOn } }

/-- A failure self-test cannot work around (R449). -/
def testFails (r : SelfTest) : Bool := !r.blocksOk || !r.drbgOk || (!r.asterOk && !r.irisOk)

/-- MAIN_DIE_SELF_TEST: stage 2. -/
def execMainDieSelfTest (r : SelfTest) (s : State) : Outcome State :=
  if starting 2 s then
    let s1 := record 0x0F02 0 s.evr.head (failedMarks s.evr.ring) (s := drainVesper s)
    let s2 := (List.range 5).foldl (fun s n => checkSet n s) (noteCopies r s1)
    if testFails r then
      .next (escalate (if !r.asterOk && !r.irisOk then record 0x0801 3 3 2 (s := s2) else s2))
    else
      let s3 := r.simplex.foldl (fun s x => noteSimplex x s) (placeControl r (placeUnits r s2))
      .next (noteConditions (toStage 3 (takeRail r.railMv (applyPolicy (chooseProfile s3)))))
  else .next s

/-! ## Stage 3: firmware (R448) -/

/-- The image that boots of one kind, the newer first, and whether it is the newer one. `okNew` and `okOld` say whether
each passes its digest and both signatures. -/
def bootImage (new : Option Image) (old : Image) (min : Nat) (okNew okOld : Bool) : Option (Image × Bool) :=
  match new with
  | some i => if okNew && decide (min ≤ i.svn) then some (i, true) else if okOld && decide (min ≤ old.svn) then some (old, false) else none
  | none => if okOld && decide (min ≤ old.svn) then some (old, false) else none

/-- A newer image that fails is recorded. -/
def noteImage (new : Option Image) (chosen : Option (Image × Bool)) (s : State) : State :=
  match new, chosen with
  | none, _ => s
  | some _, some (_, true) => s
  | some _, _ => repairRecord 4 s

/-- Custody firmware that has booted: a newer image takes the place of the older one and raises the minimum. -/
def bootCustody (c : Image × Bool) (b : Boot) : Boot :=
  if c.2 then { b with custodyNew := none, custodyOld := c.1, custodySvn := max b.custodySvn c.1.svn } else b

/-- The service firmware base likewise; with none, custody firmware runs alone. -/
def bootService (c : Option (Image × Bool)) (b : Boot) : Boot :=
  match c with
  | none => { b with serviceFw := false }
  | some (i, true) => { b with serviceNew := none, serviceOld := i, serviceSvn := max b.serviceSvn i.svn, serviceFw := true }
  | some (_, false) => { b with serviceFw := true }

/-- FIRMWARE_CHECK: stage 3. Custody firmware starts and arms the secure watchdog (R453); without an image that passes
the device is held unbooted, and stays so through warm resets (R448). -/
def execFirmwareCheck (r : FirmwareScan) (s : State) : Outcome State :=
  if starting 3 s then
    let b := s.boot
    if b.stuck then settled s { s with boot := { b with phase := .unbooted } } else
    let c := bootImage b.custodyNew b.custodyOld b.custodySvn r.custodyNewer r.custodyOlder
    let v := bootImage b.serviceNew b.serviceOld b.serviceSvn r.serviceNewer r.serviceOlder
    let s1 := noteImage b.custodyNew c s
    match c with
    | none => settled s { s1 with boot := { s1.boot with phase := .unbooted, stuck := true } }
    | some i =>
      let s2 := noteImage b.serviceNew v s1
      settled s (toStage 4 { s2 with
        boot := { bootService v (bootCustody i s2.boot) with stage3 := true }
        worlds := { s2.worlds with armed := true, kickAt := s2.now } })
  else .next s

/-! ## Stages 4 and 5: root and randomness (R280, R289, R391, R401) -/

/-- ROOT_HAND_OFF: the main die takes its copy of the Vesper root, if Vesper holds one, and the sources are enabled. -/
def execRootHandOff (s : State) : Outcome State :=
  if starting 4 s then
    settled s (toStage 5 { s with
      life := { s.life with rootMain := s.life.root }
      rng := { s.rng with enabled := true, sources := s.rng.sources.map fun x => { x with first := true } } })
  else .next s

/-- Every mask generator asks for its seed (R83). -/
def askSeeds (s : State) : State :=
  { s with fab := { s.fab with gens := s.fab.gens.map fun g => { g with asks := true } } }

/-- The end of stage 5: it waits for the first credited window, and Vesper's pattern generator is reseeded. -/
def seedFirst (s : State) : State :=
  if starting 5 s then
    match if s.rng.seeded then some s else firstSeed s with
    | none => s
    | some s1 =>
      match fwRandom 32 (askSeeds s1) with
      | .ok (b, t) => toStage 6 (modVesper (fun v => { v with patKey := b.take 16, patCtr := Bytes.toBE (b.drop 16) }) t)
      | .error t => t
  else s

/-! ## Stage 6: slots (R401, R450) -/

/-- One LOADING slot from its blob; unwraps that fail or disagree leave it BAD, and the reload goes on. -/
def loadSlot (bad : List Nat) (s : State) (n : Nat) : State :=
  let ok := !bad.contains n
  let r := reloadSlot n ok ok s
  if r.1 then r.2 else reloadFails n s

/-- Slots that wait to be loaded. -/
def loadingSlots (s : State) : List Nat := (s.store.slots.filter fun p => decide (p.2.st = .loading)).map (·.1)

/-- The domain slots, then the tenant slots; without a domain key the tenant slots stay LOADING (R215). -/
def loadTenants (bad : List Nat) (s : State) : State :=
  let s1 := if bad.contains 0 && decide (s.life.dkWrapped ≠ []) then markBad 0 s else reloadDomain s
  if s1.domainKey.isSome then (loadingSlots s1).foldl (loadSlot bad) s1 else s1

/-- The re-mask sweep's first pass after stage 6 is the one that begins now, when the sweep stands at slot 0; else the next
(R196). -/
def armSweep (s : State) : State :=
  let now := decide (s.store.sweep = 0)
  { s with store := { s.store with passOk := now, sweepAt := if now then s.now else s.store.sweepAt } }

/-- SLOTS_LOADED: stage 6, once the slot copies' mask generators are seeded. `bad` names slots whose unwraps fail or
disagree. In FACTORY and DECOMMISSIONED, and with lock class Z or V, only the attestation slots are made. -/
def execSlotsLoaded (bad : List Nat) (s : State) : Outcome State :=
  if starting 6 s && decide ((s.fab.gens.getD 10 {}).key ≠ []) && decide ((s.fab.gens.getD 11 {}).key ≠ []) then
    let s1 := putAttest s
    let none_ := decide (s.life.lc = .factory) || decide (s.life.lc = .decommissioned) ||
      decide (s.life.lockClass.rank ≥ LockClass.z.rank)
    settled s (toStage 7 (armSweep (if none_ then s1 else loadTenants bad s1)))
  else .next s

/-! ## Stage 7: the queues open (R315, R371, R383) -/

/-- One stored extension loaded again; the base does it, and one that no longer passes is left out (R383, R386). -/
def loadStored (s : State) (b : Bytes) : State :=
  if imgGood s b && pagesFit s b && (s.ext? (imgId b)).isNone then extEvent (imgId b) 1 (imgKey b) (placeExt b s) else s

/-- QUEUES_OPEN: stored extensions, the gate lock, FETCH_EN and DISPATCH_EN, READY. -/
def execQueuesOpen (s : State) : Outcome State :=
  if starting 7 s then
    let s1 := if s.boot.serviceFw && !s.regs.rulesLock then s.worlds.stored.foldl loadStored s else s
    settled s { s1 with
      regs := { s1.regs with rulesLock := s.regs.rulesLock || decide (s.param 0x7000 0x22 0 = 1), fetchEn := true, dispatchEn := true }
      boot := { s1.boot with phase := .open_ } }
  else .next s

end Sys2Proof.Machine
end

