-- ==== Sys2Proof/Machine/Wake.lean ====
section
/-!
DEFINITION. The commands that bring random bytes. What custody firmware had to leave waiting for them, messages of the
management port and of the DOE mailbox, it then takes up again in the order it came; admin commands that wait have commands
of their own (R289, R291, R298).
-/

namespace Sys2Proof.Machine

/-- One message of the port again. -/
def wakeOne (s : State) : PortWork → State
  | .hello r m => startSession r m s
  | .request id entry m => runWork id entry m s

/-- The messages of the port that wait, in order; one whose bytes are still short waits on. -/
def wakePort (s : State) : State := s.mgmt.work.foldl wakeOne { s with mgmt := { s.mgmt with work := [] } }

/-- The data object that the mailbox waits to answer. -/
def wakeDoe (s : State) : State :=
  match s.link.held with
  | some obj => doeServe obj (modLink (fun l => { l with held := none }) s)
  | none => s

/-- Firmware goes on with what waited for random bytes, while it runs (R374, R380). -/
def wakeFirmware (s : State) : State := if s.secureRuns then wakeDoe (wakePort s) else s

/-- WINDOW_COMPLETE (R281, R282, R290). -/
def execWindowComplete (src : Nat) (w : WindowReading) (s : State) : Outcome State := settled s (wakeFirmware (windowEnds src w s))

/-- GENERATE_REQUEST (R286, R291). -/
def execGenerateRequest (s : State) : Outcome State := settled s (wakeFirmware (generateOrWait s))

/-- RESEED_RESUME (R298). -/
def execReseedResume (s : State) : Outcome State := settled s (wakeFirmware (resumeReseed s))

/-- GENERATOR_RESTART (R421). -/
def execGeneratorRestart (cause : Nat) (s : State) : Outcome State :=
  settled s (if s.rng.seeded then wakeFirmware (restartGenerator cause s) else s)

/-- FIRST_SEEDING (R289): stage 5. -/
def execFirstSeeding (s : State) : Outcome State := settled s (wakeFirmware (seedFirst s))

end Sys2Proof.Machine
end

