-- ==== Sys2Proof/Machine/Dispatch.lean ====
section
/-!
DEFINITION. One arm per row of the opcode table.
-/

namespace Sys2Proof.Machine

def exec (i : Instr) (s : State) : Host.Outcome State Fault Refusal :=
  match i with
  | .pad f q => Sys2Proof.Machine.execPad f q s
  | .nop j => Sys2Proof.Machine.execNop j s
  | .seal j resent => Sys2Proof.Machine.execSeal j resent s
  | .unseal j resent => Sys2Proof.Machine.execUnseal j resent s
  | .checkGen j resent => Sys2Proof.Machine.execCheckGen j resent s
  | .checkVerify j => Sys2Proof.Machine.execCheckVerify j s
  | .rawEncrypt j resent => Sys2Proof.Machine.execRawEncrypt j resent s
  | .rawDecrypt j resent => Sys2Proof.Machine.execRawDecrypt j resent s
  | .rngFill j => Sys2Proof.Machine.execRngFill j s
  | .pkSign j => Sys2Proof.Machine.execPkSign j s
  | .pkVerify j => Sys2Proof.Machine.execPkVerify j s
  | .pkKeygen j => Sys2Proof.Machine.execPkKeygen j s
  | .pkAgree j => Sys2Proof.Machine.execPkAgree j s
  | .pkEncaps j => Sys2Proof.Machine.execPkEncaps j s
  | .pkDecaps j => Sys2Proof.Machine.execPkDecaps j s
  | .createJq f => Sys2Proof.Machine.execCreateJq f s
  | .destroyJq f => Sys2Proof.Machine.execDestroyJq f s
  | .resetJq f => Sys2Proof.Machine.execResetJq f s
  | .createCq f => Sys2Proof.Machine.execCreateCq f s
  | .destroyCq f => Sys2Proof.Machine.execDestroyCq f s
  | .dictRead f => Sys2Proof.Machine.execDictRead f s
  | .dictWrite f => Sys2Proof.Machine.execDictWrite f s
  | .fnAlloc => Sys2Proof.Machine.execFnAlloc s
  | .fnFree => Sys2Proof.Machine.execFnFree s
  | .freeze => Sys2Proof.Machine.execFreeze s
  | .save => Sys2Proof.Machine.execSave s
  | .thaw => Sys2Proof.Machine.execThaw s
  | .fnStateLoad => Sys2Proof.Machine.execFnStateLoad s
  | .dirtyLogStart => Sys2Proof.Machine.execDirtyLogStart s
  | .dirtyLogSync => Sys2Proof.Machine.execDirtyLogSync s
  | .dirtyLogStop => Sys2Proof.Machine.execDirtyLogStop s
  | .fnReset => Sys2Proof.Machine.execFnReset s
  | .keyCreate f => Sys2Proof.Machine.execKeyCreate f s
  | .keyImport f => Sys2Proof.Machine.execKeyImport f s
  | .keyExport f => Sys2Proof.Machine.execKeyExport f s
  | .keyErase f => Sys2Proof.Machine.execKeyErase f s
  | .rekey f => Sys2Proof.Machine.execRekey f s
  | .reattr f => Sys2Proof.Machine.execReattr f s
  | .keyQuery f => Sys2Proof.Machine.execKeyQuery f s
  | .attestStatement f => Sys2Proof.Machine.execAttestStatement f s
  | .attestChainEcdsa f => Sys2Proof.Machine.execAttestChainEcdsa f s
  | .attestChainMldsa f => Sys2Proof.Machine.execAttestChainMldsa f s
  | .approve => Sys2Proof.Machine.execApprove s
  | .ceremonyOpen => Sys2Proof.Machine.execCeremonyOpen s
  | .ceremonyStatus => Sys2Proof.Machine.execCeremonyStatus s
  | .ceremonyExecute => Sys2Proof.Machine.execCeremonyExecute s
  | .ceremonyContinue => Sys2Proof.Machine.execCeremonyContinue s
  | .ceremonyCancel => Sys2Proof.Machine.execCeremonyCancel s
  | .initialise => Sys2Proof.Machine.execInitialise s
  | .custodians => Sys2Proof.Machine.execCustodians s
  | .domainCreate => Sys2Proof.Machine.execDomainCreate s
  | .domainAdmit => Sys2Proof.Machine.execDomainAdmit s
  | .domainJoin => Sys2Proof.Machine.execDomainJoin s
  | .shareExport => Sys2Proof.Machine.execShareExport s
  | .shareRestore => Sys2Proof.Machine.execShareRestore s
  | .lock => Sys2Proof.Machine.execLock s
  | .unlock => Sys2Proof.Machine.execUnlock s
  | .debugEnter => Sys2Proof.Machine.execDebugEnter s
  | .debugExit => Sys2Proof.Machine.execDebugExit s
  | .decommission => Sys2Proof.Machine.execDecommission s
  | .fwRegister => Sys2Proof.Machine.execFwRegister s
  | .extKey => Sys2Proof.Machine.execExtKey s
  | .dictQuorum => Sys2Proof.Machine.execDictQuorum s
  | .cellService => Sys2Proof.Machine.execCellService s
  | .fdpRelay => Sys2Proof.Machine.execFdpRelay s
  | .load => Sys2Proof.Machine.execLoad s
  | .unload => Sys2Proof.Machine.execUnload s
  | .list => Sys2Proof.Machine.execList s
  | .extCall f => Sys2Proof.Machine.execExtCall f s
  | .ret x status detail result1 => Sys2Proof.Machine.execRet x status detail result1 s
  | .readIn x inOff dst n => Sys2Proof.Machine.execReadIn x inOff dst n s
  | .writeOut x src outOff n => Sys2Proof.Machine.execWriteOut x src outOff n s
  | .submit x entryAt slots recAt => Sys2Proof.Machine.execSubmit x entryAt slots recAt s
  | .random x dst n => Sys2Proof.Machine.execRandom x dst n s
  | .time x dst => Sys2Proof.Machine.execTime x dst s
  | .extDictRead x index sub dst room => Sys2Proof.Machine.execExtDictRead x index sub dst room s
  | .log x a1 a2 a3 => Sys2Proof.Machine.execLog x a1 a2 a3 s
  | .fnJqPiWrite f q v => Sys2Proof.Machine.execFnJqPiWrite f q v s
  | .fnCqCiWrite f q v => Sys2Proof.Machine.execFnCqCiWrite f q v s
  | .fnSkKeyWrite f set k wide v => Sys2Proof.Machine.execFnSkKeyWrite f set k wide v s
  | .sessionKeyLoad f set v => Sys2Proof.Machine.execSessionKeyLoad f set v s
  | .sessionKeyClear f set v => Sys2Proof.Machine.execSessionKeyClear f set v s
  | .adminQueueEnable f v => Sys2Proof.Machine.execAdminQueueEnable f v s
  | .adminQueueDisable f v => Sys2Proof.Machine.execAdminQueueDisable f v s
  | .fnRngDataRead f off en => Sys2Proof.Machine.execFnRngDataRead f off en s
  | .rngReadStallLimit f => Sys2Proof.Machine.execRngReadStallLimit f s
  | .advance a v => Sys2Proof.Machine.execAdvance a v s
  | .retreat a v => Sys2Proof.Machine.execRetreat a v s
  | .kick a v => Sys2Proof.Machine.execKick a v s
  | .pwReqWrite a v => Sys2Proof.Machine.execPwReqWrite a v s
  | .pwKeepWrite a v => Sys2Proof.Machine.execPwKeepWrite a v s
  | .aliasWrite a where_ v => Sys2Proof.Machine.execAliasWrite a where_ v s
  | .setMirrorWrite a addr v => Sys2Proof.Machine.execSetMirrorWrite a addr v s
  | .clearMirrorWrite a addr v => Sys2Proof.Machine.execClearMirrorWrite a addr v s
  | .toggleMirrorWrite a addr v => Sys2Proof.Machine.execToggleMirrorWrite a addr v s
  | .gateRuleWrite a addr v => Sys2Proof.Machine.execGateRuleWrite a addr v s
  | .registerWrite a where_ size v => Sys2Proof.Machine.execRegisterWrite a where_ size v s
  | .busMasterEnableClear f => Sys2Proof.Machine.execBusMasterEnableClear f s
  | .flr f => Sys2Proof.Machine.execFlr f s
  | .vfEnableClear => Sys2Proof.Machine.execVfEnableClear s
  | .functionReset f cause => Sys2Proof.Machine.execFunctionReset f cause s
  | .functionResetComplete f => Sys2Proof.Machine.execFunctionResetComplete f s
  | .d3hotWrite f => Sys2Proof.Machine.execD3hotWrite f s
  | .quiescenceTimeout f => Sys2Proof.Machine.execQuiescenceTimeout f s
  | .d0Write f => Sys2Proof.Machine.execD0Write f s
  | .msixEnableClear f => Sys2Proof.Machine.execMsixEnableClear f s
  | .msixUnmask f v => Sys2Proof.Machine.execMsixUnmask f v s
  | .linkUp rate width flit => Sys2Proof.Machine.execLinkUp rate width flit s
  | .linkReset => Sys2Proof.Machine.execLinkReset s
  | .inboundFlit a b ide => Sys2Proof.Machine.execInboundFlit a b ide s
  | .dmaReadCompletion t r => Sys2Proof.Machine.execDmaReadCompletion t r s
  | .completionTimeout t => Sys2Proof.Machine.execCompletionTimeout t s
  | .spdmRequest obj => Sys2Proof.Machine.execSpdmRequest obj s
  | .doeAbort => Sys2Proof.Machine.execDoeAbort s
  | .ideKmQuery session port => Sys2Proof.Machine.execIdeKmQuery session port s
  | .ideKmKeyProg session stream keySet sub tx key iv => Sys2Proof.Machine.execIdeKmKeyProg session stream keySet sub tx key iv s
  | .ideKmKSetGo session stream keySet sub tx => Sys2Proof.Machine.execIdeKmKSetGo session stream keySet sub tx s
  | .ideKmKSetStop session stream keySet sub tx => Sys2Proof.Machine.execIdeKmKSetStop session stream keySet sub tx s
  | .entryFetch => Sys2Proof.Machine.execEntryFetch s
  | .dispatch t => Sys2Proof.Machine.execDispatch t s
  | .commitRefusal j => Sys2Proof.Machine.execCommitRefusal j s
  | .jobCompletion j more resent => Sys2Proof.Machine.execJobCompletion j more resent s
  | .mirrorWrite f q resent => Sys2Proof.Machine.execMirrorWrite f q resent s
  | .moderationTimer f v => Sys2Proof.Machine.execModerationTimer f v s
  | .jobTimeout j => Sys2Proof.Machine.execJobTimeout j s
  | .pairFault p cause => Sys2Proof.Machine.execPairFault p cause s
  | .pairKatVerdict p a b => Sys2Proof.Machine.execPairKatVerdict p a b s
  | .spareKat a b => Sys2Proof.Machine.execSpareKat a b s
  | .jobRetry j => Sys2Proof.Machine.execJobRetry j s
  | .creditRescale => Sys2Proof.Machine.execCreditRescale s
  | .avsLoop cycle oks mv => Sys2Proof.Machine.execAvsLoop cycle oks mv s
  | .avsGuard cycle oks => Sys2Proof.Machine.execAvsGuard cycle oks s
  | .remaskSweepVisit => Sys2Proof.Machine.execRemaskSweepVisit s
  | .slotReload n okA okB => Sys2Proof.Machine.execSlotReload n okA okB s
  | .checkpointWriteDone n => Sys2Proof.Machine.execCheckpointWriteDone n s
  | .parityScrub bad => Sys2Proof.Machine.execParityScrub bad s
  | .shadowMismatch r => Sys2Proof.Machine.execShadowMismatch r s
  | .vsAccessTimeout offset write => Sys2Proof.Machine.execVsAccessTimeout offset write s
  | .meshSample m => Sys2Proof.Machine.execMeshSample m s
  | .xtampSample input high => Sys2Proof.Machine.execXtampSample input high s
  | .tempSample dc => Sys2Proof.Machine.execTempSample dc s
  | .glitch supply mv => Sys2Proof.Machine.execGlitch supply mv s
  | .fiDelay sensor => Sys2Proof.Machine.execFiDelay sensor s
  | .vbatSample mv => Sys2Proof.Machine.execVbatSample mv s
  | .vbatCut mv => Sys2Proof.Machine.execVbatCut mv s
  | .cellPresenceCheck present => Sys2Proof.Machine.execCellPresenceCheck present s
  | .xtalFail => Sys2Proof.Machine.execXtalFail s
  | .xtalReturn => Sys2Proof.Machine.execXtalReturn s
  | .shadowCheck agree => Sys2Proof.Machine.execShadowCheck agree s
  | .chargerStep c => Sys2Proof.Machine.execChargerStep c s
  | .adaptiveSamplingUpdate => Sys2Proof.Machine.execAdaptiveSamplingUpdate s
  | .ageingUpdate => Sys2Proof.Machine.execAgeingUpdate s
  | .serviceWindowClose why mv present => Sys2Proof.Machine.execServiceWindowClose why mv present s
  | .supplySourceChange vchg => Sys2Proof.Machine.execSupplySourceChange vchg s
  | .watchOscillatorRecalibration count => Sys2Proof.Machine.execWatchOscillatorRecalibration count s
  | .meridianSlew => Sys2Proof.Machine.execMeridianSlew s
  | .vesperCheckpoint => Sys2Proof.Machine.execVesperCheckpoint s
  | .meridianSourceCheck ref osc cal => Sys2Proof.Machine.execMeridianSourceCheck ref osc cal s
  | .windowComplete src w => Sys2Proof.Machine.execWindowComplete src w s
  | .generateRequest => Sys2Proof.Machine.execGenerateRequest s
  | .reseedResume => Sys2Proof.Machine.execReseedResume s
  | .generatorRestart cause => Sys2Proof.Machine.execGeneratorRestart cause s
  | .maskGeneratorReseed g => Sys2Proof.Machine.execMaskGeneratorReseed g s
  | .pkJobStart core => Sys2Proof.Machine.execPkJobStart core s
  | .pkYieldPoint core => Sys2Proof.Machine.execPkYieldPoint core s
  | .pkFinishPoint core => Sys2Proof.Machine.execPkFinishPoint core s
  | .pkCoreFault core detail => Sys2Proof.Machine.execPkCoreFault core detail s
  | .pkCoreKatVerdict core pass => Sys2Proof.Machine.execPkCoreKatVerdict core pass s
  | .quiesceGrant block => Sys2Proof.Machine.execQuiesceGrant block s
  | .stallLimit st => Sys2Proof.Machine.execStallLimit st s
  | .controlStageDisagreement block stage retryAgrees pass1 pass2 => Sys2Proof.Machine.execControlStageDisagreement block stage retryAgrees pass1 pass2 s
  | .cuMismatch m => Sys2Proof.Machine.execCuMismatch m s
  | .cuResync pass us => Sys2Proof.Machine.execCuResync pass us s
  | .deviceFault seq => Sys2Proof.Machine.execDeviceFault seq s
  | .deviceFaultAction => Sys2Proof.Machine.execDeviceFaultAction s
  | .watchdog => Sys2Proof.Machine.execWatchdog s
  | .eventRecordWrite => Sys2Proof.Machine.execEventRecordWrite s
  | .rateWindowEnd => Sys2Proof.Machine.execRateWindowEnd s
  | .powerOnReset => Sys2Proof.Machine.execPowerOnReset s
  | .supplyLoss => Sys2Proof.Machine.execSupplyLoss s
  | .glitchArm => Sys2Proof.Machine.execGlitchArm s
  | .perstFall => Sys2Proof.Machine.execPerstFall s
  | .perstRise => Sys2Proof.Machine.execPerstRise s
  | .vesperStateRead => Sys2Proof.Machine.execVesperStateRead s
  | .mainDieSelfTest r => Sys2Proof.Machine.execMainDieSelfTest r s
  | .firmwareCheck r => Sys2Proof.Machine.execFirmwareCheck r s
  | .rootHandOff => Sys2Proof.Machine.execRootHandOff s
  | .firstSeeding => Sys2Proof.Machine.execFirstSeeding s
  | .slotsLoaded bad => Sys2Proof.Machine.execSlotsLoaded bad s
  | .queuesOpen => Sys2Proof.Machine.execQueuesOpen s
  | .discover r => Sys2Proof.Machine.execDiscover r s
  | .hello r => Sys2Proof.Machine.execHello r s
  | .auth r => Sys2Proof.Machine.execAuth r s
  | .request r => Sys2Proof.Machine.execRequest r s
  | .close r => Sys2Proof.Machine.execClose r s
  | .fragmentTimeout k => Sys2Proof.Machine.execFragmentTimeout k s
  | .authTimeout session => Sys2Proof.Machine.execAuthTimeout session s
  | .sessionIdleTimeout session => Sys2Proof.Machine.execSessionIdleTimeout session s
  | .plcaBeaconChange present => Sys2Proof.Machine.execPlcaBeaconChange present s
  | .challengeExpiry => Sys2Proof.Machine.execChallengeExpiry s
  | .continuationWindowExpiry => Sys2Proof.Machine.execContinuationWindowExpiry s
  | .debugAccess addr write v => Sys2Proof.Machine.execDebugAccess addr write v s
  | .debugHalt => Sys2Proof.Machine.execDebugHalt s
  | .refclkLoss => Sys2Proof.Machine.execRefclkLoss s
  | .refclkReturn => Sys2Proof.Machine.execRefclkReturn s
  | .wrappedStoreReload n okA okB => Sys2Proof.Machine.execWrappedStoreReload n okA okB s
  | .timeAdjustDone => Sys2Proof.Machine.execTimeAdjustDone s
  | .operatingConditionsChange within => Sys2Proof.Machine.execOperatingConditionsChange within s
  | .debugResume => Sys2Proof.Machine.execDebugResume s
  | .memorySpaceEnableClear f => Sys2Proof.Machine.execMemorySpaceEnableClear f s
  | .busMasterEnableSet f => Sys2Proof.Machine.execBusMasterEnableSet f s
  | .vesperSupplyRise => Sys2Proof.Machine.execVesperSupplyRise s

end Sys2Proof.Machine
end

