-- ==== Sys2Proof/Machine/Time.lean ====
section
/-!
DEFINITION. What an idle step does: one unit of time, 2^-24 s, passes on Meridian, on Vesper's calendar and on its life
counters (R18, R30, R31, R410, R412).
-/

namespace Sys2Proof.Machine

/-- The main die's Meridian counter advances: while it runs, and through a warm reset (R452). -/
def State.meridianAdvances (s : State) : Bool := s.clock.running || (decide (s.boot.phase = .held) && !s.boot.powerOn)

/-- Meridian after one unit, at the rate the slew towards the calendar gives it (R31): within 500 ppm of the source. -/
def tickMeridian (c : Clock) : Clock :=
  let t := 1000000 + c.slewAcc + max (-500) (min 500 c.slew)
  { c with meridian := c.meridian + (t / 1000000).toNat, slewAcc := t % 1000000 }

/-- What remains of time.adjust_ms moves the calendar by at most 200 ppm (R410). -/
def adjustStep (v : Vesper) : Int := max (-200000) (min 200000 v.adjust)

/-- Vesper's calendar after one unit of crystal time, with time.trim_ppb and the adjustment (R410). -/
def tickCalendar (trim : Int) (v : Vesper) : Vesper :=
  let t := 1000000000 + v.calAcc + trim + adjustStep v
  { v with calendar := v.calendar + (t / 1000000000).toNat, calAcc := t % 1000000000, adjust := v.adjust - adjustStep v }

/-- Vesper's two durations (R412). -/
def tickLife (v : Vesper) : Vesper :=
  { v with counts :=
      if v.vchg then { v.counts with powered := v.counts.powered + 1 } else { v.counts with battery := v.counts.battery + 1 } }

/-- time.trim_ppb. -/
def State.trimPpb (s : State) : Int := int32 (s.devParam 0x0200 4 0)

/-- One unit of time passes. -/
def tick (s : State) : State :=
  { s with
    clock := if s.meridianAdvances then tickMeridian s.clock else s.clock
    vesper := tickLife (tickCalendar s.trimPpb s.vesper) }

end Sys2Proof.Machine
end

