-- ==== Sys2Proof/Safety.lean ====
section
/-!
DEFINITION. What counts as a safe run, and the comparisons of two states that claims are stated with: a step that goes
on, a command that answers a state with a property, and two states that differ at most in what recording, error bits
and interrupts touch.
-/

namespace Sys2Proof.Safety

open Sys2Proof.Machine

/-- The step goes on. -/
def Goes (s : State) : Prop := ∃ t, step s = .next t

/-- Command `i` answers a next state, and that state has property `P`. -/
def Answers (i : Instr) (s : State) (P : State → Prop) : Prop := ∃ t, exec i s = .next t ∧ P t

/-- A function without what status events, interrupts and AER write. -/
def stillFn (g : Fn) : Fn := { g with event := 0, vecs := [], cfg := { g.cfg with uncor := [], cor := [], firstErr := 0, header := [] } }

/-- A state without what recording, error bits, status events, interrupts and the condition report write. -/
def still (s : State) : State :=
  { s with
    fns := []
    out := []
    evr := { s.evr with queue := [], window := 0, counts := [], suppressed := [] }
    regs := { s.regs with err := [], dsrcPend := 0 }
    dict := { s.dict with counters := [] }
    red := { s.red with conditions := 0 }
    boot := { s.boot with escalated := none } }

/-- `t` differs from `s` at most in what signalling writes: records, counters, error bits, device sources, status
events, vectors with their messages, AER bits, and the conditions last reported. Jobs, queues, keys, memory, life-cycle,
Vesper and everything else are the same. -/
def Quiet (s t : State) : Prop := still t = still s ∧ ∀ f, stillFn (t.fn f) = stillFn (s.fn f)

/-- The admin command of job `j` completes with `d`, the state being `u` but for signals. -/
def Completes (i : Instr) (s : State) (j : Job) (d : Done) (u : State) : Prop :=
  Answers i s (Quiet (decideJob j.ref d u))

/-- Host memory and control RAM are in canonical form. -/
abbrev Tidy (s : State) : Prop := Memory.wf s.mem = true ∧ Memory.wf s.cram = true

end Sys2Proof.Safety
end

