-- ==== Sys2Proof/Certificates/Slice0/Obligations.lean ====
section
/-!
DEFINITION. The statements for the provers. A statement about a command says that it answers a next state and what that
state holds, under hypotheses on the state and the operands alone; `Quiet u t` says that `t` is `u` but for signals.
-/

open Sys2Proof Sys2Proof.Machine Sys2Proof.Safety

/-! ## The queue of commands -/

/-- A step takes the command at the front of the queue and runs it with the queue's rest (the model's own convention;
log entry 1). -/
def Obligations.StepRunsFrontCommand : Prop :=
  ∀ (c : Instr) (rest : List Instr) (s : State),
    step { s with pending := c :: rest } = exec c { s with pending := rest }

/-- A step on an empty queue is the passing of time (the model's own convention; log entry 1): Meridian and the
calendar move, and what the host and the jobs hold does not. -/
def Obligations.EmptyQueueOnlyPassesTime : Prop :=
  ∀ s : State, s.pending = [] → ∃ t, step s = .next t ∧ t.pending = [] ∧ t.jobs = s.jobs ∧ t.fns = s.fns ∧
    t.mem = s.mem ∧ t.store = s.store ∧ t.life = s.life ∧ s.clock.meridian ≤ t.clock.meridian

/-- No command ends in a fault or a refusal: each of them answers a next state, from every state. -/
def Obligations.NoCommandStops : Prop :=
  ∀ (c : Instr) (s : State), ∃ t, exec c s = .next t

/-- The state after reset: what the manual gives (R6, R219, R285, R315, R371, R436): a factory device that holds before
start-up, no key, no queue, nothing recorded, the engine disabled, the gate rules not locked; and no command waits. -/
def Obligations.ResetStateOfTheManual : Prop :=
  State.reset.life.lc = .factory ∧ State.reset.life.root = [] ∧ State.reset.boot.phase = .held ∧
  State.reset.regs.fetchEn = false ∧ State.reset.regs.dispatchEn = false ∧ State.reset.regs.rulesLock = false ∧
  State.reset.rng.seeded = false ∧ State.reset.evr.queue = [] ∧ State.reset.jobs = [] ∧ State.reset.pending = [] ∧
  (∀ n, (State.reset.slot n).st = .empty) ∧ (∀ f q, State.reset.jq? f q = none ∧ State.reset.cq? f q = none) ∧
  (∀ f, 0 < f → (State.reset.fn f).run = .unallocated)

/-! ## Memory -/

/-- Host memory and control RAM are in canonical form at reset. -/
def Obligations.ResetIsTidy : Prop := Tidy State.reset

/-- Every step keeps host memory and control RAM in canonical form, from every state. -/
def Obligations.StepKeepsTidy : Prop := ∀ s t : State, Tidy s → step s = .next t → Tidy t

/-- What a posted write of a function without dirty-page logging does to memory (R147, R150): the bytes at the address
read back as written, and every byte elsewhere is unchanged. -/
def Obligations.HostWriteStoresItsBytes : Prop :=
  ∀ (s : State) (f a : Nat) (b : Bytes), Tidy s → (s.fn f).log = none →
    (hostWrite f a b s).hostRead f a b.length = b ∧
    ∀ k, (k < hostKey f a ∨ hostKey f a + b.length ≤ k) → Memory.get (hostWrite f a b s).mem k = Memory.get s.mem k

/-! ## Ring indices (R118, R119) -/

/-- A refused index write of queue `q` of function `f` is recorded as DB_REFUSED, `cq` being 1 for a completion queue (R441),
as long as the recorder runs and the code's rate and the pending records leave it room (R374, R438, R439). -/
abbrev RefusalRecorded (f q : Nat) (v : Word) (cq : Nat) (s t : State) : Prop :=
  s.worlds.halted = false → s.clock.running = true → (rollWindow s).evr.counts.getD 0x0201 0 < s.param 0x5200 3 64 →
    (rollWindow s).evr.queue.length < 256 →
    t.evr.queue = (rollWindow s).evr.queue ++
      [{ time := s.now, code := 0x0201, level := 0, p0 := f % 2 ^ 32, p1 := q, p2 := v.toNat, p3 := cq }]

/-- R118: a write of FN_JQ_PI is accepted only when (PI − CI) ≤ (v − CI) ≤ 2^N; what an accepted one leaves; a refused one
is discarded, sets the queue's bit of FN_QERR, is recorded, and leaves the queue as it was; a write of the current PI, and
one to a queue that is being drained, have no effect. -/
def Obligations.DoorbellAcceptance : Prop :=
  (∀ (s : State) (f q : Nat) (v : Word) (x : JobQueue), s.pageOpen f = true → s.jq? f q = some x → q < 64 →
    x.st ≠ .draining → v ≠ x.pi →
    if (x.pi - x.ci).toNat ≤ (v - x.ci).toNat ∧ (v - x.ci).toNat ≤ 2 ^ x.log2 then
      Answers (.fnJqPiWrite f q v) s fun t =>
        (t.jq? f q).map (·.pi) = some v ∧ (t.jq? f q).map (·.ci) = some x.ci ∧
        t.jobs = s.jobs ∧ t.mem = s.mem ∧ t.evr = s.evr ∧ (∀ k c, t.cq? k c = s.cq? k c) ∧
        (∀ k p, k ≠ f ∨ p ≠ q → t.jq? k p = s.jq? k p)
    else
      Answers (.fnJqPiWrite f q v) s fun t =>
        t.jq? f q = some x ∧ t.jobs = s.jobs ∧ t.mem = s.mem ∧ t.store = s.store ∧ (∀ k c, t.cq? k c = s.cq? k c) ∧
        (∀ k p, t.jq? k p = s.jq? k p) ∧ RefusalRecorded f q v 0 s t ∧
        (if q < 32 then (t.fn f).qerr0.getLsbD q = true else (t.fn f).qerr1.getLsbD (q - 32) = true)) ∧
  (∀ (s : State) (f q : Nat) (v : Word) (x : JobQueue), s.pageOpen f = true → s.jq? f q = some x →
    (x.st = .draining ∨ v = x.pi) → exec (.fnJqPiWrite f q v) s = .next s)

/-- R119: a write of v to FN_CQ_CI is accepted only when (v − CI) ≤ (PI − CI): the queue then has its new CI, and, while a
disable of the admin pair waits for records, that disable goes on; nothing else but signals changes. Any other write is
discarded, sets bit n of FN_QERR and FN_EVENT.QERR, is recorded as DB_REFUSED with P3 1, and leaves the queue as it was. -/
def Obligations.ConsumerIndexAcceptance : Prop :=
  ∀ (s : State) (f q : Nat) (v : Word) (x : CompQueue), s.pageOpen f = true → s.cq? f q = some x → q < 64 →
    if (v - x.ci).toNat ≤ (x.pi - x.ci).toNat then
      Answers (.fnCqCiWrite f q v) s (Quiet (disableStep f (setCq f q { x with ci := v } s))) ∧
      ((s.fn f).aqBusy = false → Answers (.fnCqCiWrite f q v) s fun t =>
        t.cq? f q = some { x with ci := v } ∧ t.jobs = s.jobs ∧ t.mem = s.mem ∧
        (∀ k p, t.jq? k p = s.jq? k p) ∧ (∀ k c, k ≠ f ∨ c ≠ q → t.cq? k c = s.cq? k c))
    else
      Answers (.fnCqCiWrite f q v) s fun t =>
        t.cq? f q = some x ∧ t.jobs = s.jobs ∧ t.mem = s.mem ∧ (∀ k p, t.jq? k p = s.jq? k p) ∧
        (∀ k c, t.cq? k c = s.cq? k c) ∧ RefusalRecorded f q v 1 s t ∧ (t.fn f).event.getLsbD 0 = true ∧
        (if q < 32 then (t.fn f).qerr0.getLsbD q = true else (t.fn f).qerr1.getLsbD (q - 32) = true)

/-! ## Fetching, refusals, completions (chapter 4) -/

/-- The queue engine's turn is queue `q` of function `f` (R131): urgent queues first, then admin queues, then the rest. -/
abbrev FetchTurn (s : State) (f q : Nat) : Prop :=
  (q < 64 ∧ (urgentTurn s).head? = some (f * 64 + q)) ∨
  (urgentTurn s = [] ∧ q = 0 ∧ (adminTurn s).head? = some f) ∨
  (urgentTurn s = [] ∧ adminTurn s = [] ∧ (plainTurn s).head? = some f ∧
    (rotateAfter (s.fn f).turnQ (plainQueues s f)).head? = some q)

/-- ENTRY_FETCH takes the next entry of the queue whose turn it is as a job, reserves a record for it in the bound
completion queue, and writes no memory and no record (R126, R131, R137): a job of an admin queue is with the firmware at
once, another is in run-ahead. -/
def Obligations.EntryFetchTakesAJob : Prop :=
  ∀ (s : State) (f q : Nat) (x : JobQueue) (c : CompQueue), FetchTurn s f q → s.jq? f q = some x →
    s.cq? f x.cq = some c → ¬ ((nextEntry f q x s).1 = none ∧ opOf (s.hostRead f (x.slotAt x.next) 64) = Op.pad) →
    Answers .entryFetch s fun t =>
      (∃ j, t.jobs = s.jobs ++ [j] ∧ j.ref = { fn := f, jq := q, index := x.next } ∧
        j.entry = s.hostRead f (x.slotAt x.next) (64 * (nextEntry f q x s).2.1) ∧ j.header = (nextEntry f q x s).1 ∧
        j.atTime = s.now ∧ j.outcome = none ∧ (j.committed = true ↔ q = 0)) ∧
      t.cq? f x.cq = some { c with reserved := c.reserved + 1 } ∧ t.mem = s.mem ∧ t.store = s.store ∧ t.evr = s.evr

/-- R121, R122, R132: a PAD is passed with no job, no record and no memory write, FN_JQ_CI moving past it when it is the
oldest entry; a NOP that may be committed completes with OK; an entry that fails its commitment checks completes with
the first failing check's status, and charges no slot. -/
def Obligations.PadNopAndRefusal : Prop :=
  (∀ (s : State) (f q : Nat) (x : JobQueue), canFetch s f q = true → s.jq? f q = some x → nextIsPad f q x s = true →
    Answers (.pad f q) s fun t =>
      t.jobs = s.jobs ∧ t.mem = s.mem ∧ (∀ k c, t.cq? k c = s.cq? k c) ∧ t.evr = s.evr ∧
      (x.entries = [] → (t.jq? f q).map (·.ci) = some (x.ci + BitVec.ofNat 32 (nextEntry f q x s).2.1))) ∧
  (∀ (s : State) (r : JobRef) (j : Job), s.job? r = some j → j.op = Op.nop → j.header = none → mayCommit s j = true →
    s.earlierCommitted j = true → s.regs.dispatchEn = true →
    Answers (.nop r) s fun t =>
      t.job? r = some { j with stage := .committed, outcome := some { status := 0x00 } } ∧
      (∀ k, k ≠ r → t.job? k = s.job? k) ∧ t.fns = s.fns ∧ t.mem = s.mem ∧ t.store = s.store ∧ t.evr = s.evr) ∧
  (∀ (s : State) (r : JobRef) (j : Job) (d : Done), s.job? r = some j → r.jq ≠ 0 → mayCommit s j = true →
    s.earlierCommitted j = true → s.regs.dispatchEn = true →
    (j.header = some d ∨ (j.header = none ∧ jobCheck s r.fn j.entry = some d)) →
    Answers (.commitRefusal r) s fun t =>
      t.job? r = some { j with stage := .committed, outcome := some d } ∧ (∀ k, k ≠ r → t.job? k = s.job? k) ∧
      t.fns = s.fns ∧ t.mem = s.mem ∧ t.store = s.store ∧ t.evr = s.evr)

/-- JOB_COMPLETION (R125, R127, R129, R135): a job whose record is not a drain's to issue leaves the table, its completion
queue's producer index moves by one, its reservation is used, and the mirror covers the record unless more records follow at once. R124, R114: the
record lies in the ring at the producer index, in the layout of R124 (the mirror lies elsewhere, as R140 makes sure,
and the function's pages are not logged). R127, R173: a mirror falls due 1 µs after the first record it does not
cover, and then shows the producer index; a vector whose moderation conditions hold and that may be sent leaves as a
message, its counts cleared. R88: a FLIT that meets a third mismatch in a row on its way out is a device fault. -/
def Obligations.CompletionsReachTheRing : Prop :=
  (∀ (s : State) (r : JobRef) (j : Job) (d : Done) (c : CompQueue) (more : Bool) (resent : Nat), s.job? r = some j →
    j.outcome = some d → j.silent = false → r.jq ≠ subQueue → resent < 3 → s.cq? r.fn (s.cqOf r) = some c →
    Answers (.jobCompletion r more resent) s fun t =>
      t.job? r = none ∧
      ∃ c', t.cq? r.fn (s.cqOf r) = some c' ∧ c'.pi = c.pi + 1 ∧ c'.ci = c.ci ∧ c'.reserved = c.reserved - 1 ∧
        (more = false → c'.covered = c'.pi)) ∧
  (∀ (s : State) (r : JobRef) (j : Job) (d : Done) (more : Bool) (resent : Nat), s.job? r = some j →
    j.outcome = some d → j.silent = false → 3 ≤ resent →
    Answers (.jobCompletion r more resent) s fun t =>
      t.boot.escalated.isSome = true ∧ t.jobs = s.jobs ∧ t.mem = s.mem ∧ ∀ f c, t.cq? f c = s.cq? f c) ∧
  (∀ (s : State) (f c : Nat) (q : CompQueue) (b : Bytes) (irqNow : Bool), Tidy s → s.cq? f c = some q → b.length = 32 →
    (s.fn f).log = none → q.recAt q.pi + 32 ≤ 2 ^ 64 → q.mirror + 4 ≤ 2 ^ 64 →
    (q.mirror + 4 ≤ q.recAt q.pi ∨ q.recAt q.pi + 32 ≤ q.mirror) →
    (issueRecord f c b true irqNow s).hostRead f (q.ring + (q.pi.toNat % 2 ^ q.log2) * 32) 32 = b) ∧
  (∀ (s : State) (f c resent : Nat) (q : CompQueue), Tidy s → s.cq? f c = some q → q.pi ≠ q.covered →
    elapsedUs s.now q.firstAt 1 = true → (s.fn f).run ≠ .d3hot → (s.fn f).run ≠ .resetting → resent < 3 →
    Answers (.mirrorWrite f c resent) s fun t =>
      t.cq? f c = some { q with covered := q.pi, irqNow := false } ∧ t.jobs = s.jobs ∧
      ((s.fn f).log = none → q.mirror + 4 ≤ 2 ^ 64 → t.hostRead f q.mirror 4 = Bytes.ofLE 4 q.pi.toNat ∧
        ∀ k, (k < hostKey f q.mirror ∨ hostKey f q.mirror + 4 ≤ k) → Memory.get t.mem k = Memory.get s.mem k)) ∧
  (∀ (s : State) (f v : Nat), vecDue (s.fn f) ((s.fn f).vec v) s.now = true →
    vecMaySend (s.fn f) ((s.fn f).vec v) = true →
    Answers (.moderationTimer f v) s fun t =>
      t.out = .msix f v ((s.fn f).vec v).addr ((s.fn f).vec v).data :: s.out ∧
      (t.fn f).vec v = { (s.fn f).vec v with pending := false, n := 0, due := false, pba := false } ∧ Quiet s t)

/-- JOB_TIMEOUT (R133, R134, R273): an expired job whose claim nothing else has and whose completion is open. On a core it is
stopped at its next yield point with TIMEOUT; with reads outstanding on a pair it leaves the pair, its context is erased and
its record waits for them; otherwise it leaves the table with its record. -/
def Obligations.TimeoutEndsTheJob : Prop :=
  ∀ (s : State) (r : JobRef) (j : Job), s.job? r = some j → r.jq ≠ 0 → expired s j = true →
    (s.fn r.fn).run ≠ .resetting → j.claim = false → j.ended = false → j.outcome = none →
    let d : Done := { status := 0x12, detail := if j.committed then 0x02 else 0x01 }
    if onCore r s then
      j.stop = none → Answers (.jobTimeout r) s fun t =>
        t.job? r = some { j with stop := some d } ∧ t.mem = s.mem ∧ ∀ k c, t.cq? k c = s.cq? k c
    else if awaits j d then
      Answers (.jobTimeout r) s fun t => (∀ p, r ∉ (t.pair p).jobs) ∧
        t.job? r = some { eraseContext j with
          ended := true, stop := some (j.stop.getD d), hold := 0, gen := 0, engine := .none_ }
    else Answers (.jobTimeout r) s fun t => t.job? r = none

/-! ## Queue commands -/

/-- Nothing but queue `q` of function `f`, whose state was `x`, the mirror of its completion queue and the command's own job
differs, but for signals. -/
abbrev MirrorFrame (f q : Nat) (x : JobQueue) (s t : State) : Prop :=
  t.mem = (writeMirror f x.cq s).mem ∧ t.store = s.store ∧ t.life = s.life ∧ (∀ r, r.jq ≠ 0 → t.job? r = s.job? r) ∧
  ∀ k p, k ≠ f ∨ p ≠ q → t.jq? k p = s.jq? k p

/-- The drain of the queue `x` that command `j` names has begun: no record is issued yet, the indices stand, other queues are
as before, and the command waits. -/
abbrev DrainBegun (f : Nat) (j : Job) (x : JobQueue) (s t : State) : Prop :=
  (t.jq? f (j.entry.at_ 0x10).toNat).map (fun y => (y.st, y.pi, y.ci)) = some (.draining, x.pi, x.ci) ∧
  (t.job? j.ref).map (fun k => (k.phase, k.outcome)) = some (1, none) ∧ t.life = s.life ∧
  (∀ k c, t.cq? k c = s.cq? k c) ∧ ∀ k p, k ≠ f ∨ p ≠ (j.entry.at_ 0x10).toNat → t.jq? k p = s.jq? k p

/-- R139, R140, R142: CREATE_JQ, CREATE_CQ and DESTROY_CQ whose checks all pass complete with OK; the queue stands as
its body describes it, its indices 0, or is gone; nothing else but signals changes. R141: DESTROY_JQ and RESET_JQ of
a queue with nothing unfetched and no job, whose checks pass, complete with OK at once: the queue is gone, or is
ACTIVE with FN_JQ_CI at FN_JQ_PI. Of a queue that holds entries not fetched yet the drain begins, and the command waits. -/
def Obligations.QueueCommands : Prop :=
  (∀ (s : State) (f : Nat) (j : Job), s.admin? f Op.createJq = some j → firstFail (createJqRows (s.fn f) j.entry) = none →
    Completes (.createJq f) s j { status := 0x00 } (setJq f (j.entry.at_ 0x10).toNat (newJq j.entry) s) ∧
    Answers (.createJq f) s fun t => ∃ x, t.jq? f (j.entry.at_ 0x10).toNat = some x ∧ x.ring = j.entry.leAt 0x18 8 ∧
      x.log2 = (j.entry.at_ 0x11).toNat ∧ x.pi = 0 ∧ x.ci = 0 ∧ x.st = .active ∧ x.ring % 4096 = 0) ∧
  (∀ (s : State) (f : Nat) (j : Job), s.admin? f Op.createCq = some j → firstFail (createCqRows (s.fn f) j.entry) = none →
    Completes (.createCq f) s j { status := 0x00 } (setCq f (j.entry.at_ 0x10).toNat (newCq j.entry) s) ∧
    Answers (.createCq f) s fun t => ∃ x, t.cq? f (j.entry.at_ 0x10).toNat = some x ∧ x.ring = j.entry.leAt 0x18 8 ∧
      x.mirror = j.entry.leAt 0x20 8 ∧ x.pi = 0 ∧ x.ci = 0 ∧ x.ring % 4096 = 0 ∧ x.mirror % 4 = 0) ∧
  (∀ (s : State) (f : Nat) (j : Job), s.admin? f Op.destroyCq = some j → firstFail (destroyCqRows (s.fn f) j.entry) = none →
    Completes (.destroyCq f) s j { status := 0x00 }
      (modFn f (fun g => { g with cqs := g.cqs.erase (j.entry.at_ 0x10).toNat }) s) ∧
    Answers (.destroyCq f) s fun t => t.cq? f (j.entry.at_ 0x10).toNat = none) ∧
  (∀ (s : State) (f : Nat) (j : Job) (x : JobQueue), s.admin? f Op.destroyJq = some j → j.phase = 0 →
    firstFail (drainRows (s.fn f) j.entry) = none → s.jq? f (j.entry.at_ 0x10).toNat = some x → x.ci = x.pi →
    x.entries = [] → (∀ k ∈ s.jobs, k.ref.fn = f → k.ref.jq ≠ (j.entry.at_ 0x10).toNat) →
    Answers (.destroyJq f) s fun t => t.jq? f (j.entry.at_ 0x10).toNat = none ∧
      (t.job? j.ref).map (·.outcome) = some (some { status := 0x00 }) ∧ MirrorFrame f (j.entry.at_ 0x10).toNat x s t) ∧
  (∀ (s : State) (f : Nat) (j : Job) (x : JobQueue), s.admin? f Op.resetJq = some j → j.phase = 0 →
    firstFail (drainRows (s.fn f) j.entry) = none → s.jq? f (j.entry.at_ 0x10).toNat = some x → x.ci = x.pi →
    x.entries = [] → (∀ k ∈ s.jobs, k.ref.fn = f → k.ref.jq ≠ (j.entry.at_ 0x10).toNat) →
    Answers (.resetJq f) s fun t => (∃ y, t.jq? f (j.entry.at_ 0x10).toNat = some y ∧ y.st = .active ∧ y.ci = y.pi ∧ y.pi = x.pi) ∧
      (t.job? j.ref).map (·.outcome) = some (some { status := 0x00 }) ∧ MirrorFrame f (j.entry.at_ 0x10).toNat x s t) ∧
  (∀ (s : State) (f : Nat) (j : Job) (x : JobQueue), s.admin? f Op.destroyJq = some j → s.job? j.ref = some j → j.phase = 0 →
    firstFail (drainRows (s.fn f) j.entry) = none → s.jq? f (j.entry.at_ 0x10).toNat = some x → x.next ≠ x.pi →
    Answers (.destroyJq f) s (DrainBegun f j x s)) ∧
  (∀ (s : State) (f : Nat) (j : Job) (x : JobQueue), s.admin? f Op.resetJq = some j → s.job? j.ref = some j → j.phase = 0 →
    firstFail (drainRows (s.fn f) j.entry) = none → s.jq? f (j.entry.at_ 0x10).toNat = some x → x.next ≠ x.pi →
    Answers (.resetJq f) s (DrainBegun f j x s))

/-- R138: a write of FN_AQ_CFG with ENABLE = 1 creates the admin pair with all four indices 0, or, where the fields are
refused, sets AQ_ERR alone; a write with ENABLE = 0 of an enabled pair whose queues are empty ends with the pair gone. -/
def Obligations.AdminQueueEnableAndDisable : Prop :=
  (∀ (s : State) (f : Nat) (v : Word), aqReach s f = true → v.getLsbD 31 = true → (s.fn f).aqBusy = false →
    (s.fn f).aqOn = false →
    if aqRefused (aqFields v (s.fn f)) then
      Answers (.adminQueueEnable f v) s fun t => (t.fn f).aqErr = true ∧ (t.fn f).aqOn = false ∧
        (∀ k p, t.jq? k p = s.jq? k p) ∧ (∀ k c, t.cq? k c = s.cq? k c) ∧ t.jobs = s.jobs ∧ t.mem = s.mem
    else
      Answers (.adminQueueEnable f v) s fun t => (t.fn f).aqOn = true ∧
        (∃ x, t.jq? f 0 = some x ∧ x.pi = 0 ∧ x.ci = 0 ∧ x.ring = (s.fn f).aqJq ∧ x.log2 = bitsOf v.toNat 4 0) ∧
        (∃ c, t.cq? f 0 = some c ∧ c.pi = 0 ∧ c.ci = 0 ∧ c.ring = (s.fn f).aqCq ∧ c.log2 = bitsOf v.toNat 12 8) ∧
        (∀ k p, k ≠ f ∨ p ≠ 0 → t.jq? k p = s.jq? k p) ∧ t.jobs = s.jobs ∧ t.mem = s.mem) ∧
  (∀ (s : State) (f : Nat) (v : Word) (x : JobQueue), s.pageOpen f = true → v.getLsbD 31 = false →
    (s.fn f).aqBusy = false → (s.fn f).aqOn = true → (s.fn f).jqs = [(0, x)] → x.ci = x.pi → x.entries = [] →
    (∀ k ∈ s.jobs, k.ref.fn = f → k.ref.jq ≠ 0) →
    Answers (.adminQueueDisable f v) s fun t => (t.fn f).aqOn = false ∧ (t.fn f).aqBusy = false ∧
      t.jq? f 0 = none ∧ t.cq? f 0 = none)

/-! ## DMA reads -/

/-- R25, R146, R150, R158: a successful completion of a job's reads puts what was read in the staging of both sides, and the
job goes on. A failed one, or a timeout while Completion Timeout Disable is clear, sets the AER status of its function:
detail 1 for a timeout, 2 for an abort or unsupported request, 4 for poisoned data. It ends an admin command with
DMA_ERROR, a job that nothing else holds with its record, and a failed read of ring slots makes the queue FAILED. (A
function whose admin pair is being disabled goes on with that disable besides, and is left out here.) -/
def Obligations.ReadsArriveOrFail : Prop :=
  (∀ (s : State) (r : JobRef) (j : Job), s.job? r = some j → j.reads = .outstanding → j.outcome = none → j.ended = false →
    (s.fn r.fn).aqBusy = false →
    Answers (.dmaReadCompletion (.job r) .ok) s fun t => Quiet (readsArrive j s) t ∧
      t.job? r = some { j with reads := .arrived, inA := landed j s, inB := landed j s } ∧
      (∀ k, k ≠ r → t.job? k = s.job? k) ∧ t.mem = s.mem) ∧
  (∀ (s : State) (r : JobRef) (j : Job) (st : ReadStatus) (d aer : Nat), s.job? r = some j → j.reads = .outstanding →
    j.outcome = none → j.ended = false → readFault st = some (d, aer) → (s.fn r.fn).aqBusy = false →
    (r.jq = 0 → Answers (.dmaReadCompletion (.job r) st) s fun t =>
      t.job? r = some { j with outcome := some { status := 0x23, detail := d } } ∧ aer ∈ (t.fn r.fn).cfg.uncor ∧
      t.mem = s.mem) ∧
    (r.jq ≠ 0 → j.claim = false → j.silent = false → (s.fn r.fn).run ≠ .resetting → onCore r s = false →
      Answers (.dmaReadCompletion (.job r) st) s fun t => t.job? r = none ∧ aer ∈ (t.fn r.fn).cfg.uncor)) ∧
  (∀ (s : State) (r : JobRef) (j : Job), s.job? r = some j → j.reads = .outstanding → j.outcome = none → j.ended = false →
    (s.fn r.fn).aqBusy = false → ((s.fn 0).cfg.regs.getD 0x98 0).testBit 4 = false → r.jq = 0 →
    Answers (.completionTimeout (.job r)) s fun t =>
      t.job? r = some { j with outcome := some { status := 0x23, detail := 1 } } ∧ 14 ∈ (t.fn r.fn).cfg.uncor ∧
      t.mem = s.mem) ∧
  (∀ (s : State) (f q : Nat) (x : JobQueue) (st : ReadStatus) (d aer : Nat), s.jq? f q = some x → x.st = .active →
    x.next ≠ x.pi → q < 64 → readFault st = some (d, aer) → (s.fn f).aqBusy = false →
    Answers (.dmaReadCompletion (.ring f q) st) s fun t => t.jq? f q = some { x with st := .failed } ∧
      aer ∈ (t.fn f).cfg.uncor ∧ (if q < 32 then (t.fn f).qerr0.getLsbD q = true else (t.fn f).qerr1.getLsbD (q - 32) = true) ∧
      t.jobs = s.jobs ∧ t.mem = s.mem)

/-! ## Sealed fragments, checks and RAW (chapter 2) -/

/-- R33, R45, R50: what SEAL writes, UNSEAL opens: for every AES-256 key, tenant, generation, epoch, salt, entry, plaintext and
tenant additional data, the header of the fragment is well-formed and names the length, the tag verdict is a match, and
the plaintext comes back. -/
def Obligations.SealThenUnseal : Prop :=
  ∀ (key : Bytes) (tenant epoch gen : Nat) (salt e plain aad : Bytes), key.length = 32 → plain.length ≤ maxLen →
    salt.length = 8 →
    let frag := sealFragment key tenant epoch gen salt e plain aad
    let h : Bytes := frag.take 64
    frag.length = plain.length + 64 ∧ headerWf h = true ∧ Bytes.leAt h 8 4 = plain.length ∧
      unsealVerdict key tenant h aad (frag.drop 64) = true ∧ unsealText key tenant h (frag.drop 64) = plain

/-- Every byte of host memory but the `n` of function `f` from address `a` on is as before. -/
abbrev OnlyWrites (f a n : Nat) (s t : State) : Prop :=
  ∀ k, (k < hostKey f a ∨ hostKey f a + n ≤ k) → Memory.get t.mem k = Memory.get s.mem k

/-- A cipher job changes no slot, pair, queue or function but through the signals its outbound FLITs can make. -/
abbrev CipherFrame (s t : State) : Prop :=
  t.store = s.store ∧ t.life = s.life ∧ t.fab.pairs = s.fab.pairs ∧ t.cram = s.cram ∧ (∀ f q, t.jq? f q = s.jq? f q) ∧
    ∀ f c, t.cq? f c = s.cq? f c

/-- R45: a SEAL whose data has arrived, at the egress of a pair whose two sides hold the same key and data, writes the
fragment at its destination and completes with OK, or OK_RETRIED after more than one attempt; no other byte of memory, no
slot, queue or other job changes. `resent` counts mismatches on its outbound FLITs, fewer than three in a row (R88). -/
def Obligations.SealCompletes : Prop :=
  ∀ (s : State) (r : JobRef) (j : Job) (resent : Nat), running s r Op.seal = some j → lanesDiffer j = false → resent < 3 →
    Tidy s → (s.fn r.fn).log = none →
    Answers (.seal r resent) s fun t =>
      t.job? r = some { j with outcome := some { status := if j.attempts > 1 ∨ j.restarts > 0 then 0x01 else 0x00 } } ∧
      (∀ k, k ≠ r → t.job? k = s.job? k) ∧
      t.hostRead r.fn (dstOf j.entry) ((jobSrc j).length + 64) =
        sealFragment j.keyA.clear j.tenant j.epoch j.gen j.salt j.entry (jobSrc j) (jobAad j) ∧
      OnlyWrites r.fn (dstOf j.entry) ((jobSrc j).length + 64) s t ∧ CipherFrame s t

/-- R49, R50, R51, R53, R55: an UNSEAL whose data has arrived, at the egress of a pair whose two sides hold the same key and
data. A refused header leaves zeros where an earlier attempt had written, and completes with the refusal; a tag match
writes the plaintext; a mismatch gives TAG_MISMATCH, and leaves zeros in provisional mode wherever this attempt or an
earlier one wrote, and in hold mode wherever an earlier one did. Each names what it may write, and no other byte of
memory, no slot, queue or other job changes. -/
def Obligations.UnsealVerdicts : Prop :=
  ∀ (s : State) (r : JobRef) (j : Job) (resent : Nat), running s r Op.unseal = some j → lanesDiffer j = false → resent < 3 →
    Tidy s → (s.fn r.fn).log = none →
    let h := (jobSrc j).take 64
    let ct := (jobSrc j).drop 64
    let text := unsealText j.keyA.clear j.tenant h ct
    let good := unsealVerdict j.keyA.clear j.tenant h (jobAad j) ct
    let ends (d : Done) (n : Nat) (t : State) : Prop :=
      t.job? r = some { j with outcome := some d, hold := 0, written := n } ∧ (∀ k, k ≠ r → t.job? k = s.job? k) ∧ CipherFrame s t
    let zeroed (n : Nat) (t : State) : Prop :=
      t.hostRead r.fn (dstOf j.entry) n = Bytes.zeros n ∧ OnlyWrites r.fn (dstOf j.entry) n s t
    (∀ d, headerRefusal j.entry h j.epoch = some d →
      Answers (.unseal r resent) s fun t => ends d 0 t ∧ zeroed j.written t) ∧
    (headerRefusal j.entry h j.epoch = none → good = true →
      Answers (.unseal r resent) s fun t =>
        ends { status := okStatus j, detail := identityBits j.entry h } text.length t ∧
        t.hostRead r.fn (dstOf j.entry) text.length = text ∧ OnlyWrites r.fn (dstOf j.entry) text.length s t) ∧
    (headerRefusal j.entry h j.epoch = none → good = false →
      Answers (.unseal r resent) s fun t =>
        ends { status := 0x30, detail := identityBits j.entry h } 0 t ∧
        zeroed (if j.hold = 0 then max j.written text.length else j.written) t)

/-- Cipher command `i` ends job `j` with `d`, having changed memory by `w` alone: what else differs is what the outbound
FLITs' mismatches signal and what the mask generators of the pair's cluster have served (R83, R88). -/
abbrev CipherEnds (i : Instr) (s : State) (resent : Nat) (j : Job) (d : Done) (w : State → State) : Prop :=
  Answers i s (Quiet (serveLanes j.pair (decideJob j.ref d (w (txMismatches resent s)))))

/-- R59, R62: CHECK_GEN writes its 16-byte check value; CHECK_VERIFY writes nothing and says whether the check value in
its entry is the data's. R63 to R66: RAW_ENCRYPT and RAW_DECRYPT write the mode's output, and NEXT_IV where the
entry asks for it, and complete; and in the counter mode, and in OFB and CFB, decryption undoes encryption. -/
def Obligations.ChecksAndRawComplete : Prop :=
  (∀ (s : State) (r : JobRef) (j : Job) (resent : Nat), running s r Op.checkGen = some j → lanesDiffer j = false → resent < 3 →
    CipherEnds (.checkGen r resent) s resent j { status := okStatus j }
      (hostWrite r.fn (dstOf j.entry) (checkValue j.keyA.clear j.entry (jobSrc j)))) ∧
  (∀ (s : State) (r : JobRef) (j : Job), running s r Op.checkVerify = some j → lanesDiffer j = false →
    CipherEnds (.checkVerify r) s 0 j
      { status := if checkValue j.keyA.clear j.entry (jobSrc j) = j.entry.slice 0x40 16 then okStatus j else 0x31 } id) ∧
  (∀ (s : State) (i : Instr) (r : JobRef) (j : Job) (resent op : Nat), running s r op = some j → lanesDiffer j = false →
    resent < 3 → (i = .rawEncrypt r resent ∧ op = Op.rawEncrypt ∨ i = .rawDecrypt r resent ∧ op = Op.rawDecrypt) →
    let out := rawOutput j.keyA.clear j.entry (jobSrc j)
    CipherEnds i s resent j { status := okStatus j } fun u =>
      let v := hostWrite r.fn (dstOf j.entry) out u
      if nextIvOf j.entry = 0 then v
      else hostWrite r.fn (nextIvOf j.entry) (rawNextIv j.entry (jobSrc j) out) v) ∧
  ∀ key iv src : Bytes, (key.length = 16 ∨ key.length = 24 ∨ key.length = 32) →
    (∀ bits, ctrMode key bits iv (ctrMode key bits iv src) = src) ∧ ofbMode key iv (ofbMode key iv src) = src ∧
    cfbMode false key iv (cfbMode true key iv src) = src

/-! ## The cipher fabric (chapter 3) -/

/-- Where DISPATCH has committed job `j`: it stands at `eng`, charged, its entry unchanged, and no byte of memory, no other
function's queue and no life-cycle state changes. -/
abbrev Committed (eng : Engine) (j : Job) (s t : State) : Prop :=
  (∃ k, t.job? j.ref = some k ∧ k.stage = .committed ∧ k.engine = eng ∧ k.entry = j.entry) ∧ t.mem = s.mem ∧ t.life = s.life ∧
    ∀ f q, t.jq? f q = s.jq? f q

/-- A first dispatch charges the slot that the entry names once (R199); any other slot changes in its checkpoint alone. -/
abbrev ChargedOnce (j : Job) (s t : State) : Prop :=
  (∀ n, slotNamed j.entry = some n → (t.slot n).a.count = (s.slot n).a.count + (if j.charged then 0 else 1)) ∧
  ∀ n, slotNamed j.entry ≠ some n → t.slot n = { s.slot n with pendingP := (t.slot n).pendingP }

/-- R21, R57, R77, R109, R199: DISPATCH places the job that R109 picks on a full pair: the job is committed on it with
one more attempt, and the pair holds it. R262, R269: DISPATCH to the public-key engine puts the job it picks in the
engine's queue while that has a place. R295, R296: DISPATCH to the random source commits its first RNG_FILL while fewer
than 16 are committed. At its first dispatch the slot a job names is charged once; any other slot changes in its
checkpoint write alone. R87: where the sides' parses of an entry differ from the queue engine's record, the job does not reach the pair: its entry is
fetched once more and it waits for a retry, or, at the second difference, ends with FAULT, 0x02. -/
def Obligations.DispatchCommitsToAPair : Prop :=
  (∀ (s : State) (p : Nat) (j : Job) (step : Nat), pairTurn (noteLeaseWaits s) p = true →
    pick (noteLeaseWaits s) p = some (j, step) → p < s.fab.pairs.length → (s.pair p).st.full = true →
    Answers (.dispatch (.pair p true)) s fun t => Committed (.pair p) j s t ∧ ChargedOnce j s t ∧ j.ref ∈ (t.pair p).jobs ∧
      (∀ q, q ≠ p → t.pair q = s.pair q) ∧
      ∃ k, t.job? j.ref = some k ∧ k.pair = p ∧ k.attempts = j.attempts + 1 ∧ k.tried = j.tried ++ [p] ∧ k.charged = true) ∧
  (∀ (s : State) (p : Nat) (j : Job) (step : Nat), pairTurn (noteLeaseWaits s) p = true →
    pick (noteLeaseWaits s) p = some (j, step) →
    Answers (.dispatch (.pair p false)) s fun t => ChargedOnce j s t ∧ t.fab.pairs = s.fab.pairs ∧ t.mem = s.mem ∧
      ∃ k, t.job? j.ref = some k ∧ k.charged = true ∧
        if j.refetched then k.outcome = some { status := 0x61, detail := 0x02 }
        else k.withdrawn = true ∧ k.refetched = true ∧
          ∀ x, s.jq? j.ref.fn j.ref.jq = some x → k.entry = s.hostRead j.ref.fn (x.slotAt j.ref.index) (64 * j.len)) ∧
  (∀ (s : State) (j : Job), s.pkFree ≠ 0 → s.quiesced Block.pk = false → pkPick (noteLeaseWaits s) = some j →
    Answers (.dispatch .publicKey) s fun t => Committed .publicKey j s t ∧ t.pk.queue = s.pk.queue ++ [j.ref] ∧
      t.fab.pairs = s.fab.pairs ∧
      (∀ n, slotNamed j.entry = some n → (t.slot n).a.count = (s.slot n).a.count + 1) ∧
      ∀ n, slotNamed j.entry ≠ some n → t.slot n = { s.slot n with pendingP := (t.slot n).pendingP }) ∧
  (∀ (s : State) (j : Job), s.rng.fills.length < 16 →
    firstJob (noteLeaseWaits s) ((noteLeaseWaits s).jobs.filter fun j => decide (j.op = Op.rngFill) && mayDispatch (noteLeaseWaits s) j)
      = some j →
    Answers (.dispatch .random) s fun t => Committed .random j s t ∧ t.rng.fills = s.rng.fills ++ [j.ref] ∧
      t.fab.pairs = s.fab.pairs ∧ t.pk = s.pk)

/-- R93, R96, R425: a fault of a full or half pair fences it, is recorded and counted in cnt.fence, and takes every job of it whose
completion is open off the pair; each of those waits at the head of its class; a fault of a fenced pair counts as nested,
and a second one is a device fault. R94, R198, R429: the retry of a withdrawn job settles: its claim is given up, and it
waits where an untried pair remains, or completes where none does or its third attempt has failed, with FAULT or DEGRADED. R430: a reaction
suppressed meanwhile, or a timeout that has expired meanwhile, presents itself again when the claim is released: the
job is gone, or, where the reaction is a drain, stopped with the completion the drain then issues. R429, R431: a timeout
that finds the claim held leaves the job in the retry, is counted in cnt.race.suppressed, and stays behind a stronger
reaction. (A function whose admin pair is being disabled goes on with that disable in the same step.) -/
def Obligations.FaultsFenceAndRetrySettles : Prop :=
  (∀ (s : State) (p cause : Nat), p < s.fab.pairs.length → ((s.pair p).st.full || (s.pair p).st.half) = true →
    Answers (.pairFault p cause) s fun t =>
      (t.pair p).st = .fenced ∧ (t.pair p).role = (s.pair p).st ∧ (t.pair p).nested = 0 ∧
      (t.pair p).spent = decide ((recentFences s.now (s.pair p).fences).length + 1 ≥ s.fenceLimit) ∧
      t.regs.fences = satAdd s.regs.fences 0xFFFFFFFF ∧ t.store = s.store ∧ t.life = s.life ∧
      (∀ j ∈ openJobs s p, j.ref ∉ (t.pair p).jobs ∧ ∃ k, t.job? j.ref = some k ∧ k.withdrawn = true ∧ k.claim = true ∧
        k.hold = 0 ∧ k.outcome = none ∧ k.inA = [] ∧ k.inB = [] ∧ k.entry = j.entry) ∧
      ∀ r, (∀ j ∈ openJobs s p, j.ref ≠ r) → t.job? r = s.job? r) ∧
  (∀ (s : State) (p cause : Nat), p < s.fab.pairs.length → (s.pair p).st = .fenced →
    Answers (.pairFault p cause) s fun t =>
      t.pair p = { s.pair p with nested := (s.pair p).nested + 1 } ∧ (∀ q, q ≠ p → t.pair q = s.pair q) ∧
      ((s.pair p).nested ≠ 0 → t.boot.escalated.isSome = true) ∧ t.jobs = s.jobs ∧ t.mem = s.mem ∧ t.store = s.store) ∧
  (∀ (s : State) (r : JobRef) (j : Job), s.job? r = some j → j.withdrawn = true → j.outcome = none →
    (s.fn r.fn).aqBusy = false → ((retryEnd s j).isSome = true ∨ presentsAgain s j = none) →
    Answers (.jobRetry r) s fun t =>
      t.job? r = some { j with claim := false, stop := none, outcome := retryEnd s j } ∧
      (∀ k, k ≠ r → t.job? k = s.job? k) ∧ t.fab = s.fab ∧ t.store = s.store ∧
      (retryEnd s j = none → t.mem = s.mem)) ∧
  (∀ (s : State) (r : JobRef) (j : Job), s.job? r = some j → j.withdrawn = true → j.outcome = none → retryEnd s j = none →
    (s.fn r.fn).aqBusy = false → (j.stop.isSome = true ∨ expired s j = true) → j.silent = false → j.ended = false →
    j.reads ≠ .outstanding → (s.fn r.fn).run ≠ .resetting → onCore r s = false →
    Answers (.jobRetry r) s fun t => t.job? r = none) ∧
  (∀ (s : State) (r : JobRef) (j : Job) (d : Done), s.job? r = some j → j.withdrawn = true → j.outcome = none →
    (s.fn r.fn).aqBusy = false → retryEnd s j = none → j.stop = some d → j.silent = true →
    Answers (.jobRetry r) s fun t =>
      t.job? r = some { j with claim := false, stop := none, outcome := some d } ∧ ∀ k, k ≠ r → t.job? k = s.job? k) ∧
  (∀ (s : State) (r : JobRef) (j : Job), s.job? r = some j → r.jq ≠ 0 → expired s j = true →
    (s.fn r.fn).run ≠ .resetting → j.outcome = none → j.ended = false → j.claim = true →
    Answers (.jobTimeout r) s fun t =>
      (∃ k, t.job? r = some k ∧ k.claim = true ∧ k.outcome = none ∧ k.stop.isSome = true ∧
        (∀ d, j.stop = some d → k.stop = some d)) ∧ (∀ k, k ≠ r → t.job? k = s.job? k) ∧
      t.dict.counters.getD 0x12 0 = satAdd (s.dict.counters.getD 0x12 0) 0xFFFFFFFF ∧ t.mem = s.mem)

/-- R95, R96, R97, R425: the known-answer verdict of a fenced pair. It returns to its role where the lanes that role needs
pass; where only one lane of a full pair passes it serves the other's place as a half pair; where none does, where it was
fenced fabric.fence.limit times in 60 s, or where it would return but a nested fault came meanwhile, it has FAILED. R24: the
pair that stood in for it alone goes back to the role it held before when it returns, at once or once its jobs have
completed, and keeps the role for good when it does not. No job, slot or byte of memory changes. The spare reserve's own
test (R98) leaves a passing spare as it is, and no other pair changes. -/
def Obligations.KatVerdictDecidesTheRole : Prop :=
  (∀ (s : State) (p : Nat) (a b : Bool), p < s.fab.pairs.length → (s.pair p).st = .fenced → (s.pair p).leaving = none →
    (∀ e ∈ (s.pair p).stands, e.1 ≠ p) →
    let new := verdictState (s.pair p) a b
    Answers (.pairKatVerdict p a b) s fun t =>
      t.pair p = (if new = (s.pair p).role then { s.pair p with st := new, nested := 0 }
        else { s.pair p with st := new, nested := 0, stands := [] }) ∧
      (∀ q, q ≠ p → (∀ e ∈ (s.pair q).stands, e.1 ≠ p) → t.pair q = s.pair q) ∧
      t.jobs = s.jobs ∧ t.mem = s.mem ∧ t.store = s.store ∧ t.life = s.life) ∧
  (∀ (s : State) (p q : Nat) (old : PairState) (a b : Bool), p < s.fab.pairs.length → q < s.fab.pairs.length → q < 10 → q ≠ p →
    (s.pair p).st = .fenced → (s.pair q).st ≠ .fenced → (s.pair q).stands = [(p, old)] → (s.pair q).leaving = none →
    (∀ r, r < q → ∀ e ∈ (s.pair r).stands, e.1 ≠ p) →
    Answers (.pairKatVerdict p a b) s fun t =>
      t.pair q = (if verdictState (s.pair p) a b = (s.pair p).role then
          (if (s.pair q).jobs = [] then { s.pair q with st := old, stands := [] }
           else { s.pair q with stands := [], leaving := some old })
        else { s.pair q with stands := [] })) ∧
  (∀ x : Pair, x.spent = false → x.nested = 0 → (x.role = .bulk ∨ x.role = .urgent) →
    verdictState x true true = x.role ∧ verdictState x true false = .halfA ∧ verdictState x false true = .halfB ∧
    verdictState x false false = .failed ∧
    ∀ a b, verdictState { x with spent := true } a b = .failed) ∧
  (∀ (s : State) (p : Nat), (s.pair p).st = .spare → (∀ q, q < p → (s.pair q).st ≠ .spare) → p < 10 →
    Answers (.spareKat true true) s (Quiet s)) ∧
  (∀ (s : State) (p : Nat) (a b : Bool), p < s.fab.pairs.length → (s.pair p).st = .spare →
    (∀ q, q < p → (s.pair q).st ≠ .spare) → p < 10 → (a && b) = false →
    Answers (.spareKat a b) s fun t => t.pair p = { s.pair p with st := katOutcome .spare a b } ∧
      (∀ q, q ≠ p → t.pair q = s.pair q) ∧ t.jobs = s.jobs ∧ t.mem = s.mem ∧ t.store = s.store)

/-- R108: a rescale of a function with active work leaves its minimum and ceiling credits at most twice their rates'
bytes of one period; a function without active work banks nothing; no job, queue, slot or byte of memory changes.
R101, R102, R103: with the loop on, a decrease allowed and a transaction that succeeds at once, the rail is
commanded to the voltage of R101, within 620 and 900 mV; and the guard raises it by 20 mV, up to 900 mV, above 1,780
ps. R104: with the loop off the rail is only read. R83, R200: a mask generator that has served 2^20 blocks asks for
reseeding, and any other only goes on; a checkpoint write that is done becomes the slot's
checkpoint, and nothing else changes. A commitment that waits for its lease has a checkpoint write under way (the
model's reading, log entry 135). -/
def Obligations.CreditsVoltageAndSeeds : Prop :=
  (∀ (s : State), s.secureRuns = true → Answers .creditRescale s fun t =>
    t.jobs = s.jobs ∧ t.mem = s.mem ∧ t.store = s.store ∧ t.fab.pairs = s.fab.pairs ∧ (∀ f q, t.jq? f q = s.jq? f q) ∧
    (∀ f c, t.cq? f c = s.cq? f c) ∧
    ∀ f ∈ s.fns.keys, (f ∉ activeFns s → (t.fn f).mc = min (s.fn f).mc 0 ∧ (t.fn f).ec = min (s.fn f).ec 0 ∧
      (t.fn f).cc = (s.fn f).cc) ∧
      (f ∈ activeFns s → (t.fn f).mc ≤ 2 * (rateBytes (s.fn f).qosMin) ∧
        (t.fn f).cc ≤ 2 * (rateBytes (s.fn f).qosCeil))) ∧
  (∀ (s : State) (cycle mv : Nat), s.secureRuns = true → s.avsOn = true → s.fab.decHold = false →
    s.fab.vdd ≠ avsStep s.dummyRate s.avsTarget cycle s.fab.vdd →
    Answers (.avsLoop cycle [true] mv) s fun t =>
      t.fab.vdd = avsStep s.dummyRate s.avsTarget cycle s.fab.vdd ∧ 620 ≤ t.fab.vdd ∧ t.fab.vdd ≤ 900 ∧
      t.fab.vddRead = t.fab.vdd ∧ t.vesper.glitchRef = t.fab.vdd ∧ t.fab.cycle = cycle ∧ t.fab.pairs = s.fab.pairs ∧
      t.jobs = s.jobs ∧ t.mem = s.mem ∧ t.store = s.store) ∧
  (∀ (s : State) (cycle mv : Nat) (oks : List Bool), s.secureRuns = true → s.avsOn = false →
    Answers (.avsLoop cycle oks mv) s fun t => t.fab.vddRead = mv ∧ t.fab.vdd = s.fab.vdd ∧ t.fab.cycle = cycle ∧
      t.fab.pairs = s.fab.pairs ∧ t.jobs = s.jobs ∧ t.mem = s.mem ∧ t.store = s.store) ∧
  (∀ (s : State) (cycle : Nat), s.avsOn = true → cycle > 1780 → s.fab.vdd < 900 →
    Answers (.avsGuard cycle [true]) s fun t =>
      t.fab.vdd = min (s.fab.vdd + 20) 900 ∧ t.fab.cycle = cycle ∧ t.fab.pairs = s.fab.pairs ∧ t.jobs = s.jobs ∧
      t.mem = s.mem ∧ t.store = s.store) ∧
  (∀ (s : State) (g : Nat), g < s.fab.gens.length →
    let m := s.fab.gens.getD g {}
    Answers (.maskGeneratorReseed g) s fun t =>
      t.fab.gens.getD g {} = { m with asks := m.asks || decide (m.served ≥ 2 ^ 20) } ∧
      (∀ h, h ≠ g → t.fab.gens.getD h {} = s.fab.gens.getD h {}) ∧
      t = { s with fab := { s.fab with gens := t.fab.gens } }) ∧
  (∀ (s : State) (n p : Nat), (s.slot n).pendingP = some p →
    Answers (.checkpointWriteDone n) s fun t =>
      t.slot n = { s.slot n with point := p, pendingP := none } ∧ (∀ m, m ≠ n → t.slot m = s.slot m) ∧
      t = { s with store := { s.store with slots := t.store.slots } }) ∧
  (∀ (s : State) (j : Job) (n : Nat), j ∈ s.jobs → j.charged = false → mayDispatch s j = true →
    leaseOk s j.entry = false → slotNamed j.entry = some n → 0 < s.lease →
    Answers (.dispatch .random) s fun t =>
      (t.slot n).pendingP.isSome = true ∧ t.slot n = { s.slot n with pendingP := (t.slot n).pendingP })

/-! ## The random source (chapter 9) -/

/-- No message of the management port or of the mailbox waits for random bytes. -/
abbrev NothingWaits (s : State) : Prop := s.mgmt.work = [] ∧ s.link.held = none

/-- R281, R282, R283: the first window of an enabled source after power-on is discarded, latching the limits; any other is
tested against the limits latched when it began: B and C follow from its bits and are recorded, a pass or a failure is
counted, and only a window that passes can reach the pool. R286, R291, R298, R421: a request of a seeded generator whose
output does not repeat a block is counted and moves the generator on, after a reseed from the oldest window where one
falls due; one that falls due for a reseed with an empty pool waits, and a credited window ends the
wait with the count of requests at 0; a restart of a seeded generator erases its salts and every read buffer, and one of
an unseeded generator does nothing. R289: what firmware had to leave waiting then goes on (the model's reading, log entry 161). -/
def Obligations.WindowsAndGenerator : Prop :=
  (∀ (s : State) (src : Nat) (w : WindowReading) (x : Source), s.rng.sources[src]? = some x → s.rng.enabled = true →
    x.first = true → NothingWaits s →
    Answers (.windowComplete src w) s fun t => Quiet { s with rng := t.rng } t ∧ t.rng.pool = s.rng.pool ∧
      t.rng.sources[src]? = some { x with first := false, biasLim := s.param 0x3100 2 384, corrLim := s.param 0x3100 3 384 }) ∧
  (∀ (s : State) (src : Nat) (w : WindowReading) (x : Source), s.rng.sources[src]? = some x → s.rng.enabled = true →
    x.first = false → s.rng.restart = false → NothingWaits s →
    Answers (.windowComplete src w) s fun t => Quiet { s with rng := t.rng } t ∧
      ∃ y, t.rng.sources[src]? = some y ∧ y.bias = 2 * (onesOf w : Int) - 4096 ∧ y.corr = 4095 - 2 * (transOf w : Int) ∧
        y.lastFail = !windowPasses x w ∧
        t.rng.pool = (if windowPasses x w && decide (s.rng.pool.length < 8) then s.rng.pool ++ [w.bits] else s.rng.pool) ∧
        (windowPasses x w = true → y.fail = x.fail ∧ y.pass = satAdd x.pass 0xFFFFFFFF) ∧
        (windowPasses x w = false → y.pass = x.pass ∧ y.fail = satAdd x.fail 0xFFFFFFFF) ∧
        (∀ k, k ≠ src → t.rng.sources[k]? = s.rng.sources[k]?) ∧
        t.rng.key = s.rng.key ∧ t.rng.v = s.rng.v ∧ t.rng.seeded = s.rng.seeded) ∧
  (∀ (s : State) (c : Consumer), s.rng.seeded = true → consumer s = some c → reseedDue s = false →
    repeats s.rng.last (generate s).1 = false → NothingWaits s →
    Answers .generateRequest s fun t => t.rng.requests = s.rng.requests + 1 ∧ t.rng.key = (generate s).2.rng.key ∧
      t.rng.v = (generate s).2.rng.v ∧ t.rng.seeded = true ∧ t.mem = s.mem ∧ t.store = s.store ∧ t.life = s.life ∧
      (∀ f q, t.jq? f q = s.jq? f q) ∧ ∀ f q, t.cq? f q = s.cq? f q) ∧
  (∀ (s : State) (c : Consumer) (w : Bytes) (rest : List Bytes), s.rng.seeded = true → consumer s = some c →
    reseedDue s = true → s.rng.pool = w :: rest → NothingWaits s →
    let u := reseed w { s with rng := { s.rng with pool := rest } }
    repeats s.rng.last (generate u).1 = false →
    Answers .generateRequest s fun t => t.rng.requests = 1 ∧ t.rng.pool = rest ∧ t.rng.waiting = false ∧
      t.rng.key = (generate u).2.rng.key ∧ t.mem = s.mem ∧ t.store = s.store ∧ t.life = s.life) ∧
  (∀ (s : State) (c : Consumer), s.rng.seeded = true → consumer s = some c → s.rng.requests ≥ 65536 → s.rng.pool = [] →
    NothingWaits s →
    Answers .generateRequest s fun t => Quiet { s with rng := t.rng } t ∧ t.rng.waiting = true ∧ t.rng.key = s.rng.key ∧
      t.rng.requests = s.rng.requests) ∧
  (∀ (s : State) (w : Bytes) (rest : List Bytes), s.rng.pool = w :: rest → s.rng.waiting = true → NothingWaits s →
    Answers .reseedResume s fun t => Quiet { s with rng := t.rng } t ∧ t.rng.waiting = false ∧ t.rng.requests = 0 ∧
      t.rng.pool = rest ∧ t.rng.reseeds = satAdd s.rng.reseeds 0xFFFFFFFF) ∧
  (∀ (s : State) (cause : Nat), s.rng.seeded = true → NothingWaits s →
    Answers (.generatorRestart cause) s fun t => t.rng.salts = [] ∧ t.rng.requests = 0 ∧
      (s.rng.pool = [] → t.rng.seeded = false ∧ t.rng.key = []) ∧ (∀ f ∈ s.fns.keys, (t.fn f).rngBuf = []) ∧
      t.mem = s.mem ∧ t.jobs = s.jobs ∧ t.store = s.store ∧ t.life = s.life) ∧
  (∀ (s : State) (cause : Nat), s.rng.seeded = false → Answers (.generatorRestart cause) s (Quiet s)) ∧
  (∀ (s : State) (src : Nat) (w : WindowReading),
    Answers (.windowComplete src w) s (Quiet (wakeFirmware (windowEnds src w s)))) ∧
  (∀ s : State, Answers .generateRequest s (Quiet (wakeFirmware (generateOrWait s))) ∧
    Answers .reseedResume s (Quiet (wakeFirmware (resumeReseed s))))

/-- A read of `en` bytes at offset `off` of FN_RNG_DATA keeps the form of R292. -/
abbrev RngReadForm (off : Nat) (en : List Bool) : Prop :=
  off % 4 = 0 ∧ 4 ≤ en.length ∧ en.length ≤ 64 ∧ off + en.length ≤ 0x800 ∧ off / 64 = (off + en.length - 1) / 64

/-- R292, R293, R295, R296, R311: an RNG_FILL with all its bytes writes them and completes with the length in RESULT0; a read
of FN_RNG_DATA that the buffer covers is answered at once, each enabled byte with the buffer's next; one that it does not
cover takes what there is and waits; one that breaks a rule of R292 meets Completer
Abort; a read that has waited rng.read.stall_max_us ends the same way, with the function's ABORTED bit and
FN_EVENT.RNG_ABORT. R156, R236: an unassigned VF's page reads 0, and in DECOMMISSIONED and where the page is closed the read
is unsupported (the model's reading of R236 here, log entry 151). Nothing else changes. -/
def Obligations.RandomBytesReachTheHost : Prop :=
  (∀ (s : State) (r : JobRef) (j : Job), s.job? r = some j → j.op = Op.rngFill → j.engine = .random → j.outcome = none →
    rngLen j.entry ≤ j.work.length → Tidy s → (s.fn r.fn).log = none →
    Answers (.rngFill r) s fun t =>
      t.job? r = some { j with outcome := some { status := 0x00, r0 := rngLen j.entry } } ∧
      t.hostRead r.fn (rngDst j.entry) (rngLen j.entry) = j.work.take (rngLen j.entry) ∧
      OnlyWrites r.fn (rngDst j.entry) (rngLen j.entry) s t ∧ (∀ k, k ≠ r → t.job? k = s.job? k) ∧
      t = { s with mem := t.mem, jobs := t.jobs }) ∧
  (∀ (s : State) (f off : Nat) (en : List Bool), s.pageOpen f = true → s.life.lc ≠ .decommissioned → RngReadForm off en →
    (s.fn f).rngStall = [] → en.countP id ≤ (s.fn f).rngBuf.length →
    Answers (.fnRngDataRead f off en) s fun t =>
      t.out = .readData f ((s.fn f).rngBuf.take (en.countP id)) :: s.out ∧
      t.fn f = { s.fn f with rngBuf := (s.fn f).rngBuf.drop (en.countP id) } ∧ (∀ g, g ≠ f → t.fn g = s.fn g) ∧
      t = { s with fns := t.fns, out := t.out }) ∧
  (∀ (s : State) (f off : Nat) (en : List Bool), s.pageOpen f = true → s.life.lc ≠ .decommissioned → RngReadForm off en →
    (s.fn f).rngStall = [] → (s.fn f).rngBuf.length < en.countP id →
    Answers (.fnRngDataRead f off en) s fun t =>
      t.fn f = { s.fn f with rngBuf := [], rngStall := [{ got := (s.fn f).rngBuf, need := en.countP id - (s.fn f).rngBuf.length
                                                          since := s.now }] } ∧ (∀ g, g ≠ f → t.fn g = s.fn g) ∧
      t = { s with fns := t.fns }) ∧
  (∀ (s : State) (f off : Nat) (en : List Bool), s.pageOpen f = true → s.life.lc ≠ .decommissioned → ¬ RngReadForm off en →
    Answers (.fnRngDataRead f off en) s fun t => t = emit (.completerAbort f) s) ∧
  (∀ (s : State) (f off : Nat) (en : List Bool), s.vfIdle f = true → s.life.lc ≠ .decommissioned →
    Answers (.fnRngDataRead f off en) s fun t => t = emit (.readData f (Bytes.zeros (en.countP id))) s) ∧
  (∀ (s : State) (f off : Nat) (en : List Bool), (s.life.lc = .decommissioned ∨ (s.pageOpen f = false ∧ s.vfIdle f = false)) →
    Answers (.fnRngDataRead f off en) s fun t => t = emit (.unsupported f) s) ∧
  (∀ (s : State) (f : Nat) (r : StalledRead) (rest : List StalledRead), (s.fn f).rngStall = r :: rest →
    elapsedUs s.now r.since (s.param 0x3100 4 5000) = true →
    Answers (.rngReadStallLimit f) s fun t => (t.fn f).rngStall = rest ∧ (t.fn f).rngAborted = true ∧
      (t.fn f).event.getLsbD 3 = true ∧ (t.fn f).rngBuf = (s.fn f).rngBuf ∧
      t.rng = { s.rng with aborts := satAdd s.rng.aborts 0xFFFFFFFF } ∧ .completerAbort f ∈ t.out ∧ t.mem = s.mem ∧
      t.jobs = s.jobs ∧ t.store = s.store ∧ t.life = s.life)

/-! ## The public-key engine (chapter 8) -/

/-- Command `i` computes result `p` of job `j`, which waits for the finish point: nothing else changes but the count of
free values. Where the job's draws held no value to compute it from, the job goes back to the head of the engine queue
for more, and no core runs it. -/
abbrev HoldsResult (i : Instr) (j : Job) (p : Option PkResult) (s : State) : Prop :=
  match p with
  | some p => Answers i s fun t => t.job? j.ref = some { j with result := some p } ∧ (∀ k, k ≠ j.ref → t.job? k = s.job? k) ∧
      t = { s with jobs := t.jobs, free := s.free + 1 }
  | none => Answers i s fun t => (∃ k, t.job? j.ref = some k ∧ k.result = none ∧ k.draws = [] ∧ k.entry = j.entry) ∧
      (∀ k, k ≠ j.ref → t.job? k = s.job? k) ∧ t.pk.queue.head? = some j.ref ∧ (∀ c, (t.core c).cur ≠ some j.ref) ∧
      t = { s with jobs := t.jobs, pk := t.pk }

/-- R267: while a core runs a job, each of the six operations computes its result and holds it until the finish point:
no output is written, no slot, queue or other job changes. R256, R263: a
signature other than ML-DSA's has the length of its algorithm; a verification writes nothing and ends with OK or CHECK_MISMATCH, detail
2 for a malformed signature and 1 for one that does not verify. R260: an RSA key generation puts the modulus and E = 65,537
in OUT0. -/
def Obligations.PkResultsAreHeldUntilTheFinish : Prop :=
  (∀ (s : State) (r : JobRef) (j : Job), computing s r Op.pkSign = some j → HoldsResult (.pkSign r) j (signResult j s) s) ∧
  (∀ (s : State) (r : JobRef) (j : Job), computing s r Op.pkVerify = some j →
    HoldsResult (.pkVerify r) j (some (verifyResult j)) s) ∧
  (∀ (s : State) (r : JobRef) (j : Job), computing s r Op.pkKeygen = some j → HoldsResult (.pkKeygen r) j (keygenResult j s) s) ∧
  (∀ (s : State) (r : JobRef) (j : Job), computing s r Op.pkAgree = some j →
    HoldsResult (.pkAgree r) j (some (secretResult j none (agreed j) s)) s) ∧
  (∀ (s : State) (r : JobRef) (j : Job), computing s r Op.pkEncaps = some j → HoldsResult (.pkEncaps r) j (encapsResult j s) s) ∧
  (∀ (s : State) (r : JobRef) (j : Job), computing s r Op.pkDecaps = some j →
    HoldsResult (.pkDecaps r) j (some (decapsResult j s)) s) ∧
  (∀ (j : Job) (s : State) (p : PkResult), signResult j s = some p →
    (pkAlg j.entry = rsa ∨ isP (pkAlg j.entry) = true ∨ isEd (pkAlg j.entry) = true) →
    p.out0.length = sigLen (pkAlg j.entry) (modBits j.entry / 8) ∧ p.done.r0 = sigLen (pkAlg j.entry) (modBits j.entry / 8)) ∧
  (∀ (j : Job), (verifyResult j).out0 = [] ∧ (verifyResult j).out1 = [] ∧
    (verifyResult j).done =
      if sigMalformed (pkAlg j.entry) (modBits j.entry / 8) (verifyKey j) (pkIn j 1) then { status := 0x31, detail := 2 }
      else if equationHolds j (verifyKey j) (pkIn j 0) (pkIn j 1) (pkIn j 3) then { status := okStatus j }
      else { status := 0x31, detail := 1 }) ∧
  (∀ (j : Job) (s : State) (p : PkResult), keygenResult j s = some p → pkAlg j.entry = rsa →
    p.out0.length = modBits j.entry / 8 + 32 ∧ p.out0.drop (modBits j.entry / 8) = Bytes.ofBE 32 65537)

/-- R262, R263, R265, R269: a free core takes the job that is picked, under a fresh representation: with equal key copies and
inputs it does not refuse, the core runs it; a job it refuses, or whose key copies differ, leaves the core at once with
its completion, its context erased; in each case the engine queue no longer holds it. R271: a core whose parked job is due
resumes that one. -/
def Obligations.CoreTakesAJob : Prop :=
  (∀ (s : State) (c : Nat) (j : Job), c < s.pk.cores.length → (s.core c).st = .active → (s.core c).cur = none →
    s.quiesced Block.pk = false → resumeDue s (s.core c) = false → s.job? j.ref = some j →
    corePick s ((startable s).filter (mayTake s c)) = some j →
    let k := (present j s).1
    (keysDiffer k = false → inputRefusal k s.debug = none →
      Answers (.pkJobStart c) s fun t => (t.core c).cur = some j.ref ∧ j.ref ∉ t.pk.queue ∧ t.pk.turnFn = j.ref.fn ∧
        t.job? j.ref = some k ∧ (∀ r, r ≠ j.ref → t.job? r = s.job? r) ∧ t.mem = s.mem ∧ t.store = s.store) ∧
    (∀ d, keysDiffer k = false → inputRefusal k s.debug = some d → (∀ x ∈ s.pk.cores, x.holds j.ref = false) →
      Answers (.pkJobStart c) s fun t => (t.core c).cur = none ∧ j.ref ∉ t.pk.queue ∧
        t.job? j.ref = some (eraseContext { k with outcome := some d }) ∧ (∀ r, r ≠ j.ref → t.job? r = s.job? r) ∧
        t.mem = s.mem ∧ t.store = s.store) ∧
    (keysDiffer k = true → (∀ x ∈ s.pk.cores, x.holds j.ref = false) →
      Answers (.pkJobStart c) s fun t => (t.core c).cur = none ∧ j.ref ∉ t.pk.queue ∧ (t.slot k.slot).st = .bad ∧
        t.job? j.ref = some (eraseContext { k with outcome := some { status := 0x40, detail := 0x02 } }) ∧
        (∀ r, r ≠ j.ref → t.job? r = s.job? r) ∧ t.mem = s.mem)) ∧
  (∀ (s : State) (c : Nat) (r : JobRef), c < s.pk.cores.length → (s.core c).st = .active → (s.core c).cur = none →
    s.quiesced Block.pk = false → (s.core c).parked = some r → resumeDue s (s.core c) = true →
    Answers (.pkJobStart c) s fun t => t.core c = { s.core c with cur := some r, parked := none } ∧
      t.pk.queue = s.pk.queue ∧ (∀ k, k ≠ r → t.job? k = s.job? k) ∧ t = { s with jobs := t.jobs, pk := t.pk })

/-- The byte of memory at `k` lies in none of these buffers: function, address and length. -/
abbrev Outside (l : List (Nat × Nat × Nat)) (k : Nat) : Prop :=
  ∀ b ∈ l, k < hostKey b.1 b.2.1 ∨ hostKey b.1 b.2.1 + b.2.2 ≤ k

/-- R270, R271, R273: a stopped job ends at its core's next yield point without a record of its own result; a long job that
may be parked makes room for one that waits; any other goes on. At the finish point a result whose checks held is
released: for the host its outputs and its record are written and the core is free; no byte outside its outputs, its
record and the mirror changes. R267, R268: a result whose check failed is a fault of the core. A fault of an active core
puts the core under test and keeps the fault's time; its job is restarted once from the engine queue, and the second time
ends with PK_FAULT; the core's verdict returns it to service when it passes with fewer than four faults in
the last 60 s, and fails it otherwise. (A function whose admin pair is being disabled goes on with that disable
besides, and is left out here.) -/
def Obligations.CoresYieldFinishAndFail : Prop :=
  (∀ (s : State) (c : Nat) (j : Job) (d : Done), (s.core c).cur.bind s.job? = some j → j.stop = some d → j.silent = false →
    (s.fn j.ref.fn).aqBusy = false →
    Answers (.pkYieldPoint c) s fun t => t.job? j.ref = none ∧ (∀ n, (t.slot n).a = (s.slot n).a) ∧ t.life = s.life) ∧
  (∀ (s : State) (c : Nat) (j : Job), (s.core c).cur.bind s.job? = some j → j.stop = none →
    (j.result.isNone && mayPark s c (s.core c) j) = false → Answers (.pkYieldPoint c) s fun t => t = s) ∧
  (∀ (s : State) (c : Nat) (j k : Job), c < s.pk.cores.length → (s.core c).cur.bind s.job? = some j → j.stop = none →
    (j.result.isNone && mayPark s c (s.core c) j) = true →
    let s1 := modCore c (fun x => { x with cur := none, parked := some j.ref, parkedAt := s.now }) s
    corePick s1 ((startable s1).filter (mayTake s1 c)) = some k → k.ref ≠ j.ref →
    Answers (.pkYieldPoint c) s fun t => (t.core c).parked = some j.ref ∧ (t.core c).parkedAt = s.now ∧
      t.job? j.ref = some j ∧ k.ref ∉ t.pk.queue ∧ t.mem = s.mem) ∧
  (∀ (s : State) (c : Nat) (j : Job) (p : PkResult) (q : CompQueue), (s.core c).cur.bind s.job? = some j → j.stop = none →
    j.result = some p → p.check = none → j.ref.jq ≠ subQueue → s.cq? j.ref.fn (s.cqOf j.ref) = some q →
    Answers (.pkFinishPoint c) s fun t => t.job? j.ref = none ∧ (t.core c).cur ≠ some j.ref ∧
      (∃ q', t.cq? j.ref.fn (s.cqOf j.ref) = some q' ∧ q'.pi = q.pi + 1 ∧ q'.ci = q.ci ∧ q'.covered = q'.pi) ∧
      (pkToSlot j.entry = false → ∀ n, (t.slot n).a = (s.slot n).a) ∧
      (Tidy s → (s.fn j.ref.fn).log = none → (s.fn j.ref.fn).quiesce = none → (∀ x ∈ s.worlds.calls, x.job ≠ j.ref) → ∀ k,
        Outside [(j.ref.fn, outAddr j.entry 0, p.out0.length), (j.ref.fn, outAddr j.entry 1, p.out1.length),
          (j.ref.fn, q.recAt q.pi, 32), (j.ref.fn, q.mirror, 4)] k → Memory.get t.mem k = Memory.get s.mem k)) ∧
  (∀ (s : State) (c d : Nat) (j : Job) (p : PkResult), c < s.pk.cores.length → (s.core c).st = .active →
    (s.core c).cur.bind s.job? = some j → j.stop = none → j.result = some p → p.check = some d →
    (s.fn j.ref.fn).aqBusy = false →
    Answers (.pkFinishPoint c) s fun t => (t.core c).st = .testing ∧ (t.core c).cur = none ∧ t.mem = s.mem ∧ t.store = s.store) ∧
  (∀ (s : State) (c detail : Nat), c < s.pk.cores.length → (s.core c).st = .active → (s.core c).cur.bind s.job? = none →
    (detail = 0 ∨ detail = 8) →
    Answers (.pkCoreFault c detail) s fun t => (t.core c).st = .testing ∧ (t.core c).cur = none ∧
      (t.core c).faults.head? = some s.now ∧ t.jobs = s.jobs ∧ t.mem = s.mem ∧ t.store = s.store) ∧
  (∀ (s : State) (c detail : Nat) (j : Job), c < s.pk.cores.length → (s.core c).st = .active →
    (s.core c).cur.bind s.job? = some j → detail ∈ checksOf j.entry → j.stop = none → (s.fn j.ref.fn).aqBusy = false →
    Answers (.pkCoreFault c detail) s fun t => (t.core c).st = .testing ∧ (t.core c).cur = none ∧
      (t.core c).faults.head? = some s.now ∧ t.mem = s.mem ∧ t.store = s.store ∧ (∀ r, r ≠ j.ref → t.job? r = s.job? r) ∧
      ∃ k, t.job? j.ref = some k ∧ k.draws = [] ∧ k.result = none ∧
        if j.restarts = 0 then k.restarts = 1 ∧ k.badCore = some c ∧ t.pk.queue.head? = some j.ref
        else k.outcome = some { status := 0x51, detail := detail }) ∧
  (∀ (s : State) (c : Nat) (pass : Bool), c < s.pk.cores.length → (s.core c).st = .testing →
    Answers (.pkCoreKatVerdict c pass) s fun t =>
      (t.core c).st = (if pass = true ∧ (recentFaults s.now (s.core c).faults).length < 4 then .active else .failed) ∧
      (∀ k, k ≠ c → t.core k = s.core k) ∧ t.mem = s.mem ∧ t.store = s.store)

/-! ## Key slots (chapter 6) -/

/-- A slot command may run: no other on its slots is in progress, and no reload is bringing them in (R205, R215). -/
abbrev SlotsFree (s : State) (j : Job) : Prop :=
  slotTaken s j = false ∧ (slotsOf j.entry).any (slotWaits s) = false

/-- R207, R212: a KEY_CREATE or a REKEY whose checks pass and whose random bytes are drawn completes with OK and the
handle of the slot, which is LOADED with a fresh generation, the key in both copies with the attributes, limit and times of
its body (a REKEY: those of before, the counter 0, the old key in the archive slot where one is named); a REATTR keeps the key,
the counter and the checkpoint and takes a fresh generation too. The two sides' copies of the domain key, and of the slot
carried over, agree (where they do not the blobs differ and nothing is placed). R289: while firmware's random bytes are
short, the command waits. What placing a key does (R191, R195, R207): the slot holds the two copies given,
with the next generation, and its blob and checkpoint; the other slots, and all else, are unchanged. -/
def Obligations.KeysAreCreatedAndRotated : Prop :=
  (∀ (s u : State) (f : Nat) (j : Job) (n : Nat) (key : Bytes), s.admin? f Op.keyCreate = some j → SlotsFree s j →
    firstFail (createRows s f j.entry) = none → fwKey ((j.entry.at_ 0x12).toNat % 32) s = .ok (key, u) →
    s.targetSlot (j.entry.leAt 0x10 2) = some n → s.domainKeys.1 = s.domainKeys.2 →
    Answers (.keyCreate f) s fun t =>
      let x := t.slot n
      x.st = .loaded ∧ x.a.key.clear = key ∧ x.b.key.clear = key ∧
      x.a.attr = attrWithGen (mkAttr (s.fn f).tenant 0 (j.entry.leAt 0x16 2) ((j.entry.at_ 0x13).toNat % 64)
        ((j.entry.at_ 0x12).toNat % 32) ((j.entry.at_ 0x14).toNat % 4)) (nextGen (s.slot n).lastGen) ∧
      x.a.count = 0 ∧ x.a.limit = j.entry.leAt 0x18 6 ∧ x.a.nb = j.entry.leAt 0x20 8 ∧ x.a.na = j.entry.leAt 0x28 8 ∧
      copiesAgree x = true ∧ x.lastGen = nextGen (s.slot n).lastGen ∧ (∀ m, m ≠ n → t.slot m = s.slot m) ∧ t.life = s.life ∧
      (t.job? j.ref).map (·.outcome) = some (some { status := 0x00, r0 := n + 65536 * attrGen x.a.attr
                                                    r1 := pubNeed ((j.entry.at_ 0x12).toNat % 32) }) ∧
      (Tidy s → (s.fn f).log = none → OnlyWrites f (j.entry.leAt 0x30 8) (pubNeed ((j.entry.at_ 0x12).toNat % 32)) s t)) ∧
  (∀ (s u : State) (f : Nat) (j : Job), s.admin? f Op.keyCreate = some j → SlotsFree s j →
    firstFail (createRows s f j.entry) = none → fwKey ((j.entry.at_ 0x12).toNat % 32) s = .error u →
    Answers (.keyCreate f) s (Quiet (acceptCmd j u))) ∧
  (∀ (s u : State) (f : Nat) (j : Job) (key : Bytes), s.admin? f Op.keyRotate = some j → (j.entry.at_ 0x14).toNat % 2 = 0 →
    SlotsFree s j → firstFail (rekeyRows s f j.entry) = none → s.domainKeys.1 = s.domainKeys.2 →
    copiesAgree (s.slot (hSlot (j.entry.leAt 0x10 4))) = true →
    fwKey (attrAlg (s.slot (hSlot (j.entry.leAt 0x10 4))).a.attr) s = .ok (key, u) →
    Answers (.rekey f) s fun t =>
      let n := hSlot (j.entry.leAt 0x10 4)
      let arc := j.entry.leAt 0x16 2
      let old := s.slot n
      let x := t.slot n
      x.st = .loaded ∧ x.a.key.clear = key ∧ x.b.key.clear = key ∧ x.lastGen = nextGen old.lastGen ∧ x.a.count = 0 ∧
      x.a.limit = old.a.limit ∧ x.a.nb = old.a.nb ∧ x.a.na = old.a.na ∧ attrTenant x.a.attr = attrTenant old.a.attr ∧
      attrUses x.a.attr = attrUses old.a.attr ∧ attrAlg x.a.attr = attrAlg old.a.attr ∧
      (∀ m, m ≠ n → (m ≠ arc ∨ arc = 0) → t.slot m = s.slot m) ∧
      (arc ≠ 0 → (t.slot arc).st = .loaded ∧ (t.slot arc).a.key.clear = old.a.key.clear ∧
        (t.slot arc).a.count = old.a.count ∧ (t.slot arc).a.limit = old.a.limit ∧ (t.slot arc).point = old.point ∧
        (t.slot arc).a.na = archiveEnd old.a.na s.now) ∧ t.life = s.life ∧
      ∃ d, (t.job? j.ref).map (·.outcome) = some (some d) ∧ d.status = 0x00 ∧ d.r0 = n + 65536 * attrGen x.a.attr) ∧
  (∀ (s : State) (f : Nat) (j : Job), s.admin? f Op.keyRotate = some j → (j.entry.at_ 0x14).toNat % 2 = 1 →
    SlotsFree s j → firstFail (reattrRows s f j.entry) = none → s.domainKeys.1 = s.domainKeys.2 →
    copiesAgree (s.slot (hSlot (j.entry.leAt 0x10 4))) = true →
    Answers (.reattr f) s fun t =>
      let n := hSlot (j.entry.leAt 0x10 4)
      let x := t.slot n
      x.st = .loaded ∧ x.a.key.clear = (s.slot n).a.key.clear ∧ x.b.key.clear = (s.slot n).b.key.clear ∧
      x.lastGen = nextGen (s.slot n).lastGen ∧ x.a.count = (s.slot n).a.count ∧
      x.a.limit = j.entry.leAt 0x18 6 ∧ x.a.nb = j.entry.leAt 0x20 8 ∧ x.a.na = j.entry.leAt 0x28 8 ∧
      attrUses x.a.attr = (j.entry.at_ 0x15).toNat % 64 ∧ x.point = (s.slot n).point ∧
      (∀ m, m ≠ n → t.slot m = s.slot m) ∧ t.mem = s.mem ∧ t.life = s.life ∧
      (t.job? j.ref).map (·.outcome) = some (some { status := 0x00, r0 := n + 65536 * attrGen x.a.attr })) ∧
  (∀ (s t : State) (n : Nat) (c : SlotCopy × SlotCopy) (point : Nat), placeKey n c point s = some t →
    let g := nextGen (s.slot n).lastGen
    (∃ blob, t.slot n = { s.slot n with
      st := .loaded, a := { c.1 with attr := attrWithGen c.1.attr g }, b := { c.2 with attr := attrWithGen c.2.attr g }, lastGen := g
      genTime := s.now, point := point, pendingP := none, reloadDue := false, blob := blob }) ∧
    (∀ m, m ≠ n → t.slot m = s.slot m) ∧ t = { s with store := { s.store with slots := t.store.slots } })

/-- R209, R210, R215: a KEY_EXPORT whose checks pass and on which both sides agree writes the blob and completes with its
length, changing no slot; a KEY_QUERY writes the slot's record; a KEY_IMPORT whose checks pass, with its blob read, and on
which both sides agree, loads the slot with the blob's key, attributes, counter and times, a BAD slot that it replaces
included. R211: a KEY_ERASE whose checks pass, of a slot no job holds, leaves the slot EMPTY with its last generation,
completes with OK, and changes no other slot. (The slot's other accepted commands come first, R205.) -/
def Obligations.KeysAreExportedImportedAndErased : Prop :=
  (∀ (s : State) (f : Nat) (j : Job) (b : Bytes), s.admin? f Op.keyExport = some j → SlotsFree s j →
    firstFail (exportRows s f j.entry) = none →
    exportBlob s (hSlot (j.entry.leAt 0x10 4)) ((j.entry.at_ 0x14).toNat % 2) (j.entry.leAt 0x16 2) = some b →
    Completes (.keyExport f) s j { status := 0x00, r0 := b.length } (hostWrite f (j.entry.leAt 0x18 8) b s)) ∧
  (∀ (s : State) (f : Nat) (j : Job), s.admin? f Op.keyQuery = some j → slotTaken s j = false →
    firstFail (queryRows s f j.entry) = none →
    let b := slotRecord s (j.entry.leAt 0x10 2) ++ queryPub s (j.entry.leAt 0x10 2)
    Completes (.keyQuery f) s j { status := 0x00, r0 := b.length } (hostWrite f (j.entry.leAt 0x18 8) b s)) ∧
  (∀ (s : State) (f : Nat) (j : Job) (n : Nat) (key : Bytes), s.admin? f Op.keyImport = some j → SlotsFree s j →
    firstFail (importRows s f j.entry) = none → j.reads = .arrived →
    let b := j.input 0 s
    let k := unwrapKeys s ((b.at_ 6).toNat % 2) (j.entry.leAt 0x12 2)
    firstFail (blobRows s f j.entry b) = none → blobKey k.1 b = some key → blobKey k.2.1 b = some key →
    s.domainKeys.1 = s.domainKeys.2 →
    (if replacesBad s f (j.entry.leAt 0x10 2) then n = j.entry.leAt 0x10 2 else s.targetSlot (j.entry.leAt 0x10 2) = some n) →
    s.jobs.any (holdsSlot n) = false →
    Answers (.keyImport f) s fun t =>
      let x := t.slot n
      x.st = .loaded ∧ x.a.key.clear = key ∧ x.b.key.clear = key ∧ copiesAgree x = true ∧
      x.a.count = b.leAt 0x20 6 ∧ x.a.limit = b.leAt 0x18 6 ∧ x.a.nb = b.leAt 0x28 8 ∧ x.a.na = b.leAt 0x30 8 ∧
      x.lastGen = nextGen (s.slot n).lastGen ∧ (∀ m, m ≠ n → t.slot m = s.slot m) ∧ t.life = s.life ∧
      ∃ d, (t.job? j.ref).map (·.outcome) = some (some d) ∧ d.status = 0x00 ∧ d.r0 = n + 65536 * attrGen x.a.attr) ∧
  (∀ (s : State) (f : Nat) (j : Job), s.admin? f Op.keyErase = some j → j.phase = 0 → j.silent = false →
    slotTaken s j = false → firstFail (eraseRows s f j.entry) = none →
    s.jobs.any (holdsSlot (j.entry.leAt 0x10 2)) = false →
    Answers (.keyErase f) s fun t =>
      t.slot (j.entry.leAt 0x10 2) = { lastGen := (s.slot (j.entry.leAt 0x10 2)).lastGen } ∧
      (∀ m, m ≠ j.entry.leAt 0x10 2 → t.slot m = s.slot m) ∧
      (t.job? j.ref).map (·.outcome) = some (some { status := 0x00 }) ∧ (∀ k, k ≠ j.ref → t.job? k = s.job? k) ∧
      t.mem = s.mem ∧ t.life = s.life)

/-- R196, R198, R215: a sweep visit puts the two copies of a LOADED slot under fresh masks and leaves their clear values, and
marks a slot whose copies differ BAD; it leaves an EMPTY or LOADING one alone, and changes no other slot and no job. A reload
of a BAD slot that no job holds, and one of a LOADING slot while the wrapped store is brought in, places the key that both
sides make again in both copies with the counter at the checkpoint; where a side fails the slot is BAD. -/
def Obligations.SlotsAreSweptAndReloaded : Prop :=
  (∀ (s : State), (s.slot s.store.sweep).st = .loaded → s.store.sweep < 65535 →
    Answers .remaskSweepVisit s fun t =>
      let n := s.store.sweep
      t.store.sweep = n + 1 ∧ (t.slot n).a.key.clear = (s.slot n).a.key.clear ∧
      (t.slot n).b.key.clear = (s.slot n).b.key.clear ∧ (t.slot n).a.count = (s.slot n).a.count ∧
      (t.slot n).a.attr = (s.slot n).a.attr ∧
      (t.slot n).st = (if copiesAgree (s.slot n) then .loaded else .bad) ∧ (∀ m, m ≠ n → t.slot m = s.slot m) ∧
      t.jobs = s.jobs ∧ t.mem = s.mem ∧ t.life = s.life) ∧
  (∀ (s : State), ((s.slot s.store.sweep).st = .empty ∨ (s.slot s.store.sweep).st = .loading) → s.store.sweep < 65535 →
    Answers .remaskSweepVisit s (Quiet { s with store := { s.store with sweep := s.store.sweep + 1 } })) ∧
  (∀ (s : State) (n : Nat) (key : Bytes), (s.slot n).st = .bad → (s.slot n).reloadDue = true → slotHeld s n = false →
    (n < 64 ∨ s.domainKey.isSome = true) → sideKey n s.domainKeys.1 s = some key → sideKey n s.domainKeys.2 s = some key →
    Answers (.slotReload n true true) s fun t => (t.slot n).st = .loaded ∧ (t.slot n).a.key.clear = key ∧
      (t.slot n).b.key.clear = key ∧ (64 ≤ n → (t.slot n).a.count = (s.slot n).point) ∧ (t.slot n).reloadDue = false ∧
      (∀ m, m ≠ n → t.slot m = s.slot m) ∧ t.jobs = s.jobs ∧ t.mem = s.mem ∧ t.life = s.life) ∧
  (∀ (s : State) (n : Nat) (okA okB : Bool), (s.slot n).st = .bad → (s.slot n).reloadDue = true → slotHeld s n = false →
    (n < 64 ∨ s.domainKey.isSome = true) → (okA && okB) = false →
    Answers (.slotReload n okA okB) s (Quiet (modSlot n (fun x => { x with reloadDue := false }) s))) ∧
  (∀ (s : State) (n : Nat) (key : Bytes), (s.slot n).st = .loading → s.store.reload = true →
    sideKey n s.domainKeys.1 s = some key → sideKey n s.domainKeys.2 s = some key →
    Answers (.wrappedStoreReload n true true) s fun t => (t.slot n).st = .loaded ∧ (t.slot n).a.key.clear = key ∧
      (t.slot n).b.key.clear = key ∧ (64 ≤ n → (t.slot n).a.count = (s.slot n).point) ∧
      (∀ m, m ≠ n → t.slot m = s.slot m) ∧ t.jobs = s.jobs ∧ t.mem = s.mem ∧ t.life = s.life) ∧
  (∀ (s : State) (n : Nat) (okA okB : Bool), (s.slot n).st = .loading → s.store.reload = true → (okA && okB) = false →
    Answers (.wrappedStoreReload n okA okB) s fun t => (t.slot n).st = .bad ∧ (t.slot n).reloadDue = false ∧
      (∀ m, m ≠ n → t.slot m = s.slot m) ∧ t.jobs = s.jobs ∧ t.mem = s.mem ∧ t.life = s.life)

/-! ## Functions (chapter 5) -/

/-- R161: an FN_ALLOC whose checks pass completes with OK and its function in RESULT0; the function is READY with what
its body says, no queue and no vector state, and every other function, and all else, is as before. -/
def Obligations.FunctionsAreAllocated : Prop :=
  ∀ (s : State) (j : Job), s.admin? 0 Op.fnAlloc = some j → firstFail (allocRows s j.entry) = none →
    let f := j.entry.leAt 0x10 2
    Completes .fnAlloc s j { status := 0x00, r0 := f } (modFn f (newFn j.entry) s) ∧
    Answers .fnAlloc s fun t => (t.fn f).run = .ready ∧ (t.fn f).tenant = j.entry.leAt 0x12 2 ∧
      (t.fn f).jqN = j.entry.leAt 0x14 1 ∧ (t.fn f).cqN = j.entry.leAt 0x15 1 ∧ (t.fn f).vecN = j.entry.leAt 0x16 1 ∧
      (t.fn f).skN = j.entry.leAt 0x17 1 ∧ (t.fn f).quota = j.entry.leAt 0x18 4 ∧ (t.fn f).share = j.entry.leAt 0x1C 2 ∧
      (t.fn f).qosMin = j.entry.leAt 0x20 4 ∧ (t.fn f).qosCeil = j.entry.leAt 0x24 4 ∧ (t.fn f).qosWeight = j.entry.leAt 0x28 2 ∧
      (t.fn f).jqs = [] ∧ (t.fn f).cqs = [] ∧ (t.fn f).vecs = [] ∧ 1 ≤ f ∧ f ≤ 2048 ∧
      (∀ g, g ≠ f → stillFn (t.fn g) = stillFn (s.fn g))

/-- Function `f` of `t` is under a reset of that cause that began now, its configuration space, vectors and random-page
reads gone. -/
abbrev UnderReset (f cause : Nat) (s t : State) : Prop :=
  (t.fn f).run = .resetting ∧ (t.fn f).resetCause = cause ∧ (t.fn f).resetAt = s.now ∧ (t.fn f).rngBuf = [] ∧
  (t.fn f).rngStall = [] ∧ (t.fn f).vecs = [] ∧ (t.fn f).cfg.bme = false ∧ (t.fn f).tenant = (s.fn f).tenant ∧
  (t.fn f).jqs.keys = (s.fn f).jqs.keys

/-- Without a job of function `f`, a reset of it changes no job, no byte of memory, no slot and no other function. -/
abbrev ResetFrame (f : Nat) (s t : State) : Prop :=
  s.inFlight f = 0 → t.jobs = s.jobs ∧ t.mem = s.mem ∧ t.store = s.store ∧ t.fab = s.fab ∧
    ∀ g, g ≠ f → stillFn (t.fn g) = stillFn (s.fn g)

/-- R164, R168, R170: each way to start the reset of a function in service (FLR, a reset of another cause, VF Enable, or Bus
Master Enable cleared while it holds work) leaves it RESETTING, with the cause and the
Meridian time of its start, its vectors, its read buffer and its stalled reads gone; PF0's FLR also starts those of the VFs
in service, with cause 4, and stops dirty logging. A function already under reset goes on with that reset. R163, R164, R169,
R311: a reset whose reads and cores have let go
ends: the function is READY with its allocation, its queues and session keys gone and of FN_EVENT at most PERR left; the FN_RESET that
waited for it completes with OK, and so does the FN_FREE, which leaves the function without an allocation; an FN_RESET or
FN_FREE whose checks pass starts the reset it waits for, or joins the one in progress, FN_FREE stopping dirty logging with it. -/
def Obligations.FunctionResets : Prop :=
  (∀ (s : State) (f : Nat), f ≠ 0 → (s.fn f).run ≠ .resetting → (s.fn f).run ≠ .unallocated →
    Answers (.flr f) s fun t => UnderReset f 1 s t ∧ ResetFrame f s t ∧ t.life = s.life) ∧
  (∀ (s : State) (f : Nat), (s.fn 0).run ≠ .resetting → (s.fn 0).run ≠ .unallocated → s.jobs = [] →
    f ∈ s.fns.keys → f ≠ 0 → (s.fn f).run ≠ .resetting → (s.fn f).run ≠ .unallocated →
    Answers (.flr 0) s fun t => UnderReset 0 1 s t ∧ UnderReset f 4 s t ∧ (∀ g, (t.fn g).log = none) ∧ t.jobs = [] ∧
      t.mem = s.mem ∧ t.store = s.store ∧ t.life = s.life) ∧
  (∀ (s : State) (f cause : Nat), f ≠ 0 → (s.fn f).run ≠ .resetting → (s.fn f).run ≠ .unallocated →
    Answers (.functionReset f cause) s fun t => UnderReset f cause s t ∧ ResetFrame f s t ∧ t.life = s.life) ∧
  (∀ (s : State) (f cause : Nat), (f ≠ 0 ∨ cause ≠ 7) → (s.fn f).run = .resetting →
    Answers (.functionReset f cause) s (Quiet s) ∧ Answers (.flr f) s (Quiet s) ∧ Answers (.busMasterEnableClear f) s (Quiet s)) ∧
  (∀ (s : State) (f : Nat), f ∈ s.fns.keys → f ≠ 0 → (s.fn 0).run ≠ .resetting → (s.fn f).run ≠ .resetting →
    (s.fn f).run ≠ .unallocated → s.jobs = [] →
    Answers .vfEnableClear s fun t => UnderReset f 4 s t ∧ (t.fn 0).cfg.vfEnable = false ∧ (t.fn 0).run = (s.fn 0).run ∧
      t.jobs = [] ∧ t.mem = s.mem ∧ t.store = s.store ∧ t.life = s.life) ∧
  (∀ (s : State) (f : Nat), f ≠ 0 → (s.fn f).run ≠ .resetting → (s.fn f).run ≠ .unallocated → 0 < s.inFlight f →
    Answers (.busMasterEnableClear f) s fun t => UnderReset f 3 s t ∧ t.life = s.life) ∧
  (∀ (s : State) (f : Nat), (s.fn f).run ≠ .resetting → s.inFlight f = 0 →
    Answers (.busMasterEnableClear f) s
      (Quiet (modFn f (fun g => { g with cfg := { g.cfg with bme := false } }) s))) ∧
  (∀ (s : State) (f : Nat), (s.fn f).run = .resetting → (s.fn f).reading = [] → s.inFlight f = 0 →
    (s.jobs.find? (waitsReset f Op.fnFree)) = none →
    Answers (.functionResetComplete f) s fun t => (t.fn f).run = .ready ∧ (t.fn f).tenant = (s.fn f).tenant ∧
      (t.fn f).jqs = [] ∧ (t.fn f).cqs = [] ∧ (t.fn f).sk = [] ∧ (t.fn f).quota = (s.fn f).quota ∧
      (t.fn f).qosMin = (s.fn f).qosMin ∧ (t.fn f).log = (s.fn f).log ∧ t.mem = s.mem ∧ t.store = s.store ∧
      (∀ g, g ≠ f → stillFn (t.fn g) = stillFn (s.fn g)) ∧
      match s.jobs.find? (waitsReset f Op.fnReset) with
      | some j => (t.job? j.ref).map (·.outcome) = some (some { status := 0x00 })
      | none => t.jobs = s.jobs) ∧
  (∀ (s : State) (f : Nat) (j : Job), (s.fn f).run = .resetting → (s.fn f).reading = [] → s.inFlight f = 0 →
    s.jobs.find? (waitsReset f Op.fnFree) = some j →
    Answers (.functionResetComplete f) s fun t => (t.fn f).run = .unallocated ∧ (t.fn f).quota = 0 ∧ (t.fn f).jqN = 0 ∧
      (t.fn f).jqs = [] ∧ (t.fn f).cqs = [] ∧ (t.fn f).sk = [] ∧ (t.fn f).log = none ∧
      (t.job? j.ref).map (·.outcome) = some (some { status := 0x00 }) ∧ t.mem = s.mem ∧ t.store = s.store ∧
      ∀ g, g ≠ f → stillFn (t.fn g) = stillFn (s.fn g)) ∧
  (∀ (s : State) (j : Job), s.admin? 0 Op.fnReset = some j → s.job? j.ref = some j → j.phase = 0 → (∀ c ∈ s.worlds.calls, c.subJob ≠ some j.ref) →
    let f := j.entry.leAt 0x10 2
    firstFail ((rsvSet j.entry [(0x12, 46)], bad 0x02) :: fnRows s f) = none →
    if (s.fn f).run = .resetting then
      Answers .fnReset s (Quiet (modJob j.ref (fun k => { k with phase := 1 }) s))
    else
      Answers .fnReset s fun t => UnderReset f 2 s t ∧ (s.inFlight f = 0 → t.mem = s.mem ∧ t.store = s.store) ∧ t.life = s.life ∧
        (t.job? j.ref).map (fun k => (k.phase, k.outcome)) = some (1, none)) ∧
  (∀ (s : State) (j : Job), s.admin? 0 Op.fnFree = some j → s.job? j.ref = some j → j.phase = 0 → (∀ c ∈ s.worlds.calls, c.subJob ≠ some j.ref) →
    let f := j.entry.leAt 0x10 2
    firstFail (freeRows s j.entry) = none →
    if (s.fn f).run = .resetting then
      Answers .fnFree s (Quiet (modFn f (fun g => { g with log := none }) (modJob j.ref (fun k => { k with phase := 1 }) s)))
    else
      Answers .fnFree s fun t => UnderReset f 6 s t ∧ (t.fn f).log = none ∧
        (s.inFlight f = 0 → t.mem = s.mem ∧ t.store = s.store) ∧ t.life = s.life ∧
        (t.job? j.ref).map (fun k => (k.phase, k.outcome)) = some (1, none))

/-- Only session key set `set` of function `f` differs, but for what the mask generators have served. -/
abbrev OnlySet (f set : Nat) (s t : State) : Prop :=
  (∀ g, g ≠ f → t.fn g = s.fn g) ∧ t.fn f = { s.fn f with sk := (t.fn f).sk } ∧ (∀ k, k ≠ set → (t.fn f).set k = (s.fn f).set k) ∧
    t = { s with fns := t.fns, fab := { s.fab with gens := t.fab.gens } }

/-- R68: a LOAD takes effect only when every key word that KLEN requires has been written and KLEN is not 3: it puts the staged
key in both copies and erases staging; otherwise it changes no key and sets LOAD_ERR, and in DECOMMISSIONED it always
does (the model's reading of R236, log entry 151); its KLEN is the one being written, and is stored with it (the model's choice, log
entry 153). R67: SESSION_KEY_CLEAR,
a write with CLEAR, performs only the CLEAR, a LOAD in it included: it erases the set and its staging. A write of FN_SK_KEY changes its
bytes of staging and no key in force; one of eight bytes at an odd word is refused. No other set, no other function, and
nothing else changes. -/
def Obligations.SessionKeys : Prop :=
  (∀ (s : State) (f set k v : Nat) (wide : Bool), s.pageOpen f = true → set < (s.fn f).skN → k < 8 →
    (wide = true → k % 2 = 0) →
    Answers (.fnSkKeyWrite f set k wide v) s fun t =>
      ((t.fn f).set set).staging = ((s.fn f).set set).staging.patch (4 * k) (Bytes.ofLE (if wide then 8 else 4) v) ∧
      (t.fn f).set set = { (s.fn f).set set with staging := ((t.fn f).set set).staging, writtenK := ((t.fn f).set set).writtenK } ∧
      k ∈ ((t.fn f).set set).writtenK ∧ OnlySet f set s t) ∧
  (∀ (s : State) (f set k v : Nat), s.pageOpen f = true → set < (s.fn f).skN → k < 8 → k % 2 = 1 →
    Answers (.fnSkKeyWrite f set k true v) s (Quiet s)) ∧
  (∀ (s : State) (f set : Nat) (v : Word), s.pageOpen f = true → set < (s.fn f).skN → v.getLsbD 8 = true →
    v.getLsbD 9 = false →
    Answers (.sessionKeyLoad f set v) s fun t => OnlySet f set s t ∧
      let x := (s.fn f).set set
      let y := (t.fn f).set set
      y.klen = bitsOf v.toNat 1 0 ∧
      if loadable x (bitsOf v.toNat 1 0) = true ∧ s.life.lc ≠ .decommissioned then
        y.valid = true ∧ y.a.clear = x.staging.take (4 * keyWords (bitsOf v.toNat 1 0)) ∧ y.b.clear = y.a.clear ∧
          y.staging = Bytes.zeros 32 ∧ y.writtenK = []
      else y.loadErr = true ∧ y.valid = x.valid ∧ y.a = x.a ∧ y.b = x.b ∧ y.staging = x.staging ∧ y.writtenK = x.writtenK) ∧
  (∀ (s : State) (f set : Nat) (v : Word), s.pageOpen f = true → set < (s.fn f).skN → v.getLsbD 9 = true →
    Answers (.sessionKeyClear f set v) s fun t => OnlySet f set s t ∧
      let y := (t.fn f).set set
      y.valid = false ∧ y.a = {} ∧ y.b = {} ∧ y.staging = Bytes.zeros 32 ∧ y.writtenK = []) ∧
  (∀ (s : State) (f set : Nat) (v : Word), s.pageOpen f = true → set < (s.fn f).skN → v.getLsbD 8 = true → v.getLsbD 9 = true →
    Answers (.sessionKeyLoad f set v) s fun t => OnlySet f set s t ∧
      let y := (t.fn f).set set
      y.valid = false ∧ y.a = {} ∧ y.b = {} ∧ y.staging = Bytes.zeros 32 ∧ y.writtenK = [])

/-- Every mirror of function `f` covers its queue's records. -/
abbrev MirrorsCovered (s : State) (f : Nat) : Prop := ∀ c q, s.cq? f c = some q → q.pi = q.covered

/-- R175: a D3hot write of a function in service discards its read buffer and releases its run-ahead; without committed work
the function sleeps at once, and with it, it goes on until that has ended; 10 ms after the write, a committed job of the
function that no core holds, whose claim nothing else
has, whose completion is open and which awaits no read is gone, and a function with none left sleeps; a D0 write of a sleeping function
returns it to where it was, and one of a function still in quiescence ends that. R151, R173, R174, R293: MSI-X Enable cleared discards
every pending event and PBA bit; a vector unmasked is sent when it waited only for that, and the function's mask cleared, or
Bus Master Enable set, lets its vectors go; Memory Space Enable cleared, of PF0 or of the VFs, discards the read buffers. Mirrors that lag are
written when a function goes to sleep; no other byte of memory and no slot changes. -/
def Obligations.PowerStatesAndEnables : Prop :=
  (∀ (s : State) (f : Nat), (s.fn f).quiesce = none → ((s.fn f).run = .ready ∨ (s.fn f).run = .frozen) → s.busy f = false →
    Answers (.d3hotWrite f) s fun t => (t.fn f).run = .d3hot ∧ (t.fn f).rngBuf = [] ∧ (t.fn f).quiesce = none ∧
      (t.fn f).cfg.d3 = true ∧ (t.fn f).froze = decide ((s.fn f).run = .frozen) ∧
      (∀ r, r.fn ≠ f → t.job? r = s.job? r) ∧ (∀ r, r.fn = f → t.job? r = none) ∧
      (MirrorsCovered s f → t.mem = s.mem) ∧ t.store = s.store) ∧
  (∀ (s : State) (f : Nat), (s.fn f).quiesce = none → ((s.fn f).run = .ready ∨ (s.fn f).run = .frozen) → s.busy f = true →
    Answers (.d3hotWrite f) s fun t => (t.fn f).run = (s.fn f).run ∧ (t.fn f).rngBuf = [] ∧ (t.fn f).quiesce = some s.now ∧
      (∀ r, r.fn ≠ f → t.job? r = s.job? r) ∧ t.mem = s.mem ∧ t.store = s.store) ∧
  (∀ (s : State) (f t0 : Nat), (s.fn f).quiesce = some t0 → elapsedUs s.now t0 10000 = true → s.busy f = false →
    Answers (.quiescenceTimeout f) s fun t => (t.fn f).run = .d3hot ∧ (t.fn f).quiesce = none ∧ t.jobs = s.jobs ∧
      (MirrorsCovered s f → t.mem = s.mem) ∧ t.store = s.store) ∧
  (∀ (s : State) (f t0 : Nat) (j : Job), (s.fn f).quiesce = some t0 → elapsedUs s.now t0 10000 = true →
    (s.fn f).run ≠ .resetting → s.job? j.ref = some j → j.ref.fn = f → j.committed = true → safeToEnd j = true →
    onCore j.ref s = false → j.claim = false → j.outcome = none → j.ended = false →
    awaits j { status := 0x10, detail := 1 } = false → Answers (.quiescenceTimeout f) s fun t => t.job? j.ref = none) ∧
  (∀ (s : State) (f : Nat), (s.fn f).run = .d3hot →
    Answers (.d0Write f) s fun t => (t.fn f).run = (if (s.fn f).froze then .frozen else .ready) ∧ (t.fn f).froze = false ∧
      (t.fn f).cfg.d3 = false ∧ (∀ g, g ≠ f → t.fn g = s.fn g) ∧ t = { s with fns := t.fns, out := t.out }) ∧
  (∀ (s : State) (f t0 : Nat), (s.fn f).quiesce = some t0 → (s.fn f).run ≠ .d3hot → (s.fn f).run ≠ .resetting →
    Answers (.d0Write f) s fun t => (t.fn f).quiesce = none ∧ (t.fn f).run = (s.fn f).run ∧ (t.fn f).froze = false ∧
      (t.fn f).cfg.d3 = false ∧ (∀ g, g ≠ f → t.fn g = s.fn g) ∧ t = { s with fns := t.fns }) ∧
  (∀ (s : State) (f : Nat), (s.fn f).run ≠ .resetting →
    Answers (.msixEnableClear f) s fun t => (t.fn f).cfg.msixEnable = false ∧
      (∀ v, ((t.fn f).vec v).pending = false ∧ ((t.fn f).vec v).pba = false ∧ ((t.fn f).vec v).n = 0 ∧
        ((t.fn f).vec v).addr = ((s.fn f).vec v).addr ∧ ((t.fn f).vec v).ctrl = ((s.fn f).vec v).ctrl) ∧
      (∀ g, g ≠ f → t.fn g = s.fn g) ∧ t = { s with fns := t.fns }) ∧
  (∀ (s : State) (f v : Nat), s.pageOpen f = true → v < (s.fn f).vecN → ((s.fn f).vec v).pba = true →
    (s.fn f).cfg.msixEnable = true → (s.fn f).cfg.msixMask = false → (s.fn f).cfg.bme = true →
    ((s.fn f).vec v).ctrl = 1 →
    Answers (.msixUnmask f (some v)) s fun t => t.out = .msix f v ((s.fn f).vec v).addr ((s.fn f).vec v).data :: s.out ∧
      ((t.fn f).vec v).pba = false ∧ ((t.fn f).vec v).ctrl = 0 ∧ (∀ w, w ≠ v → (t.fn f).vec w = (s.fn f).vec w) ∧
      (∀ g, g ≠ f → t.fn g = s.fn g) ∧ t = { s with fns := t.fns, out := t.out }) ∧
  (∀ (s : State) (f : Nat), (s.fn f).run ≠ .resetting →
    Answers (.msixUnmask f none) s fun t => (t.fn f).cfg = { (s.fn f).cfg with msixMask := false } ∧
      (∀ g, g ≠ f → t.fn g = s.fn g) ∧ t = { s with fns := t.fns, out := t.out }) ∧
  (∀ (s : State) (f : Nat), (s.fn f).run ≠ .resetting →
    Answers (.busMasterEnableSet f) s fun t => (t.fn f).cfg = { (s.fn f).cfg with bme := true } ∧
      (∀ g, g ≠ f → t.fn g = s.fn g) ∧ t = { s with fns := t.fns, out := t.out }) ∧
  (∀ (s : State) (f : Nat), (s.fn 0).run ≠ .resetting →
    Answers (.memorySpaceEnableClear f) s fun t => (t.fn f).rngBuf = [] ∧
      (if f = 0 then (t.fn 0).cfg.mse = false else (t.fn 0).cfg.vfMse = false) ∧ t = { s with fns := t.fns })

/-- R176, R177, R179: a DIRTY_LOG START with its range table read and good begins a log with nothing in it, BITMAP_A
active; a bad table is refused with 0x15 and begins none; a SYNC reports the bits set so far and the bitmap it retires, its
cache merged first, and makes the other active; a STOP reports the same and ends the log. -/
def Obligations.DirtyLogs : Prop :=
  (∀ (s : State) (j : Job), s.admin? 0 Op.dirtyLog = some j → j.entry.at_ 0x10 = 0 →
    firstFail (logRows s j.entry true) = none → j.reads = .arrived →
    let f := j.entry.leAt 0x12 2
    let l := (List.range (j.entry.at_ 0x14).toNat).map (rangeAt (j.input 0 s))
    if rangesBad (j.input 0 s) l then Completes .dirtyLogStart s j { status := 0x20, detail := 0x15 } s
    else Completes .dirtyLogStart s j { status := 0x00 } (modFn f (fun g => { g with log := some { ranges := l } }) s) ∧
      Answers .dirtyLogStart s fun t => ∃ l, (t.fn f).log = some l ∧ l.useB = false ∧ l.cache = [] ∧ l.count = 0 ∧
        l.outside = false ∧ l.ranges.length = (j.entry.at_ 0x14).toNat ∧ t.mem = s.mem) ∧
  (∀ (s : State) (j : Job) (l : DirtyLog), s.admin? 0 Op.dirtyLog = some j → j.entry.at_ 0x10 = 1 →
    firstFail (logRows s j.entry false) = none →
    let f := j.entry.leAt 0x12 2
    ((mergeDirty f s).fn f).log = some l →
    Completes .dirtyLogSync s j { status := 0x00, r0 := min l.count 0xFFFFFFFF, r1 := b2n l.outside + 2 * b2n l.useB }
      (modFn f (fun g => { g with log := some { ranges := l.ranges, useB := !l.useB } }) (mergeDirty f s))) ∧
  (∀ (s : State) (j : Job) (l : DirtyLog), s.admin? 0 Op.dirtyLog = some j → j.entry.at_ 0x10 = 2 →
    firstFail (logRows s j.entry false) = none →
    let f := j.entry.leAt 0x12 2
    ((mergeDirty f s).fn f).log = some l →
    Completes .dirtyLogStop s j { status := 0x00, r0 := min l.count 0xFFFFFFFF, r1 := b2n l.outside + 2 * b2n l.useB }
      (modFn f (fun g => { g with log := none }) (mergeDirty f s))) ∧
  (∀ (s : State) (f : Nat) (l : DirtyLog), (s.fn f).log = some l → l.cache = [] →
    (mergeDirty f s).mem = s.mem ∧ ((mergeDirty f s).fn f).log = some l)

/-- R180, R181, R182: a FREEZE of a READY function without committed work freezes it at once, and one of a function with
committed work waits, the function taking no new work; a THAW returns a FROZEN one
to READY; a SAVE of a FROZEN one with its IV drawn writes the blob and changes no function; a FN_STATE_LOAD whose blob
is read and passes leaves its function FROZEN with the blob's queues, and one whose blob does not pass changes nothing. -/
def Obligations.Migration : Prop :=
  (∀ (s : State) (j : Job), s.admin? 0 Op.fnStateSave = some j → j.entry.at_ 0x10 = 0 → j.phase = 0 →
    let f := j.entry.leAt 0x12 2
    firstFail (stateRows s j.entry false) = none → (s.fn f).run = .ready → s.busy f = false → (s.fn f).aqBusy = false →
    Answers .freeze s fun t => (t.fn f).run = .frozen ∧ (t.fn f).freezing = false ∧
      (t.job? j.ref).map (·.outcome) = some (some { status := 0x00 }) ∧ (∀ r, r.fn ≠ f → r ≠ j.ref → t.job? r = s.job? r) ∧
      (MirrorsCovered s f → t.mem = s.mem) ∧ t.store = s.store ∧ t.life = s.life ∧
      ∀ g, g ≠ f → stillFn (t.fn g) = stillFn (s.fn g)) ∧
  (∀ (s : State) (j : Job), s.admin? 0 Op.fnStateSave = some j → s.job? j.ref = some j → j.entry.at_ 0x10 = 0 → j.phase = 0 →
    let f := j.entry.leAt 0x12 2
    firstFail (stateRows s j.entry false) = none → (s.fn f).run = .ready → s.busy f = true →
    Answers .freeze s fun t => (t.fn f).run = .ready ∧ (t.fn f).freezing = true ∧
      (t.job? j.ref).map (fun k => (k.phase, k.outcome)) = some (1, none) ∧ t.mem = s.mem ∧ t.store = s.store ∧
      ∀ g, g ≠ f → stillFn (t.fn g) = stillFn (s.fn g)) ∧
  (∀ (s : State) (j : Job), s.admin? 0 Op.fnStateSave = some j → j.entry.at_ 0x10 = 2 →
    firstFail (stateRows s j.entry false) = none → (s.fn (j.entry.leAt 0x12 2)).run = .frozen →
    Completes .thaw s j { status := 0x00 } (modFn (j.entry.leAt 0x12 2) (fun g => { g with run := .ready, thawed := true }) s)) ∧
  (∀ (s u : State) (j : Job) (iv : Bytes), s.admin? 0 Op.fnStateSave = some j → j.entry.at_ 0x10 = 1 →
    firstFail (saveRows s j.entry) = none → fwRandom 12 s = .ok (iv, u) →
    let f := j.entry.leAt 0x12 2
    let b := saveBlob (u.transport.getD []) iv u.life.domId f (u.fn f) u.now
    Completes .save s j { status := 0x00, r0 := b.length } (hostWrite 0 (j.entry.leAt 0x18 8) b u) ∧
    Answers .save s fun t => (∀ g, (t.fn g).run = (s.fn g).run ∧ (t.fn g).jqs = (s.fn g).jqs) ∧
      ((s.fn 0).log = none → Tidy s → t.hostRead 0 (j.entry.leAt 0x18 8) b.length = b ∧
        OnlyWrites 0 (j.entry.leAt 0x18 8) b.length s t)) ∧
  (∀ (s : State) (j : Job), s.admin? 0 Op.fnStateLoad = some j → firstFail (loadRows s j.entry) = none →
    j.reads = .arrived →
    let f := j.entry.leAt 0x10 2
    let blob := j.input 0 s
    match firstFail (stateBlobRows s f blob) with
    | none =>
      let body := gcmCrypt (s.transport.getD []) (blob.slice 0x38 12) ((blob.drop 80).take (blob.length - 96))
      Completes .fnStateLoad s j { status := 0x00 } (loadFn f body s) ∧
      Answers .fnStateLoad s fun t => (t.fn f).run = .frozen ∧ t.mem = s.mem ∧ t.store = s.store ∧
        (∀ k ∈ bitsSet 64 (body.leAt 0x78 8), k ≠ 0 → (t.cq? f k).isSome = true) ∧
        ∀ g, g ≠ f → stillFn (t.fn g) = stillFn (s.fn g)
    | some d => Completes .fnStateLoad s j d s)

/-! ## The object dictionary (R340, R341) -/

/-- The value a DICT_WRITE carries: in the entry, or as read from SRC_ADDR. -/
abbrev ValueHere (s : State) (j : Job) (v : Bytes) : Prop :=
  (j.entry.leAt 0x18 8 = 0 ∧ v = j.entry.slice 0x28 (writeLen j.entry)) ∨
  (j.entry.leAt 0x18 8 ≠ 0 ∧ j.reads = .arrived ∧ v = j.input 0 s)

/-- R328, R340, R341: a DICT_READ whose value fits the completion or its buffer completes with OK and the value, a stored value being
read from the store after its copies are checked; a DICT_WRITE with every check passed writes its value: one of a class P object
is in force and completes with OK, detail 0x01 when profile 0 is active, and is stored in the active profile else; one with TARGET
is stored in that profile and not in force; each names the write exactly. -/
def Obligations.DictionaryAccess : Prop :=
  (∀ (s : State) (f : Nat) (j : Job), s.admin? f Op.dictRead = some j →
    let u := readStore j.entry s
    firstFail (readRows u (hostUser f) j.entry) = none → j.entry.leAt 0x18 8 = 0 → (readBytes u j.entry).length ≤ 8 →
    Completes (.dictRead f) s j
      { status := 0x00, r0 := (readBytes u j.entry).leAt 0 4, r1 := (readBytes u j.entry).leAt 4 4 } u) ∧
  (∀ (s : State) (f : Nat) (j : Job), s.admin? f Op.dictRead = some j →
    let u := readStore j.entry s
    firstFail (readRows u (hostUser f) j.entry) = none → j.entry.leAt 0x18 8 ≠ 0 → readBytes u j.entry ≠ [] →
    (readBytes u j.entry).length ≤ j.entry.leAt 0x20 4 →
    Completes (.dictRead f) s j { status := 0x00, r0 := (readBytes u j.entry).length }
      (hostWrite f (j.entry.leAt 0x18 8) (readBytes u j.entry) u)) ∧
  (∀ (s : State) (f : Nat) (j : Job) (o : Obj) (v : Bytes), s.admin? f Op.dictWrite = some j →
    firstFail (writeAccessRows s (hostUser f) j.entry) = none → objOf (dictIndex j.entry) (dictSub j.entry) = some o →
    firstFail (writeLenRows o j.entry) = none → ValueHere s j v → writeValueRefusal s o j.entry v = none →
    Completes (.dictWrite f) s j (writeGoes (hostUser f) o j.entry v s).1 (writeGoes (hostUser f) o j.entry v s).2 ∧
    (o.cls = .p → dictFlag1 j.entry = false →
      Answers (.dictWrite f) s fun t => t.dict.force.find? (objKey (dictIndex j.entry) o.sub) = some v ∧
        (t.job? j.ref).map (·.outcome) = some (some { status := 0x00, detail := if s.dict.active = 0 then 0x01 else 0x00 }) ∧
        (s.dict.active ≠ 0 → (t.profile s.dict.active).vals.find? (objKey (dictIndex j.entry) o.sub) = some v) ∧
        t.store = s.store ∧ t.life = s.life ∧ t.mem = s.mem) ∧
    (o.cls = .p → dictFlag1 j.entry = true →
      Answers (.dictWrite f) s fun t => (t.profile (dictProfile j.entry)).vals.find? (objKey (dictIndex j.entry) o.sub) = some v ∧
        t.dict.force = s.dict.force ∧ (t.job? j.ref).map (·.outcome) = some (some { status := 0x00 }) ∧
        t.store = s.store ∧ t.life = s.life ∧ t.mem = s.mem))

/-! ## Attestation and ceremonies (chapter 7) -/

/-- What ATTEST answers with output `out` in state `u`: the output at DST_ADDR when it fits DST_MAX, and else BAD_ENTRY, 0x24,
with the length needed and nothing written. -/
abbrev AttestGives (i : Instr) (s u : State) (f : Nat) (j : Job) (out : Bytes) : Prop :=
  if out.length ≤ j.entry.leAt 0x20 4 then
    Completes i s j { status := 0x00, r0 := out.length } (if out.isEmpty then u else hostWrite f (j.entry.leAt 0x18 8) out u)
  else Completes i s j { status := 0x20, detail := 0x24, r0 := out.length } u

/-- Drawing random bytes changes no memory, slot, ceremony, role or dictionary value, and takes no time. -/
abbrev DrawFrame (s u : State) : Prop :=
  u.mem = s.mem ∧ u.store = s.store ∧ u.life = s.life ∧ u.custody = s.custody ∧ u.dict.force = s.dict.force ∧ u.now = s.now

/-- R247, R248: an ATTEST whose checks pass answers with the statement, signed now over the nonce in the entry, or with a
certificate chain, when it fits DST_MAX, and with BAD_ENTRY, 0x24, and the length needed when it does not. A statement whose
signatures wait for the generator (R289) leaves the command in progress. But for the output nothing changes. -/
def Obligations.AttestAnswers : Prop :=
  (∀ (s : State) (f : Nat) (j : Job), s.admin? f Op.attest = some j → attOp j.entry = 0 → firstFail (attRows j.entry) = none →
    let nonce := j.entry.slice 0x28 (j.entry.at_ 0x11).toNat
    match makeStatement nonce s with
    | .ok (out, u) => AttestGives (.attestStatement f) s u f j out ∧ DrawFrame s u ∧
        ∃ e m, out = statement (attPayload s nonce) e m
    | .error u => Answers (.attestStatement f) s (Quiet u) ∧ DrawFrame s u) ∧
  (∀ (s : State) (f : Nat) (j : Job), s.admin? f Op.attest = some j → attOp j.entry = 1 → firstFail (attRows j.entry) = none →
    AttestGives (.attestChainEcdsa f) s s f j Config.chainEcdsa) ∧
  (∀ (s : State) (f : Nat) (j : Job), s.admin? f Op.attest = some j → attOp j.entry = 2 → firstFail (attRows j.entry) = none →
    AttestGives (.attestChainMldsa f) s s f j Config.chainMldsa)

/-- `s` with its open ceremony replaced. -/
abbrev withCer (k : Option Ceremony) (s : State) : State := { s with custody := { s.custody with cer := k } }

/-- Memory, slots, life-cycle, roles, dictionary values and Vesper are as before. -/
abbrev CerFrame (s t : State) : Prop :=
  t.mem = s.mem ∧ t.store = s.store ∧ t.life = s.life ∧ t.custody.roles = s.custody.roles ∧
    t.custody.quorumM = s.custody.quorumM ∧ t.dict.force = s.dict.force ∧ t.dict.profiles = s.dict.profiles ∧ t.vesper = s.vesper

/-- R226, R227, R229: an OPEN whose checks pass opens a ceremony: it gathers approvals until 120 s from now, its number
is the low word of the counter mono, which goes up by one, and OUT holds the 104-byte challenge with the action, the number,
the state, the two times, the nonce just drawn and the digest of the block; with no random bytes to be had it waits; without
room for the challenge it is refused. R227, R232: a STATUS of a ceremony that is not in its continuation window writes its 16
bytes and changes nothing else. R233: a CANCEL of a ceremony that does not execute closes it, and a waiting EXECUTE ends
with QUORUM_REQUIRED, 0x04. R232: a challenge that expires while its ceremony gathers approvals, and a continuation window
that ends, close the ceremony, a waiting EXECUTE ending with QUORUM_REQUIRED, 0x02; before that they change nothing. -/
def Obligations.CeremoniesOpenCloseAndExpire : Prop :=
  (∀ (s u : State) (j : Job) (nonce : Bytes), s.admin? 0 Op.ceremony = some j → cerOp j.entry = 0 →
    firstFail (openRows s j.entry) = none → j.reads = .arrived → 104 ≤ cerMax j.entry →
    paramRefusal s (cerAction j.entry) (j.input 0 s) = none → fwRandom 16 s = .ok (nonce, u) →
    let ch := challengeOf s ((s.custody.mono + 1) % 2 ^ 32) (cerAction j.entry) (j.input 0 s) nonce
    let c : Ceremony := { id := (s.custody.mono + 1) % 2 ^ 32, action := cerAction j.entry, params := j.input 0 s, challenge := ch
                          lc := s.life.lc.code, expires := s.now + 120 * second, fdpPath := false }
    Completes .ceremonyOpen s j { status := 0x00, r0 := c.id }
      (hostWrite 0 (cerOut j.entry) ch { u with custody := { s.custody with mono := s.custody.mono + 1, cer := some c } }) ∧
    ch.length = 104 ∧ Bytes.leAt ch 6 2 = cerAction j.entry % 2 ^ 16 ∧ Bytes.leAt ch 0x10 4 = c.id ∧
    (Bytes.at_ ch 0x14).toNat = s.life.lc.code ∧ Bytes.leAt ch 0x18 8 = s.now % 2 ^ 64 ∧
    Bytes.leAt ch 0x20 8 = (s.now + 120 * second) % 2 ^ 64 ∧ Bytes.slice ch 0x28 16 = nonce ∧ ch.drop 0x38 = sha384 (j.input 0 s) ∧
    Answers .ceremonyOpen s fun t => t.store = s.store ∧ t.life = s.life ∧ t.custody.roles = s.custody.roles ∧
      (Tidy s → (s.fn 0).log = none → t.hostRead 0 (cerOut j.entry) 104 = ch ∧ OnlyWrites 0 (cerOut j.entry) 104 s t)) ∧
  (∀ (s u : State) (j : Job), s.admin? 0 Op.ceremony = some j → cerOp j.entry = 0 →
    firstFail (openRows s j.entry) = none → j.reads = .arrived → 104 ≤ cerMax j.entry →
    paramRefusal s (cerAction j.entry) (j.input 0 s) = none → fwRandom 16 s = .error u → Answers .ceremonyOpen s (Quiet u)) ∧
  (∀ (s : State) (j : Job), s.admin? 0 Op.ceremony = some j → cerOp j.entry = 0 →
    firstFail (openRows s j.entry) = none → j.reads = .arrived → cerMax j.entry < 104 →
    paramRefusal s (cerAction j.entry) (j.input 0 s) = none →
    Completes .ceremonyOpen s j { status := 0x20, detail := 0x24, r0 := 104 } s) ∧
  (∀ (s : State) (j : Job) (c : Ceremony), s.admin? 0 Op.ceremony = some j → cerOp j.entry = 1 → cerRsv j.entry = false →
    s.named j.entry = some c → 16 ≤ cerMax j.entry →
    if c.stage = .window then Completes .ceremonyStatus s j { status := 0x20, detail := 0x31 } s
    else Completes .ceremonyStatus s j { status := 0x00, r0 := 16 } (hostWrite 0 (cerOut j.entry)
      (Bytes.ofLE 4 c.id ++ Bytes.ofLE 2 c.action ++ Bytes.ofNats [c.approvals.length, (c.challenge.at_ 0x15).toNat] ++
        Bytes.ofLE 8 c.expires) s)) ∧
  (∀ (s : State) (j : Job) (c : Ceremony), s.admin? 0 Op.ceremony = some j → cerOp j.entry = 4 → cerRsv j.entry = false →
    s.named j.entry = some c → c.stage ≠ .executing →
    Completes .ceremonyCancel s j { status := 0x00 } (answerCaller c.caller { status := 0x72, detail := 0x04 } [] (withCer none s)) ∧
    Answers .ceremonyCancel s fun t => t.custody = { s.custody with cer := none } ∧ CerFrame s t) ∧
  (∀ (s : State) (c : Ceremony), s.custody.cer = some c → c.stage = .gathering → s.now ≥ c.expires →
    Answers .challengeExpiry s (Quiet (answerCaller c.caller { status := 0x72, detail := 0x02 } [] (withCer none s))) ∧
    Answers .challengeExpiry s fun t => t.custody = { s.custody with cer := none } ∧ CerFrame s t) ∧
  (∀ (s : State) (c : Ceremony), s.custody.cer = some c → c.stage = .window → c.action ≠ Act.cellService →
    s.now ≥ c.windowEnd → c.caller = none →
    Answers .continuationWindowExpiry s (Quiet (withCer none s))) ∧
  (∀ (s : State) (c : Ceremony), s.custody.cer = some c →
    (c.stage ≠ .gathering ∨ s.now < c.expires → Answers .challengeExpiry s (· = s)) ∧
    (c.stage ≠ .window ∨ s.now < c.windowEnd → Answers .continuationWindowExpiry s (· = s)))

/-- R225, R232, R236: an EXECUTE of a ceremony that gathers approvals and has no other EXECUTE in progress: with its quorum held
and nothing else in the way the action starts; an UNLOCK while an alarm condition persists and a DEBUG_ENTER with TEST_EN low
are UNAVAILABLE, and the ceremony stays open; without the quorum it ends with QUORUM_REQUIRED, 0x01, or waits when it asks
to. Where the ceremony no longer gathers, has expired, or has another EXECUTE in progress it is refused with BAD_ENTRY,
0x31. Nothing else changes. -/
def Obligations.ExecuteNeedsTheQuorum : Prop :=
  ∀ (s : State) (j : Job) (c : Ceremony), s.admin? 0 Op.ceremony = some j → cerOp j.entry = 2 → cerRsv j.entry = false →
    s.named j.entry = some c → c.caller ≠ some (.admin j.ref) →
    if c.stage ≠ .gathering ∨ s.now ≥ c.expires ∨ callerAlive s c.caller = true then
      Completes .ceremonyExecute s j { status := 0x20, detail := 0x31 } s
    else if quorumHeld s c then
      if c.action = Act.unlock ∧ alarmPersists s = true then
        Completes .ceremonyExecute s j { status := 0x71, detail := 0x05 } (withCer (some { c with caller := none }) s)
      else if c.action = Act.debugEnter ∧ s.boot.testEn = false then
        Completes .ceremonyExecute s j { status := 0x71, detail := 0x06 } (withCer (some { c with caller := none }) s)
      else Answers .ceremonyExecute s (Quiet (withCer (some { c with stage := .executing, caller := some (.admin j.ref) }) s))
    else if j.entry.at_ 0x11 = 1 then
      Answers .ceremonyExecute s (Quiet (withCer (some { c with caller := some (.admin j.ref) }) s))
    else Completes .ceremonyExecute s j { status := 0x72, detail := 0x01 } s

/-- R230, R231: an APPROVE with its signature read. One that verifies under no key of that custodian is refused with
ACCESS_DENIED, 0x0A, and one that breaks a check before that with that check's completion; a rejection closes the ceremony,
a waiting EXECUTE ending with QUORUM_REQUIRED, 0x03; a first approval is added, and a repeated one counts once, with detail
0x01. R232: where the approval completes the quorum for a waiting EXECUTE, its action starts. Nothing else changes. -/
def Obligations.ApprovalsCount : Prop :=
  (∀ (s : State) (j : Job) (d : Done), s.admin? 0 Op.approve = some j → firstFail (apprRows s j.entry false) = some d →
    Completes .approve s j d s) ∧
  ∀ (s : State) (j : Job) (c : Ceremony), s.admin? 0 Op.approve = some j → firstFail (apprRows s j.entry false) = none →
    j.reads = .arrived → approvable s j.entry = some c →
    match (approvers s c (apprWho j.entry)).find? (fun a => verifySig a.2.1 false a.2.2
        (approvalTbs c.challenge (apprWho j.entry) (apprDecision j.entry)) (j.input 0 s)) with
    | none => Completes .approve s j { status := 0x22, detail := 0x0A } s
    | some a =>
      let k := { c with approvals := c.approvals ++ [a.1] }
      if apprDecision j.entry = 2 then
        Completes .approve s j { status := 0x00 } (answerCaller c.caller { status := 0x72, detail := 0x03 } [] (withCer none s))
      else if c.approvals.contains a.1 then Completes .approve s j { status := 0x00, detail := 0x01 } s
      else if quorumHeld s k = true ∧ callerAlive s c.caller = true ∧ c.caller ≠ none then
        startRefusal s k = none →
        Completes .approve s j { status := 0x00 } (withCer (some { k with stage := .executing }) s)
      else Completes .approve s j { status := 0x00 } (withCer (some k) s)

/-- A ceremony of action `n` executes and custody firmware runs. -/
abbrev Executing (s : State) (n : Nat) (c : Ceremony) : Prop :=
  s.custody.cer = some c ∧ c.action = n ∧ c.stage = .executing ∧ s.secureRuns = true

/-- Action `i` is over in state `u`, with ceremony `k` after it: the caller of `c` is answered with `d` and output `out`. -/
abbrev ActionEnds (i : Instr) (s u : State) (c : Ceremony) (k : Option Ceremony) (d : Done) (out : Bytes) : Prop :=
  Answers i s (Quiet (answerCaller c.caller d out (withCer k u)))

/-- Action `i` has succeeded: the state is `u`, and the ceremony is closed. -/
abbrev ActionDone (i : Instr) (s u : State) (c : Ceremony) : Prop := ActionEnds i s u c none { status := 0x00 } []

/-- What a transition leaves alone: memory, dictionary values and, but for those a caller names, slots, where no job is in
flight that it ends. -/
abbrev MoveFrame (slots : Nat → Prop) (s t : State) : Prop :=
  t.dict.force = s.dict.force ∧ t.dict.profiles = s.dict.profiles ∧
    ((∀ k ∈ s.jobs, endsAtTransition k = false) → t.mem = s.mem ∧ ∀ n, slots n → t.slot n = s.slot n)

/-- R219, R225, R234, R241: what executing INITIALISE, CUSTODIANS and DOMAIN_CREATE leave: the role table of the block
and its M; a root in INITIALIZED; a domain with its key in slot 0 and its transport key in slot 1 in OPERATIONAL; session and
IDE keys gone; the ceremony closed and its caller answered. Each names the state after it exactly. One whose random bytes
are not to be had waits. -/
def Obligations.InitialiseCustodiansDomain : Prop :=
  (∀ (s u : State) (c : Ceremony) (root : Bytes), Executing s Act.initialise c → fwRandom 32 s = .ok (root, u) →
    ActionDone .initialise s (moveLife .initialized c.id (putRoles c.params (newRoot root u))) c ∧
    Answers .initialise s fun t => t.life.lc = .initialized ∧ t.life.root = root ∧ t.life.rootMain = root ∧
      t.life.lockClass = .none_ ∧ t.custody.roles = roleTable s.now ((blockRoles c.params).getD []) ∧
      t.custody.quorumM = (c.params.at_ 8).toNat ∧ t.custody.cer = none ∧ (∀ f, (t.fn f).sk = []) ∧ t.link.ide = [] ∧
      MoveFrame (fun _ => True) s t) ∧
  (∀ (s u : State) (c : Ceremony), Executing s Act.initialise c → fwRandom 32 s = .error u → Answers .initialise s (Quiet u)) ∧
  (∀ (s : State) (c : Ceremony), Executing s Act.custodians c →
    let l := roleTable s.now ((blockRoles c.params).getD [])
    let key (m : FMap RoleKey) (i : Nat) : Option Bytes := (m.find? i).map (·.key)
    ActionDone .custodians s (endSessions (fun x => decide (key s.custody.roles x.entry ≠ key l x.entry)) (putRoles c.params s)) c ∧
    Answers .custodians s fun t => t.custody.roles = l ∧
      t.custody.quorumM = (c.params.at_ 8).toNat ∧ t.custody.cer = none ∧ t.life = s.life ∧ t.store = s.store ∧ t.mem = s.mem) ∧
  (∀ (s u : State) (c : Ceremony) (b : Bytes), Executing s Act.domainCreate c → fwRandom 48 s = .ok (b, u) →
    ActionDone .domainCreate s (moveLife .operational c.id (acquireDomain (b.take 32) (b.drop 32) 1 u)) c ∧
    Answers .domainCreate s fun t => t.life.lc = .operational ∧ t.life.domHow = 1 ∧ t.life.domId = b.drop 32 ∧
      (t.slot 0).st = .loaded ∧ (t.slot 0).a.key.clear = b.take 32 ∧ (t.slot 1).st = .loaded ∧
      (t.slot 1).a.key.clear = transportKey (b.take 32) (b.drop 32) ∧ t.life.root = s.life.root ∧ t.custody.cer = none ∧
      t.custody.roles = s.custody.roles ∧ (∀ f, (t.fn f).sk = []) ∧ t.link.ide = [] ∧ MoveFrame (2 ≤ ·) s t) ∧
  (∀ (s u : State) (c : Ceremony), Executing s Act.domainCreate c → fwRandom 48 s = .error u →
    Answers .domainCreate s (Quiet u))

/-- An action with message `out`: with room for it, it ends in `u` with the message sent, and the ceremony is `k`; without, its
caller gets BAD_ENTRY, 0x24, and the length needed, and the ceremony gathers again with nothing else changed. -/
abbrev MessageOrNoRoom (i : Instr) (s u : State) (c : Ceremony) (k : Option Ceremony) (out : Bytes) : Prop :=
  if out.length ≤ callerRoom s c.caller then ActionEnds i s u c k { status := 0x00, r0 := out.length } out
  else ActionEnds i s s c (some { c with stage := .gathering, caller := none })
    { status := 0x20, detail := 0x24, r0 := out.length } []

/-- What a DOMAIN_ADMIT draws: its nonce and a statement over it. -/
abbrev admitDraws (s : State) : Drawn (Bytes × Bytes) :=
  (fwRandom 32 s).go fun nonce v => (makeStatement nonce v).go fun att u => .ok ((nonce, att), u)

/-- What a DOMAIN_JOIN draws: its nonce, its ephemeral keys, and a statement over them and the OFFER. -/
abbrev joinDraws (o : Bytes) (s : State) : Drawn (Bytes × Ephemeral × Bytes) :=
  (fwRandom 32 s).go fun nonce v => (drawPair v).go fun k w =>
    (makeStatement (sha384 (o ++ (nonce ++ k.epk ++ k.ek))) w).go fun att u => .ok ((nonce, k, att), u)

/-- What a SHARE_RESTORE draws: its ephemeral keys and a statement over them and the front of its request. -/
abbrev restoreDraws (front : Bytes) (s : State) : Drawn (Ephemeral × Bytes) :=
  (drawPair s).go fun k w => (makeStatement (sha384 (front ++ k.epk ++ k.ek)) w).go fun att u => .ok ((k, att), u)

/-- What a SHARE_EXPORT with these k and n draws: its set number with the polynomials, and a pair for each recipient. -/
abbrev exportDraws (k n : Nat) (s : State) : Drawn (Bytes × List (Bytes × Bytes)) :=
  (fwRandom (16 + 32 * (k - 1)) s).go fun b v => (drawShares n v).go fun l u => .ok ((b, l), u)

/-- R244, R245, R246: executing DOMAIN_ADMIT, DOMAIN_JOIN, SHARE_RESTORE and SHARE_EXPORT, once they have drawn their random
bytes. With room for its message the first three open a continuation window and the last closes its ceremony; without room
nothing but the ceremony's return to gathering happens; and a DOMAIN_JOIN whose OFFER is not well-formed, or whose statement
is not the peer's, gathers again. An action whose draws are not to be had waits. No life-cycle state, slot, role or
dictionary value changes. -/
def Obligations.JoinsAndShares : Prop :=
  (∀ (s : State) (c : Ceremony), Executing s Act.domainAdmit c →
    match admitDraws s with
    | .error u => Answers .domainAdmit s (Quiet u) ∧ DrawFrame s u
    | .ok ((nonce, att), u) =>
      let ends := s.now + c.params.leAt 16 2 * second
      let offer := joinMsg 1 (s.life.domId.fit 16 ++ c.params.slice 8 8 ++ Bytes.ofLE 8 ends ++ nonce ++ Bytes.ofLE 4 att.length ++ att)
      MessageOrNoRoom .domainAdmit s u c (some { c with offer := offer, stage := .window, windowEnd := ends, caller := none }) offer ∧
        DrawFrame s u) ∧
  (∀ (s : State) (c : Ceremony), Executing s Act.domainJoin c →
    let o := offerOf c.params
    if offerOk c.params = false then
      ActionEnds .domainJoin s s c (some { c with stage := .gathering, caller := none }) { status := 0x20, detail := 0x35 } []
    else if peerIs (peerClaims (offerAtt o)) (c.params.leAt 8 8) 2 (c.params.slice 16 16) (o.slice 52 32) = false then
      ActionEnds .domainJoin s s c (some { c with stage := .gathering, caller := none }) { status := 0x20, detail := 0x36 } []
    else match joinDraws o s with
      | .error u => Answers .domainJoin s (Quiet u) ∧ DrawFrame s u
      | .ok ((nonce, k, att), u) =>
        let req := joinMsg 2 (nonce ++ k.epk ++ k.ek ++ Bytes.ofLE 4 att.length ++ att)
        MessageOrNoRoom .domainJoin s u c (some { c with offer := o, request := req, secret := k.secret, stage := .window
                                                         windowEnd := s.now + 600 * second, caller := none }) req ∧
          DrawFrame s u) ∧
  (∀ (s : State) (c : Ceremony), Executing s Act.shareRestore c →
    let front := c.params.slice 8 32
    match restoreDraws front s with
    | .error u => Answers .shareRestore s (Quiet u) ∧ DrawFrame s u
    | .ok ((k, att), u) =>
      let req := joinMsg 4 (front ++ Bytes.ofNats [(c.params.at_ 40).toNat] ++ k.epk ++ k.ek ++ att)
      MessageOrNoRoom .shareRestore s u c (some { c with request := k.epk ++ k.ek, secret := k.secret, stage := .window
                                                         windowEnd := s.now + 3600 * second, caller := none }) req ∧
        DrawFrame s u) ∧
  (∀ (s : State) (c : Ceremony), Executing s Act.shareExport c →
    let k := (c.params.at_ 8).toNat
    let n := (c.params.at_ 9).toNat
    match exportDraws k n s with
    | .error u => Answers .shareExport s (Quiet u) ∧ DrawFrame s u
    | .ok ((b, l), u) =>
      let dk := (s.domainKey.getD []).fit 32
      let id := s.life.domId.fit 16
      let out := l.zipIdx.flatMap fun x =>
        let p := recipient c.params x.2
        shareRecord (shareHead k n (x.2 + 1) id (b.take 16) (shareCheck id dk) s.now (recipientId (p.slice 32 97) (p.slice 129 1568)))
          (shareOf dk (b.drop 16) k (x.2 + 1)) (p.slice 32 97) (p.slice 129 1568) x.1.1 x.1.2
      MessageOrNoRoom .shareExport s u c none out ∧ DrawFrame s u)

/-- R244, R246: a CONTINUE whose message is read. That of an admission answers with the RESPONSE and closes the ceremony,
or waits for the generator, or is refused with the window left open; a join's with a RESPONSE whose signatures and key are good
brings the domain, and any other is refused with 0x35 or 0x37 and the ephemeral keys dropped. A share restore with an
unreadable record answers BAD_ENTRY, 0x38, and keeps its window; a good record is kept while more are needed; the record that
makes up the quorum closes the ceremony, with the domain restored when its CHECK is right and BAD_ENTRY, 0x39, and nothing
else changed when it is not. R245, R246: any two different shares of a 2-of-n export of a domain key give the key back. -/
def Obligations.ContinueRestoresTheKey : Prop :=
  (∀ (s : State) (j : Job) (c : Ceremony), s.admin? 0 Op.ceremony = some j → cerOp j.entry = 3 →
    firstFail (continueRows s j.entry) = none → j.reads = .arrived → s.named j.entry = some c →
    c.action = Act.shareRestore →
    let m := j.input 0 s
    match openShare c m with
    | none => Completes .ceremonyContinue s j { status := 0x20, detail := 0x38 } s
    | some v =>
      let l := c.shares ++ [((m.at_ 8).toNat, v)]
      let id := c.params.slice 8 16
      if l.length < (c.params.at_ 40).toNat then
        Completes .ceremonyContinue s j { status := 0x00 } (withCer (some { c with shares := l, check := m.slice 0x30 16 }) s)
      else if shareCheck id (interpolate l) = m.slice 0x30 16 then
        Completes .ceremonyContinue s j { status := 0x00 }
          (withCer none (moveLife .operational c.id (acquireDomain (interpolate l) id 3 s))) ∧
        Answers .ceremonyContinue s fun t => t.custody.cer = none ∧ t.life.lc = .operational ∧ t.life.domHow = 3 ∧
          t.life.domId = id ∧ (t.slot 0).st = .loaded ∧ (t.slot 0).a.key.clear = interpolate l ∧ t.life.root = s.life.root ∧
          MoveFrame (2 ≤ ·) s t
      else Completes .ceremonyContinue s j { status := 0x20, detail := 0x39 } (withCer none s)) ∧
  (∀ (s : State) (j : Job) (c : Ceremony), s.admin? 0 Op.ceremony = some j → cerOp j.entry = 3 →
    firstFail (continueRows s j.entry) = none → j.reads = .arrived → s.named j.entry = some c →
    c.action = Act.domainAdmit →
    match continueAdmit c (j.input 0 s) s with
    | .error u => Answers .ceremonyContinue s (Quiet u)
    | .ok a =>
      if a.out.length > cerMax j.entry then
        Completes .ceremonyContinue s j { status := 0x20, detail := 0x24, r0 := a.out.length } s
      else if a.out.isEmpty then Completes .ceremonyContinue s j a.done s ∧ (a.done.detail = 0x35 ∨ a.done.detail = 0x36)
      else Completes .ceremonyContinue s j { status := 0x00, r0 := a.out.length }
          (hostWrite 0 (cerOut j.entry) a.out (withCer none a.s)) ∧
        a.s.life = s.life ∧ a.s.store = s.store ∧ a.s.mem = s.mem ∧ a.s.custody = s.custody) ∧
  (∀ (s : State) (j : Job) (c : Ceremony), s.admin? 0 Op.ceremony = some j → cerOp j.entry = 3 →
    firstFail (continueRows s j.entry) = none → j.reads = .arrived → s.named j.entry = some c →
    c.action = Act.domainJoin →
    let m := j.input 0 s
    let id := c.params.slice 16 16
    let th := sha384 (c.offer ++ c.request ++ m.slice 20 97 ++ m.slice 117 1568)
    let plain := kwpUnwrap (joinKek th (hybridReceive c.secret (m.slice 20 97) (m.slice 117 1568)) id) (m.slice 1685 56)
    let signed := (peerClaims (offerAtt c.offer)).any fun p =>
      verifySig 1 false p.keyE (joinTbs th (m.slice 1685 56)) (m.slice 1741 96) &&
        verifySig 2 false p.keyM (joinTbs th (m.slice 1685 56)) (m.slice 1837 3309)
    let dropped := withCer (some { c with secret := [] }) s
    if (joinOk 3 m && decide (m.length = 5146) && (pubRefusal 0x09 0 (m.slice 20 97)).isNone) = false then
      Completes .ceremonyContinue s j { status := 0x20, detail := 0x35 } dropped
    else match plain with
      | none => Completes .ceremonyContinue s j { status := 0x20, detail := 0x37 } dropped
      | some b =>
        if signed = true ∧ c.secret ≠ [] ∧ b.length = 48 ∧ b.take 16 = id then
          Completes .ceremonyContinue s j { status := 0x00 }
            (withCer none (moveLife .operational c.id (acquireDomain (b.drop 16) id 2 s))) ∧
          Answers .ceremonyContinue s fun t => t.custody.cer = none ∧ t.life.lc = .operational ∧ t.life.domHow = 2 ∧
            t.life.domId = id ∧ (t.slot 0).a.key.clear = b.drop 16 ∧ t.life.root = s.life.root ∧ MoveFrame (2 ≤ ·) s t
        else Completes .ceremonyContinue s j { status := 0x20, detail := 0x37 } dropped) ∧
  (∀ (dk coef : Bytes) (x y : Nat), dk.length = 32 → 1 ≤ x → x ≤ 16 → 1 ≤ y → y ≤ 16 → x ≠ y →
    interpolate [(x, shareOf dk coef 2 x), (y, shareOf dk coef 2 y)] = dk)

/-- R219, R221, R235, R236: the life-cycle actions. LOCK keeps the root and the slots' keys, notes the state it left, and ends
every session key; an UNLOCK of a ceremony's lock or of class L that no alarm holds up returns to that state with no
latch; after class Z the slots reload besides; after class V it makes a new root and no domain; DEBUG_ENTER with TEST_EN
high destroys the domain and installs the test root; DEBUG_EXIT makes a new root in INITIALIZED without a domain;
DECOMMISSION leaves neither root, roles nor profiles. Each closes its ceremony, answers its caller and names the state
after it exactly; an UNLOCK or a DEBUG_ENTER that something holds up changes nothing but the ceremony's return to
gathering; one whose random bytes are not to be had waits. -/
def Obligations.LifeCycleActions : Prop :=
  (∀ (s : State) (c : Ceremony), Executing s Act.lock c →
    ActionDone .lock s (enterLocked .ceremony s.vesper.calendar c.id (leaveLife false true s)) c ∧
    Answers .lock s fun t => t.life.lc = .locked ∧ t.life.lockClass = .ceremony ∧ t.life.before = s.life.lc ∧
      t.life.lockTime = s.vesper.calendar ∧ t.life.root = s.life.root ∧ t.life.dkWrapped = s.life.dkWrapped ∧
      (∀ f, (t.fn f).sk = []) ∧ t.link.ide = [] ∧ t.custody.cer = none ∧ t.custody.roles = s.custody.roles ∧
      MoveFrame (fun _ => True) s t) ∧
  (∀ (s : State) (c : Ceremony), Executing s Act.unlock c → startRefusal s c = none →
    s.life.lockClass ≠ .v → ActionDone .unlock s (unlockGo c [] s) c) ∧
  (∀ (s : State) (c : Ceremony), Executing s Act.unlock c → startRefusal s c = none →
    (s.life.lockClass = .ceremony ∨ s.life.lockClass = .l) →
    Answers .unlock s fun t => t.life.lc = s.life.before ∧
      (s.life.before ≠ .locked → t.life.lockClass = .none_ ∧ t.life.lockTime = 0) ∧ t.vesper.latch = 0 ∧ t.vesper.repeats = 0 ∧ t.life.root = s.life.root ∧ t.life.dkWrapped = s.life.dkWrapped ∧ t.custody.cer = none ∧
      t.custody.roles = s.custody.roles ∧ MoveFrame (fun _ => True) s t) ∧
  (∀ (s : State) (c : Ceremony), Executing s Act.unlock c → startRefusal s c = none → s.life.lockClass = .z →
    Answers .unlock s fun t => t.life.lc = s.life.before ∧ (s.life.before ≠ .locked → t.life.lockClass = .none_) ∧
      t.vesper.latch = 0 ∧ t.life.root = s.life.root ∧ t.life.dkWrapped = s.life.dkWrapped ∧ (t.slot 2).st = .loaded ∧ (t.slot 3).st = .loaded ∧
      (s.life.dkWrapped ≠ [] → ((t.slot 0).st = .loaded ∨ (t.slot 0).st = .bad)) ∧ t.custody.cer = none ∧
      MoveFrame (4 ≤ ·) s t) ∧
  (∀ (s u : State) (c : Ceremony) (root : Bytes), Executing s Act.unlock c → startRefusal s c = none → s.life.lockClass = .v →
    fwRandom 32 s = .ok (root, u) →
    ActionDone .unlock s (unlockGo c root u) c ∧
    Answers .unlock s fun t => t.life.lc = .initialized ∧ t.life.lockClass = .none_ ∧ t.life.root = root ∧
      t.life.dkWrapped = [] ∧ t.life.domHow = 0 ∧ t.vesper.latch = 0 ∧ t.custody.cer = none ∧ MoveFrame (4 ≤ ·) s t) ∧
  (∀ (s u : State) (c : Ceremony) (b : Bytes), Executing s Act.debugEnter c → s.boot.testEn = true → fwRandom 48 s = .ok (b, u) →
    ActionDone .debugEnter s (acquireDomain (b.take 32) (b.drop 32) 4
      (putAttest (enterLife .debug c.id (newRoot testRoot (destroyAll u))))) c ∧
    Answers .debugEnter s fun t => t.life.lc = .debug ∧ t.life.root = (List.range 32).map (BitVec.ofNat 8) ∧
      t.life.domHow = 4 ∧ (t.slot 0).st = .loaded ∧ (t.slot 0).a.key.clear = b.take 32 ∧
      (∀ n, 64 ≤ n → (t.slot n).st = .empty) ∧ (∀ f, (t.fn f).sk = []) ∧ t.custody.cer = none ∧ MoveFrame (fun _ => False) s t) ∧
  (∀ (s u : State) (c : Ceremony) (root : Bytes), Executing s Act.debugExit c → fwRandom 32 s = .ok (root, u) →
    ActionDone .debugExit s (enterLife .initialized c.id (newRoot root (eraseDomain (destroyStore (leaveLife true false u))))) c ∧
    Answers .debugExit s fun t => t.life.lc = .initialized ∧ t.life.root = root ∧ t.life.dkWrapped = [] ∧
      (∀ n, 64 ≤ n → (t.slot n).st = .empty) ∧ t.custody.cer = none ∧ MoveFrame (fun n => n = 2 ∨ n = 3) s t) ∧
  (∀ (s : State) (c : Ceremony), Executing s Act.decommission c →
    let v := destroyAll s
    ActionDone .decommission s (enterLife .decommissioned c.id (putAttest (persist 4 { v with
      custody := { v.custody with roles := [], quorumM := 0, quorumN := 0 }, dict := { v.dict with profiles := [] } }))) c ∧
    Answers .decommission s fun t => t.life.lc = .decommissioned ∧ t.life.root = [] ∧ t.life.rootMain = [] ∧
      t.life.dkWrapped = [] ∧ t.custody.roles = [] ∧ t.custody.quorumM = 0 ∧ t.dict.profiles = [] ∧
      (∀ n, 64 ≤ n → (t.slot n).st = .empty) ∧ (∀ f, (t.fn f).sk = []) ∧ t.custody.cer = none ∧ t.dict.force = s.dict.force) ∧
  (∀ (s : State) (c : Ceremony) (i : Instr) (n : Nat) (d : Done), Executing s n c → startRefusal s c = some d →
    (i = .unlock ∧ n = Act.unlock ∨ i = .debugEnter ∧ n = Act.debugEnter) →
    ActionEnds i s s c (some { c with stage := .gathering, caller := none }) d []) ∧
  (∀ (s u : State) (c : Ceremony),
    (Executing s Act.unlock c → startRefusal s c = none → s.life.lockClass = .v → fwRandom 32 s = .error u →
      Answers .unlock s (Quiet u)) ∧
    (Executing s Act.debugEnter c → s.boot.testEn = true → fwRandom 48 s = .error u → Answers .debugEnter s (Quiet u)) ∧
    (Executing s Act.debugExit c → fwRandom 32 s = .error u → Answers .debugExit s (Quiet u)))

/-- The image of an FW_REGISTER is there: its DMA read has arrived with `image`, or, for an EXECUTE over FDP, custody firmware
reads it from PF0's memory now. -/
abbrev ImageHere (s : State) (c : Ceremony) (image : Bytes) : Prop :=
  ((∀ r, c.caller ≠ some (.admin r)) ∧ image = s.hostRead 0 (c.params.leAt 16 8) (c.params.leAt 12 4)) ∨
    ∃ r k, c.caller = some (.admin r) ∧ s.job? r = some k ∧ k.outcome = none ∧ k.reads = .arrived ∧ image = k.inA.getD 0 []

/-- R237 to R240: an FW_REGISTER whose image is read, or asked for over FDP: an image that passes is stored as the newer one
and counted in mono.fw, one that does not leaves everything as it was and the ceremony open with BAD_ENTRY, 0x34; one whose
read has not begun begins it. An EXT_KEY registers its key, counted in mono.fw, or revokes it; a DICT_QUORUM with
nothing to refuse puts all of its values in force and one with something to refuse none; CELL_SERVICE opens its window with
the charger in SERVICE. Each names the state after it exactly. -/
def Obligations.FirmwareKeysQuorumCell : Prop :=
  (∀ (s : State) (c : Ceremony) (image : Bytes), Executing s Act.fwRegister c → ImageHere s c image →
    let x : Image := { svn := c.params.leAt 24 4, digest := c.params.slice 32 48, bytes := image }
    if imagePasses s c.params image then
      ActionDone .fwRegister s { s with
        boot := if c.params.at_ 8 = 1 then { s.boot with custodyNew := some x } else { s.boot with serviceNew := some x }
        custody := { s.custody with monoFw := s.custody.monoFw + 1 } } c
    else ActionEnds .fwRegister s s c (some { c with stage := .gathering, caller := none }) { status := 0x20, detail := 0x34 } []) ∧
  (∀ (s : State) (c : Ceremony) (r : JobRef) (k : Job), Executing s Act.fwRegister c → c.caller = some (.admin r) →
    s.job? r = some k → k.outcome = none → k.reads = .none_ →
    Answers .fwRegister s fun t => t = { s with jobs := t.jobs } ∧ t.job? r = some { k with reads := .outstanding } ∧
      ∀ q, q ≠ r → t.job? q = s.job? q) ∧
  (∀ (s : State) (c : Ceremony), Executing s Act.extKey c → c.params.at_ 9 = 0 →
    ActionDone .extKey s (persist 0 { s with custody := { s.custody with
      extKeys := s.custody.extKeys.set (c.params.at_ 8).toNat
        { alg := (c.params.at_ 10).toNat, key := c.params.slice 16 (c.params.leAt 12 2), since := s.now }
      monoFw := s.custody.monoFw + 1 } }) c) ∧
  (∀ (s : State) (c : Ceremony), Executing s Act.extKey c → c.params.at_ 9 ≠ 0 →
    Answers .extKey s fun t => t.custody.extKeys.find? (c.params.at_ 8).toNat = none ∧
      (∀ i, i ≠ (c.params.at_ 8).toNat → t.custody.extKeys.find? i = s.custody.extKeys.find? i) ∧
      t.custody.monoFw = s.custody.monoFw ∧ t.custody.cer = none ∧ t.life = s.life) ∧
  (∀ (s : State) (c : Ceremony), Executing s Act.dictQuorum c →
    let l := (blockWrites c.params).getD []
    match l.findSome? (quorumRefusal s) with
    | some d => ActionEnds .dictQuorum s s c none d []
    | none => ActionDone .dictQuorum s (l.foldl (fun s w => quorumWrite (quorumUser c.caller) w s) s) c) ∧
  (∀ (s : State) (c : Ceremony) (w : QuorumWrite) (o : Obj), Executing s Act.dictQuorum c →
    blockWrites c.params = some [w] → quorumRefusal s w = none → objOf w.index w.sub = some o → o.cls = .p →
    Answers .dictQuorum s fun t => t.dict.force.find? (objKey w.index o.sub) = some w.value ∧ t.custody.cer = none ∧
      t.life = s.life ∧ t.store = s.store ∧ t.mem = s.mem) ∧
  (∀ (s : State) (c : Ceremony), Executing s Act.cellService c →
    let ends := s.now + c.params.leAt 8 2 * second
    ActionEnds .cellService s (chargeTo .service (modVesper (fun v => { v with window := some { ends := ends } }) s)) c
      (some { c with stage := .window, windowEnd := ends, caller := none }) { status := 0x00 } [] ∧
    Answers .cellService s fun t => (t.vesper.window).map (·.ends) = some ends ∧
      t.vesper.cell.st = .service ∧ t.life = s.life ∧ t.store = s.store ∧ t.mem = s.mem)

/-! ## Service extensions (R381 to R387) -/

/-- PF0's EXT_CALL `j` asks for manager operation `n` and passes the checks common to calls. -/
abbrev ManagerCall (s : State) (j : Job) (n : Nat) : Prop :=
  s.admin? 0 Op.extCall = some j ∧ callService j.entry = 0 ∧ callCode j.entry = n ∧ firstFail (callRows s 0 j.entry) = none

/-- Extension `x`, loaded as `e`, runs call `c` of job `j`, the one call that job has. -/
abbrev Serving (s : State) (x : Nat) (c : Call) (j : Job) (e : Ext) : Prop :=
  s.normalRuns = true ∧ currentCall s x = some (c, j) ∧ s.ext? x = some e ∧ ∀ d ∈ s.worlds.calls, d.job = c.job → d = c

/-- R381, R383, R386: a LOAD whose image is read: a good image that fits becomes one more extension, its number, key, measure
and image kept, its pages free ones of the pool, and stored as well; any other is refused with BAD_ENTRY, 0x61 or 0x62, and
changes nothing; one whose read has not begun begins it. An UNLOAD leaves no extension of its number, zeroed pages, and ends
its calls with UNAVAILABLE, 0x0A; a LIST writes the records when they fit, and changes nothing else; an EXT_CALL that
passes its checks takes its place behind the calls there are, and one that does not ends with the check's completion. -/
def Obligations.ExtensionsAreManaged : Prop :=
  (∀ (s : State) (j : Job), ManagerCall s j 0 → callInLen j.entry ≠ 0 → j.reads = .arrived →
    let b := j.input 0 s
    if imgGood s b = false then Completes .load s j { status := 0x20, detail := 0x61 } s
    else if ((s.ext? (imgId b)).isSome || !pagesFit s b) = true then
      Completes .load s j { status := 0x20, detail := 0x62 } s
    else
      Completes .load s j { status := 0x00, r1 := imgId b } { placeExt b s with
        worlds := { (placeExt b s).worlds with stored := s.worlds.stored ++ [b] } } ∧
      Answers .load s fun t =>
        (∃ x, t.worlds.exts = s.worlds.exts ++ [x] ∧ x.id = imgId b ∧ x.image = b ∧ x.key = imgKey b ∧ x.header = b.take 128 ∧
          x.measure = sha384 (imgSigned b) ∧ x.code.length = imgCode b / 4096 ∧ x.data.length = imgData b / 4096 ∧
          x.zero.length = imgZero b ∧ ∀ p ∈ x.pages, p ∈ freePages s) ∧
        t.worlds.stored = s.worlds.stored ++ [b] ∧ t.worlds.calls = s.worlds.calls ∧ t.mem = s.mem ∧ t.store = s.store ∧
        t.life = s.life) ∧
  (∀ (s : State) (j : Job), ManagerCall s j 0 → callInLen j.entry = 0 → Completes .load s j { status := 0x20, detail := 0x61 } s) ∧
  (∀ (s : State) (j : Job), ManagerCall s j 0 → callInLen j.entry ≠ 0 → j.reads = .none_ →
    Answers .load s (Quiet (startReads j.ref s))) ∧
  (∀ (s : State) (j : Job) (x : Ext), ManagerCall s j 1 → s.ext? (callArg0 j.entry) = some x →
    Completes .unload s j { status := 0x00 } (endExt x 2 s) ∧
    Answers .unload s fun t => t.ext? (callArg0 j.entry) = none ∧ (∀ k, k ≠ callArg0 j.entry → t.ext? k = s.ext? k) ∧
      (∀ c ∈ t.cram, c.1 / 4096 ∉ x.pages) ∧ t.life = s.life ∧
      ((∀ c ∈ s.worlds.calls, c.subJob = none) → t.mem = s.mem ∧ t.store = s.store ∧
        ∀ c ∈ s.worlds.calls, c.ext = x.id → c.job ≠ j.ref → (s.job? c.job).map (·.outcome) = some none →
          (t.job? c.job).map (·.outcome) = some (some { status := 0x71, detail := 0x0A }))) ∧
  (∀ (s : State) (j : Job), ManagerCall s j 1 → s.ext? (callArg0 j.entry) = none →
    Completes .unload s j { status := 0x71, detail := 0x0A } s) ∧
  (∀ (s : State) (j : Job), ManagerCall s j 2 →
    let b := (List.range 9).flatMap fun e => if (s.ext? e).isSome then extRecord s e else []
    if b.length > callMax j.entry then Completes .list s j { status := 0x20, detail := 0x24, r0 := b.length } s
    else Completes .list s j { status := 0x00, r0 := b.length } (hostWrite 0 (callOut j.entry) b s)) ∧
  (∀ (s : State) (f : Nat) (j : Job), s.admin? f Op.extCall = some j → callService j.entry ≠ 0 →
    (s.worlds.calls.any fun c => decide (c.job = j.ref)) = false →
    match firstFail (callRows s f j.entry) with
    | some d => Completes (.extCall f) s j d s
    | none => Answers (.extCall f) s (Quiet { s with worlds := { s.worlds with
        calls := s.worlds.calls ++ [{ job := j.ref, ext := callService j.entry }] } }))

/-- The call of job `r` ends with `d` (R385). -/
abbrev CallEnds (r : JobRef) (d : Done) (s : State) : State := closeCall r (decideJob r d s)

/-- R384, R385: the services of a running call. RETURN ends it, with FAULT, 0x03, where its status or detail is none that an
extension may return. READ_IN asks for the caller's data and, once it has come, puts it in control RAM; WRITE_OUT takes
bytes from there to the caller's memory, within OUT_MAX, and counts them; RANDOM, TIME and DICT_READ put their answers in
control RAM, RANDOM waiting while the caller's buffer is short and DICT_READ putting nothing while the secure world is
halted; SUBMIT adds a job of the caller, where its table has room; LOG only records. A buffer outside the extension's pages,
a SUBMIT without JOBS and a DICT_READ without DICT end the call with FAULT, 0x03. Each names the state after it exactly, and
so what it leaves alone. -/
def Obligations.ExtensionServices : Prop :=
  (∀ (s : State) (x status detail r1 : Nat) (c : Call) (j : Job) (e : Ext), Serving s x c j e →
    Answers (.ret x status detail r1) s fun t =>
      Quiet (CallEnds c.job (if returnOk status detail then { status := status, detail := detail, r0 := c.out, r1 := r1 }
        else { status := 0x61, detail := 0x03 }) s) t ∧
      (t.job? c.job).map (·.outcome) = some (some
        (if returnOk status detail then { status := status, detail := detail, r0 := c.out, r1 := r1 }
         else { status := 0x61, detail := 0x03 })) ∧
      t.worlds.calls = s.worlds.calls.filter (fun d => decide (d.job ≠ c.job)) ∧ (∀ p ∈ t.cram, p.1 / 4096 ∉ e.zero) ∧
      t.mem = s.mem ∧ t.store = s.store ∧ ∀ k, k ≠ c.job → t.job? k = s.job? k) ∧
  (∀ (s : State) (x inOff dst n : Nat) (c : Call) (j : Job) (e : Ext), Serving s x c j e →
    (n = 0 ∨ inPages (e.data ++ e.zero) dst n = true) →
    let k := min n (callInLen j.entry - inOff)
    (k = 0 ∨ j.reads = .outstanding → Answers (.readIn x inOff dst n) s (Quiet s)) ∧
    (0 < k → j.reads = .none_ → Answers (.readIn x inOff dst n) s (Quiet (startReads c.job s))) ∧
    (0 < k → j.reads = .arrived → Answers (.readIn x inOff dst n) s fun t =>
      Quiet (modJob c.job (fun j => { j with reads := .none_ }) (ramWrite dst ((j.input 0 s).slice inOff k) s)) t ∧
      (Tidy s → t.ramRead dst ((j.input 0 s).slice inOff k).length = (j.input 0 s).slice inOff k))) ∧
  (∀ (s : State) (x src outOff n : Nat) (c : Call) (j : Job) (e : Ext), Serving s x c j e →
    (n = 0 ∨ inPages e.pages src n = true) →
    let k := min n (callMax j.entry - outOff)
    let a := callOut j.entry + outOff
    Answers (.writeOut x src outOff n) s fun t =>
      Quiet (modCall c.job (fun c => { c with out := c.out + k })
        (if k = 0 then s else hostWrite c.job.fn a (s.ramRead src k) s)) t ∧
      (Tidy s → (s.fn c.job.fn).log = none → t.hostRead c.job.fn a k = s.ramRead src k ∧ OnlyWrites c.job.fn a k s t)) ∧
  (∀ (s : State) (x entryAt slots recAt : Nat) (c : Call) (j : Job) (e : Ext), Serving s x c j e →
    imgFlag e.header 1 = true → (slots = 0 ∨ inPages e.pages entryAt (64 * slots) = true) →
    inPages (e.data ++ e.zero) recAt 32 = true →
    if s.inFlight c.job.fn < (s.fn c.job.fn).share ∧ s.jobs.length < 16384 then
      let b := s.ramRead entryAt (64 * slots)
      let r : JobRef := { fn := c.job.fn, jq := subQueue, index := BitVec.ofNat 32 s.stamp }
      Answers (.submit x entryAt slots recAt) s (Quiet (modCall c.job
        (fun c => { c with recAt := some (recAt - 0x10000000), subJob := some r })
        { s with stamp := s.stamp + 1, jobs := s.jobs ++ [{ ref := r, entry := b, len := slots
                                                            header := submitHeader c.job.fn b slots, atTime := s.now
                                                            arrival := s.stamp }] }))
    else Answers (.submit x entryAt slots recAt) s (Quiet s)) ∧
  (∀ (s : State) (x dst n : Nat) (c : Call) (j : Job) (e : Ext), Serving s x c j e →
    (n = 0 ∨ inPages (e.data ++ e.zero) dst (min n 256) = true) →
    let m := min n 256
    let g := s.fn c.job.fn
    let w := c.work ++ g.rngBuf.take (m - c.work.length)
    let u := setFn c.job.fn { g with rngBuf := g.rngBuf.drop (m - c.work.length) } s
    Answers (.random x dst n) s (Quiet
      (if m ≤ w.length then modCall c.job (fun c => { c with work := [] }) (ramWrite dst w u)
       else modCall c.job (fun c => { c with work := w }) u))) ∧
  (∀ (s : State) (x dst : Nat) (c : Call) (j : Job) (e : Ext), Serving s x c j e →
    inPages (e.data ++ e.zero) dst 8 = true →
    Answers (.time x dst) s fun t => Quiet (ramWrite dst (Bytes.ofLE 8 s.now) s) t ∧
      (Tidy s → t.ramRead dst 8 = Bytes.ofLE 8 s.now)) ∧
  (∀ (s : State) (x index sub dst room : Nat) (c : Call) (j : Job) (e : Ext), Serving s x c j e →
    imgFlag e.header 2 = true →
    let v := if s.secureRuns then (dictReadBy (hostUser c.job.fn) (dictReadEntry index sub room) s).2 else []
    (v = [] ∨ inPages (e.data ++ e.zero) dst v.length = true) →
    Answers (.extDictRead x index sub dst room) s fun t => Quiet (ramWrite dst v s) t ∧ (Tidy s → t.ramRead dst v.length = v)) ∧
  (∀ (s : State) (x a1 a2 a3 : Nat) (c : Call) (j : Job) (e : Ext), Serving s x c j e →
    Answers (.log x a1 a2 a3) s (Quiet s)) ∧
  (∀ (s : State) (i : Instr) (x a b n m : Nat) (c : Call) (j : Job) (e : Ext), Serving s x c j e →
    (i = .readIn x a b n ∧ n ≠ 0 ∧ inPages (e.data ++ e.zero) b n = false ∨
      i = .writeOut x a b n ∧ n ≠ 0 ∧ inPages e.pages a n = false ∨
      i = .submit x a n b ∧ (n ≠ 0 ∧ inPages e.pages a (64 * n) = false ∨ inPages (e.data ++ e.zero) b 32 = false ∨
        imgFlag e.header 1 = false) ∨
      i = .random x a n ∧ n ≠ 0 ∧ inPages (e.data ++ e.zero) a (min n 256) = false ∨
      i = .time x a ∧ inPages (e.data ++ e.zero) a 8 = false ∨ i = .extDictRead x a b n m ∧ (imgFlag e.header 2 = false ∨
        let v := (dictReadBy (hostUser c.job.fn) (dictReadEntry a b m) s).2
        s.secureRuns = true ∧ v ≠ [] ∧ inPages (e.data ++ e.zero) n v.length = false)) →
    Answers i s (Quiet (CallEnds c.job { status := 0x61, detail := 0x03 } s)))

/-! ## The management port (R345 to R359) -/

/-- A frame that came is counted in MP_RX. -/
abbrev received (s : State) : State := { s with regs := { s.regs with mpRx := satAdd s.regs.mpRx 0xFFFFFFFF } }

/-- A frame that the port or a relay channel takes in: it is `f` of route `p`, its form is right, and its type is `ty`. -/
abbrev Arriving (s : State) (r : FdpRoute) (p : SessPath) (f : Bytes) (ty : Nat) : Prop :=
  routeFrame s r = some (p, f) ∧ f.at_ 0 = 1 ∧ frameTy f = ty ∧ frameForm f = true

/-- Sealed frame `f` of route `p` is the whole of message `m` of session `x`: its tag is right, its SEQ is new, and it is the
one fragment of its message. -/
abbrev WholeMessage (s : State) (p : SessPath) (f : Bytes) (x : Session) (m : Bytes) : Prop :=
  s.session? (frameSession f) = some x ∧ samePath x.path p = true ∧ openFrame x f = some m ∧
    (x.rx.any fun n => decide (frameSeq f ≤ n)) = false ∧ frameFrag f = 0 ∧ frameMore f = false ∧ m.length ≤ Fdp.msgMax

/-- The state once that frame is accepted: its SEQ is the highest seen, no failure is counted, the idle timer starts again. -/
abbrev accepted (f : Bytes) (x : Session) (s : State) : State :=
  dropPart (sessionKey x.id) (modSession x.id (fun y => { y with rx := some (frameSeq f), fails := 0, last := s.now }) (received s))

/-- R350 to R357, for frames of the port and of relay channels: a DISCOVER is answered with ANNOUNCE; a HELLO whose last fragment
comes opens a session with its HELLO_REPLY when it is well-formed, below the limit of ten a second, and fewer than eight
sessions are there, waits for random bytes, or is answered with ERROR; an AUTH opens its session when its signature verifies
under the role's key and ends it otherwise; a REQUEST of an open session with nothing outstanding runs its command and is
answered, or goes on; the last one again gets its RESPONSE again, the one outstanding none, another one UNAVAILABLE, 0x07; a
CLOSE ends its session. R349, R351, R356: the timers of fragments, AUTH and idling. R345: beacons seen and lost. R358, R359:
FDP_RELAY delivers its frames, a malformed record ending it with 0x54, and hands over the frames pending as they fit, at once
or when its wait ends. No job but the command's, no byte of memory but OUT and no slot changes but by the command asked for. -/
def Obligations.ManagementPort : Prop :=
  (∀ (s : State) (r : FdpRoute) (p : SessPath) (f : Bytes), Arriving s r p f Fdp.discover → frameLen f = 0 → frameMore f = false →
    frameFrag f = 0 → frameSession f = 0 →
    Answers (.discover r) s (Quiet (sendFrames p (plainFrames Fdp.announce 0 (announceBytes s)) (received s)))) ∧
  (∀ (s : State) (ch : Nat) (f : Bytes), Arriving s (.relay ch f) (.relay ch) f Fdp.discover → frameLen f = 0 →
    frameMore f = false → frameFrag f = 0 → frameSession f = 0 →
    routeRoom s (.relay ch) (plainFrames Fdp.announce 0 (announceBytes s)) = true →
    Answers (.discover (.relay ch f)) s fun t =>
      t.mgmt.relay.getD ch [] = s.mgmt.relay.getD ch [] ++ plainFrames Fdp.announce 0 (announceBytes s) ∧
      t.mgmt.sessions = s.mgmt.sessions ∧ t.jobs = s.jobs ∧ t.mem = s.mem) ∧
  (∀ (s u : State) (r : FdpRoute) (p : SessPath) (f m : Bytes), Arriving s r p f Fdp.hello → frameSession f = 0 →
    addFragment p.key Fdp.hello (frameFrag f) (frameMore f) (framePayload f) (received s) = (some m, u) →
    if 10 ≤ (recentHellos u).length then Answers (.hello r) s (Quiet u)
    else if helloOk m = false then Answers (.hello r) s (Quiet (sendError p 0x05 0 u))
    else if 8 ≤ sessionCount u then Answers (.hello r) s (Quiet (sendError p 0x03 0 u))
    else match helloReply m { u with mgmt := { u.mgmt with hellos := s.now :: recentHellos u } } with
      | .error v => Answers (.hello r) s (Quiet { v with mgmt := { v.mgmt with work := v.mgmt.work ++ [.hello p m] } })
      | .ok ((reply, z), v) =>
        let x := helloSession p m reply z v
        Answers (.hello r) s (Quiet (sendReply x.id { ty := Fdp.helloReply, body := reply }
          { v with mgmt := { v.mgmt with sessions := s.mgmt.sessions ++ [x], nextId := nextSession x.id } })) ∧
        Answers (.hello r) s fun t => t.mem = s.mem ∧ t.store = s.store ∧ t.life = s.life ∧
          ∃ y ∈ t.mgmt.sessions, y.id = s.mgmt.nextId ∧ y.phase = .replied ∧ y.entry = (m.at_ 32).toNat ∧ y.path = p ∧
            y.th = sha384 (m ++ reply) ∧ y.last = s.now) ∧
  (∀ (s : State) (r : FdpRoute) (p : SessPath) (f m : Bytes) (x : Session), Arriving s r p f Fdp.auth → WholeMessage s p f x m →
    let u := accepted f x s
    if x.phase ≠ .replied then Answers (.auth r) s (Quiet u)
    else if m.length < 4 ∨ m.zeroAt 2 2 = false ∨ m.length ≠ 4 + m.leAt 0 2 then
      Answers (.auth r) s (Quiet (sendError x.path 0x05 x.id u))
    else if ((s.custody.roles.find? x.entry).any fun k => verifySig k.alg false k.key (authTbs x) (m.drop 4)) = true then
      let ok := Bytes.ofNats [roleOfEntry x.entry, x.entry] ++ Bytes.ofLE 2 s.idleS ++ Bytes.ofNats [s.life.lc.code, 0, 0, 0]
      Answers (.auth r) s (Quiet (sendReply x.id { ty := Fdp.authOk, body := ok }
        (modSession x.id (fun y => { y with phase := .open_ }) u))) ∧
      Answers (.auth r) s fun t => (t.session? x.id).map (·.phase) = some .open_ ∧ t.jobs = s.jobs ∧ t.mem = s.mem
    else Answers (.auth r) s (Quiet (endSession x 3 (sendError x.path 0x04 x.id u))) ∧
      Answers (.auth r) s fun t => t.session? x.id = none ∧ t.jobs = s.jobs ∧ t.mem = s.mem) ∧
  (∀ (s : State) (r : FdpRoute) (p : SessPath) (f m : Bytes) (x : Session), Arriving s r p f Fdp.request → WholeMessage s p f x m →
    x.phase = .open_ → 0x80 ≤ m.length →
    let u := accepted f x s
    match x.req with
    | some q =>
      if q.id = reqId m then Answers (.request r) s (Quiet u)
      else if x.lastId = some (reqId m) then
        Answers (.request r) s (Quiet (sendReply x.id { ty := Fdp.response, body := x.lastResp } u))
      else Answers (.request r) s (Quiet (sendReply x.id (busyReply m) u))
    | none =>
      if x.lastId = some (reqId m) then
        Answers (.request r) s (Quiet (sendReply x.id { ty := Fdp.response, body := x.lastResp } u))
      else
        let v := modSession x.id (fun y => { y with req := some { id := reqId m, op := reqOp m, payload := m, since := s.now } }) u
        match runRequest x.id x.entry m v with
        | (some d, out, w) => Answers (.request r) s (Quiet (respond x.id d out w))
        | (none, _, w) => Answers (.request r) s (Quiet
            (if isExecute m then w else { w with mgmt := { w.mgmt with work := w.mgmt.work ++ [.request x.id x.entry m] } }))) ∧
  (∀ (s : State) (r : FdpRoute) (p : SessPath) (f m : Bytes) (x : Session), Arriving s r p f Fdp.request → WholeMessage s p f x m →
    x.phase = .open_ → x.req = none → x.lastId ≠ some (reqId m) → 0x80 ≤ m.length → reqOp m = Op.dictRead →
    dictFlag1 m = false → firstFail (requestRows s x.entry m) = none →
    Answers (.request r) s fun t => t.jobs = s.jobs ∧ t.mem = s.mem ∧ t.store = s.store ∧
      (t.session? x.id).map (·.lastId) = some (some (reqId m)) ∧
      let d := dictReadBy (sessionUser x.entry) m (modSession x.id
        (fun y => { y with req := some { id := reqId m, op := reqOp m, payload := m, since := s.now } }) (accepted f x s))
      (t.session? x.id).map (·.lastResp) =
        some (responseBytes { id := reqId m, op := Op.dictRead, payload := m } d.1 d.2)) ∧
  (∀ (s : State) (r : FdpRoute) (p : SessPath) (f m : Bytes) (x : Session), Arriving s r p f Fdp.close → WholeMessage s p f x m →
    Answers (.close r) s (Quiet (endSession x 2 (accepted f x s))) ∧
    Answers (.close r) s fun t => t.session? x.id = none ∧ (∀ k, k ≠ x.id → t.session? k = s.session? k) ∧ t.jobs = s.jobs ∧
      t.mem = s.mem) ∧
  (∀ (s : State) (k : Nat), Answers (.fragmentTimeout k) s fun t =>
    (∀ p ∈ t.mgmt.parts, p ∈ s.mgmt.parts ∧ (p.key = k → s.now - p.start < second)) ∧
    (∀ p ∈ s.mgmt.parts, p.key ≠ k → p ∈ t.mgmt.parts) ∧ t = { s with mgmt := { s.mgmt with parts := t.mgmt.parts } }) ∧
  (∀ (s : State) (id t0 : Nat) (x : Session), s.session? id = some x → x.phase = .replied → x.replied = some t0 →
    Answers (.authTimeout id) s fun t => if s.now - t0 ≥ 10 * second then
        t.session? id = none ∧ (∀ k, k ≠ id → t.session? k = s.session? k) ∧ t = { s with mgmt := t.mgmt } else t = s) ∧
  (∀ (s : State) (id : Nat) (x : Session), s.session? id = some x → x.phase = .open_ → x.req = none →
    if s.now - x.last ≥ s.idleS * second then
      Answers (.sessionIdleTimeout id) s (Quiet (endSession x 3 s)) ∧
      Answers (.sessionIdleTimeout id) s fun t => t.session? id = none ∧
        (∀ k, k ≠ id → t.session? k = s.session? k) ∧ t.jobs = s.jobs ∧ t.mem = s.mem
    else Answers (.sessionIdleTimeout id) s (· = s)) ∧
  (∀ (s : State), Answers (.plcaBeaconChange false) s (Quiet { s with mgmt := { s.mgmt with beacon := false } })) ∧
  (∀ (s : State), Answers (.plcaBeaconChange true) s (Quiet { s with
    mgmt := { s.mgmt with beacon := s.mgmt.beacon || (s.mpOn && s.clock.refclk) } })) ∧
  (∀ (s : State) (j : Job), s.admin? 0 Op.fdpRelay = some j →
    (j.phase = 1 ∨ j.phase = 0 ∧ firstFail (relayRows s j.entry) = none ∧ relayInLen j.entry = 0) →
    let ch := relayCh j.entry
    let l := (takeFrames (relayRoom j.entry) (s.mgmt.relay.getD ch [])).1
    let b := l.flatMap relayRecord
    let u := { s with mgmt := { s.mgmt with
      relay := s.mgmt.relay.set ch (takeFrames (relayRoom j.entry) (s.mgmt.relay.getD ch [])).2 } }
    let since := if j.phase = 0 then s.now else j.since
    if s.mgmt.relay.getD ch [] ≠ [] ∨ elapsedUs s.now since (relayWait j.entry) = true then
      Completes .fdpRelay s j { status := 0x00, r0 := b.length, r1 := l.length }
        (drainWaiting ch (if b.isEmpty then u else hostWrite 0 (relayOut j.entry) b u)) ∧
      Answers .fdpRelay s fun t => Tidy s → (s.fn 0).log = none →
        t.hostRead 0 (relayOut j.entry) b.length = b ∧ OnlyWrites 0 (relayOut j.entry) b.length s t
    else Answers .fdpRelay s (Quiet (modJob j.ref (fun j => { j with phase := 1, since := since }) s))) ∧
  (∀ (s u : State) (j : Job), s.admin? 0 Op.fdpRelay = some j → j.phase = 0 → firstFail (relayRows s j.entry) = none →
    relayInLen j.entry ≠ 0 → j.reads = .arrived →
    deliverRelay (relayCh j.entry) (j.input 0 s).length (j.input 0 s) s = (true, u) →
    Completes .fdpRelay s j { status := 0x20, detail := 0x54 } u)

/-! ## Vesper (chapter 13) -/

/-- Command `i` finds the condition of alarm group `g` present (R389 to R392), on a Vesper that works. -/
abbrev Senses (s : State) (i : Instr) (g : Nat) : Prop :=
  match i with
  | .meshSample m => g = m.layer ∧ g < 4 ∧ s.vesperWorks = true ∧ s.classOfGroup g ≠ 7 ∧ meshAlarm s.vesper m = true
  | .xtampSample n high => g = 4 + n ∧ n < 4 ∧ s.vesperWorks = true ∧ s.classOfGroup g ≠ 7 ∧
      s.vesper.xtamp.getD n none = some high ∧ xtampAlarm s n high = true
  | .tempSample dc => s.vesperWorks = true ∧
      (g = 8 ∧ dc < 10 * s.paramInt 0x4000 1 (-30) ∧ ¬ dc > 10 * s.paramInt 0x4000 2 125 ∨
       g = 9 ∧ dc > 10 * s.paramInt 0x4000 2 125 ∧ ¬ dc < 10 * s.paramInt 0x4000 1 (-30))
  | .glitch n mv => g = glitchGroup n ∧ s.vesperWorks = true ∧ s.vesper.armed = true ∧
      outside (s.param 0x4000 4 15) (glitchNominal s n) mv = true ∧ powerDown n ≤ mv
  | .fiDelay _ => g = 14 ∧ s.vesperWorks = true ∧ s.boot.supplies = true
  | .vbatSample mv => g = 15 ∧ s.vesperWorks = true ∧ s.vesper.vchg = true ∧ mv < s.vbatLow
  | .vbatCut mv => g = 16 ∧ s.vesper.vchg = false ∧ mv < 2000
  | .cellPresenceCheck p => g = 17 ∧ s.vesperWorks = true ∧ s.vesper.vchg = true ∧ cellGone s p s.vesper.cell.vbat = true
  | .xtalFail => g = 18 ∧ s.vesperWorks = true ∧ s.vesper.xtalOk = true ∧ xtalHoldOff s = false
  | .shadowCheck ok => g = 19 ∧ s.vesperWorks = true ∧ ok = false
  | _ => False

/-- Command `i` is a sample that finds no alarm condition. -/
abbrev FindsNothing (s : State) (i : Instr) : Prop :=
  match i with
  | .meshSample m => meshAlarm s.vesper m = false
  | .xtampSample n high => xtampAlarm s n high = false ∨ s.vesper.xtamp.getD n none ≠ some high
  | .tempSample dc => ¬ dc < 10 * s.paramInt 0x4000 1 (-30) ∧ ¬ dc > 10 * s.paramInt 0x4000 2 125
  | .glitch n mv => s.vesper.armed = false ∨ outside (s.param 0x4000 4 15) (glitchNominal s n) mv = false ∨ mv < powerDown n
  | .fiDelay _ => s.boot.supplies = false
  | .vbatSample mv => ¬ mv < s.vbatLow
  | .vbatCut mv => ¬ mv < 2000
  | .cellPresenceCheck p => cellGone s p s.vesper.cell.vbat = false
  | .xtalReturn => True
  | .shadowCheck ok => ok = true
  | _ => False

/-- What every alarm of class `c` (1 L, 2 Z, 3 V) that acts erases and ends (R397): session and IDE keys and the ceremony; from
Z on the slots' working copies, the random source's state and the sessions besides. Nothing else of the slots, no dictionary
value and, where no job is in flight that it ends, no byte of memory changes. -/
abbrev AlarmErases (c : Nat) (s t : State) : Prop :=
  (∀ f, (t.fn f).sk = []) ∧ t.link.ide = [] ∧ t.link.ideKeys = [] ∧ t.custody.cer = none ∧ t.custody.roles = s.custody.roles ∧
    (2 ≤ c → (∀ n, (t.slot n).a = {} ∧ (t.slot n).b = {} ∧ (t.slot n).retiring = none) ∧ t.rng.seeded = false ∧ t.rng.pool = [] ∧
      t.mgmt.sessions = []) ∧
    MoveFrame (fun _ => c = 1) s t

/-- R389 to R392, R395 to R399, R411: each sample, on a Vesper that works, decides its group's condition, and what a condition
does depends on its group's class in force. A group of class L, Z or V whose condition appears latches, and locks a device in
INITIALIZED or OPERATIONAL with that class, its keys gone and in class V the root too; in LOCKED it raises a lesser lock class
in the same way, and a latch that does not raise it changes no life-cycle state and no slot; in the other states it erases
without a change of state or of the root. A group already latched counts a repeat; a condition of class N is counted and
locks nothing; an OFF mesh or tamper input is not sampled; and a sample without a condition latches nothing. XTAL_FAIL and
XTAL_RETURN say whether the crystal runs. -/
def Obligations.AlarmsLatchAndLock : Prop :=
  (∀ (s : State), s.vesperWorks = true →
    (∀ m : MeshReading, m.layer < 4 → Answers (.meshSample m) s (if s.classOfGroup m.layer = 7 then (· = s) else
      Quiet (sense m.layer (meshAlarm s.vesper m)
        { s with vesper := { s.vesper with patCtr := (s.vesper.patCtr + 1) % 2 ^ 128 } }))) ∧
    (∀ (n : Nat) (high : Bool), n < 4 → Answers (.xtampSample n high) s (if s.classOfGroup (4 + n) = 7 then (· = s) else
      let u := { s with vesper := { s.vesper with xtamp := s.vesper.xtamp.set n (some high) } }
      if s.vesper.xtamp.getD n none = some high then Quiet (sense (4 + n) (xtampAlarm s n high) u) else (· = u))) ∧
    (∀ dc : Int, Answers (.tempSample dc) s (Quiet (sense 9 (decide (dc > 10 * s.paramInt 0x4000 2 125))
      (sense 8 (decide (dc < 10 * s.paramInt 0x4000 1 (-30))) { s with vesper := { s.vesper with dieTemp := dc } })))) ∧
    (∀ n mv : Nat, s.vesper.armed = true → outside (s.param 0x4000 4 15) (glitchNominal s n) mv = true → powerDown n ≤ mv →
      Answers (.glitch n mv) s (Quiet (sense (glitchGroup n) false (sense (glitchGroup n) true s)))) ∧
    (∀ n : Nat, s.boot.supplies = true → Answers (.fiDelay n) s (Quiet (sense 14 false (sense 14 true s)))) ∧
    (∀ mv : Nat, s.vesper.vchg = true → Answers (.vbatSample mv) s (Quiet (sense 15 (decide (mv < s.vbatLow)) (noteVbat mv s)))) ∧
    (∀ p : Bool, s.vesper.vchg = true → Answers (.cellPresenceCheck p) s (Quiet (sense 17 (cellGone s p s.vesper.cell.vbat)
      { s with vesper := { s.vesper with cell := { s.vesper.cell with present := p } } }))) ∧
    (∀ ok : Bool, Answers (.shadowCheck ok) s (Quiet (sense 19 (!ok) s)))) ∧
  (∀ (s : State) (mv : Nat), s.vesper.vchg = false → Answers (.vbatCut mv) s (Quiet (sense 16 (decide (mv < 2000)) (noteVbat mv s)))) ∧
  (∀ (s : State) (i : Instr) (g : Nat), Senses s i g → s.vesper.latch.testBit g = false →
    1 ≤ s.classOfGroup g → s.classOfGroup g ≤ 3 → (s.life.lc = .initialized ∨ s.life.lc = .operational) →
    Answers i s fun t => t.vesper.latch.testBit g = true ∧ t.life.lc = .locked ∧
      t.life.lockClass = lockOf (s.classOfGroup g) ∧ t.life.before = s.life.lc ∧ t.life.lockTime = s.vesper.calendar ∧
      t.life.dkWrapped = s.life.dkWrapped ∧ t.life.root = (if s.classOfGroup g = 3 then [] else s.life.root) ∧
      AlarmErases (s.classOfGroup g) s t) ∧
  (∀ (s : State) (i : Instr) (g : Nat), Senses s i g → s.vesper.latch.testBit g = false →
    1 ≤ s.classOfGroup g → s.classOfGroup g ≤ 3 → s.life.lc = .locked →
    s.life.lockClass.rank < (lockOf (s.classOfGroup g)).rank →
    Answers i s fun t => t.vesper.latch.testBit g = true ∧ t.life.lc = .locked ∧ t.life.before = s.life.before ∧
      t.life.lockClass = lockOf (s.classOfGroup g) ∧ t.life.lockTime = s.vesper.calendar ∧
      t.life.root = (if s.classOfGroup g = 3 then [] else s.life.root) ∧ AlarmErases (s.classOfGroup g) s t) ∧
  (∀ (s : State) (i : Instr) (g : Nat), Senses s i g → s.vesper.latch.testBit g = false →
    1 ≤ s.classOfGroup g → s.classOfGroup g ≤ 3 → s.life.lc = .locked →
    (lockOf (s.classOfGroup g)).rank ≤ s.life.lockClass.rank →
    Answers i s fun t => t.vesper.latch.testBit g = true ∧ t.life = s.life ∧ t.store = s.store ∧ t.mem = s.mem ∧
      (∀ f, (t.fn f).sk = []) ∧ t.custody.cer = none ∧
      (2 ≤ s.classOfGroup g → t.link.ideKeys = [] ∧ t.mgmt.sessions = [] ∧ t.rng.seeded = false)) ∧
  (∀ (s : State) (i : Instr) (g : Nat), Senses s i g → s.vesper.latch.testBit g = false →
    1 ≤ s.classOfGroup g → s.classOfGroup g ≤ 3 →
    (s.life.lc = .factory ∨ s.life.lc = .debug ∨ s.life.lc = .decommissioned) →
    Answers i s fun t => t.vesper.latch.testBit g = true ∧ t.life = s.life ∧ AlarmErases (s.classOfGroup g) s t) ∧
  (∀ (s : State) (i : Instr) (g : Nat), Senses s i g → s.vesper.latch.testBit g = true →
    1 ≤ s.classOfGroup g → s.classOfGroup g ≤ 3 →
    Answers i s fun t => t.vesper.repeats = satAdd s.vesper.repeats 0xFFFFFFFF ∧ t.vesper.latch = s.vesper.latch ∧
      t.life = s.life ∧ t.store = s.store ∧ t.mem = s.mem ∧ t.jobs = s.jobs) ∧
  (∀ (s : State) (i : Instr) (g : Nat), Senses s i g → s.classOfGroup g = 0 → s.vesper.cond.testBit g = false →
    Answers i s fun t => t.vesper.latch = s.vesper.latch ∧ t.life = s.life ∧
      t.vesper.counts.alarms = satAdd s.vesper.counts.alarms 0xFFFFFFFF ∧ t.store = s.store ∧ t.mem = s.mem ∧ t.jobs = s.jobs) ∧
  (∀ (s : State) (i : Instr), FindsNothing s i →
    Answers i s fun t => t.vesper.latch = s.vesper.latch ∧ t.life = s.life ∧ t.jobs = s.jobs ∧ t.store = s.store ∧
      t.mem = s.mem ∧ t.vesper.counts.alarms = s.vesper.counts.alarms) ∧
  (∀ (s : State), s.vesperWorks = true → s.vesper.xtalOk = true → xtalHoldOff s = false →
    Answers .xtalFail s fun t => t.vesper.xtalOk = false ∧
      t.vesper.counts.xtalFail = satAdd s.vesper.counts.xtalFail 0xFFFFFFFF) ∧
  (∀ (s : State), s.vesperWorks = true → s.vesper.xtalOk = false →
    Answers .xtalReturn s fun t => t.vesper.xtalOk = true ∧ t.vesper.counts = s.vesper.counts ∧ t.life = s.life ∧
      t.store = s.store ∧ t.mem = s.mem ∧ t.jobs = s.jobs)

/-- The charger may charge: supplied, no service window, a good sensor and a cell, the temperature in range. -/
abbrev MayCharge (s : State) (r : ChargerReading) : Prop :=
  s.vesper.vchg = true ∧ s.vesperWorks = true ∧ s.vesper.window = none ∧ ntcFault r.tempDc = false ∧ s.vesper.cell.present = true ∧
    ¬ (r.tempDc < 10 * s.paramInt 0x4100 0x15 0 ∨ r.tempDc > 10 * s.paramInt 0x4100 0x16 45)

/-- The safety timer of a charge has not run out (R403). -/
abbrev TimerRuns (s : State) : Prop :=
  (s.vesper.calendar - s.vesper.cell.tStart) * (2 * s.param 0x4100 0x11 500) ≤
    (3 * s.capNom + 4 * s.param 0x4100 0x11 500) * 3600 * second

/-- R403 to R413, R30, R31: the charger's step by its reading, the sampling factor, ageing, the cell service window, and
Vesper's supplies, calendar and oscillators. Each changes Vesper alone but for what is named. -/
def Obligations.VesperKeepsItsCellAndTime : Prop :=
  (∀ (s : State) (r : ChargerReading), s.vesper.vchg = true → s.vesperWorks = true →
    Answers (.chargerStep r) s fun t => t.life = s.life ∧ t.mem = s.mem ∧ t.store = s.store ∧ t.jobs = s.jobs ∧
      t.vesper.cell.temp = r.tempDc ∧ t.vesper.cell.vbat = r.vbatMv ∧ t.vesper.latch = s.vesper.latch ∧
      (s.vesper.window ≠ none → t.vesper.cell.st = .service ∧ t.vesper.cell.charged = s.vesper.cell.charged) ∧
      (s.vesper.window = none → ntcFault r.tempDc = true →
        t.vesper.cell.st = .fault ∧ t.vesper.cell.charged = s.vesper.cell.charged) ∧
      (s.vesper.window = none → ntcFault r.tempDc = false → s.vesper.cell.present = false → t.vesper.cell.st = .off) ∧
      (s.vesper.window = none → ntcFault r.tempDc = false → s.vesper.cell.present = true → s.vesper.cell.st = .fault →
        t.vesper.cell.st = .fault ∧ t.vesper.cell.charged = s.vesper.cell.charged) ∧
      (s.vesper.window = none → ntcFault r.tempDc = false → s.vesper.cell.present = true → s.vesper.cell.st ≠ .fault →
        (r.tempDc < 10 * s.paramInt 0x4100 0x15 0 ∨ r.tempDc > 10 * s.paramInt 0x4100 0x16 45) →
        t.vesper.cell.st = .tempHold ∧ t.vesper.cell.charged = s.vesper.cell.charged)) ∧
  (∀ (s : State) (r : ChargerReading), MayCharge s r → s.vesper.cell.st = .cc → 2500 ≤ r.vbatMv → TimerRuns s →
    Answers (.chargerStep r) s fun t => t.vesper.cell.st = (if r.vbatMv ≥ s.vCv r.tempDc then .cv else .cc) ∧
      t.vesper.cell.charged = s.vesper.cell.charged + r.iUa ∧ t.vesper.cell.iMeas = r.iUa ∧
      t.vesper.cell.remaining = min (s.vesper.cell.remaining + r.iUa) (s.capEst * 3600)) ∧
  (∀ (s : State) (r : ChargerReading), MayCharge s r → (s.vesper.cell.st = .off ∨ s.vesper.cell.st = .tempHold) → 2500 ≤ r.vbatMv →
    Answers (.chargerStep r) s fun t => t.vesper.cell.st = (if r.vbatMv ≥ s.vCv r.tempDc then .cv else .cc) ∧
      t.vesper.cell.charged = s.vesper.cell.charged + r.iUa ∧ t.vesper.cell.tStart = s.vesper.calendar) ∧
  (∀ (s : State) (r : ChargerReading), MayCharge s r → s.vesper.cell.st = .cv → 2500 ≤ r.vbatMv → TimerRuns s →
    let n := if r.iUa < s.param 0x4100 0x14 50 then s.vesper.cell.lowFor + 1 else 0
    Answers (.chargerStep r) s fun t => t.vesper.cell.st = (if 60 ≤ n then .done else .cv) ∧ t.vesper.cell.lowFor = n ∧
      t.vesper.cell.charged = s.vesper.cell.charged + r.iUa ∧ (60 ≤ n → t.vesper.cell.remaining = t.capEst * 3600)) ∧
  (∀ (s : State) (r : ChargerReading), MayCharge s r → s.vesper.cell.st = .done → 2500 ≤ r.vbatMv →
    Answers (.chargerStep r) s fun t => t.vesper.cell.st = (if r.vbatMv + 80 < s.vCv r.tempDc then .cc else .done) ∧
      t.vesper.cell.charged = s.vesper.cell.charged) ∧
  (∀ (s : State) (r : ChargerReading), MayCharge s r → (s.vesper.cell.st = .cc ∨ s.vesper.cell.st = .cv) → r.vbatMv < 2500 →
    Answers (.chargerStep r) s fun t => t.vesper.cell.charged = s.vesper.cell.charged + r.iUa ∧
      t.vesper.cell.st = (if s.vesper.calendar - s.vesper.cell.tPre.getD s.vesper.calendar ≥ 36000 * second then .fault
        else s.vesper.cell.st)) ∧
  (∀ (s : State) (r : ChargerReading), MayCharge s r → s.vesper.cell.st = .cc → 2500 ≤ r.vbatMv → ¬ TimerRuns s →
    Answers (.chargerStep r) s fun t => t.vesper.cell.st = .fault) ∧
  (∀ (s : State), s.vesperWorks = true → Answers .adaptiveSamplingUpdate s fun t =>
    (s.vesper.vchg = true → t = { s with vesper := { s.vesper with factor := 1 } }) ∧
    (s.vesper.vchg = false → t.vesper.factor = factorOf t.socPm (s.param 0x4100 0x31 4) ∧
      t.vesper.cell.remaining ≤ s.vesper.cell.remaining ∧ t = { s with vesper := t.vesper, free := s.free + 1 })) ∧
  (∀ (s : State), s.vesperWorks = true → Answers .ageingUpdate s fun t =>
    t.vesper.cell.aged = s.vesper.cell.aged + hourAge (if s.vesper.vchg then
      (if s.vesper.cell.tempCount = 0 then s.vesper.cell.temp else s.vesper.cell.tempSum / (s.vesper.cell.tempCount : Int))
      else s.vesper.dieTemp) ∧
    t.vesper.cell.hours.length = min (s.vesper.cell.hours.length + 1) 720 ∧ t.vesper.cell.tempCount = 0 ∧
    t = { s with vesper := { s.vesper with cell := t.vesper.cell } }) ∧
  (∀ (s : State) (w : SvcWindow) (why : WindowEnd) (mv : Nat) (present : Bool), s.vesper.window = some w →
    windowOver s w why = true →
    Answers (.serviceWindowClose why mv present) s fun t => t.vesper.window = none ∧
      (∀ c, s.custody.cer = some c → c.action = Act.cellService → c.stage = .window → t.custody.cer = none) ∧
      ((why = .powerLoss ∨ present = false ∨ mv < s.vbatLow ∨ s.vesper.cell.temp < -400 ∨ 850 < s.vesper.cell.temp) →
        t.vesper.cell.installed = s.vesper.cell.installed ∧ t.vesper.cell.charged = s.vesper.cell.charged)) ∧
  (∀ (s : State) (w : SvcWindow) (mv : Nat) (present : Bool), s.vesper.window = some w → s.vesper.vchg = false →
    Answers (.serviceWindowClose .powerLoss mv present) s fun t => t.vesper.window = none ∧ t.vesper.cell.st = .off ∧
      t.vesper.cell.installed = s.vesper.cell.installed ∧ t.life = s.life ∧ t.store = s.store ∧ t.mem = s.mem) ∧
  (∀ (s : State) (w : SvcWindow) (why : WindowEnd) (mv : Nat), s.vesper.window = some w → why ≠ .powerLoss →
    windowOver s w why = true → s.vbatLow ≤ mv → -400 ≤ s.vesper.cell.temp → s.vesper.cell.temp ≤ 850 →
    Answers (.serviceWindowClose why mv true) s fun t => t.vesper.window = none ∧ t.life = s.life ∧ t.store = s.store ∧
      t.mem = s.mem ∧
      (if (w.low || decide (mv < 1500)) = true then
        t.vesper.cell.installed = s.vesper.calendar ∧ t.vesper.cell.charged = 0 ∧ t.vesper.cell.st = .cc
       else t.vesper.cell.installed = s.vesper.cell.installed ∧ t.vesper.cell.charged = s.vesper.cell.charged ∧
        t.vesper.cell.st = .off)) ∧
  (∀ (s : State) (v : Bool), s.vesper.vchg ≠ v →
    Answers (.supplySourceChange v) s fun t => t.vesper.vchg = v ∧ t.vesper.cell.st = .off ∧ t.vesper.cell.iMeas = 0 ∧
      t.life = s.life ∧ t.store = s.store ∧ t.mem = s.mem ∧ t.vesper.cell.charged = s.vesper.cell.charged ∧
      (v = false → t.vesper.window = none) ∧ (v = true → t.vesper.factor = 1 ∧ t.vesper.window = s.vesper.window)) ∧
  (∀ (s : State), Answers .vesperSupplyRise s fun t => t.life.root = [] ∧ t.life.lc = s.life.lc ∧ t.vesper.latch = 0 ∧
    t.vesper.warm = false ∧ t.vesper.valid = false ∧ t.vesper.cell.charged = s.vesper.cell.charged ∧
    t.vesper.cell.installed = s.vesper.cell.installed ∧ t.life.rootMain = s.life.rootMain ∧ t.life.dkWrapped = s.life.dkWrapped ∧
    t.vesper.stored = s.vesper.stored ∧ t.store = s.store ∧ t.mem = s.mem ∧ t.jobs = s.jobs) ∧
  (∀ (s : State) (n : Nat), Answers (.watchOscillatorRecalibration n) s fun t =>
    t = if s.vesper.xtalOk then { s with vesper := { s.vesper with watch := n } } else s) ∧
  (∀ (s : State), s.clock.running = true → Answers .meridianSlew s fun t =>
    -500 ≤ t.clock.slew ∧ t.clock.slew ≤ 500 ∧ (s.clock.meridian < s.vesper.calendar → 0 ≤ t.clock.slew) ∧
    (s.clock.meridian > s.vesper.calendar → t.clock.slew ≤ 0) ∧
    t = { s with clock := { s.clock with slew := t.clock.slew } }) ∧
  (∀ (s : State), s.clock.running = true → Answers .vesperCheckpoint s fun t =>
    t = { s with vesper := { s.vesper with stored := s.vesper.counts, storedCal := s.vesper.calendar } }) ∧
  (∀ (s : State), s.clock.running = false → Answers .meridianSlew s (· = s) ∧ Answers .vesperCheckpoint s (· = s)) ∧
  (∀ (s : State), Answers .timeAdjustDone s fun t => t = { s with vesper := { s.vesper with adjust := 0 } })

/-! ## Registers, gates, debug and the host link (chapters 10 to 12, 5) -/

/-- Master `a` may write four bytes at BAR0 offset `addr` (R301, R360, R368, R378): it can reach the windows, no gate and no locked
region stops it, and it is in the class of a register of class S, where `secure`, or P. -/
abbrev MayWrite (s : State) (a : Attr) (addr : Nat) (secure : Bool) : Prop :=
  windowReach s a = true ∧ gateStops a .write (barInternal addr) 4 s = none ∧
    (isEngine a = true ∨ if secure then a.secure = true else a.priv = true)

/-- No job, byte of memory, slot, life-cycle state or custody state changes. -/
abbrev WorkStands (s t : State) : Prop :=
  t.jobs = s.jobs ∧ t.mem = s.mem ∧ t.store = s.store ∧ t.life = s.life ∧ t.custody = s.custody

/-- R300 to R304, R314, R368, R370: the four ways to write a register, shown on xx_ERR_EN of a block, whose low half takes the data:
whole, one bit through its alias, and bits set, cleared and toggled through the mirrors; no other block's changes. A write of
another size, or by a master outside the class, is refused and changes no register; one of the host that a gate refuses is
captured in TG_FAULT alone. -/
def Obligations.RegisterWrites : Prop :=
  (∀ (s : State) (a : Attr) (c v : Nat), c < 12 → s.regs.errEn.length = 12 → MayWrite s a (c * 0x100000 + 0xC) false →
    Answers (.registerWrite a (.bar (c * 0x100000 + 0xC)) 4 v) s fun t =>
      t.regs.errEn = s.regs.errEn.set c (BitVec.ofNat 32 (v % 65536 + 65536)) ∧ t.regs.rules = s.regs.rules ∧
      t.regs.owners = s.regs.owners ∧ t.regs.pwReq = s.regs.pwReq ∧ t.regs.pwKeep = s.regs.pwKeep ∧ WorkStands s t) ∧
  (∀ (s : State) (a : Attr) (c n v : Nat), c < 12 → n ≠ 4 → windowReach s a = true →
    gateStops a .write (barInternal (c * 0x100000 + 0xC)) n s = none →
    Answers (.registerWrite a (.bar (c * 0x100000 + 0xC)) n v) s (Quiet (unitTurn a s))) ∧
  (∀ (s : State) (a : Attr) (c v : Nat), c < 12 → windowReach s a = true → isEngine a = false → a.priv = false →
    gateStops a .write (barInternal (c * 0x100000 + 0xC)) 4 s = none →
    Answers (.registerWrite a (.bar (c * 0x100000 + 0xC)) 4 v) s (Quiet (unitTurn a s))) ∧
  (∀ (s : State) (a : Attr) (addr n v : Nat), a.master = 0x0100 → windowReach s a = true → addr < 0xC00000 →
    granted s a .write (barInternal addr) n = false →
    Answers (.registerWrite a (.bar addr) n v) s (Quiet (captureFault a .write (barInternal addr) s))) ∧
  (∀ (s : State) (a : Attr) (c b : Nat) (v : Word), c < 12 → mirrored c = false → b < 16 →
    MayWrite s a (c * 0x100000 + 0x40180 + 4 * b) false → s.regs.errEn.length = 12 →
    Answers (.aliasWrite a (.bar (c * 0x100000 + 0x40180 + 4 * b)) v) s fun t =>
      (t.regs.errEn.getD c 0).getLsbD b = v.getLsbD 0 ∧
      (∀ k, k < 16 → k ≠ b → (t.regs.errEn.getD c 0).getLsbD k = (s.regs.errEn.getD c 0).getLsbD k) ∧
      (∀ k, k ≠ c → t.regs.errEn.getD k 0 = s.regs.errEn.getD k 0) ∧ WorkStands s t) ∧
  (∀ (s : State) (a : Attr) (c : Nat) (v : Word), c < 12 → mirrored c = true →
    MayWrite s a (c * 0x100000 + 0x1000C) false → s.regs.errEn.length = 12 →
    Answers (.setMirrorWrite a (c * 0x100000 + 0x1000C) v) s fun t =>
      (∀ k, k < 16 → (t.regs.errEn.getD c 0).getLsbD k = ((s.regs.errEn.getD c 0).getLsbD k || v.getLsbD k)) ∧
      (∀ k, k ≠ c → t.regs.errEn.getD k 0 = s.regs.errEn.getD k 0) ∧ WorkStands s t) ∧
  (∀ (s : State) (a : Attr) (c : Nat) (v : Word), c < 12 → mirrored c = true →
    MayWrite s a (c * 0x100000 + 0x2000C) false → s.regs.errEn.length = 12 →
    Answers (.clearMirrorWrite a (c * 0x100000 + 0x2000C) v) s fun t =>
      (∀ k, k < 16 → (t.regs.errEn.getD c 0).getLsbD k = ((s.regs.errEn.getD c 0).getLsbD k && !v.getLsbD k)) ∧
      (∀ k, k ≠ c → t.regs.errEn.getD k 0 = s.regs.errEn.getD k 0) ∧ WorkStands s t) ∧
  (∀ (s : State) (a : Attr) (c : Nat) (v : Word), c < 12 → mirrored c = true →
    MayWrite s a (c * 0x100000 + 0x3000C) false → s.regs.errEn.length = 12 →
    Answers (.toggleMirrorWrite a (c * 0x100000 + 0x3000C) v) s fun t =>
      (∀ k, k < 16 → (t.regs.errEn.getD c 0).getLsbD k = ((s.regs.errEn.getD c 0).getLsbD k ^^ v.getLsbD k)) ∧
      (∀ k, k ≠ c → t.regs.errEn.getD k 0 = s.regs.errEn.getD k 0) ∧ WorkStands s t)

/-- R317, R366, R369, R371, R373, R376, R379, R380: ADVANCE and RETREAT move EV_CURSOR by one record; a kick restarts the
watchdog's time, and other data do not; PW_REQ and PW_KEEP take the data, a request withdrawn or a vote set giving up its
grant, and a request of a block that is idle is granted where no vote holds it; a rule word or page owner entry takes the
data unless RULES_LOCK is 1; the debug port reads and writes control RAM and registers where that is open, and nothing
where it is locked, which is captured, and stops and resumes the normal world and, in DEBUG, the secure world with its
watchdog; without the port nothing happens. No job, byte of memory, slot, life-cycle state or custody state changes. -/
def Obligations.ControlRegisters : Prop :=
  (∀ (s : State) (a : Attr) (v : Word), MayWrite s a 0x700108 false → v.getLsbD 0 = true → v.getLsbD 1 = false →
    Answers (.advance a v) s fun t => t.evr.cursor = s.evr.cursor + 1 ∧ t.evr.ring = s.evr.ring ∧ WorkStands s t) ∧
  (∀ (s : State) (a : Attr) (v : Word), MayWrite s a 0x700108 false → v.getLsbD 1 = true → v.getLsbD 0 = false →
    Answers (.retreat a v) s fun t => t.evr.cursor = s.evr.cursor - 1 ∧ t.evr.ring = s.evr.ring ∧ WorkStands s t) ∧
  (∀ (s : State) (a : Attr) (v : Word), MayWrite s a 0x900108 true →
    let u := unitTurn a s
    Answers (.kick a v) s (Quiet (if v.toNat % 65536 = 0x6C1E ∧ s.worlds.halted = false then
      { u with worlds := { u.worlds with kickAt := s.now } } else u))) ∧
  (∀ (s : State) (a : Attr) (v : Word), MayWrite s a 0xB00110 false →
    Answers (.pwReqWrite a v) s fun t => t.regs.pwReq % 4096 = v.toNat % 4096 ∧ t.regs.pwKeep = s.regs.pwKeep ∧
      (∀ k, k < 12 → t.regs.pwGrant.testBit k = (s.regs.pwGrant.testBit k && v.getLsbD k)) ∧ WorkStands s t) ∧
  (∀ (s : State) (a : Attr) (v : Word), MayWrite s a 0xB00114 true →
    Answers (.pwKeepWrite a v) s fun t => t.regs.pwKeep % 4096 = v.toNat % 4096 ∧ t.regs.pwReq = s.regs.pwReq ∧
      (∀ k, k < 12 → t.regs.pwGrant.testBit k = (s.regs.pwGrant.testBit k && !v.getLsbD k)) ∧ WorkStands s t) ∧
  (∀ (s : State) (c : Nat), s.mainOn = true → s.regs.pwReq.testBit c = true → s.keeps c = false → s.blockIdle c = true →
    Answers (.quiesceGrant c) s fun t => t.regs.pwGrant.testBit c = true ∧
      (∀ k, k ≠ c → t.regs.pwGrant.testBit k = s.regs.pwGrant.testBit k) ∧ WorkStands s t) ∧
  (∀ (s : State) (c : Nat), s.regs.pwReq.testBit c = false ∨ s.keeps c = true ∨ s.blockIdle c = false →
    Answers (.quiesceGrant c) s (Quiet s)) ∧
  (∀ (s : State) (a : Attr) (off : Nat) (v : Word), isRuleWord off = true → off % 4 = 0 →
    MayWrite s a (0x800000 + off) true →
    Answers (.gateRuleWrite a off v) s fun t => t.regs.owners = s.regs.owners ∧ WorkStands s t ∧
      if s.regs.rulesLock then t.regs.rules = s.regs.rules
      else t.regs.rules.getD off 0 &&& ruleMask off = v.toNat &&& ruleMask off ∧
        ∀ k, k ≠ off → t.regs.rules.getD k 0 = s.regs.rules.getD k 0) ∧
  (∀ (s : State) (a : Attr) (p : Nat) (v : Word), p < 1024 → MayWrite s a (0x804000 + 4 * p) true →
    Answers (.gateRuleWrite a (0x4000 + 4 * p) v) s fun t => t.regs.rules = s.regs.rules ∧ WorkStands s t ∧
      if s.regs.rulesLock then t.regs.owners = s.regs.owners
      else t.owner p &&& 0xF1F = v.toNat &&& 0xF1F ∧ ∀ k, k ≠ p → t.owner k = s.owner k) ∧
  (∀ (s : State) (addr : Nat) (v : Word), s.debugPort = true → 0x10000000 ≤ addr → addr + 4 ≤ 0x10400000 →
    if ((List.range 4).any fun i => debugLocked s .write (addr + i)) = true then
      Answers (.debugAccess addr true v) s (Quiet (captureFault (debugAttr s) .write addr s))
    else Answers (.debugAccess addr true v) s fun t => t = ramWrite addr (Bytes.ofLE 4 v.toNat) s ∧
      (Tidy s → t.ramRead addr 4 = Bytes.ofLE 4 v.toNat)) ∧
  (∀ (s : State) (addr : Nat) (v : Word), s.debugPort = true → 0x10000000 ≤ addr → addr + 4 ≤ 0x10400000 →
    if ((List.range 4).any fun i => debugLocked s .read (addr + i)) = true then
      Answers (.debugAccess addr false v) s fun t =>
        Quiet (captureFault (debugAttr s) .read addr s) t ∧ .debugRead addr 0 ∈ t.out
    else Answers (.debugAccess addr false v) s fun t =>
      t = { s with free := s.free + 1, out := .debugRead addr (BitVec.ofNat 32 (Bytes.toLE (s.ramRead addr 4))) :: s.out }) ∧
  (∀ (s : State) (addr : Nat) (v : Word), s.debugPort = true → addr < 0xC00000 →
    ((List.range 4).any fun i => debugLocked s .write (barInternal addr + i)) = false →
    Answers (.debugAccess (barInternal addr) true v) s (Quiet (writeBar (debugAttr s) addr 4 v.toNat s))) ∧
  (∀ (s : State) (addr : Nat) (write : Bool) (v : Word), s.debugPort = false → Answers (.debugAccess addr write v) s (· = s)) ∧
  (∀ (s : State), s.debugPort = true → s.worlds.debugHalt = false →
    Answers .debugHalt s fun t => t.normalRuns = false ∧ (s.life.lc = .debug → t.secureRuns = false) ∧
      Quiet { s with worlds := { s.worlds with
        debugHalt := true, pausedAt := if s.life.lc = .debug ∧ s.worlds.armed = true then some s.now else none } } t) ∧
  (∀ (s : State), s.worlds.debugHalt = true → Answers .debugResume s fun t => t.normalRuns = true ∧
    Quiet { s with worlds := { s.worlds with
      debugHalt := false, pausedAt := none, kickAt := s.worlds.kickAt + (s.worlds.pausedAt.map (s.now - ·)).getD 0 } } t) ∧
  (∀ (s : State), (s.debugPort = false ∨ s.worlds.debugHalt = true → Answers .debugHalt s (· = s)) ∧
    (s.worlds.debugHalt = false → Answers .debugResume s (· = s)))

/-- R85, R148, R149, R183 to R187, R451: training sets the link's rate and width; its reset takes the mailbox, SPDM sessions
and IDE keys and resets PF0; an inbound FLIT that both sides accept ends a run of split failures, and its IDE verdict may make
its stream insecure; one that neither accepts is replayed, one that one side accepts is replayed and counted, the third in a
row a device fault; DOE Discovery and SPDM GET_VERSION are answered in the mailbox, a malformed object is dropped, and an
abort empties the mailbox; in a secured session IDE keys are queried, programmed, brought into use, a set active in both
directions on all of its sub-streams making its stream secure, and erased. No job, byte of memory or slot changes but by a
reset. -/
def Obligations.HostLinkCommands : Prop :=
  (∀ (s : State) (rate width : Nat) (flit : Bool), s.linkOn = true →
    Answers (.linkUp rate width flit) s (Quiet { s with link := { s.link with
      rate := rate, width := if width = 2 then 1 else width, flit := flit || decide (rate = 6)
      degraded := decide (rate ≠ 6) || decide ((if width = 2 then 1 else width) ≠ 16) } })) ∧
  (∀ (s : State), s.linkOn = true → (s.fn 0).run ≠ .resetting → (s.fn 0).run ≠ .unallocated →
    Answers .linkReset s fun t => (t.fn 0).run = .resetting ∧ (t.fn 0).resetCause = 7 ∧
      t.link = { degraded := s.link.degraded } ∧ t.life = s.life ∧ (s.jobs = [] → t.mem = s.mem ∧ t.store = s.store)) ∧
  (∀ (s : State), s.linkOn = true →
    Answers (.inboundFlit true true .clean) s (Quiet { s with fab := { s.fab with rxSplit := 0 } })) ∧
  (∀ (s : State) (st : Nat), s.linkOn = true →
    Answers (.inboundFlit true true (.bothSides st)) s fun t =>
      Quiet (ideInsecure st { s with fab := { s.fab with rxSplit := 0 }, free := s.free + 4 }) t ∧ t.link.ide.find? st = some .insecure) ∧
  (∀ (s : State), s.linkOn = true →
    Answers (.inboundFlit true true .oneSide) s fun t =>
      Quiet { s with fab := { s.fab with rxSplit := 0 }, free := s.free + 1 } t ∧ t.boot.escalated.isSome = true) ∧
  (∀ (s : State) (v : IdeCheck), s.linkOn = true →
    Answers (.inboundFlit false false v) s fun t => Quiet { s with fab := { s.fab with rxSplit := 0 } } t ∧ .replayRequest ∈ t.out) ∧
  (∀ (s : State) (a : Bool) (v : IdeCheck), s.linkOn = true →
    Answers (.inboundFlit a (!a) v) s fun t => Quiet { s with fab := { s.fab with rxSplit := s.fab.rxSplit + 1 } } t ∧
      .replayRequest ∈ t.out ∧ (3 ≤ s.fab.rxSplit + 1 → t.boot.escalated.isSome = true)) ∧
  (∀ (s : State) (obj : Bytes), Answers (.spdmRequest obj) s
    (· = if s.linkOn = true ∧ s.secureRuns = true ∧ s.link.held = none then doeServe obj s else s)) ∧
  (∀ (s : State) (obj : Bytes), obj.length < 8 ∨ 65536 < obj.length ∨ obj.leAt 0 2 ≠ 1 ∨ obj.leAt 4 4 % 2 ^ 18 * 4 ≠ obj.length →
    Answers (.spdmRequest obj) s (· = s)) ∧
  (∀ (s : State) (obj : Bytes), s.linkOn = true → s.secureRuns = true → s.link.held = none → 8 ≤ obj.length → obj.length ≤ 65536 →
    obj.leAt 0 2 = 1 → obj.leAt 4 4 % 2 ^ 18 * 4 = obj.length →
    (obj.at_ 2 = 0 → (obj.at_ 8).toNat < 3 → Answers (.spdmRequest obj) s fun t =>
      t.link.doe = doeObject 0 (Bytes.ofLE 2 1 ++
        Bytes.ofNats [(obj.at_ 8).toNat, if (obj.at_ 8).toNat < 2 then (obj.at_ 8).toNat + 1 else 0]) ∧
      t.link.spdm = s.link.spdm ∧ t.link.conn = s.link.conn ∧ WorkStands s t) ∧
    (obj.at_ 2 = 1 → obj.at_ 8 = 0x10 → obj.at_ 9 = 0x84 → Answers (.spdmRequest obj) s fun t =>
      t.link.doe = doeObject 1 (Bytes.ofNats [0x10, 0x04, 0, 0, 0, 3, 0, 0x10, 0, 0x11, 0, 0x12]) ∧ t.link.conn.phase = 1 ∧
      t.link.spdm = [] ∧ WorkStands s t)) ∧
  (∀ (s : State), Answers .doeAbort s fun t => t = { s with link := { s.link with doe := [], mailbox := [], held := none } }) ∧
  (∀ (s : State) (x : SpdmSession), s.spdm? x.id = some x → x.handshake = false → s.secureRuns = true → s.link.held = none →
    x.ver < 256 →
    (∀ port, Answers (.ideKmQuery x.id port) s fun t => t.link.doe ≠ [] ∧ t.link.ideKeys = s.link.ideKeys ∧
      t.link.ide = s.link.ide ∧ WorkStands s t ∧
      (s.link.conn.room = 0 ∨ 195 ≤ s.link.conn.room ∨ x.ver < 0x12 →
        t.link.doe = doeObject 2 (spdmSeal x.id x.ver x.rsp
          (spdmMsg x.ver 0x7E 0 0 (vendorBody (ideQuery (ideReq (Bytes.ofNats [0, 0, 0, port])) s)))))) ∧
    (∀ (stream keySet sub : Nat) (tx : Bool) (key iv : Bytes), key.length = 32 → iv.length = 8 → stream ≤ 8 → keySet ≤ 1 → sub ≤ 2 →
      Answers (.ideKmKeyProg x.id stream keySet sub tx key iv) s fun t => WorkStands s t ∧
        if (s.link.ideKeys.find? (ideIndex stream keySet sub tx)).any (·.active) = true then t.link.ideKeys = s.link.ideKeys
        else t.link.ideKeys.find? (ideIndex stream keySet sub tx) = some { key := key, iv := iv } ∧
          ∀ i, i ≠ ideIndex stream keySet sub tx → t.link.ideKeys.find? i = s.link.ideKeys.find? i) ∧
    (∀ (stream keySet sub : Nat) (tx : Bool) (k : IdeKey), s.link.ideKeys.find? (ideIndex stream keySet sub tx) = some k →
      stream ≤ 8 → keySet ≤ 1 → sub ≤ 2 →
      Answers (.ideKmKSetGo x.id stream keySet sub tx) s fun t =>
        (t.link.ideKeys.find? (ideIndex stream keySet sub tx)) = some { k with active := true } ∧
        (t.link.ideKeys.find? (ideIndex stream (1 - keySet) sub tx)).any (·.active) = false ∧
        (ideSetActive t.link stream keySet = true → t.link.ide.find? stream = some .secure) ∧ WorkStands s t) ∧
    (∀ (stream keySet sub : Nat) (tx : Bool), stream ≤ 8 → keySet ≤ 1 → sub ≤ 2 →
      Answers (.ideKmKSetStop x.id stream keySet sub tx) s fun t =>
        t.link.ideKeys.find? (ideIndex stream keySet sub tx) = none ∧
        (∀ i, i ≠ ideIndex stream keySet sub tx → t.link.ideKeys.find? i = s.link.ideKeys.find? i) ∧
        ((s.link.ideKeys.find? (ideIndex stream keySet sub tx)).any (·.active) = true → t.link.ide.find? stream = some .insecure) ∧
        WorkStands s t))

/-! ## Faults and the event recorder (chapter 14) -/

/-- Unit `u`, Iris where it is true, is at fault in state `s` (R434, R435): it leaves step and resynchronises, or is FAILED at
its third drop within 60 s; the other one is active from then on where `u` was. -/
abbrev UnitAtFault (u : Bool) (s t : State) : Prop :=
  Quiet { s with red := t.red } t ∧ t.red.inStep = false ∧ t.red.simplex = s.red.simplex ∧ t.red.broken = s.red.broken ∧
  t.unit u = (if 2 ≤ (s.red.drops.filter fun d => decide (d.1 = u ∧ s.now - d.2 < 60 * second)).length then 4 else 3) ∧
  if s.red.iris = u then t.red.iris = (!u) ∧ t.unit (!u) = 0 ∧ t.red.switches = satAdd s.red.switches 255
  else t.red.iris = s.red.iris ∧ t.unit (!u) = s.unit (!u) ∧ t.red.switches = s.red.switches

/-- A fault that the recovery of block `c` could not mend (R423): a device fault follows, and nothing else changes. -/
abbrev Unmended (c : Nat) (s t : State) : Prop :=
  Quiet { s with red := { s.red with broken := s.red.broken ||| 2 ^ c } } t ∧ t.boot.escalated.isSome = true

/-- The end of a control stage's comparison in block `b` (R420). -/
abbrev StageCompared (b : Nat) (again p1 p2 : Bool) (s t : State) : Prop :=
  if again = true then Quiet s t
  else if p1 ≠ p2 then Quiet { s with red := { s.red with simplex := s.red.simplex ||| 2 ^ b } } t
  else Unmended b s t

/-- Error bit `n` of block `c` is 1. -/
abbrev ErrShown (c n : Nat) (t : State) : Prop := (t.regs.err.getD c 0).getLsbD n = true

/-- R307, R308, R306: a parity mismatch found in a block register of class P gives it its reset value, and one in a register of
class S is restored, each with PERR and nothing else; one in a function's page resets the function, cause 5, with PERR in
FN_EVENT; a shadow mismatch changes no register: of CU_WORLD the logic takes the normal world until the next fetch, a value
of VS is read again; an access of Vesper left unanswered is reported, a read with Completer Abort, and a second one
escalates. R419, R420, R422, R433 to R435: a stalled lane fences its pair, and a stalled splitter both of its cluster's; the
other stalls go the way of their scope's faults; a control stage whose copies agree again, or one of whose copies fails
its test, goes on, and one that can do neither escalates; Meridian leaves a source the calendar does not agree with; the
control units roll back, or hand over and drop the unit at fault, and a unit that passes its test is back in step. With the
main die off none of these does anything. -/
def Obligations.FaultsAreContained : Prop :=
  (∀ (s : State) (c off : Nat) (i : RegInfo), s.mainOn = true → c < 12 → off < 0x100000 → regInfo c off = some i → i.rw ≠ 0 →
    Answers (.parityScrub [.bar (c * 0x100000 + off)]) s fun t =>
      Quiet (if i.secure then s else resetReg c off s) t ∧ (s.regs.err.length = 12 → ErrShown c 16 t)) ∧
  (∀ (s : State) (c : Nat), s.mainOn = true → c < 12 → s.regs.errEn.length = 12 →
    Answers (.parityScrub [.bar (c * 0x100000 + 0xC)]) s (Quiet { s with regs := { s.regs with
      errEn := s.regs.errEn.set c 0x1FFFF#32 } })) ∧
  (∀ (s : State) (f off : Nat), s.mainOn = true → f ≠ 0 → pageParity off = true → (s.fn f).run ≠ .resetting →
    (s.fn f).run ≠ .unallocated →
    Answers (.parityScrub [.page f off]) s fun t => UnderReset f 5 s t ∧ (t.fn f).event.getLsbD 4 = true ∧ ResetFrame f s t ∧
      t.life = s.life) ∧
  (∀ (s : State) (r : ShadowReg), s.mainOn = true →
    Answers (.shadowMismatch r) s fun t => (s.regs.err.length = 12 → ErrShown (shadowPlace r).1 2 t) ∧
      Quiet { s with free := s.free + 1, worlds := { s.worlds with
        taken := if r = .world then some (.world, 0) else none } } t) ∧
  (∀ (s : State) (off : Nat) (w : Bool), s.mainOn = true →
    Answers (.vsAccessTimeout off w) s fun t => Quiet { s with red := { s.red with vsSilent := true } } t ∧
      (w = false → .completerAbort 0 ∈ t.out) ∧ (s.red.vsSilent = true → t.boot.escalated.isSome = true) ∧
      (s.regs.err.length = 12 → ErrShown Block.vs 0 t)) ∧
  (∀ (s : State) (ref osc cal : Nat), s.mainOn = true →
    if s.clock.refclk = false ∨ agrees osc ref = true then Answers (.meridianSourceCheck ref osc cal) s (Quiet s)
    else Answers (.meridianSourceCheck ref osc cal) s fun t =>
      Quiet { s with clock := { s.clock with
        onRef := if agrees ref cal = agrees osc cal then s.clock.onRef else agrees ref cal } } t ∧
      (agrees ref cal = false → agrees osc cal = false → t.boot.escalated.isSome = true)) ∧
  (∀ (s : State) (p : Nat), s.mainOn = true → p < s.fab.pairs.length → ((s.pair p).st.full || (s.pair p).st.half) = true →
    Answers (.stallLimit (.lane p)) s fun t => (t.pair p).st = .fenced ∧ t.store = s.store ∧ t.life = s.life ∧
      t.custody = s.custody ∧ ((s.pair p).jobs = [] → t.jobs = s.jobs ∧ t.mem = s.mem)) ∧
  (∀ (s : State) (c : Nat), s.mainOn = true → 2 * c + 1 < s.fab.pairs.length →
    ((s.pair (2 * c)).st.full || (s.pair (2 * c)).st.half) = true →
    ((s.pair (2 * c + 1)).st.full || (s.pair (2 * c + 1)).st.half) = true →
    Answers (.stallLimit (.splitter c)) s fun t => (t.pair (2 * c)).st = .fenced ∧ (t.pair (2 * c + 1)).st = .fenced ∧
      t.store = s.store ∧ t.life = s.life ∧ t.custody = s.custody) ∧
  (∀ (s : State) (b n : Nat) (again p1 p2 : Bool), s.mainOn = true →
    Answers (.stallLimit (.control b n again p1 p2)) s (StageCompared b again p1 p2 s)) ∧
  (∀ (s : State) (area addr : Nat), s.mainOn = true →
    Answers (.stallLimit (.store area addr false)) s (Quiet s) ∧
    Answers (.stallLimit (.store area addr true)) s (Unmended (areaBlock area) s)) ∧
  (∀ (s : State) (off : Nat) (w : Bool), s.mainOn = true →
    Answers (.stallLimit (.dieLink off w)) s fun t => Quiet { s with red := { s.red with vsSilent := true } } t ∧
      (s.red.vsSilent = true → t.boot.escalated.isSome = true)) ∧
  (∀ (s : State) (u : Bool), s.mainOn = true →
    (s.red.inStep = true → Answers (.stallLimit (.controlUnit u)) s (UnitAtFault u s)) ∧
    (s.red.inStep = false → s.red.iris = u → Answers (.stallLimit (.controlUnit u)) s (Unmended Block.cu s))) ∧
  (∀ (s : State), s.mainOn = true →
    Answers (.stallLimit .drbg) s (Quiet (if s.rng.seeded then restartGenerator 2 s else s))) ∧
  (∀ (s : State) (c : Nat), s.mainOn = true →
    exec (.stallLimit (.pkCore c)) s = exec (.pkCoreFault c 0) (stallIn Block.pk s)) ∧
  (∀ (s : State) (b n : Nat) (again p1 p2 : Bool), s.mainOn = true →
    Answers (.controlStageDisagreement b n again p1 p2) s fun t => StageCompared b again p1 p2 s t ∧
      (b < s.regs.err.length → ErrShown b 2 t)) ∧
  (∀ (s : State) (m : CuMismatch), s.mainOn = true → s.red.inStep = true →
    Answers (.cuMismatch m) s fun t =>
      match m.checker with
      | some u => if m.ramParity = true then Quiet s t else UnitAtFault u s t
      | none => (Block.cu < s.regs.err.length → ErrShown Block.cu 2 t) ∧
        if m.rollbackOk = true then Quiet s t
        else if m.second = true then Unmended Block.cu s t
        else if m.asterPass ≠ m.irisPass then UnitAtFault m.asterPass s t
        else if m.asterPass = true ∧ m.ramRepair = true ∧ m.againOk = true then Quiet s t
        else Unmended Block.cu s t) ∧
  (∀ (s : State) (m : CuMismatch), s.mainOn = true → s.red.inStep = false →
    Answers (.cuMismatch m) s (if m.checker = some s.red.iris then Unmended Block.cu s else Quiet s)) ∧
  (∀ (s : State) (us : Nat) (pass : Bool), s.mainOn = true → s.unit (!s.red.iris) = 3 →
    Answers (.cuResync pass us) s fun t => t.unit (!s.red.iris) = (if pass then 1 else 4) ∧
      t.unit s.red.iris = s.unit s.red.iris ∧ t.red.iris = s.red.iris ∧
      t.red.inStep = (pass || s.red.inStep) ∧ Quiet { s with red := t.red } t) ∧
  (∀ (s : State) (us : Nat) (pass : Bool), s.unit (!s.red.iris) ≠ 3 → Answers (.cuResync pass us) s (Quiet s)) ∧
  (∀ (s : State), s.mainOn = false →
    (∀ bad, Answers (.parityScrub bad) s (Quiet s)) ∧ (∀ r, Answers (.shadowMismatch r) s (Quiet s)) ∧
    (∀ off w, Answers (.vsAccessTimeout off w) s (Quiet s)) ∧ (∀ a b c, Answers (.meridianSourceCheck a b c) s (Quiet s)) ∧
    (∀ x, Answers (.stallLimit x) s (Quiet s)) ∧ (∀ p us, Answers (.cuResync p us) s (Quiet s)) ∧ (∀ m, Answers (.cuMismatch m) s (Quiet s)) ∧
    (∀ b n x y z, Answers (.controlStageDisagreement b n x y z) s (Quiet s)))

/-- R373, R374, R427, R428, R436 to R439: a device fault disables fetching and dispatch, ends the jobs in flight, erases the
keys and operands of what remains, and falls due or is held; 1 ms later it resets the device, or the held device goes into
its hold, open to firmware when stage 3 of its start-up was reached; the secure watchdog's end resets the device, halts
the secure world with its sessions and ceremony gone, or, during start-up, escalates; the oldest pending record goes into
the ring with the next SEQ; and a new Meridian second begins a new rate window. Each leaves all else as it was; where its
condition is absent it does nothing. -/
def Obligations.DeviceFaultsAndRecords : Prop :=
  (∀ (s : State) (seq : Nat), s.boot.escalated = some seq → s.mainOn = true →
    Answers (.deviceFault seq) s fun t => t.boot.devFault = true ∧ t.regs.fetchEn = false ∧ t.regs.dispatchEn = false ∧
      t.red.lastFault = s.now ∧ t.boot.dueAt = (if holdsFault s then none else some (s.boot.dueAt.getD s.now)) ∧
      t.life = s.life ∧ t.boot.phase = s.boot.phase ∧
      (∀ j ∈ t.jobs, j.keyA = {} ∧ j.keyB = {} ∧ j.draws = [] ∧ j.result = none) ∧
      ((∀ j ∈ s.jobs, j.taken = false ∧ (s.fn j.ref.fn).run ≠ .resetting) → t.jobs = [])) ∧
  (∀ (s : State) (seq : Nat), s.boot.escalated ≠ some seq → Answers (.deviceFault seq) s (· = s)) ∧
  (∀ (s : State) (t0 : Nat), s.boot.devFault = true → s.boot.dueAt = some t0 →
    if elapsedUs s.now t0 1000 = true then Answers .deviceFaultAction s fun t => t.boot.phase = .stage 1 ∧
      t.boot.faultReset = some s.now ∧ t.boot.devFault = false ∧ t.jobs = [] ∧ t.evr = s.evr ∧ t.clock.meridian = s.clock.meridian ∧
      t.life = { s.life with rootMain := [] } ∧ t.vesper = { s.vesper with refRead := false, adjust := 0 } ∧
      t.worlds.stored = s.worlds.stored ∧ (s.jobs = [] → t.mem = s.mem)
    else Answers .deviceFaultAction s (· = s)) ∧
  (∀ (s : State), s.boot.devFault = true → s.boot.dueAt = none → s.boot.phase = .open_ ∨ (∃ n, s.boot.phase = .stage n) →
    Answers .deviceFaultAction s (Quiet { s with boot := { s.boot with
      phase := if s.boot.stage3 then .devHold else .unbooted, stuck := s.boot.stuck || !s.boot.stage3 } })) ∧
  (∀ (s : State), s.boot.devFault = false ∨ (s.boot.dueAt = none ∧ s.boot.phase ≠ .open_ ∧ ∀ n, s.boot.phase ≠ .stage n) →
    Answers .deviceFaultAction s (· = s)) ∧
  (∀ (s : State), s.mainOn = true → wdogExpired s = true → s.boot.devFault = false →
    Answers .watchdog s fun t => t.worlds.wdogs = satAdd s.worlds.wdogs 0xFFFFFFFF ∧
      match s.boot.phase with
      | .stage _ =>
        Quiet { s with worlds := { s.worlds with wdogs := satAdd s.worlds.wdogs 0xFFFFFFFF, kickAt := s.now } } t ∧
          t.boot.escalated.isSome = true
      | _ => if s.ahnomHang = 0 then t.boot.phase = .stage 1 ∧ t.boot.faultReset = s.boot.faultReset ∧ t.jobs = [] ∧
        t.life = { s.life with rootMain := [] } ∧ t.vesper = { s.vesper with refRead := false, adjust := 0 } ∧
        (s.jobs = [] → t.mem = s.mem)
      else t.worlds.halted = true ∧ t.custody.cer = none ∧ t.mgmt.sessions = [] ∧ t.boot.phase = s.boot.phase ∧
        t.life = s.life ∧ t.mem = s.mem ∧ (s.jobs = [] → t.jobs = [] ∧ t.store = s.store)) ∧
  (∀ (s : State), s.mainOn = false ∨ wdogExpired s = false ∨ s.boot.devFault = true → Answers .watchdog s (· = s)) ∧
  (∀ (s : State) (e : EventRec) (l : List EventRec), s.evr.queue = e :: l → s.mainOn = true →
    Answers .eventRecordWrite s fun t => Quiet { s with evr := t.evr } t ∧
      t.evr = { s.evr with
        queue := l, head := (s.evr.head + 1) % 2 ^ 32, ring := s.evr.ring.set (s.evr.head % 65536) (eventBytes s.evr.head e) } ∧
      t.evr.ring.find? (s.evr.head % 65536) = some (eventBytes s.evr.head e) ∧ (eventBytes s.evr.head e).length = 32 ∧
      (overrunsCursor s = true → s.regs.err.length = 12 → ErrShown Block.ev 4 t)) ∧
  (∀ (s : State), s.evr.queue = [] ∨ s.mainOn = false → Answers .eventRecordWrite s (· = s)) ∧
  (∀ (s : State), s.clock.running = true → s.now / second ≠ s.evr.window →
    Answers .rateWindowEnd s fun t => t = { s with evr := { s.evr with
      window := s.now / second, counts := [], suppressed := []
      queue := s.evr.queue ++ s.evr.suppressed.map (suppressedRec s.evr.window) } }) ∧
  (∀ (s : State), s.clock.running = false ∨ s.now / second = s.evr.window → Answers .rateWindowEnd s (· = s))

/-! ## Reset and start-up (chapter 15) -/

/-- What a reset of the whole device takes and what it leaves (R452): jobs, queues, every allocation but PF0's, working copies
of slots, control RAM, sessions, extensions, the generator's state, an open ceremony and the rule lock are gone; blobs, the
life-cycle, custody, the dictionary's values and stored extensions stay; and no byte of memory changes when no job was in
flight. -/
abbrev DeviceCleared (s t : State) : Prop :=
  t.jobs = [] ∧ (∀ f q, t.jq? f q = none ∧ t.cq? f q = none) ∧ (∀ f, f ≠ 0 → (t.fn f).run = .unallocated) ∧
  (∀ n, (t.slot n).blob = (s.slot n).blob ∧ (t.slot n).lastGen = (s.slot n).lastGen ∧ (t.slot n).a = {} ∧ (t.slot n).b = {}) ∧
  t.cram = [] ∧ t.mgmt.sessions = [] ∧ t.worlds.exts = [] ∧ t.worlds.stored = s.worlds.stored ∧ t.rng.seeded = false ∧
  t.life = { s.life with rootMain := [] } ∧ t.custody = { s.custody with cer := none } ∧ t.dict.dev = s.dict.dev ∧
  t.dict.profiles = s.dict.profiles ∧ t.regs.rulesLock = false ∧ (s.jobs = [] → t.mem = s.mem)

/-- R443 to R453: the resets and the seven stages of start-up, each from the state it begins in, with what each takes and
leaves; where a command's condition is absent it does nothing; a device held unbooted stays so until a power-on reset; and
the supplies, REFCLK, whose loss is a reset of the link, and the operating conditions. The ring loses nothing but, at a loss
of supplies, the position being written. -/
def Obligations.ResetsAndStartUp : Prop :=
  (∀ (s : State), s.boot.phase = .unpowered → Answers .powerOnReset s fun t =>
    t = { s with
      boot := { s.boot with phase := .held, supplies := true, powerOn := true, stuck := false }
      evr := { s.evr with head := foundHead s.evr.ring, cursor := BitVec.ofNat 32 (foundHead s.evr.ring) - 1 }
      vesper := { s.vesper with
        counts := { s.vesper.counts with powerOns := satAdd s.vesper.counts.powerOns 0xFFFFFFFF }
        glitchRef := 825, refRead := false } }) ∧
  (∀ (s : State), s.boot.phase ≠ .unpowered → Answers .powerOnReset s (· = s)) ∧
  (∀ (s : State), s.boot.phase ≠ .unpowered → Answers .supplyLoss s fun t => DeviceCleared s t ∧ t.boot.phase = .unpowered ∧
    t.boot.supplies = false ∧ t.boot.powerOn = true ∧ t.clock.meridian = 0 ∧ t.clock.running = false ∧
    t.vesper = { s.vesper with refRead := false, adjust := 0, armed := false } ∧ t.evr.head = s.evr.head ∧ t.evr.queue = [] ∧
    (∀ k, k ≠ s.evr.head % 65536 → t.evr.ring.find? k = s.evr.ring.find? k) ∧
    (s.mainOn = false ∨ s.evr.queue = [] → t.evr.ring = s.evr.ring)) ∧
  (∀ (s : State), s.boot.phase = .unpowered → Answers .supplyLoss s (· = s)) ∧
  (∀ (s : State), Answers .glitchArm s fun t =>
    t = if s.boot.supplies = true then { s with vesper := { s.vesper with armed := true } } else s) ∧
  (∀ (s : State), s.boot.supplies = true → s.boot.perst = true → Answers .perstFall s fun t => DeviceCleared s t ∧
    t.boot.phase = .held ∧ t.boot.perst = false ∧ t.boot.stuck = s.boot.stuck ∧ t.clock.running = false ∧
    t.clock.meridian = s.clock.meridian ∧ t.evr = s.evr ∧ t.dict.counters = s.dict.counters ∧
    t.vesper = { s.vesper with refRead := false, adjust := 0 }) ∧
  (∀ (s : State), s.boot.supplies = false ∨ s.boot.perst = false → Answers .perstFall s (· = s)) ∧
  (∀ (s : State), s.boot.phase = .held → s.boot.supplies = true → Answers .perstRise s fun t =>
    t = { s with clock := { s.clock with running := !s.boot.powerOn }, boot := { s.boot with phase := .stage 1, perst := true } }) ∧
  (∀ (s : State), s.boot.phase ≠ .held ∨ s.boot.supplies = false → Answers .perstRise s (· = s)) ∧
  (∀ (s : State), starting 1 s = true → Answers .vesperStateRead s fun t =>
    t.boot.phase = .stage 2 ∧ t.clock.running = true ∧ t.boot.powerOn = false ∧
    (s.vesper.warm = true → t.vesper = s.vesper ∧ t.life = s.life ∧ t.store = s.store ∧ t.jobs = s.jobs ∧ t.mem = s.mem ∧
      t.clock.meridian = (if s.boot.powerOn then s.vesper.calendar / second * second else s.clock.meridian)) ∧
    (s.vesper.warm = false → t.vesper.warm = true ∧ t.vesper.valid = false ∧
      t.vesper.calendar = max (s.vesper.storedCal + 60 * second) (newestTime s) ∧
      (s.life.lc = .initialized ∨ s.life.lc = .operational ∨ s.life.lc = .locked → t.vesper.latch.testBit 16 = true ∧
        t.life.lc = .locked))) ∧
  (∀ (s : State) (r : SelfTest), starting 2 s = true → Answers (.mainDieSelfTest r) s fun t =>
    t.vesper.buf = [] ∧ (r.badSets = [] → r.badCopies.Nodup → t.life = s.life ∧ t.store = s.store ∧ t.jobs = s.jobs ∧ t.mem = s.mem) ∧
    if testFails r then t.boot.phase = .stage 2 ∧ t.boot.escalated.isSome = true
    else t.boot.phase = .stage 3 ∧ (∀ p, p < 10 → (t.pair p).st = pairRole r.pairsOk p) ∧
      (∀ c, c < 4 → (t.core c).st = if r.coresOk.getD c false then .active else .absent) ∧
      t.red.inStep = (r.asterOk && r.irisOk)) ∧
  (∀ (s : State) (r : FirmwareScan), starting 3 s = true → s.boot.stuck = true → Answers (.firmwareCheck r) s
    (Quiet { s with boot := { s.boot with phase := .unbooted } })) ∧
  (∀ (s : State) (r : FirmwareScan), starting 3 s = true → s.boot.stuck = false → Answers (.firmwareCheck r) s fun t =>
    t.life = s.life ∧ t.jobs = s.jobs ∧ t.mem = s.mem ∧ t.store = s.store ∧
    match bootImage s.boot.custodyNew s.boot.custodyOld s.boot.custodySvn r.custodyNewer r.custodyOlder with
    | none => t.boot.phase = .unbooted ∧ t.boot.stuck = true ∧ t.worlds = s.worlds
    | some i => t.boot.phase = .stage 4 ∧ t.boot.stage3 = true ∧ t.boot.custodyOld = i.1 ∧
      t.worlds = { s.worlds with armed := true, kickAt := s.now }) ∧
  (∀ (s : State), starting 4 s = true → Answers .rootHandOff s (Quiet { s with
    boot := { s.boot with phase := .stage 5 }, life := { s.life with rootMain := s.life.root }
    rng := { s.rng with enabled := true, sources := s.rng.sources.map fun x => { x with first := true } } })) ∧
  (∀ (s u v : State) (b : Bytes), starting 5 s = true → (if s.rng.seeded then some s else firstSeed s) = some u →
    fwRandom 32 (askSeeds u) = .ok (b, v) → NothingWaits s →
    Answers .firstSeeding s fun t => t.boot.phase = .stage 6 ∧ t.rng.seeded = true ∧ t.vesper.patKey = b.take 16 ∧
      t.life = s.life ∧ t.mem = s.mem ∧ t.store = s.store ∧ (s.jobs = [] → t.jobs = [])) ∧
  (∀ (s : State), starting 5 s = true → s.rng.seeded = false → s.rng.pool = [] → NothingWaits s →
    Answers .firstSeeding s (Quiet s)) ∧
  (∀ (s : State) (bad : List Nat), starting 6 s = true → (s.fab.gens.getD 10 {}).key ≠ [] →
    (s.fab.gens.getD 11 {}).key ≠ [] → Answers (.slotsLoaded bad) s fun t => t.boot.phase = .stage 7 ∧
      t.life = s.life ∧ t.jobs = s.jobs ∧ t.mem = s.mem ∧ (t.slot 2).st = .loaded ∧ (t.slot 3).st = .loaded ∧
      (s.life.lc = .factory ∨ s.life.lc = .decommissioned ∨ s.life.lockClass = .z ∨ s.life.lockClass = .v →
        ∀ n, n ≠ 2 → n ≠ 3 → t.slot n = s.slot n)) ∧
  (∀ (s : State), starting 7 s = true → Answers .queuesOpen s fun t => t.boot.phase = .open_ ∧ t.regs.fetchEn = true ∧
    t.regs.dispatchEn = true ∧ t.life = s.life ∧ t.jobs = s.jobs ∧ t.mem = s.mem ∧ t.store = s.store ∧
    (s.worlds.stored = [] ∨ s.boot.serviceFw = false → t.worlds = s.worlds ∧ t.cram = s.cram)) ∧
  (∀ (s : State), (starting 1 s = false → Answers .vesperStateRead s (· = s)) ∧
    (∀ r, starting 2 s = false → Answers (.mainDieSelfTest r) s (· = s)) ∧
    (∀ r, starting 3 s = false → Answers (.firmwareCheck r) s (· = s)) ∧
    (starting 4 s = false → Answers .rootHandOff s (· = s)) ∧
    (∀ bad, starting 6 s = false ∨ (s.fab.gens.getD 10 {}).key = [] ∨ (s.fab.gens.getD 11 {}).key = [] →
      Answers (.slotsLoaded bad) s (· = s)) ∧
    (starting 7 s = false → Answers .queuesOpen s (· = s))) ∧
  (∀ (s : State), s.clock.refclk = true → s.mainOn = false → Answers .refclkLoss s (Quiet { s with
    clock := { s.clock with refclk := false, onRef := false }, mgmt := { s.mgmt with beacon := false } })) ∧
  (∀ (s : State), s.clock.refclk = true → s.mainOn = true → (s.fn 0).run ≠ .resetting → (s.fn 0).run ≠ .unallocated →
    Answers .refclkLoss s fun t => t.clock = { s.clock with refclk := false, onRef := false } ∧ t.mgmt.beacon = false ∧
      UnderReset 0 7 s t ∧ t.link = { degraded := s.link.degraded } ∧ t.life = s.life ∧
      (s.jobs = [] → t.jobs = [] ∧ t.mem = s.mem ∧ t.store = s.store)) ∧
  (∀ (s : State), s.clock.refclk = false → Answers .refclkLoss s (· = s)) ∧
  (∀ (s : State), Answers .refclkReturn s fun t =>
    t = if s.clock.refclk = true then s else { s with clock := { s.clock with refclk := true, onRef := true } }) ∧
  (∀ (s : State) (b : Bool), Answers (.operatingConditionsChange b) s (Quiet { s with red := { s.red with within := b } }))

/-! ## Rules of the whole machine -/

/-- A command that can reset the device, warm or by its supplies (R443 to R445, R428, R373). -/
def ResetsTheDevice : Instr → Bool
  | .perstFall | .supplyLoss | .deviceFaultAction | .watchdog => true
  | _ => false

/-- R371: while RULES_LOCK is 1 no command changes a rule word or a page owner entry, whoever sends it, and only a reset of
the device clears the lock. The opening of the queues, at the end of start-up, sets it when fw.gates.lock is 1. -/
def Obligations.LockedRulesStay : Prop :=
  (∀ (c : Instr) (s t : State), exec c s = .next t → ResetsTheDevice c = false → s.regs.rulesLock = true →
    t.regs.rulesLock = true ∧ t.regs.rules = s.regs.rules ∧ t.regs.owners = s.regs.owners) ∧
  (∀ s : State, starting 7 s = true →
    Answers .queuesOpen s fun t => t.regs.rulesLock = (s.regs.rulesLock || decide (s.param 0x7000 0x22 0 = 1))) ∧
  (∀ s : State, s.boot.supplies = true → s.boot.perst = true →
    Answers .perstFall s fun t => t.regs.rulesLock = false) ∧
  (∀ s : State, s.boot.phase ≠ .unpowered → Answers .supplyLoss s fun t => t.regs.rulesLock = false)
end

