-- ==== Sys2Proof/Laws/Tables.lean ====
section
/-!
SUPPORT. Laws of the sparse tables and of host memory: a read after a write, and the canonical form.
-/

namespace Sys2Proof

/-! ## Sparse tables -/

namespace FMap

variable {α : Type}

theorem find?_set (m : FMap α) (k j : Nat) (v : α) : find? (set m k v) j = if j = k then some v else find? m j := by
  induction m with
  | nil => by_cases h : k = j <;> simp [set, find?, h, eq_comm]
  | cons p r ih =>
    obtain ⟨a, w⟩ := p
    unfold set
    split
    · by_cases h : k = j <;> simp [find?, h, eq_comm]
    · split
      · next h1 h2 => subst h2; by_cases h : k = j <;> simp [find?, h, eq_comm]
      · next h1 h2 =>
        by_cases h : a = j
        · subst h; simp [find?, Ne.symm h2]
        · simp [find?, h, ih]

@[simp] theorem find?_set_self (m : FMap α) (k : Nat) (v : α) : find? (set m k v) k = some v := by simp [find?_set]

theorem find?_set_ne (m : FMap α) {k j : Nat} (v : α) (h : j ≠ k) : find? (set m k v) j = find? m j := by simp [find?_set, h]

theorem getD_set (m : FMap α) (k j : Nat) (v d : α) : getD (set m k v) j d = if j = k then v else getD m j d := by
  unfold getD; rw [find?_set]; split <;> simp

@[simp] theorem getD_set_self (m : FMap α) (k : Nat) (v d : α) : getD (set m k v) k d = v := by simp [getD_set]

theorem getD_set_ne (m : FMap α) {k j : Nat} (v d : α) (h : j ≠ k) : getD (set m k v) j d = getD m j d := by simp [getD_set, h]

@[simp] theorem find?_erase_self (m : FMap α) (k : Nat) : find? (erase m k) k = none := by
  induction m with
  | nil => rfl
  | cons p r ih =>
    obtain ⟨a, w⟩ := p
    simp only [erase] at *
    by_cases h : a = k
    · simpa [h] using ih
    · simpa [h, find?] using ih

theorem find?_erase_ne (m : FMap α) {k j : Nat} (h : j ≠ k) : find? (erase m k) j = find? m j := by
  induction m with
  | nil => rfl
  | cons p r ih =>
    obtain ⟨a, w⟩ := p
    simp only [erase] at *
    by_cases h1 : a = k
    · have : a ≠ j := fun h2 => h (h2.symm.trans h1)
      rw [find?, if_neg this, ← ih]; simp [h1]
    · by_cases h2 : a = j
      · simp [h2, find?, h]
      · rw [find?, if_neg h2, ← ih]; simp [h1, find?, h2]

/-- A change that leaves keys alone acts on each value. -/
theorem find?_mapVal (m : FMap α) (h : Nat → α → α) (k : Nat) :
    find? (m.map fun p => (p.1, h p.1 p.2)) k = (find? m k).map (h k) := by
  induction m with
  | nil => rfl
  | cons p r ih =>
    by_cases e : p.1 = k
    · subst e; simp [find?]
    · simp [find?, e, ih]

end FMap

/-! ## Host memory -/

namespace Machine.Memory

/-- The first key of a table in canonical form lies above `n`. -/
def above (n : Nat) : List Host.Cell → Bool
  | [] => true
  | (k, _) :: _ => decide (n < k)

theorem wf_cons (k : Nat) (b : Byte) (m : List Host.Cell) :
    wf ((k, b) :: m) = (decide (b ≠ 0) && above k m && wf m) := by
  cases m with
  | nil => simp [wf, above]
  | cons p r => obtain ⟨j, c⟩ := p; simp [wf, above]

/-- Below the first key everything reads as unlisted. -/
theorem get_low (m : List Host.Cell) (n i : Nat) (ha : above n m = true) (hw : wf m = true) (hi : i ≤ n) : get m i = 0 := by
  induction m generalizing n with
  | nil => rfl
  | cons p r ih =>
    obtain ⟨j, c⟩ := p
    rw [wf_cons] at hw
    simp only [Bool.and_eq_true] at hw
    simp only [above, decide_eq_true_eq] at ha
    have : j ≠ i := by omega
    simp only [get, this, if_false]
    exact ih j hw.1.2 hw.2 (by omega)

theorem get_put (m : List Host.Cell) (k j : Nat) (b : Byte) (h : wf m = true) :
    get (put m k b) j = if j = k then b else get m j := by
  induction m with
  | nil =>
    unfold put
    by_cases hj : j = k
    · subst hj
      split
      · next hb => simp only [get, if_true]; exact hb.symm
      · simp [get]
    · have hne : k ≠ j := fun e => hj e.symm
      split <;> simp [get, hne]
  | cons p r ih =>
    obtain ⟨a, c⟩ := p
    have hw := h
    rw [wf_cons] at hw
    simp only [Bool.and_eq_true] at hw
    unfold put
    split
    · next h1 =>
      split
      · next hb =>
        by_cases hj : j = k
        · have hne : a ≠ j := by omega
          simp only [hj, if_true]
          rw [← hj, hb]
          simp only [get, hne, if_false]
          exact get_low r a j hw.1.2 hw.2 (by omega)
        · simp [hj]
      · by_cases hj : k = j <;> simp [get, hj, eq_comm]
    · split
      · next h1 h2 =>
        split
        · next hb =>
          by_cases hj : j = k
          · simp only [hj, if_true]
            rw [hb]
            exact get_low r a k hw.1.2 hw.2 (by omega)
          · have hne : a ≠ j := by omega
            simp [get, hj, hne]
        · by_cases hj : j = k
          · simp [get, hj]
          · have hne : k ≠ j := by omega
            have hne2 : a ≠ j := by omega
            simp [get, hj, hne, hne2]
      · next h1 h2 =>
        by_cases hj : a = j
        · have hne : j ≠ k := by omega
          simp [get, hj, hne]
        · simp [get, hj, ih hw.2]

theorem above_put (n k : Nat) (b : Byte) (m : List Host.Cell) (hm : above n m = true) (hk : n < k) (hw : wf m = true) :
    above n (put m k b) = true := by
  cases m with
  | nil => unfold put; split <;> simp [above, hk]
  | cons p r =>
    obtain ⟨j, c⟩ := p
    simp only [above, decide_eq_true_eq] at hm
    rw [wf_cons] at hw
    simp only [Bool.and_eq_true] at hw
    unfold put
    split
    · split <;> simp [above, hm, hk]
    · split
      · split
        · cases r with
          | nil => rfl
          | cons q t => obtain ⟨x, y⟩ := q; have := hw.1.2; simp [above] at this ⊢; omega
        · simp [above, hk]
      · simp [above, hm]

/-- A write keeps the canonical form. -/
theorem wf_put (m : List Host.Cell) (k : Nat) (b : Byte) (h : wf m = true) : wf (put m k b) = true := by
  induction m with
  | nil => unfold put; split <;> simp_all [wf]
  | cons p r ih =>
    obtain ⟨j, c⟩ := p
    have h' := h
    rw [wf_cons] at h'
    simp only [Bool.and_eq_true, decide_eq_true_eq] at h'
    unfold put
    split
    · next hk =>
      split
      · exact h
      · next hb => rw [wf_cons]; simp only [above, hk, h, Bool.and_true, decide_true, decide_eq_true_eq]; exact hb
    · split
      · next hk he =>
        split
        · exact h'.2
        · next hb => rw [wf_cons]; subst he; simp only [h'.1.2, h'.2, Bool.and_true, decide_eq_true_eq]; exact hb
      · next hk he =>
        rw [wf_cons]
        simp only [ih h'.2, above_put j k b r h'.1.2 (by omega) h'.2, Bool.and_true, decide_eq_true_eq]
        exact h'.1.1

theorem wf_putAll (l : Bytes) (m : List Host.Cell) (k : Nat) (h : wf m = true) : wf (putAll m k l) = true := by
  induction l generalizing m k with
  | nil => exact h
  | cons b r ih => exact ih _ _ (wf_put m k b h)

theorem wf_filter (m : List Host.Cell) (p : Host.Cell → Bool) (h : wf m = true) : wf (m.filter p) = true := by
  have key : ∀ (l : List Host.Cell) (n : Nat), wf l = true → above n l = true → above n (l.filter p) = true := by
    intro l
    induction l with
    | nil => intros; rfl
    | cons q r ih =>
      intro n hw ha
      obtain ⟨j, c⟩ := q
      rw [wf_cons] at hw
      simp only [Bool.and_eq_true] at hw
      simp only [above, decide_eq_true_eq] at ha
      by_cases hp : p (j, c) = true
      · simp [List.filter, hp, above, ha]
      · have hj : above n r = true := by
          cases r with
          | nil => rfl
          | cons q t => obtain ⟨x, y⟩ := q; have := hw.1.2; simp [above] at this ⊢; omega
        simpa [List.filter, hp] using ih n hw.2 hj
  induction m with
  | nil => rfl
  | cons q r ih =>
    obtain ⟨j, c⟩ := q
    rw [wf_cons] at h
    simp only [Bool.and_eq_true, decide_eq_true_eq] at h
    by_cases hp : p (j, c) = true
    · simp only [List.filter, hp]
      rw [wf_cons]
      simp only [key r j h.2 h.1.2, ih h.2, Bool.and_true, decide_eq_true_eq]
      exact h.1.1
    · simpa [List.filter, hp] using ih h.2

/-- A byte outside the bytes written keeps its value. -/
theorem get_putAll_outside (l : Bytes) (m : List Host.Cell) (k j : Nat) (h : wf m = true) (ho : j < k ∨ k + l.length ≤ j) :
    get (putAll m k l) j = get m j := by
  induction l generalizing m k with
  | nil => rfl
  | cons b r ih =>
    simp only [putAll]
    rw [ih (put m k b) (k + 1) (wf_put m k b h) (by simp at ho; omega), get_put m k j b h]
    have : j ≠ k := by simp at ho; omega
    simp [this]

/-- A byte inside the bytes written holds what was written. -/
theorem get_putAll_inside (l : Bytes) (m : List Host.Cell) (k i : Nat) (h : wf m = true) (hi : i < l.length) :
    get (putAll m k l) (k + i) = l.getD i 0 := by
  induction l generalizing m k i with
  | nil => simp at hi
  | cons b r ih =>
    simp only [putAll]
    cases i with
    | zero =>
      rw [get_putAll_outside r _ (k + 1) (k + 0) (wf_put m k b h) (by omega), get_put m k (k + 0) b h]
      simp
    | succ n =>
      have := ih (put m k b) (k + 1) n (wf_put m k b h) (by simpa using hi)
      rw [show k + (n + 1) = k + 1 + n by omega, this]
      simp

theorem getAll_putAll (l : Bytes) (m : List Host.Cell) (k : Nat) (h : wf m = true) :
    getAll (putAll m k l) k l.length = l := by
  apply List.ext_getElem
  · simp [getAll]
  · intro i h1 h2
    simp only [getAll, List.getElem_map, List.getElem_range]
    rw [get_putAll_inside l m k i h h2]
    simp [List.getD, h2]

@[simp] theorem getAll_length (m : List Host.Cell) (k n : Nat) : (getAll m k n).length = n := by simp [getAll]

end Machine.Memory

end Sys2Proof
end

