-- ==== Sys2Proof/Laws/State.lean ====
section
/-!
SUPPORT. What each small update of the state leaves alone, field by field, and what it writes.
-/

namespace Sys2Proof.Machine

variable (s : State)

/-! ## setFn -/

@[simp] theorem setFn_jobs (f : Nat) (g : Fn) : (setFn f g s).jobs = s.jobs := rfl
@[simp] theorem setFn_stamp (f : Nat) (g : Fn) : (setFn f g s).stamp = s.stamp := rfl
@[simp] theorem setFn_turnFn (f : Nat) (g : Fn) : (setFn f g s).turnFn = s.turnFn := rfl
@[simp] theorem setFn_turnU (f : Nat) (g : Fn) : (setFn f g s).turnU = s.turnU := rfl
@[simp] theorem setFn_turnA (f : Nat) (g : Fn) : (setFn f g s).turnA = s.turnA := rfl
@[simp] theorem setFn_fab (f : Nat) (g : Fn) : (setFn f g s).fab = s.fab := rfl
@[simp] theorem setFn_store (f : Nat) (g : Fn) : (setFn f g s).store = s.store := rfl
@[simp] theorem setFn_life (f : Nat) (g : Fn) : (setFn f g s).life = s.life := rfl
@[simp] theorem setFn_clock (f : Nat) (g : Fn) : (setFn f g s).clock = s.clock := rfl
@[simp] theorem setFn_evr (f : Nat) (g : Fn) : (setFn f g s).evr = s.evr := rfl
@[simp] theorem setFn_regs (f : Nat) (g : Fn) : (setFn f g s).regs = s.regs := rfl
@[simp] theorem setFn_dict (f : Nat) (g : Fn) : (setFn f g s).dict = s.dict := rfl
@[simp] theorem setFn_mgmt (f : Nat) (g : Fn) : (setFn f g s).mgmt = s.mgmt := rfl
@[simp] theorem setFn_link (f : Nat) (g : Fn) : (setFn f g s).link = s.link := rfl
@[simp] theorem setFn_boot (f : Nat) (g : Fn) : (setFn f g s).boot = s.boot := rfl
@[simp] theorem setFn_red (f : Nat) (g : Fn) : (setFn f g s).red = s.red := rfl
@[simp] theorem setFn_custody (f : Nat) (g : Fn) : (setFn f g s).custody = s.custody := rfl
@[simp] theorem setFn_rng (f : Nat) (g : Fn) : (setFn f g s).rng = s.rng := rfl
@[simp] theorem setFn_pk (f : Nat) (g : Fn) : (setFn f g s).pk = s.pk := rfl
@[simp] theorem setFn_worlds (f : Nat) (g : Fn) : (setFn f g s).worlds = s.worlds := rfl
@[simp] theorem setFn_vesper (f : Nat) (g : Fn) : (setFn f g s).vesper = s.vesper := rfl
@[simp] theorem setFn_mem (f : Nat) (g : Fn) : (setFn f g s).mem = s.mem := rfl
@[simp] theorem setFn_cram (f : Nat) (g : Fn) : (setFn f g s).cram = s.cram := rfl
@[simp] theorem setFn_out (f : Nat) (g : Fn) : (setFn f g s).out = s.out := rfl
@[simp] theorem setFn_free (f : Nat) (g : Fn) : (setFn f g s).free = s.free := rfl
@[simp] theorem setFn_pending (f : Nat) (g : Fn) : (setFn f g s).pending = s.pending := rfl

/-! ## modFn -/

@[simp] theorem modFn_jobs (f : Nat) (h : Fn → Fn) : (modFn f h s).jobs = s.jobs := rfl
@[simp] theorem modFn_stamp (f : Nat) (h : Fn → Fn) : (modFn f h s).stamp = s.stamp := rfl
@[simp] theorem modFn_turnFn (f : Nat) (h : Fn → Fn) : (modFn f h s).turnFn = s.turnFn := rfl
@[simp] theorem modFn_turnU (f : Nat) (h : Fn → Fn) : (modFn f h s).turnU = s.turnU := rfl
@[simp] theorem modFn_turnA (f : Nat) (h : Fn → Fn) : (modFn f h s).turnA = s.turnA := rfl
@[simp] theorem modFn_fab (f : Nat) (h : Fn → Fn) : (modFn f h s).fab = s.fab := rfl
@[simp] theorem modFn_store (f : Nat) (h : Fn → Fn) : (modFn f h s).store = s.store := rfl
@[simp] theorem modFn_life (f : Nat) (h : Fn → Fn) : (modFn f h s).life = s.life := rfl
@[simp] theorem modFn_clock (f : Nat) (h : Fn → Fn) : (modFn f h s).clock = s.clock := rfl
@[simp] theorem modFn_evr (f : Nat) (h : Fn → Fn) : (modFn f h s).evr = s.evr := rfl
@[simp] theorem modFn_regs (f : Nat) (h : Fn → Fn) : (modFn f h s).regs = s.regs := rfl
@[simp] theorem modFn_dict (f : Nat) (h : Fn → Fn) : (modFn f h s).dict = s.dict := rfl
@[simp] theorem modFn_mgmt (f : Nat) (h : Fn → Fn) : (modFn f h s).mgmt = s.mgmt := rfl
@[simp] theorem modFn_link (f : Nat) (h : Fn → Fn) : (modFn f h s).link = s.link := rfl
@[simp] theorem modFn_boot (f : Nat) (h : Fn → Fn) : (modFn f h s).boot = s.boot := rfl
@[simp] theorem modFn_red (f : Nat) (h : Fn → Fn) : (modFn f h s).red = s.red := rfl
@[simp] theorem modFn_custody (f : Nat) (h : Fn → Fn) : (modFn f h s).custody = s.custody := rfl
@[simp] theorem modFn_rng (f : Nat) (h : Fn → Fn) : (modFn f h s).rng = s.rng := rfl
@[simp] theorem modFn_pk (f : Nat) (h : Fn → Fn) : (modFn f h s).pk = s.pk := rfl
@[simp] theorem modFn_worlds (f : Nat) (h : Fn → Fn) : (modFn f h s).worlds = s.worlds := rfl
@[simp] theorem modFn_vesper (f : Nat) (h : Fn → Fn) : (modFn f h s).vesper = s.vesper := rfl
@[simp] theorem modFn_mem (f : Nat) (h : Fn → Fn) : (modFn f h s).mem = s.mem := rfl
@[simp] theorem modFn_cram (f : Nat) (h : Fn → Fn) : (modFn f h s).cram = s.cram := rfl
@[simp] theorem modFn_out (f : Nat) (h : Fn → Fn) : (modFn f h s).out = s.out := rfl
@[simp] theorem modFn_free (f : Nat) (h : Fn → Fn) : (modFn f h s).free = s.free := rfl
@[simp] theorem modFn_pending (f : Nat) (h : Fn → Fn) : (modFn f h s).pending = s.pending := rfl

/-! ## setJq -/

@[simp] theorem setJq_jobs (f q : Nat) (x : JobQueue) : (setJq f q x s).jobs = s.jobs := rfl
@[simp] theorem setJq_stamp (f q : Nat) (x : JobQueue) : (setJq f q x s).stamp = s.stamp := rfl
@[simp] theorem setJq_turnFn (f q : Nat) (x : JobQueue) : (setJq f q x s).turnFn = s.turnFn := rfl
@[simp] theorem setJq_turnU (f q : Nat) (x : JobQueue) : (setJq f q x s).turnU = s.turnU := rfl
@[simp] theorem setJq_turnA (f q : Nat) (x : JobQueue) : (setJq f q x s).turnA = s.turnA := rfl
@[simp] theorem setJq_fab (f q : Nat) (x : JobQueue) : (setJq f q x s).fab = s.fab := rfl
@[simp] theorem setJq_store (f q : Nat) (x : JobQueue) : (setJq f q x s).store = s.store := rfl
@[simp] theorem setJq_life (f q : Nat) (x : JobQueue) : (setJq f q x s).life = s.life := rfl
@[simp] theorem setJq_clock (f q : Nat) (x : JobQueue) : (setJq f q x s).clock = s.clock := rfl
@[simp] theorem setJq_evr (f q : Nat) (x : JobQueue) : (setJq f q x s).evr = s.evr := rfl
@[simp] theorem setJq_regs (f q : Nat) (x : JobQueue) : (setJq f q x s).regs = s.regs := rfl
@[simp] theorem setJq_dict (f q : Nat) (x : JobQueue) : (setJq f q x s).dict = s.dict := rfl
@[simp] theorem setJq_mgmt (f q : Nat) (x : JobQueue) : (setJq f q x s).mgmt = s.mgmt := rfl
@[simp] theorem setJq_link (f q : Nat) (x : JobQueue) : (setJq f q x s).link = s.link := rfl
@[simp] theorem setJq_boot (f q : Nat) (x : JobQueue) : (setJq f q x s).boot = s.boot := rfl
@[simp] theorem setJq_red (f q : Nat) (x : JobQueue) : (setJq f q x s).red = s.red := rfl
@[simp] theorem setJq_custody (f q : Nat) (x : JobQueue) : (setJq f q x s).custody = s.custody := rfl
@[simp] theorem setJq_rng (f q : Nat) (x : JobQueue) : (setJq f q x s).rng = s.rng := rfl
@[simp] theorem setJq_pk (f q : Nat) (x : JobQueue) : (setJq f q x s).pk = s.pk := rfl
@[simp] theorem setJq_worlds (f q : Nat) (x : JobQueue) : (setJq f q x s).worlds = s.worlds := rfl
@[simp] theorem setJq_vesper (f q : Nat) (x : JobQueue) : (setJq f q x s).vesper = s.vesper := rfl
@[simp] theorem setJq_mem (f q : Nat) (x : JobQueue) : (setJq f q x s).mem = s.mem := rfl
@[simp] theorem setJq_cram (f q : Nat) (x : JobQueue) : (setJq f q x s).cram = s.cram := rfl
@[simp] theorem setJq_out (f q : Nat) (x : JobQueue) : (setJq f q x s).out = s.out := rfl
@[simp] theorem setJq_free (f q : Nat) (x : JobQueue) : (setJq f q x s).free = s.free := rfl
@[simp] theorem setJq_pending (f q : Nat) (x : JobQueue) : (setJq f q x s).pending = s.pending := rfl

/-! ## setCq -/

@[simp] theorem setCq_jobs (f c : Nat) (x : CompQueue) : (setCq f c x s).jobs = s.jobs := rfl
@[simp] theorem setCq_stamp (f c : Nat) (x : CompQueue) : (setCq f c x s).stamp = s.stamp := rfl
@[simp] theorem setCq_turnFn (f c : Nat) (x : CompQueue) : (setCq f c x s).turnFn = s.turnFn := rfl
@[simp] theorem setCq_turnU (f c : Nat) (x : CompQueue) : (setCq f c x s).turnU = s.turnU := rfl
@[simp] theorem setCq_turnA (f c : Nat) (x : CompQueue) : (setCq f c x s).turnA = s.turnA := rfl
@[simp] theorem setCq_fab (f c : Nat) (x : CompQueue) : (setCq f c x s).fab = s.fab := rfl
@[simp] theorem setCq_store (f c : Nat) (x : CompQueue) : (setCq f c x s).store = s.store := rfl
@[simp] theorem setCq_life (f c : Nat) (x : CompQueue) : (setCq f c x s).life = s.life := rfl
@[simp] theorem setCq_clock (f c : Nat) (x : CompQueue) : (setCq f c x s).clock = s.clock := rfl
@[simp] theorem setCq_evr (f c : Nat) (x : CompQueue) : (setCq f c x s).evr = s.evr := rfl
@[simp] theorem setCq_regs (f c : Nat) (x : CompQueue) : (setCq f c x s).regs = s.regs := rfl
@[simp] theorem setCq_dict (f c : Nat) (x : CompQueue) : (setCq f c x s).dict = s.dict := rfl
@[simp] theorem setCq_mgmt (f c : Nat) (x : CompQueue) : (setCq f c x s).mgmt = s.mgmt := rfl
@[simp] theorem setCq_link (f c : Nat) (x : CompQueue) : (setCq f c x s).link = s.link := rfl
@[simp] theorem setCq_boot (f c : Nat) (x : CompQueue) : (setCq f c x s).boot = s.boot := rfl
@[simp] theorem setCq_red (f c : Nat) (x : CompQueue) : (setCq f c x s).red = s.red := rfl
@[simp] theorem setCq_custody (f c : Nat) (x : CompQueue) : (setCq f c x s).custody = s.custody := rfl
@[simp] theorem setCq_rng (f c : Nat) (x : CompQueue) : (setCq f c x s).rng = s.rng := rfl
@[simp] theorem setCq_pk (f c : Nat) (x : CompQueue) : (setCq f c x s).pk = s.pk := rfl
@[simp] theorem setCq_worlds (f c : Nat) (x : CompQueue) : (setCq f c x s).worlds = s.worlds := rfl
@[simp] theorem setCq_vesper (f c : Nat) (x : CompQueue) : (setCq f c x s).vesper = s.vesper := rfl
@[simp] theorem setCq_mem (f c : Nat) (x : CompQueue) : (setCq f c x s).mem = s.mem := rfl
@[simp] theorem setCq_cram (f c : Nat) (x : CompQueue) : (setCq f c x s).cram = s.cram := rfl
@[simp] theorem setCq_out (f c : Nat) (x : CompQueue) : (setCq f c x s).out = s.out := rfl
@[simp] theorem setCq_free (f c : Nat) (x : CompQueue) : (setCq f c x s).free = s.free := rfl
@[simp] theorem setCq_pending (f c : Nat) (x : CompQueue) : (setCq f c x s).pending = s.pending := rfl

/-! ## modJob -/

@[simp] theorem modJob_fns (r : JobRef) (h : Job → Job) : (modJob r h s).fns = s.fns := rfl
@[simp] theorem modJob_stamp (r : JobRef) (h : Job → Job) : (modJob r h s).stamp = s.stamp := rfl
@[simp] theorem modJob_turnFn (r : JobRef) (h : Job → Job) : (modJob r h s).turnFn = s.turnFn := rfl
@[simp] theorem modJob_turnU (r : JobRef) (h : Job → Job) : (modJob r h s).turnU = s.turnU := rfl
@[simp] theorem modJob_turnA (r : JobRef) (h : Job → Job) : (modJob r h s).turnA = s.turnA := rfl
@[simp] theorem modJob_fab (r : JobRef) (h : Job → Job) : (modJob r h s).fab = s.fab := rfl
@[simp] theorem modJob_store (r : JobRef) (h : Job → Job) : (modJob r h s).store = s.store := rfl
@[simp] theorem modJob_life (r : JobRef) (h : Job → Job) : (modJob r h s).life = s.life := rfl
@[simp] theorem modJob_clock (r : JobRef) (h : Job → Job) : (modJob r h s).clock = s.clock := rfl
@[simp] theorem modJob_evr (r : JobRef) (h : Job → Job) : (modJob r h s).evr = s.evr := rfl
@[simp] theorem modJob_regs (r : JobRef) (h : Job → Job) : (modJob r h s).regs = s.regs := rfl
@[simp] theorem modJob_dict (r : JobRef) (h : Job → Job) : (modJob r h s).dict = s.dict := rfl
@[simp] theorem modJob_mgmt (r : JobRef) (h : Job → Job) : (modJob r h s).mgmt = s.mgmt := rfl
@[simp] theorem modJob_link (r : JobRef) (h : Job → Job) : (modJob r h s).link = s.link := rfl
@[simp] theorem modJob_boot (r : JobRef) (h : Job → Job) : (modJob r h s).boot = s.boot := rfl
@[simp] theorem modJob_red (r : JobRef) (h : Job → Job) : (modJob r h s).red = s.red := rfl
@[simp] theorem modJob_custody (r : JobRef) (h : Job → Job) : (modJob r h s).custody = s.custody := rfl
@[simp] theorem modJob_rng (r : JobRef) (h : Job → Job) : (modJob r h s).rng = s.rng := rfl
@[simp] theorem modJob_pk (r : JobRef) (h : Job → Job) : (modJob r h s).pk = s.pk := rfl
@[simp] theorem modJob_worlds (r : JobRef) (h : Job → Job) : (modJob r h s).worlds = s.worlds := rfl
@[simp] theorem modJob_vesper (r : JobRef) (h : Job → Job) : (modJob r h s).vesper = s.vesper := rfl
@[simp] theorem modJob_mem (r : JobRef) (h : Job → Job) : (modJob r h s).mem = s.mem := rfl
@[simp] theorem modJob_cram (r : JobRef) (h : Job → Job) : (modJob r h s).cram = s.cram := rfl
@[simp] theorem modJob_out (r : JobRef) (h : Job → Job) : (modJob r h s).out = s.out := rfl
@[simp] theorem modJob_free (r : JobRef) (h : Job → Job) : (modJob r h s).free = s.free := rfl
@[simp] theorem modJob_pending (r : JobRef) (h : Job → Job) : (modJob r h s).pending = s.pending := rfl

/-! ## decideJob -/

@[simp] theorem decideJob_fns (r : JobRef) (d : Done) : (decideJob r d s).fns = s.fns := rfl
@[simp] theorem decideJob_stamp (r : JobRef) (d : Done) : (decideJob r d s).stamp = s.stamp := rfl
@[simp] theorem decideJob_turnFn (r : JobRef) (d : Done) : (decideJob r d s).turnFn = s.turnFn := rfl
@[simp] theorem decideJob_turnU (r : JobRef) (d : Done) : (decideJob r d s).turnU = s.turnU := rfl
@[simp] theorem decideJob_turnA (r : JobRef) (d : Done) : (decideJob r d s).turnA = s.turnA := rfl
@[simp] theorem decideJob_fab (r : JobRef) (d : Done) : (decideJob r d s).fab = s.fab := rfl
@[simp] theorem decideJob_store (r : JobRef) (d : Done) : (decideJob r d s).store = s.store := rfl
@[simp] theorem decideJob_life (r : JobRef) (d : Done) : (decideJob r d s).life = s.life := rfl
@[simp] theorem decideJob_clock (r : JobRef) (d : Done) : (decideJob r d s).clock = s.clock := rfl
@[simp] theorem decideJob_evr (r : JobRef) (d : Done) : (decideJob r d s).evr = s.evr := rfl
@[simp] theorem decideJob_regs (r : JobRef) (d : Done) : (decideJob r d s).regs = s.regs := rfl
@[simp] theorem decideJob_dict (r : JobRef) (d : Done) : (decideJob r d s).dict = s.dict := rfl
@[simp] theorem decideJob_mgmt (r : JobRef) (d : Done) : (decideJob r d s).mgmt = s.mgmt := rfl
@[simp] theorem decideJob_link (r : JobRef) (d : Done) : (decideJob r d s).link = s.link := rfl
@[simp] theorem decideJob_boot (r : JobRef) (d : Done) : (decideJob r d s).boot = s.boot := rfl
@[simp] theorem decideJob_red (r : JobRef) (d : Done) : (decideJob r d s).red = s.red := rfl
@[simp] theorem decideJob_custody (r : JobRef) (d : Done) : (decideJob r d s).custody = s.custody := rfl
@[simp] theorem decideJob_rng (r : JobRef) (d : Done) : (decideJob r d s).rng = s.rng := rfl
@[simp] theorem decideJob_pk (r : JobRef) (d : Done) : (decideJob r d s).pk = s.pk := rfl
@[simp] theorem decideJob_worlds (r : JobRef) (d : Done) : (decideJob r d s).worlds = s.worlds := rfl
@[simp] theorem decideJob_vesper (r : JobRef) (d : Done) : (decideJob r d s).vesper = s.vesper := rfl
@[simp] theorem decideJob_mem (r : JobRef) (d : Done) : (decideJob r d s).mem = s.mem := rfl
@[simp] theorem decideJob_cram (r : JobRef) (d : Done) : (decideJob r d s).cram = s.cram := rfl
@[simp] theorem decideJob_out (r : JobRef) (d : Done) : (decideJob r d s).out = s.out := rfl
@[simp] theorem decideJob_free (r : JobRef) (d : Done) : (decideJob r d s).free = s.free := rfl
@[simp] theorem decideJob_pending (r : JobRef) (d : Done) : (decideJob r d s).pending = s.pending := rfl

/-! ## setSlot -/

@[simp] theorem setSlot_fns (n : Nat) (x : Slot) : (setSlot n x s).fns = s.fns := rfl
@[simp] theorem setSlot_jobs (n : Nat) (x : Slot) : (setSlot n x s).jobs = s.jobs := rfl
@[simp] theorem setSlot_stamp (n : Nat) (x : Slot) : (setSlot n x s).stamp = s.stamp := rfl
@[simp] theorem setSlot_turnFn (n : Nat) (x : Slot) : (setSlot n x s).turnFn = s.turnFn := rfl
@[simp] theorem setSlot_turnU (n : Nat) (x : Slot) : (setSlot n x s).turnU = s.turnU := rfl
@[simp] theorem setSlot_turnA (n : Nat) (x : Slot) : (setSlot n x s).turnA = s.turnA := rfl
@[simp] theorem setSlot_fab (n : Nat) (x : Slot) : (setSlot n x s).fab = s.fab := rfl
@[simp] theorem setSlot_life (n : Nat) (x : Slot) : (setSlot n x s).life = s.life := rfl
@[simp] theorem setSlot_clock (n : Nat) (x : Slot) : (setSlot n x s).clock = s.clock := rfl
@[simp] theorem setSlot_evr (n : Nat) (x : Slot) : (setSlot n x s).evr = s.evr := rfl
@[simp] theorem setSlot_regs (n : Nat) (x : Slot) : (setSlot n x s).regs = s.regs := rfl
@[simp] theorem setSlot_dict (n : Nat) (x : Slot) : (setSlot n x s).dict = s.dict := rfl
@[simp] theorem setSlot_mgmt (n : Nat) (x : Slot) : (setSlot n x s).mgmt = s.mgmt := rfl
@[simp] theorem setSlot_link (n : Nat) (x : Slot) : (setSlot n x s).link = s.link := rfl
@[simp] theorem setSlot_boot (n : Nat) (x : Slot) : (setSlot n x s).boot = s.boot := rfl
@[simp] theorem setSlot_red (n : Nat) (x : Slot) : (setSlot n x s).red = s.red := rfl
@[simp] theorem setSlot_custody (n : Nat) (x : Slot) : (setSlot n x s).custody = s.custody := rfl
@[simp] theorem setSlot_rng (n : Nat) (x : Slot) : (setSlot n x s).rng = s.rng := rfl
@[simp] theorem setSlot_pk (n : Nat) (x : Slot) : (setSlot n x s).pk = s.pk := rfl
@[simp] theorem setSlot_worlds (n : Nat) (x : Slot) : (setSlot n x s).worlds = s.worlds := rfl
@[simp] theorem setSlot_vesper (n : Nat) (x : Slot) : (setSlot n x s).vesper = s.vesper := rfl
@[simp] theorem setSlot_mem (n : Nat) (x : Slot) : (setSlot n x s).mem = s.mem := rfl
@[simp] theorem setSlot_cram (n : Nat) (x : Slot) : (setSlot n x s).cram = s.cram := rfl
@[simp] theorem setSlot_out (n : Nat) (x : Slot) : (setSlot n x s).out = s.out := rfl
@[simp] theorem setSlot_free (n : Nat) (x : Slot) : (setSlot n x s).free = s.free := rfl
@[simp] theorem setSlot_pending (n : Nat) (x : Slot) : (setSlot n x s).pending = s.pending := rfl

/-! ## modSlot -/

@[simp] theorem modSlot_fns (n : Nat) (h : Slot → Slot) : (modSlot n h s).fns = s.fns := rfl
@[simp] theorem modSlot_jobs (n : Nat) (h : Slot → Slot) : (modSlot n h s).jobs = s.jobs := rfl
@[simp] theorem modSlot_stamp (n : Nat) (h : Slot → Slot) : (modSlot n h s).stamp = s.stamp := rfl
@[simp] theorem modSlot_turnFn (n : Nat) (h : Slot → Slot) : (modSlot n h s).turnFn = s.turnFn := rfl
@[simp] theorem modSlot_turnU (n : Nat) (h : Slot → Slot) : (modSlot n h s).turnU = s.turnU := rfl
@[simp] theorem modSlot_turnA (n : Nat) (h : Slot → Slot) : (modSlot n h s).turnA = s.turnA := rfl
@[simp] theorem modSlot_fab (n : Nat) (h : Slot → Slot) : (modSlot n h s).fab = s.fab := rfl
@[simp] theorem modSlot_life (n : Nat) (h : Slot → Slot) : (modSlot n h s).life = s.life := rfl
@[simp] theorem modSlot_clock (n : Nat) (h : Slot → Slot) : (modSlot n h s).clock = s.clock := rfl
@[simp] theorem modSlot_evr (n : Nat) (h : Slot → Slot) : (modSlot n h s).evr = s.evr := rfl
@[simp] theorem modSlot_regs (n : Nat) (h : Slot → Slot) : (modSlot n h s).regs = s.regs := rfl
@[simp] theorem modSlot_dict (n : Nat) (h : Slot → Slot) : (modSlot n h s).dict = s.dict := rfl
@[simp] theorem modSlot_mgmt (n : Nat) (h : Slot → Slot) : (modSlot n h s).mgmt = s.mgmt := rfl
@[simp] theorem modSlot_link (n : Nat) (h : Slot → Slot) : (modSlot n h s).link = s.link := rfl
@[simp] theorem modSlot_boot (n : Nat) (h : Slot → Slot) : (modSlot n h s).boot = s.boot := rfl
@[simp] theorem modSlot_red (n : Nat) (h : Slot → Slot) : (modSlot n h s).red = s.red := rfl
@[simp] theorem modSlot_custody (n : Nat) (h : Slot → Slot) : (modSlot n h s).custody = s.custody := rfl
@[simp] theorem modSlot_rng (n : Nat) (h : Slot → Slot) : (modSlot n h s).rng = s.rng := rfl
@[simp] theorem modSlot_pk (n : Nat) (h : Slot → Slot) : (modSlot n h s).pk = s.pk := rfl
@[simp] theorem modSlot_worlds (n : Nat) (h : Slot → Slot) : (modSlot n h s).worlds = s.worlds := rfl
@[simp] theorem modSlot_vesper (n : Nat) (h : Slot → Slot) : (modSlot n h s).vesper = s.vesper := rfl
@[simp] theorem modSlot_mem (n : Nat) (h : Slot → Slot) : (modSlot n h s).mem = s.mem := rfl
@[simp] theorem modSlot_cram (n : Nat) (h : Slot → Slot) : (modSlot n h s).cram = s.cram := rfl
@[simp] theorem modSlot_out (n : Nat) (h : Slot → Slot) : (modSlot n h s).out = s.out := rfl
@[simp] theorem modSlot_free (n : Nat) (h : Slot → Slot) : (modSlot n h s).free = s.free := rfl
@[simp] theorem modSlot_pending (n : Nat) (h : Slot → Slot) : (modSlot n h s).pending = s.pending := rfl

/-! ## modVesper -/

@[simp] theorem modVesper_fns (h : Vesper → Vesper) : (modVesper h s).fns = s.fns := rfl
@[simp] theorem modVesper_jobs (h : Vesper → Vesper) : (modVesper h s).jobs = s.jobs := rfl
@[simp] theorem modVesper_stamp (h : Vesper → Vesper) : (modVesper h s).stamp = s.stamp := rfl
@[simp] theorem modVesper_turnFn (h : Vesper → Vesper) : (modVesper h s).turnFn = s.turnFn := rfl
@[simp] theorem modVesper_turnU (h : Vesper → Vesper) : (modVesper h s).turnU = s.turnU := rfl
@[simp] theorem modVesper_turnA (h : Vesper → Vesper) : (modVesper h s).turnA = s.turnA := rfl
@[simp] theorem modVesper_fab (h : Vesper → Vesper) : (modVesper h s).fab = s.fab := rfl
@[simp] theorem modVesper_store (h : Vesper → Vesper) : (modVesper h s).store = s.store := rfl
@[simp] theorem modVesper_life (h : Vesper → Vesper) : (modVesper h s).life = s.life := rfl
@[simp] theorem modVesper_clock (h : Vesper → Vesper) : (modVesper h s).clock = s.clock := rfl
@[simp] theorem modVesper_evr (h : Vesper → Vesper) : (modVesper h s).evr = s.evr := rfl
@[simp] theorem modVesper_regs (h : Vesper → Vesper) : (modVesper h s).regs = s.regs := rfl
@[simp] theorem modVesper_dict (h : Vesper → Vesper) : (modVesper h s).dict = s.dict := rfl
@[simp] theorem modVesper_mgmt (h : Vesper → Vesper) : (modVesper h s).mgmt = s.mgmt := rfl
@[simp] theorem modVesper_link (h : Vesper → Vesper) : (modVesper h s).link = s.link := rfl
@[simp] theorem modVesper_boot (h : Vesper → Vesper) : (modVesper h s).boot = s.boot := rfl
@[simp] theorem modVesper_red (h : Vesper → Vesper) : (modVesper h s).red = s.red := rfl
@[simp] theorem modVesper_custody (h : Vesper → Vesper) : (modVesper h s).custody = s.custody := rfl
@[simp] theorem modVesper_rng (h : Vesper → Vesper) : (modVesper h s).rng = s.rng := rfl
@[simp] theorem modVesper_pk (h : Vesper → Vesper) : (modVesper h s).pk = s.pk := rfl
@[simp] theorem modVesper_worlds (h : Vesper → Vesper) : (modVesper h s).worlds = s.worlds := rfl
@[simp] theorem modVesper_mem (h : Vesper → Vesper) : (modVesper h s).mem = s.mem := rfl
@[simp] theorem modVesper_cram (h : Vesper → Vesper) : (modVesper h s).cram = s.cram := rfl
@[simp] theorem modVesper_out (h : Vesper → Vesper) : (modVesper h s).out = s.out := rfl
@[simp] theorem modVesper_free (h : Vesper → Vesper) : (modVesper h s).free = s.free := rfl
@[simp] theorem modVesper_pending (h : Vesper → Vesper) : (modVesper h s).pending = s.pending := rfl

/-! ## modCell -/

@[simp] theorem modCell_fns (h : Cell → Cell) : (modCell h s).fns = s.fns := rfl
@[simp] theorem modCell_jobs (h : Cell → Cell) : (modCell h s).jobs = s.jobs := rfl
@[simp] theorem modCell_stamp (h : Cell → Cell) : (modCell h s).stamp = s.stamp := rfl
@[simp] theorem modCell_turnFn (h : Cell → Cell) : (modCell h s).turnFn = s.turnFn := rfl
@[simp] theorem modCell_turnU (h : Cell → Cell) : (modCell h s).turnU = s.turnU := rfl
@[simp] theorem modCell_turnA (h : Cell → Cell) : (modCell h s).turnA = s.turnA := rfl
@[simp] theorem modCell_fab (h : Cell → Cell) : (modCell h s).fab = s.fab := rfl
@[simp] theorem modCell_store (h : Cell → Cell) : (modCell h s).store = s.store := rfl
@[simp] theorem modCell_life (h : Cell → Cell) : (modCell h s).life = s.life := rfl
@[simp] theorem modCell_clock (h : Cell → Cell) : (modCell h s).clock = s.clock := rfl
@[simp] theorem modCell_evr (h : Cell → Cell) : (modCell h s).evr = s.evr := rfl
@[simp] theorem modCell_regs (h : Cell → Cell) : (modCell h s).regs = s.regs := rfl
@[simp] theorem modCell_dict (h : Cell → Cell) : (modCell h s).dict = s.dict := rfl
@[simp] theorem modCell_mgmt (h : Cell → Cell) : (modCell h s).mgmt = s.mgmt := rfl
@[simp] theorem modCell_link (h : Cell → Cell) : (modCell h s).link = s.link := rfl
@[simp] theorem modCell_boot (h : Cell → Cell) : (modCell h s).boot = s.boot := rfl
@[simp] theorem modCell_red (h : Cell → Cell) : (modCell h s).red = s.red := rfl
@[simp] theorem modCell_custody (h : Cell → Cell) : (modCell h s).custody = s.custody := rfl
@[simp] theorem modCell_rng (h : Cell → Cell) : (modCell h s).rng = s.rng := rfl
@[simp] theorem modCell_pk (h : Cell → Cell) : (modCell h s).pk = s.pk := rfl
@[simp] theorem modCell_worlds (h : Cell → Cell) : (modCell h s).worlds = s.worlds := rfl
@[simp] theorem modCell_mem (h : Cell → Cell) : (modCell h s).mem = s.mem := rfl
@[simp] theorem modCell_cram (h : Cell → Cell) : (modCell h s).cram = s.cram := rfl
@[simp] theorem modCell_out (h : Cell → Cell) : (modCell h s).out = s.out := rfl
@[simp] theorem modCell_free (h : Cell → Cell) : (modCell h s).free = s.free := rfl
@[simp] theorem modCell_pending (h : Cell → Cell) : (modCell h s).pending = s.pending := rfl

/-! ## modPair -/

@[simp] theorem modPair_fns (p : Nat) (h : Pair → Pair) : (modPair p h s).fns = s.fns := rfl
@[simp] theorem modPair_jobs (p : Nat) (h : Pair → Pair) : (modPair p h s).jobs = s.jobs := rfl
@[simp] theorem modPair_stamp (p : Nat) (h : Pair → Pair) : (modPair p h s).stamp = s.stamp := rfl
@[simp] theorem modPair_turnFn (p : Nat) (h : Pair → Pair) : (modPair p h s).turnFn = s.turnFn := rfl
@[simp] theorem modPair_turnU (p : Nat) (h : Pair → Pair) : (modPair p h s).turnU = s.turnU := rfl
@[simp] theorem modPair_turnA (p : Nat) (h : Pair → Pair) : (modPair p h s).turnA = s.turnA := rfl
@[simp] theorem modPair_store (p : Nat) (h : Pair → Pair) : (modPair p h s).store = s.store := rfl
@[simp] theorem modPair_life (p : Nat) (h : Pair → Pair) : (modPair p h s).life = s.life := rfl
@[simp] theorem modPair_clock (p : Nat) (h : Pair → Pair) : (modPair p h s).clock = s.clock := rfl
@[simp] theorem modPair_evr (p : Nat) (h : Pair → Pair) : (modPair p h s).evr = s.evr := rfl
@[simp] theorem modPair_regs (p : Nat) (h : Pair → Pair) : (modPair p h s).regs = s.regs := rfl
@[simp] theorem modPair_dict (p : Nat) (h : Pair → Pair) : (modPair p h s).dict = s.dict := rfl
@[simp] theorem modPair_mgmt (p : Nat) (h : Pair → Pair) : (modPair p h s).mgmt = s.mgmt := rfl
@[simp] theorem modPair_link (p : Nat) (h : Pair → Pair) : (modPair p h s).link = s.link := rfl
@[simp] theorem modPair_boot (p : Nat) (h : Pair → Pair) : (modPair p h s).boot = s.boot := rfl
@[simp] theorem modPair_red (p : Nat) (h : Pair → Pair) : (modPair p h s).red = s.red := rfl
@[simp] theorem modPair_custody (p : Nat) (h : Pair → Pair) : (modPair p h s).custody = s.custody := rfl
@[simp] theorem modPair_rng (p : Nat) (h : Pair → Pair) : (modPair p h s).rng = s.rng := rfl
@[simp] theorem modPair_pk (p : Nat) (h : Pair → Pair) : (modPair p h s).pk = s.pk := rfl
@[simp] theorem modPair_worlds (p : Nat) (h : Pair → Pair) : (modPair p h s).worlds = s.worlds := rfl
@[simp] theorem modPair_vesper (p : Nat) (h : Pair → Pair) : (modPair p h s).vesper = s.vesper := rfl
@[simp] theorem modPair_mem (p : Nat) (h : Pair → Pair) : (modPair p h s).mem = s.mem := rfl
@[simp] theorem modPair_cram (p : Nat) (h : Pair → Pair) : (modPair p h s).cram = s.cram := rfl
@[simp] theorem modPair_out (p : Nat) (h : Pair → Pair) : (modPair p h s).out = s.out := rfl
@[simp] theorem modPair_free (p : Nat) (h : Pair → Pair) : (modPair p h s).free = s.free := rfl
@[simp] theorem modPair_pending (p : Nat) (h : Pair → Pair) : (modPair p h s).pending = s.pending := rfl

/-! ## modCore -/

@[simp] theorem modCore_fns (c : Nat) (h : PkCore → PkCore) : (modCore c h s).fns = s.fns := rfl
@[simp] theorem modCore_jobs (c : Nat) (h : PkCore → PkCore) : (modCore c h s).jobs = s.jobs := rfl
@[simp] theorem modCore_stamp (c : Nat) (h : PkCore → PkCore) : (modCore c h s).stamp = s.stamp := rfl
@[simp] theorem modCore_turnFn (c : Nat) (h : PkCore → PkCore) : (modCore c h s).turnFn = s.turnFn := rfl
@[simp] theorem modCore_turnU (c : Nat) (h : PkCore → PkCore) : (modCore c h s).turnU = s.turnU := rfl
@[simp] theorem modCore_turnA (c : Nat) (h : PkCore → PkCore) : (modCore c h s).turnA = s.turnA := rfl
@[simp] theorem modCore_fab (c : Nat) (h : PkCore → PkCore) : (modCore c h s).fab = s.fab := rfl
@[simp] theorem modCore_store (c : Nat) (h : PkCore → PkCore) : (modCore c h s).store = s.store := rfl
@[simp] theorem modCore_life (c : Nat) (h : PkCore → PkCore) : (modCore c h s).life = s.life := rfl
@[simp] theorem modCore_clock (c : Nat) (h : PkCore → PkCore) : (modCore c h s).clock = s.clock := rfl
@[simp] theorem modCore_evr (c : Nat) (h : PkCore → PkCore) : (modCore c h s).evr = s.evr := rfl
@[simp] theorem modCore_regs (c : Nat) (h : PkCore → PkCore) : (modCore c h s).regs = s.regs := rfl
@[simp] theorem modCore_dict (c : Nat) (h : PkCore → PkCore) : (modCore c h s).dict = s.dict := rfl
@[simp] theorem modCore_mgmt (c : Nat) (h : PkCore → PkCore) : (modCore c h s).mgmt = s.mgmt := rfl
@[simp] theorem modCore_link (c : Nat) (h : PkCore → PkCore) : (modCore c h s).link = s.link := rfl
@[simp] theorem modCore_boot (c : Nat) (h : PkCore → PkCore) : (modCore c h s).boot = s.boot := rfl
@[simp] theorem modCore_red (c : Nat) (h : PkCore → PkCore) : (modCore c h s).red = s.red := rfl
@[simp] theorem modCore_custody (c : Nat) (h : PkCore → PkCore) : (modCore c h s).custody = s.custody := rfl
@[simp] theorem modCore_rng (c : Nat) (h : PkCore → PkCore) : (modCore c h s).rng = s.rng := rfl
@[simp] theorem modCore_worlds (c : Nat) (h : PkCore → PkCore) : (modCore c h s).worlds = s.worlds := rfl
@[simp] theorem modCore_vesper (c : Nat) (h : PkCore → PkCore) : (modCore c h s).vesper = s.vesper := rfl
@[simp] theorem modCore_mem (c : Nat) (h : PkCore → PkCore) : (modCore c h s).mem = s.mem := rfl
@[simp] theorem modCore_cram (c : Nat) (h : PkCore → PkCore) : (modCore c h s).cram = s.cram := rfl
@[simp] theorem modCore_out (c : Nat) (h : PkCore → PkCore) : (modCore c h s).out = s.out := rfl
@[simp] theorem modCore_free (c : Nat) (h : PkCore → PkCore) : (modCore c h s).free = s.free := rfl
@[simp] theorem modCore_pending (c : Nat) (h : PkCore → PkCore) : (modCore c h s).pending = s.pending := rfl

/-! ## bump -/

@[simp] theorem bump_fns (n : Nat) : (bump n s).fns = s.fns := rfl
@[simp] theorem bump_jobs (n : Nat) : (bump n s).jobs = s.jobs := rfl
@[simp] theorem bump_stamp (n : Nat) : (bump n s).stamp = s.stamp := rfl
@[simp] theorem bump_turnFn (n : Nat) : (bump n s).turnFn = s.turnFn := rfl
@[simp] theorem bump_turnU (n : Nat) : (bump n s).turnU = s.turnU := rfl
@[simp] theorem bump_turnA (n : Nat) : (bump n s).turnA = s.turnA := rfl
@[simp] theorem bump_fab (n : Nat) : (bump n s).fab = s.fab := rfl
@[simp] theorem bump_store (n : Nat) : (bump n s).store = s.store := rfl
@[simp] theorem bump_life (n : Nat) : (bump n s).life = s.life := rfl
@[simp] theorem bump_clock (n : Nat) : (bump n s).clock = s.clock := rfl
@[simp] theorem bump_evr (n : Nat) : (bump n s).evr = s.evr := rfl
@[simp] theorem bump_regs (n : Nat) : (bump n s).regs = s.regs := rfl
@[simp] theorem bump_mgmt (n : Nat) : (bump n s).mgmt = s.mgmt := rfl
@[simp] theorem bump_link (n : Nat) : (bump n s).link = s.link := rfl
@[simp] theorem bump_boot (n : Nat) : (bump n s).boot = s.boot := rfl
@[simp] theorem bump_red (n : Nat) : (bump n s).red = s.red := rfl
@[simp] theorem bump_custody (n : Nat) : (bump n s).custody = s.custody := rfl
@[simp] theorem bump_rng (n : Nat) : (bump n s).rng = s.rng := rfl
@[simp] theorem bump_pk (n : Nat) : (bump n s).pk = s.pk := rfl
@[simp] theorem bump_worlds (n : Nat) : (bump n s).worlds = s.worlds := rfl
@[simp] theorem bump_vesper (n : Nat) : (bump n s).vesper = s.vesper := rfl
@[simp] theorem bump_mem (n : Nat) : (bump n s).mem = s.mem := rfl
@[simp] theorem bump_cram (n : Nat) : (bump n s).cram = s.cram := rfl
@[simp] theorem bump_out (n : Nat) : (bump n s).out = s.out := rfl
@[simp] theorem bump_free (n : Nat) : (bump n s).free = s.free := rfl
@[simp] theorem bump_pending (n : Nat) : (bump n s).pending = s.pending := rfl

/-! ## emit -/

@[simp] theorem emit_fns (m : OutMsg) : (emit m s).fns = s.fns := rfl
@[simp] theorem emit_jobs (m : OutMsg) : (emit m s).jobs = s.jobs := rfl
@[simp] theorem emit_stamp (m : OutMsg) : (emit m s).stamp = s.stamp := rfl
@[simp] theorem emit_turnFn (m : OutMsg) : (emit m s).turnFn = s.turnFn := rfl
@[simp] theorem emit_turnU (m : OutMsg) : (emit m s).turnU = s.turnU := rfl
@[simp] theorem emit_turnA (m : OutMsg) : (emit m s).turnA = s.turnA := rfl
@[simp] theorem emit_fab (m : OutMsg) : (emit m s).fab = s.fab := rfl
@[simp] theorem emit_store (m : OutMsg) : (emit m s).store = s.store := rfl
@[simp] theorem emit_life (m : OutMsg) : (emit m s).life = s.life := rfl
@[simp] theorem emit_clock (m : OutMsg) : (emit m s).clock = s.clock := rfl
@[simp] theorem emit_evr (m : OutMsg) : (emit m s).evr = s.evr := rfl
@[simp] theorem emit_regs (m : OutMsg) : (emit m s).regs = s.regs := rfl
@[simp] theorem emit_dict (m : OutMsg) : (emit m s).dict = s.dict := rfl
@[simp] theorem emit_mgmt (m : OutMsg) : (emit m s).mgmt = s.mgmt := rfl
@[simp] theorem emit_link (m : OutMsg) : (emit m s).link = s.link := rfl
@[simp] theorem emit_boot (m : OutMsg) : (emit m s).boot = s.boot := rfl
@[simp] theorem emit_red (m : OutMsg) : (emit m s).red = s.red := rfl
@[simp] theorem emit_custody (m : OutMsg) : (emit m s).custody = s.custody := rfl
@[simp] theorem emit_rng (m : OutMsg) : (emit m s).rng = s.rng := rfl
@[simp] theorem emit_pk (m : OutMsg) : (emit m s).pk = s.pk := rfl
@[simp] theorem emit_worlds (m : OutMsg) : (emit m s).worlds = s.worlds := rfl
@[simp] theorem emit_vesper (m : OutMsg) : (emit m s).vesper = s.vesper := rfl
@[simp] theorem emit_mem (m : OutMsg) : (emit m s).mem = s.mem := rfl
@[simp] theorem emit_cram (m : OutMsg) : (emit m s).cram = s.cram := rfl
@[simp] theorem emit_free (m : OutMsg) : (emit m s).free = s.free := rfl
@[simp] theorem emit_pending (m : OutMsg) : (emit m s).pending = s.pending := rfl

/-! ## drewFree -/

@[simp] theorem drewFree_fns : (drewFree s).fns = s.fns := rfl
@[simp] theorem drewFree_jobs : (drewFree s).jobs = s.jobs := rfl
@[simp] theorem drewFree_stamp : (drewFree s).stamp = s.stamp := rfl
@[simp] theorem drewFree_turnFn : (drewFree s).turnFn = s.turnFn := rfl
@[simp] theorem drewFree_turnU : (drewFree s).turnU = s.turnU := rfl
@[simp] theorem drewFree_turnA : (drewFree s).turnA = s.turnA := rfl
@[simp] theorem drewFree_fab : (drewFree s).fab = s.fab := rfl
@[simp] theorem drewFree_store : (drewFree s).store = s.store := rfl
@[simp] theorem drewFree_life : (drewFree s).life = s.life := rfl
@[simp] theorem drewFree_clock : (drewFree s).clock = s.clock := rfl
@[simp] theorem drewFree_evr : (drewFree s).evr = s.evr := rfl
@[simp] theorem drewFree_regs : (drewFree s).regs = s.regs := rfl
@[simp] theorem drewFree_dict : (drewFree s).dict = s.dict := rfl
@[simp] theorem drewFree_mgmt : (drewFree s).mgmt = s.mgmt := rfl
@[simp] theorem drewFree_link : (drewFree s).link = s.link := rfl
@[simp] theorem drewFree_boot : (drewFree s).boot = s.boot := rfl
@[simp] theorem drewFree_red : (drewFree s).red = s.red := rfl
@[simp] theorem drewFree_custody : (drewFree s).custody = s.custody := rfl
@[simp] theorem drewFree_rng : (drewFree s).rng = s.rng := rfl
@[simp] theorem drewFree_pk : (drewFree s).pk = s.pk := rfl
@[simp] theorem drewFree_worlds : (drewFree s).worlds = s.worlds := rfl
@[simp] theorem drewFree_vesper : (drewFree s).vesper = s.vesper := rfl
@[simp] theorem drewFree_mem : (drewFree s).mem = s.mem := rfl
@[simp] theorem drewFree_cram : (drewFree s).cram = s.cram := rfl
@[simp] theorem drewFree_out : (drewFree s).out = s.out := rfl
@[simp] theorem drewFree_pending : (drewFree s).pending = s.pending := rfl

/-! ## toStage -/

@[simp] theorem toStage_fns (n : Nat) : (toStage n s).fns = s.fns := rfl
@[simp] theorem toStage_jobs (n : Nat) : (toStage n s).jobs = s.jobs := rfl
@[simp] theorem toStage_stamp (n : Nat) : (toStage n s).stamp = s.stamp := rfl
@[simp] theorem toStage_turnFn (n : Nat) : (toStage n s).turnFn = s.turnFn := rfl
@[simp] theorem toStage_turnU (n : Nat) : (toStage n s).turnU = s.turnU := rfl
@[simp] theorem toStage_turnA (n : Nat) : (toStage n s).turnA = s.turnA := rfl
@[simp] theorem toStage_fab (n : Nat) : (toStage n s).fab = s.fab := rfl
@[simp] theorem toStage_store (n : Nat) : (toStage n s).store = s.store := rfl
@[simp] theorem toStage_life (n : Nat) : (toStage n s).life = s.life := rfl
@[simp] theorem toStage_clock (n : Nat) : (toStage n s).clock = s.clock := rfl
@[simp] theorem toStage_evr (n : Nat) : (toStage n s).evr = s.evr := rfl
@[simp] theorem toStage_regs (n : Nat) : (toStage n s).regs = s.regs := rfl
@[simp] theorem toStage_dict (n : Nat) : (toStage n s).dict = s.dict := rfl
@[simp] theorem toStage_mgmt (n : Nat) : (toStage n s).mgmt = s.mgmt := rfl
@[simp] theorem toStage_link (n : Nat) : (toStage n s).link = s.link := rfl
@[simp] theorem toStage_red (n : Nat) : (toStage n s).red = s.red := rfl
@[simp] theorem toStage_custody (n : Nat) : (toStage n s).custody = s.custody := rfl
@[simp] theorem toStage_rng (n : Nat) : (toStage n s).rng = s.rng := rfl
@[simp] theorem toStage_pk (n : Nat) : (toStage n s).pk = s.pk := rfl
@[simp] theorem toStage_worlds (n : Nat) : (toStage n s).worlds = s.worlds := rfl
@[simp] theorem toStage_vesper (n : Nat) : (toStage n s).vesper = s.vesper := rfl
@[simp] theorem toStage_mem (n : Nat) : (toStage n s).mem = s.mem := rfl
@[simp] theorem toStage_cram (n : Nat) : (toStage n s).cram = s.cram := rfl
@[simp] theorem toStage_out (n : Nat) : (toStage n s).out = s.out := rfl
@[simp] theorem toStage_free (n : Nat) : (toStage n s).free = s.free := rfl
@[simp] theorem toStage_pending (n : Nat) : (toStage n s).pending = s.pending := rfl

/-! ## clearLatches -/

@[simp] theorem clearLatches_fns : (clearLatches s).fns = s.fns := rfl
@[simp] theorem clearLatches_jobs : (clearLatches s).jobs = s.jobs := rfl
@[simp] theorem clearLatches_stamp : (clearLatches s).stamp = s.stamp := rfl
@[simp] theorem clearLatches_turnFn : (clearLatches s).turnFn = s.turnFn := rfl
@[simp] theorem clearLatches_turnU : (clearLatches s).turnU = s.turnU := rfl
@[simp] theorem clearLatches_turnA : (clearLatches s).turnA = s.turnA := rfl
@[simp] theorem clearLatches_fab : (clearLatches s).fab = s.fab := rfl
@[simp] theorem clearLatches_store : (clearLatches s).store = s.store := rfl
@[simp] theorem clearLatches_life : (clearLatches s).life = s.life := rfl
@[simp] theorem clearLatches_clock : (clearLatches s).clock = s.clock := rfl
@[simp] theorem clearLatches_evr : (clearLatches s).evr = s.evr := rfl
@[simp] theorem clearLatches_regs : (clearLatches s).regs = s.regs := rfl
@[simp] theorem clearLatches_dict : (clearLatches s).dict = s.dict := rfl
@[simp] theorem clearLatches_mgmt : (clearLatches s).mgmt = s.mgmt := rfl
@[simp] theorem clearLatches_link : (clearLatches s).link = s.link := rfl
@[simp] theorem clearLatches_boot : (clearLatches s).boot = s.boot := rfl
@[simp] theorem clearLatches_red : (clearLatches s).red = s.red := rfl
@[simp] theorem clearLatches_custody : (clearLatches s).custody = s.custody := rfl
@[simp] theorem clearLatches_rng : (clearLatches s).rng = s.rng := rfl
@[simp] theorem clearLatches_pk : (clearLatches s).pk = s.pk := rfl
@[simp] theorem clearLatches_worlds : (clearLatches s).worlds = s.worlds := rfl
@[simp] theorem clearLatches_mem : (clearLatches s).mem = s.mem := rfl
@[simp] theorem clearLatches_cram : (clearLatches s).cram = s.cram := rfl
@[simp] theorem clearLatches_out : (clearLatches s).out = s.out := rfl
@[simp] theorem clearLatches_free : (clearLatches s).free = s.free := rfl
@[simp] theorem clearLatches_pending : (clearLatches s).pending = s.pending := rfl

/-! ## What they write -/

theorem fn_setFn (f k : Nat) (g : Fn) : (setFn f g s).fn k = if k = f then g else s.fn k := by
  unfold State.fn setFn; exact FMap.getD_set _ _ _ _ _

@[simp] theorem fn_setFn_self (f : Nat) (g : Fn) : (setFn f g s).fn f = g := by simp [fn_setFn]

theorem fn_setFn_ne {f k : Nat} (g : Fn) (h : k ≠ f) : (setFn f g s).fn k = s.fn k := by simp [fn_setFn, h]

theorem fn_modFn (f k : Nat) (h : Fn → Fn) : (modFn f h s).fn k = if k = f then h (s.fn f) else s.fn k := by
  unfold modFn; exact fn_setFn _ _ _ _

@[simp] theorem fn_modFn_self (f : Nat) (h : Fn → Fn) : (modFn f h s).fn f = h (s.fn f) := by simp [fn_modFn]

theorem fn_modFn_ne {f k : Nat} (h : Fn → Fn) (e : k ≠ f) : (modFn f h s).fn k = s.fn k := by simp [fn_modFn, e]

@[simp] theorem jq_setJq_self (f q : Nat) (x : JobQueue) : (setJq f q x s).jq? f q = some x := by
  unfold State.jq? setJq; simp

theorem jq_setJq_ne {f q k j : Nat} (x : JobQueue) (h : k ≠ f ∨ j ≠ q) : (setJq f q x s).jq? k j = s.jq? k j := by
  unfold State.jq? setJq
  rw [fn_modFn]
  split
  · next e => subst e; exact FMap.find?_set_ne _ _ (by omega)
  · rfl

@[simp] theorem cq_setCq_self (f c : Nat) (x : CompQueue) : (setCq f c x s).cq? f c = some x := by
  unfold State.cq? setCq; simp

theorem cq_setCq_ne {f c k j : Nat} (x : CompQueue) (h : k ≠ f ∨ j ≠ c) : (setCq f c x s).cq? k j = s.cq? k j := by
  unfold State.cq? setCq
  rw [fn_modFn]
  split
  · next e => subst e; exact FMap.find?_set_ne _ _ (by omega)
  · rfl

theorem slot_setSlot (n k : Nat) (x : Slot) : (setSlot n x s).slot k = if k = n then x else s.slot k := by
  unfold State.slot setSlot; exact FMap.getD_set _ _ _ _ _

@[simp] theorem slot_setSlot_self (n : Nat) (x : Slot) : (setSlot n x s).slot n = x := by simp [slot_setSlot]

theorem slot_modSlot (n k : Nat) (h : Slot → Slot) : (modSlot n h s).slot k = if k = n then h (s.slot n) else s.slot k := by
  unfold modSlot; exact slot_setSlot _ _ _ _

@[simp] theorem slot_modSlot_self (n : Nat) (h : Slot → Slot) : (modSlot n h s).slot n = h (s.slot n) := by simp [slot_modSlot]

theorem slot_modSlot_ne {n k : Nat} (h : Slot → Slot) (e : k ≠ n) : (modSlot n h s).slot k = s.slot k := by
  simp [slot_modSlot, e]

/-- A job after a change of one job that keeps names. -/
theorem job_modJob (r k : JobRef) (h : Job → Job) (hk : ∀ j, (h j).ref = j.ref) :
    (modJob r h s).job? k = (s.job? k).map fun j => if k = r then h j else j := by
  unfold State.job? modJob
  simp only
  induction s.jobs with
  | nil => rfl
  | cons j l ih =>
    simp only [List.map_cons, List.find?_cons]
    by_cases hj : j.ref = r
    · simp only [hj, if_true]
      rw [hk j, hj]
      by_cases hr : r = k
      · simp [hr]
      · simp [hr, ih]
    · simp only [hj, if_false]
      by_cases hr : j.ref = k
      · have : k ≠ r := fun e => hj (hr.trans e)
        simp [hr, this]
      · simp [hr, ih]

@[simp] theorem job_decideJob_self (r : JobRef) (d : Done) :
    (decideJob r d s).job? r = (s.job? r).map fun j => { j with outcome := some d } := by
  have := job_modJob s r r (fun j => { j with outcome := some d }) (fun _ => rfl)
  simpa [decideJob] using this

theorem job_decideJob_ne {r k : JobRef} (d : Done) (h : k ≠ r) : (decideJob r d s).job? k = s.job? k := by
  have := job_modJob s r k (fun j => { j with outcome := some d }) (fun _ => rfl)
  simpa [decideJob, h] using this

@[simp] theorem vesper_modVesper (h : Vesper → Vesper) : (modVesper h s).vesper = h s.vesper := rfl
@[simp] theorem out_emit (m : OutMsg) : (emit m s).out = m :: s.out := rfl
@[simp] theorem free_drewFree : (drewFree s).free = s.free + 1 := rfl
@[simp] theorem phase_toStage (n : Nat) : (toStage n s).boot.phase = .stage n := rfl

end Sys2Proof.Machine
end

