-- ==== Sys2Proof/Laws/Memory.lean ====
section
/-!
SUPPORT. Every operation over host memory and control RAM keeps the canonical form, and what a write to either leaves.
-/

namespace Sys2Proof.Machine

open Sys2Proof.Safety

theorem mergeWord_wf (l : DirtyLog) (acc : List Host.Cell × Nat) (w : Nat × Nat) (h : Memory.wf acc.1 = true) :
    Memory.wf (mergeWord l acc w).1 = true := by
  unfold mergeWord
  split
  · exact h
  · exact Memory.wf_putAll _ _ _ h

theorem mergeWords_wf (l : DirtyLog) (ws : List (Nat × Nat)) (acc : List Host.Cell × Nat) (h : Memory.wf acc.1 = true) :
    Memory.wf (ws.foldl (mergeWord l) acc).1 = true := by
  induction ws generalizing acc with
  | nil => exact h
  | cons w ws ih => exact ih _ (mergeWord_wf l acc w h)

theorem mergeDirty_wf (f : Nat) (s : State) (h : Memory.wf s.mem = true) : Memory.wf (mergeDirty f s).mem = true := by
  unfold mergeDirty
  split
  · exact h
  · exact mergeWords_wf _ _ _ h

@[simp] theorem mergeDirty_cram (f : Nat) (s : State) : (mergeDirty f s).cram = s.cram := by
  unfold mergeDirty
  split <;> rfl

theorem logWrite_wf (f a n : Nat) (s : State) (h : Memory.wf s.mem = true) : Memory.wf (logWrite f a n s).mem = true := by
  unfold logWrite
  split
  · exact h
  · split
    · exact h
    · simp only
      split
      · exact mergeDirty_wf _ _ h
      · exact h

@[simp] theorem logWrite_cram (f a n : Nat) (s : State) : (logWrite f a n s).cram = s.cram := by
  unfold logWrite
  split
  · rfl
  · split
    · rfl
    · simp only
      split
      · exact mergeDirty_cram _ _
      · rfl

/-- A posted write keeps both memories in canonical form. -/
theorem hostWrite_tidy (f a : Nat) (b : Bytes) (s : State) (h : Tidy s) : Tidy (hostWrite f a b s) :=
  ⟨logWrite_wf _ _ _ _ (Memory.wf_putAll _ _ _ h.1), by rw [hostWrite, logWrite_cram]; exact h.2⟩

/-- A write to control RAM keeps both. -/
theorem ramWrite_tidy (a : Nat) (b : Bytes) (s : State) (h : Tidy s) : Tidy (ramWrite a b s) :=
  ⟨h.1, Memory.wf_putAll _ _ _ h.2⟩

/-- Zeroing pages keeps the form. -/
theorem zeroPages_wf (pages : List Nat) (m : List Host.Cell) (h : Memory.wf m = true) : Memory.wf (zeroPages pages m) = true :=
  Memory.wf_filter _ _ h

/-- What a write without dirty logging leaves: memory alone. -/
theorem hostWrite_unlogged (f a : Nat) (b : Bytes) (s : State) (h : (s.fn f).log = none) :
    hostWrite f a b s = { s with mem := Memory.putAll s.mem (hostKey f a) b } := by
  unfold hostWrite logWrite
  split
  · rfl
  · next l hl => exact absurd (h.symm.trans hl) (by simp)

end Sys2Proof.Machine
end

