-- ==== Sys2Proof/Laws/Signals.lean ====
section
/-!
SUPPORT. What recording an event, setting an error bit, raising a source and sending an interrupt can do: nothing but
signal (`Quiet`).
-/

namespace Sys2Proof.Safety

open Sys2Proof.Machine

theorem Quiet.refl (s : State) : Quiet s s := ⟨rfl, fun _ => rfl⟩

theorem Quiet.trans {s t u : State} (a : Quiet s t) (b : Quiet t u) : Quiet s u :=
  ⟨b.1.trans a.1, fun f => (b.2 f).trans (a.2 f)⟩

/-- A change outside the functions that `still` does not see. -/
theorem Quiet.of_still {s t : State} (h : still t = still s) (hf : t.fns = s.fns) : Quiet s t :=
  ⟨h, fun f => by simp [State.fn, hf]⟩

/-- A change of one function that `stillFn` does not see. -/
theorem Quiet.of_fn {s : State} (f : Nat) (g : Fn) (h : stillFn g = stillFn (s.fn f)) : Quiet s (setFn f g s) :=
  ⟨rfl, fun k => by
    rw [fn_setFn]
    split
    · next e => rw [h, e]
    · rfl⟩

namespace Quiet

variable {s t : State} (q : Quiet s t)
include q

theorem jobs : t.jobs = s.jobs := congrArg (fun x : _ => x.jobs) q.1
theorem stamp : t.stamp = s.stamp := congrArg (fun x : _ => x.stamp) q.1
theorem fab : t.fab = s.fab := congrArg (fun x : _ => x.fab) q.1
theorem store : t.store = s.store := congrArg (fun x : _ => x.store) q.1
theorem life : t.life = s.life := congrArg (fun x : _ => x.life) q.1
theorem clock : t.clock = s.clock := congrArg (fun x : _ => x.clock) q.1
theorem mgmt : t.mgmt = s.mgmt := congrArg (fun x : _ => x.mgmt) q.1
theorem link : t.link = s.link := congrArg (fun x : _ => x.link) q.1
theorem custody : t.custody = s.custody := congrArg (fun x : _ => x.custody) q.1
theorem rng : t.rng = s.rng := congrArg (fun x : _ => x.rng) q.1
theorem pk : t.pk = s.pk := congrArg (fun x : _ => x.pk) q.1
theorem worlds : t.worlds = s.worlds := congrArg (fun x : _ => x.worlds) q.1
theorem vesper : t.vesper = s.vesper := congrArg (fun x : _ => x.vesper) q.1
theorem mem : t.mem = s.mem := congrArg (fun x : _ => x.mem) q.1
theorem cram : t.cram = s.cram := congrArg (fun x : _ => x.cram) q.1
theorem free : t.free = s.free := congrArg (fun x : _ => x.free) q.1
theorem pending : t.pending = s.pending := congrArg (fun x : _ => x.pending) q.1
theorem force : t.dict.force = s.dict.force := congrArg (fun x : _ => x.dict.force) q.1
theorem dev : t.dict.dev = s.dict.dev := congrArg (fun x : _ => x.dict.dev) q.1
theorem profiles : t.dict.profiles = s.dict.profiles := congrArg (fun x : _ => x.dict.profiles) q.1
theorem phase : t.boot.phase = s.boot.phase := congrArg (fun x : _ => x.boot.phase) q.1
theorem rules : t.regs.rules = s.regs.rules := congrArg (fun x : _ => x.regs.rules) q.1
theorem rulesLock : t.regs.rulesLock = s.regs.rulesLock := congrArg (fun x : _ => x.regs.rulesLock) q.1
theorem head : t.evr.head = s.evr.head := congrArg (fun x : _ => x.evr.head) q.1
theorem cursor : t.evr.cursor = s.evr.cursor := congrArg (fun x : _ => x.evr.cursor) q.1
theorem run (f : Nat) : (t.fn f).run = (s.fn f).run := congrArg (fun x : _ => x.run) (q.2 f)
theorem tenant (f : Nat) : (t.fn f).tenant = (s.fn f).tenant := congrArg (fun x : _ => x.tenant) (q.2 f)
theorem jqs (f : Nat) : (t.fn f).jqs = (s.fn f).jqs := congrArg (fun x : _ => x.jqs) (q.2 f)
theorem cqs (f : Nat) : (t.fn f).cqs = (s.fn f).cqs := congrArg (fun x : _ => x.cqs) (q.2 f)
theorem sk (f : Nat) : (t.fn f).sk = (s.fn f).sk := congrArg (fun x : _ => x.sk) (q.2 f)
theorem now : t.now = s.now := congrArg (fun x : _ => x.clock.meridian) q.1

end Quiet

theorem quiet_bump (n : Nat) (s : State) : Quiet s (bump n s) := .of_still rfl rfl

theorem quiet_emit (m : OutMsg) (s : State) : Quiet s (emit m s) := .of_still rfl rfl

theorem quiet_rollWindow (s : State) : Quiet s (rollWindow s) := by
  unfold rollWindow; split
  · exact .refl s
  · exact .of_still rfl rfl

theorem quiet_acceptRecord (e : EventRec) (s : State) : Quiet s (acceptRecord e s) := by
  unfold acceptRecord
  split
  · exact .refl s
  · have h := quiet_rollWindow s
    simp only
    split
    · exact h.trans (.of_still rfl rfl)
    · split
      · exact h.trans (.of_still rfl rfl)
      · split
        · exact h.trans (quiet_bump _ _)
        · exact h.trans (.of_still rfl rfl)

/-- An error without a header only signals. -/
theorem quiet_aerUncor (f b : Nat) (hb : hasHeader b = false) (s : State) : Quiet s (aerUncor f b s) := by
  unfold aerUncor
  simp only [hb]
  exact .of_fn _ _ (by simp only [stillFn]; split <;> rfl)

theorem quiet_aerOfLevel (l : Nat) (s : State) : Quiet s (aerOfLevel l s) := by
  unfold aerOfLevel
  split
  · exact quiet_aerUncor 0 22 rfl s
  · split
    · exact .of_fn _ _ rfl
    · exact .refl s

theorem quiet_record (code level p0 p1 p2 p3 : Nat) (nested : Bool) (s : State) :
    Quiet s (record code level p0 p1 p2 p3 nested s) :=
  (quiet_acceptRecord _ s).trans (quiet_aerOfLevel _ _)

theorem quiet_escalate (s : State) : Quiet s (escalate s) := .of_still rfl rfl

theorem quiet_evalVec (f v : Nat) (s : State) : Quiet s (evalVec f v s) := by
  unfold evalVec
  simp only
  split
  · split
    · exact Quiet.trans (Quiet.of_fn _ _ (by rfl)) (quiet_emit _ _)
    · exact .of_fn _ _ rfl
  · exact .refl s

theorem quiet_fold {α : Type} (h : α → State → State) (hq : ∀ a s, Quiet s (h a s)) (l : List α) (s : State) :
    Quiet s (l.foldl (fun s a => h a s) s) := by
  induction l generalizing s with
  | nil => exact .refl s
  | cons a l ih => exact (hq a s).trans (ih _)

theorem quiet_evalVecs (f : Nat) (s : State) : Quiet s (evalVecs f s) :=
  quiet_fold (fun v s => evalVec f v s) (fun v s => quiet_evalVec f v s) _ s

theorem quiet_vecEvent (f v : Nat) (b : Bool) (s : State) : Quiet s (vecEvent f v b s) := by
  unfold vecEvent
  simp only
  split
  · exact Quiet.trans (Quiet.of_fn _ _ (by rfl)) (quiet_evalVec _ _ _)
  · exact .refl s

theorem quiet_signalDevice (s : State) : Quiet s (signalDevice s) := by
  unfold signalDevice; split
  · exact quiet_vecEvent _ _ _ _
  · exact .refl s

theorem quiet_raiseSource (n : Nat) (s : State) : Quiet s (raiseSource n s) := by
  unfold raiseSource
  split
  · exact .refl s
  · simp only
    split
    · exact Quiet.trans (.of_still rfl rfl) (quiet_signalDevice _)
    · exact .of_still rfl rfl

theorem quiet_setErr (c n : Nat) (s : State) : Quiet s (setErr c n s) := by
  unfold setErr
  simp only
  split
  · exact .refl s
  · split
    · exact Quiet.trans (.of_still rfl rfl) (quiet_raiseSource _ _)
    · split
      · exact Quiet.trans (.of_still rfl rfl) (quiet_raiseSource _ _)
      · exact .of_still rfl rfl

theorem quiet_setEvent (f n : Nat) (s : State) : Quiet s (setEvent f n s) := by
  unfold setEvent
  simp only
  split
  · exact .refl s
  · have h : Quiet s (setFn f { s.fn f with event := (s.fn f).event ||| BitVec.ofNat 32 (2 ^ n) } s) := .of_fn _ _ rfl
    split
    · split
      · split
        · exact (h.trans (quiet_vecEvent _ _ _ _)).trans (quiet_raiseSource _ _)
        · exact h.trans (quiet_raiseSource _ _)
      · split
        · exact h.trans (quiet_vecEvent _ _ _ _)
        · exact h
    · exact h

theorem quiet_eachFn (h : Nat → State → State) (hq : ∀ a s, Quiet s (h a s)) (s : State) : Quiet s (eachFn h s) :=
  quiet_fold h hq _ s

theorem quiet_noteConditions (s : State) : Quiet s (noteConditions s) := by
  unfold noteConditions
  split
  · exact .refl s
  · have h : Quiet s { s with red := { s.red with conditions := s.conditions } } := .of_still rfl rfl
    exact h.trans (quiet_record _ _ _ _ _ _ _ _)

theorem quiet_settle (old s : State) : Quiet s (settle old s) := by
  unfold settle
  split
  · exact .refl s
  · have h1 : Quiet s (if old.locked = s.locked then s else eachFn (fun f => setEvent f 1) s) := by
      split
      · exact .refl s
      · exact quiet_eachFn _ (fun f s => quiet_setEvent f 1 s) s
    have h2 : ∀ u, Quiet u (if old.noPair = u.noPair then u else eachFn (fun f => setEvent f 2) u) := fun u => by
      split
      · exact .refl u
      · exact quiet_eachFn _ (fun f s => quiet_setEvent f 2 s) u
    exact (h1.trans (h2 _)).trans (quiet_noteConditions _)

theorem quiet_refuseAccess (s : State) : Quiet s (refuseAccess s) := quiet_bump _ s

end Sys2Proof.Safety
end

