-- ==== Sys2Proof/WellFormed.lean ====
section
/-!
DEFINITION. Which commands can occur: the ranges of their operands. A command outside them names nothing the block
has; its meaning still answers a next state.
-/

namespace Sys2Proof.WellFormed

/-- A job queue entry can be named: PF0 and 2,048 virtual functions (R17), local queues 0 to 64 (R131). -/
def jobRef (j : JobRef) : Bool := decide (j.fn < 2049) && decide (j.jq < 65)

/-- A master has an identity of R360 and the attributes that its hardware gives it (R301, R361, R379). Engine masters have
neither world nor privilege: their own rights alone are checked. -/
def attr (a : Attr) : Bool :=
  if a.master = 0x0001 then !a.debug && (a.priv || !a.secure) && (decide (a.ext = 0) || !a.priv) && decide (a.ext < 9)
  else decide (a.ext = 0) &&
    (if a.master = 0x0020 then a.secure && a.priv && !a.debug
     else if a.master = 0x00F0 then a.priv && a.debug
     else if a.master = 0x0100 then !a.secure && a.priv && !a.debug
     else if 0x1000 < a.master then decide (a.master ≤ 0x1000 + 2048) && !a.secure && !a.priv && !a.debug
     else decide (0x0010 ≤ a.master) && decide (a.master ≤ 0x0016) && !a.secure && !a.priv && !a.debug)

/-- A relay channel is one of four (R358). -/
def route : FdpRoute → Bool
  | .port _ => true
  | .relay ch _ => decide (ch < 4)

/-- A register lies in BAR0 of PF0, in a function page or in a configuration space. -/
def place : RegPlace → Bool
  | .bar a => decide (a < 2 ^ 26)
  | .page f off => decide (f < 2049) && decide (off < 16384)
  | .cfg f off => decide (f < 2049) && decide (off < 4096)

def readTarget : ReadTarget → Bool
  | .job j => jobRef j
  | .ring f q => decide (f < 2049) && decide (q < 65)

def dispatchTarget : DispatchTarget → Bool
  | .pair p _ => decide (p < 10)
  | .publicKey => true
  | .random => true

/-- A window holds 4,096 bits (R281). -/
def window (w : WindowReading) : Bool :=
  decide (w.bits.length = 512)

def stall : StallStage → Bool
  | .lane p => decide (p < 10)
  | .splitter c => decide (c < 5)
  | .controlUnit _ => true
  | .drbg => true
  | .pkCore c => decide (c < 4)
  | .control b st _ _ _ => decide (b < 12) && decide (st < 16)
  | .store area _ _ => decide (1 ≤ area) && decide (area ≤ 4)
  | .dieLink off _ => decide (off < 4096)

def selfTest (r : SelfTest) : Bool := decide (r.pairsOk.length = 10) && decide (r.coresOk.length = 4) &&
  r.simplex.all fun x => decide (x.1 < 12) && decide (x.2 < 16)

/-- The operands of a command lie in their ranges. -/
def wf : Instr → Bool
  | .pad f q => decide (f < 2049) && decide (q < 65)
  | .nop j => jobRef j
  | .seal j _ => jobRef j
  | .unseal j _ => jobRef j
  | .checkGen j _ => jobRef j
  | .checkVerify j => jobRef j
  | .rawEncrypt j _ => jobRef j
  | .rawDecrypt j _ => jobRef j
  | .rngFill j => jobRef j
  | .pkSign j => jobRef j
  | .pkVerify j => jobRef j
  | .pkKeygen j => jobRef j
  | .pkAgree j => jobRef j
  | .pkEncaps j => jobRef j
  | .pkDecaps j => jobRef j
  | .createJq f => decide (f < 2049)
  | .destroyJq f => decide (f < 2049)
  | .resetJq f => decide (f < 2049)
  | .createCq f => decide (f < 2049)
  | .destroyCq f => decide (f < 2049)
  | .dictRead f => decide (f < 2049)
  | .dictWrite f => decide (f < 2049)
  | .fnAlloc => true
  | .fnFree => true
  | .freeze => true
  | .save => true
  | .thaw => true
  | .fnStateLoad => true
  | .dirtyLogStart => true
  | .dirtyLogSync => true
  | .dirtyLogStop => true
  | .fnReset => true
  | .keyCreate f => decide (f < 2049)
  | .keyImport f => decide (f < 2049)
  | .keyExport f => decide (f < 2049)
  | .keyErase f => decide (f < 2049)
  | .rekey f => decide (f < 2049)
  | .reattr f => decide (f < 2049)
  | .keyQuery f => decide (f < 2049)
  | .attestStatement f => decide (f < 2049)
  | .attestChainEcdsa f => decide (f < 2049)
  | .attestChainMldsa f => decide (f < 2049)
  | .approve => true
  | .ceremonyOpen => true
  | .ceremonyStatus => true
  | .ceremonyExecute => true
  | .ceremonyContinue => true
  | .ceremonyCancel => true
  | .initialise => true
  | .custodians => true
  | .domainCreate => true
  | .domainAdmit => true
  | .domainJoin => true
  | .shareExport => true
  | .shareRestore => true
  | .lock => true
  | .unlock => true
  | .debugEnter => true
  | .debugExit => true
  | .decommission => true
  | .fwRegister => true
  | .extKey => true
  | .dictQuorum => true
  | .cellService => true
  | .fdpRelay => true
  | .load => true
  | .unload => true
  | .list => true
  | .extCall f => decide (f < 2049)
  | .ret x _ _ _ => decide (1 ≤ x) && decide (x ≤ 8)
  | .readIn x _ _ _ => decide (1 ≤ x) && decide (x ≤ 8)
  | .writeOut x _ _ _ => decide (1 ≤ x) && decide (x ≤ 8)
  | .submit x _ _ _ => decide (1 ≤ x) && decide (x ≤ 8)
  | .random x _ _ => decide (1 ≤ x) && decide (x ≤ 8)
  | .time x _ => decide (1 ≤ x) && decide (x ≤ 8)
  | .extDictRead x _ _ _ _ => decide (1 ≤ x) && decide (x ≤ 8)
  | .log x _ _ _ => decide (1 ≤ x) && decide (x ≤ 8)
  | .fnJqPiWrite f q _ => decide (f < 2049) && decide (q < 65)
  | .fnCqCiWrite f q _ => decide (f < 2049) && decide (q < 65)
  | .fnSkKeyWrite f set k _ _ => decide (f < 2049) && decide (set < 4) && decide (k < 8)
  | .sessionKeyLoad f set _ => decide (f < 2049) && decide (set < 4)
  | .sessionKeyClear f set _ => decide (f < 2049) && decide (set < 4)
  | .adminQueueEnable f _ => decide (f < 2049)
  | .adminQueueDisable f _ => decide (f < 2049)
  | .fnRngDataRead f _ en => decide (f < 2049) && decide (en.length ≤ 4096)
  | .rngReadStallLimit f => decide (f < 2049)
  | .advance a _ => attr a
  | .retreat a _ => attr a
  | .kick a _ => attr a
  | .pwReqWrite a _ => attr a
  | .pwKeepWrite a _ => attr a
  | .aliasWrite a where_ _ => attr a && place where_
  | .setMirrorWrite a _ _ => attr a
  | .clearMirrorWrite a _ _ => attr a
  | .toggleMirrorWrite a _ _ => attr a
  | .gateRuleWrite a _ _ => attr a
  | .registerWrite a where_ size _ => attr a && place where_ && (size == 1 || size == 2 || size == 4 || size == 8)
  | .busMasterEnableClear f => decide (f < 2049)
  | .flr f => decide (f < 2049)
  | .vfEnableClear => true
  | .functionReset f _ => decide (f < 2049)
  | .functionResetComplete f => decide (f < 2049)
  | .d3hotWrite f => decide (f < 2049)
  | .quiescenceTimeout f => decide (f < 2049)
  | .d0Write f => decide (f < 2049)
  | .msixEnableClear f => decide (f < 2049)
  | .msixUnmask f _ => decide (f < 2049)
  | .linkUp _ _ _ => true
  | .linkReset => true
  | .inboundFlit _ _ _ => true
  | .dmaReadCompletion t _ => readTarget t
  | .completionTimeout t => readTarget t
  | .spdmRequest _ => true
  | .doeAbort => true
  | .ideKmQuery _ _ => true
  | .ideKmKeyProg _ _ keySet sub _ _ _ => decide (keySet < 2) && decide (sub < 3)
  | .ideKmKSetGo _ _ keySet sub _ => decide (keySet < 2) && decide (sub < 3)
  | .ideKmKSetStop _ _ keySet sub _ => decide (keySet < 2) && decide (sub < 3)
  | .entryFetch => true
  | .dispatch t => dispatchTarget t
  | .commitRefusal j => jobRef j
  | .jobCompletion j _ _ => jobRef j
  | .mirrorWrite f q _ => decide (f < 2049) && decide (q < 65)
  | .moderationTimer f _ => decide (f < 2049)
  | .jobTimeout j => jobRef j
  | .pairFault p _ => decide (p < 10)
  | .pairKatVerdict p _ _ => decide (p < 10)
  | .spareKat _ _ => true
  | .jobRetry j => jobRef j
  | .creditRescale => true
  | .avsLoop _ oks _ => decide (oks.length = 10)
  | .avsGuard _ oks => decide (oks.length = 10)
  | .remaskSweepVisit => true
  | .slotReload n _ _ => decide (n < 65536)
  | .checkpointWriteDone n => decide (n < 65536)
  | .parityScrub bad => bad.all place
  | .shadowMismatch _ => true
  | .vsAccessTimeout _ _ => true
  | .meshSample m => decide (m.layer < 4)
  | .xtampSample input _ => decide (input < 4)
  | .tempSample _ => true
  | .glitch supply _ => decide (supply < 7)
  | .fiDelay _ => true
  | .vbatSample _ => true
  | .vbatCut _ => true
  | .cellPresenceCheck _ => true
  | .xtalFail => true
  | .xtalReturn => true
  | .shadowCheck _ => true
  | .chargerStep _ => true
  | .adaptiveSamplingUpdate => true
  | .ageingUpdate => true
  | .serviceWindowClose _ _ _ => true
  | .supplySourceChange _ => true
  | .watchOscillatorRecalibration _ => true
  | .meridianSlew => true
  | .vesperCheckpoint => true
  | .meridianSourceCheck _ _ _ => true
  | .windowComplete src w => decide (src < 8) && window w
  | .generateRequest => true
  | .reseedResume => true
  | .generatorRestart _ => true
  | .maskGeneratorReseed g => decide (g < 13)
  | .pkJobStart core => decide (core < 4)
  | .pkYieldPoint core => decide (core < 4)
  | .pkFinishPoint core => decide (core < 4)
  | .pkCoreFault core _ => decide (core < 4)
  | .pkCoreKatVerdict core _ => decide (core < 4)
  | .quiesceGrant block => decide (block < 12)
  | .stallLimit st => stall st
  | .controlStageDisagreement block _ _ _ _ => decide (block < 12)
  | .cuMismatch _ => true
  | .cuResync _ _ => true
  | .deviceFault _ => true
  | .deviceFaultAction => true
  | .watchdog => true
  | .eventRecordWrite => true
  | .rateWindowEnd => true
  | .powerOnReset => true
  | .supplyLoss => true
  | .glitchArm => true
  | .perstFall => true
  | .perstRise => true
  | .vesperStateRead => true
  | .mainDieSelfTest r => selfTest r
  | .firmwareCheck _ => true
  | .rootHandOff => true
  | .firstSeeding => true
  | .slotsLoaded _ => true
  | .queuesOpen => true
  | .discover r => route r
  | .hello r => route r
  | .auth r => route r
  | .request r => route r
  | .close r => route r
  | .fragmentTimeout _ => true
  | .authTimeout _ => true
  | .sessionIdleTimeout _ => true
  | .plcaBeaconChange _ => true
  | .challengeExpiry => true
  | .continuationWindowExpiry => true
  | .debugAccess _ _ _ => true
  | .debugHalt => true
  | .refclkLoss => true
  | .refclkReturn => true
  | .wrappedStoreReload n _ _ => decide (n < 65536)
  | .timeAdjustDone => true
  | .operatingConditionsChange _ => true
  | .debugResume => true
  | .memorySpaceEnableClear f => decide (f < 2049)
  | .busMasterEnableSet f => decide (f < 2049)
  | .vesperSupplyRise => true

end Sys2Proof.WellFormed
end

