-- ==== Sys2Proof/Tests/Slice0.lean ====
section
/-!
SUPPORT. Tests: what the well-formedness checks refuse, standard vectors of the algorithms, single steps, and for each
clause of each statement with hypotheses a state and operands that meet them all.
-/

-- One theorem at a time: checking many at once takes more memory than a check is given.
set_option Elab.async false

open Sys2Proof Sys2Proof.Machine Sys2Proof.Safety

namespace Sys2Proof.Tests

/-! ## Well-formedness: one ill-formed term for each check -/

/-- A job of a function beyond the last, and one of a queue beyond the last. -/
def badJob : JobRef := { fn := 2049, jq := 1, index := 0 }
def badQueue : JobRef := { fn := 1, jq := 65, index := 0 }

theorem test_wf_refuses_jobs : ([.nop, (.seal · 0), (.unseal · 0), (.checkGen · 0), .checkVerify, (.rawEncrypt · 0), (.rawDecrypt · 0), .rngFill, .pkSign,
    .pkVerify, .pkKeygen, .pkAgree, .pkEncaps, .pkDecaps, .commitRefusal, (.jobCompletion · false 0), .jobTimeout, .jobRetry,
    (fun j => .completionTimeout (.job j))].all fun (c : JobRef → Instr) =>
      !WellFormed.wf (c badJob) && !WellFormed.wf (c badQueue) && WellFormed.wf (c { fn := 2048, jq := 64, index := 0 })) = true := by
  decide

theorem test_wf_refuses_functions : ([.createJq, .destroyJq, .resetJq, .createCq, .destroyCq, .dictRead, .dictWrite, .keyCreate,
    .keyImport, .keyExport, .keyErase, .rekey, .reattr, .keyQuery, .attestStatement, .attestChainEcdsa, .attestChainMldsa,
    .extCall, .busMasterEnableClear, .busMasterEnableSet, .memorySpaceEnableClear, .flr, (.functionReset · 1),
    .functionResetComplete, .d3hotWrite, .quiescenceTimeout, .d0Write, .msixEnableClear, (.msixUnmask · none),
    (.moderationTimer · 0), .rngReadStallLimit, (.fnRngDataRead · 0 [true]), (.adminQueueEnable · 0), (.adminQueueDisable · 0),
    (.pad · 0), (.fnJqPiWrite · 0 0), (.fnCqCiWrite · 0 0), (.mirrorWrite · 0 0), (.fnSkKeyWrite · 0 0 false 0),
    (.sessionKeyLoad · 0 0), (.sessionKeyClear · 0 0), (fun f => .completionTimeout (.ring f 0))].all
      fun (c : Nat → Instr) => !WellFormed.wf (c 2049) && WellFormed.wf (c 2048)) = true := by decide

theorem test_wf_refuses_queues : ([.pad 1, (.fnJqPiWrite 1 · 0), (.fnCqCiWrite 1 · 0), (.mirrorWrite 1 · 0),
    (fun q => .completionTimeout (.ring 1 q))].all
      fun (c : Nat → Instr) => !WellFormed.wf (c 65) && WellFormed.wf (c 64)) = true := by decide

theorem test_wf_refuses_extensions : ([(.ret · 0 0 0), (.readIn · 0 0 0), (.writeOut · 0 0 0), (.submit · 0 0 0), (.random · 0 0),
    (.time · 0), (.extDictRead · 0 0 0 0), (.log · 0 0 0)].all
      fun (c : Nat → Instr) => !WellFormed.wf (c 0) && !WellFormed.wf (c 9) && WellFormed.wf (c 8)) = true := by decide

/-- A self-test in which everything passes. -/
def aSelfTest : SelfTest :=
  { pairsOk := List.replicate 10 true, coresOk := List.replicate 4 true, asterOk := true, irisOk := true, blocksOk := true
    simplex := [], drbgOk := true, railMv := 800, badCopies := [], badSets := [] }

/-- What is just beyond each remaining range, beside what is just within it. -/
def edges : List (Instr × Instr) :=
  [(.fnSkKeyWrite 0 4 0 false 0, .fnSkKeyWrite 0 3 7 false 0), (.fnSkKeyWrite 0 0 8 false 0, .fnSkKeyWrite 0 0 7 true 0),
   (.sessionKeyLoad 0 4 0, .sessionKeyLoad 0 3 0), (.sessionKeyClear 0 4 0, .sessionKeyClear 0 3 0),
   (.ideKmKeyProg 0 0 2 0 false [] [], .ideKmKeyProg 0 0 1 2 true [] []), (.ideKmKSetGo 0 0 0 3 true, .ideKmKSetGo 0 0 1 2 false),
   (.ideKmKSetStop 0 0 2 0 false, .ideKmKSetStop 0 0 1 2 true), (.dispatch (.pair 10 true), .dispatch (.pair 9 true)),
   (.pairFault 10 1, .pairFault 9 1), (.pairKatVerdict 10 true true, .pairKatVerdict 9 true true),
   (.avsLoop 0 [] 0, .avsLoop 0 (List.replicate 10 true) 0), (.avsGuard 0 [], .avsGuard 0 (List.replicate 10 true)),
   (.slotReload 65536 true true, .slotReload 65535 true true), (.checkpointWriteDone 65536, .checkpointWriteDone 65535),
   (.wrappedStoreReload 65536 true true, .wrappedStoreReload 65535 true true),
   (.parityScrub [.bar (2 ^ 26)], .parityScrub [.bar (2 ^ 26 - 1)]), (.parityScrub [.page 1 16384], .parityScrub [.page 1 16383]),
   (.parityScrub [.cfg 1 4096], .parityScrub [.cfg 1 4095]),
   (.meshSample { layer := 4, returned := 0, ohms := 0 }, .meshSample { layer := 3, returned := 0, ohms := 0 }), (.glitch 7 0, .glitch 6 0),
   (.xtampSample 4 true, .xtampSample 3 true), (.maskGeneratorReseed 13, .maskGeneratorReseed 12),
   (.pkJobStart 4, .pkJobStart 3), (.pkYieldPoint 4, .pkYieldPoint 3), (.pkFinishPoint 4, .pkFinishPoint 3),
   (.pkCoreFault 4 0, .pkCoreFault 3 0), (.pkCoreKatVerdict 4 true, .pkCoreKatVerdict 3 true),
   (.quiesceGrant 12, .quiesceGrant 11), (.controlStageDisagreement 12 0 true true true, .controlStageDisagreement 11 0 true true true),
   (.stallLimit (.lane 10), .stallLimit (.lane 9)), (.stallLimit (.pkCore 4), .stallLimit (.pkCore 3)),
   (.stallLimit (.splitter 5), .stallLimit (.splitter 4)),
   (.stallLimit (.control 12 0 true true true), .stallLimit (.control 11 15 true true true)),
   (.stallLimit (.store 0 0 true), .stallLimit (.store 1 0 true)), (.stallLimit (.store 5 0 true), .stallLimit (.store 4 0 true)),
   (.stallLimit (.dieLink 4096 true), .stallLimit (.dieLink 4095 true)),
   (.mainDieSelfTest { aSelfTest with pairsOk := [] }, .mainDieSelfTest aSelfTest),
   (.mainDieSelfTest { aSelfTest with coresOk := [] }, .mainDieSelfTest { aSelfTest with simplex := [(11, 15)] }),
   (.windowComplete 8 { bits := List.replicate 512 0, agree := true }, .windowComplete 7 { bits := List.replicate 512 0, agree := true }),
   (.windowComplete 0 { bits := List.replicate 511 0, agree := true }, .windowComplete 0 { bits := List.replicate 512 0, agree := true }),
   (.discover (.relay 4 []), .discover (.relay 3 [])), (.hello (.relay 4 []), .hello (.relay 3 [])),
   (.auth (.relay 4 []), .auth (.relay 3 [])), (.request (.relay 4 []), .request (.relay 3 [])),
   (.close (.relay 4 []), .close (.relay 3 [])),
   (.registerWrite { secure := true, priv := true, master := 1, debug := false, ext := 0 } (.bar 0) 3 0,
    .registerWrite { secure := true, priv := true, master := 1, debug := false, ext := 0 } (.bar 0) 8 0)]

theorem test_wf_refuses_edges : (edges.all fun p => !WellFormed.wf p.1 && WellFormed.wf p.2) = true := by decide +kernel

/-- A master of no identity of R360, a debug access in the name of the control units, and a host that claims the secure world. -/
theorem test_wf_refuses_masters : ([.advance, .retreat, .kick, .pwReqWrite, .pwKeepWrite, (.setMirrorWrite · 0),
    (.clearMirrorWrite · 0), (.toggleMirrorWrite · 0), (.gateRuleWrite · 0), (.aliasWrite · (.bar 0)),
    (fun a v => .registerWrite a (.bar 0) 4 v.toNat)].all fun (c : Attr → Word → Instr) =>
      !WellFormed.wf (c { secure := false, priv := false, master := 0x0002, debug := false, ext := 0 } 0) &&
      !WellFormed.wf (c { secure := true, priv := true, master := 0x0001, debug := true, ext := 0 } 0) &&
      !WellFormed.wf (c { secure := true, priv := true, master := 0x0100, debug := false, ext := 0 } 0) &&
      WellFormed.wf (c { secure := true, priv := true, master := 0x0001, debug := false, ext := 0 } 0)) = true := by decide +kernel

/-! ## The algorithms, by the published vectors of their standards -/

/-- FIPS 197, appendix C.3. -/
theorem test_aes256 : aesEnc (Bytes.ofBE 32 0x000102030405060708090a0b0c0d0e0f101112131415161718191a1b1c1d1e1f)
    (Bytes.ofBE 16 0x00112233445566778899aabbccddeeff) = Bytes.ofBE 16 0x8ea2b7ca516745bfeafc49904b496089 := by decide +kernel

/-- SP 800-38B, D.3, the empty message. -/
theorem test_cmac : cmac (Bytes.ofBE 32 0x603deb1015ca71be2b73aef0857d77811f352c073b6108d72d9810a30914dff4) [] =
    Bytes.ofBE 16 0x028962f61b7bf89efc6b551f4667d983 := by decide +kernel

/-- The GCM specification, test case 13. -/
theorem test_gcm : gcmTag (Bytes.zeros 32) (Bytes.zeros 12) [] [] = Bytes.ofBE 16 0x530f8afbc74536b9a963b4f1c4cb738b := by
  decide +kernel

/-- RFC 5649, section 6. -/
theorem test_kwp : kwpUnwrap (Bytes.ofBE 24 0x5840df6e29b02af1ab493b705bf16ea1ae8338f4dcc176a8)
    (Bytes.ofBE 16 0xafbeb0f07dfbf5419200f2ccb50bb24f) = some (Bytes.ofBE 7 0x466f7250617369) := by decide +kernel

/-- FIPS 180-4, SHA-384 of "abc". -/
theorem test_sha384 : (sha384 (Bytes.ascii "abc")).take 8 = Bytes.ofBE 8 0xcb00753f45a35e8b := by decide +kernel


/-- FIPS 202, SHA3-256 of "abc". -/
theorem test_sha3 : (sha3 32 (Bytes.ascii "abc")).take 8 = Bytes.ofBE 8 0x3a985da74fe225b2 := by decide +kernel

/-- RFC 7748, section 5.2, the first vector. -/
theorem test_x25519 : montShared 0x0D
    (Bytes.ofBE 32 0xa546e36bf0527c9d3b16154b82465edd62144c0ac1fc5a18506a2244ba449ac4)
    (Bytes.ofBE 32 0xe6db6867583030db3594c1a424b15f7c726624ec26b3353b10a903a6d0ab1c4c) {} =
    Bytes.ofBE 32 0xc3da55379de9c6908e94ea4df28d084f32eccf03491c71f754b4075577a28552 := by decide +kernel
/-! ## Small states -/

/-- An entry of `n` bytes with opcode `op` and fields given as offset, width and value. -/
def ent (n op : Nat) (l : List (Nat × Nat × Nat)) : Bytes :=
  l.foldl (fun b x => b.patch x.1 (Bytes.ofLE x.2.1 x.2.2)) ((Bytes.zeros n).patch 0 (Bytes.ofNats [op, n / 64]))

/-- PF0 as software brings it up: enabled, its admin queue on, a job queue 1 bound to completion queue 1. -/
def fn0 : Fn :=
  { pf0 with
    aqOn := true, jqs := [(0, { log2 := 4, ring := 0x10000, cq := 0 }), (1, { log2 := 4, ring := 0x20000, cq := 1 })]
    cqs := [(0, { log2 := 4, ring := 0x30000, mirror := 0x31000 }), (1, { log2 := 4, ring := 0x40000, mirror := 0x41000 })]
    cfg := { bme := true, mse := true, msixEnable := true, numVfs := 4, vfEnable := true, vfMse := true } }

/-- VF 1, allocated. -/
def fn1 : Fn := { fn0 with tenant := 7, quota := 8, share := 16, jqN := 2, cqN := 2, vecN := 2, skN := 1, cfg := { bme := true } }

/-- An OPERATIONAL device in service, 64 s after it started. -/
def up : State :=
  { State.reset with
    fns := [(0, fn0), (1, fn1)]
    clock := { meridian := 64 * second, running := true }
    boot := { phase := .open_, perst := true, powerOn := false, stage3 := true, serviceFw := true }
    regs := { fetchEn := true, dispatchEn := true, serving := List.replicate 12 true }
    life := { lc := .operational, root := Bytes.zeros 32, rootMain := Bytes.zeros 32, domHow := 1 }
    rng := { enabled := true, seeded := true, key := Bytes.zeros 32, v := Bytes.zeros 16, fwBuf := List.replicate 192 0x5A#8 }
    worlds := { armed := true, kickAt := 64 * second }
    fab := { vdd := 800, vddRead := 800, cycle := 1700
             pairs := (List.range 10).map fun p =>
               if p = 9 then { st := .urgent, role := .urgent } else if p = 7 then { st := .spare, role := .spare }
               else { st := .bulk, role := .bulk } }
    pk := { cores := List.replicate 4 { st := .active } }
    vesper := { calendar := 64 * second, counts := { powerOns := 1 }
                cell := { present := true, vbat := 3000, temp := 250, installed := 1, charged := 3600, remaining := 3600 * 60000 } } }

/-- An admin command of function `f`. -/
def cmdOf (f n op : Nat) (l : List (Nat × Nat × Nat)) : Job :=
  { ref := { fn := f, jq := 0, index := 0 }, entry := ent n op l, len := n / 64, stage := .committed, engine := .firmware
    atTime := 64 * second }

/-- An admin command of PF0 in one slot. -/
def cmd (op : Nat) (l : List (Nat × Nat × Nat)) : Job := cmdOf 0 64 op l

/-- A job of PF0's queue 1. -/
def jobOf (n op : Nat) (l : List (Nat × Nat × Nat)) : Job :=
  { ref := { fn := 0, jq := 1, index := 0 }, entry := ent n op l, len := n / 64, atTime := 64 * second }

/-- `s` with one job. -/
def with1 (j : Job) (s : State) : State := { s with jobs := [j] }

/-- PF0 changed. -/
def setPf (h : Fn → Fn) (s : State) : State := modFn 0 h s

/-- `j` with its inputs arrived on both sides. -/
def fed (b : List Bytes) (j : Job) : Job := { j with reads := .arrived, inA := b, inB := b }

/-- What firmware drew, and the state after. -/
def drawnOf (x : Drawn Bytes) : Bytes × State := match x with | .ok p => p | .error u => ([], u)

theorem drawn_ok {x : Drawn Bytes} (h : x.isOk = true) : x = .ok ((drawnOf x).1, (drawnOf x).2) := by
  cases x <;> first | rfl | cases h

theorem drawn_error {x : Drawn Bytes} (h : x.isOk = false) : x = .error (drawnOf x).2 := by
  cases x <;> first | rfl | cases h

def log4 : JobQueue := { log2 := 4, ring := 0x20000, cq := 1 }
def cq4 : CompQueue := { log2 := 4, ring := 0x40000, mirror := 0x41000 }
/-- `up` with job queue 1 of PF0 replaced. -/
def withJq (x : JobQueue) (s : State) : State := setJq 0 1 x s
/-- The entry of `j` in host memory at the base of queue 1's ring. -/
def ringed (b : Bytes) (s : State) : State := hostWrite 0 0x20000 b s

/-- A job with its completion decided. -/
def doneJob : Job := { jobOf 64 0x01 [] with stage := .committed, outcome := some { status := 0x00 } }
/-- `up` with `doneJob`, its ring entry and its reservation. -/
def doneUp : State :=
  { withJq { log4 with pi := 1, entries := [{ index := 0, len := 1, done := false }] } (setCq 0 1 { cq4 with reserved := 1 } up) with
    jobs := [doneJob] }
/-- A vector with one event, unmasked. -/
def vec3 : Vector_ := { pending := true, n := 1, addr := 0xFEE00000, data := 5, ctrl := 0 }
/-- A job that an admin queue's deadline does not spare. -/
def oldJob : Job := { jobOf 64 0x10 [] with atTime := 0 }
/-- An AES-256 key of tenant 0 for SEAL and UNSEAL, slot 64. -/
def keyCopy : SlotCopy := { key := { x := List.replicate 32 0x33#8, m := List.replicate 32 0x11#8 }, attr := mkAttr 0 1 1 1 3 0, limit := 100, count := 5 }
def slot64 : Slot := { st := .loaded, a := keyCopy, b := keyCopy, lastGen := 1, point := 50 }
def keyed (s : State) : State := setSlot 64 slot64 s
/-- A SEAL of 16 bytes with slot 64. -/
def sealEnt : Bytes := ent 128 0x10 [(0x10, 4, 64), (0x18, 8, 0x50000), (0x20, 8, 0x60000), (0x28, 4, 16)]
def sealJob : Job := { ref := { fn := 0, jq := 1, index := 0 }, entry := sealEnt, len := 2, atTime := 64 * second, arrival := 1 }
/-- The job running on pair 0 with its data there. -/
def onPair (j : Job) : Job :=
  { j with stage := .committed, engine := .pair 0, pair := 0, attempts := 1, reads := .arrived, charged := true, slot := 64, gen := 1
           epoch := 1, tenant := 0, inA := [Bytes.zeros 16], inB := [Bytes.zeros 16], keyA := keyCopy.key, keyB := keyCopy.key, salt := List.replicate 8 7#8 }
def pairHolds (j : Job) (s : State) : State := modPair 0 (fun x => { x with jobs := [j.ref] }) { s with jobs := [j] }

/-- An UNSEAL of 80 bytes with slot 64, in provisional and in hold mode. -/
def openEnt (hold : Nat) : Bytes := ent 128 0x11 [(0x10, 4, 64), (0x14, 4, hold), (0x18, 8, 0x50000), (0x20, 8, 0x60000), (0x28, 4, 80)]
def openJob (hold : Nat) : Job := onPair { sealJob with entry := openEnt hold }
/-- The fragment of 16 zero bytes, and `up` with it at the source. -/
def frag16 : Bytes := sealFragment keyCopy.key.clear 0 1 1 (List.replicate 8 7#8) sealEnt (Bytes.zeros 16) []
def openWith (b : Bytes) (hold : Nat) : Job := fed [b] (openJob hold)
/-- Check and RAW jobs of 16 bytes. -/
def chkJob (op : Nat) : Job := onPair { sealJob with entry := ent 128 op [(0x10, 4, 64), (0x18, 8, 0x50000), (0x20, 8, 0x60000), (0x28, 4, 16)] }
def rawJob (op next : Nat) : Job :=
  onPair { sealJob with entry := ent 128 op [(0x10, 4, 64), (0x14, 4, 0x400), (0x18, 8, 0x50000), (0x20, 8, 0x60000), (0x28, 4, 16), (0x30, 8, next)] }
/-- `up` with a SEAL waiting for dispatch, a salt, and a pair 0 that is idle. -/
def readyUp : State := { with1 sealJob (keyed up) with rng := { up.rng with salts := [List.replicate 8 9#8] } }
/-- A job withdrawn from pair 0. -/
def retryJob : Job := { onPair sealJob with withdrawn := true, claim := true, engine := .none_, tried := [0] }

/-- An RNG_FILL that waits for its dispatch. -/
def fillWait : Job := jobOf 64 0x30 [(0x10, 8, 0x50000), (0x18, 4, 16)]

/-- A PK job of PF0 running on core 0. -/
def pkEnt (op : Nat) (l : List (Nat × Nat × Nat)) : Bytes := ent 128 op l
def pkJob (op : Nat) (l : List (Nat × Nat × Nat)) : Job :=
  { ref := { fn := 0, jq := 1, index := 0 }, entry := pkEnt op l, len := 2, atTime := 64 * second, stage := .committed
    engine := .publicKey, reads := .arrived, slot := 64, gen := 1, keyA := keyCopy.key, keyB := keyCopy.key }
def onCore0 (j : Job) (s : State) : State := { s with jobs := [j], pk := { s.pk with cores := { st := .active, cur := some j.ref } :: s.pk.cores.drop 1 } }
/-- An ECDSA P-384 signing job with slot 64, which holds such a key. -/
def signJob : Job := { pkJob 0x40 [(0x10, 4, 64), (0x14, 4, 0x109), (0x4C, 4, 96), (0x30, 8, 0x60000)] with draws := List.replicate 64 3#8 }
def p384Copy : SlotCopy := { keyCopy with attr := mkAttr 0 1 1 16 9 0, key := { x := List.replicate 48 0x33#8, m := List.replicate 48 0x11#8 } }
def signUp : State := setSlot 64 { slot64 with a := p384Copy, b := p384Copy } { with1 signJob up with pk := { up.pk with queue := [signJob.ref] } }
def win : WindowReading := { bits := List.replicate 512 0x33#8, agree := true }
def rngUp (s : State) (h : Rng → Rng) : State := { s with rng := h s.rng }
def fillJob : Job := { jobOf 64 0x30 [(0x10, 8, 0x50000), (0x18, 4, 16)] with stage := .committed, engine := .random, reads := .arrived, work := List.replicate 16 5#8 }

def pkWait : Job := { jobOf 128 0x40 [(0x10, 4, 64), (0x14, 4, 0x109), (0x4C, 4, 96), (0x30, 8, 0x60000)] with len := 2 }

/-- An Ed25519 and an RSA signing job. -/
def edJob : Job := fed [Bytes.ascii "abc"] (pkJob 0x40 [(0x10, 4, 64), (0x14, 4, 0x0B)])
def rsaJob : Job := fed [Bytes.ascii "abc", [], [], []] (pkJob 0x40 [(0x14, 4, 0x1005), (0x54, 2, 3072)])
/-- An RSA key generation with a modulus of 16 bits and the bytes of two primes of 8 bits. -/
def smallRsa : Job := { pkJob 0x42 [(0x14, 4, 5), (0x54, 2, 16)] with draws := [191, 241] }

/-- A candidate that passes the test for every base it can have is prime for every choice of bases. -/
theorem small_primes : (∀ b < 188, probablyPrime [b] 191 = true) ∧ ∀ b < 238, probablyPrime [b] 241 = true := by decide +kernel

/-- An X25519 agreement with a 32-byte key, waiting for a core; its peer's key is the base point, or 0. -/
def agreeJob (u : Nat) : Job := fed [Bytes.ofLE 32 u] (pkJob 0x43 [(0x10, 4, 64), (0x14, 4, 0x0D)])
def queuedUp (j : Job) : State := setSlot 64 slot64 { with1 j up with pk := { up.pk with queue := [j.ref] } }
/-- An RSA signing job of a 3,072-bit key on core 0, the other cores out of service, and `agreeJob` waiting. -/
def longUp : State :=
  { up with jobs := [rsaJob, { agreeJob 9 with ref := { fn := 0, jq := 1, index := 2 } }]
            pk := { cores := [{ st := .active, cur := some rsaJob.ref }], queue := [{ fn := 0, jq := 1, index := 2 }] } }
def otherKey : Masked := { x := List.replicate 32 0x34#8, m := List.replicate 32 0x11#8 }

/-- The domain key, masked; a second one of 16 bytes, and a blob it wraps, of a 16-byte key of tenant 7. -/
def domCopy : SlotCopy := { key := { x := List.replicate 32 0x44#8, m := List.replicate 32 0x11#8 }, attr := mkAttr 0 0 0 8 3 0 }
def domCopyS : SlotCopy := { key := { x := List.replicate 16 0x44#8, m := List.replicate 16 0x11#8 }, attr := mkAttr 0 0 0 8 1 0 }
def domKeyS : Bytes := List.replicate 16 0x55#8
def blob64 : Bytes := Bytes.ofLE 152 575806268009216382272916204729590120976738279298258832610581492864613686374334038414632725099247545403289041352503306671719439026496884474556678403630931594153729534039764370443418282993606888515120210958422077367684615755288145756117498061835867957998963941192343564564940837933556084977888371000567443669347366169911879674169123202376809789050382286296660204275271
def key16 : Bytes := List.replicate 16 0x22#8

set_option maxRecDepth 10000000 in
/-- The blob opens. -/
theorem blob64_opens : blobKey domKeyS blob64 = some key16 := by decide +kernel

/-- `up` with that domain key. -/
def domUpS : State := { up with store := { up.store with slots := [(0, { st := .loaded, a := domCopyS, b := domCopyS, lastGen := 0 })] } }
/-- `up` with the domain key in slot 0, and in slot 64 a key of tenant 7, which VF 1 belongs to. -/
def domUp : State := { up with store := { up.store with slots := [(0, { st := .loaded, a := domCopy, b := domCopy, lastGen := 0 })] } }
def key7 : SlotCopy := { keyCopy with attr := mkAttr 7 1 1 1 3 1 }
def own64 (s : State) : State := setSlot 64 { st := .loaded, a := key7, b := key7, lastGen := 1, point := 50 } s
/-- A command of VF 1, alone in `s`. -/
def vf (op : Nat) (l : List (Nat × Nat × Nat)) : Job := cmdOf 1 64 op l
def withBlob (j : Job) : State := { hostWrite 1 0x50000 blob64 domUpS with jobs := [j] }
def blobSlot (st : SlotState) : Slot := { st := st, a := key7, b := { key7 with count := 6 }, lastGen := 1, point := 50, reloadDue := true, blob := blob64 }

/-- The key firmware draws for an algorithm, and the state after it; where it has to wait, the state before. -/
def drawnKey (a : Nat) (s : State) : Bytes := match fwKey a s with | .ok p => p.1 | .error _ => []
def drawnState (a : Nat) (s : State) : State := match fwKey a s with | .ok p => p.2 | .error u => u

theorem fwKey_ok {a b : Nat} {s : State} (e : a = b) (h : (fwKey b s).isOk = true) :
    fwKey a s = .ok (drawnKey b s, drawnState b s) := by
  subst e; revert h; unfold drawnKey drawnState; cases fwKey a s <;> simp [Except.isOk, Except.toBool]

theorem fwKey_error {a b : Nat} {s : State} (e : a = b) (h : (fwKey b s).isOk = false) : fwKey a s = .error (drawnState b s) := by
  subst e; revert h; unfold drawnState; cases fwKey a s <;> simp [Except.isOk, Except.toBool]

/-- An FN_ALLOC of VF 5. -/
def allocJob : Job := { cmd 0xA0 [] with entry := ent 128 0xA0 [(0x10, 2, 5), (0x12, 2, 9), (0x14, 1, 2), (0x15, 1, 2), (0x16, 1, 2), (0x17, 1, 1), (0x18, 4, 4), (0x1C, 2, 8), (0x24, 4, 900000), (0x28, 2, 100)], len := 2 }
/-- VF 1 changed. -/
def setVf (h : Fn → Fn) (s : State) : State := modFn 1 h s
/-- A session set with a staged 16-byte key. -/
def set0 : SessionSet := { staging := List.replicate 32 0x77#8, writtenK := [0, 1, 2, 3] }
/-- VF 1 with a dirty log of one range, nothing cached. -/
def range1 : DirtyRange := { base := 0x200000, pages := 64, bmA := 0x1000, bmB := 0x2000 }
def log1 : DirtyLog := { ranges := [range1], useB := true, outside := true, count := 3 }
def rangeUp : State := hostWrite 0 0x7000 (Bytes.ofLE 8 0x200000 ++ Bytes.ofLE 8 64 ++ Bytes.ofLE 8 0x1000 ++ Bytes.ofLE 8 0x2000) up
/-- A device with a transport key, and VF 1 FROZEN. -/
def frozenUp : State := setVf (fun g => { g with run := .frozen }) (setSlot 1 { st := .loaded, a := domCopy, b := domCopy } domUp)
def emptyVf (s : State) : State := setVf (fun g => { g with run := .ready, aqOn := false, jqs := [], cqs := [] }) s
def migBlob : Bytes := saveBlob domCopy.key.clear (List.replicate 12 1#8) up.life.domId 1 (frozenUp.fn 1) up.now

/-- A CEREMONY command of PF0. -/
def cer (l : List (Nat × Nat × Nat)) : Job := cmdOf 0 128 0xC2 l
/-- A ceremony of action `n` that gathers approvals. -/
def cer1 (n : Nat) (p : Bytes) : Ceremony := { id := 9, action := n, params := p, challenge := Bytes.zeros 104, lc := 1, expires := 100 * second }
def opened (c : Ceremony) (s : State) : State := { s with custody := { s.custody with cer := some c } }
/-- It executes, called by a job that waits. -/
def callJob : Job := { cer [(0x10, 1, 2), (0x14, 4, 9), (0x24, 4, 65536), (0x28, 8, 0x50000)] with reads := .arrived, phase := 1 }
def acts (n : Nat) (p : Bytes) : Ceremony := { cer1 n p with stage := .executing, caller := some (.admin callJob.ref) }
def actUp (c : Ceremony) (s : State) : State := opened c (with1 callJob s)
/-- Role tables. -/
def key65 (n : Nat) : RoleKey := { alg := 1, key := List.replicate 97 (BitVec.ofNat 8 n), since := 0 }
def quorumUp (s : State) : State := { s with custody := { s.custody with roles := [(0, key65 1), (1, key65 2)], quorumM := 2, quorumN := 2 } }

/-- An extension in three pages, and VF 1's call of it. -/
def ext1 : Ext := { id := 3, header := (Bytes.zeros 128).patch 0x16 [7], measure := Bytes.zeros 48, key := 0, kid := [], code := [600], data := [601], zero := [602], image := [] }
def extJob : Job := { cmdOf 1 64 0xD0 [(0x10, 1, 3), (0x14, 4, 64), (0x18, 8, 0x50000), (0x20, 8, 0x60000), (0x28, 4, 64)] with phase := 1 }
def call1 : Call := { job := extJob.ref, ext := 3 }
def extUp (s : State) : State := { s with worlds := { s.worlds with exts := [ext1], calls := [call1] } }
def serving : State := extUp (with1 extJob up)
/-- A relay frame of session `id`, and an FDP session on channel 0. -/
def plainF (ty : Nat) (b : Bytes) : Bytes := fdpHead ty false 0 0 0 b.length ++ b
def sess0 : Session := { id := 5, path := .relay 0, entry := 0, kCd := Bytes.zeros 32, kDc := Bytes.zeros 32, ivCd := Bytes.zeros 12, ivDc := Bytes.zeros 12, th := Bytes.zeros 48, last := 0 }
def sealF (ty : Nat) (b : Bytes) : Bytes := sealFrame sess0.kCd sess0.ivCd ty false 0 5 1 b
def sessUp (x : Session) : State := { up with mgmt := { up.mgmt with sessions := [x] } }
def readReq : Bytes := ((ent 128 0 []).patch 0 (Bytes.ofLE 4 77)).patch 4 (Bytes.ofNats [0x90]) |>.patch 0x10 (Bytes.ofLE 2 0x3000) |>.patch 0x12 (Bytes.ofLE 2 3)

/-- The request opens under its session. -/
theorem req_opens : openFrame sess0 (sealF Fdp.request readReq) = some readReq := by decide +kernel

theorem portFrame : routeFrame up (.port (List.replicate 6 0xFF#8 ++ [1, 2, 3, 4, 5, 6] ++ Bytes.ofBE 2 0x88B5 ++ plainF Fdp.discover [] ++ Bytes.zeros 30)) = some (.port [1, 2, 3, 4, 5, 6], plainF Fdp.discover [] ++ Bytes.zeros 30) := by
  have h : up.portUp = true := by decide +kernel
  rw [routeFrame, if_pos h, ethAccept, if_pos ⟨by decide +kernel, by decide +kernel, by decide +kernel, .inr (by decide +kernel)⟩]
  rfl

def relayJob : Job := { cmdOf 0 64 0xC3 [(0x20, 8, 0x50000), (0x28, 4, 4096), (0x2C, 4, 1000)] with phase := 1 }
def relayUp : State := { with1 relayJob up with mgmt := { up.mgmt with relay := [(0, [List.replicate 21 9#8])] } }

def alarmUp : State := { up with vesper := { up.vesper with vchg := true, armed := true, classes := defaultClass, xtamp := up.vesper.xtamp.set 1 (some true) }, boot := { up.boot with supplies := true } }

/-- The secure world, privileged; a user of extension 1; the host. -/
def cuS : Attr := { secure := true, priv := true, master := 1, debug := false, ext := 0 }
def cuU : Attr := { secure := false, priv := false, master := 1, debug := false, ext := 1 }
def hostA : Attr := { secure := false, priv := true, master := 0x100, debug := false, ext := 0 }
def dbgUp : State := { up with boot := { up.boot with testEn := true }, life := { up.life with lc := .debug } }
def testUp : State := { up with boot := { up.boot with testEn := true } }
/-- A rule of block 2's gate over its whole window, with rights `w` for every master, and a page of extension 1's code. -/
def ruled (w : Nat) : State := { up with regs := { up.regs with
  rules := [(0x1A00, 0x40200000), (0x1A04, 0x402FFFFF), (0x1A08, w), (0x1A0C, 0x8000FFFF)], owners := [(5, 0x111)] } }
def idle0 : SpdmSession := { id := 7, handshake := false }
def stageUp (n : Nat) : State := { up with boot := { up.boot with phase := .stage n } }
def rec1 : EventRec := { time := 5, code := 0x0901, level := 1 }

def sesUp : State := { up with link := { up.link with spdm := [idle0], ideKeys := [(ideIndex 1 0 2 true, { key := [1], iv := [] })] } }

def regAt (c off : Nat) : RegInfo := match regInfo c off with | some i => i | none => { rw := 0 }

def seeded5 : State := (firstSeed { stageUp 5 with rng := { up.rng with seeded := false, fwBuf := [], pool := [List.replicate 512 0x5A#8] } }).getD up

def lockUp : State := { up with regs := { up.regs with rulesLock := true } }

theorem wit_EmptyQueueOnlyPassesTime_0 : ∃ (s : State),
    s.pending = [] :=
  ⟨up, by decide +kernel⟩

theorem wit_HostWriteStoresItsBytes_0 : ∃ (s : State) (f : Nat),
    Tidy s ∧
    (s.fn f).log = none :=
  ⟨up, 0, by decide +kernel⟩

theorem wit_DoorbellAcceptance_0_a : ∃ (s : State) (f : Nat) (q : Nat) (v : Word) (x : JobQueue),
    s.pageOpen f = true ∧
    s.jq? f q = some x ∧
    q < 64 ∧
    x.st ≠ .draining ∧
    v ≠ x.pi :=
  ⟨up, 0, 1, 16, log4, by decide +kernel⟩

theorem wit_DoorbellAcceptance_0_b : ∃ (s : State) (f : Nat) (q : Nat) (v : Word) (x : JobQueue),
    s.pageOpen f = true ∧
    s.jq? f q = some x ∧
    q < 64 ∧
    x.st ≠ .draining ∧
    v ≠ x.pi :=
  ⟨up, 0, 1, 17, log4, by decide +kernel⟩

theorem wit_DoorbellAcceptance_0_c : ∃ (s : State) (f : Nat) (q : Nat) (v : Word) (x : JobQueue),
    s.pageOpen f = true ∧
    s.jq? f q = some x ∧
    q < 64 ∧
    x.st ≠ .draining ∧
    v ≠ x.pi :=
  ⟨up, 0, 1, 1, log4, by decide +kernel⟩

theorem wit_DoorbellAcceptance_0_wrap : ∃ (s : State) (f : Nat) (q : Nat) (v : Word) (x : JobQueue),
    s.pageOpen f = true ∧
    s.jq? f q = some x ∧
    q < 64 ∧
    x.st ≠ .draining ∧
    v ≠ x.pi :=
  ⟨withJq { log4 with pi := 4294967295, ci := 4294967294 } up, 0, 1, 0, { log4 with pi := 4294967295, ci := 4294967294 }, by decide +kernel⟩

theorem wit_ConsumerIndexAcceptance_0_a : ∃ (s : State) (f : Nat) (q : Nat) (x : CompQueue),
    s.pageOpen f = true ∧
    s.cq? f q = some x ∧
    q < 64 :=
  ⟨setCq 0 1 { cq4 with pi := 3 } up, 0, 1, { cq4 with pi := 3 }, by decide +kernel⟩

theorem wit_ConsumerIndexAcceptance_0_b : ∃ (s : State) (f : Nat) (q : Nat) (x : CompQueue),
    s.pageOpen f = true ∧
    s.cq? f q = some x ∧
    q < 64 :=
  ⟨setCq 0 1 { cq4 with pi := 3 } up, 0, 1, { cq4 with pi := 3 }, by decide +kernel⟩

theorem wit_EntryFetchTakesAJob_0 : ∃ (s : State) (f : Nat) (q : Nat) (x : JobQueue) (c : CompQueue),
    FetchTurn s f q ∧
    s.jq? f q = some x ∧
    s.cq? f x.cq = some c ∧
    ¬ ((nextEntry f q x s).1 = none ∧ opOf (s.hostRead f (x.slotAt x.next) 64) = Op.pad) :=
  ⟨ringed (ent 64 1 []) (withJq { log4 with pi := 1 } up), 0, 1, { log4 with pi := 1 }, cq4, by decide +kernel⟩

theorem wit_PadNopAndRefusal_0 : ∃ (s : State) (f : Nat) (q : Nat) (x : JobQueue),
    canFetch s f q = true ∧
    s.jq? f q = some x ∧
    nextIsPad f q x s = true :=
  ⟨ringed (ent 64 0x00 []) (withJq { log4 with pi := 1 } up), 0, 1, { log4 with pi := 1 }, by decide +kernel⟩

theorem wit_PadNopAndRefusal_1 : ∃ (s : State) (r : JobRef) (j : Job),
    s.job? r = some j ∧
    j.op = Op.nop ∧
    j.header = none ∧
    mayCommit s j = true ∧
    s.earlierCommitted j = true ∧
    s.regs.dispatchEn = true :=
  ⟨with1 (jobOf 64 0x01 []) up, (jobOf 64 0x01 []).ref, jobOf 64 0x01 [], by decide +kernel⟩

theorem wit_PadNopAndRefusal_2_a : ∃ (s : State) (r : JobRef) (j : Job) (d : Done),
    s.job? r = some j ∧
    r.jq ≠ 0 ∧
    mayCommit s j = true ∧
    s.earlierCommitted j = true ∧
    s.regs.dispatchEn = true ∧
    ((j.header = some d ∨ (j.header = none ∧ jobCheck s r.fn j.entry = some d))) :=
  ⟨with1 { jobOf 64 0x10 [] with header := some { status := 0x20, detail := 0x08 } } up, (jobOf 64 0x10 []).ref, { jobOf 64 0x10 [] with header := some { status := 0x20, detail := 0x08 } }, { status := 0x20, detail := 0x08 }, by decide +kernel⟩

theorem wit_PadNopAndRefusal_2_b : ∃ (s : State) (r : JobRef) (j : Job) (d : Done),
    s.job? r = some j ∧
    r.jq ≠ 0 ∧
    mayCommit s j = true ∧
    s.earlierCommitted j = true ∧
    s.regs.dispatchEn = true ∧
    ((j.header = some d ∨ (j.header = none ∧ jobCheck s r.fn j.entry = some d))) :=
  ⟨with1 (jobOf 128 0x10 []) up, (jobOf 128 0x10 []).ref, jobOf 128 0x10 [], { status := 0x22, detail := 0x02 }, by decide +kernel⟩

theorem wit_CompletionsReachTheRing_0_a : ∃ (s : State) (r : JobRef) (j : Job) (d : Done) (c : CompQueue) (resent : Nat),
    s.job? r = some j ∧
    j.outcome = some d ∧
    j.silent = false ∧
    r.jq ≠ subQueue ∧
    resent < 3 ∧
    s.cq? r.fn (s.cqOf r) = some c :=
  ⟨doneUp, doneJob.ref, doneJob, { status := 0x00 }, { cq4 with reserved := 1 }, 0, by decide +kernel⟩

theorem wit_CompletionsReachTheRing_0_b : ∃ (s : State) (r : JobRef) (j : Job) (d : Done) (c : CompQueue) (resent : Nat),
    s.job? r = some j ∧
    j.outcome = some d ∧
    j.silent = false ∧
    r.jq ≠ subQueue ∧
    resent < 3 ∧
    s.cq? r.fn (s.cqOf r) = some c :=
  ⟨doneUp, doneJob.ref, doneJob, { status := 0x00 }, { cq4 with reserved := 1 }, 2, by decide +kernel⟩

theorem wit_CompletionsReachTheRing_1 : ∃ (s : State) (r : JobRef) (j : Job) (d : Done) (resent : Nat),
    s.job? r = some j ∧
    j.outcome = some d ∧
    j.silent = false ∧
    3 ≤ resent :=
  ⟨doneUp, doneJob.ref, doneJob, { status := 0x00 }, 3, by decide +kernel⟩

theorem wit_CompletionsReachTheRing_2 : ∃ (s : State) (f : Nat) (c : Nat) (q : CompQueue) (b : Bytes),
    Tidy s ∧
    s.cq? f c = some q ∧
    b.length = 32 ∧
    (s.fn f).log = none ∧
    q.recAt q.pi + 32 ≤ 2 ^ 64 ∧
    q.mirror + 4 ≤ 2 ^ 64 ∧
    ((q.mirror + 4 ≤ q.recAt q.pi ∨ q.recAt q.pi + 32 ≤ q.mirror)) :=
  ⟨up, 0, 1, cq4, List.replicate 32 7#8, by decide +kernel⟩

theorem wit_CompletionsReachTheRing_3 : ∃ (s : State) (f : Nat) (c : Nat) (resent : Nat) (q : CompQueue),
    Tidy s ∧
    s.cq? f c = some q ∧
    q.pi ≠ q.covered ∧
    elapsedUs s.now q.firstAt 1 = true ∧
    (s.fn f).run ≠ .d3hot ∧
    (s.fn f).run ≠ .resetting ∧
    resent < 3 :=
  ⟨setCq 0 1 { cq4 with pi := 2 } up, 0, 1, 2, { cq4 with pi := 2 }, by decide +kernel⟩

theorem wit_CompletionsReachTheRing_4 : ∃ (s : State) (f : Nat) (v : Nat),
    vecDue (s.fn f) ((s.fn f).vec v) s.now = true ∧
    vecMaySend (s.fn f) ((s.fn f).vec v) = true :=
  ⟨setPf (fun g => { g with vecs := [(3, vec3)] }) up, 0, 3, by decide +kernel⟩

theorem wit_TimeoutEndsTheJob_0_a : ∃ (s : State) (r : JobRef) (j : Job),
    s.job? r = some j ∧
    r.jq ≠ 0 ∧
    expired s j = true ∧
    (s.fn r.fn).run ≠ .resetting ∧
    j.claim = false ∧
    j.ended = false ∧
    j.outcome = none :=
  ⟨with1 oldJob up, oldJob.ref, oldJob, by decide +kernel⟩

theorem wit_TimeoutEndsTheJob_0_b : ∃ (s : State) (r : JobRef) (j : Job),
    s.job? r = some j ∧
    r.jq ≠ 0 ∧
    expired s j = true ∧
    (s.fn r.fn).run ≠ .resetting ∧
    j.claim = false ∧
    j.ended = false ∧
    j.outcome = none :=
  ⟨{ with1 oldJob up with pk := { cores := [{ st := .active, cur := some oldJob.ref }] } }, oldJob.ref, oldJob, by decide +kernel⟩

theorem wit_QueueCommands_0 : ∃ (s : State) (f : Nat) (j : Job),
    s.admin? f Op.createJq = some j ∧
    firstFail (createJqRows (s.fn f) j.entry) = none :=
  ⟨with1 (cmd 0x80 [(0x10, 1, 2), (0x11, 1, 6), (0x12, 1, 1), (0x13, 1, 1), (0x18, 8, 0x80000)]) up, 0, cmd 0x80 [(0x10, 1, 2), (0x11, 1, 6), (0x12, 1, 1), (0x13, 1, 1), (0x18, 8, 0x80000)], by decide +kernel⟩

theorem wit_QueueCommands_1 : ∃ (s : State) (f : Nat) (j : Job),
    s.admin? f Op.createCq = some j ∧
    firstFail (createCqRows (s.fn f) j.entry) = none :=
  ⟨with1 (cmd 0x83 [(0x10, 1, 2), (0x11, 1, 6), (0x18, 8, 0x80000), (0x20, 8, 0x90004)]) up, 0, cmd 0x83 [(0x10, 1, 2), (0x11, 1, 6), (0x18, 8, 0x80000), (0x20, 8, 0x90004)], by decide +kernel⟩

theorem wit_QueueCommands_2 : ∃ (s : State) (f : Nat) (j : Job),
    s.admin? f Op.destroyCq = some j ∧
    firstFail (destroyCqRows (s.fn f) j.entry) = none :=
  ⟨with1 (cmd 0x84 [(0x10, 1, 2)]) (setCq 0 2 cq4 up), 0, cmd 0x84 [(0x10, 1, 2)], by decide +kernel⟩

theorem wit_QueueCommands_3 : ∃ (s : State) (f : Nat) (j : Job) (x : JobQueue),
    s.admin? f Op.destroyJq = some j ∧
    j.phase = 0 ∧
    firstFail (drainRows (s.fn f) j.entry) = none ∧
    s.jq? f (j.entry.at_ 0x10).toNat = some x ∧
    x.ci = x.pi ∧
    x.entries = [] :=
  ⟨with1 (cmd 0x81 [(0x10, 1, 1)]) up, 0, cmd 0x81 [(0x10, 1, 1)], log4, by decide +kernel⟩

theorem wit_QueueCommands_4 : ∃ (s : State) (f : Nat) (j : Job) (x : JobQueue),
    s.admin? f Op.resetJq = some j ∧
    j.phase = 0 ∧
    firstFail (drainRows (s.fn f) j.entry) = none ∧
    s.jq? f (j.entry.at_ 0x10).toNat = some x ∧
    x.ci = x.pi ∧
    x.entries = [] :=
  ⟨with1 (cmd 0x82 [(0x10, 1, 1)]) up, 0, cmd 0x82 [(0x10, 1, 1)], log4, by decide +kernel⟩

theorem wit_TimeoutEndsTheJob_0_c : ∃ (s : State) (r : JobRef) (j : Job),
    s.job? r = some j ∧
    r.jq ≠ 0 ∧
    expired s j = true ∧
    (s.fn r.fn).run ≠ .resetting ∧
    j.claim = false ∧
    j.ended = false ∧
    j.outcome = none ∧
    onCore r s = false ∧ awaits j { status := 0x12, detail := if j.committed then 0x02 else 0x01 } = true :=
  ⟨pairHolds ({ onPair oldJob with reads := .outstanding }) up, oldJob.ref, { onPair oldJob with reads := .outstanding }, by decide +kernel⟩

theorem wit_QueueCommands_5 : ∃ (s : State) (f : Nat) (j : Job) (x : JobQueue),
    s.admin? f Op.destroyJq = some j ∧
    s.job? j.ref = some j ∧
    j.phase = 0 ∧
    firstFail (drainRows (s.fn f) j.entry) = none ∧
    s.jq? f (j.entry.at_ 0x10).toNat = some x ∧
    x.next ≠ x.pi :=
  ⟨with1 (cmd 0x81 [(0x10, 1, 1)]) (withJq { log4 with pi := 3 } up), 0, cmd 0x81 [(0x10, 1, 1)], { log4 with pi := 3 }, by decide +kernel⟩

theorem wit_QueueCommands_6 : ∃ (s : State) (f : Nat) (j : Job) (x : JobQueue),
    s.admin? f Op.resetJq = some j ∧
    s.job? j.ref = some j ∧
    j.phase = 0 ∧
    firstFail (drainRows (s.fn f) j.entry) = none ∧
    s.jq? f (j.entry.at_ 0x10).toNat = some x ∧
    x.next ≠ x.pi :=
  ⟨with1 (cmd 0x82 [(0x10, 1, 1)]) (withJq { log4 with pi := 3 } up), 0, cmd 0x82 [(0x10, 1, 1)], { log4 with pi := 3 }, by decide +kernel⟩

theorem wit_AdminQueueEnableAndDisable_0_a : ∃ (s : State) (f : Nat) (v : Word),
    aqReach s f = true ∧
    v.getLsbD 31 = true ∧
    (s.fn f).aqBusy = false ∧
    (s.fn f).aqOn = false :=
  ⟨setPf (fun g => { g with aqOn := false, jqs := [], cqs := [], aqJq := 0x10000, aqCq := 0x30000, aqMirror := 0x38000 }) up, 0, 0x80000606, by decide +kernel⟩

theorem wit_AdminQueueEnableAndDisable_0_b : ∃ (s : State) (f : Nat) (v : Word),
    aqReach s f = true ∧
    v.getLsbD 31 = true ∧
    (s.fn f).aqBusy = false ∧
    (s.fn f).aqOn = false :=
  ⟨setPf (fun g => { g with aqOn := false, jqs := [], cqs := [], aqJq := 0x10000, aqCq := 0x30000, aqMirror := 0x38000 }) up, 0, 0x80000605, by decide +kernel⟩

theorem wit_AdminQueueEnableAndDisable_1 : ∃ (s : State) (f : Nat) (v : Word) (x : JobQueue),
    s.pageOpen f = true ∧
    v.getLsbD 31 = false ∧
    (s.fn f).aqBusy = false ∧
    (s.fn f).aqOn = true ∧
    (s.fn f).jqs = [(0, x)] ∧
    x.ci = x.pi ∧
    x.entries = [] :=
  ⟨setPf (fun g => { g with jqs := [(0, log4)], cqs := [(0, cq4)] }) up, 0, 0, log4, by decide +kernel⟩

theorem wit_ReadsArriveOrFail_0 : ∃ (s : State) (r : JobRef) (j : Job),
    s.job? r = some j ∧
    j.reads = .outstanding ∧
    j.outcome = none ∧
    j.ended = false ∧
    (s.fn r.fn).aqBusy = false :=
  ⟨with1 { jobOf 128 0x10 [] with reads := .outstanding } up, doneJob.ref, { jobOf 128 0x10 [] with reads := .outstanding }, by decide +kernel⟩

theorem wit_ReadsArriveOrFail_1_a : ∃ (s : State) (r : JobRef) (j : Job) (st : ReadStatus) (d : Nat) (aer : Nat),
    s.job? r = some j ∧
    j.reads = .outstanding ∧
    j.outcome = none ∧
    j.ended = false ∧
    readFault st = some (d, aer) ∧
    (s.fn r.fn).aqBusy = false :=
  ⟨with1 { cmd 0x91 [] with reads := .outstanding } up, (cmd 0x91 []).ref, { cmd 0x91 [] with reads := .outstanding }, .poisoned, 4, 12, by decide +kernel⟩

theorem wit_ReadsArriveOrFail_1_b : ∃ (s : State) (r : JobRef) (j : Job) (st : ReadStatus) (d : Nat) (aer : Nat),
    s.job? r = some j ∧
    j.reads = .outstanding ∧
    j.outcome = none ∧
    j.ended = false ∧
    readFault st = some (d, aer) ∧
    (s.fn r.fn).aqBusy = false :=
  ⟨with1 { cmd 0x91 [] with reads := .outstanding } up, (cmd 0x91 []).ref, { cmd 0x91 [] with reads := .outstanding }, .abort, 2, 15, by decide +kernel⟩

theorem wit_ReadsArriveOrFail_2 : ∃ (s : State) (r : JobRef) (j : Job),
    s.job? r = some j ∧
    j.reads = .outstanding ∧
    j.outcome = none ∧
    j.ended = false ∧
    (s.fn r.fn).aqBusy = false ∧
    ((s.fn 0).cfg.regs.getD 0x98 0).testBit 4 = false ∧
    r.jq = 0 :=
  ⟨with1 { cmd 0x91 [] with reads := .outstanding } up, (cmd 0x91 []).ref, { cmd 0x91 [] with reads := .outstanding }, by decide +kernel⟩

theorem wit_SealThenUnseal_0 : ∃ (key : Bytes) (salt : Bytes) (plain : Bytes),
    key.length = 32 ∧
    plain.length ≤ maxLen ∧
    salt.length = 8 :=
  ⟨Bytes.zeros 32, List.replicate 8 9#8, Bytes.ofNats [1, 2, 3], by decide +kernel⟩

theorem wit_ReadsArriveOrFail_3 : ∃ (s : State) (f : Nat) (q : Nat) (x : JobQueue) (st : ReadStatus) (d : Nat) (aer : Nat),
    s.jq? f q = some x ∧
    x.st = .active ∧
    x.next ≠ x.pi ∧
    q < 64 ∧
    readFault st = some (d, aer) ∧
    (s.fn f).aqBusy = false :=
  ⟨withJq { log4 with pi := 3 } up, 0, 1, { log4 with pi := 3 }, .poisoned, 4, 12, by decide +kernel⟩

theorem wit_SealCompletes_0_a : ∃ (s : State) (r : JobRef) (j : Job) (resent : Nat),
    running s r Op.seal = some j ∧
    lanesDiffer j = false ∧
    resent < 3 ∧
    Tidy s ∧
    (s.fn r.fn).log = none :=
  ⟨pairHolds (onPair sealJob) (keyed up), sealJob.ref, onPair sealJob, 0, by decide +kernel⟩

theorem wit_SealCompletes_0_b : ∃ (s : State) (r : JobRef) (j : Job) (resent : Nat),
    running s r Op.seal = some j ∧
    lanesDiffer j = false ∧
    resent < 3 ∧
    Tidy s ∧
    (s.fn r.fn).log = none :=
  ⟨pairHolds (onPair sealJob) (keyed up), sealJob.ref, onPair sealJob, 2, by decide +kernel⟩

theorem wit_UnsealVerdicts_0_a : ∃ (s : State) (r : JobRef) (j : Job) (resent : Nat),
    running s r Op.unseal = some j ∧
    lanesDiffer j = false ∧
    resent < 3 ∧
    Tidy s ∧
    (s.fn r.fn).log = none ∧
    headerRefusal j.entry ((jobSrc j).take 64) j.epoch ≠ none :=
  ⟨pairHolds (openWith [] 0) (keyed up), sealJob.ref, openWith [] 0, 0, by decide +kernel⟩

theorem wit_UnsealVerdicts_0_b : ∃ (s : State) (r : JobRef) (j : Job) (resent : Nat),
    running s r Op.unseal = some j ∧
    lanesDiffer j = false ∧
    resent < 3 ∧
    Tidy s ∧
    (s.fn r.fn).log = none ∧
    headerRefusal j.entry ((jobSrc j).take 64) j.epoch = none ∧ unsealVerdict j.keyA.clear j.tenant ((jobSrc j).take 64) (jobAad j) ((jobSrc j).drop 64) = true :=
  ⟨pairHolds (openWith frag16 0) (keyed up), sealJob.ref, openWith frag16 0, 2, by decide +kernel⟩

theorem wit_UnsealVerdicts_0_c : ∃ (s : State) (r : JobRef) (j : Job) (resent : Nat),
    running s r Op.unseal = some j ∧
    lanesDiffer j = false ∧
    resent < 3 ∧
    Tidy s ∧
    (s.fn r.fn).log = none ∧
    headerRefusal j.entry ((jobSrc j).take 64) j.epoch = none ∧ unsealVerdict j.keyA.clear j.tenant ((jobSrc j).take 64) (jobAad j) ((jobSrc j).drop 64) = false ∧ j.hold = 0 :=
  ⟨pairHolds (openWith (frag16.take 64) 0) (keyed up), sealJob.ref, openWith (frag16.take 64) 0, 0, by decide +kernel⟩

theorem wit_UnsealVerdicts_0_d : ∃ (s : State) (r : JobRef) (j : Job) (resent : Nat),
    running s r Op.unseal = some j ∧
    lanesDiffer j = false ∧
    resent < 3 ∧
    Tidy s ∧
    (s.fn r.fn).log = none ∧
    headerRefusal j.entry ((jobSrc j).take 64) j.epoch = none ∧ unsealVerdict j.keyA.clear j.tenant ((jobSrc j).take 64) (jobAad j) ((jobSrc j).drop 64) = false ∧ j.hold ≠ 0 :=
  ⟨pairHolds ({ openWith (frag16.take 64) 1 with hold := 16 }) (keyed up), sealJob.ref, { openWith (frag16.take 64) 1 with hold := 16 }, 0, by decide +kernel⟩

theorem wit_ChecksAndRawComplete_0 : ∃ (s : State) (r : JobRef) (j : Job) (resent : Nat),
    running s r Op.checkGen = some j ∧
    lanesDiffer j = false ∧
    resent < 3 :=
  ⟨pairHolds (chkJob 0x18) (keyed up), sealJob.ref, chkJob 0x18, 1, by decide +kernel⟩

theorem wit_ChecksAndRawComplete_1 : ∃ (s : State) (r : JobRef) (j : Job),
    running s r Op.checkVerify = some j ∧
    lanesDiffer j = false :=
  ⟨pairHolds (chkJob 0x19) (keyed up), sealJob.ref, chkJob 0x19, by decide +kernel⟩

theorem wit_ChecksAndRawComplete_2_a : ∃ (s : State) (i : Instr) (r : JobRef) (j : Job) (resent : Nat) (op : Nat),
    running s r op = some j ∧
    lanesDiffer j = false ∧
    resent < 3 ∧
    ((i = .rawEncrypt r resent ∧ op = Op.rawEncrypt ∨ i = .rawDecrypt r resent ∧ op = Op.rawDecrypt)) :=
  ⟨pairHolds (rawJob 0x20 0x70000) (keyed up), .rawEncrypt sealJob.ref 1, sealJob.ref, rawJob 0x20 0x70000, 1, 0x20, by decide +kernel⟩

theorem wit_ChecksAndRawComplete_2_b : ∃ (s : State) (i : Instr) (r : JobRef) (j : Job) (resent : Nat) (op : Nat),
    running s r op = some j ∧
    lanesDiffer j = false ∧
    resent < 3 ∧
    ((i = .rawEncrypt r resent ∧ op = Op.rawEncrypt ∨ i = .rawDecrypt r resent ∧ op = Op.rawDecrypt)) :=
  ⟨pairHolds (rawJob 0x21 0) (keyed up), .rawDecrypt sealJob.ref 1, sealJob.ref, rawJob 0x21 0, 1, 0x21, by decide +kernel⟩

theorem wit_ChecksAndRawComplete_3 : ∃ (key : Bytes),
    ((key.length = 16 ∨ key.length = 24 ∨ key.length = 32)) :=
  ⟨Bytes.zeros 16, by decide +kernel⟩

theorem wit_DispatchCommitsToAPair_0 : ∃ (s : State) (p : Nat) (j : Job) (step : Nat),
    pairTurn (noteLeaseWaits s) p = true ∧
    pick (noteLeaseWaits s) p = some (j, step) ∧
    p < s.fab.pairs.length ∧
    (s.pair p).st.full = true :=
  ⟨readyUp, 0, sealJob, 3, by decide +kernel⟩

theorem wit_DispatchCommitsToAPair_1_a : ∃ (s : State) (p : Nat) (j : Job) (step : Nat),
    pairTurn (noteLeaseWaits s) p = true ∧
    pick (noteLeaseWaits s) p = some (j, step) :=
  ⟨{ readyUp with jobs := [{ sealJob with refetched := false }] }, 0, { sealJob with refetched := false }, 3, by decide +kernel⟩

theorem wit_DispatchCommitsToAPair_1_b : ∃ (s : State) (p : Nat) (j : Job) (step : Nat),
    pairTurn (noteLeaseWaits s) p = true ∧
    pick (noteLeaseWaits s) p = some (j, step) :=
  ⟨{ readyUp with jobs := [{ sealJob with refetched := true }] }, 0, { sealJob with refetched := true }, 3, by decide +kernel⟩

theorem wit_DispatchCommitsToAPair_3 : ∃ (s : State) (j : Job),
    s.rng.fills.length < 16 ∧
    firstJob (noteLeaseWaits s) ((noteLeaseWaits s).jobs.filter fun j => decide (j.op = Op.rngFill) && mayDispatch (noteLeaseWaits s) j)
      = some j :=
  ⟨with1 fillWait up, fillWait, by decide +kernel⟩

theorem wit_FaultsFenceAndRetrySettles_0_a : ∃ (s : State) (p : Nat),
    p < s.fab.pairs.length ∧
    ((s.pair p).st.full || (s.pair p).st.half) = true :=
  ⟨pairHolds (onPair sealJob) (keyed up), 0, by decide +kernel⟩

theorem wit_FaultsFenceAndRetrySettles_0_b : ∃ (s : State) (p : Nat),
    p < s.fab.pairs.length ∧
    ((s.pair p).st.full || (s.pair p).st.half) = true :=
  ⟨modPair 2 (fun x => { x with st := .halfA }) up, 2, by decide +kernel⟩

theorem wit_FaultsFenceAndRetrySettles_1_a : ∃ (s : State) (p : Nat),
    p < s.fab.pairs.length ∧
    (s.pair p).st = .fenced :=
  ⟨modPair 2 (fun x => { x with st := .fenced, nested := 0 }) up, 2, by decide +kernel⟩

theorem wit_FaultsFenceAndRetrySettles_1_b : ∃ (s : State) (p : Nat),
    p < s.fab.pairs.length ∧
    (s.pair p).st = .fenced :=
  ⟨modPair 2 (fun x => { x with st := .fenced, nested := 1 }) up, 2, by decide +kernel⟩

theorem wit_FaultsFenceAndRetrySettles_2_a : ∃ (s : State) (r : JobRef) (j : Job),
    s.job? r = some j ∧
    j.withdrawn = true ∧
    j.outcome = none ∧
    (s.fn r.fn).aqBusy = false ∧
    (((retryEnd s j).isSome = true ∨ presentsAgain s j = none)) :=
  ⟨with1 retryJob (keyed up), sealJob.ref, retryJob, by decide +kernel⟩

theorem wit_FaultsFenceAndRetrySettles_2_b : ∃ (s : State) (r : JobRef) (j : Job),
    s.job? r = some j ∧
    j.withdrawn = true ∧
    j.outcome = none ∧
    (s.fn r.fn).aqBusy = false ∧
    (((retryEnd s j).isSome = true ∨ presentsAgain s j = none)) :=
  ⟨with1 { retryJob with attempts := 3 } (keyed up), sealJob.ref, { retryJob with attempts := 3 }, by decide +kernel⟩

theorem wit_FaultsFenceAndRetrySettles_3_a : ∃ (s : State) (r : JobRef) (j : Job),
    s.job? r = some j ∧
    j.withdrawn = true ∧
    j.outcome = none ∧
    retryEnd s j = none ∧
    (s.fn r.fn).aqBusy = false ∧
    ((j.stop.isSome = true ∨ expired s j = true)) ∧
    j.silent = false ∧
    j.ended = false ∧
    j.reads ≠ .outstanding ∧
    (s.fn r.fn).run ≠ .resetting ∧
    onCore r s = false :=
  ⟨with1 { retryJob with stop := some { status := 0x41 } } (keyed up), sealJob.ref, { retryJob with stop := some { status := 0x41 } }, by decide +kernel⟩

theorem wit_FaultsFenceAndRetrySettles_3_b : ∃ (s : State) (r : JobRef) (j : Job),
    s.job? r = some j ∧
    j.withdrawn = true ∧
    j.outcome = none ∧
    retryEnd s j = none ∧
    (s.fn r.fn).aqBusy = false ∧
    ((j.stop.isSome = true ∨ expired s j = true)) ∧
    j.silent = false ∧
    j.ended = false ∧
    j.reads ≠ .outstanding ∧
    (s.fn r.fn).run ≠ .resetting ∧
    onCore r s = false :=
  ⟨{ with1 retryJob (keyed up) with clock := { up.clock with meridian := 400 * second } }, sealJob.ref, retryJob, by decide +kernel⟩

theorem wit_FaultsFenceAndRetrySettles_4 : ∃ (s : State) (r : JobRef) (j : Job) (d : Done),
    s.job? r = some j ∧
    j.withdrawn = true ∧
    j.outcome = none ∧
    (s.fn r.fn).aqBusy = false ∧
    retryEnd s j = none ∧
    j.stop = some d ∧
    j.silent = true :=
  ⟨with1 { retryJob with stop := some { status := 0x10, detail := 5 }, silent := true } (keyed up), sealJob.ref, { retryJob with stop := some { status := 0x10, detail := 5 }, silent := true }, { status := 0x10, detail := 5 }, by decide +kernel⟩

theorem wit_FaultsFenceAndRetrySettles_5_a : ∃ (s : State) (r : JobRef) (j : Job),
    s.job? r = some j ∧
    r.jq ≠ 0 ∧
    expired s j = true ∧
    (s.fn r.fn).run ≠ .resetting ∧
    j.outcome = none ∧
    j.ended = false ∧
    j.claim = true :=
  ⟨{ with1 retryJob (keyed up) with clock := { up.clock with meridian := 400 * second } }, sealJob.ref, retryJob, by decide +kernel⟩

theorem wit_FaultsFenceAndRetrySettles_5_b : ∃ (s : State) (r : JobRef) (j : Job),
    s.job? r = some j ∧
    r.jq ≠ 0 ∧
    expired s j = true ∧
    (s.fn r.fn).run ≠ .resetting ∧
    j.outcome = none ∧
    j.ended = false ∧
    j.claim = true :=
  ⟨{ with1 { retryJob with stop := some { status := 0x41 } } (keyed up) with clock := { up.clock with meridian := 400 * second } }, sealJob.ref, { retryJob with stop := some { status := 0x41 } }, by decide +kernel⟩

theorem wit_KatVerdictDecidesTheRole_0_a : ∃ (s : State) (p : Nat),
    p < s.fab.pairs.length ∧
    (s.pair p).st = .fenced ∧
    (s.pair p).leaving = none :=
  ⟨modPair 1 (fun x => { x with st := .fenced, role := .bulk, fences := [64 * second] }) up, 1, by decide +kernel⟩

theorem wit_KatVerdictDecidesTheRole_0_b : ∃ (s : State) (p : Nat),
    p < s.fab.pairs.length ∧
    (s.pair p).st = .fenced ∧
    (s.pair p).leaving = none :=
  ⟨modPair 1 (fun x => { x with st := .fenced, role := .bulk, fences := [64 * second] }) up, 1, by decide +kernel⟩

theorem wit_KatVerdictDecidesTheRole_0_c : ∃ (s : State) (p : Nat),
    p < s.fab.pairs.length ∧
    (s.pair p).st = .fenced ∧
    (s.pair p).leaving = none :=
  ⟨modPair 1 (fun x => { x with st := .fenced, role := .bulk, fences := [64 * second] }) up, 1, by decide +kernel⟩

theorem wit_KatVerdictDecidesTheRole_0_d : ∃ (s : State) (p : Nat),
    p < s.fab.pairs.length ∧
    (s.pair p).st = .fenced ∧
    (s.pair p).leaving = none :=
  ⟨modPair 1 (fun x => { x with st := .fenced, role := .bulk, nested := 1, fences := [64 * second] }) up, 1, by decide +kernel⟩

theorem wit_KatVerdictDecidesTheRole_0_e : ∃ (s : State) (p : Nat),
    p < s.fab.pairs.length ∧
    (s.pair p).st = .fenced ∧
    (s.pair p).leaving = none :=
  ⟨modPair 1 (fun x => { x with st := .fenced, role := .bulk, spent := true, fences := [64 * second] }) up, 1, by decide +kernel⟩

theorem wit_KatVerdictDecidesTheRole_0_f : ∃ (s : State) (p : Nat),
    p < s.fab.pairs.length ∧
    (s.pair p).st = .fenced ∧
    (s.pair p).leaving = none :=
  ⟨modPair 1 (fun x => { x with st := .fenced, role := .halfA, fences := [64 * second] }) up, 1, by decide +kernel⟩

theorem wit_KatVerdictDecidesTheRole_1_a : ∃ (s : State) (p : Nat) (q : Nat) (old : PairState),
    p < s.fab.pairs.length ∧
    q < s.fab.pairs.length ∧
    q < 10 ∧
    q ≠ p ∧
    (s.pair p).st = .fenced ∧
    (s.pair q).st ≠ .fenced ∧
    (s.pair q).stands = [(p, old)] ∧
    (s.pair q).leaving = none :=
  ⟨modPair 7 (fun x => { x with st := .bulk, stands := [(1, .spare)], jobs := [] }) (modPair 1 (fun x => { x with st := .fenced, role := .bulk, fences := [64 * second] }) up), 1, 7, .spare, by decide +kernel⟩

theorem wit_KatVerdictDecidesTheRole_1_b : ∃ (s : State) (p : Nat) (q : Nat) (old : PairState),
    p < s.fab.pairs.length ∧
    q < s.fab.pairs.length ∧
    q < 10 ∧
    q ≠ p ∧
    (s.pair p).st = .fenced ∧
    (s.pair q).st ≠ .fenced ∧
    (s.pair q).stands = [(p, old)] ∧
    (s.pair q).leaving = none :=
  ⟨modPair 7 (fun x => { x with st := .bulk, stands := [(1, .spare)], jobs := [sealJob.ref] }) (modPair 1 (fun x => { x with st := .fenced, role := .bulk, fences := [64 * second] }) up), 1, 7, .spare, by decide +kernel⟩

theorem wit_KatVerdictDecidesTheRole_1_c : ∃ (s : State) (p : Nat) (q : Nat) (old : PairState),
    p < s.fab.pairs.length ∧
    q < s.fab.pairs.length ∧
    q < 10 ∧
    q ≠ p ∧
    (s.pair p).st = .fenced ∧
    (s.pair q).st ≠ .fenced ∧
    (s.pair q).stands = [(p, old)] ∧
    (s.pair q).leaving = none :=
  ⟨modPair 7 (fun x => { x with st := .bulk, stands := [(1, .spare)] }) (modPair 1 (fun x => { x with st := .fenced, role := .bulk, fences := [64 * second] }) up), 1, 7, .spare, by decide +kernel⟩

theorem wit_KatVerdictDecidesTheRole_2_a : ∃ (x : Pair),
    x.spent = false ∧
    x.nested = 0 ∧
    ((x.role = .bulk ∨ x.role = .urgent)) :=
  ⟨{ st := .fenced, role := .bulk }, by decide +kernel⟩

theorem wit_KatVerdictDecidesTheRole_2_b : ∃ (x : Pair),
    x.spent = false ∧
    x.nested = 0 ∧
    ((x.role = .bulk ∨ x.role = .urgent)) :=
  ⟨{ st := .fenced, role := .urgent }, by decide +kernel⟩

theorem wit_KatVerdictDecidesTheRole_3 : ∃ (s : State) (p : Nat),
    (s.pair p).st = .spare :=
  ⟨up, 7, by decide +kernel⟩

theorem wit_KatVerdictDecidesTheRole_4 : ∃ (s : State) (p : Nat),
    p < s.fab.pairs.length ∧
    (s.pair p).st = .spare :=
  ⟨up, 7, by decide +kernel⟩

theorem wit_CreditsVoltageAndSeeds_0 : ∃ (s : State),
    s.secureRuns = true :=
  ⟨with1 sealJob (keyed up), by decide +kernel⟩

theorem wit_CreditsVoltageAndSeeds_1 : ∃ (s : State) (cycle : Nat),
    s.secureRuns = true ∧
    s.avsOn = true ∧
    s.fab.decHold = false ∧
    s.fab.vdd ≠ avsStep s.dummyRate s.avsTarget cycle s.fab.vdd :=
  ⟨{ up with dict := { force := [(objKey 0x3000 0x10, [1])] } }, 1500, by decide +kernel⟩

theorem wit_CreditsVoltageAndSeeds_2 : ∃ (s : State),
    s.secureRuns = true ∧
    s.avsOn = false :=
  ⟨{ up with dict := { force := [(objKey 0x3000 0x10, [0])] } }, by decide +kernel⟩

theorem wit_CreditsVoltageAndSeeds_3 : ∃ (s : State) (cycle : Nat),
    s.avsOn = true ∧
    cycle > 1780 ∧
    s.fab.vdd < 900 :=
  ⟨{ up with dict := { force := [(objKey 0x3000 0x10, [1])] } }, 1781, by decide +kernel⟩

theorem wit_CreditsVoltageAndSeeds_4_a : ∃ (s : State) (g : Nat),
    g < s.fab.gens.length :=
  ⟨up, 9, by decide +kernel⟩

theorem wit_CreditsVoltageAndSeeds_4_b : ∃ (s : State) (g : Nat),
    g < s.fab.gens.length :=
  ⟨{ up with fab := { up.fab with gens := List.replicate 14 { served := 1048576 } } }, 13, by decide +kernel⟩

theorem wit_CreditsVoltageAndSeeds_5 : ∃ (s : State) (n : Nat) (p : Nat),
    (s.slot n).pendingP = some p :=
  ⟨setSlot 64 { slot64 with pendingP := some 99 } up, 64, 99, by decide +kernel⟩

theorem wit_CreditsVoltageAndSeeds_6 : ∃ (s : State) (j : Job) (n : Nat),
    j ∈ s.jobs ∧
    j.charged = false ∧
    mayDispatch s j = true ∧
    leaseOk s j.entry = false ∧
    slotNamed j.entry = some n ∧
    0 < s.lease :=
  ⟨with1 sealJob (setSlot 64 { slot64 with point := 0 } up), sealJob, 64, by decide +kernel⟩

theorem wit_DispatchCommitsToAPair_2 : ∃ (s : State) (j : Job),
    s.pkFree ≠ 0 ∧
    s.quiesced Block.pk = false ∧
    pkPick (noteLeaseWaits s) = some j :=
  ⟨{ signUp with jobs := [pkWait], pk := { signUp.pk with queue := [] } }, pkWait, by decide +kernel⟩

theorem wit_WindowsAndGenerator_0 : ∃ (s : State) (src : Nat) (x : Source),
    s.rng.sources[src]? = some x ∧
    s.rng.enabled = true ∧
    x.first = true ∧
    NothingWaits s :=
  ⟨{ up with rng := { up.rng with sources := { first := true } :: up.rng.sources.drop 1 } }, 0, { first := true }, by decide +kernel⟩

theorem wit_WindowsAndGenerator_1_a : ∃ (s : State) (src : Nat) (x : Source),
    s.rng.sources[src]? = some x ∧
    s.rng.enabled = true ∧
    x.first = false ∧
    s.rng.restart = false ∧
    NothingWaits s :=
  ⟨{ up with rng := { up.rng with sources := { first := false } :: up.rng.sources.drop 1 } }, 0, { first := false }, by decide +kernel⟩

theorem wit_WindowsAndGenerator_1_b : ∃ (s : State) (src : Nat) (x : Source),
    s.rng.sources[src]? = some x ∧
    s.rng.enabled = true ∧
    x.first = false ∧
    s.rng.restart = false ∧
    NothingWaits s :=
  ⟨{ up with rng := { up.rng with sources := { first := false } :: up.rng.sources.drop 1 } }, 0, { first := false }, by decide +kernel⟩

theorem wit_WindowsAndGenerator_2 : ∃ (s : State) (c : Consumer),
    s.rng.seeded = true ∧
    consumer s = some c ∧
    reseedDue s = false ∧
    repeats s.rng.last (generate s).1 = false ∧
    NothingWaits s :=
  ⟨up, .salts, by decide +kernel⟩

theorem wit_WindowsAndGenerator_3 : ∃ (s : State) (c : Consumer) (w : Bytes) (rest : List Bytes),
    s.rng.seeded = true ∧
    consumer s = some c ∧
    reseedDue s = true ∧
    s.rng.pool = w :: rest ∧
    NothingWaits s :=
  ⟨rngUp up fun r => { r with requests := 65536, pool := [List.replicate 512 1#8] }, .salts, List.replicate 512 1#8, [], by decide +kernel⟩

theorem wit_WindowsAndGenerator_4 : ∃ (s : State) (c : Consumer),
    s.rng.seeded = true ∧
    consumer s = some c ∧
    s.rng.requests ≥ 65536 ∧
    s.rng.pool = [] ∧
    NothingWaits s :=
  ⟨rngUp up fun r => { r with requests := 65536 }, .salts, by decide +kernel⟩

theorem wit_WindowsAndGenerator_5 : ∃ (s : State) (w : Bytes) (rest : List Bytes),
    s.rng.pool = w :: rest ∧
    s.rng.waiting = true ∧
    NothingWaits s :=
  ⟨rngUp up fun r => { r with requests := 65536, waiting := true, pool := [List.replicate 512 1#8] }, List.replicate 512 1#8, [], by decide +kernel⟩

theorem wit_WindowsAndGenerator_6 : ∃ (s : State),
    s.rng.seeded = true ∧
    NothingWaits s :=
  ⟨up, by decide +kernel⟩

theorem wit_WindowsAndGenerator_7 : ∃ (s : State),
    s.rng.seeded = false :=
  ⟨rngUp up fun r => { r with seeded := false }, by decide +kernel⟩

theorem wit_RandomBytesReachTheHost_0 : ∃ (s : State) (r : JobRef) (j : Job),
    s.job? r = some j ∧
    j.op = Op.rngFill ∧
    j.engine = .random ∧
    j.outcome = none ∧
    rngLen j.entry ≤ j.work.length ∧
    Tidy s ∧
    (s.fn r.fn).log = none :=
  ⟨with1 fillJob up, fillJob.ref, fillJob, by decide +kernel⟩

theorem wit_RandomBytesReachTheHost_1_a : ∃ (s : State) (f : Nat) (off : Nat) (en : List Bool),
    s.pageOpen f = true ∧
    s.life.lc ≠ .decommissioned ∧
    RngReadForm off en ∧
    (s.fn f).rngStall = [] ∧
    en.countP id ≤ (s.fn f).rngBuf.length :=
  ⟨setPf (fun g => { g with rngBuf := List.replicate 64 7#8 }) up, 0, 0x7C0, List.replicate 64 true, by decide +kernel⟩

theorem wit_RandomBytesReachTheHost_1_b : ∃ (s : State) (f : Nat) (off : Nat) (en : List Bool),
    s.pageOpen f = true ∧
    s.life.lc ≠ .decommissioned ∧
    RngReadForm off en ∧
    (s.fn f).rngStall = [] ∧
    en.countP id ≤ (s.fn f).rngBuf.length :=
  ⟨setPf (fun g => { g with rngBuf := List.replicate 64 7#8 }) up, 0, 0x7FC, [false, true, true, false], by decide +kernel⟩

theorem wit_RandomBytesReachTheHost_2 : ∃ (s : State) (f : Nat) (off : Nat) (en : List Bool),
    s.pageOpen f = true ∧
    s.life.lc ≠ .decommissioned ∧
    RngReadForm off en ∧
    (s.fn f).rngStall = [] ∧
    (s.fn f).rngBuf.length < en.countP id :=
  ⟨setPf (fun g => { g with rngBuf := [7, 8] }) up, 0, 0, List.replicate 4 true, by decide +kernel⟩

theorem wit_RandomBytesReachTheHost_3_a : ∃ (s : State) (f : Nat) (off : Nat) (en : List Bool),
    s.pageOpen f = true ∧
    s.life.lc ≠ .decommissioned ∧
    ¬ RngReadForm off en :=
  ⟨setPf (fun g => { g with rngBuf := List.replicate 64 7#8 }) up, 0, 2, List.replicate 4 true, by decide +kernel⟩

theorem wit_RandomBytesReachTheHost_3_b : ∃ (s : State) (f : Nat) (off : Nat) (en : List Bool),
    s.pageOpen f = true ∧
    s.life.lc ≠ .decommissioned ∧
    ¬ RngReadForm off en :=
  ⟨setPf (fun g => { g with rngBuf := List.replicate 64 7#8 }) up, 0, 2044, List.replicate 8 true, by decide +kernel⟩

theorem wit_RandomBytesReachTheHost_3_c : ∃ (s : State) (f : Nat) (off : Nat) (en : List Bool),
    s.pageOpen f = true ∧
    s.life.lc ≠ .decommissioned ∧
    ¬ RngReadForm off en :=
  ⟨setPf (fun g => { g with rngBuf := List.replicate 64 7#8 }) up, 0, 0, List.replicate 68 true, by decide +kernel⟩

theorem wit_RandomBytesReachTheHost_3_d : ∃ (s : State) (f : Nat) (off : Nat) (en : List Bool),
    s.pageOpen f = true ∧
    s.life.lc ≠ .decommissioned ∧
    ¬ RngReadForm off en :=
  ⟨setPf (fun g => { g with rngBuf := List.replicate 64 7#8 }) up, 0, 60, List.replicate 8 true, by decide +kernel⟩

theorem wit_RandomBytesReachTheHost_4 : ∃ (s : State) (f : Nat),
    s.vfIdle f = true ∧
    s.life.lc ≠ .decommissioned :=
  ⟨up, 2, by decide +kernel⟩

theorem wit_RandomBytesReachTheHost_5_a : ∃ (s : State) (f : Nat),
    ((s.life.lc = .decommissioned ∨ (s.pageOpen f = false ∧ s.vfIdle f = false))) :=
  ⟨{ up with life := { up.life with lc := .decommissioned } }, 0, by decide +kernel⟩

theorem wit_RandomBytesReachTheHost_5_b : ∃ (s : State) (f : Nat),
    ((s.life.lc = .decommissioned ∨ (s.pageOpen f = false ∧ s.vfIdle f = false))) :=
  ⟨setPf (fun g => { g with run := .d3hot }) up, 0, by decide +kernel⟩

theorem wit_RandomBytesReachTheHost_6 : ∃ (s : State) (f : Nat) (r : StalledRead) (rest : List StalledRead),
    (s.fn f).rngStall = r :: rest ∧
    elapsedUs s.now r.since (s.param 0x3100 4 5000) = true :=
  ⟨setPf (fun g => { g with rngStall := [{ got := [], need := 4, since := 0 }] }) up, 0, { got := [], need := 4, since := 0 }, [], by decide +kernel⟩

theorem wit_PkResultsAreHeldUntilTheFinish_0 : ∃ (s : State) (r : JobRef) (j : Job),
    computing s r Op.pkSign = some j :=
  ⟨onCore0 (pkJob 0x40 [(0x14, 4, 0x09)]) up, (pkJob 0 []).ref, pkJob 0x40 [(0x14, 4, 0x09)], by decide +kernel⟩

theorem wit_PkResultsAreHeldUntilTheFinish_1 : ∃ (s : State) (r : JobRef) (j : Job),
    computing s r Op.pkVerify = some j :=
  ⟨onCore0 (pkJob 0x41 [(0x14, 4, 0x09)]) up, (pkJob 0 []).ref, pkJob 0x41 [(0x14, 4, 0x09)], by decide +kernel⟩

theorem wit_PkResultsAreHeldUntilTheFinish_2 : ∃ (s : State) (r : JobRef) (j : Job),
    computing s r Op.pkKeygen = some j :=
  ⟨onCore0 (pkJob 0x42 [(0x14, 4, 0x09)]) up, (pkJob 0 []).ref, pkJob 0x42 [(0x14, 4, 0x09)], by decide +kernel⟩

theorem wit_PkResultsAreHeldUntilTheFinish_3 : ∃ (s : State) (r : JobRef) (j : Job),
    computing s r Op.pkAgree = some j :=
  ⟨onCore0 (pkJob 0x43 [(0x14, 4, 0x09)]) up, (pkJob 0 []).ref, pkJob 0x43 [(0x14, 4, 0x09)], by decide +kernel⟩

theorem wit_PkResultsAreHeldUntilTheFinish_4 : ∃ (s : State) (r : JobRef) (j : Job),
    computing s r Op.pkEncaps = some j :=
  ⟨onCore0 (pkJob 0x44 [(0x14, 4, 0x09)]) up, (pkJob 0 []).ref, pkJob 0x44 [(0x14, 4, 0x09)], by decide +kernel⟩

theorem wit_PkResultsAreHeldUntilTheFinish_5 : ∃ (s : State) (r : JobRef) (j : Job),
    computing s r Op.pkDecaps = some j :=
  ⟨onCore0 (pkJob 0x45 [(0x14, 4, 0x09)]) up, (pkJob 0 []).ref, pkJob 0x45 [(0x14, 4, 0x09)], by decide +kernel⟩

theorem wit_PkResultsAreHeldUntilTheFinish_0_b : ∃ (s : State) (r : JobRef) (j : Job),
    computing s r Op.pkSign = some j :=
  ⟨onCore0 edJob up, edJob.ref, edJob, by decide +kernel⟩

theorem wit_PkResultsAreHeldUntilTheFinish_6_a : ∃ (j : Job) (s : State) (p : PkResult), signResult j s = some p ∧
    (pkAlg j.entry = rsa ∨ isP (pkAlg j.entry) = true ∨ isEd (pkAlg j.entry) = true) :=
  ⟨rsaJob, up, _, rfl, by decide +kernel⟩

theorem edJob_signs : (signResult edJob up).isSome = true := by decide +kernel

theorem wit_PkResultsAreHeldUntilTheFinish_6_b : ∃ (j : Job) (s : State) (p : PkResult), signResult j s = some p ∧
    (pkAlg j.entry = rsa ∨ isP (pkAlg j.entry) = true ∨ isEd (pkAlg j.entry) = true) :=
  have ⟨p, h⟩ := Option.isSome_iff_exists.mp edJob_signs
  ⟨edJob, up, p, h, by decide +kernel⟩

theorem probablyPrime_bases (n : Nat) (h : ∀ b < n - 3, probablyPrime [b] n = true) (hn : 3 < n) (l : List Nat) :
    probablyPrime l n = true := by
  simp only [probablyPrime, hn, decide_true, Bool.true_and, List.all_eq_true]
  intro b _
  have := h (b % (n - 3)) (Nat.mod_lt _ (by omega))
  simpa [probablyPrime, hn] using this

theorem smallRsa_primes : freshPrimes 16 smallRsa.draws = some (191, 241) := by
  have h1 := probablyPrime_bases 191 small_primes.1 (by decide)
  have h2 := probablyPrime_bases 241 small_primes.2 (by decide)
  simp [freshPrimes, drawPrimes, drawUntil, primeCandidate, smallRsa, Bytes.toBE, Option.filter, h1, h2]

theorem wit_PkResultsAreHeldUntilTheFinish_8 : ∃ (j : Job) (s : State) (p : PkResult), keygenResult j s = some p ∧ pkAlg j.entry = rsa :=
  ⟨smallRsa, up, _, by
    have h : pkAlg smallRsa.entry = rsa ∧ modBits smallRsa.entry = 16 := by decide +kernel
    rw [keygenResult, if_pos h.1, h.2, smallRsa_primes]; rfl, by decide +kernel⟩

theorem wit_CoreTakesAJob_0_a : ∃ (s : State) (c : Nat) (j : Job),
    c < s.pk.cores.length ∧
    (s.core c).st = .active ∧
    (s.core c).cur = none ∧
    s.quiesced Block.pk = false ∧
    resumeDue s (s.core c) = false ∧
    s.job? j.ref = some j ∧
    corePick s ((startable s).filter (mayTake s c)) = some j ∧
    keysDiffer (present j s).1 = false ∧ inputRefusal (present j s).1 s.debug = none :=
  ⟨queuedUp (agreeJob 9), 0, agreeJob 9, by decide +kernel⟩

theorem wit_CoreTakesAJob_0_b : ∃ (s : State) (c : Nat) (j : Job),
    c < s.pk.cores.length ∧
    (s.core c).st = .active ∧
    (s.core c).cur = none ∧
    s.quiesced Block.pk = false ∧
    resumeDue s (s.core c) = false ∧
    s.job? j.ref = some j ∧
    corePick s ((startable s).filter (mayTake s c)) = some j ∧
    (keysDiffer (present j s).1 = false ∧ inputRefusal (present j s).1 s.debug ≠ none ∧ ∀ x ∈ s.pk.cores, x.holds j.ref = false) :=
  ⟨queuedUp (agreeJob 0), 0, agreeJob 0, by decide +kernel⟩

theorem wit_CoreTakesAJob_0_c : ∃ (s : State) (c : Nat) (j : Job),
    c < s.pk.cores.length ∧
    (s.core c).st = .active ∧
    (s.core c).cur = none ∧
    s.quiesced Block.pk = false ∧
    resumeDue s (s.core c) = false ∧
    s.job? j.ref = some j ∧
    corePick s ((startable s).filter (mayTake s c)) = some j ∧
    (keysDiffer (present j s).1 = true ∧ ∀ x ∈ s.pk.cores, x.holds j.ref = false) :=
  ⟨setSlot 64 { slot64 with b := { keyCopy with key := otherKey } } (queuedUp (agreeJob 10)), 0, agreeJob 10, by decide +kernel⟩

theorem wit_CoreTakesAJob_1 : ∃ (s : State) (c : Nat) (r : JobRef),
    c < s.pk.cores.length ∧
    (s.core c).st = .active ∧
    (s.core c).cur = none ∧
    s.quiesced Block.pk = false ∧
    (s.core c).parked = some r ∧
    resumeDue s (s.core c) = true :=
  ⟨{ with1 rsaJob up with pk := { cores := [{ st := .active, parked := some rsaJob.ref }] } }, 0, rsaJob.ref, by decide +kernel⟩

theorem wit_CoresYieldFinishAndFail_0 : ∃ (s : State) (c : Nat) (j : Job) (d : Done),
    (s.core c).cur.bind s.job? = some j ∧
    j.stop = some d ∧
    j.silent = false ∧
    (s.fn j.ref.fn).aqBusy = false :=
  ⟨onCore0 { signJob with stop := some { status := 0x12, detail := 0x02 } } up, 0, { signJob with stop := some { status := 0x12, detail := 0x02 } }, { status := 0x12, detail := 0x02 }, by decide +kernel⟩

theorem wit_CoresYieldFinishAndFail_1 : ∃ (s : State) (c : Nat) (j : Job),
    (s.core c).cur.bind s.job? = some j ∧
    j.stop = none ∧
    (j.result.isNone && mayPark s c (s.core c) j) = false :=
  ⟨onCore0 signJob up, 0, signJob, by decide +kernel⟩

theorem wit_CoresYieldFinishAndFail_2 : ∃ (s : State) (c : Nat) (j : Job),
    c < s.pk.cores.length ∧
    (s.core c).cur.bind s.job? = some j ∧
    j.stop = none ∧
    (j.result.isNone && mayPark s c (s.core c) j) = true :=
  ⟨longUp, 0, rsaJob, by decide +kernel⟩

theorem wit_CoresYieldFinishAndFail_3 : ∃ (s : State) (c : Nat) (j : Job) (p : PkResult) (q : CompQueue),
    (s.core c).cur.bind s.job? = some j ∧
    j.stop = none ∧
    j.result = some p ∧
    p.check = none ∧
    j.ref.jq ≠ subQueue ∧
    s.cq? j.ref.fn (s.cqOf j.ref) = some q :=
  ⟨onCore0 { signJob with result := some { done := { status := 0x00, r0 := 96 }, out0 := List.replicate 96 2#8, check := none } } (withJq { log4 with pi := 2, entries := [{ index := 0, len := 2, done := false }] } up), 0, { signJob with result := some { done := { status := 0x00, r0 := 96 }, out0 := List.replicate 96 2#8, check := none } }, { done := { status := 0x00, r0 := 96 }, out0 := List.replicate 96 2#8, check := none }, cq4, by decide +kernel⟩

theorem wit_CoresYieldFinishAndFail_4 : ∃ (s : State) (c : Nat) (d : Nat) (j : Job) (p : PkResult),
    c < s.pk.cores.length ∧
    (s.core c).st = .active ∧
    (s.core c).cur.bind s.job? = some j ∧
    j.stop = none ∧
    j.result = some p ∧
    p.check = some d ∧
    (s.fn j.ref.fn).aqBusy = false :=
  ⟨onCore0 { signJob with result := some { done := { status := 0x00, r0 := 96 }, out0 := List.replicate 96 2#8, check := some 1 } } (withJq { log4 with pi := 2, entries := [{ index := 0, len := 2, done := false }] } up), 0, 1, { signJob with result := some { done := { status := 0x00, r0 := 96 }, out0 := List.replicate 96 2#8, check := some 1 } }, { done := { status := 0x00, r0 := 96 }, out0 := List.replicate 96 2#8, check := some 1 }, by decide +kernel⟩

theorem wit_CoresYieldFinishAndFail_5_a : ∃ (s : State) (c : Nat) (detail : Nat),
    c < s.pk.cores.length ∧
    (s.core c).st = .active ∧
    (s.core c).cur.bind s.job? = none ∧
    ((detail = 0 ∨ detail = 8)) :=
  ⟨up, 3, 0, by decide +kernel⟩

theorem wit_CoresYieldFinishAndFail_5_b : ∃ (s : State) (c : Nat) (detail : Nat),
    c < s.pk.cores.length ∧
    (s.core c).st = .active ∧
    (s.core c).cur.bind s.job? = none ∧
    ((detail = 0 ∨ detail = 8)) :=
  ⟨up, 3, 8, by decide +kernel⟩

theorem wit_CoresYieldFinishAndFail_6_a : ∃ (s : State) (c : Nat) (detail : Nat) (j : Job),
    c < s.pk.cores.length ∧
    (s.core c).st = .active ∧
    (s.core c).cur.bind s.job? = some j ∧
    detail ∈ checksOf j.entry ∧
    j.stop = none ∧
    (s.fn j.ref.fn).aqBusy = false :=
  ⟨onCore0 { signJob with restarts := 0 } up, 0, 1, { signJob with restarts := 0 }, by decide +kernel⟩

theorem wit_CoresYieldFinishAndFail_6_b : ∃ (s : State) (c : Nat) (detail : Nat) (j : Job),
    c < s.pk.cores.length ∧
    (s.core c).st = .active ∧
    (s.core c).cur.bind s.job? = some j ∧
    detail ∈ checksOf j.entry ∧
    j.stop = none ∧
    (s.fn j.ref.fn).aqBusy = false :=
  ⟨onCore0 { signJob with restarts := 1 } up, 0, 8, { signJob with restarts := 1 }, by decide +kernel⟩

theorem wit_CoresYieldFinishAndFail_7_a : ∃ (s : State) (c : Nat),
    c < s.pk.cores.length ∧
    (s.core c).st = .testing :=
  ⟨{ up with pk := { cores := [{ st := .testing, faults := [64 * second] }] } }, 0, by decide +kernel⟩

theorem wit_CoresYieldFinishAndFail_7_b : ∃ (s : State) (c : Nat),
    c < s.pk.cores.length ∧
    (s.core c).st = .testing :=
  ⟨{ up with pk := { cores := [{ st := .testing, faults := [64 * second] }] } }, 0, by decide +kernel⟩

theorem wit_CoresYieldFinishAndFail_7_c : ∃ (s : State) (c : Nat),
    c < s.pk.cores.length ∧
    (s.core c).st = .testing :=
  ⟨{ up with pk := { cores := [{ st := .testing, faults := List.replicate 4 (64 * second) }] } }, 0, by decide +kernel⟩

theorem wit_KeysAreCreatedAndRotated_0 : ∃ (s : State) (u : State) (f : Nat) (j : Job) (n : Nat) (key : Bytes),
    s.admin? f Op.keyCreate = some j ∧
    SlotsFree s j ∧
    firstFail (createRows s f j.entry) = none ∧
    fwKey ((j.entry.at_ 0x12).toNat % 32) s = .ok (key, u) ∧
    s.targetSlot (j.entry.leAt 0x10 2) = some n ∧
    s.domainKeys.1 = s.domainKeys.2 :=
  ⟨with1 (vf 0xB0 [(0x10, 2, 64), (0x12, 1, 3), (0x13, 1, 1), (0x18, 6, 1000)]) domUp, drawnState 3 (with1 (vf 0xB0 [(0x10, 2, 64), (0x12, 1, 3), (0x13, 1, 1), (0x18, 6, 1000)]) domUp), 1, vf 0xB0 [(0x10, 2, 64), (0x12, 1, 3), (0x13, 1, 1), (0x18, 6, 1000)], 64, drawnKey 3 (with1 (vf 0xB0 [(0x10, 2, 64), (0x12, 1, 3), (0x13, 1, 1), (0x18, 6, 1000)]) domUp), by decide +kernel, by decide +kernel, by decide +kernel, fwKey_ok (by decide +kernel) (by decide +kernel), by decide +kernel, by decide +kernel⟩

theorem wit_KeysAreCreatedAndRotated_1 : ∃ (s : State) (u : State) (f : Nat) (j : Job),
    s.admin? f Op.keyCreate = some j ∧
    SlotsFree s j ∧
    firstFail (createRows s f j.entry) = none ∧
    fwKey ((j.entry.at_ 0x12).toNat % 32) s = .error u :=
  ⟨with1 (vf 0xB0 [(0x10, 2, 64), (0x12, 1, 3), (0x13, 1, 1), (0x18, 6, 1000)]) { domUp with rng := { domUp.rng with seeded := false, fwBuf := [] } }, drawnState 3 (with1 (vf 0xB0 [(0x10, 2, 64), (0x12, 1, 3), (0x13, 1, 1), (0x18, 6, 1000)]) { domUp with rng := { domUp.rng with seeded := false, fwBuf := [] } }), 1, vf 0xB0 [(0x10, 2, 64), (0x12, 1, 3), (0x13, 1, 1), (0x18, 6, 1000)], by decide +kernel, by decide +kernel, by decide +kernel, fwKey_error (by decide +kernel) (by decide +kernel)⟩

theorem wit_KeysAreCreatedAndRotated_2_a : ∃ (s : State) (u : State) (f : Nat) (j : Job) (key : Bytes),
    s.admin? f Op.keyRotate = some j ∧
    (j.entry.at_ 0x14).toNat % 2 = 0 ∧
    SlotsFree s j ∧
    firstFail (rekeyRows s f j.entry) = none ∧
    s.domainKeys.1 = s.domainKeys.2 ∧
    copiesAgree (s.slot (hSlot (j.entry.leAt 0x10 4))) = true ∧
    fwKey (attrAlg (s.slot (hSlot (j.entry.leAt 0x10 4))).a.attr) s = .ok (key, u) :=
  ⟨with1 (vf 0xB4 [(0x10, 4, 0x10040)]) (own64 domUp), drawnState 3 (with1 (vf 0xB4 [(0x10, 4, 0x10040)]) (own64 domUp)), 1, vf 0xB4 [(0x10, 4, 0x10040)], drawnKey 3 (with1 (vf 0xB4 [(0x10, 4, 0x10040)]) (own64 domUp)), by decide +kernel, by decide +kernel, by decide +kernel, by decide +kernel, by decide +kernel, by decide +kernel, fwKey_ok (by decide +kernel) (by decide +kernel)⟩

theorem wit_KeysAreCreatedAndRotated_2_b : ∃ (s : State) (u : State) (f : Nat) (j : Job) (key : Bytes),
    s.admin? f Op.keyRotate = some j ∧
    (j.entry.at_ 0x14).toNat % 2 = 0 ∧
    SlotsFree s j ∧
    firstFail (rekeyRows s f j.entry) = none ∧
    s.domainKeys.1 = s.domainKeys.2 ∧
    copiesAgree (s.slot (hSlot (j.entry.leAt 0x10 4))) = true ∧
    fwKey (attrAlg (s.slot (hSlot (j.entry.leAt 0x10 4))).a.attr) s = .ok (key, u) :=
  ⟨with1 (vf 0xB4 [(0x10, 4, 0x10040), (0x16, 2, 70)]) (own64 domUp), drawnState 3 (with1 (vf 0xB4 [(0x10, 4, 0x10040), (0x16, 2, 70)]) (own64 domUp)), 1, vf 0xB4 [(0x10, 4, 0x10040), (0x16, 2, 70)], drawnKey 3 (with1 (vf 0xB4 [(0x10, 4, 0x10040), (0x16, 2, 70)]) (own64 domUp)), by decide +kernel, by decide +kernel, by decide +kernel, by decide +kernel, by decide +kernel, by decide +kernel, fwKey_ok (by decide +kernel) (by decide +kernel)⟩

theorem wit_KeysAreCreatedAndRotated_3 : ∃ (s : State) (f : Nat) (j : Job),
    s.admin? f Op.keyRotate = some j ∧
    (j.entry.at_ 0x14).toNat % 2 = 1 ∧
    SlotsFree s j ∧
    firstFail (reattrRows s f j.entry) = none ∧
    s.domainKeys.1 = s.domainKeys.2 ∧
    copiesAgree (s.slot (hSlot (j.entry.leAt 0x10 4))) = true :=
  ⟨with1 (vf 0xB4 [(0x10, 4, 0x10040), (0x14, 1, 1), (0x15, 1, 1), (0x18, 6, 70)]) (own64 domUp), 1, vf 0xB4 [(0x10, 4, 0x10040), (0x14, 1, 1), (0x15, 1, 1), (0x18, 6, 70)], by decide +kernel⟩

theorem domainBlob_same (n : Nat) (c : SlotCopy) (s : State) (h : s.domainKeys.1 = s.domainKeys.2) :
    domainBlob n c c s = some (sideBlob s.domainKeys.1 n c s) := by simp [domainBlob, h]

theorem wit_KeysAreCreatedAndRotated_4 : ∃ (s t : State) (n : Nat) (c : SlotCopy × SlotCopy) (point : Nat),
    placeKey n c point s = some t :=
  ⟨own64 domUp, _, 64, (key7, key7), 77, by
    simp only [placeKey, domainBlob_same _ _ _ (by decide +kernel : (own64 domUp).domainKeys.1 = (own64 domUp).domainKeys.2),
      Option.map_some]; rfl⟩

theorem wit_KeysAreExportedImportedAndErased_0 : ∃ (s : State) (f : Nat) (j : Job) (b : Bytes),
    s.admin? f Op.keyExport = some j ∧ SlotsFree s j ∧ firstFail (exportRows s f j.entry) = none ∧
    exportBlob s (hSlot (j.entry.leAt 0x10 4)) ((j.entry.at_ 0x14).toNat % 2) (j.entry.leAt 0x16 2) = some b :=
  ⟨with1 (vf 0xB2 [(0x10, 4, 0x10040), (0x18, 8, 0x50000), (0x20, 4, 208)]) (own64 domUp), 1, vf 0xB2 [(0x10, 4, 0x10040), (0x18, 8, 0x50000), (0x20, 4, 208)], _, by decide +kernel, by decide +kernel, by decide +kernel, by
    have e : ((vf 0xB2 [(0x10, 4, 0x10040), (0x18, 8, 0x50000), (0x20, 4, 208)]).entry.at_ 0x14).toNat % 2 = 0 ∧ hSlot ((vf 0xB2 [(0x10, 4, 0x10040), (0x18, 8, 0x50000), (0x20, 4, 208)]).entry.leAt 0x10 4) = 64 := by decide +kernel
    have c : ((with1 (vf 0xB2 [(0x10, 4, 0x10040), (0x18, 8, 0x50000), (0x20, 4, 208)]) (own64 domUp)).slot 64).a = key7 ∧ ((with1 (vf 0xB2 [(0x10, 4, 0x10040), (0x18, 8, 0x50000), (0x20, 4, 208)]) (own64 domUp)).slot 64).b = key7 := by decide +kernel
    rw [exportBlob, if_pos e.1, e.2, c.1, c.2]
    exact domainBlob_same _ _ _ (by decide +kernel)⟩

theorem wit_KeysAreExportedImportedAndErased_1 : ∃ (s : State) (f : Nat) (j : Job),
    s.admin? f Op.keyQuery = some j ∧
    slotTaken s j = false ∧
    firstFail (queryRows s f j.entry) = none :=
  ⟨with1 (vf 0xB5 [(0x10, 2, 64), (0x18, 8, 0x50000), (0x20, 4, 64)]) (own64 domUp), 1, vf 0xB5 [(0x10, 2, 64), (0x18, 8, 0x50000), (0x20, 4, 64)], by decide +kernel⟩

/-- A KEY_IMPORT of that blob. -/
def impJob : Job := fed [blob64] (vf 0xB1 [(0x10, 2, 64), (0x14, 4, 152), (0x18, 8, 0x50000)])

theorem impJob_reads (s : State) : impJob.input 0 s = blob64 := rfl

theorem blob64_kind : (blob64.at_ 6).toNat % 2 = 0 := by decide +kernel

theorem impJob_keys : unwrapKeys (withBlob impJob) 0 (impJob.entry.leAt 0x12 2) = (domKeyS, domKeyS, Bytes.zeros 8) := by
  decide +kernel

theorem impJob_blob : firstFail (blobRows (withBlob impJob) 1 impJob.entry blob64) = none := by
  simp only [blobRows, blob64_kind, impJob_keys, blob64_opens]
  decide +kernel

theorem wit_KeysAreExportedImportedAndErased_2 : ∃ (s : State) (f : Nat) (j : Job) (n : Nat) (key : Bytes),
    s.admin? f Op.keyImport = some j ∧ SlotsFree s j ∧ firstFail (importRows s f j.entry) = none ∧ j.reads = .arrived ∧
    firstFail (blobRows s f j.entry (j.input 0 s)) = none ∧
    blobKey (unwrapKeys s (((j.input 0 s).at_ 6).toNat % 2) (j.entry.leAt 0x12 2)).1 (j.input 0 s) = some key ∧
    blobKey (unwrapKeys s (((j.input 0 s).at_ 6).toNat % 2) (j.entry.leAt 0x12 2)).2.1 (j.input 0 s) = some key ∧
    s.domainKeys.1 = s.domainKeys.2 ∧
    (if replacesBad s f (j.entry.leAt 0x10 2) then n = j.entry.leAt 0x10 2 else s.targetSlot (j.entry.leAt 0x10 2) = some n) ∧
    s.jobs.any (holdsSlot n) = false :=
  ⟨withBlob impJob, 1, impJob, 64, key16, by decide +kernel, by decide +kernel, by decide +kernel, rfl,
    impJob_blob, by rw [impJob_reads, blob64_kind, impJob_keys]; exact blob64_opens,
    by rw [impJob_reads, blob64_kind, impJob_keys]; exact blob64_opens, by decide +kernel, by decide +kernel, by decide +kernel⟩

theorem wit_KeysAreExportedImportedAndErased_3 : ∃ (s : State) (f : Nat) (j : Job),
    s.admin? f Op.keyErase = some j ∧
    j.phase = 0 ∧
    j.silent = false ∧
    slotTaken s j = false ∧
    firstFail (eraseRows s f j.entry) = none ∧
    s.jobs.any (holdsSlot (j.entry.leAt 0x10 2)) = false :=
  ⟨with1 (vf 0xB3 [(0x10, 2, 64)]) (own64 domUp), 1, vf 0xB3 [(0x10, 2, 64)], by decide +kernel⟩

theorem wit_SlotsAreSweptAndReloaded_0_a : ∃ (s : State),
    (s.slot s.store.sweep).st = .loaded ∧
    s.store.sweep < 65535 :=
  ⟨(setSlot 64 { st := .loaded, a := key7, b := key7, lastGen := 1 } { domUp with store := { domUp.store with sweep := 64 } }), by decide +kernel⟩

theorem wit_SlotsAreSweptAndReloaded_0_b : ∃ (s : State),
    (s.slot s.store.sweep).st = .loaded ∧
    s.store.sweep < 65535 :=
  ⟨(setSlot 64 { st := .loaded, a := key7, b := { key7 with count := 6 }, lastGen := 1 } { domUp with store := { domUp.store with sweep := 64 } }), by decide +kernel⟩

theorem wit_SlotsAreSweptAndReloaded_1_a : ∃ (s : State),
    (((s.slot s.store.sweep).st = .empty ∨ (s.slot s.store.sweep).st = .loading)) ∧
    s.store.sweep < 65535 :=
  ⟨(setSlot 64 { st := .empty } { domUp with store := { domUp.store with sweep := 64 } }), by decide +kernel⟩

theorem wit_SlotsAreSweptAndReloaded_1_b : ∃ (s : State),
    (((s.slot s.store.sweep).st = .empty ∨ (s.slot s.store.sweep).st = .loading)) ∧
    s.store.sweep < 65535 :=
  ⟨(setSlot 64 { st := .loading } { domUp with store := { domUp.store with sweep := 64 } }), by decide +kernel⟩

theorem wit_SlotsAreSweptAndReloaded_2_a : ∃ (s : State) (n : Nat) (key : Bytes), (s.slot n).st = .bad ∧ (s.slot n).reloadDue = true ∧ slotHeld s n = false ∧ (n < 64 ∨ s.domainKey.isSome = true) ∧
    sideKey n s.domainKeys.1 s = some key ∧ sideKey n s.domainKeys.2 s = some key :=
  have h : ((setSlot 64 (blobSlot .bad) (domUpS)).slot 64).blob = blob64 ∧ (setSlot 64 (blobSlot .bad) (domUpS)).domainKey.isNone = false ∧ (setSlot 64 (blobSlot .bad) (domUpS)).domainKeys = (domKeyS, domKeyS) := by
    decide +kernel
  have g : sideKey 64 domKeyS (setSlot 64 (blobSlot .bad) (domUpS)) = some key16 := by
    simp [sideKey, h.2.1]; exact blob64_opens
  ⟨setSlot 64 (blobSlot .bad) (domUpS), 64, key16, by decide +kernel, by decide +kernel, by decide +kernel, by decide +kernel, by rw [h.2.2]; exact g, by rw [h.2.2]; exact g⟩

theorem wit_SlotsAreSweptAndReloaded_2_b : ∃ (s : State) (n : Nat) (key : Bytes),
    (s.slot n).st = .bad ∧
    (s.slot n).reloadDue = true ∧
    slotHeld s n = false ∧
    ((n < 64 ∨ s.domainKey.isSome = true)) ∧
    sideKey n s.domainKeys.1 s = some key ∧
    sideKey n s.domainKeys.2 s = some key :=
  ⟨setSlot 1 { st := .bad, reloadDue := true } (domUpS), 1, transportKey domKeyS domUpS.life.domId, by decide +kernel⟩

theorem wit_SlotsAreSweptAndReloaded_3 : ∃ (s : State) (n : Nat) (okA : Bool) (okB : Bool),
    (s.slot n).st = .bad ∧
    (s.slot n).reloadDue = true ∧
    slotHeld s n = false ∧
    ((n < 64 ∨ s.domainKey.isSome = true)) ∧
    (okA && okB) = false :=
  ⟨setSlot 64 (blobSlot .bad) (domUpS), 64, true, false, by decide +kernel⟩

theorem wit_SlotsAreSweptAndReloaded_4_a : ∃ (s : State) (n : Nat) (key : Bytes), (s.slot n).st = .loading ∧ s.store.reload = true ∧
    sideKey n s.domainKeys.1 s = some key ∧ sideKey n s.domainKeys.2 s = some key :=
  have h : ((setSlot 64 (blobSlot .loading) ({ domUpS with store := { domUpS.store with reload := true } })).slot 64).blob = blob64 ∧ (setSlot 64 (blobSlot .loading) ({ domUpS with store := { domUpS.store with reload := true } })).domainKey.isNone = false ∧ (setSlot 64 (blobSlot .loading) ({ domUpS with store := { domUpS.store with reload := true } })).domainKeys = (domKeyS, domKeyS) := by
    decide +kernel
  have g : sideKey 64 domKeyS (setSlot 64 (blobSlot .loading) ({ domUpS with store := { domUpS.store with reload := true } })) = some key16 := by
    simp [sideKey, h.2.1]; exact blob64_opens
  ⟨setSlot 64 (blobSlot .loading) ({ domUpS with store := { domUpS.store with reload := true } }), 64, key16, by decide +kernel, by decide +kernel, by rw [h.2.2]; exact g, by rw [h.2.2]; exact g⟩

theorem wit_SlotsAreSweptAndReloaded_4_b : ∃ (s : State) (n : Nat) (key : Bytes),
    (s.slot n).st = .loading ∧
    s.store.reload = true ∧
    sideKey n s.domainKeys.1 s = some key ∧
    sideKey n s.domainKeys.2 s = some key :=
  ⟨setSlot 1 { st := .loading, reloadDue := true } ({ domUpS with store := { domUpS.store with reload := true } }), 1, transportKey domKeyS domUpS.life.domId, by decide +kernel⟩

theorem wit_SlotsAreSweptAndReloaded_5 : ∃ (s : State) (n : Nat) (okA : Bool) (okB : Bool),
    (s.slot n).st = .loading ∧
    s.store.reload = true ∧
    (okA && okB) = false :=
  ⟨setSlot 64 (blobSlot .loading) ({ domUpS with store := { domUpS.store with reload := true } }), 64, true, false, by decide +kernel⟩

theorem wit_FunctionsAreAllocated_0 : ∃ (s : State) (j : Job),
    s.admin? 0 Op.fnAlloc = some j ∧
    firstFail (allocRows s j.entry) = none :=
  ⟨with1 allocJob up, allocJob, by decide +kernel⟩

theorem wit_FunctionResets_0 : ∃ (s : State) (f : Nat),
    f ≠ 0 ∧
    (s.fn f).run ≠ .resetting ∧
    (s.fn f).run ≠ .unallocated :=
  ⟨up, 1, by decide +kernel⟩

theorem wit_FunctionResets_1 : ∃ (s : State) (f : Nat),
    (s.fn 0).run ≠ .resetting ∧
    (s.fn 0).run ≠ .unallocated ∧
    s.jobs = [] ∧
    f ∈ s.fns.keys ∧
    f ≠ 0 ∧
    (s.fn f).run ≠ .resetting ∧
    (s.fn f).run ≠ .unallocated :=
  ⟨up, 1, by decide +kernel⟩

theorem wit_FunctionResets_2 : ∃ (s : State) (f : Nat),
    f ≠ 0 ∧
    (s.fn f).run ≠ .resetting ∧
    (s.fn f).run ≠ .unallocated :=
  ⟨up, 1, by decide +kernel⟩

theorem wit_FunctionResets_3 : ∃ (s : State) (f : Nat) (cause : Nat),
    ((f ≠ 0 ∨ cause ≠ 7)) ∧
    (s.fn f).run = .resetting :=
  ⟨setVf (fun g => { g with run := .resetting }) up, 1, 5, by decide +kernel⟩

theorem wit_FunctionResets_4 : ∃ (s : State) (f : Nat),
    f ∈ s.fns.keys ∧
    f ≠ 0 ∧
    (s.fn 0).run ≠ .resetting ∧
    (s.fn f).run ≠ .resetting ∧
    (s.fn f).run ≠ .unallocated ∧
    s.jobs = [] :=
  ⟨up, 1, by decide +kernel⟩

theorem wit_FunctionResets_5 : ∃ (s : State) (f : Nat),
    f ≠ 0 ∧
    (s.fn f).run ≠ .resetting ∧
    (s.fn f).run ≠ .unallocated ∧
    0 < s.inFlight f :=
  ⟨with1 { jobOf 64 0x10 [] with ref := { fn := 1, jq := 1, index := 0 } } up, 1, by decide +kernel⟩

theorem wit_FunctionResets_6 : ∃ (s : State) (f : Nat),
    (s.fn f).run ≠ .resetting ∧
    s.inFlight f = 0 :=
  ⟨up, 1, by decide +kernel⟩

theorem wit_FunctionResets_7_a : ∃ (s : State) (f : Nat),
    (s.fn f).run = .resetting ∧
    (s.fn f).reading = [] ∧
    s.inFlight f = 0 ∧
    (s.jobs.find? (waitsReset f Op.fnFree)) = none :=
  ⟨setVf (fun g => { g with run := .resetting }) up, 1, by decide +kernel⟩

theorem wit_FunctionResets_7_b : ∃ (s : State) (f : Nat),
    (s.fn f).run = .resetting ∧
    (s.fn f).reading = [] ∧
    s.inFlight f = 0 ∧
    (s.jobs.find? (waitsReset f Op.fnFree)) = none :=
  ⟨with1 { cmd 0xA5 [(0x10, 2, 1)] with phase := 1 } (setVf (fun g => { g with run := .resetting }) up), 1, by decide +kernel⟩

theorem wit_FunctionResets_8 : ∃ (s : State) (f : Nat) (j : Job),
    (s.fn f).run = .resetting ∧
    (s.fn f).reading = [] ∧
    s.inFlight f = 0 ∧
    s.jobs.find? (waitsReset f Op.fnFree) = some j :=
  ⟨with1 { cmd 0xA1 [(0x10, 2, 1)] with phase := 1 } (setVf (fun g => { g with run := .resetting }) up), 1, { cmd 0xA1 [(0x10, 2, 1)] with phase := 1 }, by decide +kernel⟩

theorem wit_FunctionResets_9_a : ∃ (s : State) (j : Job),
    s.admin? 0 Op.fnReset = some j ∧
    s.job? j.ref = some j ∧
    j.phase = 0 :=
  ⟨with1 (cmd 0xA5 [(0x10, 2, 1)]) up, cmd 0xA5 [(0x10, 2, 1)], by decide +kernel⟩

theorem wit_FunctionResets_9_b : ∃ (s : State) (j : Job),
    s.admin? 0 Op.fnReset = some j ∧
    s.job? j.ref = some j ∧
    j.phase = 0 :=
  ⟨with1 (cmd 0xA5 [(0x10, 2, 1)]) (setVf (fun g => { g with run := .resetting }) up), cmd 0xA5 [(0x10, 2, 1)], by decide +kernel⟩

theorem wit_FunctionResets_10_a : ∃ (s : State) (j : Job),
    s.admin? 0 Op.fnFree = some j ∧
    s.job? j.ref = some j ∧
    j.phase = 0 :=
  ⟨with1 (cmd 0xA1 [(0x10, 2, 1)]) up, cmd 0xA1 [(0x10, 2, 1)], by decide +kernel⟩

theorem wit_FunctionResets_10_b : ∃ (s : State) (j : Job),
    s.admin? 0 Op.fnFree = some j ∧
    s.job? j.ref = some j ∧
    j.phase = 0 :=
  ⟨with1 (cmd 0xA1 [(0x10, 2, 1)]) (setVf (fun g => { g with run := .resetting }) up), cmd 0xA1 [(0x10, 2, 1)], by decide +kernel⟩

theorem wit_SessionKeys_0_a : ∃ (s : State) (f : Nat) (set : Nat) (k : Nat) (wide : Bool),
    s.pageOpen f = true ∧
    set < (s.fn f).skN ∧
    k < 8 ∧
    ((wide = true → k % 2 = 0)) :=
  ⟨setVf (fun g => { g with sk := [(0, set0)] }) up, 1, 0, 7, false, by decide +kernel⟩

theorem wit_SessionKeys_0_b : ∃ (s : State) (f : Nat) (set : Nat) (k : Nat) (wide : Bool),
    s.pageOpen f = true ∧
    set < (s.fn f).skN ∧
    k < 8 ∧
    ((wide = true → k % 2 = 0)) :=
  ⟨setVf (fun g => { g with sk := [(0, set0)] }) up, 1, 0, 6, true, by decide +kernel⟩

theorem wit_SessionKeys_1 : ∃ (s : State) (f : Nat) (set : Nat) (k : Nat),
    s.pageOpen f = true ∧
    set < (s.fn f).skN ∧
    k < 8 ∧
    k % 2 = 1 :=
  ⟨setVf (fun g => { g with sk := [(0, set0)] }) up, 1, 0, 7, by decide +kernel⟩

theorem wit_SessionKeys_2_a : ∃ (s : State) (f : Nat) (set : Nat) (v : Word),
    s.pageOpen f = true ∧
    set < (s.fn f).skN ∧
    v.getLsbD 8 = true ∧
    v.getLsbD 9 = false :=
  ⟨setVf (fun g => { g with sk := [(0, set0)] }) up, 1, 0, 0x100, by decide +kernel⟩

theorem wit_SessionKeys_2_b : ∃ (s : State) (f : Nat) (set : Nat) (v : Word),
    s.pageOpen f = true ∧
    set < (s.fn f).skN ∧
    v.getLsbD 8 = true ∧
    v.getLsbD 9 = false :=
  ⟨setVf (fun g => { g with sk := [(0, set0)] }) up, 1, 0, 0x103, by decide +kernel⟩

theorem wit_SessionKeys_2_c : ∃ (s : State) (f : Nat) (set : Nat) (v : Word),
    s.pageOpen f = true ∧
    set < (s.fn f).skN ∧
    v.getLsbD 8 = true ∧
    v.getLsbD 9 = false :=
  ⟨setVf (fun g => { g with sk := [(0, set0)] }) up, 1, 0, 0x101, by decide +kernel⟩

theorem wit_SessionKeys_2_d : ∃ (s : State) (f : Nat) (set : Nat) (v : Word),
    s.pageOpen f = true ∧
    set < (s.fn f).skN ∧
    v.getLsbD 8 = true ∧
    v.getLsbD 9 = false :=
  ⟨{ setVf (fun g => { g with sk := [(0, set0)] }) up with life := { up.life with lc := .decommissioned } }, 1, 0, 0x100, by decide +kernel⟩

theorem wit_SessionKeys_3 : ∃ (s : State) (f : Nat) (set : Nat) (v : Word),
    s.pageOpen f = true ∧
    set < (s.fn f).skN ∧
    v.getLsbD 9 = true :=
  ⟨setVf (fun g => { g with sk := [(0, set0)] }) up, 1, 0, 0x200, by decide +kernel⟩

theorem wit_SessionKeys_4 : ∃ (s : State) (f : Nat) (set : Nat) (v : Word),
    s.pageOpen f = true ∧
    set < (s.fn f).skN ∧
    v.getLsbD 8 = true ∧
    v.getLsbD 9 = true :=
  ⟨setVf (fun g => { g with sk := [(0, set0)] }) up, 1, 0, 0x300, by decide +kernel⟩

theorem wit_PowerStatesAndEnables_0 : ∃ (s : State) (f : Nat),
    (s.fn f).quiesce = none ∧
    (((s.fn f).run = .ready ∨ (s.fn f).run = .frozen)) ∧
    s.busy f = false :=
  ⟨up, 1, by decide +kernel⟩

theorem wit_PowerStatesAndEnables_1 : ∃ (s : State) (f : Nat),
    (s.fn f).quiesce = none ∧
    (((s.fn f).run = .ready ∨ (s.fn f).run = .frozen)) ∧
    s.busy f = true :=
  ⟨with1 { jobOf 128 0x10 [] with ref := { fn := 1, jq := 1, index := 0 }, stage := .committed } up, 1, by decide +kernel⟩

theorem wit_PowerStatesAndEnables_2 : ∃ (s : State) (f : Nat) (t0 : Nat),
    (s.fn f).quiesce = some t0 ∧
    elapsedUs s.now t0 10000 = true ∧
    s.busy f = false :=
  ⟨(setVf (fun g => { g with quiesce := some 0 }) up), 1, 0, by decide +kernel⟩

theorem wit_PowerStatesAndEnables_3 : ∃ (s : State) (f : Nat) (t0 : Nat) (j : Job),
    (s.fn f).quiesce = some t0 ∧
    elapsedUs s.now t0 10000 = true ∧
    (s.fn f).run ≠ .resetting ∧
    s.job? j.ref = some j ∧
    j.ref.fn = f ∧
    j.committed = true ∧
    safeToEnd j = true ∧
    onCore j.ref s = false ∧
    j.claim = false ∧
    j.outcome = none ∧
    j.ended = false ∧
    awaits j { status := 0x10, detail := 1 } = false :=
  ⟨with1 { jobOf 128 0x10 [] with ref := { fn := 1, jq := 1, index := 0 }, stage := .committed } (setVf (fun g => { g with quiesce := some 0 }) up), 1, 0, { jobOf 128 0x10 [] with ref := { fn := 1, jq := 1, index := 0 }, stage := .committed }, by decide +kernel⟩

theorem wit_PowerStatesAndEnables_4_a : ∃ (s : State) (f : Nat),
    (s.fn f).run = .d3hot :=
  ⟨setVf (fun g => { g with run := .d3hot, froze := true }) up, 1, by decide +kernel⟩

theorem wit_PowerStatesAndEnables_4_b : ∃ (s : State) (f : Nat),
    (s.fn f).run = .d3hot :=
  ⟨setVf (fun g => { g with run := .d3hot }) up, 1, by decide +kernel⟩

theorem wit_PowerStatesAndEnables_5 : ∃ (s : State) (f : Nat) (t0 : Nat),
    (s.fn f).quiesce = some t0 ∧
    (s.fn f).run ≠ .d3hot ∧
    (s.fn f).run ≠ .resetting :=
  ⟨(setVf (fun g => { g with quiesce := some 0 }) up), 1, 0, by decide +kernel⟩

theorem wit_PowerStatesAndEnables_6 : ∃ (s : State) (f : Nat),
    (s.fn f).run ≠ .resetting :=
  ⟨setPf (fun g => { g with vecs := [(3, vec3)] }) up, 0, by decide +kernel⟩

theorem wit_PowerStatesAndEnables_7 : ∃ (s : State) (f : Nat) (v : Nat),
    s.pageOpen f = true ∧
    v < (s.fn f).vecN ∧
    ((s.fn f).vec v).pba = true ∧
    (s.fn f).cfg.msixEnable = true ∧
    (s.fn f).cfg.msixMask = false ∧
    (s.fn f).cfg.bme = true ∧
    ((s.fn f).vec v).ctrl = 1 :=
  ⟨setPf (fun g => { g with vecN := 64, vecs := [(3, { vec3 with pba := true, ctrl := 1 })] }) up, 0, 3, by decide +kernel⟩

theorem wit_PowerStatesAndEnables_8 : ∃ (s : State) (f : Nat),
    (s.fn f).run ≠ .resetting :=
  ⟨setPf (fun g => { g with cfg := { g.cfg with msixMask := true } }) up, 0, by decide +kernel⟩

theorem wit_PowerStatesAndEnables_9 : ∃ (s : State) (f : Nat),
    (s.fn f).run ≠ .resetting :=
  ⟨setPf (fun g => { g with cfg := { g.cfg with bme := false } }) up, 0, by decide +kernel⟩

theorem wit_PowerStatesAndEnables_10_a : ∃ (s : State),
    (s.fn 0).run ≠ .resetting :=
  ⟨up, by decide +kernel⟩

theorem wit_PowerStatesAndEnables_10_b : ∃ (s : State),
    (s.fn 0).run ≠ .resetting :=
  ⟨up, by decide +kernel⟩

theorem wit_DirtyLogs_0_a : ∃ (s : State) (j : Job),
    s.admin? 0 Op.dirtyLog = some j ∧
    j.entry.at_ 0x10 = 0 ∧
    firstFail (logRows s j.entry true) = none ∧
    j.reads = .arrived ∧
    rangesBad (j.input 0 s) ((List.range (j.entry.at_ 0x14).toNat).map (rangeAt (j.input 0 s))) = false :=
  ⟨with1 (fed [(Bytes.ofLE 8 0x200000 ++ Bytes.ofLE 4 64 ++ Bytes.ofLE 4 0 ++ Bytes.ofLE 8 0x1000 ++ Bytes.ofLE 8 0x2000)] (cmd 0xA4 [(0x12, 2, 1), (0x14, 1, 1), (0x18, 8, 0x7000)])) up, fed [(Bytes.ofLE 8 0x200000 ++ Bytes.ofLE 4 64 ++ Bytes.ofLE 4 0 ++ Bytes.ofLE 8 0x1000 ++ Bytes.ofLE 8 0x2000)] (cmd 0xA4 [(0x12, 2, 1), (0x14, 1, 1), (0x18, 8, 0x7000)]), by decide +kernel⟩

theorem wit_DirtyLogs_0_b : ∃ (s : State) (j : Job),
    s.admin? 0 Op.dirtyLog = some j ∧
    j.entry.at_ 0x10 = 0 ∧
    firstFail (logRows s j.entry true) = none ∧
    j.reads = .arrived ∧
    rangesBad (j.input 0 s) ((List.range (j.entry.at_ 0x14).toNat).map (rangeAt (j.input 0 s))) = true :=
  ⟨with1 (fed [(Bytes.ofLE 8 0x200000 ++ Bytes.ofLE 4 64 ++ Bytes.ofLE 4 1 ++ Bytes.ofLE 8 0x1000 ++ Bytes.ofLE 8 0x2000)] (cmd 0xA4 [(0x12, 2, 1), (0x14, 1, 1), (0x18, 8, 0x7000)])) up, fed [(Bytes.ofLE 8 0x200000 ++ Bytes.ofLE 4 64 ++ Bytes.ofLE 4 1 ++ Bytes.ofLE 8 0x1000 ++ Bytes.ofLE 8 0x2000)] (cmd 0xA4 [(0x12, 2, 1), (0x14, 1, 1), (0x18, 8, 0x7000)]), by decide +kernel⟩

theorem wit_DirtyLogs_1 : ∃ (s : State) (j : Job),
    s.admin? 0 Op.dirtyLog = some j ∧
    j.entry.at_ 0x10 = 1 ∧
    firstFail (logRows s j.entry false) = none :=
  ⟨with1 (cmd 0xA4 [(0x10, 1, 1), (0x12, 2, 1)]) (setVf (fun g => { g with log := some log1 }) up), cmd 0xA4 [(0x10, 1, 1), (0x12, 2, 1)], by decide +kernel⟩

theorem wit_DirtyLogs_2 : ∃ (s : State) (j : Job),
    s.admin? 0 Op.dirtyLog = some j ∧
    j.entry.at_ 0x10 = 2 ∧
    firstFail (logRows s j.entry false) = none :=
  ⟨with1 (cmd 0xA4 [(0x10, 1, 2), (0x12, 2, 1)]) (setVf (fun g => { g with log := some log1 }) up), cmd 0xA4 [(0x10, 1, 2), (0x12, 2, 1)], by decide +kernel⟩

theorem wit_DirtyLogs_3 : ∃ (s : State) (f : Nat) (l : DirtyLog),
    (s.fn f).log = some l ∧
    l.cache = [] :=
  ⟨setVf (fun g => { g with log := some log1 }) up, 1, log1, by decide +kernel⟩

theorem wit_Migration_0 : ∃ (s : State) (j : Job),
    s.admin? 0 Op.fnStateSave = some j ∧
    j.entry.at_ 0x10 = 0 ∧
    j.phase = 0 :=
  ⟨with1 (cmd 0xA2 [(0x12, 2, 1)]) up, cmd 0xA2 [(0x12, 2, 1)], by decide +kernel⟩

theorem wit_Migration_1 : ∃ (s : State) (j : Job),
    s.admin? 0 Op.fnStateSave = some j ∧
    s.job? j.ref = some j ∧
    j.entry.at_ 0x10 = 0 ∧
    j.phase = 0 :=
  ⟨{ up with jobs := [cmd 0xA2 [(0x12, 2, 1)], { jobOf 128 0x10 [] with ref := { fn := 1, jq := 1, index := 0 }, stage := .committed }] }, cmd 0xA2 [(0x12, 2, 1)], by decide +kernel⟩

theorem wit_Migration_2 : ∃ (s : State) (j : Job),
    s.admin? 0 Op.fnStateSave = some j ∧
    j.entry.at_ 0x10 = 2 ∧
    firstFail (stateRows s j.entry false) = none ∧
    (s.fn (j.entry.leAt 0x12 2)).run = .frozen :=
  ⟨with1 (cmd 0xA2 [(0x10, 1, 2), (0x12, 2, 1)]) frozenUp, cmd 0xA2 [(0x10, 1, 2), (0x12, 2, 1)], by decide +kernel⟩

theorem wit_Migration_3 : ∃ (s : State) (u : State) (j : Job) (iv : Bytes),
    s.admin? 0 Op.fnStateSave = some j ∧
    j.entry.at_ 0x10 = 1 ∧
    firstFail (saveRows s j.entry) = none ∧
    fwRandom 12 s = .ok (iv, u) :=
  ⟨with1 (cmd 0xA2 [(0x10, 1, 1), (0x12, 2, 1), (0x14, 4, 4096), (0x18, 8, 0x50000)]) frozenUp, (drawnOf (fwRandom 12 (with1 (cmd 0xA2 [(0x10, 1, 1), (0x12, 2, 1), (0x14, 4, 4096), (0x18, 8, 0x50000)]) frozenUp))).2, cmd 0xA2 [(0x10, 1, 1), (0x12, 2, 1), (0x14, 4, 4096), (0x18, 8, 0x50000)], (drawnOf (fwRandom 12 (with1 (cmd 0xA2 [(0x10, 1, 1), (0x12, 2, 1), (0x14, 4, 4096), (0x18, 8, 0x50000)]) frozenUp))).1, by decide +kernel, by decide +kernel, by decide +kernel, drawn_ok (by decide +kernel)⟩

 

theorem wit_Migration_4_b : ∃ (s : State) (j : Job),
    s.admin? 0 Op.fnStateLoad = some j ∧
    firstFail (loadRows s j.entry) = none ∧
    j.reads = .arrived ∧
    (firstFail (stateBlobRows s (j.entry.leAt 0x10 2) (j.input 0 s))).isNone = false :=
  ⟨with1 (fed [[]] (cmd 0xA3 [(0x10, 2, 1), (0x14, 4, 4096), (0x18, 8, 0x50000)])) (emptyVf frozenUp), fed [[]] (cmd 0xA3 [(0x10, 2, 1), (0x14, 4, 4096), (0x18, 8, 0x50000)]), by decide +kernel⟩

theorem wit_DictionaryAccess_0 : ∃ (s : State) (f : Nat) (j : Job),
    s.admin? f Op.dictRead = some j :=
  ⟨with1 (cmdOf 0 64 0x90 [(0x10, 2, 0x3000), (0x12, 2, 0x10)]) up, 0, cmdOf 0 64 0x90 [(0x10, 2, 0x3000), (0x12, 2, 0x10)], by decide +kernel⟩

theorem wit_DictionaryAccess_1 : ∃ (s : State) (f : Nat) (j : Job),
    s.admin? f Op.dictRead = some j :=
  ⟨with1 (cmdOf 0 64 0x90 [(0x10, 2, 0x3000), (0x12, 2, 0x10), (0x18, 8, 0x50000), (0x20, 4, 8)]) up, 0, cmdOf 0 64 0x90 [(0x10, 2, 0x3000), (0x12, 2, 0x10), (0x18, 8, 0x50000), (0x20, 4, 8)], by decide +kernel⟩

theorem wit_DictionaryAccess_2_a : ∃ (s : State) (f : Nat) (j : Job) (o : Obj) (v : Bytes),
    s.admin? f Op.dictWrite = some j ∧
    firstFail (writeAccessRows s (hostUser f) j.entry) = none ∧
    objOf (dictIndex j.entry) (dictSub j.entry) = some o ∧
    firstFail (writeLenRows o j.entry) = none ∧
    ValueHere s j v ∧
    writeValueRefusal s o j.entry v = none :=
  ⟨with1 (cmdOf 0 64 0x91 [(0x10, 2, 0x3000), (0x12, 2, 3), (0x16, 2, 4), (0x28, 4, 0x20000)]) up, 0, cmdOf 0 64 0x91 [(0x10, 2, 0x3000), (0x12, 2, 3), (0x16, 2, 4), (0x28, 4, 0x20000)], (objOf 0x3000 3).getD { sub := 0, ty := Ty.bool, cls := .c, len := 0, name := "" }, Bytes.ofLE 4 0x20000, by decide +kernel⟩

theorem wit_DictionaryAccess_2_b : ∃ (s : State) (f : Nat) (j : Job) (o : Obj) (v : Bytes),
    s.admin? f Op.dictWrite = some j ∧
    firstFail (writeAccessRows s (hostUser f) j.entry) = none ∧
    objOf (dictIndex j.entry) (dictSub j.entry) = some o ∧
    firstFail (writeLenRows o j.entry) = none ∧
    ValueHere s j v ∧
    writeValueRefusal s o j.entry v = none :=
  ⟨with1 (fed [Bytes.ofLE 4 0x20000] (cmdOf 0 64 0x91 [(0x10, 2, 0x3000), (0x12, 2, 3), (0x16, 2, 4), (0x18, 8, 0x50000)])) up, 0, fed [Bytes.ofLE 4 0x20000] (cmdOf 0 64 0x91 [(0x10, 2, 0x3000), (0x12, 2, 3), (0x16, 2, 4), (0x18, 8, 0x50000)]), (objOf 0x3000 3).getD { sub := 0, ty := Ty.bool, cls := .c, len := 0, name := "" }, Bytes.ofLE 4 0x20000, by decide +kernel⟩

theorem wit_DictionaryAccess_2_c : ∃ (s : State) (f : Nat) (j : Job) (o : Obj) (v : Bytes),
    s.admin? f Op.dictWrite = some j ∧
    firstFail (writeAccessRows s (hostUser f) j.entry) = none ∧
    objOf (dictIndex j.entry) (dictSub j.entry) = some o ∧
    firstFail (writeLenRows o j.entry) = none ∧
    ValueHere s j v ∧
    writeValueRefusal s o j.entry v = none ∧
    o.cls = .p ∧ dictFlag1 j.entry = true :=
  ⟨with1 (cmdOf 0 64 0x91 [(0x10, 2, 0x3000), (0x12, 2, 3), (0x14, 1, 2), (0x15, 1, 2), (0x16, 2, 4), (0x28, 4, 0x20000)]) up, 0, cmdOf 0 64 0x91 [(0x10, 2, 0x3000), (0x12, 2, 3), (0x14, 1, 2), (0x15, 1, 2), (0x16, 2, 4), (0x28, 4, 0x20000)], (objOf 0x3000 3).getD { sub := 0, ty := Ty.bool, cls := .c, len := 0, name := "" }, Bytes.ofLE 4 0x20000, by decide +kernel⟩

theorem wit_AttestAnswers_0_a : ∃ (s : State) (f : Nat) (j : Job),
    s.admin? f Op.attest = some j ∧
    attOp j.entry = 0 ∧
    firstFail (attRows j.entry) = none :=
  ⟨with1 (cmdOf 1 128 0xC0 [(0x10, 1, 0), (0x11, 1, 16), (0x18, 8, 0x50000), (0x20, 4, 8192)]) up, 1, cmdOf 1 128 0xC0 [(0x10, 1, 0), (0x11, 1, 16), (0x18, 8, 0x50000), (0x20, 4, 8192)], by decide +kernel⟩

theorem wit_AttestAnswers_1_a : ∃ (s : State) (f : Nat) (j : Job),
    s.admin? f Op.attest = some j ∧
    attOp j.entry = 1 ∧
    firstFail (attRows j.entry) = none :=
  ⟨with1 (cmdOf 1 128 0xC0 [(0x10, 1, 1), (0x11, 1, 0), (0x18, 8, 0x50000), (0x20, 4, 8192)]) up, 1, cmdOf 1 128 0xC0 [(0x10, 1, 1), (0x11, 1, 0), (0x18, 8, 0x50000), (0x20, 4, 8192)], by decide +kernel⟩

theorem wit_AttestAnswers_1_b : ∃ (s : State) (f : Nat) (j : Job),
    s.admin? f Op.attest = some j ∧
    attOp j.entry = 1 ∧
    firstFail (attRows j.entry) = none :=
  ⟨with1 (cmdOf 1 128 0xC0 [(0x10, 1, 1), (0x11, 1, 0), (0x18, 8, 0x50000), (0x20, 4, 16)]) up, 1, cmdOf 1 128 0xC0 [(0x10, 1, 1), (0x11, 1, 0), (0x18, 8, 0x50000), (0x20, 4, 16)], by decide +kernel⟩

theorem wit_AttestAnswers_2_a : ∃ (s : State) (f : Nat) (j : Job),
    s.admin? f Op.attest = some j ∧
    attOp j.entry = 2 ∧
    firstFail (attRows j.entry) = none :=
  ⟨with1 (cmdOf 1 128 0xC0 [(0x10, 1, 2), (0x11, 1, 0), (0x18, 8, 0x50000), (0x20, 4, 8192)]) up, 1, cmdOf 1 128 0xC0 [(0x10, 1, 2), (0x11, 1, 0), (0x18, 8, 0x50000), (0x20, 4, 8192)], by decide +kernel⟩

theorem wit_AttestAnswers_2_b : ∃ (s : State) (f : Nat) (j : Job),
    s.admin? f Op.attest = some j ∧
    attOp j.entry = 2 ∧
    firstFail (attRows j.entry) = none :=
  ⟨with1 (cmdOf 1 128 0xC0 [(0x10, 1, 2), (0x11, 1, 0), (0x18, 8, 0x50000), (0x20, 4, 16)]) up, 1, cmdOf 1 128 0xC0 [(0x10, 1, 2), (0x11, 1, 0), (0x18, 8, 0x50000), (0x20, 4, 16)], by decide +kernel⟩

theorem wit_CeremoniesOpenCloseAndExpire_0 : ∃ (s : State) (u : State) (j : Job) (nonce : Bytes),
    s.admin? 0 Op.ceremony = some j ∧
    cerOp j.entry = 0 ∧
    firstFail (openRows s j.entry) = none ∧
    j.reads = .arrived ∧
    104 ≤ cerMax j.entry ∧
    paramRefusal s (cerAction j.entry) (j.input 0 s) = none ∧
    fwRandom 16 s = .ok (nonce, u) :=
  ⟨with1 (fed [Bytes.ofLE 2 0x20 ++ Bytes.ofLE 2 1 ++ Bytes.ofLE 4 40 ++ Bytes.zeros 32] (cer [(0x12, 2, 0x20), (0x18, 8, 0x7000), (0x20, 4, 40), (0x24, 4, 104), (0x28, 8, 0x50000)])) up, (drawnOf (fwRandom 16 (with1 (fed [Bytes.ofLE 2 0x20 ++ Bytes.ofLE 2 1 ++ Bytes.ofLE 4 40 ++ Bytes.zeros 32] (cer [(0x12, 2, 0x20), (0x18, 8, 0x7000), (0x20, 4, 40), (0x24, 4, 104), (0x28, 8, 0x50000)])) up))).2, fed [Bytes.ofLE 2 0x20 ++ Bytes.ofLE 2 1 ++ Bytes.ofLE 4 40 ++ Bytes.zeros 32] (cer [(0x12, 2, 0x20), (0x18, 8, 0x7000), (0x20, 4, 40), (0x24, 4, 104), (0x28, 8, 0x50000)]), (drawnOf (fwRandom 16 (with1 (fed [Bytes.ofLE 2 0x20 ++ Bytes.ofLE 2 1 ++ Bytes.ofLE 4 40 ++ Bytes.zeros 32] (cer [(0x12, 2, 0x20), (0x18, 8, 0x7000), (0x20, 4, 40), (0x24, 4, 104), (0x28, 8, 0x50000)])) up))).1, by decide +kernel, by decide +kernel, by decide +kernel, by decide +kernel, by decide +kernel, by decide +kernel, drawn_ok (by decide +kernel)⟩

theorem wit_CeremoniesOpenCloseAndExpire_1 : ∃ (s : State) (u : State) (j : Job),
    s.admin? 0 Op.ceremony = some j ∧
    cerOp j.entry = 0 ∧
    firstFail (openRows s j.entry) = none ∧
    j.reads = .arrived ∧
    104 ≤ cerMax j.entry ∧
    paramRefusal s (cerAction j.entry) (j.input 0 s) = none ∧
    fwRandom 16 s = .error u :=
  ⟨rngUp (with1 (fed [Bytes.ofLE 2 0x20 ++ Bytes.ofLE 2 1 ++ Bytes.ofLE 4 40 ++ Bytes.zeros 32] (cer [(0x12, 2, 0x20), (0x18, 8, 0x7000), (0x20, 4, 40), (0x24, 4, 104), (0x28, 8, 0x50000)])) up) fun r => { r with seeded := false, fwBuf := [] }, (drawnOf (fwRandom 16 (rngUp (with1 (fed [Bytes.ofLE 2 0x20 ++ Bytes.ofLE 2 1 ++ Bytes.ofLE 4 40 ++ Bytes.zeros 32] (cer [(0x12, 2, 0x20), (0x18, 8, 0x7000), (0x20, 4, 40), (0x24, 4, 104), (0x28, 8, 0x50000)])) up) fun r => { r with seeded := false, fwBuf := [] }))).2, fed [Bytes.ofLE 2 0x20 ++ Bytes.ofLE 2 1 ++ Bytes.ofLE 4 40 ++ Bytes.zeros 32] (cer [(0x12, 2, 0x20), (0x18, 8, 0x7000), (0x20, 4, 40), (0x24, 4, 104), (0x28, 8, 0x50000)]), by decide +kernel, by decide +kernel, by decide +kernel, by decide +kernel, by decide +kernel, by decide +kernel, drawn_error (by decide +kernel)⟩

theorem wit_CeremoniesOpenCloseAndExpire_2 : ∃ (s : State) (j : Job),
    s.admin? 0 Op.ceremony = some j ∧
    cerOp j.entry = 0 ∧
    firstFail (openRows s j.entry) = none ∧
    j.reads = .arrived ∧
    cerMax j.entry < 104 ∧
    paramRefusal s (cerAction j.entry) (j.input 0 s) = none :=
  ⟨with1 (fed [Bytes.ofLE 2 0x20 ++ Bytes.ofLE 2 1 ++ Bytes.ofLE 4 40 ++ Bytes.zeros 32] (cer [(0x12, 2, 0x20), (0x18, 8, 0x7000), (0x20, 4, 40), (0x24, 4, 103), (0x28, 8, 0x50000)])) up, fed [Bytes.ofLE 2 0x20 ++ Bytes.ofLE 2 1 ++ Bytes.ofLE 4 40 ++ Bytes.zeros 32] (cer [(0x12, 2, 0x20), (0x18, 8, 0x7000), (0x20, 4, 40), (0x24, 4, 103), (0x28, 8, 0x50000)]), by decide +kernel⟩

theorem wit_CeremoniesOpenCloseAndExpire_3_a : ∃ (s : State) (j : Job) (c : Ceremony),
    s.admin? 0 Op.ceremony = some j ∧
    cerOp j.entry = 1 ∧
    cerRsv j.entry = false ∧
    s.named j.entry = some c ∧
    16 ≤ cerMax j.entry :=
  ⟨opened (cer1 0x20 []) (with1 (cer [(0x10, 1, 1), (0x14, 4, 9), (0x24, 4, 16), (0x28, 8, 0x50000)]) up), cer [(0x10, 1, 1), (0x14, 4, 9), (0x24, 4, 16), (0x28, 8, 0x50000)], cer1 0x20 [], by decide +kernel⟩

theorem wit_CeremoniesOpenCloseAndExpire_3_b : ∃ (s : State) (j : Job) (c : Ceremony),
    s.admin? 0 Op.ceremony = some j ∧
    cerOp j.entry = 1 ∧
    cerRsv j.entry = false ∧
    s.named j.entry = some c ∧
    16 ≤ cerMax j.entry :=
  ⟨opened ({ cer1 0x11 [] with stage := .window, windowEnd := 64 * second }) (with1 (cer [(0x10, 1, 1), (0x14, 4, 9), (0x24, 4, 16), (0x28, 8, 0x50000)]) up), cer [(0x10, 1, 1), (0x14, 4, 9), (0x24, 4, 16), (0x28, 8, 0x50000)], { cer1 0x11 [] with stage := .window, windowEnd := 64 * second }, by decide +kernel⟩

theorem wit_CeremoniesOpenCloseAndExpire_4 : ∃ (s : State) (j : Job) (c : Ceremony),
    s.admin? 0 Op.ceremony = some j ∧
    cerOp j.entry = 4 ∧
    cerRsv j.entry = false ∧
    s.named j.entry = some c ∧
    c.stage ≠ .executing :=
  ⟨opened (cer1 0x20 []) (with1 (cer [(0x10, 1, 4), (0x14, 4, 9)]) up), cer [(0x10, 1, 4), (0x14, 4, 9)], cer1 0x20 [], by decide +kernel⟩

theorem wit_CeremoniesOpenCloseAndExpire_5 : ∃ (s : State) (c : Ceremony),
    s.custody.cer = some c ∧
    c.stage = .gathering ∧
    s.now ≥ c.expires :=
  ⟨opened { cer1 0x20 [] with expires := 64 * second } up, { cer1 0x20 [] with expires := 64 * second }, by decide +kernel⟩

theorem wit_CeremoniesOpenCloseAndExpire_6 : ∃ (s : State) (c : Ceremony),
    s.custody.cer = some c ∧
    c.stage = .window ∧
    c.action ≠ Act.cellService ∧
    s.now ≥ c.windowEnd ∧
    c.caller = none :=
  ⟨opened { cer1 0x11 [] with stage := .window, windowEnd := 64 * second } up, { cer1 0x11 [] with stage := .window, windowEnd := 64 * second }, by decide +kernel⟩

theorem wit_CeremoniesOpenCloseAndExpire_7_a : ∃ (s : State) (c : Ceremony),
    s.custody.cer = some c :=
  ⟨opened (cer1 0x20 []) up, cer1 0x20 [], by decide +kernel⟩

theorem wit_CeremoniesOpenCloseAndExpire_7_b : ∃ (s : State) (c : Ceremony),
    s.custody.cer = some c :=
  ⟨opened ({ cer1 0x11 [] with stage := .window, windowEnd := 64 * second }) up, { cer1 0x11 [] with stage := .window, windowEnd := 64 * second }, by decide +kernel⟩

theorem wit_ExecuteNeedsTheQuorum_0_a : ∃ (s : State) (j : Job) (c : Ceremony),
    s.admin? 0 Op.ceremony = some j ∧
    cerOp j.entry = 2 ∧
    cerRsv j.entry = false ∧
    s.named j.entry = some c ∧
    c.caller ≠ some (.admin j.ref) ∧
    c.stage = .gathering ∧ s.now < c.expires ∧ callerAlive s c.caller = false ∧ quorumHeld s c = true ∧ c.action = Act.lock :=
  ⟨opened ({ cer1 0x20 [] with approvals := [0, 1] }) (quorumUp (with1 (cer [(0x10, 1, 2), (0x14, 4, 9)]) (up))), cer [(0x10, 1, 2), (0x14, 4, 9)], { cer1 0x20 [] with approvals := [0, 1] }, by decide +kernel⟩

theorem wit_ExecuteNeedsTheQuorum_0_b : ∃ (s : State) (j : Job) (c : Ceremony),
    s.admin? 0 Op.ceremony = some j ∧
    cerOp j.entry = 2 ∧
    cerRsv j.entry = false ∧
    s.named j.entry = some c ∧
    c.caller ≠ some (.admin j.ref) ∧
    c.stage = .gathering ∧ s.now < c.expires ∧ callerAlive s c.caller = false ∧ quorumHeld s c = false :=
  ⟨opened (cer1 0x20 []) (quorumUp (with1 (cer [(0x10, 1, 2), (0x14, 4, 9)]) (up))), cer [(0x10, 1, 2), (0x14, 4, 9)], cer1 0x20 [], by decide +kernel⟩

theorem wit_ExecuteNeedsTheQuorum_0_c : ∃ (s : State) (j : Job) (c : Ceremony),
    s.admin? 0 Op.ceremony = some j ∧
    cerOp j.entry = 2 ∧
    cerRsv j.entry = false ∧
    s.named j.entry = some c ∧
    c.caller ≠ some (.admin j.ref) ∧
    c.stage = .gathering ∧ s.now < c.expires ∧ callerAlive s c.caller = false ∧ quorumHeld s c = false ∧ j.entry.at_ 0x11 = 1 :=
  ⟨opened ({ cer1 0x20 [] with approvals := [1] }) (quorumUp (with1 (cer [(0x10, 1, 2), (0x11, 1, 1), (0x14, 4, 9)]) (up))), cer [(0x10, 1, 2), (0x11, 1, 1), (0x14, 4, 9)], { cer1 0x20 [] with approvals := [1] }, by decide +kernel⟩

theorem wit_ExecuteNeedsTheQuorum_0_d : ∃ (s : State) (j : Job) (c : Ceremony),
    s.admin? 0 Op.ceremony = some j ∧
    cerOp j.entry = 2 ∧
    cerRsv j.entry = false ∧
    s.named j.entry = some c ∧
    c.caller ≠ some (.admin j.ref) ∧
    s.now ≥ c.expires :=
  ⟨opened ({ cer1 0x20 [] with approvals := [0, 1], expires := 64 * second }) (quorumUp (with1 (cer [(0x10, 1, 2), (0x14, 4, 9)]) (up))), cer [(0x10, 1, 2), (0x14, 4, 9)], { cer1 0x20 [] with approvals := [0, 1], expires := 64 * second }, by decide +kernel⟩

theorem wit_ExecuteNeedsTheQuorum_0_e : ∃ (s : State) (j : Job) (c : Ceremony),
    s.admin? 0 Op.ceremony = some j ∧
    cerOp j.entry = 2 ∧
    cerRsv j.entry = false ∧
    s.named j.entry = some c ∧
    c.caller ≠ some (.admin j.ref) ∧
    c.stage = .gathering ∧ s.now < c.expires ∧ callerAlive s c.caller = false ∧ quorumHeld s c = true ∧ c.action = Act.unlock ∧ alarmPersists s = true :=
  ⟨opened ({ cer1 0x21 [] with approvals := [0, 1] }) (quorumUp (with1 (cer [(0x10, 1, 2), (0x14, 4, 9)]) ({ up with vesper := { up.vesper with cond := 4 } }))), cer [(0x10, 1, 2), (0x14, 4, 9)], { cer1 0x21 [] with approvals := [0, 1] }, by decide +kernel⟩

theorem wit_ExecuteNeedsTheQuorum_0_f : ∃ (s : State) (j : Job) (c : Ceremony),
    s.admin? 0 Op.ceremony = some j ∧
    cerOp j.entry = 2 ∧
    cerRsv j.entry = false ∧
    s.named j.entry = some c ∧
    c.caller ≠ some (.admin j.ref) ∧
    c.stage = .gathering ∧ s.now < c.expires ∧ callerAlive s c.caller = false ∧ quorumHeld s c = true ∧ c.action = Act.debugEnter ∧ s.boot.testEn = false :=
  ⟨opened ({ cer1 0x22 [] with approvals := [0, 1] }) (quorumUp (with1 (cer [(0x10, 1, 2), (0x14, 4, 9)]) (up))), cer [(0x10, 1, 2), (0x14, 4, 9)], { cer1 0x22 [] with approvals := [0, 1] }, by decide +kernel⟩

theorem wit_ApprovalsCount_0 : ∃ (s : State) (j : Job) (d : Done),
    s.admin? 0 Op.approve = some j ∧
    firstFail (apprRows s j.entry false) = some d :=
  ⟨with1 (fed [Bytes.zeros 96] (cmdOf 0 64 0xC1 [(0x10, 4, 9), (0x14, 1, 1), (0x15, 1, 1), (0x16, 2, 96), (0x18, 8, 0x7000)])) up, fed [Bytes.zeros 96] (cmdOf 0 64 0xC1 [(0x10, 4, 9), (0x14, 1, 1), (0x15, 1, 1), (0x16, 2, 96), (0x18, 8, 0x7000)]), { status := 0x20, detail := 0x31 }, by decide +kernel⟩

theorem wit_ApprovalsCount_1 : ∃ (s : State) (j : Job) (c : Ceremony),
    s.admin? 0 Op.approve = some j ∧
    firstFail (apprRows s j.entry false) = none ∧
    j.reads = .arrived ∧
    approvable s j.entry = some c :=
  ⟨opened (cer1 0x20 []) (quorumUp (with1 (fed [Bytes.zeros 96] (cmdOf 0 64 0xC1 [(0x10, 4, 9), (0x14, 1, 1), (0x15, 1, 1), (0x16, 2, 96), (0x18, 8, 0x7000)])) up)), fed [Bytes.zeros 96] (cmdOf 0 64 0xC1 [(0x10, 4, 9), (0x14, 1, 1), (0x15, 1, 1), (0x16, 2, 96), (0x18, 8, 0x7000)]), cer1 0x20 [], by decide +kernel⟩

theorem wit_InitialiseCustodiansDomain_0 : ∃ (s : State) (u : State) (c : Ceremony) (root : Bytes),
    Executing s Act.initialise c ∧
    fwRandom 32 s = .ok (root, u) :=
  ⟨actUp (acts 0x01 ([])) (up), (drawnOf (fwRandom 32 (actUp (acts 0x01 ([])) (up)))).2, acts 0x01 ([]), (drawnOf (fwRandom 32 (actUp (acts 0x01 ([])) (up)))).1, by decide +kernel, drawn_ok (by decide +kernel)⟩

theorem wit_InitialiseCustodiansDomain_1 : ∃ (s : State) (u : State) (c : Ceremony),
    Executing s Act.initialise c ∧
    fwRandom 32 s = .error u :=
  ⟨actUp (acts 0x01 ([])) (rngUp (up) fun r => { r with seeded := false, fwBuf := [] }), (drawnOf (fwRandom 32 (actUp (acts 0x01 ([])) (rngUp (up) fun r => { r with seeded := false, fwBuf := [] })))).2, acts 0x01 ([]), by decide +kernel, drawn_error (by decide +kernel)⟩

theorem wit_InitialiseCustodiansDomain_2 : ∃ (s : State) (c : Ceremony),
    Executing s Act.custodians c :=
  ⟨actUp (acts 0x02 ([])) (quorumUp up), acts 0x02 ([]), by decide +kernel⟩

theorem wit_InitialiseCustodiansDomain_3 : ∃ (s : State) (u : State) (c : Ceremony) (b : Bytes),
    Executing s Act.domainCreate c ∧
    fwRandom 48 s = .ok (b, u) :=
  ⟨actUp (acts 0x10 ([])) (up), (drawnOf (fwRandom 48 (actUp (acts 0x10 ([])) (up)))).2, acts 0x10 ([]), (drawnOf (fwRandom 48 (actUp (acts 0x10 ([])) (up)))).1, by decide +kernel, drawn_ok (by decide +kernel)⟩

theorem wit_InitialiseCustodiansDomain_4 : ∃ (s : State) (u : State) (c : Ceremony),
    Executing s Act.domainCreate c ∧
    fwRandom 48 s = .error u :=
  ⟨actUp (acts 0x10 ([])) (rngUp (up) fun r => { r with seeded := false, fwBuf := [] }), (drawnOf (fwRandom 48 (actUp (acts 0x10 ([])) (rngUp (up) fun r => { r with seeded := false, fwBuf := [] })))).2, acts 0x10 ([]), by decide +kernel, drawn_error (by decide +kernel)⟩

theorem wit_JoinsAndShares_0 : ∃ (s : State) (c : Ceremony),
    Executing s Act.domainAdmit c :=
  ⟨actUp (acts 0x11 ((Bytes.zeros 24).patch 16 (Bytes.ofLE 2 60))) (domUp), acts 0x11 ((Bytes.zeros 24).patch 16 (Bytes.ofLE 2 60)), by decide +kernel⟩

theorem wit_JoinsAndShares_1 : ∃ (s : State) (c : Ceremony),
    Executing s Act.domainJoin c :=
  ⟨actUp (acts 0x12 (Bytes.zeros 400)) (up), acts 0x12 (Bytes.zeros 400), by decide +kernel⟩

theorem wit_JoinsAndShares_2 : ∃ (s : State) (c : Ceremony),
    Executing s Act.shareRestore c :=
  ⟨actUp (acts 0x14 (Bytes.zeros 48)) (up), acts 0x14 (Bytes.zeros 48), by decide +kernel⟩

theorem wit_JoinsAndShares_3 : ∃ (s : State) (c : Ceremony),
    Executing s Act.shareExport c :=
  ⟨actUp (acts 0x13 ((Bytes.zeros 16).patch 8 [2, 2])) (domUp), acts 0x13 ((Bytes.zeros 16).patch 8 [2, 2]), by decide +kernel⟩

theorem wit_ContinueRestoresTheKey_0 : ∃ (s : State) (j : Job) (c : Ceremony),
    s.admin? 0 Op.ceremony = some j ∧
    cerOp j.entry = 3 ∧
    firstFail (continueRows s j.entry) = none ∧
    j.reads = .arrived ∧
    s.named j.entry = some c ∧
    c.action = Act.shareRestore :=
  ⟨opened { cer1 0x14 (Bytes.zeros 48) with stage := .window, windowEnd := 100 * second } (with1 (fed [Bytes.zeros 64] (cer [(0x10, 1, 3), (0x14, 4, 9), (0x18, 8, 0x7000), (0x20, 4, 1809), (0x24, 4, 0), (0x28, 8, 0x50000)])) (up)), fed [Bytes.zeros 64] (cer [(0x10, 1, 3), (0x14, 4, 9), (0x18, 8, 0x7000), (0x20, 4, 1809), (0x24, 4, 0), (0x28, 8, 0x50000)]), { cer1 0x14 (Bytes.zeros 48) with stage := .window, windowEnd := 100 * second }, by decide +kernel⟩

theorem wit_ContinueRestoresTheKey_1 : ∃ (s : State) (j : Job) (c : Ceremony),
    s.admin? 0 Op.ceremony = some j ∧
    cerOp j.entry = 3 ∧
    firstFail (continueRows s j.entry) = none ∧
    j.reads = .arrived ∧
    s.named j.entry = some c ∧
    c.action = Act.domainAdmit :=
  ⟨opened { cer1 0x11 (Bytes.zeros 24) with stage := .window, windowEnd := 100 * second } (with1 (fed [Bytes.zeros 64] (cer [(0x10, 1, 3), (0x14, 4, 9), (0x18, 8, 0x7000), (0x20, 4, 2000), (0x24, 4, 0), (0x28, 8, 0x50000)])) (domUp)), fed [Bytes.zeros 64] (cer [(0x10, 1, 3), (0x14, 4, 9), (0x18, 8, 0x7000), (0x20, 4, 2000), (0x24, 4, 0), (0x28, 8, 0x50000)]), { cer1 0x11 (Bytes.zeros 24) with stage := .window, windowEnd := 100 * second }, by decide +kernel⟩

theorem wit_ContinueRestoresTheKey_2 : ∃ (s : State) (j : Job) (c : Ceremony),
    s.admin? 0 Op.ceremony = some j ∧
    cerOp j.entry = 3 ∧
    firstFail (continueRows s j.entry) = none ∧
    j.reads = .arrived ∧
    s.named j.entry = some c ∧
    c.action = Act.domainJoin :=
  ⟨opened { cer1 0x12 (Bytes.zeros 400) with stage := .window, windowEnd := 100 * second } (with1 (fed [Bytes.zeros 64] (cer [(0x10, 1, 3), (0x14, 4, 9), (0x18, 8, 0x7000), (0x20, 4, 5146), (0x24, 4, 0), (0x28, 8, 0x50000)])) (up)), fed [Bytes.zeros 64] (cer [(0x10, 1, 3), (0x14, 4, 9), (0x18, 8, 0x7000), (0x20, 4, 5146), (0x24, 4, 0), (0x28, 8, 0x50000)]), { cer1 0x12 (Bytes.zeros 400) with stage := .window, windowEnd := 100 * second }, by decide +kernel⟩

theorem wit_ContinueRestoresTheKey_3_a : ∃ (dk : Bytes) (x : Nat) (y : Nat),
    dk.length = 32 ∧
    1 ≤ x ∧
    x ≤ 16 ∧
    1 ≤ y ∧
    y ≤ 16 ∧
    x ≠ y :=
  ⟨List.replicate 32 0xA5#8, 1, 16, by decide +kernel⟩

theorem wit_ContinueRestoresTheKey_3_b : ∃ (dk : Bytes) (x : Nat) (y : Nat),
    dk.length = 32 ∧
    1 ≤ x ∧
    x ≤ 16 ∧
    1 ≤ y ∧
    y ≤ 16 ∧
    x ≠ y :=
  ⟨List.replicate 32 0xA5#8, 16, 15, by decide +kernel⟩

theorem wit_LifeCycleActions_0 : ∃ (s : State) (c : Ceremony),
    Executing s Act.lock c :=
  ⟨actUp (acts 0x20 ([])) (up), acts 0x20 ([]), by decide +kernel⟩

theorem wit_LifeCycleActions_1_a : ∃ (s : State) (c : Ceremony),
    Executing s Act.unlock c ∧
    startRefusal s c = none ∧
    s.life.lockClass ≠ .v :=
  ⟨actUp (acts 0x21 ([])) ({ up with life := { up.life with lc := .locked, lockClass := .ceremony, before := .operational } }), acts 0x21 ([]), by decide +kernel⟩

theorem wit_LifeCycleActions_1_b : ∃ (s : State) (c : Ceremony),
    Executing s Act.unlock c ∧
    startRefusal s c = none ∧
    s.life.lockClass ≠ .v :=
  ⟨actUp (acts 0x21 ([])) ({ up with life := { up.life with lc := .locked, lockClass := .l, before := .operational } }), acts 0x21 ([]), by decide +kernel⟩

theorem wit_LifeCycleActions_1_c : ∃ (s : State) (c : Ceremony),
    Executing s Act.unlock c ∧
    startRefusal s c = none ∧
    s.life.lockClass ≠ .v :=
  ⟨actUp (acts 0x21 ([])) ({ up with life := { up.life with lc := .locked, lockClass := .z, before := .operational } }), acts 0x21 ([]), by decide +kernel⟩

theorem wit_LifeCycleActions_2_a : ∃ (s : State) (c : Ceremony),
    Executing s Act.unlock c ∧
    startRefusal s c = none ∧
    ((s.life.lockClass = .ceremony ∨ s.life.lockClass = .l)) :=
  ⟨actUp (acts 0x21 ([])) ({ up with life := { up.life with lc := .locked, lockClass := .ceremony, before := .operational } }), acts 0x21 ([]), by decide +kernel⟩

theorem wit_LifeCycleActions_2_b : ∃ (s : State) (c : Ceremony),
    Executing s Act.unlock c ∧
    startRefusal s c = none ∧
    ((s.life.lockClass = .ceremony ∨ s.life.lockClass = .l)) :=
  ⟨actUp (acts 0x21 ([])) ({ up with life := { up.life with lc := .locked, lockClass := .l, before := .operational } }), acts 0x21 ([]), by decide +kernel⟩

theorem wit_LifeCycleActions_3 : ∃ (s : State) (c : Ceremony),
    Executing s Act.unlock c ∧
    startRefusal s c = none ∧
    s.life.lockClass = .z :=
  ⟨actUp (acts 0x21 ([])) ({ up with life := { up.life with lc := .locked, lockClass := .z, before := .operational } }), acts 0x21 ([]), by decide +kernel⟩

theorem wit_LifeCycleActions_4 : ∃ (s : State) (u : State) (c : Ceremony) (root : Bytes),
    Executing s Act.unlock c ∧
    startRefusal s c = none ∧
    s.life.lockClass = .v ∧
    fwRandom 32 s = .ok (root, u) :=
  ⟨actUp (acts 0x21 ([])) ({ up with life := { up.life with lc := .locked, lockClass := .v, before := .operational } }), (drawnOf (fwRandom 32 (actUp (acts 0x21 ([])) ({ up with life := { up.life with lc := .locked, lockClass := .v, before := .operational } })))).2, acts 0x21 ([]), (drawnOf (fwRandom 32 (actUp (acts 0x21 ([])) ({ up with life := { up.life with lc := .locked, lockClass := .v, before := .operational } })))).1, by decide +kernel, by decide +kernel, by decide +kernel, drawn_ok (by decide +kernel)⟩

theorem wit_LifeCycleActions_5 : ∃ (s : State) (u : State) (c : Ceremony) (b : Bytes),
    Executing s Act.debugEnter c ∧
    s.boot.testEn = true ∧
    fwRandom 48 s = .ok (b, u) :=
  ⟨actUp (acts 0x22 ([])) ({ up with boot := { up.boot with testEn := true } }), (drawnOf (fwRandom 48 (actUp (acts 0x22 ([])) ({ up with boot := { up.boot with testEn := true } })))).2, acts 0x22 ([]), (drawnOf (fwRandom 48 (actUp (acts 0x22 ([])) ({ up with boot := { up.boot with testEn := true } })))).1, by decide +kernel, by decide +kernel, drawn_ok (by decide +kernel)⟩

theorem wit_LifeCycleActions_6 : ∃ (s : State) (u : State) (c : Ceremony) (root : Bytes),
    Executing s Act.debugExit c ∧
    fwRandom 32 s = .ok (root, u) :=
  ⟨actUp (acts 0x23 ([])) ({ up with life := { up.life with lc := .debug } }), (drawnOf (fwRandom 32 (actUp (acts 0x23 ([])) ({ up with life := { up.life with lc := .debug } })))).2, acts 0x23 ([]), (drawnOf (fwRandom 32 (actUp (acts 0x23 ([])) ({ up with life := { up.life with lc := .debug } })))).1, by decide +kernel, drawn_ok (by decide +kernel)⟩

theorem wit_LifeCycleActions_7 : ∃ (s : State) (c : Ceremony),
    Executing s Act.decommission c :=
  ⟨actUp (acts 0x24 ([])) (up), acts 0x24 ([]), by decide +kernel⟩

theorem wit_LifeCycleActions_8_a : ∃ (s : State) (c : Ceremony) (i : Instr) (n : Nat) (d : Done),
    Executing s n c ∧
    startRefusal s c = some d ∧
    ((i = .unlock ∧ n = Act.unlock ∨ i = .debugEnter ∧ n = Act.debugEnter)) :=
  ⟨actUp (acts 0x21 ([])) ({ up with vesper := { up.vesper with cond := 4 } }), acts 0x21 ([]), .unlock, Act.unlock, { status := 0x71, detail := 0x05 }, by decide +kernel⟩

theorem wit_LifeCycleActions_8_b : ∃ (s : State) (c : Ceremony) (i : Instr) (n : Nat) (d : Done),
    Executing s n c ∧
    startRefusal s c = some d ∧
    ((i = .unlock ∧ n = Act.unlock ∨ i = .debugEnter ∧ n = Act.debugEnter)) :=
  ⟨actUp (acts 0x22 ([])) (up), acts 0x22 ([]), .debugEnter, Act.debugEnter, { status := 0x71, detail := 0x06 }, by decide +kernel⟩

theorem wit_LifeCycleActions_9_a : ∃ (s u : State) (c : Ceremony), (Executing s Act.unlock c ∧ startRefusal s c = none ∧ s.life.lockClass = .v) ∧ fwRandom 32 s = .error u :=
  ⟨actUp (acts 0x21 []) (rngUp ({ up with life := { up.life with lc := .locked, lockClass := .v, before := .operational } }) fun r => { r with seeded := false, fwBuf := [] }), (drawnOf (fwRandom 32 (actUp (acts 0x21 []) (rngUp ({ up with life := { up.life with lc := .locked, lockClass := .v, before := .operational } }) fun r => { r with seeded := false, fwBuf := [] })))).2, acts 0x21 [], by decide +kernel, drawn_error (by decide +kernel)⟩

theorem wit_LifeCycleActions_9_b : ∃ (s u : State) (c : Ceremony), (Executing s Act.debugEnter c ∧ s.boot.testEn = true) ∧ fwRandom 48 s = .error u :=
  ⟨actUp (acts 0x22 []) (rngUp ({ up with boot := { up.boot with testEn := true } }) fun r => { r with seeded := false, fwBuf := [] }), (drawnOf (fwRandom 48 (actUp (acts 0x22 []) (rngUp ({ up with boot := { up.boot with testEn := true } }) fun r => { r with seeded := false, fwBuf := [] })))).2, acts 0x22 [], by decide +kernel, drawn_error (by decide +kernel)⟩

theorem wit_LifeCycleActions_9_c : ∃ (s u : State) (c : Ceremony), Executing s Act.debugExit c ∧ fwRandom 32 s = .error u :=
  ⟨actUp (acts 0x23 []) (rngUp ({ up with life := { up.life with lc := .debug } }) fun r => { r with seeded := false, fwBuf := [] }), (drawnOf (fwRandom 32 (actUp (acts 0x23 []) (rngUp ({ up with life := { up.life with lc := .debug } }) fun r => { r with seeded := false, fwBuf := [] })))).2, acts 0x23 [], by decide +kernel, drawn_error (by decide +kernel)⟩

theorem wit_FirmwareKeysQuorumCell_0_a : ∃ (s : State) (c : Ceremony) (image : Bytes), Executing s Act.fwRegister c ∧ ImageHere s c image :=
  ⟨actUp (acts 0x30 (Bytes.zeros 80)) up, acts 0x30 (Bytes.zeros 80), [], by decide +kernel, .inr ⟨callJob.ref, callJob, by decide +kernel⟩⟩

theorem wit_FirmwareKeysQuorumCell_0_b : ∃ (s : State) (c : Ceremony) (image : Bytes), Executing s Act.fwRegister c ∧ ImageHere s c image :=
  ⟨opened { cer1 0x30 (Bytes.zeros 80) with stage := .executing, caller := some (.fdp 5 9 64) } up, { cer1 0x30 (Bytes.zeros 80) with stage := .executing, caller := some (.fdp 5 9 64) }, [], by decide +kernel, .inl ⟨(fun _ h => by cases h), by decide +kernel⟩⟩

theorem wit_FirmwareKeysQuorumCell_1 : ∃ (s : State) (c : Ceremony) (r : JobRef) (k : Job),
    Executing s Act.fwRegister c ∧
    c.caller = some (.admin r) ∧
    s.job? r = some k ∧
    k.outcome = none ∧
    k.reads = .none_ :=
  ⟨opened (acts 0x30 (Bytes.zeros 80)) (with1 { callJob with reads := .none_ } up), acts 0x30 (Bytes.zeros 80), callJob.ref, { callJob with reads := .none_ }, by decide +kernel⟩

theorem wit_FirmwareKeysQuorumCell_2 : ∃ (s : State) (c : Ceremony),
    Executing s Act.extKey c ∧
    c.params.at_ 9 = 0 :=
  ⟨actUp (acts 0x31 ((Bytes.zeros 113).patch 8 [2, 0, 1, 0, 97])) (up), acts 0x31 ((Bytes.zeros 113).patch 8 [2, 0, 1, 0, 97]), by decide +kernel⟩

theorem wit_FirmwareKeysQuorumCell_3 : ∃ (s : State) (c : Ceremony),
    Executing s Act.extKey c ∧
    c.params.at_ 9 ≠ 0 :=
  ⟨actUp (acts 0x31 ((Bytes.zeros 16).patch 8 [2, 1])) (up), acts 0x31 ((Bytes.zeros 16).patch 8 [2, 1]), by decide +kernel⟩

theorem wit_FirmwareKeysQuorumCell_4 : ∃ (s : State) (c : Ceremony),
    Executing s Act.dictQuorum c :=
  ⟨actUp (acts 0x40 (Bytes.ofLE 2 0x40 ++ Bytes.ofLE 2 1 ++ Bytes.ofLE 4 32 ++ Bytes.ofNats [1, 0, 0, 0, 0, 0, 0, 0] ++ Bytes.ofLE 2 0x3000 ++ Bytes.ofLE 2 1 ++ Bytes.ofLE 2 1 ++ [0, 0, 8, 0, 0, 0, 0, 0, 0, 0])) (up), acts 0x40 (Bytes.ofLE 2 0x40 ++ Bytes.ofLE 2 1 ++ Bytes.ofLE 4 32 ++ Bytes.ofNats [1, 0, 0, 0, 0, 0, 0, 0] ++ Bytes.ofLE 2 0x3000 ++ Bytes.ofLE 2 1 ++ Bytes.ofLE 2 1 ++ [0, 0, 8, 0, 0, 0, 0, 0, 0, 0]), by decide +kernel⟩

theorem wit_FirmwareKeysQuorumCell_5 : ∃ (s : State) (c : Ceremony) (w : QuorumWrite) (o : Obj),
    Executing s Act.dictQuorum c ∧
    blockWrites c.params = some [w] ∧
    quorumRefusal s w = none ∧
    objOf w.index w.sub = some o ∧
    o.cls = .p :=
  ⟨actUp (acts 0x40 (Bytes.ofLE 2 0x40 ++ Bytes.ofLE 2 1 ++ Bytes.ofLE 4 32 ++ Bytes.ofNats [1, 0, 0, 0, 0, 0, 0, 0] ++ Bytes.ofLE 2 0x3000 ++ Bytes.ofLE 2 1 ++ Bytes.ofLE 2 1 ++ [0, 0, 8, 0, 0, 0, 0, 0, 0, 0])) (up), acts 0x40 (Bytes.ofLE 2 0x40 ++ Bytes.ofLE 2 1 ++ Bytes.ofLE 4 32 ++ Bytes.ofNats [1, 0, 0, 0, 0, 0, 0, 0] ++ Bytes.ofLE 2 0x3000 ++ Bytes.ofLE 2 1 ++ Bytes.ofLE 2 1 ++ [0, 0, 8, 0, 0, 0, 0, 0, 0, 0]), { index := 0x3000, sub := 1, value := [8] }, (objOf 0x3000 1).getD { sub := 0, ty := Ty.bool, cls := .c, len := 0, name := "" }, by decide +kernel⟩

theorem wit_FirmwareKeysQuorumCell_6 : ∃ (s : State) (c : Ceremony),
    Executing s Act.cellService c :=
  ⟨actUp (acts 0x41 ((Bytes.zeros 16).patch 8 (Bytes.ofLE 2 600))) (up), acts 0x41 ((Bytes.zeros 16).patch 8 (Bytes.ofLE 2 600)), by decide +kernel⟩

theorem wit_ExtensionsAreManaged_0 : ∃ (s : State) (j : Job),
    ManagerCall s j 0 ∧
    callInLen j.entry ≠ 0 ∧
    j.reads = .arrived :=
  ⟨with1 (fed [Bytes.zeros 64] (cmdOf 0 64 0xD0 [(0x14, 4, 64), (0x18, 8, 0x50000)])) up, fed [Bytes.zeros 64] (cmdOf 0 64 0xD0 [(0x14, 4, 64), (0x18, 8, 0x50000)]), by decide +kernel⟩

theorem wit_ExtensionsAreManaged_1 : ∃ (s : State) (j : Job),
    ManagerCall s j 0 ∧
    callInLen j.entry = 0 :=
  ⟨with1 (cmdOf 0 64 0xD0 []) up, cmdOf 0 64 0xD0 [], by decide +kernel⟩

theorem wit_ExtensionsAreManaged_2 : ∃ (s : State) (j : Job),
    ManagerCall s j 0 ∧
    callInLen j.entry ≠ 0 ∧
    j.reads = .none_ :=
  ⟨with1 (cmdOf 0 64 0xD0 [(0x14, 4, 64), (0x18, 8, 0x50000)]) up, cmdOf 0 64 0xD0 [(0x14, 4, 64), (0x18, 8, 0x50000)], by decide +kernel⟩

theorem wit_ExtensionsAreManaged_3 : ∃ (s : State) (j : Job) (x : Ext),
    ManagerCall s j 1 ∧
    s.ext? (callArg0 j.entry) = some x :=
  ⟨{ up with jobs := [cmdOf 0 64 0xD0 [(0x11, 1, 1), (0x2C, 4, 3)], extJob], worlds := { up.worlds with exts := [ext1], calls := [call1] } }, cmdOf 0 64 0xD0 [(0x11, 1, 1), (0x2C, 4, 3)], ext1, by decide +kernel⟩

theorem wit_ExtensionsAreManaged_4 : ∃ (s : State) (j : Job),
    ManagerCall s j 1 ∧
    s.ext? (callArg0 j.entry) = none :=
  ⟨with1 (cmdOf 0 64 0xD0 [(0x11, 1, 1), (0x2C, 4, 3)]) up, cmdOf 0 64 0xD0 [(0x11, 1, 1), (0x2C, 4, 3)], by decide +kernel⟩

theorem wit_ExtensionsAreManaged_5_a : ∃ (s : State) (j : Job),
    ManagerCall s j 2 :=
  ⟨extUp (with1 (cmdOf 0 64 0xD0 [(0x11, 1, 2), (0x20, 8, 0x50000), (0x28, 4, 4096)]) up), cmdOf 0 64 0xD0 [(0x11, 1, 2), (0x20, 8, 0x50000), (0x28, 4, 4096)], by decide +kernel⟩

theorem wit_ExtensionsAreManaged_5_b : ∃ (s : State) (j : Job),
    ManagerCall s j 2 :=
  ⟨extUp (with1 (cmdOf 0 64 0xD0 [(0x11, 1, 2), (0x20, 8, 0x50000), (0x28, 4, 100)]) up), cmdOf 0 64 0xD0 [(0x11, 1, 2), (0x20, 8, 0x50000), (0x28, 4, 100)], by decide +kernel⟩

theorem wit_ExtensionsAreManaged_6_a : ∃ (s : State) (f : Nat) (j : Job),
    s.admin? f Op.extCall = some j ∧
    callService j.entry ≠ 0 ∧
    (s.worlds.calls.any fun c => decide (c.job = j.ref)) = false :=
  ⟨{ extUp (with1 (cmdOf 1 64 0xD0 [(0x10, 1, 3)]) up) with worlds := { up.worlds with exts := [ext1] } }, 1, cmdOf 1 64 0xD0 [(0x10, 1, 3)], by decide +kernel⟩

theorem wit_ExtensionsAreManaged_6_b : ∃ (s : State) (f : Nat) (j : Job),
    s.admin? f Op.extCall = some j ∧
    callService j.entry ≠ 0 ∧
    (s.worlds.calls.any fun c => decide (c.job = j.ref)) = false :=
  ⟨{ extUp (with1 (cmdOf 1 64 0xD0 [(0x10, 1, 4)]) up) with worlds := { up.worlds with exts := [ext1] } }, 1, cmdOf 1 64 0xD0 [(0x10, 1, 4)], by decide +kernel⟩

theorem wit_ExtensionServices_0_a : ∃ (s : State) (x : Nat) (c : Call) (j : Job) (e : Ext),
    Serving s x c j e :=
  ⟨serving, 3, call1, extJob, ext1, by decide +kernel⟩

theorem wit_ExtensionServices_0_b : ∃ (s : State) (x : Nat) (c : Call) (j : Job) (e : Ext),
    Serving s x c j e :=
  ⟨serving, 3, call1, extJob, ext1, by decide +kernel⟩

theorem wit_ExtensionServices_1_a : ∃ (s : State) (x : Nat) (dst : Nat) (n : Nat) (c : Call) (j : Job) (e : Ext),
    Serving s x c j e ∧
    ((n = 0 ∨ inPages (e.data ++ e.zero) dst n = true)) :=
  ⟨extUp (with1 (extJob) up), 3, 0x10000000 + 4096 * 601, 16, call1, extJob, ext1, by decide +kernel⟩

theorem wit_ExtensionServices_1_b : ∃ (s : State) (x : Nat) (dst : Nat) (n : Nat) (c : Call) (j : Job) (e : Ext),
    Serving s x c j e ∧
    ((n = 0 ∨ inPages (e.data ++ e.zero) dst n = true)) :=
  ⟨extUp (with1 (fed [Bytes.ofLE 64 0x0123456789] extJob) up), 3, 0x10000000 + 4096 * 601, 16, call1, fed [Bytes.ofLE 64 0x0123456789] extJob, ext1, by decide +kernel⟩

theorem wit_ExtensionServices_1_c : ∃ (s : State) (x : Nat) (dst : Nat) (n : Nat) (c : Call) (j : Job) (e : Ext),
    Serving s x c j e ∧
    ((n = 0 ∨ inPages (e.data ++ e.zero) dst n = true)) :=
  ⟨extUp (with1 ({ extJob with reads := .outstanding }) up), 3, 0x10000000 + 4096 * 601, 16, call1, { extJob with reads := .outstanding }, ext1, by decide +kernel⟩

theorem wit_ExtensionServices_1_d : ∃ (s : State) (x : Nat) (dst : Nat) (n : Nat) (c : Call) (j : Job) (e : Ext),
    Serving s x c j e ∧
    ((n = 0 ∨ inPages (e.data ++ e.zero) dst n = true)) :=
  ⟨extUp (with1 (extJob) up), 3, 0x10000000 + 4096 * 601, 16, call1, extJob, ext1, by decide +kernel⟩

theorem wit_ExtensionServices_2_a : ∃ (s : State) (x : Nat) (src : Nat) (n : Nat) (c : Call) (j : Job) (e : Ext),
    Serving s x c j e ∧
    ((n = 0 ∨ inPages e.pages src n = true)) :=
  ⟨serving, 3, 0x10000000 + 4096 * 600 + 4090, 16, call1, extJob, ext1, by decide +kernel⟩

theorem wit_ExtensionServices_2_b : ∃ (s : State) (x : Nat) (src : Nat) (n : Nat) (c : Call) (j : Job) (e : Ext),
    Serving s x c j e ∧
    ((n = 0 ∨ inPages e.pages src n = true)) :=
  ⟨serving, 3, 0x10000000 + 4096 * 600, 16, call1, extJob, ext1, by decide +kernel⟩

theorem wit_ExtensionServices_3 : ∃ (s : State) (x : Nat) (entryAt : Nat) (slots : Nat) (recAt : Nat) (c : Call) (j : Job) (e : Ext),
    Serving s x c j e ∧
    imgFlag e.header 1 = true ∧
    ((slots = 0 ∨ inPages e.pages entryAt (64 * slots) = true)) ∧
    inPages (e.data ++ e.zero) recAt 32 = true :=
  ⟨serving, 3, 0x10000000 + 4096 * 601, 1, 0x10000000 + 4096 * 601 + 64, call1, extJob, ext1, by decide +kernel⟩

theorem wit_ExtensionServices_4_a : ∃ (s : State) (x : Nat) (dst : Nat) (n : Nat) (c : Call) (j : Job) (e : Ext),
    Serving s x c j e ∧
    ((n = 0 ∨ inPages (e.data ++ e.zero) dst (min n 256) = true)) :=
  ⟨modFn 1 (fun g => { g with rngBuf := List.replicate 64 7#8 }) serving, 3, 0x10000000 + 4096 * 601, 16, call1, extJob, ext1, by decide +kernel⟩

theorem wit_ExtensionServices_4_b : ∃ (s : State) (x : Nat) (dst : Nat) (n : Nat) (c : Call) (j : Job) (e : Ext),
    Serving s x c j e ∧
    ((n = 0 ∨ inPages (e.data ++ e.zero) dst (min n 256) = true)) :=
  ⟨modFn 1 (fun g => { g with rngBuf := List.replicate 64 7#8 }) serving, 3, 0x10000000 + 4096 * 601, 65, call1, extJob, ext1, by decide +kernel⟩

theorem wit_ExtensionServices_5 : ∃ (s : State) (x : Nat) (dst : Nat) (c : Call) (j : Job) (e : Ext),
    Serving s x c j e ∧
    inPages (e.data ++ e.zero) dst 8 = true :=
  ⟨serving, 3, 0x10000000 + 4096 * 601, call1, extJob, ext1, by decide +kernel⟩

theorem wit_ExtensionServices_6_a : ∃ (s : State) (x : Nat) (c : Call) (j : Job) (e : Ext),
    Serving s x c j e ∧
    imgFlag e.header 2 = true :=
  ⟨serving, 3, call1, extJob, ext1, by decide +kernel⟩

theorem wit_ExtensionServices_6_b : ∃ (s : State) (x : Nat) (c : Call) (j : Job) (e : Ext),
    Serving s x c j e ∧
    imgFlag e.header 2 = true :=
  ⟨serving, 3, call1, extJob, ext1, by decide +kernel⟩

theorem wit_ExtensionServices_7 : ∃ (s : State) (x : Nat) (c : Call) (j : Job) (e : Ext),
    Serving s x c j e :=
  ⟨serving, 3, call1, extJob, ext1, by decide +kernel⟩

theorem wit_ExtensionServices_8_a : ∃ (s : State) (i : Instr) (x : Nat) (a : Nat) (b : Nat) (n : Nat) (m : Nat) (c : Call) (j : Job) (e : Ext),
    Serving s x c j e ∧
    ((i = .readIn x a b n ∧ n ≠ 0 ∧ inPages (e.data ++ e.zero) b n = false ∨
      i = .writeOut x a b n ∧ n ≠ 0 ∧ inPages e.pages a n = false ∨
      i = .submit x a n b ∧ (n ≠ 0 ∧ inPages e.pages a (64 * n) = false ∨ inPages (e.data ++ e.zero) b 32 = false ∨
        imgFlag e.header 1 = false) ∨
      i = .random x a n ∧ n ≠ 0 ∧ inPages (e.data ++ e.zero) a (min n 256) = false ∨
      i = .time x a ∧ inPages (e.data ++ e.zero) a 8 = false ∨ i = .extDictRead x a b n m ∧ (imgFlag e.header 2 = false ∨
        let v := (dictReadBy (hostUser c.job.fn) (dictReadEntry a b m) s).2
        s.secureRuns = true ∧ v ≠ [] ∧ inPages (e.data ++ e.zero) n v.length = false))) :=
  ⟨serving, .readIn 3 60 (0x10000000 + 4096 * 600) 16, 3, 60, 0x10000000 + 4096 * 600, 16, 0, call1, extJob, ext1, by decide +kernel⟩

theorem wit_ExtensionServices_8_b : ∃ (s : State) (i : Instr) (x : Nat) (a : Nat) (b : Nat) (n : Nat) (m : Nat) (c : Call) (j : Job) (e : Ext),
    Serving s x c j e ∧
    ((i = .readIn x a b n ∧ n ≠ 0 ∧ inPages (e.data ++ e.zero) b n = false ∨
      i = .writeOut x a b n ∧ n ≠ 0 ∧ inPages e.pages a n = false ∨
      i = .submit x a n b ∧ (n ≠ 0 ∧ inPages e.pages a (64 * n) = false ∨ inPages (e.data ++ e.zero) b 32 = false ∨
        imgFlag e.header 1 = false) ∨
      i = .random x a n ∧ n ≠ 0 ∧ inPages (e.data ++ e.zero) a (min n 256) = false ∨
      i = .time x a ∧ inPages (e.data ++ e.zero) a 8 = false ∨ i = .extDictRead x a b n m ∧ (imgFlag e.header 2 = false ∨
        let v := (dictReadBy (hostUser c.job.fn) (dictReadEntry a b m) s).2
        s.secureRuns = true ∧ v ≠ [] ∧ inPages (e.data ++ e.zero) n v.length = false))) :=
  ⟨serving, .writeOut 3 0 60 16, 3, 0, 60, 16, 0, call1, extJob, ext1, by decide +kernel⟩

theorem wit_ExtensionServices_8_c : ∃ (s : State) (i : Instr) (x : Nat) (a : Nat) (b : Nat) (n : Nat) (m : Nat) (c : Call) (j : Job) (e : Ext),
    Serving s x c j e ∧
    ((i = .readIn x a b n ∧ n ≠ 0 ∧ inPages (e.data ++ e.zero) b n = false ∨
      i = .writeOut x a b n ∧ n ≠ 0 ∧ inPages e.pages a n = false ∨
      i = .submit x a n b ∧ (n ≠ 0 ∧ inPages e.pages a (64 * n) = false ∨ inPages (e.data ++ e.zero) b 32 = false ∨
        imgFlag e.header 1 = false) ∨
      i = .random x a n ∧ n ≠ 0 ∧ inPages (e.data ++ e.zero) a (min n 256) = false ∨
      i = .time x a ∧ inPages (e.data ++ e.zero) a 8 = false ∨ i = .extDictRead x a b n m ∧ (imgFlag e.header 2 = false ∨
        let v := (dictReadBy (hostUser c.job.fn) (dictReadEntry a b m) s).2
        s.secureRuns = true ∧ v ≠ [] ∧ inPages (e.data ++ e.zero) n v.length = false))) :=
  ⟨serving, .submit 3 0 1 (0x10000000 + 4096 * 601), 3, 0, 0x10000000 + 4096 * 601, 1, 0, call1, extJob, ext1, by decide +kernel⟩

theorem wit_ExtensionServices_8_d : ∃ (s : State) (i : Instr) (x : Nat) (a : Nat) (b : Nat) (n : Nat) (m : Nat) (c : Call) (j : Job) (e : Ext),
    Serving s x c j e ∧
    ((i = .readIn x a b n ∧ n ≠ 0 ∧ inPages (e.data ++ e.zero) b n = false ∨
      i = .writeOut x a b n ∧ n ≠ 0 ∧ inPages e.pages a n = false ∨
      i = .submit x a n b ∧ (n ≠ 0 ∧ inPages e.pages a (64 * n) = false ∨ inPages (e.data ++ e.zero) b 32 = false ∨
        imgFlag e.header 1 = false) ∨
      i = .random x a n ∧ n ≠ 0 ∧ inPages (e.data ++ e.zero) a (min n 256) = false ∨
      i = .time x a ∧ inPages (e.data ++ e.zero) a 8 = false ∨ i = .extDictRead x a b n m ∧ (imgFlag e.header 2 = false ∨
        let v := (dictReadBy (hostUser c.job.fn) (dictReadEntry a b m) s).2
        s.secureRuns = true ∧ v ≠ [] ∧ inPages (e.data ++ e.zero) n v.length = false))) :=
  ⟨serving, .submit 3 (0x10000000 + 4096 * 601) 1 (0x10000000 + 4096 * 600), 3, 0x10000000 + 4096 * 601, 0x10000000 + 4096 * 600, 1, 0, call1, extJob, ext1, by decide +kernel⟩

theorem wit_ExtensionServices_8_e : ∃ (s : State) (i : Instr) (x : Nat) (a : Nat) (b : Nat) (n : Nat) (m : Nat) (c : Call) (j : Job) (e : Ext),
    Serving s x c j e ∧
    ((i = .readIn x a b n ∧ n ≠ 0 ∧ inPages (e.data ++ e.zero) b n = false ∨
      i = .writeOut x a b n ∧ n ≠ 0 ∧ inPages e.pages a n = false ∨
      i = .submit x a n b ∧ (n ≠ 0 ∧ inPages e.pages a (64 * n) = false ∨ inPages (e.data ++ e.zero) b 32 = false ∨
        imgFlag e.header 1 = false) ∨
      i = .random x a n ∧ n ≠ 0 ∧ inPages (e.data ++ e.zero) a (min n 256) = false ∨
      i = .time x a ∧ inPages (e.data ++ e.zero) a 8 = false ∨ i = .extDictRead x a b n m ∧ (imgFlag e.header 2 = false ∨
        let v := (dictReadBy (hostUser c.job.fn) (dictReadEntry a b m) s).2
        s.secureRuns = true ∧ v ≠ [] ∧ inPages (e.data ++ e.zero) n v.length = false))) :=
  ⟨{ serving with worlds := { serving.worlds with exts := [{ ext1 with header := Bytes.zeros 128 }] } }, .submit 3 (0x10000000 + 4096 * 601) 1 (0x10000000 + 4096 * 601), 3, 0x10000000 + 4096 * 601, 0x10000000 + 4096 * 601, 1, 0, call1, extJob, { ext1 with header := Bytes.zeros 128 }, by decide +kernel⟩

theorem wit_ExtensionServices_8_f : ∃ (s : State) (i : Instr) (x : Nat) (a : Nat) (b : Nat) (n : Nat) (m : Nat) (c : Call) (j : Job) (e : Ext),
    Serving s x c j e ∧
    ((i = .readIn x a b n ∧ n ≠ 0 ∧ inPages (e.data ++ e.zero) b n = false ∨
      i = .writeOut x a b n ∧ n ≠ 0 ∧ inPages e.pages a n = false ∨
      i = .submit x a n b ∧ (n ≠ 0 ∧ inPages e.pages a (64 * n) = false ∨ inPages (e.data ++ e.zero) b 32 = false ∨
        imgFlag e.header 1 = false) ∨
      i = .random x a n ∧ n ≠ 0 ∧ inPages (e.data ++ e.zero) a (min n 256) = false ∨
      i = .time x a ∧ inPages (e.data ++ e.zero) a 8 = false ∨ i = .extDictRead x a b n m ∧ (imgFlag e.header 2 = false ∨
        let v := (dictReadBy (hostUser c.job.fn) (dictReadEntry a b m) s).2
        s.secureRuns = true ∧ v ≠ [] ∧ inPages (e.data ++ e.zero) n v.length = false))) :=
  ⟨serving, .random 3 (0x10000000 + 4096 * 600) 16, 3, 0x10000000 + 4096 * 600, 0, 16, 0, call1, extJob, ext1, by decide +kernel⟩

theorem wit_ExtensionServices_8_g : ∃ (s : State) (i : Instr) (x : Nat) (a : Nat) (b : Nat) (n : Nat) (m : Nat) (c : Call) (j : Job) (e : Ext),
    Serving s x c j e ∧
    ((i = .readIn x a b n ∧ n ≠ 0 ∧ inPages (e.data ++ e.zero) b n = false ∨
      i = .writeOut x a b n ∧ n ≠ 0 ∧ inPages e.pages a n = false ∨
      i = .submit x a n b ∧ (n ≠ 0 ∧ inPages e.pages a (64 * n) = false ∨ inPages (e.data ++ e.zero) b 32 = false ∨
        imgFlag e.header 1 = false) ∨
      i = .random x a n ∧ n ≠ 0 ∧ inPages (e.data ++ e.zero) a (min n 256) = false ∨
      i = .time x a ∧ inPages (e.data ++ e.zero) a 8 = false ∨ i = .extDictRead x a b n m ∧ (imgFlag e.header 2 = false ∨
        let v := (dictReadBy (hostUser c.job.fn) (dictReadEntry a b m) s).2
        s.secureRuns = true ∧ v ≠ [] ∧ inPages (e.data ++ e.zero) n v.length = false))) :=
  ⟨serving, .time 3 (0x10000000 + 4096 * 600), 3, 0x10000000 + 4096 * 600, 0, 0, 0, call1, extJob, ext1, by decide +kernel⟩

theorem wit_ExtensionServices_8_h : ∃ (s : State) (i : Instr) (x : Nat) (a : Nat) (b : Nat) (n : Nat) (m : Nat) (c : Call) (j : Job) (e : Ext),
    Serving s x c j e ∧
    ((i = .readIn x a b n ∧ n ≠ 0 ∧ inPages (e.data ++ e.zero) b n = false ∨
      i = .writeOut x a b n ∧ n ≠ 0 ∧ inPages e.pages a n = false ∨
      i = .submit x a n b ∧ (n ≠ 0 ∧ inPages e.pages a (64 * n) = false ∨ inPages (e.data ++ e.zero) b 32 = false ∨
        imgFlag e.header 1 = false) ∨
      i = .random x a n ∧ n ≠ 0 ∧ inPages (e.data ++ e.zero) a (min n 256) = false ∨
      i = .time x a ∧ inPages (e.data ++ e.zero) a 8 = false ∨ i = .extDictRead x a b n m ∧ (imgFlag e.header 2 = false ∨
        let v := (dictReadBy (hostUser c.job.fn) (dictReadEntry a b m) s).2
        s.secureRuns = true ∧ v ≠ [] ∧ inPages (e.data ++ e.zero) n v.length = false))) :=
  ⟨{ serving with worlds := { serving.worlds with exts := [{ ext1 with header := Bytes.zeros 128 }] } }, .extDictRead 3 0x3000 3 (0x10000000 + 4096 * 601) 64, 3, 0x3000, 3, 0x10000000 + 4096 * 601, 64, call1, extJob, { ext1 with header := Bytes.zeros 128 }, by decide +kernel⟩

theorem wit_ExtensionServices_8_i : ∃ (s : State) (i : Instr) (x : Nat) (a : Nat) (b : Nat) (n : Nat) (m : Nat) (c : Call) (j : Job) (e : Ext),
    Serving s x c j e ∧
    ((i = .readIn x a b n ∧ n ≠ 0 ∧ inPages (e.data ++ e.zero) b n = false ∨
      i = .writeOut x a b n ∧ n ≠ 0 ∧ inPages e.pages a n = false ∨
      i = .submit x a n b ∧ (n ≠ 0 ∧ inPages e.pages a (64 * n) = false ∨ inPages (e.data ++ e.zero) b 32 = false ∨
        imgFlag e.header 1 = false) ∨
      i = .random x a n ∧ n ≠ 0 ∧ inPages (e.data ++ e.zero) a (min n 256) = false ∨
      i = .time x a ∧ inPages (e.data ++ e.zero) a 8 = false ∨ i = .extDictRead x a b n m ∧ (imgFlag e.header 2 = false ∨
        let v := (dictReadBy (hostUser c.job.fn) (dictReadEntry a b m) s).2
        s.secureRuns = true ∧ v ≠ [] ∧ inPages (e.data ++ e.zero) n v.length = false))) :=
  ⟨serving, .extDictRead 3 0 1 (0x10000000 + 4096 * 600) 64, 3, 0, 1, 0x10000000 + 4096 * 600, 64, call1, extJob, ext1, by decide +kernel⟩

theorem wit_ManagementPort_0_a : ∃ (s : State) (r : FdpRoute) (p : SessPath) (f : Bytes),
    Arriving s r p f Fdp.discover ∧
    frameLen f = 0 ∧
    frameMore f = false ∧
    frameFrag f = 0 ∧
    frameSession f = 0 :=
  ⟨up, .relay 0 (plainF Fdp.discover []), .relay 0, plainF Fdp.discover [], by decide +kernel⟩

theorem wit_ManagementPort_0_b : ∃ (s : State) (r : FdpRoute) (p : SessPath) (f : Bytes),
    Arriving s r p f Fdp.discover ∧
    frameLen f = 0 ∧
    frameMore f = false ∧
    frameFrag f = 0 ∧
    frameSession f = 0 :=
  ⟨up, .port (List.replicate 6 0xFF#8 ++ [1, 2, 3, 4, 5, 6] ++ Bytes.ofBE 2 0x88B5 ++ plainF Fdp.discover [] ++ Bytes.zeros 30), .port [1, 2, 3, 4, 5, 6], plainF Fdp.discover [] ++ Bytes.zeros 30, ⟨portFrame, by decide +kernel⟩, by decide +kernel, by decide +kernel, by decide +kernel, by decide +kernel⟩

theorem wit_ManagementPort_1 : ∃ (s : State) (ch : Nat) (f : Bytes),
    Arriving s (.relay ch f) (.relay ch) f Fdp.discover ∧
    frameLen f = 0 ∧
    frameMore f = false ∧
    frameFrag f = 0 ∧
    frameSession f = 0 ∧
    routeRoom s (.relay ch) (plainFrames Fdp.announce 0 (announceBytes s)) = true :=
  ⟨up, 0, plainF Fdp.discover [], by decide +kernel⟩

theorem wit_ManagementPort_2 : ∃ (s : State) (u : State) (r : FdpRoute) (p : SessPath) (f : Bytes) (m : Bytes),
    Arriving s r p f Fdp.hello ∧
    frameSession f = 0 ∧
    addFragment p.key Fdp.hello (frameFrag f) (frameMore f) (framePayload f) (received s) = (some m, u) :=
  ⟨up, (addFragment (SessPath.relay 0).key Fdp.hello 0 false (Bytes.zeros 40) (received up)).2, .relay 0 (plainF Fdp.hello (Bytes.zeros 40)), .relay 0, plainF Fdp.hello (Bytes.zeros 40), Bytes.zeros 40, by decide +kernel⟩

theorem wit_ManagementPort_3 : ∃ (s : State) (r : FdpRoute) (p : SessPath) (f : Bytes) (m : Bytes) (x : Session),
    Arriving s r p f Fdp.auth ∧
    WholeMessage s p f x m :=
  ⟨sessUp sess0, .relay 0 (sealF Fdp.auth (Bytes.ofLE 2 96 ++ Bytes.zeros 98)), .relay 0, sealF Fdp.auth (Bytes.ofLE 2 96 ++ Bytes.zeros 98), Bytes.ofLE 2 96 ++ Bytes.zeros 98, sess0, by decide +kernel⟩

theorem wit_ManagementPort_4_a : ∃ (s : State) (r : FdpRoute) (p : SessPath) (f : Bytes) (m : Bytes) (x : Session),
    Arriving s r p f Fdp.request ∧
    WholeMessage s p f x m ∧
    x.phase = .open_ ∧
    0x80 ≤ m.length :=
  ⟨sessUp { sess0 with phase := .open_ }, .relay 0 (sealF Fdp.request readReq), .relay 0, sealF Fdp.request readReq, readReq, { sess0 with phase := .open_ }, by decide +kernel, ⟨by decide +kernel, by decide +kernel, req_opens, by decide +kernel⟩, by decide +kernel, by decide +kernel⟩

theorem wit_ManagementPort_4_b : ∃ (s : State) (r : FdpRoute) (p : SessPath) (f : Bytes) (m : Bytes) (x : Session),
    Arriving s r p f Fdp.request ∧
    WholeMessage s p f x m ∧
    x.phase = .open_ ∧
    0x80 ≤ m.length :=
  ⟨sessUp { sess0 with phase := .open_, req := some { id := 77, op := 0x90, payload := readReq, since := 0 } }, .relay 0 (sealF Fdp.request readReq), .relay 0, sealF Fdp.request readReq, readReq, { sess0 with phase := .open_, req := some { id := 77, op := 0x90, payload := readReq, since := 0 } }, by decide +kernel, ⟨by decide +kernel, by decide +kernel, req_opens, by decide +kernel⟩, by decide +kernel, by decide +kernel⟩

theorem wit_ManagementPort_4_c : ∃ (s : State) (r : FdpRoute) (p : SessPath) (f : Bytes) (m : Bytes) (x : Session),
    Arriving s r p f Fdp.request ∧
    WholeMessage s p f x m ∧
    x.phase = .open_ ∧
    0x80 ≤ m.length :=
  ⟨sessUp { sess0 with phase := .open_, lastId := some 77, lastResp := [1] }, .relay 0 (sealF Fdp.request readReq), .relay 0, sealF Fdp.request readReq, readReq, { sess0 with phase := .open_, lastId := some 77, lastResp := [1] }, by decide +kernel, ⟨by decide +kernel, by decide +kernel, req_opens, by decide +kernel⟩, by decide +kernel, by decide +kernel⟩

theorem wit_ManagementPort_5 : ∃ (s : State) (r : FdpRoute) (p : SessPath) (f : Bytes) (m : Bytes) (x : Session),
    Arriving s r p f Fdp.request ∧
    WholeMessage s p f x m ∧
    x.phase = .open_ ∧
    x.req = none ∧
    x.lastId ≠ some (reqId m) ∧
    0x80 ≤ m.length ∧
    reqOp m = Op.dictRead ∧
    dictFlag1 m = false ∧
    firstFail (requestRows s x.entry m) = none :=
  ⟨sessUp { sess0 with phase := .open_ }, .relay 0 (sealF Fdp.request readReq), .relay 0, sealF Fdp.request readReq, readReq, { sess0 with phase := .open_ }, by decide +kernel, ⟨by decide +kernel, by decide +kernel, req_opens, by decide +kernel⟩, by decide +kernel, by decide +kernel, by decide +kernel, by decide +kernel, by decide +kernel, by decide +kernel, by decide +kernel⟩

theorem wit_ManagementPort_6 : ∃ (s : State) (r : FdpRoute) (p : SessPath) (f : Bytes) (m : Bytes) (x : Session),
    Arriving s r p f Fdp.close ∧
    WholeMessage s p f x m :=
  ⟨sessUp { sess0 with phase := .open_ }, .relay 0 (sealF Fdp.close []), .relay 0, sealF Fdp.close [], [], { sess0 with phase := .open_ }, by decide +kernel⟩

theorem wit_ManagementPort_8_a : ∃ (s : State) (id : Nat) (t0 : Nat) (x : Session),
    s.session? id = some x ∧
    x.phase = .replied ∧
    x.replied = some t0 :=
  ⟨sessUp { sess0 with replied := some (54 * second) }, 5, 54 * second, { sess0 with replied := some (54 * second) }, by decide +kernel⟩

theorem wit_ManagementPort_8_b : ∃ (s : State) (id : Nat) (t0 : Nat) (x : Session),
    s.session? id = some x ∧
    x.phase = .replied ∧
    x.replied = some t0 :=
  ⟨sessUp { sess0 with replied := some (60 * second) }, 5, 60 * second, { sess0 with replied := some (60 * second) }, by decide +kernel⟩

theorem wit_ManagementPort_9_a : ∃ (s : State) (id : Nat) (x : Session),
    s.session? id = some x ∧
    x.phase = .open_ ∧
    x.req = none :=
  ⟨{ sessUp { sess0 with phase := .open_ } with clock := { up.clock with meridian := 400 * second } }, 5, { sess0 with phase := .open_ }, by decide +kernel⟩

theorem wit_ManagementPort_9_b : ∃ (s : State) (id : Nat) (x : Session),
    s.session? id = some x ∧
    x.phase = .open_ ∧
    x.req = none :=
  ⟨sessUp { sess0 with phase := .open_ }, 5, { sess0 with phase := .open_ }, by decide +kernel⟩

theorem wit_ManagementPort_12_a : ∃ (s : State) (j : Job),
    s.admin? 0 Op.fdpRelay = some j ∧
    ((j.phase = 1 ∨ j.phase = 0 ∧ firstFail (relayRows s j.entry) = none ∧ relayInLen j.entry = 0)) :=
  ⟨relayUp, relayJob, by decide +kernel⟩

theorem wit_ManagementPort_12_b : ∃ (s : State) (j : Job),
    s.admin? 0 Op.fdpRelay = some j ∧
    ((j.phase = 1 ∨ j.phase = 0 ∧ firstFail (relayRows s j.entry) = none ∧ relayInLen j.entry = 0)) :=
  ⟨with1 { relayJob with phase := 0 } up, { relayJob with phase := 0 }, by decide +kernel⟩

theorem wit_ManagementPort_12_c : ∃ (s : State) (j : Job),
    s.admin? 0 Op.fdpRelay = some j ∧
    ((j.phase = 1 ∨ j.phase = 0 ∧ firstFail (relayRows s j.entry) = none ∧ relayInLen j.entry = 0)) :=
  ⟨with1 { relayJob with since := 64 * second } up, { relayJob with since := 64 * second }, by decide +kernel⟩

theorem wit_ManagementPort_13 : ∃ (s : State) (u : State) (j : Job),
    s.admin? 0 Op.fdpRelay = some j ∧
    j.phase = 0 ∧
    firstFail (relayRows s j.entry) = none ∧
    relayInLen j.entry ≠ 0 ∧
    j.reads = .arrived ∧
    deliverRelay (relayCh j.entry) (j.input 0 s).length (j.input 0 s) s = (true, u) :=
  ⟨with1 (fed [[1, 0, 0, 0]] (cmdOf 0 64 0xC3 [(0x14, 4, 4), (0x18, 8, 0x40000), (0x20, 8, 0x50000), (0x28, 4, 4096)])) up, with1 (fed [[1, 0, 0, 0]] (cmdOf 0 64 0xC3 [(0x14, 4, 4), (0x18, 8, 0x40000), (0x20, 8, 0x50000), (0x28, 4, 4096)])) up, fed [[1, 0, 0, 0]] (cmdOf 0 64 0xC3 [(0x14, 4, 4), (0x18, 8, 0x40000), (0x20, 8, 0x50000), (0x28, 4, 4096)]), by decide +kernel⟩

theorem wit_AlarmsLatchAndLock_0 : ∃ (s : State),
    s.vesperWorks = true :=
  ⟨alarmUp, by decide +kernel⟩

theorem wit_AlarmsLatchAndLock_1_a : ∃ (s : State),
    s.vesper.vchg = false :=
  ⟨{ alarmUp with vesper := { alarmUp.vesper with vchg := false } }, by decide +kernel⟩

theorem wit_AlarmsLatchAndLock_1_b : ∃ (s : State),
    s.vesper.vchg = false :=
  ⟨{ alarmUp with vesper := { alarmUp.vesper with vchg := false } }, by decide +kernel⟩

theorem wit_AlarmsLatchAndLock_2_a : ∃ (s : State) (i : Instr) (g : Nat), Senses s i g ∧
    s.vesper.latch.testBit g = false ∧ 1 ≤ s.classOfGroup g ∧ s.classOfGroup g ≤ 3 ∧ (s.life.lc = .initialized ∨ s.life.lc = .operational) :=
  ⟨alarmUp, .meshSample { layer := 2, returned := alarmUp.vesper.pattern + 1, ohms := 0 }, 2, by simp only [Senses]; decide +kernel, by decide +kernel⟩

theorem wit_AlarmsLatchAndLock_2_b : ∃ (s : State) (i : Instr) (g : Nat), Senses s i g ∧
    s.vesper.latch.testBit g = false ∧ 1 ≤ s.classOfGroup g ∧ s.classOfGroup g ≤ 3 ∧ (s.life.lc = .initialized ∨ s.life.lc = .operational) :=
  ⟨alarmUp, .xtampSample 1 true, 5, by simp only [Senses]; decide +kernel, by decide +kernel⟩

theorem wit_AlarmsLatchAndLock_2_c : ∃ (s : State) (i : Instr) (g : Nat), Senses s i g ∧
    s.vesper.latch.testBit g = false ∧ 1 ≤ s.classOfGroup g ∧ s.classOfGroup g ≤ 3 ∧ (s.life.lc = .initialized ∨ s.life.lc = .operational) :=
  ⟨alarmUp, .tempSample (-301), 8, by simp only [Senses]; decide +kernel, by decide +kernel⟩

theorem wit_AlarmsLatchAndLock_2_d : ∃ (s : State) (i : Instr) (g : Nat), Senses s i g ∧
    s.vesper.latch.testBit g = false ∧ 1 ≤ s.classOfGroup g ∧ s.classOfGroup g ≤ 3 ∧ (s.life.lc = .initialized ∨ s.life.lc = .operational) :=
  ⟨alarmUp, .tempSample 1251, 9, by simp only [Senses]; decide +kernel, by decide +kernel⟩

theorem wit_AlarmsLatchAndLock_2_e : ∃ (s : State) (i : Instr) (g : Nat), Senses s i g ∧
    s.vesper.latch.testBit g = false ∧ 1 ≤ s.classOfGroup g ∧ s.classOfGroup g ≤ 3 ∧ (s.life.lc = .initialized ∨ s.life.lc = .operational) :=
  ⟨alarmUp, .glitch 0 600, 10, by simp only [Senses]; decide +kernel, by decide +kernel⟩

theorem wit_AlarmsLatchAndLock_2_f : ∃ (s : State) (i : Instr) (g : Nat), Senses s i g ∧
    s.vesper.latch.testBit g = false ∧ 1 ≤ s.classOfGroup g ∧ s.classOfGroup g ≤ 3 ∧ (s.life.lc = .initialized ∨ s.life.lc = .operational) :=
  ⟨alarmUp, .glitch 1 600, 11, by simp only [Senses]; decide +kernel, by decide +kernel⟩

theorem wit_AlarmsLatchAndLock_2_g : ∃ (s : State) (i : Instr) (g : Nat), Senses s i g ∧
    s.vesper.latch.testBit g = false ∧ 1 ≤ s.classOfGroup g ∧ s.classOfGroup g ≤ 3 ∧ (s.life.lc = .initialized ∨ s.life.lc = .operational) :=
  ⟨alarmUp, .glitch 3 700, 12, by simp only [Senses]; decide +kernel, by decide +kernel⟩

theorem wit_AlarmsLatchAndLock_2_h : ∃ (s : State) (i : Instr) (g : Nat), Senses s i g ∧
    s.vesper.latch.testBit g = false ∧ 1 ≤ s.classOfGroup g ∧ s.classOfGroup g ≤ 3 ∧ (s.life.lc = .initialized ∨ s.life.lc = .operational) :=
  ⟨alarmUp, .glitch 5 1400, 13, by simp only [Senses]; decide +kernel, by decide +kernel⟩

theorem wit_AlarmsLatchAndLock_2_i : ∃ (s : State) (i : Instr) (g : Nat), Senses s i g ∧
    s.vesper.latch.testBit g = false ∧ 1 ≤ s.classOfGroup g ∧ s.classOfGroup g ≤ 3 ∧ (s.life.lc = .initialized ∨ s.life.lc = .operational) :=
  ⟨alarmUp, .glitch 6 0, 13, by simp only [Senses]; decide +kernel, by decide +kernel⟩

theorem wit_AlarmsLatchAndLock_2_j : ∃ (s : State) (i : Instr) (g : Nat), Senses s i g ∧
    s.vesper.latch.testBit g = false ∧ 1 ≤ s.classOfGroup g ∧ s.classOfGroup g ≤ 3 ∧ (s.life.lc = .initialized ∨ s.life.lc = .operational) :=
  ⟨alarmUp, .fiDelay 0, 14, by simp only [Senses]; decide +kernel, by decide +kernel⟩

theorem wit_AlarmsLatchAndLock_2_k : ∃ (s : State) (i : Instr) (g : Nat), Senses s i g ∧
    s.vesper.latch.testBit g = false ∧ 1 ≤ s.classOfGroup g ∧ s.classOfGroup g ≤ 3 ∧ (s.life.lc = .initialized ∨ s.life.lc = .operational) :=
  ⟨alarmUp, .cellPresenceCheck false, 17, by simp only [Senses]; decide +kernel, by decide +kernel⟩

theorem wit_AlarmsLatchAndLock_2_l : ∃ (s : State) (i : Instr) (g : Nat), Senses s i g ∧
    s.vesper.latch.testBit g = false ∧ 1 ≤ s.classOfGroup g ∧ s.classOfGroup g ≤ 3 ∧ (s.life.lc = .initialized ∨ s.life.lc = .operational) :=
  ⟨alarmUp, .shadowCheck false, 19, by simp only [Senses]; decide +kernel, by decide +kernel⟩

theorem wit_AlarmsLatchAndLock_2_n : ∃ (s : State) (i : Instr) (g : Nat), Senses s i g ∧
    s.vesper.latch.testBit g = false ∧ 1 ≤ s.classOfGroup g ∧ s.classOfGroup g ≤ 3 ∧ (s.life.lc = .initialized ∨ s.life.lc = .operational) :=
  ⟨{ alarmUp with vesper := { alarmUp.vesper with vchg := false } }, .vbatCut 1999, 16, by simp only [Senses]; decide +kernel, by decide +kernel⟩

theorem wit_AlarmsLatchAndLock_2_o : ∃ (s : State) (i : Instr) (g : Nat), Senses s i g ∧
    s.vesper.latch.testBit g = false ∧ 1 ≤ s.classOfGroup g ∧ s.classOfGroup g ≤ 3 ∧ (s.life.lc = .initialized ∨ s.life.lc = .operational) :=
  ⟨{ alarmUp with life := { alarmUp.life with lc := .initialized } }, .tempSample 1251, 9, by simp only [Senses]; decide +kernel, by decide +kernel⟩

theorem wit_AlarmsLatchAndLock_3_a : ∃ (s : State) (i : Instr) (g : Nat), Senses s i g ∧
    s.vesper.latch.testBit g = false ∧ 1 ≤ s.classOfGroup g ∧ s.classOfGroup g ≤ 3 ∧ s.life.lc = .locked ∧ s.life.lockClass.rank < (lockOf (s.classOfGroup g)).rank :=
  ⟨{ alarmUp with life := { alarmUp.life with lc := .locked, lockClass := .l } }, .fiDelay 0, 14, by simp only [Senses]; decide +kernel, by decide +kernel⟩

theorem wit_AlarmsLatchAndLock_4_a : ∃ (s : State) (i : Instr) (g : Nat), Senses s i g ∧
    s.vesper.latch.testBit g = false ∧ 1 ≤ s.classOfGroup g ∧ s.classOfGroup g ≤ 3 ∧ s.life.lc = .locked ∧ (lockOf (s.classOfGroup g)).rank ≤ s.life.lockClass.rank :=
  ⟨{ alarmUp with life := { alarmUp.life with lc := .locked, lockClass := .v } }, .tempSample 1251, 9, by simp only [Senses]; decide +kernel, by decide +kernel⟩

theorem wit_AlarmsLatchAndLock_4_b : ∃ (s : State) (i : Instr) (g : Nat), Senses s i g ∧
    s.vesper.latch.testBit g = false ∧ 1 ≤ s.classOfGroup g ∧ s.classOfGroup g ≤ 3 ∧ s.life.lc = .locked ∧ (lockOf (s.classOfGroup g)).rank ≤ s.life.lockClass.rank :=
  ⟨{ alarmUp with life := { alarmUp.life with lc := .locked, lockClass := .z } }, .fiDelay 0, 14, by simp only [Senses]; decide +kernel, by decide +kernel⟩

theorem wit_AlarmsLatchAndLock_5_a : ∃ (s : State) (i : Instr) (g : Nat), Senses s i g ∧
    s.vesper.latch.testBit g = false ∧ 1 ≤ s.classOfGroup g ∧ s.classOfGroup g ≤ 3 ∧ (s.life.lc = .factory ∨ s.life.lc = .debug ∨ s.life.lc = .decommissioned) :=
  ⟨{ alarmUp with life := { alarmUp.life with lc := .factory } }, .fiDelay 0, 14, by simp only [Senses]; decide +kernel, by decide +kernel⟩

theorem wit_AlarmsLatchAndLock_5_b : ∃ (s : State) (i : Instr) (g : Nat), Senses s i g ∧
    s.vesper.latch.testBit g = false ∧ 1 ≤ s.classOfGroup g ∧ s.classOfGroup g ≤ 3 ∧ (s.life.lc = .factory ∨ s.life.lc = .debug ∨ s.life.lc = .decommissioned) :=
  ⟨{ alarmUp with life := { alarmUp.life with lc := .debug } }, .fiDelay 0, 14, by simp only [Senses]; decide +kernel, by decide +kernel⟩

theorem wit_AlarmsLatchAndLock_5_c : ∃ (s : State) (i : Instr) (g : Nat), Senses s i g ∧
    s.vesper.latch.testBit g = false ∧ 1 ≤ s.classOfGroup g ∧ s.classOfGroup g ≤ 3 ∧ (s.life.lc = .factory ∨ s.life.lc = .debug ∨ s.life.lc = .decommissioned) :=
  ⟨{ alarmUp with life := { alarmUp.life with lc := .decommissioned } }, .fiDelay 0, 14, by simp only [Senses]; decide +kernel, by decide +kernel⟩

theorem wit_AlarmsLatchAndLock_6 : ∃ (s : State) (i : Instr) (g : Nat), Senses s i g ∧
    s.vesper.latch.testBit g = true ∧ 1 ≤ s.classOfGroup g ∧ s.classOfGroup g ≤ 3 :=
  ⟨{ alarmUp with vesper := { alarmUp.vesper with latch := 2 ^ 9 } }, .tempSample 1251, 9, by simp only [Senses]; decide +kernel, by decide +kernel⟩

theorem wit_AlarmsLatchAndLock_7_a : ∃ (s : State) (i : Instr) (g : Nat), Senses s i g ∧
    s.classOfGroup g = 0 ∧ s.vesper.cond.testBit g = false :=
  ⟨alarmUp, .vbatSample 2399, 15, by simp only [Senses]; decide +kernel, by decide +kernel⟩

theorem wit_AlarmsLatchAndLock_7_b : ∃ (s : State) (i : Instr) (g : Nat), Senses s i g ∧
    s.classOfGroup g = 0 ∧ s.vesper.cond.testBit g = false :=
  ⟨alarmUp, .xtalFail, 18, by simp only [Senses]; decide +kernel, by decide +kernel⟩

theorem wit_AlarmsLatchAndLock_8_a : ∃ (s : State) (i : Instr), FindsNothing s i := ⟨alarmUp, .meshSample { layer := 2, returned := alarmUp.vesper.pattern, ohms := 0 }, by simp only [FindsNothing]; decide +kernel⟩

theorem wit_AlarmsLatchAndLock_8_b : ∃ (s : State) (i : Instr), FindsNothing s i := ⟨alarmUp, .xtampSample 1 false, by simp only [FindsNothing]; decide +kernel⟩

theorem wit_AlarmsLatchAndLock_8_c : ∃ (s : State) (i : Instr), FindsNothing s i := ⟨alarmUp, .tempSample (-300), by simp only [FindsNothing]; decide +kernel⟩

theorem wit_AlarmsLatchAndLock_8_d : ∃ (s : State) (i : Instr), FindsNothing s i := ⟨alarmUp, .tempSample 1250, by simp only [FindsNothing]; decide +kernel⟩

theorem wit_AlarmsLatchAndLock_8_e : ∃ (s : State) (i : Instr), FindsNothing s i := ⟨alarmUp, .glitch 0 800, by simp only [FindsNothing]; decide +kernel⟩

theorem wit_AlarmsLatchAndLock_8_f : ∃ (s : State) (i : Instr), FindsNothing s i := ⟨alarmUp, .glitch 0 449, by simp only [FindsNothing]; decide +kernel⟩

theorem wit_AlarmsLatchAndLock_8_g : ∃ (s : State) (i : Instr), FindsNothing s i := ⟨alarmUp, .vbatSample 2400, by simp only [FindsNothing]; decide +kernel⟩

theorem wit_AlarmsLatchAndLock_8_h : ∃ (s : State) (i : Instr), FindsNothing s i := ⟨alarmUp, .vbatCut 2000, by simp only [FindsNothing]; decide +kernel⟩

theorem wit_AlarmsLatchAndLock_8_i : ∃ (s : State) (i : Instr), FindsNothing s i := ⟨alarmUp, .cellPresenceCheck true, by simp only [FindsNothing]; decide +kernel⟩

theorem wit_AlarmsLatchAndLock_8_j : ∃ (s : State) (i : Instr), FindsNothing s i := ⟨alarmUp, .xtalReturn, by simp only [FindsNothing]⟩

theorem wit_AlarmsLatchAndLock_8_k : ∃ (s : State) (i : Instr), FindsNothing s i := ⟨alarmUp, .shadowCheck true, by simp only [FindsNothing]⟩

theorem wit_AlarmsLatchAndLock_9 : ∃ (s : State),
    s.vesperWorks = true ∧
    s.vesper.xtalOk = true ∧
    xtalHoldOff s = false :=
  ⟨alarmUp, by decide +kernel⟩

theorem wit_AlarmsLatchAndLock_10 : ∃ (s : State),
    s.vesperWorks = true ∧
    s.vesper.xtalOk = false :=
  ⟨{ alarmUp with vesper := { alarmUp.vesper with xtalOk := false } }, by decide +kernel⟩

theorem wit_VesperKeepsItsCellAndTime_0_a : ∃ (s : State),
    s.vesper.vchg = true ∧
    s.vesperWorks = true :=
  ⟨alarmUp, by decide +kernel⟩

theorem wit_VesperKeepsItsCellAndTime_0_b : ∃ (s : State),
    s.vesper.vchg = true ∧
    s.vesperWorks = true :=
  ⟨alarmUp, by decide +kernel⟩

theorem wit_VesperKeepsItsCellAndTime_0_c : ∃ (s : State),
    s.vesper.vchg = true ∧
    s.vesperWorks = true :=
  ⟨alarmUp, by decide +kernel⟩

theorem wit_VesperKeepsItsCellAndTime_0_d : ∃ (s : State),
    s.vesper.vchg = true ∧
    s.vesperWorks = true :=
  ⟨{ alarmUp with vesper := { alarmUp.vesper with window := some { ends := 64 * second }, cell := { alarmUp.vesper.cell with vbat := 3000 } } }, by decide +kernel⟩

theorem wit_VesperKeepsItsCellAndTime_0_e : ∃ (s : State),
    s.vesper.vchg = true ∧
    s.vesperWorks = true :=
  ⟨{ alarmUp with vesper := { alarmUp.vesper with cell := { alarmUp.vesper.cell with present := false } } }, by decide +kernel⟩

theorem wit_VesperKeepsItsCellAndTime_0_f : ∃ (s : State),
    s.vesper.vchg = true ∧
    s.vesperWorks = true :=
  ⟨{ alarmUp with vesper := { alarmUp.vesper with cell := { alarmUp.vesper.cell with st := .fault } } }, by decide +kernel⟩

theorem wit_VesperKeepsItsCellAndTime_1_a : ∃ (s : State) (r : ChargerReading),
    MayCharge s r ∧
    s.vesper.cell.st = .cc ∧
    2500 ≤ r.vbatMv ∧
    TimerRuns s :=
  ⟨{ alarmUp with vesper := { alarmUp.vesper with cell := { alarmUp.vesper.cell with st := .cc, tStart := 60 * second } } }, { vbatMv := 2500, tempDc := 250, iUa := 500 }, by decide +kernel⟩

theorem wit_VesperKeepsItsCellAndTime_1_b : ∃ (s : State) (r : ChargerReading),
    MayCharge s r ∧
    s.vesper.cell.st = .cc ∧
    2500 ≤ r.vbatMv ∧
    TimerRuns s :=
  ⟨{ alarmUp with vesper := { alarmUp.vesper with cell := { alarmUp.vesper.cell with st := .cc, tStart := 60 * second } } }, { vbatMv := 3200, tempDc := 250, iUa := 500 }, by decide +kernel⟩

theorem wit_VesperKeepsItsCellAndTime_2_a : ∃ (s : State) (r : ChargerReading),
    MayCharge s r ∧
    ((s.vesper.cell.st = .off ∨ s.vesper.cell.st = .tempHold)) ∧
    2500 ≤ r.vbatMv :=
  ⟨{ alarmUp with vesper := { alarmUp.vesper with cell := { alarmUp.vesper.cell with st := .off } } }, { vbatMv := 2500, tempDc := 250, iUa := 500 }, by decide +kernel⟩

theorem wit_VesperKeepsItsCellAndTime_2_b : ∃ (s : State) (r : ChargerReading),
    MayCharge s r ∧
    ((s.vesper.cell.st = .off ∨ s.vesper.cell.st = .tempHold)) ∧
    2500 ≤ r.vbatMv :=
  ⟨{ alarmUp with vesper := { alarmUp.vesper with cell := { alarmUp.vesper.cell with st := .tempHold } } }, { vbatMv := 3300, tempDc := 250, iUa := 500 }, by decide +kernel⟩

theorem wit_VesperKeepsItsCellAndTime_3_a : ∃ (s : State) (r : ChargerReading),
    MayCharge s r ∧
    s.vesper.cell.st = .cv ∧
    2500 ≤ r.vbatMv ∧
    TimerRuns s :=
  ⟨{ alarmUp with vesper := { alarmUp.vesper with cell := { alarmUp.vesper.cell with st := .cv, lowFor := 59, tStart := 60 * second } } }, { vbatMv := 3000, tempDc := 250, iUa := 49 }, by decide +kernel⟩

theorem wit_VesperKeepsItsCellAndTime_3_b : ∃ (s : State) (r : ChargerReading),
    MayCharge s r ∧
    s.vesper.cell.st = .cv ∧
    2500 ≤ r.vbatMv ∧
    TimerRuns s :=
  ⟨{ alarmUp with vesper := { alarmUp.vesper with cell := { alarmUp.vesper.cell with st := .cv, lowFor := 59, tStart := 60 * second } } }, { vbatMv := 3000, tempDc := 250, iUa := 50 }, by decide +kernel⟩

theorem wit_VesperKeepsItsCellAndTime_4_a : ∃ (s : State) (r : ChargerReading),
    MayCharge s r ∧
    s.vesper.cell.st = .done ∧
    2500 ≤ r.vbatMv :=
  ⟨{ alarmUp with vesper := { alarmUp.vesper with cell := { alarmUp.vesper.cell with st := .done } } }, { vbatMv := 2700, tempDc := 250, iUa := 500 }, by decide +kernel⟩

theorem wit_VesperKeepsItsCellAndTime_4_b : ∃ (s : State) (r : ChargerReading),
    MayCharge s r ∧
    s.vesper.cell.st = .done ∧
    2500 ≤ r.vbatMv :=
  ⟨{ alarmUp with vesper := { alarmUp.vesper with cell := { alarmUp.vesper.cell with st := .done } } }, { vbatMv := 3300, tempDc := 250, iUa := 500 }, by decide +kernel⟩

theorem wit_VesperKeepsItsCellAndTime_5_a : ∃ (s : State) (r : ChargerReading),
    MayCharge s r ∧
    ((s.vesper.cell.st = .cc ∨ s.vesper.cell.st = .cv)) ∧
    r.vbatMv < 2500 :=
  ⟨{ alarmUp with vesper := { alarmUp.vesper with cell := { alarmUp.vesper.cell with st := .cc, tStart := 60 * second } } }, { vbatMv := 2499, tempDc := 250, iUa := 500 }, by decide +kernel⟩

theorem wit_VesperKeepsItsCellAndTime_5_b : ∃ (s : State) (r : ChargerReading),
    MayCharge s r ∧
    ((s.vesper.cell.st = .cc ∨ s.vesper.cell.st = .cv)) ∧
    r.vbatMv < 2500 :=
  ⟨{ alarmUp with vesper := { alarmUp.vesper with calendar := 36000 * second, cell := { alarmUp.vesper.cell with st := .cv, tPre := some 0 } } }, { vbatMv := 2499, tempDc := 250, iUa := 500 }, by decide +kernel⟩

theorem wit_VesperKeepsItsCellAndTime_6 : ∃ (s : State) (r : ChargerReading),
    MayCharge s r ∧
    s.vesper.cell.st = .cc ∧
    2500 ≤ r.vbatMv ∧
    ¬ TimerRuns s :=
  ⟨{ alarmUp with vesper := { alarmUp.vesper with calendar := 100000000 * second, cell := { alarmUp.vesper.cell with st := .cc, tStart := 0 } } }, { vbatMv := 2500, tempDc := 250, iUa := 500 }, by decide +kernel⟩

theorem wit_VesperKeepsItsCellAndTime_7_a : ∃ (s : State),
    s.vesperWorks = true :=
  ⟨alarmUp, by decide +kernel⟩

theorem wit_VesperKeepsItsCellAndTime_7_b : ∃ (s : State),
    s.vesperWorks = true :=
  ⟨{ alarmUp with vesper := { alarmUp.vesper with vchg := false } }, by decide +kernel⟩

theorem wit_VesperKeepsItsCellAndTime_8 : ∃ (s : State),
    s.vesperWorks = true :=
  ⟨alarmUp, by decide +kernel⟩

theorem wit_VesperKeepsItsCellAndTime_9_a : ∃ (s : State) (w : SvcWindow) (why : WindowEnd),
    s.vesper.window = some w ∧
    windowOver s w why = true :=
  ⟨{ alarmUp with vesper := { alarmUp.vesper with vchg := true, window := some { ends := 64 * second, low := false }, cell := { alarmUp.vesper.cell with st := .service } } }, { ends := 64 * second }, .expiry, by decide +kernel⟩

theorem wit_VesperKeepsItsCellAndTime_9_b : ∃ (s : State) (w : SvcWindow) (why : WindowEnd),
    s.vesper.window = some w ∧
    windowOver s w why = true :=
  ⟨{ alarmUp with vesper := { alarmUp.vesper with vchg := true, window := some { ends := 64 * second, low := false }, cell := { alarmUp.vesper.cell with st := .service } } }, { ends := 64 * second }, .cancel, by decide +kernel⟩

theorem wit_VesperKeepsItsCellAndTime_10 : ∃ (s : State) (w : SvcWindow),
    s.vesper.window = some w ∧
    s.vesper.vchg = false :=
  ⟨{ alarmUp with vesper := { alarmUp.vesper with vchg := false, window := some { ends := 64 * second, low := false }, cell := { alarmUp.vesper.cell with st := .service } } }, { ends := 64 * second }, by decide +kernel⟩

theorem wit_VesperKeepsItsCellAndTime_11_a : ∃ (s : State) (w : SvcWindow) (why : WindowEnd) (mv : Nat),
    s.vesper.window = some w ∧
    why ≠ .powerLoss ∧
    windowOver s w why = true ∧
    s.vbatLow ≤ mv ∧
    -400 ≤ s.vesper.cell.temp ∧
    s.vesper.cell.temp ≤ 850 :=
  ⟨{ alarmUp with vesper := { alarmUp.vesper with vchg := true, window := some { ends := 64 * second, low := false }, cell := { alarmUp.vesper.cell with st := .service } } }, { ends := 64 * second }, .expiry, 2400, by decide +kernel⟩

theorem wit_VesperKeepsItsCellAndTime_11_b : ∃ (s : State) (w : SvcWindow) (why : WindowEnd) (mv : Nat),
    s.vesper.window = some w ∧
    why ≠ .powerLoss ∧
    windowOver s w why = true ∧
    s.vbatLow ≤ mv ∧
    -400 ≤ s.vesper.cell.temp ∧
    s.vesper.cell.temp ≤ 850 :=
  ⟨{ alarmUp with vesper := { alarmUp.vesper with vchg := true, window := some { ends := 64 * second, low := true }, cell := { alarmUp.vesper.cell with st := .service } } }, { ends := 64 * second, low := true }, .cancel, 2400, by decide +kernel⟩

theorem wit_VesperKeepsItsCellAndTime_12_a : ∃ (s : State) (v : Bool),
    s.vesper.vchg ≠ v :=
  ⟨alarmUp, false, by decide +kernel⟩

theorem wit_VesperKeepsItsCellAndTime_12_b : ∃ (s : State) (v : Bool),
    s.vesper.vchg ≠ v :=
  ⟨{ alarmUp with vesper := { alarmUp.vesper with vchg := false } }, true, by decide +kernel⟩

theorem wit_VesperKeepsItsCellAndTime_15_a : ∃ (s : State),
    s.clock.running = true :=
  ⟨{ up with clock := { up.clock with meridian := 63 * second } }, by decide +kernel⟩

theorem wit_VesperKeepsItsCellAndTime_15_b : ∃ (s : State),
    s.clock.running = true :=
  ⟨{ up with clock := { up.clock with meridian := 65 * second } }, by decide +kernel⟩

theorem wit_VesperKeepsItsCellAndTime_16 : ∃ (s : State),
    s.clock.running = true :=
  ⟨up, by decide +kernel⟩

theorem wit_VesperKeepsItsCellAndTime_17 : ∃ (s : State),
    s.clock.running = false :=
  ⟨{ up with clock := { up.clock with running := false } }, by decide +kernel⟩

theorem wit_RegisterWrites_0_a : ∃ (s : State) (a : Attr) (c : Nat),
    c < 12 ∧
    s.regs.errEn.length = 12 ∧
    MayWrite s a (c * 0x100000 + 0xC) false :=
  ⟨up, cuS, 2, by decide +kernel⟩

theorem wit_RegisterWrites_0_b : ∃ (s : State) (a : Attr) (c : Nat),
    c < 12 ∧
    s.regs.errEn.length = 12 ∧
    MayWrite s a (c * 0x100000 + 0xC) false :=
  ⟨dbgUp, debugAttr dbgUp, 11, by decide +kernel⟩

theorem wit_RegisterWrites_0_c : ∃ (s : State) (a : Attr) (c : Nat),
    c < 12 ∧
    s.regs.errEn.length = 12 ∧
    MayWrite s a (c * 0x100000 + 0xC) false :=
  ⟨up, hostA, 0, by decide +kernel⟩

theorem wit_RegisterWrites_1 : ∃ (s : State) (a : Attr) (c : Nat) (n : Nat),
    c < 12 ∧
    n ≠ 4 ∧
    windowReach s a = true ∧
    gateStops a .write (barInternal (c * 0x100000 + 0xC)) n s = none :=
  ⟨up, cuS, 2, 8, by decide +kernel⟩

theorem wit_RegisterWrites_2 : ∃ (s : State) (a : Attr) (c : Nat),
    c < 12 ∧
    windowReach s a = true ∧
    isEngine a = false ∧
    a.priv = false ∧
    gateStops a .write (barInternal (c * 0x100000 + 0xC)) 4 s = none :=
  ⟨ruled 0xFFF, cuU, 2, by decide +kernel⟩

theorem wit_RegisterWrites_3 : ∃ (s : State) (a : Attr) (addr : Nat) (n : Nat),
    a.master = 0x0100 ∧
    windowReach s a = true ∧
    addr < 0xC00000 ∧
    granted s a .write (barInternal addr) n = false :=
  ⟨ruled 0, hostA, 0x20000C, 4, by decide +kernel⟩

theorem wit_RegisterWrites_4_a : ∃ (s : State) (a : Attr) (c : Nat) (b : Nat),
    c < 12 ∧
    mirrored c = false ∧
    b < 16 ∧
    MayWrite s a (c * 0x100000 + 0x40180 + 4 * b) false ∧
    s.regs.errEn.length = 12 :=
  ⟨up, cuS, 2, 15, by decide +kernel⟩

theorem wit_RegisterWrites_4_b : ∃ (s : State) (a : Attr) (c : Nat) (b : Nat),
    c < 12 ∧
    mirrored c = false ∧
    b < 16 ∧
    MayWrite s a (c * 0x100000 + 0x40180 + 4 * b) false ∧
    s.regs.errEn.length = 12 :=
  ⟨up, hostA, 1, 0, by decide +kernel⟩

theorem wit_RegisterWrites_5 : ∃ (s : State) (a : Attr) (c : Nat),
    c < 12 ∧
    mirrored c = true ∧
    MayWrite s a (c * 0x100000 + 0x1000C) false ∧
    s.regs.errEn.length = 12 :=
  ⟨up, cuS, 8, by decide +kernel⟩

theorem wit_RegisterWrites_6 : ∃ (s : State) (a : Attr) (c : Nat),
    c < 12 ∧
    mirrored c = true ∧
    MayWrite s a (c * 0x100000 + 0x2000C) false ∧
    s.regs.errEn.length = 12 :=
  ⟨up, cuS, 8, by decide +kernel⟩

theorem wit_RegisterWrites_7 : ∃ (s : State) (a : Attr) (c : Nat),
    c < 12 ∧
    mirrored c = true ∧
    MayWrite s a (c * 0x100000 + 0x3000C) false ∧
    s.regs.errEn.length = 12 :=
  ⟨up, cuS, 8, by decide +kernel⟩

theorem wit_ControlRegisters_0 : ∃ (s : State) (a : Attr) (v : Word),
    MayWrite s a 0x700108 false ∧
    v.getLsbD 0 = true ∧
    v.getLsbD 1 = false :=
  ⟨up, cuS, 1, by decide +kernel⟩

theorem wit_ControlRegisters_1 : ∃ (s : State) (a : Attr) (v : Word),
    MayWrite s a 0x700108 false ∧
    v.getLsbD 1 = true ∧
    v.getLsbD 0 = false :=
  ⟨up, cuS, 2, by decide +kernel⟩

theorem wit_ControlRegisters_2_a : ∃ (s : State) (a : Attr),
    MayWrite s a 0x900108 true :=
  ⟨up, cuS, by decide +kernel⟩

theorem wit_ControlRegisters_2_b : ∃ (s : State) (a : Attr),
    MayWrite s a 0x900108 true :=
  ⟨up, cuS, by decide +kernel⟩

theorem wit_ControlRegisters_3 : ∃ (s : State) (a : Attr),
    MayWrite s a 0xB00110 false :=
  ⟨{ up with regs := { up.regs with pwReq := 0xFFF, pwGrant := 6 } }, cuS, by decide +kernel⟩

theorem wit_ControlRegisters_4 : ∃ (s : State) (a : Attr),
    MayWrite s a 0xB00114 true :=
  ⟨{ up with regs := { up.regs with pwReq := 0xFFF, pwGrant := 6 } }, cuS, by decide +kernel⟩

theorem wit_ControlRegisters_5_a : ∃ (s : State) (c : Nat),
    s.mainOn = true ∧
    s.regs.pwReq.testBit c = true ∧
    s.keeps c = false ∧
    s.blockIdle c = true :=
  ⟨{ up with regs := { up.regs with pwReq := 0xFFF, pwGrant := 6 } }, 4, by decide +kernel⟩

theorem wit_ControlRegisters_5_b : ∃ (s : State) (c : Nat),
    s.mainOn = true ∧
    s.regs.pwReq.testBit c = true ∧
    s.keeps c = false ∧
    s.blockIdle c = true :=
  ⟨{ up with regs := { up.regs with pwReq := 0xFFF, pwGrant := 6 } }, 10, by decide +kernel⟩

theorem wit_ControlRegisters_6_a : ∃ (s : State) (c : Nat),
    (s.regs.pwReq.testBit c = false ∨ s.keeps c = true ∨ s.blockIdle c = false) :=
  ⟨up, 5, by decide +kernel⟩

theorem wit_ControlRegisters_6_b : ∃ (s : State) (c : Nat),
    (s.regs.pwReq.testBit c = false ∨ s.keeps c = true ∨ s.blockIdle c = false) :=
  ⟨{ up with regs := { up.regs with pwKeep := 0xFFF, pwReq := 0xFFF, pwGrant := 6 } }, 5, by decide +kernel⟩

theorem wit_ControlRegisters_6_c : ∃ (s : State) (c : Nat),
    (s.regs.pwReq.testBit c = false ∨ s.keeps c = true ∨ s.blockIdle c = false) :=
  ⟨{ up with regs := { up.regs with pwReq := 0xFFF, pwGrant := 6 } }, 2, by decide +kernel⟩

theorem wit_ControlRegisters_7_a : ∃ (s : State) (a : Attr) (off : Nat),
    isRuleWord off = true ∧
    off % 4 = 0 ∧
    MayWrite s a (0x800000 + off) true :=
  ⟨{ up with regs := { up.regs with rulesLock := false } }, cuS, 0x1000, by decide +kernel⟩

theorem wit_ControlRegisters_7_a2 : ∃ (s : State) (a : Attr) (off : Nat),
    isRuleWord off = true ∧
    off % 4 = 0 ∧
    MayWrite s a (0x800000 + off) true :=
  ⟨{ up with regs := { up.regs with rulesLock := false } }, cuS, 0x23FC, by decide +kernel⟩

theorem wit_ControlRegisters_8_a : ∃ (s : State) (a : Attr) (p : Nat),
    p < 1024 ∧
    MayWrite s a (0x804000 + 4 * p) true :=
  ⟨{ up with regs := { up.regs with rulesLock := false } }, cuS, 1023, by decide +kernel⟩

theorem wit_ControlRegisters_7_b : ∃ (s : State) (a : Attr) (off : Nat),
    isRuleWord off = true ∧
    off % 4 = 0 ∧
    MayWrite s a (0x800000 + off) true :=
  ⟨{ up with regs := { up.regs with rulesLock := true } }, cuS, 0x1000, by decide +kernel⟩

theorem wit_ControlRegisters_7_b2 : ∃ (s : State) (a : Attr) (off : Nat),
    isRuleWord off = true ∧
    off % 4 = 0 ∧
    MayWrite s a (0x800000 + off) true :=
  ⟨{ up with regs := { up.regs with rulesLock := true } }, cuS, 0x23FC, by decide +kernel⟩

theorem wit_ControlRegisters_8_b : ∃ (s : State) (a : Attr) (p : Nat),
    p < 1024 ∧
    MayWrite s a (0x804000 + 4 * p) true :=
  ⟨{ up with regs := { up.regs with rulesLock := true } }, cuS, 1023, by decide +kernel⟩

theorem wit_ControlRegisters_9_a : ∃ (s : State) (addr : Nat),
    s.debugPort = true ∧
    0x10000000 ≤ addr ∧
    addr + 4 ≤ 0x10400000 :=
  ⟨dbgUp, 0x10000000, by decide +kernel⟩

theorem wit_ControlRegisters_9_b : ∃ (s : State) (addr : Nat),
    s.debugPort = true ∧
    0x10000000 ≤ addr ∧
    addr + 4 ≤ 0x10400000 :=
  ⟨testUp, 0x103FFFFC, by decide +kernel⟩

theorem wit_ControlRegisters_10_a : ∃ (s : State) (addr : Nat),
    s.debugPort = true ∧
    0x10000000 ≤ addr ∧
    addr + 4 ≤ 0x10400000 :=
  ⟨dbgUp, 0x10000000, by decide +kernel⟩

theorem wit_ControlRegisters_10_b : ∃ (s : State) (addr : Nat),
    s.debugPort = true ∧
    0x10000000 ≤ addr ∧
    addr + 4 ≤ 0x10400000 :=
  ⟨testUp, 0x103FFFFC, by decide +kernel⟩

theorem wit_ControlRegisters_11 : ∃ (s : State) (addr : Nat),
    s.debugPort = true ∧
    addr < 0xC00000 ∧
    ((List.range 4).any fun i => debugLocked s .write (barInternal addr + i)) = false :=
  ⟨dbgUp, 0x10000C, by decide +kernel⟩

theorem wit_ControlRegisters_12 : ∃ (s : State),
    s.debugPort = false :=
  ⟨up, by decide +kernel⟩

theorem wit_ControlRegisters_13_a : ∃ (s : State),
    s.debugPort = true ∧
    s.worlds.debugHalt = false :=
  ⟨dbgUp, by decide +kernel⟩

theorem wit_ControlRegisters_13_b : ∃ (s : State),
    s.debugPort = true ∧
    s.worlds.debugHalt = false :=
  ⟨testUp, by decide +kernel⟩

theorem wit_ControlRegisters_14 : ∃ (s : State),
    s.worlds.debugHalt = true :=
  ⟨{ up with worlds := { up.worlds with debugHalt := true } }, by decide +kernel⟩

theorem wit_HostLinkCommands_0 : ∃ (s : State),
    s.linkOn = true :=
  ⟨up, by decide +kernel⟩

theorem wit_HostLinkCommands_1 : ∃ (s : State),
    s.linkOn = true ∧
    (s.fn 0).run ≠ .resetting ∧
    (s.fn 0).run ≠ .unallocated :=
  ⟨up, by decide +kernel⟩

theorem wit_HostLinkCommands_2 : ∃ (s : State),
    s.linkOn = true :=
  ⟨up, by decide +kernel⟩

theorem wit_HostLinkCommands_3 : ∃ (s : State),
    s.linkOn = true :=
  ⟨up, by decide +kernel⟩

theorem wit_HostLinkCommands_4 : ∃ (s : State),
    s.linkOn = true :=
  ⟨up, by decide +kernel⟩

theorem wit_HostLinkCommands_5 : ∃ (s : State),
    s.linkOn = true :=
  ⟨up, by decide +kernel⟩

theorem wit_HostLinkCommands_6 : ∃ (s : State),
    s.linkOn = true :=
  ⟨{ up with fab := { up.fab with rxSplit := 2 } }, by decide +kernel⟩

theorem wit_HostLinkCommands_8_a : ∃ (obj : Bytes),
    (obj.length < 8 ∨ 65536 < obj.length ∨ obj.leAt 0 2 ≠ 1 ∨ obj.leAt 4 4 % 2 ^ 18 * 4 ≠ obj.length) :=
  ⟨[], by decide +kernel⟩

theorem wit_HostLinkCommands_8_b : ∃ (obj : Bytes),
    (obj.length < 8 ∨ 65536 < obj.length ∨ obj.leAt 0 2 ≠ 1 ∨ obj.leAt 4 4 % 2 ^ 18 * 4 ≠ obj.length) :=
  ⟨List.replicate 65537 1#8, .inr (.inl (by rw [List.length_replicate]; decide))⟩

theorem wit_HostLinkCommands_8_c : ∃ (obj : Bytes),
    (obj.length < 8 ∨ 65536 < obj.length ∨ obj.leAt 0 2 ≠ 1 ∨ obj.leAt 4 4 % 2 ^ 18 * 4 ≠ obj.length) :=
  ⟨Bytes.ofNats [2, 0, 0, 0, 3, 0, 0, 0, 2, 0, 0, 0], by decide +kernel⟩

theorem wit_HostLinkCommands_8_d : ∃ (obj : Bytes),
    (obj.length < 8 ∨ 65536 < obj.length ∨ obj.leAt 0 2 ≠ 1 ∨ obj.leAt 4 4 % 2 ^ 18 * 4 ≠ obj.length) :=
  ⟨Bytes.ofNats [1, 0, 0, 0, 4, 0, 0, 0, 2, 0, 0, 0], by decide +kernel⟩

theorem wit_HostLinkCommands_9_a : ∃ (s : State) (obj : Bytes),
    s.linkOn = true ∧
    s.secureRuns = true ∧
    s.link.held = none ∧
    8 ≤ obj.length ∧
    obj.length ≤ 65536 ∧
    obj.leAt 0 2 = 1 ∧
    obj.leAt 4 4 % 2 ^ 18 * 4 = obj.length ∧
    obj.at_ 2 = 0 ∧ (obj.at_ 8).toNat < 3 :=
  ⟨up, Bytes.ofNats [1, 0, 0, 0, 3, 0, 0, 0, 2, 0, 0, 0], by decide +kernel⟩

theorem wit_HostLinkCommands_9_b : ∃ (s : State) (obj : Bytes),
    s.linkOn = true ∧
    s.secureRuns = true ∧
    s.link.held = none ∧
    8 ≤ obj.length ∧
    obj.length ≤ 65536 ∧
    obj.leAt 0 2 = 1 ∧
    obj.leAt 4 4 % 2 ^ 18 * 4 = obj.length ∧
    obj.at_ 2 = 1 ∧ obj.at_ 8 = 0x10 ∧ obj.at_ 9 = 0x84 :=
  ⟨up, Bytes.ofNats [1, 0, 1, 0, 3, 0, 0, 0, 0x10, 0x84, 0, 0], by decide +kernel⟩

theorem wit_HostLinkCommands_11 : ∃ (s : State) (x : SpdmSession), s.spdm? x.id = some x ∧ x.handshake = false ∧ s.secureRuns = true ∧
    s.link.held = none ∧ x.ver < 256 ∧ (s.link.conn.room = 0 ∨ 195 ≤ s.link.conn.room ∨ x.ver < 0x12) ∧
    ∃ (stream keySet sub : Nat) (tx : Bool) (k : IdeKey) (key iv : Bytes),
      s.link.ideKeys.find? (ideIndex stream keySet sub tx) = some k ∧ keySet ≤ 1 ∧ sub ≤ 2 ∧
      key.length = 32 ∧ iv.length = 8 ∧ stream ≤ 8 ∧ (s.link.ideKeys.find? (ideIndex stream keySet sub tx)).any (·.active) = false :=
  ⟨sesUp, idle0, by decide +kernel, by decide +kernel, by decide +kernel, by decide +kernel, by decide +kernel, by decide +kernel,
    1, 0, 2, true, { key := [1], iv := [] }, Bytes.zeros 32, Bytes.zeros 8, by decide +kernel⟩

theorem wit_FaultsAreContained_0_a : ∃ (s : State) (c : Nat) (off : Nat) (i : RegInfo),
    s.mainOn = true ∧
    c < 12 ∧
    off < 0x100000 ∧
    regInfo c off = some i ∧
    i.rw ≠ 0 :=
  ⟨up, 11, 0x114, regAt 11 0x114, by decide +kernel⟩

theorem wit_FaultsAreContained_0_b : ∃ (s : State) (c : Nat) (off : Nat) (i : RegInfo),
    s.mainOn = true ∧
    c < 12 ∧
    off < 0x100000 ∧
    regInfo c off = some i ∧
    i.rw ≠ 0 :=
  ⟨up, 11, 0x110, regAt 11 0x110, by decide +kernel⟩

theorem wit_FaultsAreContained_1 : ∃ (s : State) (c : Nat),
    s.mainOn = true ∧
    c < 12 ∧
    s.regs.errEn.length = 12 :=
  ⟨up, 11, by decide +kernel⟩

theorem wit_FaultsAreContained_2 : ∃ (s : State) (f : Nat) (off : Nat),
    s.mainOn = true ∧
    f ≠ 0 ∧
    pageParity off = true ∧
    (s.fn f).run ≠ .resetting ∧
    (s.fn f).run ≠ .unallocated :=
  ⟨up, 1, 0x3400, by decide +kernel⟩

theorem wit_FaultsAreContained_3_a : ∃ (s : State),
    s.mainOn = true :=
  ⟨up, by decide +kernel⟩

theorem wit_FaultsAreContained_3_b : ∃ (s : State),
    s.mainOn = true :=
  ⟨up, by decide +kernel⟩

theorem wit_FaultsAreContained_3_c : ∃ (s : State),
    s.mainOn = true :=
  ⟨up, by decide +kernel⟩

theorem wit_FaultsAreContained_4_a : ∃ (s : State),
    s.mainOn = true :=
  ⟨up, by decide +kernel⟩

theorem wit_FaultsAreContained_4_b : ∃ (s : State),
    s.mainOn = true :=
  ⟨{ up with red := { up.red with vsSilent := true } }, by decide +kernel⟩

theorem wit_FaultsAreContained_5_a : ∃ (s : State),
    s.mainOn = true :=
  ⟨up, by decide +kernel⟩

theorem wit_FaultsAreContained_5_b : ∃ (s : State),
    s.mainOn = true :=
  ⟨up, by decide +kernel⟩

theorem wit_FaultsAreContained_5_c : ∃ (s : State),
    s.mainOn = true :=
  ⟨up, by decide +kernel⟩

theorem wit_FaultsAreContained_5_d : ∃ (s : State),
    s.mainOn = true :=
  ⟨up, by decide +kernel⟩

theorem wit_FaultsAreContained_6_a : ∃ (s : State) (p : Nat),
    s.mainOn = true ∧
    p < s.fab.pairs.length ∧
    ((s.pair p).st.full || (s.pair p).st.half) = true :=
  ⟨up, 9, by decide +kernel⟩

theorem wit_FaultsAreContained_6_b : ∃ (s : State) (p : Nat),
    s.mainOn = true ∧
    p < s.fab.pairs.length ∧
    ((s.pair p).st.full || (s.pair p).st.half) = true :=
  ⟨modPair 2 (fun x => { x with st := .halfA }) up, 2, by decide +kernel⟩

theorem wit_FaultsAreContained_7 : ∃ (s : State) (c : Nat),
    s.mainOn = true ∧
    2 * c + 1 < s.fab.pairs.length ∧
    ((s.pair (2 * c)).st.full || (s.pair (2 * c)).st.half) = true ∧
    ((s.pair (2 * c + 1)).st.full || (s.pair (2 * c + 1)).st.half) = true :=
  ⟨up, 1, by decide +kernel⟩

theorem wit_FaultsAreContained_8_a : ∃ (s : State),
    s.mainOn = true :=
  ⟨up, by decide +kernel⟩

theorem wit_FaultsAreContained_14_a : ∃ (s : State),
    s.mainOn = true :=
  ⟨up, by decide +kernel⟩

theorem wit_FaultsAreContained_8_b : ∃ (s : State),
    s.mainOn = true :=
  ⟨up, by decide +kernel⟩

theorem wit_FaultsAreContained_14_b : ∃ (s : State),
    s.mainOn = true :=
  ⟨up, by decide +kernel⟩

theorem wit_FaultsAreContained_8_c : ∃ (s : State),
    s.mainOn = true :=
  ⟨up, by decide +kernel⟩

theorem wit_FaultsAreContained_14_c : ∃ (s : State),
    s.mainOn = true :=
  ⟨up, by decide +kernel⟩

theorem wit_FaultsAreContained_8_d : ∃ (s : State),
    s.mainOn = true :=
  ⟨up, by decide +kernel⟩

theorem wit_FaultsAreContained_14_d : ∃ (s : State),
    s.mainOn = true :=
  ⟨up, by decide +kernel⟩

theorem wit_FaultsAreContained_9 : ∃ (s : State),
    s.mainOn = true :=
  ⟨up, by decide +kernel⟩

theorem wit_FaultsAreContained_10_a : ∃ (s : State),
    s.mainOn = true :=
  ⟨up, by decide +kernel⟩

theorem wit_FaultsAreContained_10_b : ∃ (s : State),
    s.mainOn = true :=
  ⟨{ up with red := { up.red with vsSilent := true } }, by decide +kernel⟩

theorem wit_FaultsAreContained_11_at : ∃ (s : State),
    s.mainOn = true :=
  ⟨{ up with red := { up.red with inStep := true, iris := false } }, by decide +kernel⟩

theorem wit_FaultsAreContained_11_af : ∃ (s : State),
    s.mainOn = true :=
  ⟨{ up with red := { up.red with inStep := true, iris := false } }, by decide +kernel⟩

theorem wit_FaultsAreContained_11_bt : ∃ (s : State),
    s.mainOn = true :=
  ⟨{ up with red := { up.red with inStep := false, iris := false, irisSt := 3 } }, by decide +kernel⟩

theorem wit_FaultsAreContained_11_bf : ∃ (s : State),
    s.mainOn = true :=
  ⟨{ up with red := { up.red with inStep := false, iris := false, irisSt := 3 } }, by decide +kernel⟩

theorem wit_FaultsAreContained_11_ct : ∃ (s : State),
    s.mainOn = true :=
  ⟨{ up with red := { up.red with inStep := true, iris := true, drops := [(true, 63 * second), (true, 62 * second)] } }, by decide +kernel⟩

theorem wit_FaultsAreContained_11_cf : ∃ (s : State),
    s.mainOn = true :=
  ⟨{ up with red := { up.red with inStep := true, iris := true, drops := [(true, 63 * second), (true, 62 * second)] } }, by decide +kernel⟩

theorem wit_FaultsAreContained_12_a : ∃ (s : State),
    s.mainOn = true :=
  ⟨up, by decide +kernel⟩

theorem wit_FaultsAreContained_12_b : ∃ (s : State),
    s.mainOn = true :=
  ⟨{ up with rng := { up.rng with seeded := false } }, by decide +kernel⟩

theorem wit_FaultsAreContained_13 : ∃ (s : State),
    s.mainOn = true :=
  ⟨up, by decide +kernel⟩

theorem wit_FaultsAreContained_15_a : ∃ (s : State),
    s.mainOn = true ∧
    s.red.inStep = true :=
  ⟨{ up with red := { up.red with inStep := true, iris := false } }, by decide +kernel⟩

theorem wit_FaultsAreContained_15_b : ∃ (s : State),
    s.mainOn = true ∧
    s.red.inStep = true :=
  ⟨{ up with red := { up.red with inStep := true, iris := false } }, by decide +kernel⟩

theorem wit_FaultsAreContained_15_c : ∃ (s : State),
    s.mainOn = true ∧
    s.red.inStep = true :=
  ⟨{ up with red := { up.red with inStep := true, iris := false } }, by decide +kernel⟩

theorem wit_FaultsAreContained_15_d : ∃ (s : State),
    s.mainOn = true ∧
    s.red.inStep = true :=
  ⟨{ up with red := { up.red with inStep := true, iris := false } }, by decide +kernel⟩

theorem wit_FaultsAreContained_15_e : ∃ (s : State),
    s.mainOn = true ∧
    s.red.inStep = true :=
  ⟨{ up with red := { up.red with inStep := true, iris := false } }, by decide +kernel⟩

theorem wit_FaultsAreContained_15_f : ∃ (s : State),
    s.mainOn = true ∧
    s.red.inStep = true :=
  ⟨{ up with red := { up.red with inStep := true, iris := false } }, by decide +kernel⟩

theorem wit_FaultsAreContained_15_g : ∃ (s : State),
    s.mainOn = true ∧
    s.red.inStep = true :=
  ⟨{ up with red := { up.red with inStep := true, iris := false } }, by decide +kernel⟩

theorem wit_FaultsAreContained_15_h : ∃ (s : State),
    s.mainOn = true ∧
    s.red.inStep = true :=
  ⟨{ up with red := { up.red with inStep := true, iris := false } }, by decide +kernel⟩

theorem wit_FaultsAreContained_16_a : ∃ (s : State),
    s.mainOn = true ∧
    s.red.inStep = false :=
  ⟨{ up with red := { up.red with inStep := false, iris := false, irisSt := 3 } }, by decide +kernel⟩

theorem wit_FaultsAreContained_16_b : ∃ (s : State),
    s.mainOn = true ∧
    s.red.inStep = false :=
  ⟨{ up with red := { up.red with inStep := false, iris := false, irisSt := 3 } }, by decide +kernel⟩

theorem wit_FaultsAreContained_16_c : ∃ (s : State),
    s.mainOn = true ∧
    s.red.inStep = false :=
  ⟨{ up with red := { up.red with inStep := false, iris := false, irisSt := 3 } }, by decide +kernel⟩

theorem wit_FaultsAreContained_17_a : ∃ (s : State),
    s.mainOn = true ∧
    s.unit (!s.red.iris) = 3 :=
  ⟨{ up with red := { up.red with inStep := false, iris := false, irisSt := 3 } }, by decide +kernel⟩

theorem wit_FaultsAreContained_17_b : ∃ (s : State),
    s.mainOn = true ∧
    s.unit (!s.red.iris) = 3 :=
  ⟨{ up with red := { up.red with inStep := false, iris := false, irisSt := 3 } }, by decide +kernel⟩

theorem wit_FaultsAreContained_18 : ∃ (s : State),
    s.unit (!s.red.iris) ≠ 3 :=
  ⟨up, by decide +kernel⟩

theorem wit_FaultsAreContained_19 : ∃ (s : State),
    s.mainOn = false :=
  ⟨{ up with boot := { up.boot with phase := .unpowered } }, by decide +kernel⟩

theorem wit_DeviceFaultsAndRecords_0_a : ∃ (s : State) (seq : Nat),
    s.boot.escalated = some seq ∧
    s.mainOn = true :=
  ⟨{ up with boot := { up.boot with escalated := some 4 } }, 4, by decide +kernel⟩

theorem wit_DeviceFaultsAndRecords_0_b : ∃ (s : State) (seq : Nat),
    s.boot.escalated = some seq ∧
    s.mainOn = true :=
  ⟨{ with1 (jobOf 64 0 []) up with boot := { up.boot with escalated := some 4 } }, 4, by decide +kernel⟩

theorem wit_DeviceFaultsAndRecords_1 : ∃ (s : State) (seq : Nat),
    s.boot.escalated ≠ some seq :=
  ⟨up, 4, by decide +kernel⟩

theorem wit_DeviceFaultsAndRecords_2_a : ∃ (s : State) (t0 : Nat),
    s.boot.devFault = true ∧
    s.boot.dueAt = some t0 :=
  ⟨{ up with boot := { up.boot with devFault := true, dueAt := some (60 * second) } }, 60 * second, by decide +kernel⟩

theorem wit_DeviceFaultsAndRecords_2_b : ∃ (s : State) (t0 : Nat),
    s.boot.devFault = true ∧
    s.boot.dueAt = some t0 :=
  ⟨{ up with boot := { up.boot with devFault := true, dueAt := some (64 * second) } }, 64 * second, by decide +kernel⟩

theorem wit_DeviceFaultsAndRecords_3_a : ∃ (s : State),
    s.boot.devFault = true ∧
    s.boot.dueAt = none ∧
    (s.boot.phase = .open_ ∨ (∃ n, s.boot.phase = .stage n)) :=
  ⟨{ up with boot := { up.boot with devFault := true, dueAt := none } }, by decide +kernel, by decide +kernel, .inl (by decide +kernel)⟩

theorem wit_DeviceFaultsAndRecords_3_b : ∃ (s : State),
    s.boot.devFault = true ∧
    s.boot.dueAt = none ∧
    (s.boot.phase = .open_ ∨ (∃ n, s.boot.phase = .stage n)) :=
  ⟨{ up with boot := { up.boot with devFault := true, dueAt := none, stage3 := false, phase := .stage 3 } }, by decide +kernel, by decide +kernel, .inr ⟨3, by decide +kernel⟩⟩

theorem wit_DeviceFaultsAndRecords_4_a : ∃ (s : State),
    (s.boot.devFault = false ∨ (s.boot.dueAt = none ∧ s.boot.phase ≠ .open_ ∧ ∀ n, s.boot.phase ≠ .stage n)) :=
  ⟨up, .inl (by decide +kernel)⟩

theorem wit_DeviceFaultsAndRecords_4_b : ∃ (s : State),
    (s.boot.devFault = false ∨ (s.boot.dueAt = none ∧ s.boot.phase ≠ .open_ ∧ ∀ n, s.boot.phase ≠ .stage n)) :=
  ⟨{ up with boot := { up.boot with devFault := true, dueAt := none, phase := .devHold } }, .inr ⟨by decide +kernel, by decide +kernel, fun _ h => by cases h⟩⟩

theorem wit_DeviceFaultsAndRecords_5_a : ∃ (s : State),
    s.mainOn = true ∧
    wdogExpired s = true ∧
    s.boot.devFault = false :=
  ⟨{ up with worlds := { up.worlds with kickAt := 0 } }, by decide +kernel⟩

theorem wit_DeviceFaultsAndRecords_5_b : ∃ (s : State),
    s.mainOn = true ∧
    wdogExpired s = true ∧
    s.boot.devFault = false :=
  ⟨{ up with worlds := { up.worlds with kickAt := 0 }, dict := { force := [(objKey 0x7000 0x20, [1])] } }, by decide +kernel⟩

theorem wit_DeviceFaultsAndRecords_5_c : ∃ (s : State),
    s.mainOn = true ∧
    wdogExpired s = true ∧
    s.boot.devFault = false :=
  ⟨{ stageUp 6 with worlds := { up.worlds with kickAt := 0 } }, by decide +kernel⟩

theorem wit_DeviceFaultsAndRecords_6_a : ∃ (s : State),
    (s.mainOn = false ∨ wdogExpired s = false ∨ s.boot.devFault = true) :=
  ⟨{ up with boot := { up.boot with phase := .unpowered } }, by decide +kernel⟩

theorem wit_DeviceFaultsAndRecords_6_b : ∃ (s : State),
    (s.mainOn = false ∨ wdogExpired s = false ∨ s.boot.devFault = true) :=
  ⟨up, by decide +kernel⟩

theorem wit_DeviceFaultsAndRecords_6_c : ∃ (s : State),
    (s.mainOn = false ∨ wdogExpired s = false ∨ s.boot.devFault = true) :=
  ⟨{ up with boot := { up.boot with devFault := true } }, by decide +kernel⟩

theorem wit_DeviceFaultsAndRecords_7 : ∃ (s : State) (e : EventRec) (l : List EventRec),
    s.evr.queue = e :: l ∧
    s.mainOn = true :=
  ⟨{ up with evr := { up.evr with queue := [rec1] } }, rec1, [], by decide +kernel⟩

theorem wit_DeviceFaultsAndRecords_8_a : ∃ (s : State),
    (s.evr.queue = [] ∨ s.mainOn = false) :=
  ⟨up, by decide +kernel⟩

theorem wit_DeviceFaultsAndRecords_8_b : ∃ (s : State),
    (s.evr.queue = [] ∨ s.mainOn = false) :=
  ⟨{ up with boot := { up.boot with phase := .unpowered } }, by decide +kernel⟩

theorem wit_DeviceFaultsAndRecords_9 : ∃ (s : State),
    s.clock.running = true ∧
    s.now / second ≠ s.evr.window :=
  ⟨{ up with evr := { up.evr with window := 3, suppressed := [(0x0901, 4)] } }, by decide +kernel⟩

theorem wit_DeviceFaultsAndRecords_10_a : ∃ (s : State),
    (s.clock.running = false ∨ s.now / second = s.evr.window) :=
  ⟨{ up with clock := { up.clock with running := false } }, by decide +kernel⟩

theorem wit_DeviceFaultsAndRecords_10_b : ∃ (s : State),
    (s.clock.running = false ∨ s.now / second = s.evr.window) :=
  ⟨{ up with evr := { up.evr with window := 64 } }, by decide +kernel⟩

theorem wit_ResetsAndStartUp_0 : ∃ (s : State),
    s.boot.phase = .unpowered :=
  ⟨{ up with boot := { up.boot with phase := .unpowered, supplies := false } }, by decide +kernel⟩

theorem wit_ResetsAndStartUp_1 : ∃ (s : State),
    s.boot.phase ≠ .unpowered :=
  ⟨up, by decide +kernel⟩

theorem wit_ResetsAndStartUp_2_a : ∃ (s : State),
    s.boot.phase ≠ .unpowered :=
  ⟨keyed up, by decide +kernel⟩

theorem wit_ResetsAndStartUp_2_b : ∃ (s : State),
    s.boot.phase ≠ .unpowered :=
  ⟨{ up with evr := { up.evr with queue := [rec1] } }, by decide +kernel⟩

theorem wit_ResetsAndStartUp_3 : ∃ (s : State),
    s.boot.phase = .unpowered :=
  ⟨{ up with boot := { up.boot with phase := .unpowered, supplies := false } }, by decide +kernel⟩

theorem wit_ResetsAndStartUp_5 : ∃ (s : State),
    s.boot.supplies = true ∧
    s.boot.perst = true :=
  ⟨alarmUp, by decide +kernel⟩

theorem wit_ResetsAndStartUp_6 : ∃ (s : State),
    (s.boot.supplies = false ∨ s.boot.perst = false) :=
  ⟨{ up with boot := { up.boot with phase := .unpowered, supplies := false } }, by decide +kernel⟩

theorem wit_ResetsAndStartUp_7 : ∃ (s : State),
    s.boot.phase = .held ∧
    s.boot.supplies = true :=
  ⟨{ alarmUp with boot := { alarmUp.boot with phase := .held } }, by decide +kernel⟩

theorem wit_ResetsAndStartUp_8 : ∃ (s : State),
    (s.boot.phase ≠ .held ∨ s.boot.supplies = false) :=
  ⟨up, by decide +kernel⟩

theorem wit_ResetsAndStartUp_9_a : ∃ (s : State),
    starting 1 s = true :=
  ⟨{ stageUp 1 with vesper := { up.vesper with warm := true } }, by decide +kernel⟩

theorem wit_ResetsAndStartUp_9_b : ∃ (s : State),
    starting 1 s = true :=
  ⟨{ stageUp 1 with vesper := { up.vesper with warm := false, valid := false } }, by decide +kernel⟩

theorem wit_ResetsAndStartUp_10_a : ∃ (s : State),
    starting 2 s = true :=
  ⟨stageUp 2, by decide +kernel⟩

theorem wit_ResetsAndStartUp_10_b : ∃ (s : State),
    starting 2 s = true :=
  ⟨stageUp 2, by decide +kernel⟩

theorem wit_ResetsAndStartUp_10_c : ∃ (s : State),
    starting 2 s = true :=
  ⟨stageUp 2, by decide +kernel⟩

theorem wit_ResetsAndStartUp_11 : ∃ (s : State),
    starting 3 s = true ∧
    s.boot.stuck = true :=
  ⟨{ stageUp 3 with boot := { (stageUp 3).boot with stuck := true } }, by decide +kernel⟩

theorem wit_ResetsAndStartUp_12_a : ∃ (s : State),
    starting 3 s = true ∧
    s.boot.stuck = false :=
  ⟨stageUp 3, by decide +kernel⟩

theorem wit_ResetsAndStartUp_12_b : ∃ (s : State),
    starting 3 s = true ∧
    s.boot.stuck = false :=
  ⟨stageUp 3, by decide +kernel⟩

theorem wit_ResetsAndStartUp_13 : ∃ (s : State),
    starting 4 s = true :=
  ⟨stageUp 4, by decide +kernel⟩

theorem wit_ResetsAndStartUp_14 : ∃ (s : State) (u : State) (v : State) (b : Bytes),
    starting 5 s = true ∧
    (if s.rng.seeded then some s else firstSeed s) = some u ∧
    fwRandom 32 (askSeeds u) = .ok (b, v) ∧
    NothingWaits s :=
  ⟨stageUp 5, stageUp 5, (drawnOf (fwRandom 32 (askSeeds (stageUp 5)))).2, (drawnOf (fwRandom 32 (askSeeds (stageUp 5)))).1, by decide +kernel, by decide +kernel, drawn_ok (by decide +kernel), by decide +kernel⟩

theorem wit_ResetsAndStartUp_15 : ∃ (s : State),
    starting 5 s = true ∧
    s.rng.seeded = false ∧
    s.rng.pool = [] ∧
    NothingWaits s :=
  ⟨{ stageUp 5 with rng := { up.rng with seeded := false, fwBuf := [] } }, by decide +kernel⟩

theorem wit_ResetsAndStartUp_16_a : ∃ (s : State),
    starting 6 s = true ∧
    (s.fab.gens.getD 10 {}).key ≠ [] ∧
    (s.fab.gens.getD 11 {}).key ≠ [] :=
  ⟨{ stageUp 6 with fab := { up.fab with gens := List.replicate 12 { key := [1] } } }, by decide +kernel⟩

theorem wit_ResetsAndStartUp_16_b : ∃ (s : State),
    starting 6 s = true ∧
    (s.fab.gens.getD 10 {}).key ≠ [] ∧
    (s.fab.gens.getD 11 {}).key ≠ [] :=
  ⟨{ stageUp 6 with life := { up.life with lc := .factory }, fab := { up.fab with gens := List.replicate 12 { key := [1] } } }, by decide +kernel⟩

theorem wit_ResetsAndStartUp_17 : ∃ (s : State),
    starting 7 s = true :=
  ⟨stageUp 7, by decide +kernel⟩

theorem wit_ResetsAndStartUp_19 : ∃ (s : State),
    s.clock.refclk = true ∧
    s.mainOn = false :=
  ⟨{ up with boot := { up.boot with phase := .unpowered, supplies := false } }, by decide +kernel⟩

theorem wit_ResetsAndStartUp_20 : ∃ (s : State),
    s.clock.refclk = true ∧
    s.mainOn = true ∧
    (s.fn 0).run ≠ .resetting ∧
    (s.fn 0).run ≠ .unallocated :=
  ⟨up, by decide +kernel⟩

theorem wit_ResetsAndStartUp_21 : ∃ (s : State),
    s.clock.refclk = false :=
  ⟨{ up with clock := { up.clock with refclk := false } }, by decide +kernel⟩

theorem wit_LockedRulesStay : ∃ (c : Instr) (s t : State), exec c s = .next t ∧ ResetsTheDevice c = false ∧ s.regs.rulesLock = true :=
  ⟨.doeAbort, lockUp, { lockUp with link := { lockUp.link with doe := [], mailbox := [], held := none } }, rfl, rfl, rfl⟩

theorem wit_StepKeepsTidy_0 : ∃ (s t : State), Tidy s ∧ step s = .next t :=
  ⟨{ hostWrite 0 0x1000 [7] up with pending := [.doeAbort] },
    { hostWrite 0 0x1000 [7] up with pending := [], link := { up.link with doe := [] } }, by decide +kernel, rfl⟩

theorem wit_DoorbellAcceptance_1_a : ∃ (s : State) (f : Nat) (q : Nat) (v : Word) (x : JobQueue),
    s.pageOpen f = true ∧
    s.jq? f q = some x ∧
    ((x.st = .draining ∨ v = x.pi)) :=
  ⟨withJq { log4 with pi := 3 } up, 0, 1, 3, { log4 with pi := 3 }, by decide +kernel⟩

theorem wit_DoorbellAcceptance_1_b : ∃ (s : State) (f : Nat) (q : Nat) (v : Word) (x : JobQueue),
    s.pageOpen f = true ∧
    s.jq? f q = some x ∧
    ((x.st = .draining ∨ v = x.pi)) :=
  ⟨withJq { log4 with st := .draining } up, 0, 1, 3, { log4 with st := .draining }, by decide +kernel⟩

theorem wit_LockedRulesStay_1_a : ∃ (s : State),
    starting 7 s = true :=
  ⟨{ stageUp 7 with dict := { force := [] } }, by decide +kernel⟩

theorem wit_LockedRulesStay_1_b : ∃ (s : State),
    starting 7 s = true :=
  ⟨{ stageUp 7 with dict := { force := [(objKey 0x7000 0x22, [1])] } }, by decide +kernel⟩

theorem wit_LockedRulesStay_2 : ∃ (s : State),
    s.boot.supplies = true ∧
    s.boot.perst = true :=
  ⟨{ lockUp with boot := { lockUp.boot with supplies := true } }, by decide +kernel⟩

theorem wit_LockedRulesStay_3 : ∃ (s : State),
    s.boot.phase ≠ .unpowered :=
  ⟨lockUp, by decide +kernel⟩

/-! ## Single steps -/

/-- The table gives no row bits, so no word spells a command. -/
theorem test_no_words : decodeTableWord 0 0 = none ∧ State.reset.withFetchWord 0 0 = State.reset := by decide +kernel

/-- The front command runs and leaves the queue. -/
theorem test_front_first : (match step { State.reset with pending := [.powerOnReset, .glitchArm] } with
    | .next t => decide (t.pending = [.glitchArm]) && decide (t.boot.phase = .held) && !t.vesper.armed
    | _ => false) = true := by decide +kernel

/-- A NOP completes with OK (R124). -/
theorem test_nop : (match exec (.nop (jobOf 64 0x01 []).ref) (with1 (jobOf 64 0x01 []) up) with
    | .next t => decide ((t.jobs.map (·.outcome)) = [some { status := 0x00 }])
    | _ => false) = true := by decide +kernel

/-- A store of four bytes, least significant first (R11), and the bytes beside it. -/
theorem test_host_write : (hostWrite 0 0x1000 (Bytes.ofLE 4 0x11223344) up).hostRead 0 0xFFF 6 =
    Bytes.ofNats [0, 0x44, 0x33, 0x22, 0x11, 0] := by decide +kernel

/-- Writing what an unlisted byte reads as removes its entry. -/
theorem test_host_write_zero : (hostWrite 0 0x1000 [0] (hostWrite 0 0x1000 [7] up)).mem = up.mem := by decide +kernel

end Sys2Proof.Tests
end

section
/-!
PROOFS. Index writes of the ring queues (chapter 4, R118 and R119). A refused write is, but for signals, the state with
the queue's bit of FN_QERR set; what the signals themselves do to the recorder and to FN_EVENT is said by `Notifies`.
-/

namespace Sys2Proof.Safety

open Sys2Proof.Machine

/-! ## Signals that leave the recorder alone -/

/-- From `s` to `t` the recorder stands still and no bit of FN_EVENT clears: what error bits, device sources, status
events and interrupts do, and recording does not. -/
def Notifies (s t : State) : Prop :=
  t.evr = s.evr ∧ ∀ f n, (s.fn f).event.getLsbD n = true → (t.fn f).event.getLsbD n = true

theorem Notifies.trans {s t u : State} (a : Notifies s t) (b : Notifies t u) : Notifies s u :=
  ⟨b.1.trans a.1, fun f n h => b.2 f n (a.2 f n h)⟩

/-- A change outside the recorder and the functions. -/
theorem Notifies.of_fns {s t : State} (he : t.evr = s.evr) (hf : t.fns = s.fns) : Notifies s t :=
  ⟨he, fun f n h => by simpa [State.fn, hf] using h⟩

theorem Notifies.refl (s : State) : Notifies s s := .of_fns rfl rfl

/-- A change of one function that clears no bit of its FN_EVENT. -/
theorem Notifies.of_fn {s : State} {f : Nat} {g : Fn}
    (h : ∀ n, (s.fn f).event.getLsbD n = true → g.event.getLsbD n = true) : Notifies s (setFn f g s) :=
  ⟨rfl, fun k n hk => by
    rw [fn_setFn]
    split
    · next e => exact h n (e ▸ hk)
    · exact hk⟩

theorem notifies_emit (m : OutMsg) (s : State) : Notifies s (emit m s) := .of_fns rfl rfl

theorem notifies_evalVec (f v : Nat) (s : State) : Notifies s (evalVec f v s) := by
  unfold evalVec
  simp only
  split
  · split
    · exact Notifies.trans (Notifies.of_fn (by exact fun _ h => h)) (notifies_emit _ _)
    · exact .of_fn fun _ h => h
  · exact .refl s

theorem notifies_vecEvent (f v : Nat) (b : Bool) (s : State) : Notifies s (vecEvent f v b s) := by
  unfold vecEvent
  simp only
  split
  · exact Notifies.trans (Notifies.of_fn (by exact fun _ h => h)) (notifies_evalVec _ _ _)
  · exact .refl s

theorem notifies_signalDevice (s : State) : Notifies s (signalDevice s) := by
  unfold signalDevice
  split
  · exact notifies_vecEvent _ _ _ _
  · exact .refl s

theorem notifies_raiseSource (n : Nat) (s : State) : Notifies s (raiseSource n s) := by
  unfold raiseSource
  split
  · exact .refl s
  · simp only
    split
    · exact Notifies.trans (.of_fns rfl rfl) (notifies_signalDevice _)
    · exact .of_fns rfl rfl

theorem notifies_setErr (c n : Nat) (s : State) : Notifies s (setErr c n s) := by
  unfold setErr
  simp only
  split
  · exact .refl s
  · split
    · exact Notifies.trans (.of_fns rfl rfl) (notifies_raiseSource _ _)
    · split
      · exact Notifies.trans (.of_fns rfl rfl) (notifies_raiseSource _ _)
      · exact .of_fns rfl rfl

/-- `s` with bit `n` of FN_EVENT of function `f` set, before anything is signalled (R311). -/
def withEvent (f n : Nat) (s : State) : State :=
  setFn f { s.fn f with event := (s.fn f).event ||| BitVec.ofNat 32 (2 ^ n) } s

theorem getLsbD_or_twoPow {w n : Nat} (x : BitVec w) (h : n < w) : (x ||| BitVec.ofNat w (2 ^ n)).getLsbD n = true := by
  rw [BitVec.getLsbD_or, BitVec.getLsbD_ofNat, Nat.testBit_two_pow_self]
  simp [h]

/-- FN_EVENT's bit, when it was clear, is set and then at most signalled. -/
theorem notifies_withEvent_setEvent (f n : Nat) (s : State) (h : (s.fn f).event.getLsbD n = false) :
    Notifies (withEvent f n s) (setEvent f n s) := by
  have irq : Notifies (withEvent f n s)
      (if (s.fn f).irqEn then vecEvent f (s.fn f).irqVec false (withEvent f n s) else withEvent f n s) := by
    split
    · exact notifies_vecEvent _ _ _ _
    · exact .refl _
  unfold setEvent
  simp only [h, Bool.false_eq_true, if_false]
  split
  · split
    · exact irq.trans (notifies_raiseSource _ _)
    · exact irq
  · exact .refl _

theorem notifies_setEvent (f n : Nat) (s : State) : Notifies s (setEvent f n s) := by
  cases h : (s.fn f).event.getLsbD n with
  | true => rw [setEvent, if_pos h]; exact .refl s
  | false =>
    have hw : Notifies s (withEvent f n s) := .of_fn fun k hk => by simp [hk]
    exact hw.trans (notifies_withEvent_setEvent f n s h)

/-- After `setEvent` the bit of FN_EVENT reads 1. -/
theorem event_setEvent (f n : Nat) (s : State) (hn : n < 32) : ((setEvent f n s).fn f).event.getLsbD n = true := by
  cases h : (s.fn f).event.getLsbD n with
  | true => exact (notifies_setEvent f n s).2 f n h
  | false =>
    refine (notifies_withEvent_setEvent f n s h).2 f n ?_
    rw [withEvent, fn_setFn_self]
    exact getLsbD_or_twoPow _ hn

/-! ## Recording -/

@[simp] theorem rollWindow_fns (s : State) : (rollWindow s).fns = s.fns := by
  unfold rollWindow; split <;> rfl

/-- The window a record falls in depends on the recorder and the time alone. -/
theorem rollWindow_evr_congr {s t : State} (he : t.evr = s.evr) (hn : t.now = s.now) :
    (rollWindow t).evr = (rollWindow s).evr := by
  unfold rollWindow
  rw [he, hn]
  split
  · exact he
  · rfl

theorem param_congr {s t : State} (h : t.dict.force = s.dict.force) (i j d : Nat) : t.param i j d = s.param i j d := by
  unfold State.param; rw [h]

/-- The recorder takes records, and code `c` at level 0 has room (R374, R438, R439, R479). -/
structure RecorderHasRoom (c : Nat) (s : State) : Prop where
  halted : s.worlds.halted = false
  running : s.clock.running = true
  rate : (rollWindow s).evr.counts.getD c 0 < s.param 0x5200 3 64
  pending : (rollWindow s).evr.queue.length < 256

/-- The room depends on the recorder, its clock and worlds, and the parameters in force. -/
theorem RecorderHasRoom.congr {c : Nat} {s t : State} (h : RecorderHasRoom c s) (he : t.evr = s.evr)
    (hw : t.worlds = s.worlds) (hc : t.clock = s.clock) (hp : t.dict.force = s.dict.force) : RecorderHasRoom c t := by
  have hroll : (rollWindow t).evr = (rollWindow s).evr := rollWindow_evr_congr he (congrArg (·.meridian) hc)
  exact ⟨hw ▸ h.halted, hc ▸ h.running, by rw [hroll, param_congr hp]; exact h.rate, hroll ▸ h.pending⟩

theorem acceptRecord_takes (e : EventRec) (s : State) (h : RecorderHasRoom e.code s) :
    (acceptRecord e s).evr.queue = (rollWindow s).evr.queue ++ [e] := by
  have hrate : ¬ (rollWindow s).evr.counts.getD e.code 0 ≥ (rollWindow s).param 0x5200 3 64 := by
    rw [param_congr (quiet_rollWindow s).force]; exact Nat.not_le.mpr h.rate
  have hpend : ¬ (e.level = 0 ∧ (rollWindow s).evr.queue.length ≥ 256) := fun k => Nat.not_le.mpr h.pending k.2
  unfold acceptRecord
  simp only [h.halted, h.running, Bool.not_true, Bool.or_false, Bool.false_eq_true, if_false, hrate, hpend]
  split <;> rfl

@[simp] theorem acceptRecord_fns (e : EventRec) (s : State) : (acceptRecord e s).fns = s.fns := by
  unfold acceptRecord
  split
  · rfl
  · simp only
    split
    · simp
    · split
      · simp
      · split <;> simp

/-- A record of level 0 with room for it is the newest one pending. -/
theorem record_level0_takes (code p0 p1 p2 p3 : Nat) (s : State) (h : RecorderHasRoom code s) :
    (record code 0 p0 p1 p2 p3 false s).evr.queue = (rollWindow s).evr.queue ++
      [{ time := s.now, code, level := 0, p0 := p0 % 2 ^ 32, p1 := p1 % 2 ^ 32, p2 := p2 % 2 ^ 32, p3 := p3 % 2 ^ 16 }] :=
  acceptRecord_takes _ _ h

/-- A record of level 0 reports nothing in AER, so that the functions stand as they were. -/
theorem record_level0_fns (code p0 p1 p2 p3 : Nat) (nested : Bool) (s : State) :
    (record code 0 p0 p1 p2 p3 nested s).fns = s.fns := acceptRecord_fns _ _

/-! ## Queues that a change does not touch -/

namespace Quiet

variable {s t : State} (q : Quiet s t)
include q

theorem jq? (f p : Nat) : t.jq? f p = s.jq? f p := by unfold State.jq?; rw [q.jqs]
theorem cq? (f c : Nat) : t.cq? f c = s.cq? f c := by unfold State.cq?; rw [q.cqs]
theorem qerr0 (f : Nat) : (t.fn f).qerr0 = (s.fn f).qerr0 := congrArg (·.qerr0) (q.2 f)
theorem qerr1 (f : Nat) : (t.fn f).qerr1 = (s.fn f).qerr1 := congrArg (·.qerr1) (q.2 f)

end Quiet

theorem jq_setFn_of_jqs {f : Nat} {g : Fn} {s : State} (h : g.jqs = (s.fn f).jqs) (k p : Nat) :
    (setFn f g s).jq? k p = s.jq? k p := by
  unfold State.jq?
  rw [fn_setFn]
  split
  · next e => rw [h, e]
  · rfl

theorem cq_setFn_of_cqs {f : Nat} {g : Fn} {s : State} (h : g.cqs = (s.fn f).cqs) (k c : Nat) :
    (setFn f g s).cq? k c = s.cq? k c := by
  unfold State.cq?
  rw [fn_setFn]
  split
  · next e => rw [h, e]
  · rfl

theorem jq_setCq (f c : Nat) (x : CompQueue) (k p : Nat) (s : State) : (setCq f c x s).jq? k p = s.jq? k p :=
  jq_setFn_of_jqs (by rfl) k p

theorem cq_setJq (f q : Nat) (x : JobQueue) (k c : Nat) (s : State) : (setJq f q x s).cq? k c = s.cq? k c :=
  cq_setFn_of_cqs (by rfl) k c

/-! ## A refused index write -/

/-- The bit of local queue `q` in FN_QERR0 or FN_QERR1 reads 1 (R118, R311). -/
def QerrSet (q : Nat) (g : Fn) : Prop :=
  if q < 32 then g.qerr0.getLsbD q = true else g.qerr1.getLsbD (q - 32) = true

/-- A function with the bit of local queue `q` set in FN_QERR0 or FN_QERR1. -/
def withQerr (q : Nat) (g : Fn) : Fn :=
  if q < 32 then { g with qerr0 := g.qerr0 ||| BitVec.ofNat 32 (2 ^ q) }
  else { g with qerr1 := g.qerr1 ||| BitVec.ofNat 32 (2 ^ (q - 32)) }

/-- `s` with the bit of local queue `q` of function `f` set, before anything is signalled. -/
def markQerr (f q : Nat) (s : State) : State := setFn f (withQerr q (s.fn f)) s

@[simp] theorem withQerr_jqs (q : Nat) (g : Fn) : (withQerr q g).jqs = g.jqs := by unfold withQerr; split <;> rfl
@[simp] theorem withQerr_cqs (q : Nat) (g : Fn) : (withQerr q g).cqs = g.cqs := by unfold withQerr; split <;> rfl
@[simp] theorem withQerr_event (q : Nat) (g : Fn) : (withQerr q g).event = g.event := by unfold withQerr; split <;> rfl

theorem qerrSet_withQerr {q : Nat} (g : Fn) (h : q < 64) : QerrSet q (withQerr q g) := by
  unfold QerrSet withQerr
  split
  · next hq => exact getLsbD_or_twoPow _ hq
  · next hq => exact getLsbD_or_twoPow _ (by omega)

theorem jq_markQerr (f q k p : Nat) (s : State) : (markQerr f q s).jq? k p = s.jq? k p :=
  jq_setFn_of_jqs (withQerr_jqs _ _) k p

theorem cq_markQerr (f q k c : Nat) (s : State) : (markQerr f q s).cq? k c = s.cq? k c :=
  cq_setFn_of_cqs (withQerr_cqs _ _) k c

theorem notifies_markQerr (f q : Nat) (s : State) : Notifies s (markQerr f q s) :=
  .of_fn fun n h => by rwa [withQerr_event]

/-- `setQerr` marks the queue, and at most sets FN_EVENT.QERR besides (R311). -/
theorem setQerr_eq (f q : Nat) (s : State) :
    setQerr f q s = markQerr f q s ∨ setQerr f q s = setEvent f 0 (markQerr f q s) := by
  unfold setQerr markQerr withQerr
  by_cases hq : q < 32
  · simp only [hq, if_true]; split <;> simp
  · simp only [hq, if_false]; split <;> simp

theorem quiet_setQerr (f q : Nat) (s : State) : Quiet (markQerr f q s) (setQerr f q s) := by
  obtain h | h := setQerr_eq f q s <;> rw [h]
  · exact .refl _
  · exact quiet_setEvent _ _ _

theorem notifies_setQerr (f q : Nat) (s : State) : Notifies s (setQerr f q s) := by
  obtain h | h := setQerr_eq f q s <;> rw [h]
  · exact notifies_markQerr _ _ _
  · exact (notifies_markQerr _ _ _).trans (notifies_setEvent _ _ _)

/-- A refused index write up to its record: the queue's bit, for FN_CQ_CI FN_EVENT.QERR, and the counter. -/
def refusalMarked (f q : Nat) (isCq : Bool) (s : State) : State :=
  bump 0x15 (if isCq then setEvent f 0 (setQerr f q s) else setQerr f q s)

theorem refuseIndex_eq (f q : Nat) (v : Word) (isCq : Bool) (s : State) :
    refuseIndex f q v isCq s =
      setErr Block.qe 5 (record 0x0201 0 f q v.toNat (b2n isCq) (s := refusalMarked f q isCq s)) := rfl

theorem quiet_refusalMarked (f q : Nat) (isCq : Bool) (s : State) :
    Quiet (markQerr f q s) (refusalMarked f q isCq s) := by
  refine Quiet.trans ?_ (quiet_bump _ _)
  cases isCq with
  | true => exact (quiet_setQerr f q s).trans (quiet_setEvent _ _ _)
  | false => exact quiet_setQerr f q s

theorem refusalMarked_evr (f q : Nat) (isCq : Bool) (s : State) : (refusalMarked f q isCq s).evr = s.evr := by
  cases isCq with
  | true => exact ((notifies_setQerr f q s).trans (notifies_setEvent _ _ _)).1
  | false => exact (notifies_setQerr f q s).1

/-- But for signals, a refused index write sets the queue's bit of FN_QERR and nothing else (R118, R119). -/
theorem quiet_refuseIndex (f q : Nat) (v : Word) (isCq : Bool) (s : State) :
    Quiet (markQerr f q s) (refuseIndex f q v isCq s) :=
  ((quiet_refusalMarked f q isCq s).trans (quiet_record _ _ _ _ _ _ _ _)).trans (quiet_setErr _ _ _)

theorem jq_refuseIndex (f q : Nat) (v : Word) (isCq : Bool) (s : State) (k p : Nat) :
    (refuseIndex f q v isCq s).jq? k p = s.jq? k p := by
  rw [(quiet_refuseIndex f q v isCq s).jq?, jq_markQerr]

theorem cq_refuseIndex (f q : Nat) (v : Word) (isCq : Bool) (s : State) (k c : Nat) :
    (refuseIndex f q v isCq s).cq? k c = s.cq? k c := by
  rw [(quiet_refuseIndex f q v isCq s).cq?, cq_markQerr]

theorem qerrSet_refuseIndex {f q : Nat} (v : Word) (isCq : Bool) (s : State) (h : q < 64) :
    QerrSet q ((refuseIndex f q v isCq s).fn f) := by
  have hm : QerrSet q ((markQerr f q s).fn f) := by
    rw [markQerr, fn_setFn_self]; exact qerrSet_withQerr _ h
  have hq := quiet_refuseIndex f q v isCq s
  unfold QerrSet at hm ⊢
  rwa [hq.qerr0, hq.qerr1]

/-- The record of a refused index write, while the recorder has room for it. -/
theorem refusalRecorded_refuseIndex {f q : Nat} (v : Word) (isCq : Bool) (s : State) (h : q < 64) :
    RefusalRecorded f q v (b2n isCq) s (refuseIndex f q v isCq s) := by
  intro halted running rate pending
  have room : RecorderHasRoom 0x0201 s := ⟨halted, running, rate, pending⟩
  have quiet := quiet_refusalMarked f q isCq s
  have hevr := refusalMarked_evr f q isCq s
  have hnow : (refusalMarked f q isCq s).now = s.now := quiet.now
  have hq32 : q % 2 ^ 32 = q := Nat.mod_eq_of_lt (by omega)
  have hv32 : v.toNat % 2 ^ 32 = v.toNat := Nat.mod_eq_of_lt v.isLt
  have hp3 : b2n isCq % 2 ^ 16 = b2n isCq := by cases isCq <;> rfl
  rw [refuseIndex_eq, (notifies_setErr _ _ _).1,
    record_level0_takes _ _ _ _ _ _ (room.congr hevr quiet.worlds quiet.clock quiet.force),
    rollWindow_evr_congr hevr hnow, hnow, hq32, hv32, hp3]

/-- A refused write of FN_CQ_CI leaves FN_EVENT.QERR set (R119). -/
theorem event_refuseIndex_cq (f q : Nat) (v : Word) (s : State) :
    ((refuseIndex f q v true s).fn f).event.getLsbD 0 = true := by
  rw [refuseIndex_eq]
  refine (notifies_setErr _ _ _).2 f 0 ?_
  unfold State.fn
  rw [record_level0_fns]
  exact event_setEvent f 0 (setQerr f q s) (by decide)

/-! ## FN_JQ_PI (R118) -/

/-- `s` with `v` the producer index of job queue `x`, the doorbell counted and its arrival noted. -/
def ringDoorbell (f q : Nat) (v : Word) (x : JobQueue) (s : State) : State :=
  setJq f q { x with pi := v, bells := x.bells ++ [(v, s.stamp)] }
    { s with stamp := s.stamp + 1, regs := { s.regs with doorbells := satAdd s.regs.doorbells 0xFFFFFFFF } }

theorem exec_fnJqPiWrite {s : State} {f q : Nat} {v : Word} {x : JobQueue} (page : s.pageOpen f = true)
    (queue : s.jq? f q = some x) : exec (.fnJqPiWrite f q v) s = .next
    (if x.st = .draining ∨ v = x.pi then s
    else if (x.pi - x.ci).toNat ≤ (v - x.ci).toNat ∧ (v - x.ci).toNat ≤ 2 ^ x.log2 then ringDoorbell f q v x s
    else refuseIndex f q v false s) := by
  change execFnJqPiWrite f q v s = _
  simp only [execFnJqPiWrite, page, queue, if_true]
  rfl

/-- Settles O8: an accepted doorbell replaces its own queue, and a refused one is `refuseIndex`. -/
theorem doorbellAcceptance : Obligations.DoorbellAcceptance := by
  unfold Obligations.DoorbellAcceptance
  refine ⟨fun s f q v x page queue hq active moves => ?_, fun s f q v x page queue idle => ?_⟩
  · have hexec := exec_fnJqPiWrite (v := v) page queue
    rw [if_neg (not_or.mpr ⟨active, moves⟩)] at hexec
    split
    · next accepted =>
      rw [if_pos accepted] at hexec
      refine ⟨_, hexec, ?_, ?_, rfl, rfl, rfl, fun k c => cq_setJq _ _ _ k c _, fun k p h => jq_setJq_ne _ _ h⟩
      · simp [ringDoorbell]
      · simp [ringDoorbell]
    · next refused =>
      rw [if_neg refused] at hexec
      have quiet := quiet_refuseIndex f q v false s
      exact ⟨_, hexec, (jq_refuseIndex ..).trans queue, quiet.jobs, quiet.mem, quiet.store,
        cq_refuseIndex f q v false s, jq_refuseIndex f q v false s, refusalRecorded_refuseIndex v false s hq,
        qerrSet_refuseIndex v false s hq⟩
  · rw [exec_fnJqPiWrite page queue, if_pos idle]

/-! ## FN_CQ_CI (R119) -/

theorem exec_fnCqCiWrite {s : State} {f q : Nat} {v : Word} {x : CompQueue} (page : s.pageOpen f = true)
    (queue : s.cq? f q = some x) : exec (.fnCqCiWrite f q v) s = .next
    (if (v - x.ci).toNat ≤ (x.pi - x.ci).toNat then settle s (disableStep f (setCq f q { x with ci := v } s))
    else refuseIndex f q v true s) := by
  change execFnCqCiWrite f q v s = _
  simp only [execFnCqCiWrite, page, queue, if_true]
  split <;> rfl

/-- Without a disable of the admin pair under way there is none to go on. -/
theorem disableStep_of_not_busy {f : Nat} {s : State} (h : (s.fn f).aqBusy = false) : disableStep f s = s := by
  simp [disableStep, h]

theorem aqBusy_setCq (f c : Nat) (x : CompQueue) (s : State) : ((setCq f c x s).fn f).aqBusy = (s.fn f).aqBusy := by
  simp [setCq]

/-- Settles O9: an accepted index replaces its own queue and lets a waiting disable go on, and a refused one is
`refuseIndex`. -/
theorem consumerIndexAcceptance : Obligations.ConsumerIndexAcceptance := by
  unfold Obligations.ConsumerIndexAcceptance
  intro s f q v x page queue hq
  have hexec := exec_fnCqCiWrite (v := v) page queue
  split
  · next accepted =>
    rw [if_pos accepted] at hexec
    have quiet := quiet_settle s (disableStep f (setCq f q { x with ci := v } s))
    refine ⟨⟨_, hexec, quiet⟩, fun idle => ⟨_, hexec, ?_⟩⟩
    rw [disableStep_of_not_busy ((aqBusy_setCq ..).trans idle)] at quiet ⊢
    refine ⟨?_, quiet.jobs, quiet.mem, fun k p => ?_, fun k c h => ?_⟩
    · rw [quiet.cq?, cq_setCq_self]
    · rw [quiet.jq?, jq_setCq]
    · rw [quiet.cq?, cq_setCq_ne _ _ h]
  · next refused =>
    rw [if_neg refused] at hexec
    have quiet := quiet_refuseIndex f q v true s
    exact ⟨_, hexec, (cq_refuseIndex ..).trans queue, quiet.jobs, quiet.mem, jq_refuseIndex f q v true s,
      cq_refuseIndex f q v true s, refusalRecorded_refuseIndex v true s hq, event_refuseIndex_cq f q v s,
      qerrSet_refuseIndex v true s hq⟩

end Sys2Proof.Safety
end

section
/-!
PROOFS. The lock of the gate rules (chapter 12, R371). Every function of the model that changes the state has a frame rule
of its own: it leaves `gates`, the lock with the rule words and the page owner entries, outright or, where it could write
them, while RULES_LOCK is 1. The rules stand in the order of the model's files, and `exec` is assembled from them.
-/

namespace Sys2Proof.Safety

open Sys2Proof.Machine

/-! ## The gate rules of a state, and what keeps them -/

/-- What RULES_LOCK guards, with the lock itself (R363, R366, R371). -/
structure Gates where
  lock : Bool
  rules : FMap Nat
  owners : FMap Nat

/-- The gate rules a set of block registers holds. -/
def gates (r : Regs) : Gates := ⟨r.rulesLock, r.rules, r.owners⟩

/-- A change of other registers is a literal of `Regs` once its update is unfolded. -/
@[simp] theorem gates_mk (err errEn serving fetchEn dispatchEn dsrcPend dsrcEn dsrcVec dsrcIrq doorbells fences tgAddr tgInfo
    rulesLock rules owners pwReq pwKeep pwGrant mpRx mpTx) :
    gates ⟨err, errEn, serving, fetchEn, dispatchEn, dsrcPend, dsrcEn, dsrcVec, dsrcIrq, doorbells, fences, tgAddr, tgInfo,
      rulesLock, rules, owners, pwReq, pwKeep, pwGrant, mpRx, mpTx⟩ = ⟨rulesLock, rules, owners⟩ := rfl

@[simp] theorem gates_eta (r : Regs) : Gates.mk r.rulesLock r.rules r.owners = gates r := rfl

@[simp] theorem gates_ite (c : Prop) [Decidable c] (a b : State) :
    gates (if c then a else b).regs = if c then gates a.regs else gates b.regs :=
  apply_ite (fun s : State => gates s.regs) c a b

@[simp] theorem gates_foldl {α : Type} {f : State → α → State} (h : ∀ s a, gates (f s a).regs = gates s.regs) (l : List α)
    (s : State) : gates (l.foldl f s).regs = gates s.regs := by
  induction l generalizing s with
  | nil => rfl
  | cons a l ih => exact (ih _).trans (h s a)

/-- The next state, if there is one, has the gate rules of `s`. -/
def KeepsGates (s : State) (o : Outcome State) : Prop := ∀ t, o = .next t → gates t.regs = gates s.regs

@[simp] theorem keepsGates_next (s t : State) : KeepsGates s (.next t) ↔ gates t.regs = gates s.regs :=
  ⟨fun h => h t rfl, fun h _ e => by cases e; exact h⟩

theorem KeepsGates.trans {s t : State} {o : Outcome State} (h : KeepsGates t o) (ht : gates t.regs = gates s.regs) :
    KeepsGates s o := fun u e => (h u e).trans ht

@[simp] theorem keepsGates_ite (s : State) (c : Prop) [Decidable c] (a b : Outcome State) :
    KeepsGates s (if c then a else b) ↔ if c then KeepsGates s a else KeepsGates s b := by split <;> rfl

/-- Whether firmware has what it draws or waits for it, the state left has the gate rules of `s`. -/
def DrawKeeps {β : Type} (s : State) (left : β → State) : Except State β → Prop
  | .ok b => gates (left b).regs = gates s.regs
  | .error t => gates t.regs = gates s.regs

@[simp] theorem drawKeeps_ok {β : Type} (s : State) (left : β → State) (b : β) :
    DrawKeeps s left (.ok b) ↔ gates (left b).regs = gates s.regs := Iff.rfl

@[simp] theorem drawKeeps_error {β : Type} (s t : State) (left : β → State) :
    DrawKeeps s left (.error t) ↔ gates t.regs = gates s.regs := Iff.rfl

@[simp] theorem drawKeeps_ite {β : Type} (s : State) (left : β → State) (c : Prop) [Decidable c] (a b : Except State β) :
    DrawKeeps s left (if c then a else b) ↔ if c then DrawKeeps s left a else DrawKeeps s left b := by split <;> rfl

/-- The two branches of a test whose condition need not be looked at. -/
theorem DrawKeeps.ite {β : Type} {s : State} {left : β → State} {c : Prop} [Decidable c] {a b : Except State β}
    (ha : DrawKeeps s left a) (hb : DrawKeeps s left b) : DrawKeeps s left (if c then a else b) := by
  split
  · exact ha
  · exact hb

theorem DrawKeeps.trans {β : Type} {s t : State} {left : β → State} {d : Except State β} (h : DrawKeeps t left d)
    (ht : gates t.regs = gates s.regs) : DrawKeeps s left d := by
  cases d <;> exact Eq.trans h ht

/-- A draw and then what goes on from the state it left. -/
@[simp] theorem DrawKeeps.go {α β : Type} {s : State} {left : β → State} {d : Drawn α} {h : α → State → Except State β}
    (hd : DrawKeeps s Prod.snd d) (hh : ∀ a t, DrawKeeps t left (h a t)) : DrawKeeps s left (d.go h) := by
  unfold Drawn.go
  split
  · next a t => exact (hh a t).trans hd
  · exact hd

/-! ## Records, error bits, events and interrupts (Machine/Ops.lean) -/

@[simp] theorem gates_persist (set : Nat) (s : State) : gates (persist set s).regs = gates s.regs := by simp [persist]

@[simp] theorem gates_refuseAccess (s : State) : gates (refuseAccess s).regs = gates s.regs := by simp [refuseAccess]

@[simp] theorem gates_mergeDirty (f : Nat) (s : State) : gates (mergeDirty f s).regs = gates s.regs := by
  unfold mergeDirty
  split <;> simp

@[simp] theorem gates_logWrite (f a n : Nat) (s : State) : gates (logWrite f a n s).regs = gates s.regs := by
  unfold logWrite
  split <;> simp

@[simp] theorem gates_hostWrite (f a : Nat) (b : Bytes) (s : State) : gates (hostWrite f a b s).regs = gates s.regs := by
  simp [hostWrite]

@[simp] theorem gates_rollWindow (s : State) : gates (rollWindow s).regs = gates s.regs := by simp [rollWindow]

@[simp] theorem gates_acceptRecord (e : EventRec) (s0 : State) : gates (acceptRecord e s0).regs = gates s0.regs := by
  simp [acceptRecord]

@[simp] theorem gates_aerUncor (f b : Nat) (s : State) : gates (aerUncor f b s).regs = gates s.regs := by simp [aerUncor]

@[simp] theorem gates_aerCor (f b : Nat) (s : State) : gates (aerCor f b s).regs = gates s.regs := by simp [aerCor]

@[simp] theorem gates_aerOfLevel (level : Nat) (s : State) : gates (aerOfLevel level s).regs = gates s.regs := by
  simp [aerOfLevel]

@[simp] theorem gates_record (code level p0 p1 p2 p3 : Nat) (nested : Bool) (s : State) :
    gates (record code level p0 p1 p2 p3 nested s).regs = gates s.regs := by simp [record]

@[simp] theorem gates_escalate (s : State) : gates (escalate s).regs = gates s.regs := by simp [escalate]

@[simp] theorem gates_evalVec (f v : Nat) (s : State) : gates (evalVec f v s).regs = gates s.regs := by simp [evalVec]

@[simp] theorem gates_evalVecs (f : Nat) (s : State) : gates (evalVecs f s).regs = gates s.regs := by simp [evalVecs]

@[simp] theorem gates_vecEvent (f v : Nat) (irqNow : Bool) (s : State) :
    gates (vecEvent f v irqNow s).regs = gates s.regs := by simp [vecEvent]

@[simp] theorem gates_signalDevice (s : State) : gates (signalDevice s).regs = gates s.regs := by simp [signalDevice]

@[simp] theorem gates_raiseSource (n : Nat) (s : State) : gates (raiseSource n s).regs = gates s.regs := by
  simp [raiseSource]

@[simp] theorem gates_setErr (c n : Nat) (s : State) : gates (setErr c n s).regs = gates s.regs := by simp [setErr]

@[simp] theorem gates_setEvent (f n : Nat) (s : State) : gates (setEvent f n s).regs = gates s.regs := by simp [setEvent]

@[simp] theorem gates_setQerr (f q : Nat) (s : State) : gates (setQerr f q s).regs = gates s.regs := by simp [setQerr]

@[simp] theorem gates_eachFn (h : Nat → State → State) (hk : ∀ f s, gates (h f s).regs = gates s.regs) (s : State) :
    gates (eachFn h s).regs = gates s.regs := gates_foldl (fun s f => hk f s) _ s

@[simp] theorem gates_noteConditions (s : State) : gates (noteConditions s).regs = gates s.regs := by
  simp [noteConditions]

@[simp] theorem gates_settle (old s : State) : gates (settle old s).regs = gates s.regs := by
  unfold settle
  split <;> simp

@[simp] theorem keepsGates_settled (s old t : State) : KeepsGates s (settled old t) ↔ gates t.regs = gates s.regs := by
  simp [settled]

/-! ## Jobs and completion records (Machine/Jobs.lean) -/

@[simp] theorem gates_writeMirror (f c : Nat) (s : State) : gates (writeMirror f c s).regs = gates s.regs := by
  unfold writeMirror
  split <;> simp

@[simp] theorem gates_issueRecord (f c : Nat) (b : Bytes) (reserved irqNow : Bool) (s : State) :
    gates (issueRecord f c b reserved irqNow s).regs = gates s.regs := by
  unfold issueRecord
  split <;> simp

@[simp] theorem gates_finishEntry (f q : Nat) (i : Word) (s : State) :
    gates (finishEntry f q i s).regs = gates s.regs := by
  unfold finishEntry
  split <;> simp

@[simp] theorem gates_returnRole (p : Nat) (s : State) : gates (returnRole p s).regs = gates s.regs := by
  unfold returnRole
  dsimp only
  split <;> simp

@[simp] theorem gates_leavePair (r : JobRef) (s : State) : gates (leavePair r s).regs = gates s.regs := by
  unfold leavePair
  split <;> simp

@[simp] theorem gates_releaseHold (j : Job) (s : State) : gates (releaseHold j s).regs = gates s.regs := by
  simp [releaseHold]

@[simp] theorem gates_leavePk (r : JobRef) (s : State) : gates (leavePk r s).regs = gates s.regs := by simp [leavePk]

@[simp] theorem gates_freeRetiring (n gen : Nat) (s : State) : gates (freeRetiring n gen s).regs = gates s.regs := by
  unfold freeRetiring
  split <;> simp

@[simp] theorem gates_flushMirrors (f : Nat) (s : State) : gates (flushMirrors f s).regs = gates s.regs := by
  simp [flushMirrors]

@[simp] theorem gates_enterD3 (f : Nat) (s : State) : gates (enterD3 f s).regs = gates s.regs := by simp [enterD3]

@[simp] theorem gates_disturb (j : Job) (s : State) : gates (disturb j s).regs = gates s.regs := by simp [disturb]

@[simp] theorem gates_scrub (j : Job) (s : State) : gates (scrub j s).regs = gates s.regs := by simp [scrub]

@[simp] theorem gates_squash (j : Job) (s : State) : gates (squash j s).regs = gates s.regs := by simp [squash]

@[simp] theorem gates_dropOne (j : Job) (s : State) : gates (dropOne j s).regs = gates s.regs := by simp [dropOne]

@[simp] theorem gates_closeCall (r : JobRef) (s : State) : gates (closeCall r s).regs = gates s.regs := by
  unfold closeCall
  split
  · simp
  · dsimp only
    split <;> simp

@[simp] theorem gates_dropJob (j : Job) (s : State) : gates (dropJob j s).regs = gates s.regs := by simp [dropJob]

@[simp] theorem gates_returnRecord (j : Job) (d : Done) (s : State) : gates (returnRecord j d s).regs = gates s.regs := by
  unfold returnRecord
  split <;> simp

@[simp] theorem gates_completeJob (j : Job) (d : Done) (s : State) : gates (completeJob j d s).regs = gates s.regs := by
  simp [completeJob]

@[simp] theorem gates_suppress (j : Job) (d : Done) (silent : Bool) (s : State) :
    gates (suppress j d silent s).regs = gates s.regs := by simp [suppress]

@[simp] theorem gates_awaitReads (j : Job) (d : Done) (s : State) : gates (awaitReads j d s).regs = gates s.regs := by
  simp [awaitReads]

@[simp] theorem gates_endJob (j : Job) (d : Done) (atOnce : Bool) (s : State) :
    gates (endJob j d atOnce s).regs = gates s.regs := by simp [endJob]

@[simp] theorem gates_readsSettled (j : Job) (s : State) : gates (readsSettled j s).regs = gates s.regs := by
  simp [readsSettled]

@[simp] theorem gates_endJobs (p : Job → Bool) (d : Job → Done) (atOnce : Bool) (s : State) :
    gates (endJobs p d atOnce s).regs = gates s.regs :=
  gates_foldl (fun s j => by split <;> simp) _ s

@[simp] theorem gates_releaseEntry (j : Job) (s : State) : gates (releaseEntry j s).regs = gates s.regs := by
  unfold releaseEntry
  dsimp only
  split <;> simp

@[simp] theorem gates_releaseRunAhead (f : Nat) (s : State) : gates (releaseRunAhead f s).regs = gates s.regs := by
  simp [releaseRunAhead]

/-! ## Frames and sessions of the management port (Machine/Frames.lean) -/

@[simp] theorem gates_sendFrames (r : SessPath) (fs : List Bytes) (s : State) :
    gates (sendFrames r fs s).regs = gates s.regs := by
  unfold sendFrames
  split
  · rw [gates_ite]
    split
    · exact gates_foldl (fun s f => by simp) fs s
    · rfl
  · simp

@[simp] theorem gates_modSession (id : Nat) (h : Session → Session) (s : State) :
    gates (modSession id h s).regs = gates s.regs := by simp [modSession]

@[simp] theorem gates_endSession (x : Session) (how : Nat) (s : State) :
    gates (endSession x how s).regs = gates s.regs := by simp [endSession]

@[simp] theorem gates_endSessions (p : Session → Bool) (s : State) : gates (endSessions p s).regs = gates s.regs := by
  simp [endSessions]

@[simp] theorem gates_flushSession (id : Nat) (l : List Reply) (s : State) :
    gates (flushSession id l s).regs = gates s.regs := by
  induction l generalizing s with
  | nil => rfl
  | cons m r ih =>
    unfold flushSession
    split
    · rfl
    · simp [ih]

@[simp] theorem gates_sendReply (id : Nat) (m : Reply) (s : State) : gates (sendReply id m s).regs = gates s.regs := by
  unfold sendReply
  split <;> simp

@[simp] theorem gates_respond (id : Nat) (d : Done) (out : Bytes) (s : State) :
    gates (respond id d out s).regs = gates s.regs := by
  unfold respond
  split
  · simp
  · split <;> simp

@[simp] theorem gates_drainWaiting (ch : Nat) (s : State) : gates (drainWaiting ch s).regs = gates s.regs :=
  gates_foldl (fun s x => by simp) _ s

@[simp] theorem gates_sendError (r : SessPath) (code session : Nat) (s : State) :
    gates (sendError r code session s).regs = gates s.regs := by simp [sendError]

/-! ## Queues and the admin queue (Machine/Queues.lean) -/

@[simp] theorem gates_refuseIndex (f q : Nat) (v : Word) (isCq : Bool) (s : State) :
    gates (refuseIndex f q v isCq s).regs = gates s.regs := by simp [refuseIndex]

@[simp] theorem keepsGates_execFnJqPiWrite (f q : Nat) (v : Word) (s : State) :
    KeepsGates s (execFnJqPiWrite f q v s) := by
  unfold execFnJqPiWrite
  split
  · split <;> simp
  · simp

@[simp] theorem gates_passSlots (f q : Nat) (i : Word) (n : Nat) (s : State) :
    gates (passSlots f q i n s).regs = gates s.regs := by
  unfold passSlots
  split <;> simp

@[simp] theorem gates_passEntry (f q : Nat) (x : JobQueue) (n : Nat) (s : State) :
    gates (passEntry f q x n s).regs = gates s.regs := by simp [passEntry]

@[simp] theorem gates_takeEntry (f q : Nat) (x : JobQueue) (s : State) :
    gates (takeEntry f q x s).regs = gates s.regs := by
  unfold takeEntry
  split
  · dsimp only
    split
    · simp
    · split <;> simp
  · dsimp only
    split
    · simp
    · split <;> simp

@[simp] theorem gates_fetchFrom (f q : Nat) (s : State) : gates (fetchFrom f q s).regs = gates s.regs := by
  unfold fetchFrom
  split <;> simp

@[simp] theorem keepsGates_execEntryFetch (s : State) : KeepsGates s (execEntryFetch s) := by
  unfold execEntryFetch
  split
  · simp
  · split
    · simp
    · split
      · split <;> simp
      · simp

@[simp] theorem keepsGates_execPad (f q : Nat) (s : State) : KeepsGates s (execPad f q s) := by
  unfold execPad
  split <;> simp

@[simp] theorem keepsGates_execNop (r : JobRef) (s : State) : KeepsGates s (execNop r s) := by
  unfold execNop
  split <;> simp

@[simp] theorem keepsGates_execCommitRefusal (r : JobRef) (s : State) : KeepsGates s (execCommitRefusal r s) := by
  unfold execCommitRefusal
  split
  · simp
  · split
    · split <;> simp
    · split
      · split <;> simp
      · simp

@[simp] theorem gates_txMismatches (n : Nat) (s : State) : gates (txMismatches n s).regs = gates s.regs := by
  simp [txMismatches]

@[simp] theorem keepsGates_transmits (n : Nat) (s : State) (h : State → Outcome State)
    (hk : KeepsGates (txMismatches n s) (h (txMismatches n s))) : KeepsGates s (transmits n s h) := by
  unfold transmits
  split
  · simp
  · exact fun t e => (hk t e).trans (gates_txMismatches n s)

@[simp] theorem keepsGates_execJobCompletion (r : JobRef) (more : Bool) (resent : Nat) (s : State) :
    KeepsGates s (execJobCompletion r more resent s) := by
  unfold execJobCompletion
  split
  · simp
  · split <;> simp

@[simp] theorem keepsGates_execMirrorWrite (f q resent : Nat) (s : State) :
    KeepsGates s (execMirrorWrite f q resent s) := by
  unfold execMirrorWrite
  split <;> simp

@[simp] theorem keepsGates_execModerationTimer (f v : Nat) (s : State) : KeepsGates s (execModerationTimer f v s) := by
  simp [execModerationTimer]

@[simp] theorem gates_abandonCeremony (r : JobRef) (s : State) : gates (abandonCeremony r s).regs = gates s.regs := by
  unfold abandonCeremony
  split <;> simp

@[simp] theorem gates_abandonAdmin (j : Job) (s : State) : gates (abandonAdmin j s).regs = gates s.regs := by
  simp [abandonAdmin]

@[simp] theorem keepsGates_execJobTimeout (r : JobRef) (s : State) : KeepsGates s (execJobTimeout r s) := by
  unfold execJobTimeout
  split <;> simp

@[simp] theorem keepsGates_runAdmin {f op : Nat} {body : Job → State → Done × State}
    {s : State} (h : ∀ j, gates (body j s).2.regs = gates s.regs) : KeepsGates s (runAdmin f op body s) := by
  unfold runAdmin
  split <;> simp [h]

@[simp] theorem gates_startReads (r : JobRef) (s : State) : gates (startReads r s).regs = gates s.regs := by
  simp [startReads]

@[simp] theorem gates_afterReads {h : State → Option Done × State} (j : Job) (s : State)
    (hk : gates (h s).2.regs = gates s.regs) : gates (afterReads j s h).2.regs = gates s.regs := by
  unfold afterReads
  split
  · exact hk
  · split <;> simp

@[simp] theorem keepsGates_runAdminSteps {f op : Nat} {body : Job → State → Option Done × State}
    {s : State} (h : ∀ j, gates (body j s).2.regs = gates s.regs) : KeepsGates s (runAdminSteps f op body s) := by
  unfold runAdminSteps
  split
  · simp
  · next j _ =>
    have hb := h j
    split <;> simp_all

@[simp] theorem gates_checked {effect : State → State} (h : ∀ s, gates (effect s).regs = gates s.regs) (rows : List (Bool × Done))
    (ok : Done) (s : State) : gates (checked rows effect ok s).2.regs = gates s.regs := by
  unfold checked
  split <;> simp [h]

@[simp] theorem keepsGates_execCreateJq (f : Nat) (s : State) : KeepsGates s (execCreateJq f s) := by
  unfold execCreateJq
  refine keepsGates_runAdmin fun j => ?_
  rw [gates_checked]
  exact fun _ => rfl

@[simp] theorem keepsGates_execCreateCq (f : Nat) (s : State) : KeepsGates s (execCreateCq f s) := by
  unfold execCreateCq
  refine keepsGates_runAdmin fun j => ?_
  rw [gates_checked]
  exact fun _ => rfl

@[simp] theorem keepsGates_execDestroyCq (f : Nat) (s : State) : KeepsGates s (execDestroyCq f s) := by
  unfold execDestroyCq
  refine keepsGates_runAdmin fun j => ?_
  rw [gates_checked]
  exact fun _ => rfl

@[simp] theorem gates_drainJob (cause : Nat) (j : Job) (s : State) : gates (drainJob cause j s).regs = gates s.regs := by
  simp [drainJob]

@[simp] theorem gates_drainStart (f q cause : Nat) (s : State) : gates (drainStart f q cause s).regs = gates s.regs := by
  unfold drainStart
  split
  · rfl
  · exact gates_foldl (fun s j => by split <;> simp) _ _

@[simp] theorem gates_drainAt (f q cause : Nat) (i : Word) (s : State) :
    gates (drainAt f q cause i s).2.2.regs = gates s.regs := by
  unfold drainAt
  split
  · simp
  · split
    · split
      · simp
      · split
        · simp
        · split
          · simp
          · split <;> simp
    · split
      · simp
      · split
        · simp
        · split
          · dsimp only
            split <;> simp
          · dsimp only
            split <;> simp

@[simp] theorem gates_drainWalk (f q cause : Nat) (n : Nat) (i : Word) (lost : Bool) (s : State) :
    gates (drainWalk f q cause n i lost s).2.2.regs = gates s.regs := by
  induction n generalizing i lost s with
  | zero => rfl
  | succ n ih =>
    have h := gates_drainAt f q cause i s
    unfold drainWalk
    split
    · rfl
    · split
      · rfl
      · split
        · simp_all
        · next e => rw [e] at h; exact (ih ..).trans h

@[simp] theorem gates_drainRun (f q cause : Nat) (remove : Bool) (s : State) :
    gates (drainRun f q cause remove s).2.2.regs = gates s.regs := by
  unfold drainRun
  split
  · simp
  · split
    · dsimp only
      split <;> simp
    · dsimp only
      split
      · split <;> simp
      · simp

@[simp] theorem gates_drainCommand (f cause : Nat) (remove : Bool) (j : Job) (s : State) :
    gates (drainCommand f cause remove j s).2.regs = gates s.regs := by
  unfold drainCommand
  split
  · split
    · simp
    · dsimp only
      split
      · simp
      · split <;> simp
  · dsimp only
    split <;> simp

@[simp] theorem keepsGates_execDestroyJq (f : Nat) (s : State) : KeepsGates s (execDestroyJq f s) := by
  simp [execDestroyJq]

@[simp] theorem keepsGates_execResetJq (f : Nat) (s : State) : KeepsGates s (execResetJq f s) := by simp [execResetJq]

@[simp] theorem keepsGates_execAdminQueueEnable (f : Nat) (v : Word) (s : State) :
    KeepsGates s (execAdminQueueEnable f v s) := by simp [execAdminQueueEnable]

@[simp] theorem gates_drainList (f : Nat) (l : List Nat) (s : State) : gates (drainList f l s).2.regs = gates s.regs := by
  induction l generalizing s with
  | nil => rfl
  | cons q r ih =>
    simp only [drainList]
    split <;> simp [ih]

@[simp] theorem gates_drainBegin (f : Nat) (l : List Nat) (s : State) : gates (drainBegin f l s).regs = gates s.regs := by
  simp [drainBegin]

@[simp] theorem gates_disableRun (f : Nat) (s : State) : gates (disableRun f s).regs = gates s.regs := by
  simp [disableRun]

@[simp] theorem gates_disableStep (f : Nat) (s : State) : gates (disableStep f s).regs = gates s.regs := by
  simp [disableStep]

@[simp] theorem keepsGates_settledOn (f : Nat) (s old t : State) : KeepsGates s (settledOn f old t) ↔ gates t.regs = gates s.regs := by
  simp [settledOn]

@[simp] theorem keepsGates_execFnCqCiWrite (f q : Nat) (v : Word) (s : State) :
    KeepsGates s (execFnCqCiWrite f q v s) := by
  unfold execFnCqCiWrite
  split
  · split <;> simp
  · simp

@[simp] theorem keepsGates_execAdminQueueDisable (f : Nat) (v : Word) (s : State) :
    KeepsGates s (execAdminQueueDisable f v s) := by simp [execAdminQueueDisable]

@[simp] theorem gates_aerRead (f b : Nat) (s : State) : gates (aerRead f b s).regs = gates s.regs := by simp [aerRead]

@[simp] theorem gates_failRead (j : Job) (detail aer : Nat) (s : State) :
    gates (failRead j detail aer s).regs = gates s.regs := by simp [failRead]

@[simp] theorem gates_failRing (f q aer : Nat) (s : State) : gates (failRing f q aer s).regs = gates s.regs := by
  unfold failRing
  split <;> simp

@[simp] theorem gates_endReading (k : JobRef) (aer : Option Nat) (s : State) :
    gates (endReading k aer s).regs = gates s.regs := by
  unfold endReading
  split
  · split <;> simp
  · simp

@[simp] theorem gates_readsArrive (j : Job) (s : State) : gates (readsArrive j s).regs = gates s.regs := by
  simp [readsArrive]

@[simp] theorem gates_readEnds (j : Job) (fault : Option (Nat × Nat)) (s : State) :
    gates (readEnds j fault s).regs = gates s.regs := by
  unfold readEnds
  split
  · split <;> simp
  · split <;> simp

@[simp] theorem keepsGates_execDmaReadCompletion (t : ReadTarget) (r : ReadStatus) (s : State) :
    KeepsGates s (execDmaReadCompletion t r s) := by
  unfold execDmaReadCompletion
  split
  · split <;> simp
  · split <;> simp

@[simp] theorem keepsGates_execCompletionTimeout (t : ReadTarget) (s : State) :
    KeepsGates s (execCompletionTimeout t s) := by
  unfold execCompletionTimeout
  split
  · simp
  · split
    · split <;> simp
    · simp

/-! ## Key slots (Machine/Slots.lean) -/

@[simp] theorem gates_passBlocks (g blocks : Nat) (s : State) : gates (passBlocks g blocks s).regs = gates s.regs := by
  simp [passBlocks]

@[simp] theorem gates_drawMask (g n : Nat) (s : State) : gates (drawMask g n s).2.regs = gates s.regs := by
  simp [drawMask]

@[simp] theorem gates_maskKey (g : Nat) (k : Bytes) (s : State) : gates (maskKey g k s).2.regs = gates s.regs := by
  simp [maskKey]

@[simp] theorem gates_remask (g : Nat) (k : Masked) (s : State) : gates (remask g k s).2.regs = gates s.regs := by
  simp [remask]

@[simp] theorem gates_markBad (n : Nat) (s : State) : gates (markBad n s).regs = gates s.regs := by simp [markBad]

@[simp] theorem gates_chargeUsage (n : Nat) (s : State) : gates (chargeUsage n s).regs = gates s.regs := by
  simp [chargeUsage]

@[simp] theorem gates_startCheckpoint (e : Bytes) (s : State) : gates (startCheckpoint e s).regs = gates s.regs := by
  unfold startCheckpoint
  split <;> simp

@[simp] theorem gates_loadKeys (ga gb : Nat) (j : Job) (s : State) :
    gates (loadKeys ga gb j s).2.regs = gates s.regs := by simp [loadKeys]

@[simp] theorem gates_freshCopies (c : SlotCopy) (ka kb : Bytes) (s : State) :
    gates (freshCopies c ka kb s).2.regs = gates s.regs := by simp [freshCopies]

@[simp] theorem gates_movedCopies (h : SlotCopy → SlotCopy) (x : Slot) (s : State) :
    gates (movedCopies h x s).2.regs = gates s.regs := by simp [movedCopies]

theorem gates_of_placeKey {n : Nat} {c : SlotCopy × SlotCopy} {point : Nat} {s t : State} (h : placeKey n c point s = some t) :
    gates t.regs = gates s.regs := by
  obtain ⟨b, -, rfl⟩ := Option.map_eq_some_iff.mp h
  rfl

@[simp] theorem gates_blobsDiffer (l : List Nat) (s : State) : gates (blobsDiffer l s).2.regs = gates s.regs := by
  simp [blobsDiffer]

@[simp] theorem gates_putReserved (n : Nat) (ka kb : Bytes) (s : State) :
    gates (putReserved n ka kb s).regs = gates s.regs := by simp [putReserved]

@[simp] theorem gates_putAttest (s : State) : gates (putAttest s).regs = gates s.regs := by simp [putAttest]

@[simp] theorem gates_putDomain (dka dkb id : Bytes) (s : State) :
    gates (putDomain dka dkb id s).regs = gates s.regs := by simp [putDomain]

@[simp] theorem gates_reloadSlot (n : Nat) (okA okB : Bool) (s : State) :
    gates (reloadSlot n okA okB s).2.regs = gates s.regs := by
  unfold reloadSlot
  split
  · split <;> simp
  · simp

@[simp] theorem gates_eraseAllSets (s : State) : gates (eraseAllSets s).regs = gates s.regs := by simp [eraseAllSets]

/-! ## Pairs and ciphers (Machine/Fabric.lean) -/

@[simp] theorem gates_chargeCredits (s : State) (p : Nat) (j : Job) :
    gates (chargeCredits s p j).regs = gates s.regs := by simp [chargeCredits]

@[simp] theorem gates_noteTurn (j : Job) (step : Nat) (s : State) : gates (noteTurn j step s).regs = gates s.regs := by
  simp [noteTurn]

@[simp] theorem gates_firstCommit (p : Nat) (j : Job) (s : State) : gates (firstCommit p j s).2.regs = gates s.regs := by
  unfold firstCommit
  split <;> simp

@[simp] theorem gates_halfRefuses (j : Job) (s : State) : gates (halfRefuses j s).regs = gates s.regs := by
  unfold halfRefuses
  split <;> simp

@[simp] theorem gates_intakeDiffers (j : Job) (s : State) : gates (intakeDiffers j s).regs = gates s.regs := by
  simp [intakeDiffers]

@[simp] theorem gates_placeOnPair (p : Nat) (j : Job) (step : Nat) (intakeOk : Bool) (s : State) :
    gates (placeOnPair p j step intakeOk s).regs = gates s.regs := by
  unfold placeOnPair
  split <;> simp

@[simp] theorem gates_noteLeaseWait (s : State) (j : Job) : gates (noteLeaseWait s j).regs = gates s.regs := by
  simp [noteLeaseWait]

@[simp] theorem gates_noteLeaseWaits (s : State) : gates (noteLeaseWaits s).regs = gates s.regs := by
  simp [noteLeaseWaits]

@[simp] theorem gates_dispatchPair (p : Nat) (intakeOk : Bool) (s : State) :
    gates (dispatchPair p intakeOk s).regs = gates s.regs := by
  unfold dispatchPair
  split
  · split <;> simp
  · simp

@[simp] theorem gates_leaveTrace (j : Job) (s : State) : gates (leaveTrace j s).2.regs = gates s.regs := by
  unfold leaveTrace
  split
  · split
    · dsimp only
      split <;> simp
    · simp
  · simp

@[simp] theorem gates_withdraw (j : Job) (s : State) : gates (withdraw j s).regs = gates s.regs := by simp [withdraw]

@[simp] theorem gates_changeRole (p : Nat) (old new : PairState) (s : State) :
    gates (changeRole p old new s).regs = gates s.regs := by simp [changeRole]

@[simp] theorem gates_standIn (p : Nat) (role : PairState) (s : State) :
    gates (standIn p role s).regs = gates s.regs := by
  unfold standIn
  split <;> simp

@[simp] theorem gates_countCause (cause : Nat) (s : State) : gates (countCause cause s).regs = gates s.regs := by
  simp [countCause]

@[simp] theorem gates_fencePair (p cause : Nat) (s : State) : gates (fencePair p cause s).regs = gates s.regs := by
  simp [fencePair]

@[simp] theorem keepsGates_execPairFault (p cause : Nat) (s : State) : KeepsGates s (execPairFault p cause s) := by
  simp [execPairFault]

@[simp] theorem gates_endStandIn (p : Nat) (keeps : Bool) (s : State) :
    gates (endStandIn p keeps s).regs = gates s.regs := by
  unfold endStandIn
  split <;> simp

@[simp] theorem keepsGates_execPairKatVerdict (p : Nat) (a b : Bool) (s : State) :
    KeepsGates s (execPairKatVerdict p a b s) := by simp [execPairKatVerdict]

@[simp] theorem keepsGates_execSpareKat (a b : Bool) (s : State) : KeepsGates s (execSpareKat a b s) := by
  unfold execSpareKat
  split <;> simp

@[simp] theorem keepsGates_execJobRetry (r : JobRef) (s : State) : KeepsGates s (execJobRetry r s) := by
  unfold execJobRetry
  split
  · simp
  · split
    · split
      · simp
      · split <;> simp
    · simp

@[simp] theorem gates_serveLanes (p : Nat) (s : State) : gates (serveLanes p s).regs = gates s.regs := by
  simp [serveLanes]

@[simp] theorem keepsGates_runCipher {r : JobRef} {op resent : Nat} {body : Job → State → State}
    (h : ∀ j s, gates (body j s).regs = gates s.regs) (s : State) : KeepsGates s (runCipher r op resent body s) := by
  unfold runCipher
  split
  · simp
  · split <;> simp [h]

@[simp] theorem gates_sealJob (j : Job) (s : State) : gates (sealJob j s).regs = gates s.regs := by simp [sealJob]

@[simp] theorem keepsGates_execSeal (j : JobRef) (resent : Nat) (s : State) : KeepsGates s (execSeal j resent s) := by
  simp [execSeal]

@[simp] theorem gates_endUnseal (j : Job) (d : Done) (n : Nat) (s : State) :
    gates (endUnseal j d n s).regs = gates s.regs := by simp [endUnseal]

@[simp] theorem gates_unsealJob (j : Job) (s : State) : gates (unsealJob j s).regs = gates s.regs := by
  unfold unsealJob
  split
  · dsimp only
    split <;> simp
  · dsimp only
    split <;> simp

@[simp] theorem keepsGates_execUnseal (j : JobRef) (resent : Nat) (s : State) : KeepsGates s (execUnseal j resent s) := by
  simp [execUnseal]

@[simp] theorem gates_checkGenJob (j : Job) (s : State) : gates (checkGenJob j s).regs = gates s.regs := by
  simp [checkGenJob]

@[simp] theorem keepsGates_execCheckGen (j : JobRef) (resent : Nat) (s : State) :
    KeepsGates s (execCheckGen j resent s) := by simp [execCheckGen]

@[simp] theorem gates_checkVerifyJob (j : Job) (s : State) : gates (checkVerifyJob j s).regs = gates s.regs := by
  simp [checkVerifyJob]

@[simp] theorem keepsGates_execCheckVerify (j : JobRef) (s : State) : KeepsGates s (execCheckVerify j s) := by
  simp [execCheckVerify]

@[simp] theorem gates_rawJob (j : Job) (s : State) : gates (rawJob j s).regs = gates s.regs := by simp [rawJob]

@[simp] theorem keepsGates_execRawEncrypt (j : JobRef) (resent : Nat) (s : State) :
    KeepsGates s (execRawEncrypt j resent s) := by simp [execRawEncrypt]

@[simp] theorem keepsGates_execRawDecrypt (j : JobRef) (resent : Nat) (s : State) :
    KeepsGates s (execRawDecrypt j resent s) := by simp [execRawDecrypt]

@[simp] theorem keepsGates_execCreditRescale (s : State) : KeepsGates s (execCreditRescale s) := by
  simp [execCreditRescale]

@[simp] theorem gates_avsOk (s : State) : gates (avsOk s).regs = gates s.regs := by simp [avsOk]

@[simp] theorem gates_avsFail (s : State) : gates (avsFail s).regs = gates s.regs := by simp [avsFail]

@[simp] theorem gates_avsTry (n : Nat) (oks : List Bool) (s : State) : gates (avsTry n oks s).2.regs = gates s.regs := by
  induction n generalizing oks s with
  | zero => rfl
  | succ n ih =>
    unfold avsTry
    split <;> simp [ih]

@[simp] theorem gates_vlimitCheck (s : State) : gates (vlimitCheck s).regs = gates s.regs := by simp [vlimitCheck]

@[simp] theorem gates_avsCommand (v : Nat) (oks : List Bool) (s : State) : gates (avsCommand v oks s).regs = gates s.regs := by
  unfold avsCommand
  dsimp only
  split <;> simp

@[simp] theorem gates_railRead (mv : Nat) (s : State) : gates (railRead mv s).regs = gates s.regs := by simp [railRead]

@[simp] theorem gates_avsAsk (s : State) : gates (avsAsk s).regs = gates s.regs := by simp [avsAsk]

@[simp] theorem keepsGates_execAvsLoop (cycle : Nat) (oks : List Bool) (mv : Nat) (s : State) :
    KeepsGates s (execAvsLoop cycle oks mv s) := by
  unfold execAvsLoop
  split
  · simp
  · split
    · split <;> simp
    · simp

@[simp] theorem keepsGates_execAvsGuard (cycle : Nat) (oks : List Bool) (s : State) :
    KeepsGates s (execAvsGuard cycle oks s) := by simp [execAvsGuard]

@[simp] theorem keepsGates_execMaskGeneratorReseed (g : Nat) (s : State) :
    KeepsGates s (execMaskGeneratorReseed g s) := by simp [execMaskGeneratorReseed]

@[simp] theorem keepsGates_execCheckpointWriteDone (n : Nat) (s : State) :
    KeepsGates s (execCheckpointWriteDone n s) := by
  unfold execCheckpointWriteDone
  split <;> simp

/-! ## Public-key cores (Machine/Pk.lean) -/

@[simp] theorem gates_dispatchPk (s : State) : gates (dispatchPk s).regs = gates s.regs := by
  unfold dispatchPk
  split
  · simp
  · split
    · simp
    · split <;> simp

@[simp] theorem gates_resumeParked (c : Nat) (s : State) : gates (resumeParked c s).regs = gates s.regs := by
  unfold resumeParked
  dsimp only
  split <;> simp

@[simp] theorem gates_present (j : Job) (s : State) : gates (present j s).2.regs = gates s.regs := by simp [present]

@[simp] theorem gates_takeJob (c : Nat) (j : Job) (s : State) : gates (takeJob c j s).regs = gates s.regs := by
  unfold takeJob
  dsimp only
  split
  · simp
  · split <;> simp

@[simp] theorem keepsGates_execPkJobStart (core : Nat) (s : State) : KeepsGates s (execPkJobStart core s) := by
  unfold execPkJobStart
  split <;> simp

@[simp] theorem gates_drawAgain (j : Job) (s : State) : gates (drawAgain j s).regs = gates s.regs := by simp [drawAgain]

@[simp] theorem keepsGates_compute (r : JobRef) (op : Nat) (body : Job → State → Option PkResult) (s : State) :
    KeepsGates s (compute r op body s) := by
  unfold compute
  split
  · simp
  · split <;> simp

@[simp] theorem keepsGates_execPkSign (j : JobRef) (s : State) : KeepsGates s (execPkSign j s) := by simp [execPkSign]

@[simp] theorem keepsGates_execPkVerify (j : JobRef) (s : State) : KeepsGates s (execPkVerify j s) := by
  simp [execPkVerify]

@[simp] theorem keepsGates_execPkKeygen (j : JobRef) (s : State) : KeepsGates s (execPkKeygen j s) := by
  simp [execPkKeygen]

@[simp] theorem keepsGates_execPkAgree (j : JobRef) (s : State) : KeepsGates s (execPkAgree j s) := by simp [execPkAgree]

@[simp] theorem keepsGates_execPkEncaps (j : JobRef) (s : State) : KeepsGates s (execPkEncaps j s) := by
  simp [execPkEncaps]

@[simp] theorem keepsGates_execPkDecaps (j : JobRef) (s : State) : KeepsGates s (execPkDecaps j s) := by
  simp [execPkDecaps]

@[simp] theorem gates_endStopped (j : Job) (d : Done) (s : State) : gates (endStopped j d s).regs = gates s.regs := by
  simp [endStopped]

@[simp] theorem keepsGates_execPkYieldPoint (core : Nat) (s : State) : KeepsGates s (execPkYieldPoint core s) := by
  unfold execPkYieldPoint
  dsimp only
  split
  · simp
  · split
    · simp
    · split
      · split <;> simp
      · simp

@[simp] theorem gates_placeSecret (j : Job) (p : PkResult) (s : State) : gates (placeSecret j p s).2.regs = gates s.regs := by
  unfold placeSecret
  split
  · split
    · rfl
    · split
      · rfl
      · dsimp only
        split
        · next h => simp [gates_of_placeKey h]
        · simp
  · rfl

@[simp] theorem gates_writeOuts (j : Job) (p : PkResult) (s : State) : gates (writeOuts j p s).regs = gates s.regs := by
  simp [writeOuts]

@[simp] theorem gates_restartJob (core : Nat) (j : Job) (detail : Nat) (s : State) :
    gates (restartJob core j detail s).regs = gates s.regs := by
  unfold restartJob
  split <;> simp

@[simp] theorem gates_failCore (c : Nat) (s : State) : gates (failCore c s).regs = gates s.regs := by
  unfold failCore
  dsimp only
  split <;> simp

@[simp] theorem gates_coreFault (core detail : Nat) (s : State) :
    gates (coreFault core detail s).regs = gates s.regs := by
  unfold coreFault
  dsimp only
  split
  · split <;> simp
  · simp

@[simp] theorem keepsGates_execPkCoreFault (core detail : Nat) (s : State) :
    KeepsGates s (execPkCoreFault core detail s) := by
  unfold execPkCoreFault
  split <;> simp

@[simp] theorem keepsGates_execPkCoreKatVerdict (core : Nat) (pass : Bool) (s : State) :
    KeepsGates s (execPkCoreKatVerdict core pass s) := by simp [execPkCoreKatVerdict]

@[simp] theorem keepsGates_execPkFinishPoint (core : Nat) (s : State) : KeepsGates s (execPkFinishPoint core s) := by
  unfold execPkFinishPoint
  split
  · simp
  · split
    · simp
    · split
      · simp
      · split <;> simp

/-! ## The random bit generator (Machine/Rng.lean) -/

@[simp] theorem gates_instantiate (w : Bytes) (s : State) : gates (instantiate w s).regs = gates s.regs := by
  simp [instantiate]

@[simp] theorem gates_reseed (w : Bytes) (s : State) : gates (reseed w s).regs = gates s.regs := by simp [reseed]

@[simp] theorem gates_generate (s : State) : gates (generate s).2.regs = gates s.regs := by simp [generate]

@[simp] theorem gates_credit (w : Bytes) (s : State) : gates (credit w s).regs = gates s.regs := by simp [credit]

@[simp] theorem gates_restartNow (s : State) : gates (restartNow s).regs = gates s.regs := by
  unfold restartNow
  split <;> simp

@[simp] theorem gates_windowEnds (src : Nat) (w : WindowReading) (s : State) :
    gates (windowEnds src w s).regs = gates s.regs := by
  unfold windowEnds
  split <;> simp

theorem gates_of_firstSeed {s t : State} (h : firstSeed s = some t) : gates t.regs = gates s.regs := by
  unfold firstSeed at h
  split at h
  · split at h
    · cases h
    · cases h; simp
  · cases h

@[simp] theorem gates_serveReads (f n : Nat) (s : State) : gates (serveReads f n s).regs = gates s.regs := by
  induction n generalizing s with
  | zero => rfl
  | succ n ih =>
    unfold serveReads
    dsimp only
    split
    · rfl
    · simp [ih]

@[simp] theorem keepsGates_execFnRngDataRead (f off : Nat) (en : List Bool) (s : State) :
    KeepsGates s (execFnRngDataRead f off en s) := by simp [execFnRngDataRead]

@[simp] theorem keepsGates_execRngReadStallLimit (f : Nat) (s : State) : KeepsGates s (execRngReadStallLimit f s) := by
  unfold execRngReadStallLimit
  dsimp only
  split <;> simp

@[simp] theorem gates_dispatchRandom (s : State) : gates (dispatchRandom s).regs = gates s.regs := by
  unfold dispatchRandom
  split
  · simp
  · split <;> simp

@[simp] theorem keepsGates_execRngFill (j : JobRef) (s : State) : KeepsGates s (execRngFill j s) := by
  unfold execRngFill
  split <;> simp

@[simp] theorem gates_noteGaps (c : Consumer) (s : State) : gates (noteGaps c s).regs = gates s.regs := by simp [noteGaps]

@[simp] theorem gates_deliver (c : Consumer) (out : Bytes) (s : State) : gates (deliver c out s).regs = gates s.regs := by
  unfold deliver
  split
  · simp
  · simp
  · simp
  · simp
  · split
    · simp
    · split <;> simp

@[simp] theorem gates_eraseGenerator (s : State) : gates (eraseGenerator s).regs = gates s.regs := by
  simp [eraseGenerator]

@[simp] theorem gates_restartGenerator (cause : Nat) (s : State) :
    gates (restartGenerator cause s).regs = gates s.regs := by simp [restartGenerator]

@[simp] theorem gates_beginWait (s : State) : gates (beginWait s).regs = gates s.regs := by simp [beginWait]

@[simp] theorem gates_serve (c : Consumer) (s : State) : gates (serve c s).regs = gates s.regs := by simp [serve]

theorem gates_of_request {s t : State} (h : request s = some t) : gates t.regs = gates s.regs := by
  unfold request at h
  split at h
  · cases h
  · split at h
    · cases h
    · split at h
      · split at h
        · cases h
        · cases h; simp
      · cases h; simp

@[simp] theorem gates_generateOrWait (s : State) : gates (generateOrWait s).regs = gates s.regs := by
  unfold generateOrWait
  split
  · next h => exact gates_of_request h
  · simp

@[simp] theorem gates_resumeReseed (s : State) : gates (resumeReseed s).regs = gates s.regs := by
  unfold resumeReseed
  split <;> simp

@[simp] theorem keepsGates_execDispatch (t : DispatchTarget) (s : State) : KeepsGates s (execDispatch t s) := by
  unfold execDispatch
  split <;> simp

@[simp] theorem gates_fwAsk (s : State) : gates (fwAsk s).regs = gates s.regs := by simp [fwAsk]

@[simp] theorem drawKeeps_fwRead {α : Type} (take : Bytes → Option (α × Bytes)) (n : Nat) (s : State) :
    DrawKeeps s Prod.snd (fwRead take n s) := by
  induction n generalizing s with
  | zero => unfold fwRead; split <;> simp
  | succ n ih =>
    unfold fwRead
    split
    · simp
    · dsimp only
      split
      · next h => exact (ih _).trans ((gates_of_request h).trans (gates_fwAsk s))
      · simp

@[simp] theorem drawKeeps_fwRandom (n : Nat) (s : State) : DrawKeeps s Prod.snd (fwRandom n s) := by simp [fwRandom]

@[simp] theorem drawKeeps_fwKey (alg : Nat) (s : State) : DrawKeeps s Prod.snd (fwKey alg s) := by simp [fwKey]

/-! ## Slot commands (Machine/KeySlots.lean) -/

@[simp] theorem gates_keyCmd (n f op : Nat) (s : State) : gates (keyCmd n f op s).regs = gates s.regs := by simp [keyCmd]

@[simp] theorem gates_writePub (f addr n : Nat) (s : State) : gates (writePub f addr n s).2.regs = gates s.regs := by
  unfold writePub
  dsimp only
  split <;> simp

theorem gates_placed {f addr n op : Nat} {l : List Nat} {s : State} {o : Option State}
    (h : ∀ t, o = some t → gates t.regs = gates s.regs) : gates (placed f addr n op l s o).2.regs = gates s.regs := by
  unfold placed
  split
  · simp
  · simp [h]

@[simp] theorem gates_acceptCmd (j : Job) (s : State) : gates (acceptCmd j s).regs = gates s.regs := by simp [acceptCmd]

@[simp] theorem gates_withDrawn {α : Type} {j : Job} {d : State → Drawn α} {s : State} {h : α → State → Done × State}
    (hd : DrawKeeps s Prod.snd (d s)) (hh : ∀ a t, gates (h a t).2.regs = gates t.regs) :
    gates (withDrawn j d s h).2.regs = gates s.regs := by
  unfold withDrawn
  split
  · next e => rw [e] at hd; exact (hh ..).trans hd
  · next e => rw [e] at hd; exact hd

@[simp] theorem keepsGates_runSlotCmd {f op : Nat} {waits : Bytes → List Nat} {body : Job → State → Option Done × State}
    {s : State} (h : ∀ j, gates (body j s).2.regs = gates s.regs) : KeepsGates s (runSlotCmd f op waits body s) :=
  keepsGates_runAdminSteps fun j => by split <;> simp [h]

@[simp] theorem gates_createKey (f : Nat) (e key : Bytes) (s : State) : gates (createKey f e key s).2.regs = gates s.regs := by
  unfold createKey
  split
  · rfl
  · exact gates_placed fun t h => by simp [gates_of_placeKey h]

@[simp] theorem keepsGates_execKeyCreate (f : Nat) (s : State) : KeepsGates s (execKeyCreate f s) := by
  refine keepsGates_runSlotCmd fun j => ?_
  split <;> simp

@[simp] theorem gates_revokeJobs (n : Nat) (again : Bool) (s : State) :
    gates (revokeJobs n again s).regs = gates s.regs := by simp [revokeJobs]

@[simp] theorem gates_eraseEnds (j : Job) (s : State) : gates (eraseEnds j s).2.regs = gates s.regs := by
  unfold eraseEnds
  split
  · split <;> simp
  · simp

@[simp] theorem gates_eraseGoes (f n : Nat) (j : Job) (again : Bool) (s : State) :
    gates (eraseGoes f n j again s).2.regs = gates s.regs := by
  unfold eraseGoes
  dsimp only
  split <;> simp

@[simp] theorem keepsGates_execKeyErase (f : Nat) (s : State) : KeepsGates s (execKeyErase f s) := by
  refine keepsGates_runSlotCmd fun j => ?_
  split
  · split <;> simp
  · simp

@[simp] theorem gates_importKey (f : Nat) (e blob : Bytes) (n : Nat) (s : State) : gates (importKey f e blob n s).2.regs = gates s.regs := by
  unfold importKey
  exact gates_placed fun t h => by simp [gates_of_placeKey h]

@[simp] theorem gates_importInto (f : Nat) (j : Job) (blob : Bytes) (s : State) :
    gates (importInto f j blob s).2.regs = gates s.regs := by
  unfold importInto
  dsimp only
  split
  · split <;> simp
  · split <;> simp

@[simp] theorem keepsGates_execKeyImport (f : Nat) (s : State) : KeepsGates s (execKeyImport f s) := by
  refine keepsGates_runSlotCmd (fun j => ?_)
  split
  · rfl
  · refine (gates_afterReads _ _ ?_).trans (by simp)
    dsimp only
    split <;> simp

@[simp] theorem keepsGates_execKeyExport (f : Nat) (s : State) : KeepsGates s (execKeyExport f s) := by
  refine keepsGates_runSlotCmd fun j => ?_
  dsimp only
  split
  · simp
  · split <;> simp

@[simp] theorem gates_retire (n : Nat) (old : Slot) (s : State) : gates (retire n old s).regs = gates s.regs := by
  simp [retire]

theorem gates_of_archive {arc : Nat} {old : Slot} {s t : State} (h : archive arc old s = some t) : gates t.regs = gates s.regs := by
  unfold archive at h
  split at h
  · cases h; rfl
  · simp [gates_of_placeKey h]

@[simp] theorem gates_rekeySlot (f : Nat) (e key : Bytes) (s : State) : gates (rekeySlot f e key s).2.regs = gates s.regs := by
  unfold rekeySlot
  refine gates_placed fun t h => ?_
  obtain ⟨s1, h1, h⟩ := Option.bind_eq_some_iff.mp h
  obtain ⟨u, h2, rfl⟩ := Option.map_eq_some_iff.mp h
  simp [gates_of_placeKey h2, gates_of_archive h1]

@[simp] theorem keepsGates_execRekey (f : Nat) (s : State) : KeepsGates s (execRekey f s) := by
  refine keepsGates_runSlotCmd fun j => ?_
  dsimp only
  split
  · simp
  · split <;> simp

@[simp] theorem gates_reattrSlot (f : Nat) (e : Bytes) (s : State) : gates (reattrSlot f e s).2.regs = gates s.regs := by
  unfold reattrSlot
  dsimp only
  split
  · simp
  · next h => simp [gates_of_placeKey h]

@[simp] theorem keepsGates_execReattr (f : Nat) (s : State) : KeepsGates s (execReattr f s) := by
  refine keepsGates_runSlotCmd fun j => ?_
  dsimp only
  split
  · simp
  · split <;> simp

@[simp] theorem keepsGates_execKeyQuery (f : Nat) (s : State) : KeepsGates s (execKeyQuery f s) := by simp [execKeyQuery]

@[simp] theorem gates_remaskCopy (g : Nat) (c : SlotCopy) (s : State) :
    gates (remaskCopy g c s).2.regs = gates s.regs := by simp [remaskCopy]

@[simp] theorem gates_remaskSlot (n : Nat) (s : State) : gates (remaskSlot n s).regs = gates s.regs := by
  unfold remaskSlot
  dsimp only
  split <;> simp

@[simp] theorem gates_remaskSets (f : Nat) (s : State) : gates (remaskSets f s).regs = gates s.regs := by
  simp [remaskSets]

@[simp] theorem gates_sweepOn (s : State) : gates (sweepOn s).regs = gates s.regs := by simp [sweepOn]

@[simp] theorem keepsGates_execRemaskSweepVisit (s : State) : KeepsGates s (execRemaskSweepVisit s) := by
  simp [execRemaskSweepVisit]

@[simp] theorem keepsGates_execSlotReload (n : Nat) (okA okB : Bool) (s : State) :
    KeepsGates s (execSlotReload n okA okB s) := by simp [execSlotReload]

@[simp] theorem gates_endReload (s : State) : gates (endReload s).regs = gates s.regs := by simp [endReload]

@[simp] theorem gates_reloadFails (n : Nat) (s : State) : gates (reloadFails n s).regs = gates s.regs := by
  simp [reloadFails]

@[simp] theorem keepsGates_execWrappedStoreReload (n : Nat) (okA okB : Bool) (s : State) :
    KeepsGates s (execWrappedStoreReload n okA okB s) := by simp [execWrappedStoreReload]

/-! ## Functions and host interface (Machine/Functions.lean) -/

@[simp] theorem gates_fnAdmin (f op : Nat) (s : State) : gates (fnAdmin f op s).regs = gates s.regs := by simp [fnAdmin]

@[simp] theorem keepsGates_execFnAlloc (s : State) : KeepsGates s (execFnAlloc s) := by simp [execFnAlloc]

@[simp] theorem gates_resetJob (s : State) (j : Job) : gates (resetJob s j).regs = gates s.regs := by simp [resetJob]

@[simp] theorem gates_dropStalled (f : Nat) (s : State) : gates (dropStalled f s).regs = gates s.regs := by
  unfold dropStalled
  exact gates_foldl (f := fun s _ => emit (.unsupported f) s) (fun _ _ => rfl) _ s

@[simp] theorem gates_beginReset (f cause : Nat) (s : State) : gates (beginReset f cause s).regs = gates s.regs := by
  unfold beginReset
  split <;> simp

@[simp] theorem gates_stopLogs (s : State) : gates (stopLogs s).regs = gates s.regs := by simp [stopLogs]

@[simp] theorem gates_resetVfs (cause : Nat) (s : State) : gates (resetVfs cause s).regs = gates s.regs := by
  simp [resetVfs]

@[simp] theorem gates_startReset (f cause : Nat) (s : State) : gates (startReset f cause s).regs = gates s.regs := by
  simp [startReset]

@[simp] theorem keepsGates_execFlr (f : Nat) (s : State) : KeepsGates s (execFlr f s) := by simp [execFlr]

@[simp] theorem keepsGates_execFunctionReset (f cause : Nat) (s : State) :
    KeepsGates s (execFunctionReset f cause s) := by simp [execFunctionReset]

@[simp] theorem keepsGates_execVfEnableClear (s : State) : KeepsGates s (execVfEnableClear s) := by
  simp [execVfEnableClear]

@[simp] theorem keepsGates_execBusMasterEnableClear (f : Nat) (s : State) :
    KeepsGates s (execBusMasterEnableClear f s) := by simp [execBusMasterEnableClear]

@[simp] theorem keepsGates_execBusMasterEnableSet (f : Nat) (s : State) : KeepsGates s (execBusMasterEnableSet f s) := by
  simp [execBusMasterEnableSet]

@[simp] theorem keepsGates_execMemorySpaceEnableClear (f : Nat) (s : State) :
    KeepsGates s (execMemorySpaceEnableClear f s) := by simp [execMemorySpaceEnableClear]

@[simp] theorem gates_resetEnds (f : Nat) (s : State) : gates (resetEnds f s).regs = gates s.regs := by
  unfold resetEnds
  split <;> simp

@[simp] theorem keepsGates_execFunctionResetComplete (f : Nat) (s : State) :
    KeepsGates s (execFunctionResetComplete f s) := by simp [execFunctionResetComplete]

@[simp] theorem keepsGates_execFnReset (s : State) : KeepsGates s (execFnReset s) := by
  refine keepsGates_runAdminSteps fun j => ?_
  split
  · simp
  · dsimp only
    split <;> simp

@[simp] theorem keepsGates_execFnFree (s : State) : KeepsGates s (execFnFree s) := by
  refine keepsGates_runAdminSteps fun j => ?_
  split
  · simp
  · split <;> simp

@[simp] theorem keepsGates_execFnSkKeyWrite (f set k : Nat) (wide : Bool) (v : Nat) (s : State) :
    KeepsGates s (execFnSkKeyWrite f set k wide v s) := by simp [execFnSkKeyWrite]

@[simp] theorem gates_writeSkCtl (f set : Nat) (v : Word) (s : State) :
    gates (writeSkCtl f set v s).regs = gates s.regs := by simp [writeSkCtl]

@[simp] theorem keepsGates_execSessionKeyLoad (f set : Nat) (v : Word) (s : State) :
    KeepsGates s (execSessionKeyLoad f set v s) := by simp [execSessionKeyLoad]

@[simp] theorem keepsGates_execSessionKeyClear (f set : Nat) (v : Word) (s : State) :
    KeepsGates s (execSessionKeyClear f set v s) := by simp [execSessionKeyClear]

@[simp] theorem keepsGates_execD3hotWrite (f : Nat) (s : State) : KeepsGates s (execD3hotWrite f s) := by
  simp [execD3hotWrite]

@[simp] theorem keepsGates_execQuiescenceTimeout (f : Nat) (s : State) : KeepsGates s (execQuiescenceTimeout f s) := by
  unfold execQuiescenceTimeout
  split <;> simp

@[simp] theorem keepsGates_execD0Write (f : Nat) (s : State) : KeepsGates s (execD0Write f s) := by simp [execD0Write]

@[simp] theorem keepsGates_execMsixEnableClear (f : Nat) (s : State) : KeepsGates s (execMsixEnableClear f s) := by
  simp [execMsixEnableClear]

@[simp] theorem keepsGates_execMsixUnmask (f : Nat) (v : Option Nat) (s : State) :
    KeepsGates s (execMsixUnmask f v s) := by
  unfold execMsixUnmask
  split
  · simp
  · split <;> simp

@[simp] theorem keepsGates_execDirtyLogStart (s : State) : KeepsGates s (execDirtyLogStart s) := by
  refine keepsGates_runAdminSteps (fun j => ?_)
  dsimp only
  split
  · rfl
  · split
    · rfl
    · refine gates_afterReads _ _ ?_
      split <;> simp

@[simp] theorem gates_logStep (op : Byte) (next : DirtyLog → Option DirtyLog) (j : Job) (s : State) :
    gates (logStep op next j s).2.regs = gates s.regs := by
  unfold logStep
  split
  · simp
  · split
    · simp
    · dsimp only
      split <;> simp

@[simp] theorem keepsGates_execDirtyLogSync (s : State) : KeepsGates s (execDirtyLogSync s) := by simp [execDirtyLogSync]

@[simp] theorem keepsGates_execDirtyLogStop (s : State) : KeepsGates s (execDirtyLogStop s) := by simp [execDirtyLogStop]

@[simp] theorem gates_freezeGoes (f : Nat) (s : State) : gates (freezeGoes f s).2.regs = gates s.regs := by
  unfold freezeGoes
  dsimp only
  split
  · simp
  · split <;> simp

@[simp] theorem keepsGates_execFreeze (s : State) : KeepsGates s (execFreeze s) := by
  refine keepsGates_runAdminSteps fun j => ?_
  split
  · simp
  · split
    · simp
    · dsimp only
      split <;> simp

@[simp] theorem keepsGates_execThaw (s : State) : KeepsGates s (execThaw s) := by
  refine keepsGates_runAdminSteps fun j => ?_
  split
  · simp
  · dsimp only
    split <;> simp

@[simp] theorem keepsGates_execSave (s : State) : KeepsGates s (execSave s) := by
  refine keepsGates_runAdminSteps fun j => ?_
  dsimp only
  split
  · simp
  · split <;> simp

@[simp] theorem gates_loadSet (b : Bytes) (k : Nat) (s : State) : gates (loadSet b k s).2.regs = gates s.regs := by
  unfold loadSet
  dsimp only
  split <;> simp

@[simp] theorem gates_loadSets (f : Nat) (b : Bytes) (s : State) : gates (loadSets f b s).regs = gates s.regs := by
  simp [loadSets]

@[simp] theorem gates_loadFn (f : Nat) (b : Bytes) (s : State) : gates (loadFn f b s).regs = gates s.regs := by
  simp [loadFn]

@[simp] theorem keepsGates_execFnStateLoad (s : State) : KeepsGates s (execFnStateLoad s) := by
  refine keepsGates_runAdminSteps (fun j => ?_)
  dsimp only
  split
  · rfl
  · refine gates_afterReads _ _ ?_
    split <;> simp

/-! ## Alarms (Machine/Alarm.lean) -/

@[simp] theorem gates_vesperRecord (code level p0 p1 p2 p3 : Nat) (s : State) :
    gates (vesperRecord code level p0 p1 p2 p3 s).regs = gates s.regs := by simp [vesperRecord]

@[simp] theorem gates_checkpoint (s : State) : gates (checkpoint s).regs = gates s.regs := by simp [checkpoint]

@[simp] theorem gates_countAlarm (s : State) : gates (countAlarm s).regs = gates s.regs := by simp [countAlarm]

@[simp] theorem gates_answerCaller (c : Option Caller) (d : Done) (out : Bytes) (s : State) :
    gates (answerCaller c d out s).regs = gates s.regs := by
  unfold answerCaller
  split
  · simp
  · split <;> simp
  · simp

@[simp] theorem gates_ceremonyRecord (c : Ceremony) (how : Nat) (s : State) :
    gates (ceremonyRecord c how s).regs = gates s.regs := by simp [ceremonyRecord]

@[simp] theorem gates_closeCeremony (how : Nat) (d : Done) (s : State) :
    gates (closeCeremony how d s).regs = gates s.regs := by
  unfold closeCeremony
  split <;> simp

@[simp] theorem gates_alarmCloses (s : State) : gates (alarmCloses s).regs = gates s.regs := by
  unfold alarmCloses
  split <;> simp

@[simp] theorem gates_eraseIde (s : State) : gates (eraseIde s).regs = gates s.regs := by simp [eraseIde]

@[simp] theorem gates_eraseSlots (s : State) : gates (eraseSlots s).regs = gates s.regs := by simp [eraseSlots]

@[simp] theorem gates_eraseRandom (s : State) : gates (eraseRandom s).regs = gates s.regs := by simp [eraseRandom]

@[simp] theorem gates_undoSlotCommand (j : Job) (s : State) : gates (undoSlotCommand j s).regs = gates s.regs := by
  simp [undoSlotCommand]

@[simp] theorem gates_endWork (detail : Nat) (atOnce : Bool) (s : State) :
    gates (endWork detail atOnce s).regs = gates s.regs := by simp [endWork]

@[simp] theorem gates_eraseRoot (s : State) : gates (eraseRoot s).regs = gates s.regs := by simp [eraseRoot]

@[simp] theorem gates_eraseDomain (s : State) : gates (eraseDomain s).regs = gates s.regs := by simp [eraseDomain]

@[simp] theorem gates_destroyStore (s : State) : gates (destroyStore s).regs = gates s.regs := by simp [destroyStore]

@[simp] theorem gates_enterLife (x : LifeState) (id : Nat) (s : State) :
    gates (enterLife x id s).regs = gates s.regs := by simp [enterLife]

@[simp] theorem gates_enterLocked (c : LockClass) (at_ id : Nat) (s : State) :
    gates (enterLocked c at_ id s).regs = gates s.regs := by simp [enterLocked]

@[simp] theorem gates_respondTo (c : LockClass) (root : Bool) (s : State) :
    gates (respondTo c root s).regs = gates s.regs := by simp [respondTo]

@[simp] theorem gates_repeatResponse (c : LockClass) (s : State) : gates (repeatResponse c s).regs = gates s.regs := by
  simp [repeatResponse]

@[simp] theorem gates_lockResponse (c : LockClass) (s : State) : gates (lockResponse c s).regs = gates s.regs := by
  unfold lockResponse
  split <;> simp

@[simp] theorem gates_latchGroup (g c : Nat) (s : State) : gates (latchGroup g c s).regs = gates s.regs := by
  simp [latchGroup]

@[simp] theorem gates_sense (g : Nat) (present : Bool) (s : State) : gates (sense g present s).regs = gates s.regs := by
  simp [sense]

/-! ## Vesper (Machine/Vesper.lean) -/

theorem gates_modCell (h : Cell → Cell) (s : State) : gates (modCell h s).regs = gates s.regs :=
  congrArg gates (modCell_regs s h)

@[simp] theorem keepsGates_execMeshSample (m : MeshReading) (s : State) : KeepsGates s (execMeshSample m s) := by
  simp [execMeshSample]

@[simp] theorem keepsGates_execXtampSample (input : Nat) (high : Bool) (s : State) :
    KeepsGates s (execXtampSample input high s) := by simp [execXtampSample]

@[simp] theorem keepsGates_execTempSample (dc : Int) (s : State) : KeepsGates s (execTempSample dc s) := by
  simp [execTempSample]

@[simp] theorem gates_senseOnce (g : Nat) (s : State) : gates (senseOnce g s).regs = gates s.regs := by simp [senseOnce]

@[simp] theorem keepsGates_execGlitch (supply mv : Nat) (s : State) : KeepsGates s (execGlitch supply mv s) := by
  simp [execGlitch]

@[simp] theorem keepsGates_execFiDelay (_sensor : Nat) (s : State) : KeepsGates s (execFiDelay _sensor s) := by
  simp [execFiDelay]

@[simp] theorem gates_noteVbat (mv : Nat) (s : State) : gates (noteVbat mv s).regs = gates s.regs := by simp [noteVbat]

@[simp] theorem keepsGates_execVbatSample (mv : Nat) (s : State) : KeepsGates s (execVbatSample mv s) := by
  simp [execVbatSample]

@[simp] theorem keepsGates_execVbatCut (mv : Nat) (s : State) : KeepsGates s (execVbatCut mv s) := by simp [execVbatCut]

@[simp] theorem keepsGates_execCellPresenceCheck (present : Bool) (s : State) :
    KeepsGates s (execCellPresenceCheck present s) := by simp [execCellPresenceCheck]

@[simp] theorem keepsGates_execXtalFail (s : State) : KeepsGates s (execXtalFail s) := by simp [execXtalFail]

@[simp] theorem keepsGates_execXtalReturn (s : State) : KeepsGates s (execXtalReturn s) := by simp [execXtalReturn]

@[simp] theorem keepsGates_execShadowCheck (agree : Bool) (s : State) : KeepsGates s (execShadowCheck agree s) := by
  simp [execShadowCheck]

@[simp] theorem gates_chargeTo (st : ChargeState) (s : State) : gates (chargeTo st s).regs = gates s.regs := by
  simp [chargeTo]

@[simp] theorem gates_chargeCc (s : State) : gates (chargeCc s).regs = gates s.regs := by
  unfold chargeCc
  rw [gates_chargeTo, gates_modCell]

@[simp] theorem gates_chargeDone (s : State) : gates (chargeDone s).regs = gates s.regs := by
  unfold chargeDone
  simp only [gates_modCell, gates_chargeTo]
  split
  · rw [gates_ite, gates_modCell, ite_self]
  · rfl

@[simp] theorem gates_countCharge (i : Nat) (s : State) : gates (countCharge i s).regs = gates s.regs := by
  simp [countCharge]

@[simp] theorem gates_chargeRun (r : ChargerReading) (s0 : State) : gates (chargeRun r s0).regs = gates s0.regs := by
  unfold chargeRun
  extract_lets s now vcv t0 deep charging counted low cv full after limit
  have hs : gates s.regs = gates s0.regs := by simp only [s]; split <;> simp
  have deepKeeps : gates deep.regs = gates s.regs := by simp only [deep, gates_countCharge, gates_modCell]
  have afterKeeps : gates after.regs = gates s.regs := by
    simp only [after, full, cv, counted, charging]
    split <;> simp [-modCell_regs, gates_modCell]
  rw [← hs]
  simp [deepKeeps, afterKeeps]

@[simp] theorem keepsGates_execChargerStep (r : ChargerReading) (s : State) : KeepsGates s (execChargerStep r s) := by
  simp [execChargerStep]

@[simp] theorem keepsGates_execAdaptiveSamplingUpdate (s : State) : KeepsGates s (execAdaptiveSamplingUpdate s) := by
  simp [execAdaptiveSamplingUpdate]

@[simp] theorem keepsGates_execAgeingUpdate (s : State) : KeepsGates s (execAgeingUpdate s) := by
  unfold execAgeingUpdate
  split <;> simp only [keepsGates_next, gates_modCell]

@[simp] theorem gates_newCell (s : State) : gates (newCell s).regs = gates s.regs := by
  unfold newCell
  simp [-modCell_regs, gates_modCell]

@[simp] theorem gates_windowChecks (present : Bool) (mv : Nat) (low : Bool) (s : State) :
    gates (windowChecks present mv low s).regs = gates s.regs := by simp [windowChecks]

@[simp] theorem gates_endWindow (s : State) : gates (endWindow s).regs = gates s.regs := by simp [endWindow]

@[simp] theorem keepsGates_execServiceWindowClose (why : WindowEnd) (mv : Nat) (present : Bool) (s : State) :
    KeepsGates s (execServiceWindowClose why mv present s) := by
  unfold execServiceWindowClose
  split
  · simp
  · split
    · split <;> simp
    · simp

@[simp] theorem keepsGates_execSupplySourceChange (vchg : Bool) (s : State) :
    KeepsGates s (execSupplySourceChange vchg s) := by
  unfold execSupplySourceChange
  split
  · simp
  · split
    · split
      · split <;> simp
      · simp
    · split
      · split <;> simp
      · simp

@[simp] theorem keepsGates_execVesperSupplyRise (s : State) : KeepsGates s (execVesperSupplyRise s) := by
  simp [execVesperSupplyRise]

@[simp] theorem keepsGates_execWatchOscillatorRecalibration (count : Nat) (s : State) :
    KeepsGates s (execWatchOscillatorRecalibration count s) := by simp [execWatchOscillatorRecalibration]

@[simp] theorem keepsGates_execMeridianSlew (s : State) : KeepsGates s (execMeridianSlew s) := by simp [execMeridianSlew]

@[simp] theorem keepsGates_execVesperCheckpoint (s : State) : KeepsGates s (execVesperCheckpoint s) := by
  simp [execVesperCheckpoint]

@[simp] theorem keepsGates_execTimeAdjustDone (s : State) : KeepsGates s (execTimeAdjustDone s) := by
  simp [execTimeAdjustDone]

/-! ## The dictionary (Machine/Dict.lean) -/

@[simp] theorem gates_repairRecord (area : Nat) (s : State) : gates (repairRecord area s).regs = gates s.regs := by
  simp [repairRecord]

@[simp] theorem gates_repairCopy (s : State) : gates (repairCopy s).regs = gates s.regs := by simp [repairCopy]

@[simp] theorem gates_lockForLoss (s : State) : gates (lockForLoss s).regs = gates s.regs := by
  unfold lockForLoss
  split <;> simp

@[simp] theorem gates_deviceDefaults (s : State) : gates (deviceDefaults s).regs = gates s.regs := by
  simp [deviceDefaults]

@[simp] theorem gates_roleDefaults (s : State) : gates (roleDefaults s).regs = gates s.regs := by simp [roleDefaults]

@[simp] theorem gates_loseSet (set : Nat) (s : State) : gates (loseSet set s).regs = gates s.regs := by simp [loseSet]

@[simp] theorem gates_checkSet (set : Nat) (s : State) : gates (checkSet set s).regs = gates s.regs := by simp [checkSet]

@[simp] theorem gates_applyPolicy (s : State) : gates (applyPolicy s).regs = gates s.regs := by simp [applyPolicy]

@[simp] theorem gates_applyForce (s : State) : gates (applyForce s).regs = gates s.regs := by simp [applyForce]

@[simp] theorem gates_storeIn (n key : Nat) (v : Bytes) (s : State) : gates (storeIn n key v s).regs = gates s.regs := by
  simp [storeIn]

@[simp] theorem gates_putForce (index sub : Nat) (v : Bytes) (s : State) :
    gates (putForce index sub v s).2.regs = gates s.regs := by
  unfold putForce
  split <;> simp

@[simp] theorem gates_copyProfile (a b : Nat) (s0 : State) : gates (copyProfile a b s0).regs = gates s0.regs := by
  simp [copyProfile]

@[simp] theorem gates_putFn (f sub n : Nat) (s : State) : gates (putFn f sub n s).regs = gates s.regs := by simp [putFn]

@[simp] theorem gates_putValue (index : Nat) (o : Obj) (v : Bytes) (s : State) :
    gates (putValue index o v s).2.regs = gates s.regs := by
  unfold putValue
  split
  · simp
  · split <;> simp
  · split
    · simp
    · split <;> simp

@[simp] theorem gates_dictRecord (u : DictUser) (index sub prof : Nat) (s : State) :
    gates (dictRecord u index sub prof s).regs = gates s.regs := by simp [dictRecord]

@[simp] theorem gates_readStore (e : Bytes) (s : State) : gates (readStore e s).regs = gates s.regs := by simp [readStore]

@[simp] theorem keepsGates_execDictRead (f : Nat) (s : State) : KeepsGates s (execDictRead f s) := by simp [execDictRead]

@[simp] theorem gates_writeGoes (u : DictUser) (o : Obj) (e v : Bytes) (s : State) :
    gates (writeGoes u o e v s).2.regs = gates s.regs := by
  unfold writeGoes
  split <;> simp

@[simp] theorem gates_dictWriteBy (u : DictUser) (e : Bytes) (data : Option Bytes) (s : State) :
    gates (dictWriteBy u e data s).2.regs = gates s.regs := by
  unfold dictWriteBy
  split
  · simp
  · simp
  · split
    · simp
    · split
      · simp
      · split <;> simp

@[simp] theorem keepsGates_execDictWrite (f : Nat) (s : State) : KeepsGates s (execDictWrite f s) := by
  refine keepsGates_runAdminSteps (fun j => ?_)
  extract_lets e v
  have h := gates_dictWriteBy (hostUser f) e v s
  split
  · next heq => rw [heq] at h; exact h
  · next heq => rw [heq] at h; split <;> simpa using h

/-! ## Attestation (Machine/Attest.lean) -/

@[simp] theorem drawKeeps_attSign (alg : Nat) (msg : Bytes) (s : State) : DrawKeeps s Prod.snd (attSign alg msg s) := by
  simp [attSign]

@[simp] theorem drawKeeps_makeStatement (nonce : Bytes) (s : State) : DrawKeeps s Prod.snd (makeStatement nonce s) := by
  simp [makeStatement]

@[simp] theorem gates_refuse (d : Done) (s : State) : gates (refuse d s).2.2.regs = gates s.regs := by simp [refuse]

theorem gates_answered {α : Type} {s : State} {d : Drawn α} {h : α → State → Answer} (hd : DrawKeeps s Prod.snd d)
    (hh : ∀ a t, gates (h a t).2.2.regs = gates t.regs) : gates (answered d h).2.2.regs = gates s.regs := by
  unfold answered
  split
  · exact (hh ..).trans hd
  · exact hd

@[simp] theorem gates_attAnswer (e out : Bytes) (s : State) : gates (attAnswer e out s).2.2.regs = gates s.regs := by
  unfold attAnswer
  split <;> simp

@[simp] theorem gates_attestBy (e : Bytes) (s : State) : gates (attestBy e s).2.2.regs = gates s.regs := by
  unfold attestBy
  split
  · simp
  · split
    · exact gates_answered (drawKeeps_makeStatement _ s) (fun _ t => by simp)
    · simp

@[simp] theorem keepsGates_runAttest (f op : Nat) (s : State) : KeepsGates s (runAttest f op s) := by
  refine keepsGates_runAdminSteps fun j => ?_
  split <;> simp

@[simp] theorem keepsGates_execAttestStatement (f : Nat) (s : State) : KeepsGates s (execAttestStatement f s) := by
  simp [execAttestStatement]

@[simp] theorem keepsGates_execAttestChainEcdsa (f : Nat) (s : State) : KeepsGates s (execAttestChainEcdsa f s) := by
  simp [execAttestChainEcdsa]

@[simp] theorem keepsGates_execAttestChainMldsa (f : Nat) (s : State) : KeepsGates s (execAttestChainMldsa f s) := by
  simp [execAttestChainMldsa]

/-! ## Service extensions (Machine/Extensions.lean) -/

@[simp] theorem gates_extEvent (id how key : Nat) (s : State) : gates (extEvent id how key s).regs = gates s.regs := by
  simp [extEvent]

@[simp] theorem gates_endCalls (id : Nat) (d : Done) (s : State) : gates (endCalls id d s).regs = gates s.regs :=
  gates_foldl (fun s c => by split <;> simp) _ s

/-- While the rules are locked an extension's end leaves its pages' owner entries. -/
theorem gates_endExt {s : State} (locked : (gates s.regs).lock = true) (x : Ext) (how : Nat) :
    gates (endExt x how s).regs = gates s.regs := by
  have h : (endCalls x.id { status := Status.unavailable, detail := 0x0A } s).regs.rulesLock = true :=
    (congrArg Gates.lock (gates_endCalls ..)).trans locked
  simp [endExt, h]

@[simp] theorem keepsGates_runManager {c : Nat} {body : Job → State → Option Done × State} {s : State}
    (h : ∀ j, gates (body j s).2.regs = gates s.regs) : KeepsGates s (runManager c body s) :=
  keepsGates_runAdminSteps fun j => by
    split
    · rfl
    · split <;> simp [h]

theorem firstFail_ne_none {rows : List (Bool × Done)} {d : Done} (h : (true, d) ∈ rows) : firstFail rows ≠ none := by
  induction rows with
  | nil => cases h
  | cons r rows ih =>
    unfold firstFail
    rcases List.mem_cons.mp h with rfl | h
    · simp
    · split <;> simp [ih h]

/-- LOAD and UNLOAD are refused while RULES_LOCK is 1 (R387). -/
theorem callRows_refuse_locked {s : State} (locked : s.regs.rulesLock = true) {f : Nat} {e : Bytes} (service : callService e = 0)
    (code : callCode e < 2) : firstFail (callRows s f e) ≠ none := by
  refine firstFail_ne_none (d := { status := Status.unavailable, detail := 0x0B }) ?_
  simp [callRows, service, code, locked]

theorem keepsGates_runManager_locked {c : Nat} (hc : c < 2) {body : Job → State → Option Done × State} {s : State}
    (locked : (gates s.regs).lock = true) : KeepsGates s (runManager c body s) :=
  keepsGates_runAdminSteps fun j => by
    split
    · rfl
    · next h =>
      obtain ⟨service, code⟩ := not_or.mp h
      split
      · rfl
      · next pass => exact absurd pass (callRows_refuse_locked locked (not_not.mp service) (by omega))

theorem keepsGates_execLoad {s : State} (locked : (gates s.regs).lock = true) : KeepsGates s (execLoad s) :=
  keepsGates_runManager_locked (by decide) locked

theorem keepsGates_execUnload {s : State} (locked : (gates s.regs).lock = true) : KeepsGates s (execUnload s) :=
  keepsGates_runManager_locked (by decide) locked

@[simp] theorem keepsGates_execList (s : State) : KeepsGates s (execList s) := by
  refine keepsGates_runManager fun j => ?_
  dsimp only
  split <;> simp

@[simp] theorem keepsGates_execExtCall (f : Nat) (s : State) : KeepsGates s (execExtCall f s) := by
  refine keepsGates_runAdminSteps fun j => ?_
  split
  · simp
  · split
    · simp
    · split <;> simp

@[simp] theorem gates_extFault (x : Nat) (s : State) : gates (extFault x s).regs = gates s.regs := by
  unfold extFault
  split
  · simp
  · split <;> simp

@[simp] theorem keepsGates_runService {x : Nat} {reads writes : Nat × Nat} {body : Ext → Call → Job → State → State} {s : State}
    (h : ∀ e c j, gates (body e c j s).regs = gates s.regs) : KeepsGates s (runService x reads writes body s) := by
  unfold runService
  split
  · split <;> simp [h]
  · simp

@[simp] theorem gates_modCall (r : JobRef) (h : Call → Call) (s : State) : gates (modCall r h s).regs = gates s.regs := by
  simp [modCall]

@[simp] theorem gates_ramWrite (a : Nat) (b : Bytes) (s : State) : gates (ramWrite a b s).regs = gates s.regs := by
  simp [ramWrite]

@[simp] theorem keepsGates_execRet (x status detail result1 : Nat) (s : State) :
    KeepsGates s (execRet x status detail result1 s) := by simp [execRet]

@[simp] theorem keepsGates_execReadIn (x inOff dst n : Nat) (s : State) : KeepsGates s (execReadIn x inOff dst n s) := by
  simp [execReadIn]

@[simp] theorem keepsGates_execWriteOut (x src outOff n : Nat) (s : State) :
    KeepsGates s (execWriteOut x src outOff n s) := by simp [execWriteOut]

@[simp] theorem keepsGates_execSubmit (x entryAt slots recAt : Nat) (s : State) :
    KeepsGates s (execSubmit x entryAt slots recAt s) := by simp [execSubmit]

@[simp] theorem keepsGates_execRandom (x dst n : Nat) (s : State) : KeepsGates s (execRandom x dst n s) := by
  simp [execRandom]

@[simp] theorem keepsGates_execTime (x dst : Nat) (s : State) : KeepsGates s (execTime x dst s) := by simp [execTime]

@[simp] theorem keepsGates_execExtDictRead (x index sub dst room : Nat) (s : State) :
    KeepsGates s (execExtDictRead x index sub dst room s) := by simp [execExtDictRead]

@[simp] theorem keepsGates_execLog (x a1 a2 a3 : Nat) (s : State) : KeepsGates s (execLog x a1 a2 a3 s) := by
  simp [execLog]

/-! ## Ceremonies (Machine/Ceremony.lean) -/

@[simp] theorem gates_openGo (fdp : Bool) (e p : Bytes) (s : State) : gates (openGo fdp e p s).2.2.regs = gates s.regs := by
  unfold openGo
  split
  · simp
  · split
    · simp
    · split
      · simp
      · exact gates_answered (drawKeeps_fwRandom _ s) (fun _ t => by simp)

@[simp] theorem gates_statusGo (e : Bytes) (s : State) : gates (statusGo e s).2.2.regs = gates s.regs := by
  unfold statusGo
  split
  · simp
  · split
    · simp
    · split
      · simp
      · split <;> simp

@[simp] theorem gates_modCer (h : Ceremony → Ceremony) (s : State) : gates (modCer h s).regs = gates s.regs := by
  simp [modCer]

@[simp] theorem gates_startAction (who : Caller) (c : Ceremony) (s : State) :
    gates (startAction who c s).2.regs = gates s.regs := by
  unfold startAction
  split <;> simp

@[simp] theorem gates_executeGo (who : Caller) (e : Bytes) (s : State) :
    gates (executeGo who e s).2.2.regs = gates s.regs := by
  unfold executeGo
  split
  · simp
  · split
    · simp
    · split
      · simp
      · split
        · simp
        · split
          · simp
          · split <;> simp

@[simp] theorem gates_cancelGo (e : Bytes) (s : State) : gates (cancelGo e s).2.2.regs = gates s.regs := by
  unfold cancelGo
  split
  · simp
  · split
    · simp
    · split <;> simp

@[simp] theorem gates_apprRecord (e : Bytes) (how detail : Nat) (s : State) :
    gates (apprRecord e how detail s).regs = gates s.regs := by simp [apprRecord]

@[simp] theorem gates_apprRefused (e : Bytes) (d : Done) (s : State) :
    gates (apprRefused e d s).2.2.regs = gates s.regs := by simp [apprRefused]

@[simp] theorem gates_wakeExecute (s : State) : gates (wakeExecute s).regs = gates s.regs := by
  unfold wakeExecute
  split
  · simp
  · split
    · simp
    · split
      · dsimp only
        split <;> simp
      · simp

@[simp] theorem gates_approveGo (fdp : Bool) (e sig : Bytes) (s : State) :
    gates (approveGo fdp e sig s).2.2.regs = gates s.regs := by
  unfold approveGo
  split
  · simp
  · split
    · simp
    · split
      · simp
      · split
        · simp
        · split <;> simp

@[simp] theorem gates_adminAnswer (j : Job) (addr : Nat) (r : Answer) :
    gates (adminAnswer j addr r).2.regs = gates r.2.2.regs := by
  simp [adminAnswer]

@[simp] theorem keepsGates_runCeremony {op : Nat} {body : Job → State → Option Done × State} {s : State}
    (h : ∀ j, gates (body j s).2.regs = gates s.regs) : KeepsGates s (runCeremony op body s) :=
  keepsGates_runAdminSteps fun j => by split <;> simp [h]

@[simp] theorem keepsGates_execCeremonyOpen (s : State) : KeepsGates s (execCeremonyOpen s) := by
  refine keepsGates_runCeremony fun j => ?_
  split <;> simp

@[simp] theorem keepsGates_execCeremonyStatus (s : State) : KeepsGates s (execCeremonyStatus s) := by
  simp [execCeremonyStatus]

@[simp] theorem keepsGates_execCeremonyExecute (s : State) : KeepsGates s (execCeremonyExecute s) := by
  simp [execCeremonyExecute]

@[simp] theorem keepsGates_execCeremonyCancel (s : State) : KeepsGates s (execCeremonyCancel s) := by
  simp [execCeremonyCancel]

@[simp] theorem keepsGates_execApprove (s : State) : KeepsGates s (execApprove s) := by
  refine keepsGates_runAdminSteps fun j => ?_
  split <;> simp

@[simp] theorem keepsGates_execChallengeExpiry (s : State) : KeepsGates s (execChallengeExpiry s) := by
  unfold execChallengeExpiry
  split <;> simp

@[simp] theorem keepsGates_execContinuationWindowExpiry (s : State) : KeepsGates s (execContinuationWindowExpiry s) := by
  unfold execContinuationWindowExpiry
  split <;> simp

/-! ## Ceremony actions (Machine/Domain.lean) -/

@[simp] theorem gates_beginReload (s : State) : gates (beginReload s).regs = gates s.regs := by simp [beginReload]

@[simp] theorem gates_acquireDomain (dk id : Bytes) (how : Nat) (s : State) :
    gates (acquireDomain dk id how s).regs = gates s.regs := by simp [acquireDomain]

@[simp] theorem gates_reloadDomain (s : State) : gates (reloadDomain s).regs = gates s.regs := by
  unfold reloadDomain
  split
  · simp
  · split <;> simp

@[simp] theorem gates_newRoot (root : Bytes) (s : State) : gates (newRoot root s).regs = gates s.regs := by simp [newRoot]

@[simp] theorem gates_leaveLife (atOnce keepSessions : Bool) (s : State) :
    gates (leaveLife atOnce keepSessions s).regs = gates s.regs := by simp [leaveLife]

@[simp] theorem gates_moveLife (x : LifeState) (id : Nat) (s : State) : gates (moveLife x id s).regs = gates s.regs := by
  simp [moveLife]

@[simp] theorem gates_destroyAll (s : State) : gates (destroyAll s).regs = gates s.regs := by simp [destroyAll]

@[simp] theorem acted_s (s : State) : (acted s).s = s := rfl

@[simp] theorem notActed_s (d : Done) (s : State) : (notActed d s).s = s := rfl

@[simp] theorem gates_finishAction {c : Ceremony} {a : ActOut} {old : State} (h : gates a.s.regs = gates old.regs) :
    gates (finishAction c a old).regs = gates old.regs := by
  unfold finishAction
  dsimp only
  split
  · simp
  · split <;> simp [h]

@[simp] theorem keepsGates_runAction {n : Nat} {body : Ceremony → State → ActOut} {s : State}
    (h : ∀ c, gates (body c s).s.regs = gates s.regs) : KeepsGates s (runAction n body s) := by
  unfold runAction
  split
  · simp
  · simp [h]

@[simp] theorem keepsGates_runDraw {n : Nat} {body : Ceremony → State → Except State ActOut} {s : State}
    (h : ∀ c, DrawKeeps s ActOut.s (body c s)) : KeepsGates s (runDraw n body s) := by
  unfold runDraw
  split
  · simp
  · next c _ =>
    have hc := h c
    split
    · split
      · next e => rw [e] at hc; simpa using gates_finishAction hc
      · next e => rw [e] at hc; simpa using hc
    · simp

@[simp] theorem gates_putRoles (p : Bytes) (s : State) : gates (putRoles p s).regs = gates s.regs := by simp [putRoles]

@[simp] theorem keepsGates_execInitialise (s : State) : KeepsGates s (execInitialise s) := by simp [execInitialise]

@[simp] theorem keepsGates_execCustodians (s : State) : KeepsGates s (execCustodians s) := by simp [execCustodians]

@[simp] theorem keepsGates_execDomainCreate (s : State) : KeepsGates s (execDomainCreate s) := by simp [execDomainCreate]

@[simp] theorem drawKeeps_drawPair (s : State) : DrawKeeps s Prod.snd (drawPair s) := by simp [drawPair]

@[simp] theorem keepsGates_execDomainAdmit (s : State) : KeepsGates s (execDomainAdmit s) := by
  refine keepsGates_runDraw fun c => ?_
  simp

@[simp] theorem keepsGates_execDomainJoin (s : State) : KeepsGates s (execDomainJoin s) := by
  unfold execDomainJoin
  refine keepsGates_runDraw fun c => ?_
  extract_lets offer
  clear_value offer
  refine .ite rfl (.ite rfl ?_)
  exact (drawKeeps_fwRandom _ s).go fun _ s => (drawKeeps_drawPair s).go fun _ s =>
    (drawKeeps_makeStatement _ s).go fun _ s => (drawKeeps_ok ..).mpr (gates_modCer _ s)

@[simp] theorem drawKeeps_continueAdmit (c : Ceremony) (m : Bytes) (s : State) : DrawKeeps s ActOut.s (continueAdmit c m s) := by
  unfold continueAdmit
  refine .ite rfl (.ite rfl ?_)
  exact (drawKeeps_fwKey _ s).go fun _ s => (drawKeeps_fwRandom _ s).go fun _ s =>
    (drawKeeps_attSign _ _ s).go fun _ s => (drawKeeps_attSign _ _ s).go fun _ _ => rfl

@[simp] theorem gates_dropSecret (d : Done) (s : State) : gates (dropSecret d s).s.regs = gates s.regs := by
  simp [dropSecret]

@[simp] theorem gates_continueJoin (c : Ceremony) (m : Bytes) (s : State) :
    gates (continueJoin c m s).s.regs = gates s.regs := by
  unfold continueJoin
  split
  · simp
  · dsimp only
    split
    · split <;> simp
    · simp

@[simp] theorem drawKeeps_drawShares (n : Nat) (s : State) : DrawKeeps s Prod.snd (drawShares n s) := by
  induction n generalizing s with
  | zero => simp [drawShares]
  | succ n ih =>
    unfold drawShares
    exact (drawKeeps_fwKey _ _).go fun _ s => (drawKeeps_fwRandom _ _).go fun _ s => (ih s).go fun _ s => by simp

@[simp] theorem keepsGates_execShareExport (s : State) : KeepsGates s (execShareExport s) := by
  refine keepsGates_runDraw fun c => ?_
  simp

@[simp] theorem keepsGates_execShareRestore (s : State) : KeepsGates s (execShareRestore s) := by
  refine keepsGates_runDraw fun c => ?_
  simp

@[simp] theorem gates_continueRestore (c : Ceremony) (m : Bytes) (s : State) :
    gates (continueRestore c m s).s.regs = gates s.regs := by
  unfold continueRestore
  split
  · simp
  · dsimp only
    split
    · simp
    · split <;> simp

@[simp] theorem drawKeeps_continueAct (c : Ceremony) (m : Bytes) (s : State) :
    DrawKeeps s ActOut.s (continueAct c m s) := by
  unfold continueAct
  split
  · simp
  · split <;> simp

@[simp] theorem gates_continueGo (e m : Bytes) (s : State) : gates (continueGo e m s).2.2.regs = gates s.regs := by
  unfold continueGo
  split
  · simp
  · simp
  · next c _ _ =>
    have h := drawKeeps_continueAct c m s
    split
    · next heq => rw [heq] at h; exact h
    · next heq =>
      rw [heq, drawKeeps_ok] at h
      split
      · simp
      · dsimp only
        split <;> simp [h]

@[simp] theorem keepsGates_execCeremonyContinue (s : State) : KeepsGates s (execCeremonyContinue s) := by
  refine keepsGates_runCeremony fun j => ?_
  split <;> simp

@[simp] theorem keepsGates_execLock (s : State) : KeepsGates s (execLock s) := by simp [execLock]

@[simp] theorem gates_unlockVoid (id : Nat) (root : Bytes) (s : State) :
    gates (unlockVoid id root s).regs = gates s.regs := by simp [unlockVoid]

@[simp] theorem gates_unlockGo (c : Ceremony) (root : Bytes) (s : State) :
    gates (unlockGo c root s).regs = gates s.regs := by
  unfold unlockGo
  dsimp only
  split <;> simp

@[simp] theorem keepsGates_execUnlock (s : State) : KeepsGates s (execUnlock s) := by
  refine keepsGates_runDraw fun c => ?_
  split <;> simp

@[simp] theorem keepsGates_execDebugEnter (s : State) : KeepsGates s (execDebugEnter s) := by
  refine keepsGates_runDraw fun c => ?_
  split <;> simp

@[simp] theorem keepsGates_execDebugExit (s : State) : KeepsGates s (execDebugExit s) := by simp [execDebugExit]

@[simp] theorem keepsGates_execDecommission (s : State) : KeepsGates s (execDecommission s) := by simp [execDecommission]

@[simp] theorem gates_registerImage (p image : Bytes) (s : State) :
    gates (registerImage p image s).regs = gates s.regs := by simp [registerImage]

@[simp] theorem keepsGates_execFwRegister (s : State) : KeepsGates s (execFwRegister s) := by
  unfold execFwRegister
  split
  · simp
  · split
    · extract_lets go
      have hgo : KeepsGates s (go s) := keepsGates_runAction fun c => by
        dsimp only
        split <;> simp
      split
      · split
        · simp [hgo]
        · simp
      · exact hgo
    · simp

theorem gates_endExts {s : State} (locked : (gates s.regs).lock = true) (how : Nat) (l : List Ext) :
    gates (l.foldl (fun s x => endExt x how s) s).regs = gates s.regs := by
  induction l generalizing s with
  | nil => rfl
  | cons x l ih =>
    have h := gates_endExt locked x how
    exact (ih (by rwa [h])).trans h

theorem keepsGates_execExtKey {s : State} (locked : (gates s.regs).lock = true) : KeepsGates s (execExtKey s) := by
  refine keepsGates_runAction (fun c => ?_)
  dsimp only
  split
  · simp
  · rw [acted_s, gates_endExts] <;> simp [locked]

@[simp] theorem gates_quorumWrite (u : DictUser) (w : QuorumWrite) (s : State) :
    gates (quorumWrite u w s).regs = gates s.regs := by
  unfold quorumWrite
  split <;> simp

@[simp] theorem keepsGates_execDictQuorum (s : State) : KeepsGates s (execDictQuorum s) := by
  refine keepsGates_runAction fun c => ?_
  dsimp only
  split <;> simp

@[simp] theorem keepsGates_execCellService (s : State) : KeepsGates s (execCellService s) := by simp [execCellService]

/-! ## The management port (Machine/Fdp.lean) -/

@[simp] theorem gates_dropPart (k : Nat) (s : State) : gates (dropPart k s).regs = gates s.regs := by simp [dropPart]

@[simp] theorem gates_addFragment (k ty frag : Nat) (more : Bool) (b : Bytes) (s : State) :
    gates (addFragment k ty frag more b s).2.regs = gates s.regs := by
  unfold addFragment
  dsimp only
  split
  · simp
  · split
    · simp
    · split <;> simp

@[simp] theorem gates_discovered (r : SessPath) (f : Bytes) (s : State) :
    gates (discovered r f s).regs = gates s.regs := by simp [discovered]

@[simp] theorem drawKeeps_helloReply (m : Bytes) (s : State) : DrawKeeps s Prod.snd (helloReply m s) := by
  unfold helloReply
  exact (drawKeeps_fwRandom _ s).go fun _ s => (drawKeeps_fwKey _ s).go fun _ s => (drawKeeps_fwRandom _ s).go fun _ s =>
    (drawKeeps_makeStatement _ s).go fun _ _ => rfl

@[simp] theorem gates_startSession (r : SessPath) (m : Bytes) (s : State) : gates (startSession r m s).regs = gates s.regs := by
  have h := drawKeeps_helloReply m s
  unfold startSession
  split
  · next e => rw [e] at h; exact h
  · next e => rw [e] at h; simpa using h

@[simp] theorem gates_helloed (r : SessPath) (m : Bytes) (s : State) : gates (helloed r m s).regs = gates s.regs := by
  simp [helloed]

@[simp] theorem gates_helloFrame (r : SessPath) (f : Bytes) (s : State) : gates (helloFrame r f s).regs = gates s.regs := by
  have h := gates_addFragment r.key Fdp.hello (frameFrag f) (frameMore f) (framePayload f) s
  unfold helloFrame
  split
  · simp
  · split
    · next e => rw [e] at h; simpa using h
    · next e => rw [e] at h; exact h

@[simp] theorem gates_failFrame (x : Session) (s : State) : gates (failFrame x s).regs = gates s.regs := by
  simp [failFrame]

@[simp] theorem gates_acceptFrame (r : SessPath) (f : Bytes) (s : State) : gates (acceptFrame r f s).2.regs = gates s.regs := by
  unfold acceptFrame
  split
  · simp
  · split
    · simp
    · split
      · simp
      · split <;> simp

theorem gates_sealedFrame {go : Session → Bytes → State → State} (hgo : ∀ x m s, gates (go x m s).regs = gates s.regs)
    (r : SessPath) (f : Bytes) (s : State) : gates (sealedFrame r f go s).regs = gates s.regs := by
  have h := gates_acceptFrame r f s
  unfold sealedFrame
  split
  · next e => rw [e] at h; exact h
  · next x p t e =>
    rw [e] at h
    have ht := gates_addFragment (sessionKey x.id) (frameTy f) (frameFrag f) (frameMore f) p t
    split
    · next e => rw [e] at ht; exact ((hgo ..).trans ht).trans h
    · next e => rw [e] at ht; exact ht.trans h

@[simp] theorem gates_authed (x : Session) (m : Bytes) (s : State) : gates (authed x m s).regs = gates s.regs := by
  simp [authed]

theorem gates_answer_ite {c : Prop} [Decidable c] {a b : Answer} {s : State} (ha : gates a.2.2.regs = gates s.regs)
    (hb : gates b.2.2.regs = gates s.regs) : gates (if c then a else b).2.2.regs = gates s.regs := by
  split
  · exact ha
  · exact hb

@[simp] theorem gates_runRequest (id entry : Nat) (m : Bytes) (s : State) :
    gates (runRequest id entry m s).2.2.regs = gates s.regs := by
  unfold runRequest
  split
  · simp
  · extract_lets op t r w
    have ht : gates t.regs = gates s.regs := gates_readStore m s
    have hw : gates w.2.regs = gates s.regs := by
      simp only [w]
      split <;> simp
    clear_value op w t
    refine gates_answer_ite ht (gates_answer_ite hw ?_)
    repeat refine gates_answer_ite (by simp) ?_
    simp

@[simp] theorem gates_runWork (id entry : Nat) (m : Bytes) (s : State) : gates (runWork id entry m s).regs = gates s.regs := by
  have h := gates_runRequest id entry m s
  unfold runWork
  split
  · next e => rw [e] at h; simpa using h
  · next e => rw [e] at h; split <;> exact h

@[simp] theorem gates_requested (x0 : Session) (m : Bytes) (s : State) :
    gates (requested x0 m s).regs = gates s.regs := by
  unfold requested
  split <;> simp

@[simp] theorem gates_closed (x : Session) (_m : Bytes) (s : State) : gates (closed x _m s).regs = gates s.regs := by
  simp [closed]

@[simp] theorem gates_receiveFrame (r : SessPath) (f : Bytes) (s : State) : gates (receiveFrame r f s).regs = gates s.regs := by
  simp [receiveFrame, gates_sealedFrame]

@[simp] theorem keepsGates_arrive (ty : Nat) (r : FdpRoute) (s : State) : KeepsGates s (arrive ty r s) := by
  unfold arrive
  split <;> simp

@[simp] theorem keepsGates_execDiscover (r : FdpRoute) (s : State) : KeepsGates s (execDiscover r s) := by
  simp [execDiscover]

@[simp] theorem keepsGates_execHello (r : FdpRoute) (s : State) : KeepsGates s (execHello r s) := by simp [execHello]

@[simp] theorem keepsGates_execAuth (r : FdpRoute) (s : State) : KeepsGates s (execAuth r s) := by simp [execAuth]

@[simp] theorem keepsGates_execRequest (r : FdpRoute) (s : State) : KeepsGates s (execRequest r s) := by
  simp [execRequest]

@[simp] theorem keepsGates_execClose (r : FdpRoute) (s : State) : KeepsGates s (execClose r s) := by simp [execClose]

@[simp] theorem keepsGates_execFragmentTimeout (k : Nat) (s : State) : KeepsGates s (execFragmentTimeout k s) := by
  simp [execFragmentTimeout]

@[simp] theorem keepsGates_execAuthTimeout (session : Nat) (s : State) : KeepsGates s (execAuthTimeout session s) := by
  unfold execAuthTimeout
  split <;> simp

@[simp] theorem keepsGates_execSessionIdleTimeout (session : Nat) (s : State) :
    KeepsGates s (execSessionIdleTimeout session s) := by
  unfold execSessionIdleTimeout
  split <;> simp

@[simp] theorem gates_setBeacon (present : Bool) (s : State) : gates (setBeacon present s).regs = gates s.regs := by
  simp [setBeacon]

@[simp] theorem keepsGates_execPlcaBeaconChange (present : Bool) (s : State) :
    KeepsGates s (execPlcaBeaconChange present s) := by simp [execPlcaBeaconChange]

@[simp] theorem gates_deliverRelay (ch n : Nat) (b : Bytes) (s : State) : gates (deliverRelay ch n b s).2.regs = gates s.regs := by
  induction n generalizing b s with
  | zero => rfl
  | succ n ih =>
    unfold deliverRelay
    split
    · rfl
    · dsimp only
      split
      · rfl
      · simp [ih]

@[simp] theorem gates_relayAnswer (e : Bytes) (s : State) : gates (relayAnswer e s).2.regs = gates s.regs := by
  simp [relayAnswer]

@[simp] theorem gates_relayWaits (j : Job) (s : State) : gates (relayWaits j s).2.regs = gates s.regs := by
  unfold relayWaits
  split
  · dsimp only
    split <;> simp
  · dsimp only
    split <;> simp

@[simp] theorem keepsGates_execFdpRelay (s : State) : KeepsGates s (execFdpRelay s) := by
  refine keepsGates_runAdminSteps fun j => ?_
  split
  · simp
  · split
    · rfl
    · split
      · simp
      · refine gates_afterReads _ _ ?_
        dsimp only
        split <;> simp

/-! ## Configuration space (Machine/ConfigSpace.lean) -/

@[simp] theorem gates_modLink (h : Link → Link) (s : State) : gates (modLink h s).regs = gates s.regs := by simp [modLink]

/-! ## The DOE mailbox, SPDM and IDE (Machine/Spdm.lean) -/

@[simp] theorem gates_modConn (h : SpdmConn → SpdmConn) (s : State) : gates (modConn h s).regs = gates s.regs := by
  simp [modConn]

@[simp] theorem gates_modSpdm (id : Nat) (h : SpdmSession → SpdmSession) (s : State) :
    gates (modSpdm id h s).regs = gates s.regs := by simp [modSpdm]

@[simp] theorem gates_dropSpdm (id : Nat) (s : State) : gates (dropSpdm id s).regs = gates s.regs := by simp [dropSpdm]

@[simp] theorem drawKeeps_spdmSign (ver : Nat) (name : String) (transcript : Bytes) (s : State) :
    DrawKeeps s Prod.snd (spdmSign ver name transcript s) := by simp [spdmSign]

@[simp] theorem drawKeeps_spdmSays (m : Bytes) (s t : State) :
    DrawKeeps s Prod.snd (spdmSays m t) ↔ gates t.regs = gates s.regs := Iff.rfl

@[simp] theorem drawKeeps_spdmVersion (m : Bytes) (s : State) : DrawKeeps s Prod.snd (spdmVersion m s) := by
  unfold spdmVersion
  exact .ite rfl rfl

@[simp] theorem drawKeeps_spdmCapabilities (m : Bytes) (s : State) : DrawKeeps s Prod.snd (spdmCapabilities m s) := by
  unfold spdmCapabilities
  exact .ite rfl rfl

@[simp] theorem drawKeeps_spdmAlgorithms (m : Bytes) (s : State) : DrawKeeps s Prod.snd (spdmAlgorithms m s) := by
  unfold spdmAlgorithms
  exact .ite rfl rfl

@[simp] theorem drawKeeps_spdmDigests (m : Bytes) (s : State) : DrawKeeps s Prod.snd (spdmDigests m s) := by
  simp [spdmDigests]

@[simp] theorem drawKeeps_spdmCertificate (m : Bytes) (s : State) : DrawKeeps s Prod.snd (spdmCertificate m s) := by
  unfold spdmCertificate
  exact .ite rfl rfl

@[simp] theorem drawKeeps_spdmChallenge (m : Bytes) (s : State) : DrawKeeps s Prod.snd (spdmChallenge m s) := by
  unfold spdmChallenge
  dsimp only
  split
  · simp
  · exact .ite rfl ((drawKeeps_fwRandom _ s).go fun _ s => (drawKeeps_spdmSign _ _ _ s).go fun _ _ => rfl)

@[simp] theorem gates_setMeasLog (x : Option SpdmSession) (b : Bytes) (s : State) :
    gates (setMeasLog x b s).regs = gates s.regs := by
  unfold setMeasLog
  split <;> simp

@[simp] theorem drawKeeps_spdmMeasurements (x : Option SpdmSession) (m : Bytes) (s : State) :
    DrawKeeps s Prod.snd (spdmMeasurements x m s) := by
  unfold spdmMeasurements
  dsimp only
  split
  · simp
  · exact .ite rfl ((drawKeeps_fwRandom _ s).go fun _ s =>
      .ite ((drawKeeps_spdmSign _ _ _ s).go fun _ s => gates_setMeasLog x [] s) (gates_setMeasLog x _ s))

@[simp] theorem drawKeeps_spdmKeyExchange (m : Bytes) (s : State) : DrawKeeps s Prod.snd (spdmKeyExchange m s) := by
  unfold spdmKeyExchange
  dsimp only
  split
  · simp
  · exact .ite rfl (.ite rfl (.ite rfl ((drawKeeps_fwRandom _ s).go fun _ s => (drawKeeps_fwKey _ s).go fun _ s =>
      (drawKeeps_spdmSign _ _ _ s).go fun _ _ => rfl)))

@[simp] theorem gates_ideKeyProg (q : IdeReq) (s : State) : gates (ideKeyProg q s).2.regs = gates s.regs := by
  simp [ideKeyProg]

@[simp] theorem gates_ideKeyGo (q : IdeReq) (s : State) : gates (ideKeyGo q s).2.regs = gates s.regs := by
  unfold ideKeyGo
  split <;> simp

@[simp] theorem gates_ideKeyStop (q : IdeReq) (s : State) : gates (ideKeyStop q s).2.regs = gates s.regs := by
  simp [ideKeyStop]

theorem gates_of_ideAnswer {p : Bytes} {s : State} {r : Bytes × State} (h : ideAnswer p s = some r) :
    gates r.2.regs = gates s.regs := by
  unfold ideAnswer at h
  dsimp only at h
  split at h
  · cases h
  · split at h <;> cases h <;> simp

@[simp] theorem drawKeeps_spdmVendor (m : Bytes) (s : State) : DrawKeeps s Prod.snd (spdmVendor m s) := by
  unfold spdmVendor
  dsimp only
  split
  · next p t h =>
    split at h
    · simpa using gates_of_ideAnswer h
    · cases h
  · simp

@[simp] theorem drawKeeps_spdmPlain (m : Bytes) (s : State) : DrawKeeps s Prod.snd (spdmPlain m s) := by
  unfold spdmPlain
  extract_lets ver code c s1
  have h : gates s1.regs = gates s.regs := by
    simp only [s1]
    split <;> simp
  clear_value ver code c s1
  refine DrawKeeps.trans ?_ h
  split
  · simp
  · exact .ite (drawKeeps_spdmVersion m s1) (.ite rfl (.ite rfl (.ite (drawKeeps_spdmCapabilities m s1)
      (.ite (drawKeeps_spdmAlgorithms m s1) (.ite (drawKeeps_spdmDigests m s1) (.ite (drawKeeps_spdmCertificate m s1)
        (.ite (drawKeeps_spdmChallenge m s1) (.ite (drawKeeps_spdmMeasurements none m s1) (.ite rfl
          (drawKeeps_spdmKeyExchange m s1))))))))))

@[simp] theorem drawKeeps_spdmFinish (x : SpdmSession) (m : Bytes) (s : State) : DrawKeeps s Prod.snd (spdmFinish x m s) := by
  unfold spdmFinish
  refine .ite rfl ?_
  rw [drawKeeps_ite]
  simp

@[simp] theorem drawKeeps_spdmKeyUpdate (x : SpdmSession) (m : Bytes) (s : State) :
    DrawKeeps s Prod.snd (spdmKeyUpdate x m s) := by
  unfold spdmKeyUpdate
  exact .ite rfl (.ite rfl (.ite rfl rfl))

@[simp] theorem drawKeeps_spdmInner (x : SpdmSession) (m : Bytes) (s : State) : DrawKeeps s Prod.snd (spdmInner x m s) := by
  unfold spdmInner
  extract_lets code s1
  have h : gates s1.regs = gates s.regs := by
    simp only [s1]
    split <;> simp
  clear_value code s1
  refine DrawKeeps.trans ?_ h
  exact .ite rfl (.ite (.ite (drawKeeps_spdmFinish x m s1) rfl) (.ite (gates_dropSpdm _ s1) (.ite rfl
    (.ite (drawKeeps_spdmKeyUpdate x m s1) (.ite (drawKeeps_spdmVendor m s1) (.ite (drawKeeps_spdmMeasurements _ m s1)
      (.ite (drawKeeps_spdmDigests m s1) (.ite (drawKeeps_spdmCertificate m s1) rfl))))))))

@[simp] theorem drawKeeps_spdmRun (x : Option SpdmSession) (m : Bytes) (s : State) :
    DrawKeeps s Prod.snd (spdmRun x m s) := by
  unfold spdmRun
  split <;> simp

@[simp] theorem gates_spdmFits (ver : Nat) (r : Bytes) (s : State) : gates (spdmFits ver r s).2.regs = gates s.regs := by
  unfold spdmFits
  dsimp only
  split <;> simp

@[simp] theorem drawKeeps_chunkBad (m : Bytes) (code : Nat) (s : State) : DrawKeeps s Prod.snd (chunkBad m code s) := by
  simp [chunkBad]

@[simp] theorem drawKeeps_chunkSend (x : Option SpdmSession) (m : Bytes) (s : State) :
    DrawKeeps s Prod.snd (chunkSend x m s) := by
  unfold chunkSend
  dsimp only
  split <;> simp

@[simp] theorem drawKeeps_chunkGet (m : Bytes) (s : State) : DrawKeeps s Prod.snd (chunkGet m s) := by
  unfold chunkGet
  split <;> simp

@[simp] theorem drawKeeps_spdmRespond (x : Option SpdmSession) (m : Bytes) (s : State) :
    DrawKeeps s Prod.snd (spdmRespond x m s) := by simp [spdmRespond]

@[simp] theorem drawKeeps_spdmSecured (x : SpdmSession) (m : Bytes) (s : State) : DrawKeeps s Prod.snd (spdmSecured x m s) := by
  unfold spdmSecured
  exact ((drawKeeps_spdmRespond _ m _).trans (gates_modSpdm _ _ s)).go fun _ t => gates_modSpdm _ _ t

@[simp] theorem gates_doeReply (obj : Bytes) (s : State) : gates (doeReply obj s).regs = gates s.regs := by
  simp [doeReply]

theorem gates_doeAnswer {obj : Bytes} {ty : Nat} {s : State} {r : Drawn Bytes} (h : DrawKeeps s Prod.snd r) :
    gates (doeAnswer obj ty r).regs = gates s.regs := by
  unfold doeAnswer
  split
  · simpa using h
  · simpa using h

@[simp] theorem gates_doeServe (obj : Bytes) (s : State) : gates (doeServe obj s).regs = gates s.regs := by
  unfold doeServe
  dsimp only
  split
  · rfl
  · split
    · simp
    · split
      · exact gates_doeAnswer (drawKeeps_spdmRespond _ _ s)
      · split
        · split
          · rfl
          · exact gates_doeAnswer (drawKeeps_spdmSecured _ _ s)
        · rfl

@[simp] theorem keepsGates_execSpdmRequest (obj : Bytes) (s : State) : KeepsGates s (execSpdmRequest obj s) := by
  simp [execSpdmRequest]

@[simp] theorem keepsGates_execDoeAbort (s : State) : KeepsGates s (execDoeAbort s) := by simp [execDoeAbort]

@[simp] theorem keepsGates_ideKm (session : Nat) (p : Bytes) (s : State) : KeepsGates s (ideKm session p s) := by
  unfold ideKm
  split
  · simp
  · next x _ =>
    have h := drawKeeps_spdmSecured x (spdmMsg x.ver 0xFE 0 0 (vendorBody p)) s
    split
    · simp
    · split
      · next e => rw [e] at h; simpa using h
      · next e => rw [e] at h; simpa using h

@[simp] theorem keepsGates_execIdeKmQuery (session port : Nat) (s : State) :
    KeepsGates s (execIdeKmQuery session port s) := by simp [execIdeKmQuery]

@[simp] theorem keepsGates_execIdeKmKeyProg (session stream keySet sub : Nat) (tx : Bool) (key iv : Bytes) (s : State) :
    KeepsGates s (execIdeKmKeyProg session stream keySet sub tx key iv s) := by simp [execIdeKmKeyProg]

@[simp] theorem keepsGates_execIdeKmKSetGo (session stream keySet sub : Nat) (tx : Bool) (s : State) :
    KeepsGates s (execIdeKmKSetGo session stream keySet sub tx s) := by simp [execIdeKmKSetGo]

@[simp] theorem keepsGates_execIdeKmKSetStop (session stream keySet sub : Nat) (tx : Bool) (s : State) :
    KeepsGates s (execIdeKmKSetStop session stream keySet sub tx s) := by simp [execIdeKmKSetStop]

/-! ## The host link (Machine/HostLink.lean) -/

@[simp] theorem keepsGates_execLinkUp (rate width : Nat) (flit : Bool) (s : State) :
    KeepsGates s (execLinkUp rate width flit s) := by simp [execLinkUp]

@[simp] theorem gates_linkDown (s : State) : gates (linkDown s).regs = gates s.regs := by simp [linkDown]

@[simp] theorem gates_resetLink (s : State) : gates (resetLink s).regs = gates s.regs := by simp [resetLink]

@[simp] theorem keepsGates_execLinkReset (s : State) : KeepsGates s (execLinkReset s) := by simp [execLinkReset]

@[simp] theorem gates_splitFailure (side : Nat) (s : State) : gates (splitFailure side s).regs = gates s.regs := by
  simp [splitFailure]

@[simp] theorem gates_ideInsecure (stream : Nat) (s : State) : gates (ideInsecure stream s).regs = gates s.regs := by
  simp [ideInsecure]

@[simp] theorem gates_ideVerdict (v : IdeCheck) (s : State) : gates (ideVerdict v s).regs = gates s.regs := by
  unfold ideVerdict
  split <;> simp

@[simp] theorem keepsGates_execInboundFlit (a b : Bool) (v : IdeCheck) (s : State) :
    KeepsGates s (execInboundFlit a b v s) := by simp [execInboundFlit]

/-! ## The target gates (Machine/Gates.lean) -/

@[simp] theorem gates_captureFault (a : Attr) (x : Access) (addr : Nat) (s : State) :
    gates (captureFault a x addr s).regs = gates s.regs := by simp [captureFault]

@[simp] theorem gates_takeTrap (a : Attr) (x : Access) (addr : Nat) (s : State) :
    gates (takeTrap a x addr s).regs = gates s.regs := by simp [takeTrap]

@[simp] theorem gates_countRefusal (s : State) : gates (countRefusal s).regs = gates s.regs := by simp [countRefusal]

@[simp] theorem gates_unitFault (a : Attr) (x : Access) (addr : Nat) (s : State) :
    gates (unitFault a x addr s).regs = gates s.regs := by simp [unitFault]

@[simp] theorem gates_gateRefuse (a : Attr) (x : Access) (addr : Nat) (s : State) :
    gates (gateRefuse a x addr s).regs = gates s.regs := by simp [gateRefuse]

@[simp] theorem gates_unitTurn (a : Attr) (s : State) : gates (unitTurn a s).regs = gates s.regs := by simp [unitTurn]

@[simp] theorem gates_debugRefuse (a : Attr) (x : Access) (addr : Nat) (s : State) :
    gates (debugRefuse a x addr s).regs = gates s.regs := by simp [debugRefuse]

/-! ## Register accesses (Machine/Registers.lean) -/

theorem gates_after {o : Outcome State} {s : State} (h : KeepsGates s o) : gates (after o s).regs = gates s.regs := by
  unfold after
  split
  · exact h _ rfl
  · rfl

@[simp] theorem gates_signalTimes (n : Nat) (s : State) : gates (signalTimes n s).regs = gates s.regs := by
  induction n generalizing s with
  | zero => rfl
  | succ n ih => simp [signalTimes, ih]

@[simp] theorem gates_putDsrcEn (k v : Nat) (s : State) : gates (putDsrcEn k v s).regs = gates s.regs := by
  simp [putDsrcEn]

@[simp] theorem gates_putDsrcCfg (v : Nat) (s : State) : gates (putDsrcCfg v s).regs = gates s.regs := by
  simp [putDsrcCfg]

@[simp] theorem gates_putReq (v : Nat) (s : State) : gates (putReq v s).regs = gates s.regs := by simp [putReq]

@[simp] theorem gates_putKeep (v : Nat) (s : State) : gates (putKeep v s).regs = gates s.regs := by simp [putKeep]

@[simp] theorem gates_kickDog (v : Nat) (s : State) : gates (kickDog v s).regs = gates s.regs := by simp [kickDog]

@[simp] theorem gates_moveCursor (v : Nat) (s : State) : gates (moveCursor v s).regs = gates s.regs := by
  simp [moveCursor]

/-- A rule word or page owner entry is not written while RULES_LOCK is 1 (R371). -/
theorem putRule_locked {s : State} (locked : (gates s.regs).lock = true) (off v : Nat) : putRule off v s = s := if_pos locked

theorem rulesLock_or_of_locked {s : State} (locked : (gates s.regs).lock = true) (b : Bool) : (s.regs.rulesLock || b) = s.regs.rulesLock := by
  rw [show s.regs.rulesLock = true from locked, Bool.true_or]

/-- While RULES_LOCK is 1 no register write changes what it guards: W1S cannot clear it, and rule words and page owner
entries ignore what is written (R371). -/
theorem gates_storeReg {s : State} (locked : (gates s.regs).lock = true) (c off v : Nat) (b : Bits) :
    gates (storeReg c off v b s).regs = gates s.regs := by
  simp [storeReg, putRule_locked locked, rulesLock_or_of_locked locked]

theorem gates_writeReg {s : State} (locked : (gates s.regs).lock = true) (a : Attr) (c off : Nat) (b : Bits) :
    gates (writeReg a c off b s).regs = gates s.regs := by
  unfold writeReg
  split
  · rfl
  · simp [gates_storeReg locked]

theorem gates_writeWindow {s : State} (locked : (gates s.regs).lock = true) (a : Attr) (c off v : Nat) :
    gates (writeWindow a c off v s).regs = gates s.regs := by
  simp [writeWindow, gates_writeReg locked]

theorem gates_of_gateStops {a : Attr} {x : Access} {addr n : Nat} {s t : State} (h : gateStops a x addr n s = some t) :
    gates t.regs = gates s.regs := by
  unfold gateStops at h
  split at h <;> split at h <;> cases h <;> simp

/-- Past the gate or stopped by it, a write of a BAR0 offset leaves the locked rules (R371). -/
theorem gates_writeBar {s : State} (locked : (gates s.regs).lock = true) (a : Attr) (addr n v : Nat) :
    gates (writeBar a addr n v s).regs = gates s.regs := by
  have hs := gates_unitTurn a s
  have turnLocked : (gates (unitTurn a s).regs).lock = true := by rw [hs, locked]
  unfold writeBar
  split
  · rfl
  · dsimp only
    split
    · next h => exact (gates_of_gateStops h).trans hs
    · simp [gates_writeWindow turnLocked, gates_writeReg turnLocked]

@[simp] theorem gates_writeAqBase (f off : Nat) (wide : Bool) (v : Nat) (s : State) :
    gates (writeAqBase f off wide v s).regs = gates s.regs := by simp [writeAqBase]

@[simp] theorem gates_writeAqCfg (f : Nat) (v : Word) (s : State) : gates (writeAqCfg f v s).regs = gates s.regs := by
  simp [writeAqCfg, gates_after]

@[simp] theorem gates_clearStatus (f off : Nat) (v : Word) (s : State) :
    gates (clearStatus f off v s).regs = gates s.regs := by simp [clearStatus]

@[simp] theorem gates_writeIrqCfg (f : Nat) (v : Word) (s : State) : gates (writeIrqCfg f v s).regs = gates s.regs := by
  simp [writeIrqCfg]

@[simp] theorem gates_writeImod (f v : Nat) (w : Word) (s : State) : gates (writeImod f v w s).regs = gates s.regs := by
  simp [writeImod]

@[simp] theorem gates_writeMsix (f off : Nat) (wide : Bool) (v : Nat) (s : State) :
    gates (writeMsix f off wide v s).regs = gates s.regs := by
  simp [writeMsix, gates_after]

@[simp] theorem gates_writePageReg (f off : Nat) (wide : Bool) (v : Nat) (s : State) :
    gates (writePageReg f off wide v s).regs = gates s.regs := by
  simp [writePageReg, gates_after]

@[simp] theorem gates_writePage (f off n v : Nat) (s : State) : gates (writePage f off n v s).regs = gates s.regs := by
  simp [writePage]

@[simp] theorem gates_writeCommand (f v : Nat) (s : State) : gates (writeCommand f v s).regs = gates s.regs := by
  simp [writeCommand, gates_after]

@[simp] theorem gates_writeMsixControl (f : Nat) (enable mask : Bool) (s : State) :
    gates (writeMsixControl f enable mask s).regs = gates s.regs := by
  simp [writeMsixControl, gates_after]

@[simp] theorem gates_writeDeviceControl (f v : Nat) (s : State) :
    gates (writeDeviceControl f v s).regs = gates s.regs := by simp [writeDeviceControl]

@[simp] theorem gates_writeSriovControl (v : Nat) (s : State) : gates (writeSriovControl v s).regs = gates s.regs := by
  simp [writeSriovControl, gates_after]

@[simp] theorem gates_writeDoe (d o n v : Nat) (s : State) : gates (writeDoe d o n v s).regs = gates s.regs := by
  unfold writeDoe
  split
  · split
    · simp [gates_after]
    · split
      · exact gates_after (KeepsGates.trans (keepsGates_execSpdmRequest _ _) (gates_modLink _ s))
      · rfl
  · simp

@[simp] theorem gates_writeCfgReg (f d o n v : Nat) (s : State) : gates (writeCfgReg f d o n v s).regs = gates s.regs := by
  simp [writeCfgReg, gates_after]

@[simp] theorem gates_writeCfg (f off n v : Nat) (s : State) : gates (writeCfg f off n v s).regs = gates s.regs := by
  simp [writeCfg]

theorem keepsGates_execRegisterWrite {s : State} (locked : (gates s.regs).lock = true) (a : Attr) (p : RegPlace) (size v : Nat) :
    KeepsGates s (execRegisterWrite a p size v s) := by
  cases p <;> simp [execRegisterWrite, gates_writeBar locked]

theorem keepsGates_execAliasWrite {s : State} (locked : (gates s.regs).lock = true) (a : Attr) (p : RegPlace) (v : Word) :
    KeepsGates s (execAliasWrite a p v s) := by
  cases p <;> simp [execAliasWrite, gates_writeBar locked]

theorem keepsGates_writeMirrorOf {s : State} (locked : (gates s.regs).lock = true) (kind : Nat) (a : Attr) (addr : Nat) (v : Word) :
    KeepsGates s (writeMirrorOf kind a addr v s) := by
  simp [writeMirrorOf, gates_writeBar locked]

theorem keepsGates_execGateRuleWrite {s : State} (locked : (gates s.regs).lock = true) (a : Attr) (addr : Nat) (v : Word) :
    KeepsGates s (execGateRuleWrite a addr v s) := by
  simp [execGateRuleWrite, gates_writeBar locked]

theorem keepsGates_execAdvance {s : State} (locked : (gates s.regs).lock = true) (a : Attr) (v : Word) :
    KeepsGates s (execAdvance a v s) := by
  simp [execAdvance, gates_writeBar locked]

theorem keepsGates_execRetreat {s : State} (locked : (gates s.regs).lock = true) (a : Attr) (v : Word) :
    KeepsGates s (execRetreat a v s) := by
  simp [execRetreat, gates_writeBar locked]

theorem keepsGates_execKick {s : State} (locked : (gates s.regs).lock = true) (a : Attr) (v : Word) :
    KeepsGates s (execKick a v s) := by
  simp [execKick, gates_writeBar locked]

theorem keepsGates_execPwReqWrite {s : State} (locked : (gates s.regs).lock = true) (a : Attr) (v : Word) :
    KeepsGates s (execPwReqWrite a v s) := by
  simp [execPwReqWrite, gates_writeBar locked]

theorem keepsGates_execPwKeepWrite {s : State} (locked : (gates s.regs).lock = true) (a : Attr) (v : Word) :
    KeepsGates s (execPwKeepWrite a v s) := by
  simp [execPwKeepWrite, gates_writeBar locked]

@[simp] theorem keepsGates_execQuiesceGrant (block : Nat) (s : State) : KeepsGates s (execQuiesceGrant block s) := by
  simp [execQuiesceGrant]

theorem gates_resetReg {s : State} (locked : (gates s.regs).lock = true) (c off : Nat) :
    gates (resetReg c off s).regs = gates s.regs := by
  simp [resetReg, gates_storeReg locked]

@[simp] theorem gates_parityRecord (p0 off how : Nat) (again : Bool) (s : State) :
    gates (parityRecord p0 off how again s).regs = gates s.regs := by simp [parityRecord]

theorem gates_parityError {s : State} (locked : (gates s.regs).lock = true) (r : RegPlace) (again : Bool) :
    gates (parityError r again s).regs = gates s.regs := by
  cases r with
  | bar addr =>
    unfold parityError
    dsimp only
    split
    · rfl
    · simp [gates_resetReg locked]
  | page f off => simp [parityError]
  | cfg f off => rfl

theorem gates_scrubAll {s : State} (locked : (gates s.regs).lock = true) (seen l : List RegPlace) :
    gates (scrubAll seen l s).regs = gates s.regs := by
  induction l generalizing seen s with
  | nil => rfl
  | cons r l ih =>
    have h := gates_parityError locked r (seen.contains r)
    exact (ih (by rw [h, locked]) (r :: seen)).trans h

theorem keepsGates_execParityScrub {s : State} (locked : (gates s.regs).lock = true) (bad : List RegPlace) :
    KeepsGates s (execParityScrub bad s) := by
  simp [execParityScrub, gates_scrubAll locked]

@[simp] theorem gates_takeLeast (r : ShadowReg) (s : State) : gates (takeLeast r s).regs = gates s.regs := by
  simp [takeLeast]

@[simp] theorem gates_reRead (s : State) : gates (reRead s).regs = gates s.regs := by
  unfold reRead
  split <;> simp

@[simp] theorem keepsGates_execShadowMismatch (r : ShadowReg) (s : State) : KeepsGates s (execShadowMismatch r s) := by
  simp [execShadowMismatch]

@[simp] theorem gates_vesperSilent (offset : Nat) (write : Bool) (s : State) :
    gates (vesperSilent offset write s).regs = gates s.regs := by simp [vesperSilent]

@[simp] theorem keepsGates_execVsAccessTimeout (offset : Nat) (write : Bool) (s : State) :
    KeepsGates s (execVsAccessTimeout offset write s) := by simp [execVsAccessTimeout]

theorem keepsGates_execDebugAccess {s : State} (locked : (gates s.regs).lock = true) (addr : Nat) (write : Bool) (v : Word) :
    KeepsGates s (execDebugAccess addr write v s) := by
  have answered (d : Nat) (t : State) :
      gates (if write then t else emit (.debugRead addr (BitVec.ofNat 32 d)) t).regs = gates t.regs := by
    split <;> simp
  unfold execDebugAccess
  extract_lets x a answer
  split
  · simp
  · split
    · simp [answer, answered]
    · split
      · simp [answer, answered]
      · split
        · simp
        · simp [gates_writeBar locked]
        · simp

@[simp] theorem keepsGates_execDebugHalt (s : State) : KeepsGates s (execDebugHalt s) := by simp [execDebugHalt]

@[simp] theorem keepsGates_execDebugResume (s : State) : KeepsGates s (execDebugResume s) := by simp [execDebugResume]

/-! ## Resets of the device (Machine/Reset.lean) -/

@[simp] theorem keepsGates_execPerstRise (s : State) : KeepsGates s (execPerstRise s) := by simp [execPerstRise]

@[simp] theorem keepsGates_execPowerOnReset (s : State) : KeepsGates s (execPowerOnReset s) := by simp [execPowerOnReset]

@[simp] theorem keepsGates_execGlitchArm (s : State) : KeepsGates s (execGlitchArm s) := by simp [execGlitchArm]

@[simp] theorem keepsGates_execRefclkLoss (s : State) : KeepsGates s (execRefclkLoss s) := by simp [execRefclkLoss]

@[simp] theorem keepsGates_execRefclkReturn (s : State) : KeepsGates s (execRefclkReturn s) := by simp [execRefclkReturn]

@[simp] theorem keepsGates_execOperatingConditionsChange (within : Bool) (s : State) :
    KeepsGates s (execOperatingConditionsChange within s) := by simp [execOperatingConditionsChange]

/-! ## Faults (Machine/Faults.lean) -/

@[simp] theorem keepsGates_whileRunning {h : State → State} {s : State} (hk : gates (h s).regs = gates s.regs) :
    KeepsGates s (whileRunning h s) := by
  simp [whileRunning, hk]

@[simp] theorem keepsGates_execMeridianSourceCheck (ref osc cal : Nat) (s : State) :
    KeepsGates s (execMeridianSourceCheck ref osc cal s) := by
  refine keepsGates_whileRunning ?_
  dsimp only
  generalize (if s.clock.onRef then _ else _ : Bool) = onRef
  simp

@[simp] theorem gates_breakBlock (c : Nat) (s : State) : gates (breakBlock c s).regs = gates s.regs := by
  simp [breakBlock]

@[simp] theorem gates_controlStage (block stage : Nat) (retryAgrees pass1 pass2 : Bool) (s : State) :
    gates (controlStage block stage retryAgrees pass1 pass2 s).regs = gates s.regs := by simp [controlStage]

@[simp] theorem keepsGates_execControlStageDisagreement (block stage : Nat) (retryAgrees pass1 pass2 : Bool) (s : State) :
    KeepsGates s (execControlStageDisagreement block stage retryAgrees pass1 pass2 s) := by
  simp [execControlStageDisagreement]

@[simp] theorem gates_setUnit (iris : Bool) (n : Nat) (s : State) : gates (setUnit iris n s).regs = gates s.regs := by
  simp [setUnit]

@[simp] theorem gates_switchOver (cause : Nat) (s : State) : gates (switchOver cause s).regs = gates s.regs := by
  simp [switchOver]

@[simp] theorem gates_dropUnit (iris : Bool) (s : State) : gates (dropUnit iris s).regs = gates s.regs := by
  simp [dropUnit]

@[simp] theorem gates_faultUnit (iris : Bool) (cause : Nat) (s : State) :
    gates (faultUnit iris cause s).regs = gates s.regs := by simp [faultUnit]

@[simp] theorem gates_cuMasked (how unit : Nat) (m : CuMismatch) (s : State) :
    gates (cuMasked how unit m s).regs = gates s.regs := by simp [cuMasked]

@[simp] theorem gates_diagnosed (m : CuMismatch) (s : State) : gates (diagnosed m s).regs = gates s.regs := by
  simp [diagnosed]

@[simp] theorem gates_cuProcedure (m : CuMismatch) (s : State) : gates (cuProcedure m s).regs = gates s.regs := by
  unfold cuProcedure
  split <;> simp

@[simp] theorem gates_cuAlone (m : CuMismatch) (s : State) : gates (cuAlone m s).regs = gates s.regs := by simp [cuAlone]

@[simp] theorem gates_cuHandle (m : CuMismatch) (s : State) : gates (cuHandle m s).regs = gates s.regs := by
  simp [cuHandle]

@[simp] theorem keepsGates_execCuMismatch (m : CuMismatch) (s : State) : KeepsGates s (execCuMismatch m s) := by
  simp [execCuMismatch]

@[simp] theorem keepsGates_execCuResync (pass : Bool) (us : Nat) (s : State) : KeepsGates s (execCuResync pass us s) := by
  simp [execCuResync]

@[simp] theorem gates_stallIn (block : Nat) (s : State) : gates (stallIn block s).regs = gates s.regs := by simp [stallIn]

@[simp] theorem keepsGates_execStallLimit (st : StallStage) (s : State) : KeepsGates s (execStallLimit st s) := by
  cases st with
  | pkCore c =>
    simp only [execStallLimit]
    split
    · exact KeepsGates.trans (keepsGates_execPkCoreFault _ _ _) (gates_stallIn _ s)
    · simp
  | drbg => simp [execStallLimit]
  | store area addr again => simp [execStallLimit]
  | _ => simp [execStallLimit]

@[simp] theorem gates_releaseClaims (s : State) : gates (releaseClaims s).regs = gates s.regs :=
  gates_foldl (fun s j => by split <;> simp) _ s

@[simp] theorem gates_endAll (s : State) : gates (endAll s).regs = gates s.regs :=
  gates_foldl (fun s j => by split <;> simp) _ s

@[simp] theorem gates_eraseLanes (s : State) : gates (eraseLanes s).regs = gates s.regs := by simp [eraseLanes]

@[simp] theorem gates_deviceFault (seq : Nat) (s : State) : gates (deviceFault seq s).regs = gates s.regs := by
  simp [deviceFault]

@[simp] theorem keepsGates_execDeviceFault (seq : Nat) (s : State) : KeepsGates s (execDeviceFault seq s) := by
  simp [execDeviceFault]

@[simp] theorem keepsGates_execEventRecordWrite (s : State) : KeepsGates s (execEventRecordWrite s) := by
  unfold execEventRecordWrite
  split <;> simp

@[simp] theorem keepsGates_execRateWindowEnd (s : State) : KeepsGates s (execRateWindowEnd s) := by
  simp [execRateWindowEnd]

/-! ## Start-up (Machine/Startup.lean) -/

@[simp] theorem gates_restoreVesper (s : State) : gates (restoreVesper s).regs = gates s.regs := by
  unfold restoreVesper
  extract_lets s1
  have h : gates s1.regs = gates s.regs := congrArg gates (modVesper_regs ..)
  clear_value s1
  split <;> simp [h]

@[simp] theorem gates_loadMeridian (s : State) : gates (loadMeridian s).regs = gates s.regs := by simp [loadMeridian]

@[simp] theorem keepsGates_execVesperStateRead (s : State) : KeepsGates s (execVesperStateRead s) := by
  simp [execVesperStateRead]

@[simp] theorem gates_drainVesper (s : State) : gates (drainVesper s).regs = gates s.regs := by simp [drainVesper]

@[simp] theorem gates_noteCopies (r : SelfTest) (s : State) : gates (noteCopies r s).regs = gates s.regs := by
  simp [noteCopies]

@[simp] theorem gates_placeUnits (r : SelfTest) (s : State) : gates (placeUnits r s).regs = gates s.regs := by
  simp [placeUnits]

@[simp] theorem gates_placeControl (r : SelfTest) (s : State) : gates (placeControl r s).regs = gates s.regs := by
  simp [placeControl]

@[simp] theorem gates_noteSimplex (x : Nat × Nat) (s : State) : gates (noteSimplex x s).regs = gates s.regs := by
  simp [noteSimplex]

@[simp] theorem gates_chooseProfile (s : State) : gates (chooseProfile s).regs = gates s.regs := by
  unfold chooseProfile
  split
  · dsimp only
    split <;> simp
  · dsimp only
    split <;> simp

@[simp] theorem gates_takeRail (mv : Nat) (s : State) : gates (takeRail mv s).regs = gates s.regs := by simp [takeRail]

@[simp] theorem keepsGates_execMainDieSelfTest (r : SelfTest) (s : State) : KeepsGates s (execMainDieSelfTest r s) := by
  simp [execMainDieSelfTest]

@[simp] theorem gates_noteImage (new : Option Image) (chosen : Option (Image × Bool)) (s : State) :
    gates (noteImage new chosen s).regs = gates s.regs := by
  unfold noteImage
  split <;> simp

@[simp] theorem keepsGates_execFirmwareCheck (r : FirmwareScan) (s : State) : KeepsGates s (execFirmwareCheck r s) := by
  unfold execFirmwareCheck
  split
  · dsimp only
    split
    · simp
    · split <;> simp
  · simp

@[simp] theorem keepsGates_execRootHandOff (s : State) : KeepsGates s (execRootHandOff s) := by simp [execRootHandOff]

@[simp] theorem gates_askSeeds (s : State) : gates (askSeeds s).regs = gates s.regs := by simp [askSeeds]

@[simp] theorem gates_seedFirst (s : State) : gates (seedFirst s).regs = gates s.regs := by
  unfold seedFirst
  split
  · split
    · rfl
    · next s1 e =>
      have h1 : gates s1.regs = gates s.regs := by
        split at e
        · cases e; rfl
        · exact gates_of_firstSeed e
      have h := drawKeeps_fwRandom 32 (askSeeds s1)
      split
      · next e => rw [e] at h; simpa [h1] using h
      · next e => rw [e] at h; simpa [h1] using h
  · rfl

@[simp] theorem gates_loadSlot (bad : List Nat) (s : State) (n : Nat) : gates (loadSlot bad s n).regs = gates s.regs := by
  simp [loadSlot]

@[simp] theorem gates_loadTenants (bad : List Nat) (s : State) : gates (loadTenants bad s).regs = gates s.regs := by
  simp [loadTenants]

@[simp] theorem gates_armSweep (s : State) : gates (armSweep s).regs = gates s.regs := by simp [armSweep]

@[simp] theorem keepsGates_execSlotsLoaded (bad : List Nat) (s : State) : KeepsGates s (execSlotsLoaded bad s) := by
  simp [execSlotsLoaded]

/-- With the lock already 1 no stored extension is placed again, and the lock is kept (R371, R383). -/
theorem keepsGates_execQueuesOpen {s : State} (locked : (gates s.regs).lock = true) : KeepsGates s (execQueuesOpen s) := by
  unfold execQueuesOpen
  split
  · rw [if_neg (by simp [show s.regs.rulesLock = true from locked])]
    simp [rulesLock_or_of_locked locked]
  · simp

/-! ## Random bytes that arrive (Machine/Wake.lean) -/

@[simp] theorem gates_wakeOne (s : State) (w : PortWork) : gates (wakeOne s w).regs = gates s.regs := by
  cases w <;> simp [wakeOne]

@[simp] theorem gates_wakePort (s : State) : gates (wakePort s).regs = gates s.regs :=
  gates_foldl gates_wakeOne _ _

@[simp] theorem gates_wakeDoe (s : State) : gates (wakeDoe s).regs = gates s.regs := by
  unfold wakeDoe
  split <;> simp

@[simp] theorem gates_wakeFirmware (s : State) : gates (wakeFirmware s).regs = gates s.regs := by simp [wakeFirmware]

@[simp] theorem keepsGates_execWindowComplete (src : Nat) (w : WindowReading) (s : State) :
    KeepsGates s (execWindowComplete src w s) := by simp [execWindowComplete]

@[simp] theorem keepsGates_execGenerateRequest (s : State) : KeepsGates s (execGenerateRequest s) := by
  simp [execGenerateRequest]

@[simp] theorem keepsGates_execReseedResume (s : State) : KeepsGates s (execReseedResume s) := by simp [execReseedResume]

@[simp] theorem keepsGates_execGeneratorRestart (cause : Nat) (s : State) :
    KeepsGates s (execGeneratorRestart cause s) := by simp [execGeneratorRestart]

@[simp] theorem keepsGates_execFirstSeeding (s : State) : KeepsGates s (execFirstSeeding s) := by simp [execFirstSeeding]

/-! ## Every command (Machine/Dispatch.lean) -/

/-- The frame rule of the machine: while RULES_LOCK is 1 a command that is no reset of the device leaves the gate rules. The
arms named are those that could write them, and so need the lock, and the resets; every other one is its command's own
rule. -/
theorem keepsGates_exec {s : State} (locked : (gates s.regs).lock = true) (c : Instr)
    (notReset : ResetsTheDevice c = false) : KeepsGates s (exec c s) := by
  cases c with
  | extKey => exact keepsGates_execExtKey locked
  | load => exact keepsGates_execLoad locked
  | unload => exact keepsGates_execUnload locked
  | advance a v => exact keepsGates_execAdvance locked a v
  | retreat a v => exact keepsGates_execRetreat locked a v
  | kick a v => exact keepsGates_execKick locked a v
  | pwReqWrite a v => exact keepsGates_execPwReqWrite locked a v
  | pwKeepWrite a v => exact keepsGates_execPwKeepWrite locked a v
  | aliasWrite a p v => exact keepsGates_execAliasWrite locked a p v
  | setMirrorWrite a addr v => exact keepsGates_writeMirrorOf locked 1 a addr v
  | clearMirrorWrite a addr v => exact keepsGates_writeMirrorOf locked 2 a addr v
  | toggleMirrorWrite a addr v => exact keepsGates_writeMirrorOf locked 3 a addr v
  | gateRuleWrite a addr v => exact keepsGates_execGateRuleWrite locked a addr v
  | registerWrite a p size v => exact keepsGates_execRegisterWrite locked a p size v
  | parityScrub bad => exact keepsGates_execParityScrub locked bad
  | deviceFaultAction | watchdog | supplyLoss | perstFall => cases notReset
  | queuesOpen => exact keepsGates_execQueuesOpen locked
  | debugAccess addr write v => exact keepsGates_execDebugAccess locked addr write v
  | _ => simp [exec]

/-! ## What sets and clears the lock -/

theorem rulesLock_queuesOpen {s : State} (start : starting 7 s = true) :
    Answers .queuesOpen s fun t => t.regs.rulesLock = (s.regs.rulesLock || decide (s.param 0x7000 0x22 0 = 1)) :=
  ⟨_, if_pos start, congrArg Gates.lock (gates_settle s _)⟩

theorem rulesLock_perstFall {s : State} (supplies : s.boot.supplies = true) (perst : s.boot.perst = true) :
    Answers .perstFall s fun t => t.regs.rulesLock = false :=
  ⟨_, if_pos ⟨supplies, perst⟩, rfl⟩

theorem rulesLock_supplyLoss {s : State} (powered : s.boot.phase ≠ .unpowered) :
    Answers .supplyLoss s fun t => t.regs.rulesLock = false :=
  ⟨_, if_neg powered, rfl⟩

/-- Settles O60: by the frame rule of `exec`, which is assembled from one rule for each function of the model that changes
the state; the opening of the queues and the two resets are read off their own definitions. -/
theorem lockedRulesStay : Obligations.LockedRulesStay := by
  unfold Obligations.LockedRulesStay
  refine ⟨fun c s t next notReset locked => ?_, fun _ => rulesLock_queuesOpen, fun _ => rulesLock_perstFall,
    fun _ => rulesLock_supplyLoss⟩
  obtain ⟨lock, rules, owners⟩ := Gates.mk.inj (keepsGates_exec locked c notReset t next)
  exact ⟨lock.trans locked, rules, owners⟩

end Sys2Proof.Safety
end

section
/-!
PROOFS. The canonical form of host memory and of control RAM (`Tidy`; log entries 4 and 5). A function of the model either
leaves both memories, and then its rule is an equation of `mems`, or writes them through `hostWrite`, `ramWrite` or one of
the few other writers, and then its rule says that it keeps the form. The rules stand in the order of the model's files, and
`exec` is assembled from them.
-/

namespace Sys2Proof.Safety

open Sys2Proof.Machine

/-! ## The two memories of a state, and what keeps their form -/

/-- Host memory and control RAM. -/
def mems (s : State) : List Host.Cell × List Host.Cell := (s.mem, s.cram)

/-- Both memories are in canonical form. -/
def Canonical (m : List Host.Cell × List Host.Cell) : Prop := Memory.wf m.1 = true ∧ Memory.wf m.2 = true

theorem canonical_mems {s : State} : Canonical (mems s) ↔ Tidy s := Iff.rfl

@[simp] theorem canonical_mk (m c : List Host.Cell) : Canonical (m, c) ↔ Memory.wf m = true ∧ Memory.wf c = true := Iff.rfl

/-- A change outside the memories is a literal of `State` once its update is unfolded. (The brackets keep this rule and the
ones below from `dsimp`, so that `simp` can use them in the hypothesis of a rule that writes.) -/
@[simp] theorem mems_mk (fns jobs stamp turnFn turnU turnA fab store life clock evr regs dict mgmt link boot red custody rng
    pk worlds vesper mem cram out free pending) :
    mems ⟨fns, jobs, stamp, turnFn, turnU, turnA, fab, store, life, clock, evr, regs, dict, mgmt, link, boot, red, custody,
      rng, pk, worlds, vesper, mem, cram, out, free, pending⟩ = (mem, cram) := (rfl)

@[simp] theorem mems_eta (s : State) : (s.mem, s.cram) = mems s := (rfl)

@[simp] theorem mems_setFn (f : Nat) (g : Fn) (s : State) : mems (setFn f g s) = mems s := (rfl)
@[simp] theorem mems_modFn (f : Nat) (h : Fn → Fn) (s : State) : mems (modFn f h s) = mems s := (rfl)
@[simp] theorem mems_setJq (f q : Nat) (x : JobQueue) (s : State) : mems (setJq f q x s) = mems s := (rfl)
@[simp] theorem mems_setCq (f c : Nat) (x : CompQueue) (s : State) : mems (setCq f c x s) = mems s := (rfl)
@[simp] theorem mems_modJob (r : JobRef) (h : Job → Job) (s : State) : mems (modJob r h s) = mems s := (rfl)
@[simp] theorem mems_decideJob (r : JobRef) (d : Done) (s : State) : mems (decideJob r d s) = mems s := (rfl)
@[simp] theorem mems_modSlot (n : Nat) (h : Slot → Slot) (s : State) : mems (modSlot n h s) = mems s := (rfl)
@[simp] theorem mems_modVesper (h : Vesper → Vesper) (s : State) : mems (modVesper h s) = mems s := (rfl)
@[simp] theorem mems_modPair (p : Nat) (h : Pair → Pair) (s : State) : mems (modPair p h s) = mems s := (rfl)
@[simp] theorem mems_modCore (c : Nat) (h : PkCore → PkCore) (s : State) : mems (modCore c h s) = mems s := (rfl)
@[simp] theorem mems_bump (n : Nat) (s : State) : mems (bump n s) = mems s := (rfl)
@[simp] theorem mems_emit (m : OutMsg) (s : State) : mems (emit m s) = mems s := (rfl)
@[simp] theorem mems_drewFree (s : State) : mems (drewFree s) = mems s := (rfl)
@[simp] theorem mems_toStage (n : Nat) (s : State) : mems (toStage n s) = mems s := (rfl)

@[simp] theorem mems_ite (c : Prop) [Decidable c] (a b : State) : mems (if c then a else b) = if c then mems a else mems b :=
  apply_ite mems c a b

@[simp] theorem canonical_ite (c : Prop) [Decidable c] (a b : List Host.Cell × List Host.Cell) :
    Canonical (if c then a else b) ↔ if c then Canonical a else Canonical b := by split <;> rfl

@[simp] theorem mems_foldl {α : Type} {f : State → α → State} (h : ∀ s a, mems (f s a) = mems s) (l : List α)
    (s : State) : mems (l.foldl f s) = mems s := by
  induction l generalizing s with
  | nil => rfl
  | cons a l ih => exact (ih _).trans (h s a)

theorem canonical_foldl {α : Type} {f : State → α → State}
    (hf : ∀ s a, Canonical (mems s) → Canonical (mems (f s a))) (l : List α) {s : State} (h : Canonical (mems s)) :
    Canonical (mems (l.foldl f s)) := by
  induction l generalizing s with
  | nil => exact h
  | cons a l ih => exact ih (hf s a h)

theorem canonical_eachFn {h : Nat → State → State} (hk : ∀ f s, Canonical (mems s) → Canonical (mems (h f s))) {s : State}
    (hs : Canonical (mems s)) : Canonical (mems (eachFn h s)) := canonical_foldl (fun s f => hk f s) _ hs

/-- The next state, if there is one, has both memories in canonical form. -/
def Lands (o : Outcome State) : Prop := ∀ t, o = .next t → Canonical (mems t)

@[simp] theorem lands_next (t : State) : Lands (.next t) ↔ Canonical (mems t) :=
  ⟨fun h => h t rfl, fun h _ e => by cases e; exact h⟩

@[simp] theorem lands_ite (c : Prop) [Decidable c] (a b : Outcome State) :
    Lands (if c then a else b) ↔ if c then Lands a else Lands b := by split <;> rfl

/-- Whether firmware has what it draws or waits for it, the state left has the memories of `s`. -/
def DrawMems {β : Type} (s : State) (left : β → State) : Except State β → Prop
  | .ok b => mems (left b) = mems s
  | .error t => mems t = mems s

@[simp] theorem drawMems_ok {β : Type} (s : State) (left : β → State) (b : β) :
    DrawMems s left (.ok b) ↔ mems (left b) = mems s := Iff.rfl

@[simp] theorem drawMems_error {β : Type} (s t : State) (left : β → State) :
    DrawMems s left (.error t) ↔ mems t = mems s := Iff.rfl

@[simp] theorem drawMems_ite {β : Type} (s : State) (left : β → State) (c : Prop) [Decidable c] (a b : Except State β) :
    DrawMems s left (if c then a else b) ↔ if c then DrawMems s left a else DrawMems s left b := by split <;> rfl

/-- The two branches of a test whose condition need not be looked at. -/
theorem DrawMems.ite {β : Type} {s : State} {left : β → State} {c : Prop} [Decidable c] {a b : Except State β}
    (ha : DrawMems s left a) (hb : DrawMems s left b) : DrawMems s left (if c then a else b) := by
  split
  · exact ha
  · exact hb

theorem DrawMems.trans {β : Type} {s t : State} {left : β → State} {d : Except State β} (h : DrawMems t left d)
    (ht : mems t = mems s) : DrawMems s left d := by
  cases d <;> exact Eq.trans h ht

/-- A draw and then what goes on from the state it left. -/
@[simp] theorem DrawMems.go {α β : Type} {s : State} {left : β → State} {d : Drawn α} {h : α → State → Except State β}
    (hd : DrawMems s Prod.snd d) (hh : ∀ a t, DrawMems t left (h a t)) : DrawMems s left (d.go h) := by
  unfold Drawn.go
  split
  · next a t => exact (hh a t).trans hd
  · exact hd

/-- Whether firmware has what it draws or waits for it, the state left has both memories in canonical form. -/
def DrawLands {β : Type} (left : β → State) : Except State β → Prop
  | .ok b => Canonical (mems (left b))
  | .error t => Canonical (mems t)

@[simp] theorem drawLands_ok {β : Type} (left : β → State) (b : β) : DrawLands left (.ok b) ↔ Canonical (mems (left b)) := Iff.rfl

@[simp] theorem drawLands_error {β : Type} (left : β → State) (t : State) : DrawLands left (.error t) ↔ Canonical (mems t) :=
  Iff.rfl

theorem DrawMems.lands {β : Type} {s : State} {left : β → State} {d : Except State β} (hd : DrawMems s left d)
    (h : Canonical (mems s)) : DrawLands left d := by
  cases d <;> exact (congrArg Canonical hd).mpr h

/-- A draw that leaves the memories, and then what keeps their form. -/
theorem DrawMems.goLands {α β : Type} {s : State} {left : β → State} {d : Drawn α} {g : α → State → Except State β}
    (hd : DrawMems s Prod.snd d) (h : Canonical (mems s)) (hg : ∀ a t, Canonical (mems t) → DrawLands left (g a t)) :
    DrawLands left (d.go g) := by
  have hl := hd.lands h
  unfold Drawn.go
  split
  · next a t => exact hg a t hl
  · exact hl

/-! ## Records, error bits, events and interrupts (Machine/Ops.lean) -/

@[simp] theorem mems_persist (set : Nat) (s : State) : mems (persist set s) = mems s := by simp [persist]

@[simp] theorem mems_refuseAccess (s : State) : mems (refuseAccess s) = mems s := by simp [refuseAccess]

@[simp] theorem canonical_hostWrite {f a : Nat} {b : Bytes} {s : State} (h : Canonical (mems s)) :
    Canonical (mems (hostWrite f a b s)) := hostWrite_tidy _ _ _ _ h

@[simp] theorem mems_rollWindow (s : State) : mems (rollWindow s) = mems s := by simp [rollWindow]

@[simp] theorem mems_acceptRecord (e : EventRec) (s0 : State) : mems (acceptRecord e s0) = mems s0 := by
  simp [acceptRecord]

@[simp] theorem mems_aerUncor (f b : Nat) (s : State) : mems (aerUncor f b s) = mems s := by simp [aerUncor]

@[simp] theorem mems_aerCor (f b : Nat) (s : State) : mems (aerCor f b s) = mems s := by simp [aerCor]

@[simp] theorem mems_aerOfLevel (level : Nat) (s : State) : mems (aerOfLevel level s) = mems s := by
  simp [aerOfLevel]

@[simp] theorem mems_record (code level p0 p1 p2 p3 : Nat) (nested : Bool) (s : State) :
    mems (record code level p0 p1 p2 p3 nested s) = mems s := by simp [record]

@[simp] theorem mems_escalate (s : State) : mems (escalate s) = mems s := by simp [escalate]

@[simp] theorem mems_evalVec (f v : Nat) (s : State) : mems (evalVec f v s) = mems s := by simp [evalVec]

@[simp] theorem mems_evalVecs (f : Nat) (s : State) : mems (evalVecs f s) = mems s := by simp [evalVecs]

@[simp] theorem mems_vecEvent (f v : Nat) (irqNow : Bool) (s : State) :
    mems (vecEvent f v irqNow s) = mems s := by simp [vecEvent]

@[simp] theorem mems_signalDevice (s : State) : mems (signalDevice s) = mems s := by simp [signalDevice]

@[simp] theorem mems_raiseSource (n : Nat) (s : State) : mems (raiseSource n s) = mems s := by
  simp [raiseSource]

@[simp] theorem mems_setErr (c n : Nat) (s : State) : mems (setErr c n s) = mems s := by simp [setErr]

@[simp] theorem mems_setEvent (f n : Nat) (s : State) : mems (setEvent f n s) = mems s := by simp [setEvent]

@[simp] theorem mems_setQerr (f q : Nat) (s : State) : mems (setQerr f q s) = mems s := by simp [setQerr]

@[simp] theorem mems_eachFn (h : Nat → State → State) (hk : ∀ f s, mems (h f s) = mems s) (s : State) :
    mems (eachFn h s) = mems s := mems_foldl (fun s f => hk f s) _ s

@[simp] theorem mems_noteConditions (s : State) : mems (noteConditions s) = mems s := by
  simp [noteConditions]

@[simp] theorem mems_settle (old s : State) : mems (settle old s) = mems s := by
  unfold settle
  split <;> simp

@[simp] theorem lands_settled {old t : State} : Lands (settled old t) ↔ Canonical (mems t) := by
  simp [settled]

/-! ## Jobs and completion records (Machine/Jobs.lean) -/

@[simp] theorem canonical_writeMirror {f c : Nat} {s : State} (h : Canonical (mems s)) :
    Canonical (mems (writeMirror f c s)) := by
  unfold writeMirror
  split <;> simp [h]

@[simp] theorem canonical_issueRecord {f c : Nat} {b : Bytes} {reserved irqNow : Bool} {s : State}
    (h : Canonical (mems s)) : Canonical (mems (issueRecord f c b reserved irqNow s)) := by
  unfold issueRecord
  split
  · exact h
  · simp [h]

@[simp] theorem mems_finishEntry (f q : Nat) (i : Word) (s : State) :
    mems (finishEntry f q i s) = mems s := by
  unfold finishEntry
  split <;> simp

@[simp] theorem mems_returnRole (p : Nat) (s : State) : mems (returnRole p s) = mems s := by
  unfold returnRole
  dsimp only
  split <;> simp

@[simp] theorem mems_leavePair (r : JobRef) (s : State) : mems (leavePair r s) = mems s := by
  unfold leavePair
  split <;> simp

@[simp] theorem mems_releaseHold (j : Job) (s : State) : mems (releaseHold j s) = mems s := by
  simp [releaseHold]

@[simp] theorem mems_leavePk (r : JobRef) (s : State) : mems (leavePk r s) = mems s := by simp [leavePk]

@[simp] theorem mems_freeRetiring (n gen : Nat) (s : State) : mems (freeRetiring n gen s) = mems s := by
  unfold freeRetiring
  split <;> simp

@[simp] theorem canonical_flushMirrors {f : Nat} {s : State} (h : Canonical (mems s)) :
    Canonical (mems (flushMirrors f s)) := canonical_foldl (fun _ _ hs => canonical_writeMirror hs) _ h

@[simp] theorem canonical_enterD3 {f : Nat} {s : State} (h : Canonical (mems s)) :
    Canonical (mems (enterD3 f s)) := by simp [enterD3, h]

@[simp] theorem canonical_disturb {j : Job} {s : State} (h : Canonical (mems s)) : Canonical (mems (disturb j s)) := by
  unfold disturb
  split
  · exact canonical_foldl (fun _ _ hs => by simp [hs]) _ h
  · exact h

@[simp] theorem canonical_scrub {j : Job} {s : State} (h : Canonical (mems s)) :
    Canonical (mems (scrub j s)) := by simp [scrub, h]

@[simp] theorem canonical_squash {j : Job} {s : State} (h : Canonical (mems s)) :
    Canonical (mems (squash j s)) := by simp [squash, h]

@[simp] theorem canonical_dropOne {j : Job} {s : State} (h : Canonical (mems s)) :
    Canonical (mems (dropOne j s)) := by simp [dropOne, h]

@[simp] theorem canonical_closeCall {r : JobRef} {s : State} (h : Canonical (mems s)) :
    Canonical (mems (closeCall r s)) := by
  unfold closeCall
  split
  · exact h
  · next c _ =>
    have hz : Memory.wf s.mem = true ∧ Memory.wf (zeroPages (zeroOf s c.ext) s.cram) = true :=
      ⟨h.1, zeroPages_wf _ _ h.2⟩
    dsimp only
    split
    · simp [hz]
    · simp [hz]

@[simp] theorem canonical_dropJob {j : Job} {s : State} (h : Canonical (mems s)) :
    Canonical (mems (dropJob j s)) := by simp [dropJob, h]

@[simp] theorem canonical_returnRecord {j : Job} {d : Done} {s : State} (h : Canonical (mems s)) :
    Canonical (mems (returnRecord j d s)) := by
  unfold returnRecord
  split
  · exact h
  · next c _ =>
    refine ⟨h.1, ?_⟩
    change Memory.wf ((c.recAt.map fun a => Memory.putAll s.cram a (recordBytes j d s.now)).getD s.cram) = true
    generalize recordBytes j d s.now = b
    cases c.recAt with
    | none => exact h.2
    | some a => exact Memory.wf_putAll _ _ _ h.2

@[simp] theorem canonical_completeJob {j : Job} {d : Done} {s : State} (h : Canonical (mems s)) :
    Canonical (mems (completeJob j d s)) := by
  simp [completeJob, h]

@[simp] theorem mems_suppress (j : Job) (d : Done) (silent : Bool) (s : State) :
    mems (suppress j d silent s) = mems s := by simp [suppress]

@[simp] theorem canonical_awaitReads {j : Job} {d : Done} {s : State} (h : Canonical (mems s)) :
    Canonical (mems (awaitReads j d s)) := by
  simp [awaitReads, h]

@[simp] theorem canonical_endJob {j : Job} {d : Done} {atOnce : Bool} {s : State} (h : Canonical (mems s)) :
    Canonical (mems (endJob j d atOnce s)) := by
  have hc : Canonical (mems (completeJob j (j.stop.getD d) (squash j s))) := canonical_completeJob (canonical_squash h)
  simp [endJob, h, hc]

@[simp] theorem canonical_readsSettled {j : Job} {s : State} (h : Canonical (mems s)) :
    Canonical (mems (readsSettled j s)) := by
  simp [readsSettled, h]

@[simp] theorem canonical_endJobs {p : Job → Bool} {d : Job → Done} {atOnce : Bool} {s : State} (h : Canonical (mems s)) :
    Canonical (mems (endJobs p d atOnce s)) :=
  canonical_foldl (fun s j hs => by split <;> simp [hs]) _ h

@[simp] theorem mems_releaseEntry (j : Job) (s : State) : mems (releaseEntry j s) = mems s := by
  unfold releaseEntry
  dsimp only
  split <;> simp

@[simp] theorem mems_releaseRunAhead (f : Nat) (s : State) : mems (releaseRunAhead f s) = mems s := by
  simp [releaseRunAhead]

/-! ## Frames and sessions of the management port (Machine/Frames.lean) -/

@[simp] theorem mems_sendFrames (r : SessPath) (fs : List Bytes) (s : State) :
    mems (sendFrames r fs s) = mems s := by
  unfold sendFrames
  split
  · rw [mems_ite]
    split
    · exact mems_foldl (fun s f => by simp) fs s
    · rfl
  · simp

@[simp] theorem mems_modSession (id : Nat) (h : Session → Session) (s : State) :
    mems (modSession id h s) = mems s := by simp [modSession]

@[simp] theorem mems_endSession (x : Session) (how : Nat) (s : State) :
    mems (endSession x how s) = mems s := by simp [endSession]

@[simp] theorem mems_endSessions (p : Session → Bool) (s : State) : mems (endSessions p s) = mems s := by
  simp [endSessions]

@[simp] theorem mems_flushSession (id : Nat) (l : List Reply) (s : State) :
    mems (flushSession id l s) = mems s := by
  induction l generalizing s with
  | nil => rfl
  | cons m r ih =>
    unfold flushSession
    split
    · rfl
    · simp [ih]

@[simp] theorem mems_sendReply (id : Nat) (m : Reply) (s : State) : mems (sendReply id m s) = mems s := by
  unfold sendReply
  split <;> simp

@[simp] theorem mems_respond (id : Nat) (d : Done) (out : Bytes) (s : State) :
    mems (respond id d out s) = mems s := by
  unfold respond
  split
  · simp
  · split <;> simp

@[simp] theorem mems_drainWaiting (ch : Nat) (s : State) : mems (drainWaiting ch s) = mems s :=
  mems_foldl (fun s x => by simp) _ s

@[simp] theorem mems_sendError (r : SessPath) (code session : Nat) (s : State) :
    mems (sendError r code session s) = mems s := by simp [sendError]

/-! ## Queues and the admin queue (Machine/Queues.lean) -/

@[simp] theorem mems_refuseIndex (f q : Nat) (v : Word) (isCq : Bool) (s : State) :
    mems (refuseIndex f q v isCq s) = mems s := by simp [refuseIndex]

@[simp] theorem lands_execFnJqPiWrite {f q : Nat} {v : Word} {s : State} (h : Canonical (mems s)) : Lands (execFnJqPiWrite f q v s) := by
  unfold execFnJqPiWrite
  split
  · split <;> simp [h]
  · simp [h]

@[simp] theorem mems_passSlots (f q : Nat) (i : Word) (n : Nat) (s : State) :
    mems (passSlots f q i n s) = mems s := by
  unfold passSlots
  split <;> simp

@[simp] theorem mems_passEntry (f q : Nat) (x : JobQueue) (n : Nat) (s : State) :
    mems (passEntry f q x n s) = mems s := by simp [passEntry]

@[simp] theorem mems_takeEntry (f q : Nat) (x : JobQueue) (s : State) :
    mems (takeEntry f q x s) = mems s := by
  unfold takeEntry
  split
  · dsimp only
    split
    · simp
    · split <;> simp
  · dsimp only
    split
    · simp
    · split <;> simp

@[simp] theorem mems_fetchFrom (f q : Nat) (s : State) : mems (fetchFrom f q s) = mems s := by
  unfold fetchFrom
  split <;> simp

@[simp] theorem lands_execEntryFetch {s : State} (h : Canonical (mems s)) : Lands (execEntryFetch s) := by
  unfold execEntryFetch
  split
  · simp [h]
  · split
    · simp [h]
    · split
      · split <;> simp [h]
      · simp [h]

@[simp] theorem lands_execPad {f q : Nat} {s : State} (h : Canonical (mems s)) : Lands (execPad f q s) := by
  unfold execPad
  split <;> simp [h]

@[simp] theorem lands_execNop {r : JobRef} {s : State} (h : Canonical (mems s)) : Lands (execNop r s) := by
  unfold execNop
  split <;> simp [h]

@[simp] theorem lands_execCommitRefusal {r : JobRef} {s : State} (h : Canonical (mems s)) : Lands (execCommitRefusal r s) := by
  unfold execCommitRefusal
  split
  · simp [h]
  · split
    · split <;> simp [h]
    · split
      · split <;> simp [h]
      · simp [h]

@[simp] theorem mems_txMismatches (n : Nat) (s : State) : mems (txMismatches n s) = mems s := by
  simp [txMismatches]

@[simp] theorem lands_transmits {n : Nat} {s : State} {h : State → Outcome State}
    (hk : Lands (h (txMismatches n s))) (hs : Canonical (mems s)) : Lands (transmits n s h) := by
  unfold transmits
  split
  · simp [hs]
  · exact hk

@[simp] theorem lands_execJobCompletion {r : JobRef} {more : Bool} {resent : Nat} {s : State} (h : Canonical (mems s)) : Lands (execJobCompletion r more resent s) := by
  unfold execJobCompletion
  split
  · simp [h]
  · split <;> simp [h]

@[simp] theorem lands_execMirrorWrite {f q resent : Nat} {s : State} (h : Canonical (mems s)) :
    Lands (execMirrorWrite f q resent s) := by
  unfold execMirrorWrite
  split <;> simp [h]

@[simp] theorem lands_execModerationTimer {f v : Nat} {s : State} (h : Canonical (mems s)) : Lands (execModerationTimer f v s) := by
  simp [execModerationTimer, h]

@[simp] theorem mems_abandonCeremony (r : JobRef) (s : State) : mems (abandonCeremony r s) = mems s := by
  unfold abandonCeremony
  split <;> simp

@[simp] theorem mems_abandonAdmin (j : Job) (s : State) : mems (abandonAdmin j s) = mems s := by
  simp [abandonAdmin]

@[simp] theorem lands_execJobTimeout {r : JobRef} {s : State} (h : Canonical (mems s)) : Lands (execJobTimeout r s) := by
  unfold execJobTimeout
  split <;> simp [h]

@[simp] theorem lands_runAdmin {f op : Nat} {body : Job → State → Done × State} {s : State}
    (hb : ∀ j, Canonical (mems (body j s).2)) (h : Canonical (mems s)) : Lands (runAdmin f op body s) := by
  unfold runAdmin
  split <;> simp [h, hb]

@[simp] theorem mems_startReads (r : JobRef) (s : State) : mems (startReads r s) = mems s := by
  simp [startReads]

@[simp] theorem mems_afterReads {h : State → Option Done × State} {j : Job} {s : State}
    (hk : mems (h s).2 = mems s) : mems (afterReads j s h).2 = mems s := by
  unfold afterReads
  split
  · exact hk
  · split <;> simp

theorem canonical_afterReads {h : State → Option Done × State} {j : Job} {s : State}
    (hk : Canonical (mems (h s).2)) (hs : Canonical (mems s)) : Canonical (mems (afterReads j s h).2) := by
  unfold afterReads
  split
  · exact hk
  · split <;> simp [hs]

@[simp] theorem lands_runAdminSteps {f op : Nat} {body : Job → State → Option Done × State} {s : State}
    (hb : ∀ j, Canonical (mems (body j s).2)) (h : Canonical (mems s)) : Lands (runAdminSteps f op body s) := by
  unfold runAdminSteps
  split
  · simp [h]
  · next j _ =>
    have hj := hb j
    split <;> simp_all

@[simp] theorem mems_checked {effect : State → State} (h : ∀ s, mems (effect s) = mems s) (rows : List (Bool × Done))
    (ok : Done) (s : State) : mems (checked rows effect ok s).2 = mems s := by
  unfold checked
  split <;> simp [h]

theorem canonical_checked {effect : State → State} (he : ∀ s, Canonical (mems s) → Canonical (mems (effect s)))
    {rows : List (Bool × Done)} {ok : Done} {s : State} (h : Canonical (mems s)) :
    Canonical (mems (checked rows effect ok s).2) := by
  unfold checked
  split
  · exact h
  · exact he _ h

@[simp] theorem lands_execCreateJq {f : Nat} {s : State} (h : Canonical (mems s)) : Lands (execCreateJq f s) := by
  refine lands_runAdmin (fun j => ?_) h
  rw [mems_checked]
  · exact h
  · exact fun _ => rfl

@[simp] theorem lands_execCreateCq {f : Nat} {s : State} (h : Canonical (mems s)) : Lands (execCreateCq f s) := by
  refine lands_runAdmin (fun j => ?_) h
  rw [mems_checked]
  · exact h
  · exact fun _ => rfl

@[simp] theorem lands_execDestroyCq {f : Nat} {s : State} (h : Canonical (mems s)) : Lands (execDestroyCq f s) := by
  refine lands_runAdmin (fun j => ?_) h
  rw [mems_checked]
  · exact h
  · exact fun _ => rfl

@[simp] theorem canonical_drainJob {cause : Nat} {j : Job} {s : State} (h : Canonical (mems s)) :
    Canonical (mems (drainJob cause j s)) := by
  simp [drainJob, h]

@[simp] theorem canonical_drainStart {f q cause : Nat} {s : State} (h : Canonical (mems s)) :
    Canonical (mems (drainStart f q cause s)) := by
  unfold drainStart
  split
  · exact h
  · exact canonical_foldl (fun s j hs => by split <;> simp [hs]) _ h

@[simp] theorem canonical_drainAt {f q cause : Nat} {i : Word} {s : State} (h : Canonical (mems s)) :
    Canonical (mems (drainAt f q cause i s).2.2) := by
  unfold drainAt
  split
  · simp [h]
  · split
    · split
      · simp [h]
      · split
        · simp [h]
        · split
          · simp [h]
          · split <;> simp [h]
    · split
      · simp [h]
      · split
        · simp [h]
        · split
          · dsimp only
            split <;> simp [h]
          · dsimp only
            split <;> simp [h]

@[simp] theorem canonical_drainWalk {f q cause n : Nat} {i : Word} {lost : Bool} {s : State} (h : Canonical (mems s)) :
    Canonical (mems (drainWalk f q cause n i lost s).2.2) := by
  induction n generalizing i lost s with
  | zero => exact h
  | succ n ih =>
    have ha : Canonical (mems (drainAt f q cause i s).2.2) := canonical_drainAt h
    unfold drainWalk
    split
    · exact h
    · split
      · exact h
      · split
        · simp_all
        · next e => rw [e] at ha; exact ih ha

@[simp] theorem canonical_drainRun {f q cause : Nat} {remove : Bool} {s : State} (h : Canonical (mems s)) :
    Canonical (mems (drainRun f q cause remove s).2.2) := by
  unfold drainRun
  split
  · exact h
  · dsimp only
    split
    · split
      · simp [h]
      · split <;> simp [h]
    · simp [h]

@[simp] theorem canonical_drainCommand {f cause : Nat} {remove : Bool} {j : Job} {s : State} (h : Canonical (mems s)) :
    Canonical (mems (drainCommand f cause remove j s).2) := by
  have start : ∀ q, Canonical (mems (drainStart f q cause s)) := fun q => canonical_drainStart h
  have run : ∀ q u, Canonical (mems u) → Canonical (mems (drainRun f q cause remove u).2.2) :=
    fun q u hu => canonical_drainRun hu
  unfold drainCommand
  split
  · split
    · exact h
    · dsimp only
      split
      · exact start _
      · split
        · exact run _ _ (start _)
        · exact run _ _ (start _)
  · dsimp only
    split
    · exact run _ _ h
    · exact run _ _ h

@[simp] theorem lands_execDestroyJq {f : Nat} {s : State} (h : Canonical (mems s)) : Lands (execDestroyJq f s) :=
  lands_runAdminSteps (fun _ => canonical_drainCommand h) h

@[simp] theorem lands_execResetJq {f : Nat} {s : State} (h : Canonical (mems s)) : Lands (execResetJq f s) :=
  lands_runAdminSteps (fun _ => canonical_drainCommand h) h

@[simp] theorem lands_execAdminQueueEnable {f : Nat} {v : Word} {s : State} (h : Canonical (mems s)) : Lands (execAdminQueueEnable f v s) := by simp [execAdminQueueEnable, h]

@[simp] theorem canonical_drainList {f : Nat} {l : List Nat} {s : State} (h : Canonical (mems s)) :
    Canonical (mems (drainList f l s).2) := by
  induction l generalizing s with
  | nil => exact h
  | cons q r ih =>
    simp only [drainList]
    split
    · exact ih (canonical_drainRun h)
    · exact canonical_drainRun h

@[simp] theorem canonical_drainBegin {f : Nat} {l : List Nat} {s : State} (h : Canonical (mems s)) :
    Canonical (mems (drainBegin f l s)) := canonical_foldl (fun s q hs => by simp [hs]) _ h

@[simp] theorem canonical_disableRun {f : Nat} {s : State} (h : Canonical (mems s)) :
    Canonical (mems (disableRun f s)) := by
  have hd : Canonical (mems (drainList f (boundQueues (s.fn f)) (drainBegin f (boundQueues (s.fn f)) s)).2) :=
    canonical_drainList (canonical_drainBegin h)
  have ha := canonical_drainList (f := f) (l := [0]) (canonical_drainBegin (f := f) (l := [0]) hd)
  simp [disableRun, hd, ha]

@[simp] theorem canonical_disableStep {f : Nat} {s : State} (h : Canonical (mems s)) :
    Canonical (mems (disableStep f s)) := by
  simp [disableStep, h]

@[simp] theorem lands_settledOn {f : Nat} {old t : State} (h : Canonical (mems t)) : Lands (settledOn f old t) := by
  simp [settledOn, h]

@[simp] theorem lands_execFnCqCiWrite {f q : Nat} {v : Word} {s : State} (h : Canonical (mems s)) : Lands (execFnCqCiWrite f q v s) := by
  unfold execFnCqCiWrite
  split
  · split <;> simp [h]
  · simp [h]

@[simp] theorem lands_execAdminQueueDisable {f : Nat} {v : Word} {s : State} (h : Canonical (mems s)) : Lands (execAdminQueueDisable f v s) := by simp [execAdminQueueDisable, h]

@[simp] theorem mems_aerRead (f b : Nat) (s : State) : mems (aerRead f b s) = mems s := by simp [aerRead]

@[simp] theorem canonical_failRead {j : Job} {detail aer : Nat} {s : State} (h : Canonical (mems s)) :
    Canonical (mems (failRead j detail aer s)) := by simp [failRead, h]

@[simp] theorem mems_failRing (f q aer : Nat) (s : State) : mems (failRing f q aer s) = mems s := by
  unfold failRing
  split <;> simp

@[simp] theorem mems_endReading (k : JobRef) (aer : Option Nat) (s : State) :
    mems (endReading k aer s) = mems s := by
  unfold endReading
  split
  · split <;> simp
  · simp

@[simp] theorem mems_readsArrive (j : Job) (s : State) : mems (readsArrive j s) = mems s := by
  simp [readsArrive]

@[simp] theorem canonical_readEnds {j : Job} {fault : Option (Nat × Nat)} {s : State} (h : Canonical (mems s)) :
    Canonical (mems (readEnds j fault s)) := by
  unfold readEnds
  split
  · split <;> simp [h]
  · split <;> simp [h]

@[simp] theorem lands_execDmaReadCompletion {t : ReadTarget} {r : ReadStatus} {s : State} (h : Canonical (mems s)) : Lands (execDmaReadCompletion t r s) := by
  unfold execDmaReadCompletion
  split
  · split <;> simp [h]
  · split <;> simp [h]

@[simp] theorem lands_execCompletionTimeout {t : ReadTarget} {s : State} (h : Canonical (mems s)) : Lands (execCompletionTimeout t s) := by
  unfold execCompletionTimeout
  split
  · simp [h]
  · split
    · split <;> simp [h]
    · simp [h]

/-! ## Key slots (Machine/Slots.lean) -/

@[simp] theorem mems_passBlocks (g blocks : Nat) (s : State) : mems (passBlocks g blocks s) = mems s := by
  simp [passBlocks]

@[simp] theorem mems_drawMask (g n : Nat) (s : State) : mems (drawMask g n s).2 = mems s := by
  simp [drawMask]

@[simp] theorem mems_maskKey (g : Nat) (k : Bytes) (s : State) : mems (maskKey g k s).2 = mems s := by
  simp [maskKey]

@[simp] theorem mems_remask (g : Nat) (k : Masked) (s : State) : mems (remask g k s).2 = mems s := by
  simp [remask]

@[simp] theorem mems_markBad (n : Nat) (s : State) : mems (markBad n s) = mems s := by simp [markBad]

@[simp] theorem mems_chargeUsage (n : Nat) (s : State) : mems (chargeUsage n s) = mems s := by
  simp [chargeUsage]

@[simp] theorem mems_startCheckpoint (e : Bytes) (s : State) : mems (startCheckpoint e s) = mems s := by
  unfold startCheckpoint
  split <;> simp

@[simp] theorem mems_loadKeys (ga gb : Nat) (j : Job) (s : State) :
    mems (loadKeys ga gb j s).2 = mems s := by simp [loadKeys]

@[simp] theorem mems_freshCopies (c : SlotCopy) (ka kb : Bytes) (s : State) :
    mems (freshCopies c ka kb s).2 = mems s := by simp [freshCopies]

@[simp] theorem mems_movedCopies (h : SlotCopy → SlotCopy) (x : Slot) (s : State) :
    mems (movedCopies h x s).2 = mems s := by simp [movedCopies]

theorem mems_of_placeKey {n : Nat} {c : SlotCopy × SlotCopy} {point : Nat} {s t : State} (h : placeKey n c point s = some t) :
    mems t = mems s := by
  obtain ⟨b, -, rfl⟩ := Option.map_eq_some_iff.mp h
  rfl

@[simp] theorem mems_blobsDiffer (l : List Nat) (s : State) : mems (blobsDiffer l s).2 = mems s := by
  simp [blobsDiffer]

@[simp] theorem mems_putReserved (n : Nat) (ka kb : Bytes) (s : State) :
    mems (putReserved n ka kb s) = mems s := by simp [putReserved]

@[simp] theorem mems_putAttest (s : State) : mems (putAttest s) = mems s := by simp [putAttest]

@[simp] theorem mems_putDomain (dka dkb id : Bytes) (s : State) :
    mems (putDomain dka dkb id s) = mems s := by simp [putDomain]

@[simp] theorem mems_reloadSlot (n : Nat) (okA okB : Bool) (s : State) :
    mems (reloadSlot n okA okB s).2 = mems s := by
  unfold reloadSlot
  split
  · split <;> simp
  · simp

@[simp] theorem mems_eraseAllSets (s : State) : mems (eraseAllSets s) = mems s := by simp [eraseAllSets]

/-! ## Pairs and ciphers (Machine/Fabric.lean) -/

@[simp] theorem mems_chargeCredits (s : State) (p : Nat) (j : Job) :
    mems (chargeCredits s p j) = mems s := by simp [chargeCredits]

@[simp] theorem mems_noteTurn (j : Job) (step : Nat) (s : State) : mems (noteTurn j step s) = mems s := by
  simp [noteTurn]

@[simp] theorem mems_firstCommit (p : Nat) (j : Job) (s : State) : mems (firstCommit p j s).2 = mems s := by
  unfold firstCommit
  split <;> simp

@[simp] theorem mems_halfRefuses (j : Job) (s : State) : mems (halfRefuses j s) = mems s := by
  unfold halfRefuses
  split <;> simp

@[simp] theorem mems_intakeDiffers (j : Job) (s : State) : mems (intakeDiffers j s) = mems s := by
  simp [intakeDiffers]

@[simp] theorem mems_placeOnPair (p : Nat) (j : Job) (step : Nat) (intakeOk : Bool) (s : State) :
    mems (placeOnPair p j step intakeOk s) = mems s := by
  unfold placeOnPair
  split <;> simp

@[simp] theorem mems_noteLeaseWait (s : State) (j : Job) : mems (noteLeaseWait s j) = mems s := by
  simp [noteLeaseWait]

@[simp] theorem mems_noteLeaseWaits (s : State) : mems (noteLeaseWaits s) = mems s := by
  simp [noteLeaseWaits]

@[simp] theorem mems_dispatchPair (p : Nat) (intakeOk : Bool) (s : State) :
    mems (dispatchPair p intakeOk s) = mems s := by
  unfold dispatchPair
  split
  · split <;> simp
  · simp

@[simp] theorem canonical_leaveTrace {j : Job} {s : State} (h : Canonical (mems s)) :
    Canonical (mems (leaveTrace j s).2) := by
  unfold leaveTrace
  split
  · split
    · dsimp only
      split <;> simp [h]
    · simp [h]
  · simp [h]

@[simp] theorem canonical_withdraw {j : Job} {s : State} (h : Canonical (mems s)) :
    Canonical (mems (withdraw j s)) := by simp [withdraw, h]

@[simp] theorem mems_changeRole (p : Nat) (old new : PairState) (s : State) :
    mems (changeRole p old new s) = mems s := by simp [changeRole]

@[simp] theorem mems_standIn (p : Nat) (role : PairState) (s : State) :
    mems (standIn p role s) = mems s := by
  unfold standIn
  split <;> simp

@[simp] theorem mems_countCause (cause : Nat) (s : State) : mems (countCause cause s) = mems s := by
  simp [countCause]

@[simp] theorem canonical_fencePair {p cause : Nat} {s : State} (h : Canonical (mems s)) :
    Canonical (mems (fencePair p cause s)) := by
  unfold fencePair
  dsimp only
  split
  · simp [h]
  · split
    · rw [mems_modPair]
      exact canonical_foldl (fun s j hs => canonical_withdraw hs) _ (by simp [h])
    · exact h

@[simp] theorem lands_execPairFault {p cause : Nat} {s : State} (h : Canonical (mems s)) : Lands (execPairFault p cause s) := by
  simp [execPairFault, h]

@[simp] theorem mems_endStandIn (p : Nat) (keeps : Bool) (s : State) :
    mems (endStandIn p keeps s) = mems s := by
  unfold endStandIn
  split <;> simp

@[simp] theorem lands_execPairKatVerdict {p : Nat} {a b : Bool} {s : State} (h : Canonical (mems s)) : Lands (execPairKatVerdict p a b s) := by simp [execPairKatVerdict, h]

@[simp] theorem lands_execSpareKat {a b : Bool} {s : State} (h : Canonical (mems s)) : Lands (execSpareKat a b s) := by
  unfold execSpareKat
  split <;> simp [h]

@[simp] theorem lands_execJobRetry {r : JobRef} {s : State} (h : Canonical (mems s)) : Lands (execJobRetry r s) := by
  unfold execJobRetry
  split
  · simp [h]
  · split
    · split
      · simp [h]
      · split <;> simp [h]
    · simp [h]

@[simp] theorem mems_serveLanes (p : Nat) (s : State) : mems (serveLanes p s) = mems s := by
  simp [serveLanes]

@[simp] theorem lands_runCipher {r : JobRef} {op resent : Nat} {body : Job → State → State} {s : State}
    (hb : ∀ j t, Canonical (mems t) → Canonical (mems (body j t))) (h : Canonical (mems s)) :
    Lands (runCipher r op resent body s) := by
  unfold runCipher
  split
  · simp [h]
  · split
    · simp [h]
    · exact lands_transmits (by simp [hb, h]) h

@[simp] theorem canonical_sealJob {j : Job} {s : State} (h : Canonical (mems s)) :
    Canonical (mems (sealJob j s)) := by simp [sealJob, h]

@[simp] theorem lands_execSeal {j : JobRef} {resent : Nat} {s : State} (h : Canonical (mems s)) :
    Lands (execSeal j resent s) := lands_runCipher (fun _ _ => canonical_sealJob) h

@[simp] theorem mems_endUnseal (j : Job) (d : Done) (n : Nat) (s : State) :
    mems (endUnseal j d n s) = mems s := by simp [endUnseal]

@[simp] theorem canonical_unsealJob {j : Job} {s : State} (h : Canonical (mems s)) :
    Canonical (mems (unsealJob j s)) := by
  unfold unsealJob
  split
  · dsimp only
    split <;> simp [h]
  · dsimp only
    split <;> simp [h]

@[simp] theorem lands_execUnseal {j : JobRef} {resent : Nat} {s : State} (h : Canonical (mems s)) :
    Lands (execUnseal j resent s) := lands_runCipher (fun _ _ => canonical_unsealJob) h

@[simp] theorem canonical_checkGenJob {j : Job} {s : State} (h : Canonical (mems s)) :
    Canonical (mems (checkGenJob j s)) := by
  simp [checkGenJob, h]

@[simp] theorem lands_execCheckGen {j : JobRef} {resent : Nat} {s : State} (h : Canonical (mems s)) :
    Lands (execCheckGen j resent s) := lands_runCipher (fun _ _ => canonical_checkGenJob) h

@[simp] theorem mems_checkVerifyJob (j : Job) (s : State) : mems (checkVerifyJob j s) = mems s := by
  simp [checkVerifyJob]

@[simp] theorem lands_execCheckVerify {j : JobRef} {s : State} (h : Canonical (mems s)) : Lands (execCheckVerify j s) := by
  simp [execCheckVerify, h]

@[simp] theorem canonical_rawJob {j : Job} {s : State} (h : Canonical (mems s)) :
    Canonical (mems (rawJob j s)) := by simp [rawJob, h]

@[simp] theorem lands_execRawEncrypt {j : JobRef} {resent : Nat} {s : State} (h : Canonical (mems s)) :
    Lands (execRawEncrypt j resent s) := lands_runCipher (fun _ _ => canonical_rawJob) h

@[simp] theorem lands_execRawDecrypt {j : JobRef} {resent : Nat} {s : State} (h : Canonical (mems s)) :
    Lands (execRawDecrypt j resent s) := lands_runCipher (fun _ _ => canonical_rawJob) h

@[simp] theorem lands_execCreditRescale {s : State} (h : Canonical (mems s)) : Lands (execCreditRescale s) := by
  simp [execCreditRescale, h]

@[simp] theorem mems_avsOk (s : State) : mems (avsOk s) = mems s := by simp [avsOk]

@[simp] theorem mems_avsFail (s : State) : mems (avsFail s) = mems s := by simp [avsFail]

@[simp] theorem mems_avsTry (n : Nat) (oks : List Bool) (s : State) : mems (avsTry n oks s).2 = mems s := by
  induction n generalizing oks s with
  | zero => rfl
  | succ n ih =>
    unfold avsTry
    split <;> simp [ih]

@[simp] theorem mems_vlimitCheck (s : State) : mems (vlimitCheck s) = mems s := by simp [vlimitCheck]

@[simp] theorem mems_avsCommand (v : Nat) (oks : List Bool) (s : State) : mems (avsCommand v oks s) = mems s := by
  unfold avsCommand
  dsimp only
  split <;> simp

@[simp] theorem mems_railRead (mv : Nat) (s : State) : mems (railRead mv s) = mems s := by simp [railRead]

@[simp] theorem mems_avsAsk (s : State) : mems (avsAsk s) = mems s := by simp [avsAsk]

@[simp] theorem lands_execAvsLoop {cycle : Nat} {oks : List Bool} {mv : Nat} {s : State} (h : Canonical (mems s)) : Lands (execAvsLoop cycle oks mv s) := by
  unfold execAvsLoop
  split
  · simp [h]
  · split
    · split <;> simp [h]
    · simp [h]

@[simp] theorem lands_execAvsGuard {cycle : Nat} {oks : List Bool} {s : State} (h : Canonical (mems s)) : Lands (execAvsGuard cycle oks s) := by simp [execAvsGuard, h]

@[simp] theorem lands_execMaskGeneratorReseed {g : Nat} {s : State} (h : Canonical (mems s)) : Lands (execMaskGeneratorReseed g s) := by simp [execMaskGeneratorReseed, h]

@[simp] theorem lands_execCheckpointWriteDone {n : Nat} {s : State} (h : Canonical (mems s)) : Lands (execCheckpointWriteDone n s) := by
  unfold execCheckpointWriteDone
  split <;> simp [h]

/-! ## Public-key cores (Machine/Pk.lean) -/

@[simp] theorem mems_dispatchPk (s : State) : mems (dispatchPk s) = mems s := by
  unfold dispatchPk
  split
  · simp
  · split
    · simp
    · split <;> simp

@[simp] theorem mems_resumeParked (c : Nat) (s : State) : mems (resumeParked c s) = mems s := by
  unfold resumeParked
  dsimp only
  split <;> simp

@[simp] theorem mems_present (j : Job) (s : State) : mems (present j s).2 = mems s := by simp [present]

@[simp] theorem mems_takeJob (c : Nat) (j : Job) (s : State) : mems (takeJob c j s) = mems s := by
  unfold takeJob
  dsimp only
  split
  · simp
  · split <;> simp

@[simp] theorem lands_execPkJobStart {core : Nat} {s : State} (h : Canonical (mems s)) : Lands (execPkJobStart core s) := by
  unfold execPkJobStart
  split <;> simp [h]

@[simp] theorem mems_drawAgain (j : Job) (s : State) : mems (drawAgain j s) = mems s := by simp [drawAgain]

@[simp] theorem lands_compute {r : JobRef} {op : Nat} {body : Job → State → Option PkResult} {s : State} (h : Canonical (mems s)) : Lands (compute r op body s) := by
  unfold compute
  split
  · simp [h]
  · split <;> simp [h]

@[simp] theorem lands_execPkSign {j : JobRef} {s : State} (h : Canonical (mems s)) : Lands (execPkSign j s) := by simp [execPkSign, h]

@[simp] theorem lands_execPkVerify {j : JobRef} {s : State} (h : Canonical (mems s)) : Lands (execPkVerify j s) := by
  simp [execPkVerify, h]

@[simp] theorem lands_execPkKeygen {j : JobRef} {s : State} (h : Canonical (mems s)) : Lands (execPkKeygen j s) := by
  simp [execPkKeygen, h]

@[simp] theorem lands_execPkAgree {j : JobRef} {s : State} (h : Canonical (mems s)) : Lands (execPkAgree j s) := by simp [execPkAgree, h]

@[simp] theorem lands_execPkEncaps {j : JobRef} {s : State} (h : Canonical (mems s)) : Lands (execPkEncaps j s) := by
  simp [execPkEncaps, h]

@[simp] theorem lands_execPkDecaps {j : JobRef} {s : State} (h : Canonical (mems s)) : Lands (execPkDecaps j s) := by
  simp [execPkDecaps, h]

@[simp] theorem canonical_endStopped {j : Job} {d : Done} {s : State} (h : Canonical (mems s)) :
    Canonical (mems (endStopped j d s)) := by
  simp [endStopped, h]

@[simp] theorem lands_execPkYieldPoint {core : Nat} {s : State} (h : Canonical (mems s)) : Lands (execPkYieldPoint core s) := by
  unfold execPkYieldPoint
  dsimp only
  split
  · simp [h]
  · split
    · simp [h]
    · split
      · split <;> simp [h]
      · simp [h]

@[simp] theorem mems_placeSecret (j : Job) (p : PkResult) (s : State) : mems (placeSecret j p s).2 = mems s := by
  unfold placeSecret
  split
  · split
    · rfl
    · split
      · rfl
      · dsimp only
        split
        · next h => simp [mems_of_placeKey h]
        · simp
  · rfl

@[simp] theorem canonical_writeOuts {j : Job} {p : PkResult} {s : State} (h : Canonical (mems s)) :
    Canonical (mems (writeOuts j p s)) := by
  simp [writeOuts, h]

@[simp] theorem canonical_restartJob {core : Nat} {j : Job} {detail : Nat} {s : State} (h : Canonical (mems s)) :
    Canonical (mems (restartJob core j detail s)) := by
  unfold restartJob
  split <;> simp [h]

@[simp] theorem mems_failCore (c : Nat) (s : State) : mems (failCore c s) = mems s := by
  unfold failCore
  dsimp only
  split <;> simp

@[simp] theorem canonical_coreFault {core detail : Nat} {s : State} (h : Canonical (mems s)) :
    Canonical (mems (coreFault core detail s)) := by
  unfold coreFault
  dsimp only
  split
  · split <;> simp [h]
  · simp [h]

@[simp] theorem lands_execPkCoreFault {core detail : Nat} {s : State} (h : Canonical (mems s)) : Lands (execPkCoreFault core detail s) := by
  unfold execPkCoreFault
  split <;> simp [h]

@[simp] theorem lands_execPkCoreKatVerdict {core : Nat} {pass : Bool} {s : State} (h : Canonical (mems s)) : Lands (execPkCoreKatVerdict core pass s) := by simp [execPkCoreKatVerdict, h]

@[simp] theorem lands_execPkFinishPoint {core : Nat} {s : State} (h : Canonical (mems s)) :
    Lands (execPkFinishPoint core s) := by
  unfold execPkFinishPoint
  split
  · exact (lands_next _).mpr h
  · next j _ =>
    split
    · exact (lands_next _).mpr h
    · next p _ =>
      split
      · exact lands_settledOn (canonical_endStopped (canonical_disturb h))
      · split
        · exact lands_settledOn (canonical_coreFault h)
        · have hw : Canonical (mems (if isOk (placeSecret j p s).1 then writeOuts j p (placeSecret j p s).2
              else (placeSecret j p s).2)) := by split <;> simp [h]
          exact lands_settled.mpr (canonical_writeMirror (canonical_completeJob hw))

/-! ## The random bit generator (Machine/Rng.lean) -/

@[simp] theorem mems_instantiate (w : Bytes) (s : State) : mems (instantiate w s) = mems s := by
  simp [instantiate]

@[simp] theorem mems_reseed (w : Bytes) (s : State) : mems (reseed w s) = mems s := by simp [reseed]

@[simp] theorem mems_generate (s : State) : mems (generate s).2 = mems s := by simp [generate]

@[simp] theorem mems_credit (w : Bytes) (s : State) : mems (credit w s) = mems s := by simp [credit]

@[simp] theorem mems_restartNow (s : State) : mems (restartNow s) = mems s := by
  unfold restartNow
  split <;> simp

@[simp] theorem mems_windowEnds (src : Nat) (w : WindowReading) (s : State) :
    mems (windowEnds src w s) = mems s := by
  unfold windowEnds
  split <;> simp

theorem mems_of_firstSeed {s t : State} (h : firstSeed s = some t) : mems t = mems s := by
  unfold firstSeed at h
  split at h
  · split at h
    · cases h
    · cases h; simp
  · cases h

@[simp] theorem mems_serveReads (f n : Nat) (s : State) : mems (serveReads f n s) = mems s := by
  induction n generalizing s with
  | zero => rfl
  | succ n ih =>
    unfold serveReads
    dsimp only
    split
    · rfl
    · simp [ih]

@[simp] theorem lands_execFnRngDataRead {f off : Nat} {en : List Bool} {s : State} (h : Canonical (mems s)) : Lands (execFnRngDataRead f off en s) := by simp [execFnRngDataRead, h]

@[simp] theorem lands_execRngReadStallLimit {f : Nat} {s : State} (h : Canonical (mems s)) : Lands (execRngReadStallLimit f s) := by
  unfold execRngReadStallLimit
  dsimp only
  split <;> simp [h]

@[simp] theorem mems_dispatchRandom (s : State) : mems (dispatchRandom s) = mems s := by
  unfold dispatchRandom
  split
  · simp
  · split <;> simp

@[simp] theorem lands_execRngFill {j : JobRef} {s : State} (h : Canonical (mems s)) : Lands (execRngFill j s) := by
  unfold execRngFill
  split <;> simp [h]

@[simp] theorem mems_noteGaps (c : Consumer) (s : State) : mems (noteGaps c s) = mems s := by simp [noteGaps]

@[simp] theorem mems_deliver (c : Consumer) (out : Bytes) (s : State) : mems (deliver c out s) = mems s := by
  unfold deliver
  split
  · simp
  · simp
  · simp
  · simp
  · split
    · simp
    · split <;> simp

@[simp] theorem mems_eraseGenerator (s : State) : mems (eraseGenerator s) = mems s := by
  simp [eraseGenerator]

@[simp] theorem mems_restartGenerator (cause : Nat) (s : State) :
    mems (restartGenerator cause s) = mems s := by simp [restartGenerator]

@[simp] theorem mems_beginWait (s : State) : mems (beginWait s) = mems s := by simp [beginWait]

@[simp] theorem mems_serve (c : Consumer) (s : State) : mems (serve c s) = mems s := by simp [serve]

theorem mems_of_request {s t : State} (h : request s = some t) : mems t = mems s := by
  unfold request at h
  split at h
  · cases h
  · split at h
    · cases h
    · split at h
      · split at h
        · cases h
        · cases h; simp
      · cases h; simp

@[simp] theorem mems_generateOrWait (s : State) : mems (generateOrWait s) = mems s := by
  unfold generateOrWait
  split
  · next h => exact mems_of_request h
  · simp

@[simp] theorem mems_resumeReseed (s : State) : mems (resumeReseed s) = mems s := by
  unfold resumeReseed
  split <;> simp

@[simp] theorem lands_execDispatch {t : DispatchTarget} {s : State} (h : Canonical (mems s)) : Lands (execDispatch t s) := by
  unfold execDispatch
  split <;> simp [h]

@[simp] theorem mems_fwAsk (s : State) : mems (fwAsk s) = mems s := by simp [fwAsk]

@[simp] theorem drawMems_fwRead {α : Type} (take : Bytes → Option (α × Bytes)) (n : Nat) (s : State) :
    DrawMems s Prod.snd (fwRead take n s) := by
  induction n generalizing s with
  | zero => unfold fwRead; split <;> simp
  | succ n ih =>
    unfold fwRead
    split
    · simp
    · dsimp only
      split
      · next h => exact (ih _).trans ((mems_of_request h).trans (mems_fwAsk s))
      · simp

@[simp] theorem drawMems_fwRandom (n : Nat) (s : State) : DrawMems s Prod.snd (fwRandom n s) := by simp [fwRandom]

@[simp] theorem drawMems_fwKey (alg : Nat) (s : State) : DrawMems s Prod.snd (fwKey alg s) := by simp [fwKey]

/-! ## Slot commands (Machine/KeySlots.lean) -/

@[simp] theorem mems_keyCmd (n f op : Nat) (s : State) : mems (keyCmd n f op s) = mems s := by simp [keyCmd]

@[simp] theorem canonical_writePub {f addr n : Nat} {s : State} (h : Canonical (mems s)) :
    Canonical (mems (writePub f addr n s).2) := by
  unfold writePub
  dsimp only
  split <;> simp [h]

@[simp] theorem canonical_placed {f addr n op : Nat} {l : List Nat} {s : State} {o : Option State}
    (ho : ∀ t, o = some t → mems t = mems s) (h : Canonical (mems s)) :
    Canonical (mems (placed f addr n op l s o).2) := by
  unfold placed
  split
  · simp [h]
  · next t =>
    have ht : Canonical (mems t) := (ho t rfl).symm ▸ h
    simp [ht]

@[simp] theorem mems_acceptCmd (j : Job) (s : State) : mems (acceptCmd j s) = mems s := by simp [acceptCmd]

@[simp] theorem mems_withDrawn {α : Type} {j : Job} {d : State → Drawn α} {s : State} {h : α → State → Done × State}
    (hd : DrawMems s Prod.snd (d s)) (hh : ∀ a t, mems (h a t).2 = mems t) : mems (withDrawn j d s h).2 = mems s := by
  unfold withDrawn
  split
  · next e => rw [e] at hd; exact (hh ..).trans hd
  · next e => rw [e] at hd; exact hd

theorem canonical_withDrawn {α : Type} {j : Job} {d : State → Drawn α} {s : State} {g : α → State → Done × State}
    (hd : DrawMems s Prod.snd (d s)) (hg : ∀ a t, Canonical (mems t) → Canonical (mems (g a t).2))
    (h : Canonical (mems s)) : Canonical (mems (withDrawn j d s g).2) := by
  have hl := hd.lands h
  unfold withDrawn
  split
  · next e => rw [e] at hl; exact hg _ _ hl
  · next e => rw [e] at hl; exact hl

@[simp] theorem lands_runSlotCmd {f op : Nat} {waits : Bytes → List Nat} {body : Job → State → Option Done × State}
    {s : State} (hb : ∀ j, Canonical (mems (body j s).2)) (h : Canonical (mems s)) :
    Lands (runSlotCmd f op waits body s) :=
  lands_runAdminSteps (fun j => by split <;> simp [h, hb]) h

@[simp] theorem canonical_createKey {f : Nat} {e key : Bytes} {s : State} (h : Canonical (mems s)) :
    Canonical (mems (createKey f e key s).2) := by
  unfold createKey
  split
  · exact h
  · exact canonical_placed (fun t ht => by simp [mems_of_placeKey ht]) h

@[simp] theorem lands_execKeyCreate {f : Nat} {s : State} (h : Canonical (mems s)) : Lands (execKeyCreate f s) := by
  refine lands_runSlotCmd (fun j => ?_) h
  split
  · exact h
  · exact canonical_withDrawn (drawMems_fwKey _ s) (fun _ _ => canonical_createKey) h

@[simp] theorem canonical_revokeJobs {n : Nat} {again : Bool} {s : State} (h : Canonical (mems s)) :
    Canonical (mems (revokeJobs n again s)) := by simp [revokeJobs, h]

@[simp] theorem canonical_eraseEnds {j : Job} {s : State} (h : Canonical (mems s)) :
    Canonical (mems (eraseEnds j s).2) := by
  unfold eraseEnds
  split
  · split <;> simp [h]
  · simp [h]

@[simp] theorem canonical_eraseGoes {f n : Nat} {j : Job} {again : Bool} {s : State} (h : Canonical (mems s)) :
    Canonical (mems (eraseGoes f n j again s).2) := by
  unfold eraseGoes
  dsimp only
  split <;> simp [h]

@[simp] theorem lands_execKeyErase {f : Nat} {s : State} (h : Canonical (mems s)) : Lands (execKeyErase f s) := by
  refine lands_runSlotCmd (fun j => ?_) h
  split
  · split <;> simp [h]
  · simp [h]

@[simp] theorem canonical_importKey {f : Nat} {e blob : Bytes} {n : Nat} {s : State} (h : Canonical (mems s)) :
    Canonical (mems (importKey f e blob n s).2) := by
  unfold importKey
  exact canonical_placed (fun t ht => by simp [mems_of_placeKey ht]) h

@[simp] theorem canonical_importInto {f : Nat} {j : Job} {blob : Bytes} {s : State} (h : Canonical (mems s)) :
    Canonical (mems (importInto f j blob s).2) := by
  unfold importInto
  dsimp only
  split
  · split <;> simp [h]
  · split <;> simp [h]

@[simp] theorem lands_execKeyImport {f : Nat} {s : State} (h : Canonical (mems s)) : Lands (execKeyImport f s) := by
  refine lands_runSlotCmd (fun j => ?_) h
  split
  · exact h
  · refine canonical_afterReads ?_ (by simp [h])
    dsimp only
    split <;> simp [h]

@[simp] theorem lands_execKeyExport {f : Nat} {s : State} (h : Canonical (mems s)) : Lands (execKeyExport f s) := by
  refine lands_runSlotCmd (fun j => ?_) h
  dsimp only
  split
  · exact h
  · split
    · rw [mems_blobsDiffer]; exact h
    · simp [h]

@[simp] theorem mems_retire (n : Nat) (old : Slot) (s : State) : mems (retire n old s) = mems s := by
  simp [retire]

theorem mems_of_archive {arc : Nat} {old : Slot} {s t : State} (h : archive arc old s = some t) : mems t = mems s := by
  unfold archive at h
  split at h
  · cases h; rfl
  · simp [mems_of_placeKey h]

@[simp] theorem canonical_rekeySlot {f : Nat} {e key : Bytes} {s : State} (h : Canonical (mems s)) :
    Canonical (mems (rekeySlot f e key s).2) := by
  unfold rekeySlot
  refine canonical_placed (fun t ht => ?_) h
  obtain ⟨s1, h1, ht⟩ := Option.bind_eq_some_iff.mp ht
  obtain ⟨u, h2, rfl⟩ := Option.map_eq_some_iff.mp ht
  simp [mems_of_placeKey h2, mems_of_archive h1]

@[simp] theorem lands_execRekey {f : Nat} {s : State} (h : Canonical (mems s)) : Lands (execRekey f s) := by
  refine lands_runSlotCmd (fun j => ?_) h
  dsimp only
  split
  · exact h
  · split
    · exact h
    · exact canonical_withDrawn (drawMems_fwKey _ s) (fun _ _ => canonical_rekeySlot) h

@[simp] theorem mems_reattrSlot (f : Nat) (e : Bytes) (s : State) : mems (reattrSlot f e s).2 = mems s := by
  unfold reattrSlot
  dsimp only
  split
  · simp
  · next h => simp [mems_of_placeKey h]

@[simp] theorem lands_execReattr {f : Nat} {s : State} (h : Canonical (mems s)) : Lands (execReattr f s) := by
  refine lands_runSlotCmd (fun j => ?_) h
  dsimp only
  split
  · simp [h]
  · split <;> simp [h]

@[simp] theorem lands_execKeyQuery {f : Nat} {s : State} (h : Canonical (mems s)) : Lands (execKeyQuery f s) := by
  refine lands_runSlotCmd (fun j => ?_) h
  exact canonical_checked (fun _ => canonical_hostWrite) h

@[simp] theorem mems_remaskCopy (g : Nat) (c : SlotCopy) (s : State) :
    mems (remaskCopy g c s).2 = mems s := by simp [remaskCopy]

@[simp] theorem mems_remaskSlot (n : Nat) (s : State) : mems (remaskSlot n s) = mems s := by
  unfold remaskSlot
  dsimp only
  split <;> simp

@[simp] theorem mems_remaskSets (f : Nat) (s : State) : mems (remaskSets f s) = mems s := by
  simp [remaskSets]

@[simp] theorem mems_sweepOn (s : State) : mems (sweepOn s) = mems s := by simp [sweepOn]

@[simp] theorem lands_execRemaskSweepVisit {s : State} (h : Canonical (mems s)) : Lands (execRemaskSweepVisit s) := by
  simp [execRemaskSweepVisit, h]

@[simp] theorem lands_execSlotReload {n : Nat} {okA okB : Bool} {s : State} (h : Canonical (mems s)) : Lands (execSlotReload n okA okB s) := by simp [execSlotReload, h]

@[simp] theorem mems_endReload (s : State) : mems (endReload s) = mems s := by simp [endReload]

@[simp] theorem mems_reloadFails (n : Nat) (s : State) : mems (reloadFails n s) = mems s := by
  simp [reloadFails]

@[simp] theorem lands_execWrappedStoreReload {n : Nat} {okA okB : Bool} {s : State} (h : Canonical (mems s)) : Lands (execWrappedStoreReload n okA okB s) := by simp [execWrappedStoreReload, h]

/-! ## Functions and host interface (Machine/Functions.lean) -/

@[simp] theorem mems_fnAdmin (f op : Nat) (s : State) : mems (fnAdmin f op s) = mems s := by simp [fnAdmin]

@[simp] theorem lands_execFnAlloc {s : State} (h : Canonical (mems s)) : Lands (execFnAlloc s) := by simp [execFnAlloc, h]

@[simp] theorem canonical_resetJob {s : State} {j : Job} (h : Canonical (mems s)) :
    Canonical (mems (resetJob s j)) := by simp [resetJob, h]

@[simp] theorem mems_dropStalled (f : Nat) (s : State) : mems (dropStalled f s) = mems s := by
  unfold dropStalled
  exact mems_foldl (f := fun s _ => emit (.unsupported f) s) (fun _ _ => rfl) _ s

@[simp] theorem canonical_beginReset {f cause : Nat} {s : State} (h : Canonical (mems s)) :
    Canonical (mems (beginReset f cause s)) := by
  unfold beginReset
  split
  · exact h
  · exact h
  · simp only [mems_modFn, mems_dropStalled]
    exact canonical_foldl (fun _ _ hs => canonical_resetJob hs) _ h

@[simp] theorem mems_stopLogs (s : State) : mems (stopLogs s) = mems s := by simp [stopLogs]

@[simp] theorem canonical_resetVfs {cause : Nat} {s : State} (h : Canonical (mems s)) :
    Canonical (mems (resetVfs cause s)) := canonical_foldl (fun _ _ hs => canonical_beginReset hs) _ h

@[simp] theorem canonical_startReset {f cause : Nat} {s : State} (h : Canonical (mems s)) :
    Canonical (mems (startReset f cause s)) := by
  simp [startReset, h]

@[simp] theorem lands_execFlr {f : Nat} {s : State} (h : Canonical (mems s)) : Lands (execFlr f s) := by simp [execFlr, h]

@[simp] theorem lands_execFunctionReset {f cause : Nat} {s : State} (h : Canonical (mems s)) : Lands (execFunctionReset f cause s) := by simp [execFunctionReset, h]

@[simp] theorem lands_execVfEnableClear {s : State} (h : Canonical (mems s)) : Lands (execVfEnableClear s) := by
  simp [execVfEnableClear, h]

@[simp] theorem lands_execBusMasterEnableClear {f : Nat} {s : State} (h : Canonical (mems s)) : Lands (execBusMasterEnableClear f s) := by simp [execBusMasterEnableClear, h]

@[simp] theorem lands_execBusMasterEnableSet {f : Nat} {s : State} (h : Canonical (mems s)) : Lands (execBusMasterEnableSet f s) := by
  simp [execBusMasterEnableSet, h]

@[simp] theorem lands_execMemorySpaceEnableClear {f : Nat} {s : State} (h : Canonical (mems s)) : Lands (execMemorySpaceEnableClear f s) := by simp [execMemorySpaceEnableClear, h]

@[simp] theorem mems_resetEnds (f : Nat) (s : State) : mems (resetEnds f s) = mems s := by
  unfold resetEnds
  split <;> simp

@[simp] theorem lands_execFunctionResetComplete {f : Nat} {s : State} (h : Canonical (mems s)) : Lands (execFunctionResetComplete f s) := by simp [execFunctionResetComplete, h]

@[simp] theorem lands_execFnReset {s : State} (h : Canonical (mems s)) : Lands (execFnReset s) := by
  refine lands_runAdminSteps (fun j => ?_) h
  split
  · simp [h]
  · dsimp only
    split <;> simp [h]

@[simp] theorem lands_execFnFree {s : State} (h : Canonical (mems s)) : Lands (execFnFree s) := by
  refine lands_runAdminSteps (fun j => ?_) h
  split
  · simp [h]
  · split <;> simp [h]

@[simp] theorem lands_execFnSkKeyWrite {f set k : Nat} {wide : Bool} {v : Nat} {s : State} (h : Canonical (mems s)) : Lands (execFnSkKeyWrite f set k wide v s) := by simp [execFnSkKeyWrite, h]

@[simp] theorem mems_writeSkCtl (f set : Nat) (v : Word) (s : State) :
    mems (writeSkCtl f set v s) = mems s := by simp [writeSkCtl]

@[simp] theorem lands_execSessionKeyLoad {f set : Nat} {v : Word} {s : State} (h : Canonical (mems s)) : Lands (execSessionKeyLoad f set v s) := by simp [execSessionKeyLoad, h]

@[simp] theorem lands_execSessionKeyClear {f set : Nat} {v : Word} {s : State} (h : Canonical (mems s)) : Lands (execSessionKeyClear f set v s) := by simp [execSessionKeyClear, h]

@[simp] theorem lands_execD3hotWrite {f : Nat} {s : State} (h : Canonical (mems s)) : Lands (execD3hotWrite f s) := by
  simp [execD3hotWrite, h]

@[simp] theorem lands_execQuiescenceTimeout {f : Nat} {s : State} (h : Canonical (mems s)) :
    Lands (execQuiescenceTimeout f s) := by
  unfold execQuiescenceTimeout
  split
  · have ha : Canonical (mems ((s.jobs.filter fun j => quiesceJob f j && decide (j.ref.jq = 0)).foldl
        (fun s j => abandonAdmin j s) s)) := by simp [h]
    simp [h, ha]
  · exact (lands_next _).mpr h

@[simp] theorem lands_execD0Write {f : Nat} {s : State} (h : Canonical (mems s)) : Lands (execD0Write f s) := by simp [execD0Write, h]

@[simp] theorem lands_execMsixEnableClear {f : Nat} {s : State} (h : Canonical (mems s)) : Lands (execMsixEnableClear f s) := by
  simp [execMsixEnableClear, h]

@[simp] theorem lands_execMsixUnmask {f : Nat} {v : Option Nat} {s : State} (h : Canonical (mems s)) : Lands (execMsixUnmask f v s) := by
  unfold execMsixUnmask
  split
  · simp [h]
  · split <;> simp [h]

@[simp] theorem lands_execDirtyLogStart {s : State} (h : Canonical (mems s)) : Lands (execDirtyLogStart s) := by
  refine lands_runAdminSteps (fun j => ?_) h
  dsimp only
  split
  · exact h
  · split
    · exact h
    · refine canonical_afterReads ?_ h
      split <;> simp [h]

@[simp] theorem canonical_logStep {op : Byte} {next : DirtyLog → Option DirtyLog} {j : Job} {s : State}
    (h : Canonical (mems s)) : Canonical (mems (logStep op next j s).2) := by
  have hm : ∀ f, Canonical (mems (mergeDirty f s)) := fun f =>
    ⟨mergeDirty_wf f s h.1, (congrArg (Memory.wf · = true) (mergeDirty_cram f s)).mpr h.2⟩
  unfold logStep
  split
  · exact h
  · split
    · exact h
    · dsimp only
      split <;> simp [hm]

@[simp] theorem lands_execDirtyLogSync {s : State} (h : Canonical (mems s)) : Lands (execDirtyLogSync s) := by simp [execDirtyLogSync, h]

@[simp] theorem lands_execDirtyLogStop {s : State} (h : Canonical (mems s)) : Lands (execDirtyLogStop s) := by simp [execDirtyLogStop, h]

@[simp] theorem canonical_freezeGoes {f : Nat} {s : State} (h : Canonical (mems s)) :
    Canonical (mems (freezeGoes f s).2) := by
  unfold freezeGoes
  dsimp only
  split
  · simp [h]
  · split <;> simp [h]

@[simp] theorem lands_execFreeze {s : State} (h : Canonical (mems s)) : Lands (execFreeze s) := by
  refine lands_runAdminSteps (fun j => ?_) h
  split
  · simp [h]
  · split
    · simp [h]
    · dsimp only
      split <;> simp [h]

@[simp] theorem lands_execThaw {s : State} (h : Canonical (mems s)) : Lands (execThaw s) := by
  refine lands_runAdminSteps (fun j => ?_) h
  split
  · simp [h]
  · dsimp only
    split <;> simp [h]

@[simp] theorem lands_execSave {s : State} (h : Canonical (mems s)) : Lands (execSave s) := by
  refine lands_runAdminSteps (fun j => ?_) h
  dsimp only
  split
  · exact h
  · split
    · exact h
    · exact canonical_withDrawn (drawMems_fwRandom _ s) (fun _ _ ht => by simp [ht]) h

@[simp] theorem mems_loadSet (b : Bytes) (k : Nat) (s : State) : mems (loadSet b k s).2 = mems s := by
  unfold loadSet
  dsimp only
  split <;> simp

@[simp] theorem mems_loadSets (f : Nat) (b : Bytes) (s : State) : mems (loadSets f b s) = mems s := by
  simp [loadSets]

@[simp] theorem mems_loadFn (f : Nat) (b : Bytes) (s : State) : mems (loadFn f b s) = mems s := by
  simp [loadFn]

@[simp] theorem lands_execFnStateLoad {s : State} (h : Canonical (mems s)) : Lands (execFnStateLoad s) := by
  refine lands_runAdminSteps (fun j => ?_) h
  dsimp only
  split
  · exact h
  · refine canonical_afterReads ?_ h
    split <;> simp [h]

/-! ## Alarms (Machine/Alarm.lean) -/

@[simp] theorem mems_vesperRecord (code level p0 p1 p2 p3 : Nat) (s : State) :
    mems (vesperRecord code level p0 p1 p2 p3 s) = mems s := by simp [vesperRecord]

@[simp] theorem mems_checkpoint (s : State) : mems (checkpoint s) = mems s := by simp [checkpoint]

@[simp] theorem mems_countAlarm (s : State) : mems (countAlarm s) = mems s := by simp [countAlarm]

@[simp] theorem canonical_answerCaller {c : Option Caller} {d : Done} {out : Bytes} {s : State} (h : Canonical (mems s)) :
    Canonical (mems (answerCaller c d out s)) := by
  unfold answerCaller
  split
  · simp [h]
  · split <;> simp [h]
  · simp [h]

@[simp] theorem mems_ceremonyRecord (c : Ceremony) (how : Nat) (s : State) :
    mems (ceremonyRecord c how s) = mems s := by simp [ceremonyRecord]

@[simp] theorem canonical_closeCeremony {how : Nat} {d : Done} {s : State} (h : Canonical (mems s)) :
    Canonical (mems (closeCeremony how d s)) := by
  unfold closeCeremony
  split <;> simp [h]

@[simp] theorem canonical_alarmCloses {s : State} (h : Canonical (mems s)) :
    Canonical (mems (alarmCloses s)) := by
  unfold alarmCloses
  split <;> simp [h]

@[simp] theorem mems_eraseIde (s : State) : mems (eraseIde s) = mems s := by simp [eraseIde]

@[simp] theorem mems_eraseSlots (s : State) : mems (eraseSlots s) = mems s := by simp [eraseSlots]

@[simp] theorem mems_eraseRandom (s : State) : mems (eraseRandom s) = mems s := by simp [eraseRandom]

@[simp] theorem canonical_undoSlotCommand {j : Job} {s : State} (h : Canonical (mems s)) :
    Canonical (mems (undoSlotCommand j s)) := by
  simp [undoSlotCommand, h]

@[simp] theorem canonical_endWork {detail : Nat} {atOnce : Bool} {s : State} (h : Canonical (mems s)) :
    Canonical (mems (endWork detail atOnce s)) :=
  canonical_endJobs (canonical_foldl (fun _ _ hs => canonical_undoSlotCommand hs) _ h)

@[simp] theorem mems_eraseRoot (s : State) : mems (eraseRoot s) = mems s := by simp [eraseRoot]

@[simp] theorem mems_eraseDomain (s : State) : mems (eraseDomain s) = mems s := by simp [eraseDomain]

@[simp] theorem mems_destroyStore (s : State) : mems (destroyStore s) = mems s := by simp [destroyStore]

@[simp] theorem mems_enterLife (x : LifeState) (id : Nat) (s : State) :
    mems (enterLife x id s) = mems s := by simp [enterLife]

@[simp] theorem mems_enterLocked (c : LockClass) (at_ id : Nat) (s : State) :
    mems (enterLocked c at_ id s) = mems s := by simp [enterLocked]

@[simp] theorem canonical_respondTo {c : LockClass} {root : Bool} {s : State} (h : Canonical (mems s)) :
    Canonical (mems (respondTo c root s)) := by simp [respondTo, h]

@[simp] theorem canonical_repeatResponse {c : LockClass} {s : State} (h : Canonical (mems s)) :
    Canonical (mems (repeatResponse c s)) := by
  simp [repeatResponse, h]

@[simp] theorem canonical_lockResponse {c : LockClass} {s : State} (h : Canonical (mems s)) :
    Canonical (mems (lockResponse c s)) := by
  unfold lockResponse
  split <;> simp [h]

@[simp] theorem canonical_latchGroup {g c : Nat} {s : State} (h : Canonical (mems s)) :
    Canonical (mems (latchGroup g c s)) := by
  simp [latchGroup, h]

@[simp] theorem canonical_sense {g : Nat} {present : Bool} {s : State} (h : Canonical (mems s)) :
    Canonical (mems (sense g present s)) := by
  simp [sense, h]

/-! ## Vesper (Machine/Vesper.lean) -/

@[simp] theorem mems_modCell (h : Cell → Cell) (s : State) : mems (modCell h s) = mems s := (rfl)

@[simp] theorem lands_execMeshSample {m : MeshReading} {s : State} (h : Canonical (mems s)) : Lands (execMeshSample m s) := by
  simp [execMeshSample, h]

@[simp] theorem lands_execXtampSample {input : Nat} {high : Bool} {s : State} (h : Canonical (mems s)) : Lands (execXtampSample input high s) := by simp [execXtampSample, h]

@[simp] theorem lands_execTempSample {dc : Int} {s : State} (h : Canonical (mems s)) : Lands (execTempSample dc s) := by
  simp [execTempSample, h]

@[simp] theorem canonical_senseOnce {g : Nat} {s : State} (h : Canonical (mems s)) :
    Canonical (mems (senseOnce g s)) := by simp [senseOnce, h]

@[simp] theorem lands_execGlitch {supply mv : Nat} {s : State} (h : Canonical (mems s)) : Lands (execGlitch supply mv s) := by
  simp [execGlitch, h]

@[simp] theorem lands_execFiDelay {_sensor : Nat} {s : State} (h : Canonical (mems s)) : Lands (execFiDelay _sensor s) := by
  simp [execFiDelay, h]

@[simp] theorem mems_noteVbat (mv : Nat) (s : State) : mems (noteVbat mv s) = mems s := by simp [noteVbat]

@[simp] theorem lands_execVbatSample {mv : Nat} {s : State} (h : Canonical (mems s)) : Lands (execVbatSample mv s) := by
  simp [execVbatSample, h]

@[simp] theorem lands_execVbatCut {mv : Nat} {s : State} (h : Canonical (mems s)) : Lands (execVbatCut mv s) := by simp [execVbatCut, h]

@[simp] theorem lands_execCellPresenceCheck {present : Bool} {s : State} (h : Canonical (mems s)) : Lands (execCellPresenceCheck present s) := by simp [execCellPresenceCheck, h]

@[simp] theorem lands_execXtalFail {s : State} (h : Canonical (mems s)) : Lands (execXtalFail s) := by simp [execXtalFail, h]

@[simp] theorem lands_execXtalReturn {s : State} (h : Canonical (mems s)) : Lands (execXtalReturn s) := by simp [execXtalReturn, h]

@[simp] theorem lands_execShadowCheck {agree : Bool} {s : State} (h : Canonical (mems s)) : Lands (execShadowCheck agree s) := by
  simp [execShadowCheck, h]

@[simp] theorem mems_chargeTo (st : ChargeState) (s : State) : mems (chargeTo st s) = mems s := by
  simp [chargeTo]

@[simp] theorem mems_chargeCc (s : State) : mems (chargeCc s) = mems s := by
  unfold chargeCc
  rw [mems_chargeTo, mems_modCell]

@[simp] theorem mems_chargeDone (s : State) : mems (chargeDone s) = mems s := by
  unfold chargeDone
  simp only [mems_modCell, mems_chargeTo]
  split
  · rw [mems_ite, mems_modCell, ite_self]
  · rfl

@[simp] theorem mems_countCharge (i : Nat) (s : State) : mems (countCharge i s) = mems s := by
  simp [countCharge]

@[simp] theorem mems_chargeRun (r : ChargerReading) (s0 : State) : mems (chargeRun r s0) = mems s0 := by
  unfold chargeRun
  extract_lets s now vcv t0 deep charging counted low cv full after limit
  have hs : mems s = mems s0 := by simp only [s]; split <;> simp
  have deepKeeps : mems deep = mems s := by simp only [deep, mems_countCharge, mems_modCell]
  have afterKeeps : mems after = mems s := by
    simp only [after, full, cv, counted, charging]
    split <;> simp [-modCell_regs, mems_modCell]
  rw [← hs]
  simp [deepKeeps, afterKeeps]

@[simp] theorem lands_execChargerStep {r : ChargerReading} {s : State} (h : Canonical (mems s)) : Lands (execChargerStep r s) := by
  simp [execChargerStep, h]

@[simp] theorem lands_execAdaptiveSamplingUpdate {s : State} (h : Canonical (mems s)) : Lands (execAdaptiveSamplingUpdate s) := by
  simp [execAdaptiveSamplingUpdate, h]

@[simp] theorem lands_execAgeingUpdate {s : State} (h : Canonical (mems s)) : Lands (execAgeingUpdate s) := by
  unfold execAgeingUpdate
  split <;> simp [h]

@[simp] theorem mems_newCell (s : State) : mems (newCell s) = mems s := by
  unfold newCell
  simp [-modCell_regs, mems_modCell]

@[simp] theorem canonical_windowChecks {present : Bool} {mv : Nat} {low : Bool} {s : State} (h : Canonical (mems s)) :
    Canonical (mems (windowChecks present mv low s)) := by simp [windowChecks, h]

@[simp] theorem mems_endWindow (s : State) : mems (endWindow s) = mems s := by simp [endWindow]

@[simp] theorem lands_execServiceWindowClose {why : WindowEnd} {mv : Nat} {present : Bool} {s : State} (h : Canonical (mems s)) : Lands (execServiceWindowClose why mv present s) := by
  unfold execServiceWindowClose
  split
  · simp [h]
  · split
    · split <;> simp [h]
    · simp [h]

@[simp] theorem lands_execSupplySourceChange {vchg : Bool} {s : State} (h : Canonical (mems s)) : Lands (execSupplySourceChange vchg s) := by
  unfold execSupplySourceChange
  split
  · simp [h]
  · split
    · split
      · split <;> simp [h]
      · simp [h]
    · split
      · split <;> simp [h]
      · simp [h]

@[simp] theorem lands_execVesperSupplyRise {s : State} (h : Canonical (mems s)) : Lands (execVesperSupplyRise s) := by
  simp [execVesperSupplyRise, h]

@[simp] theorem lands_execWatchOscillatorRecalibration {count : Nat} {s : State} (h : Canonical (mems s)) : Lands (execWatchOscillatorRecalibration count s) := by simp [execWatchOscillatorRecalibration, h]

@[simp] theorem lands_execMeridianSlew {s : State} (h : Canonical (mems s)) : Lands (execMeridianSlew s) := by simp [execMeridianSlew, h]

@[simp] theorem lands_execVesperCheckpoint {s : State} (h : Canonical (mems s)) : Lands (execVesperCheckpoint s) := by
  simp [execVesperCheckpoint, h]

@[simp] theorem lands_execTimeAdjustDone {s : State} (h : Canonical (mems s)) : Lands (execTimeAdjustDone s) := by
  simp [execTimeAdjustDone, h]

/-! ## The dictionary (Machine/Dict.lean) -/

@[simp] theorem mems_repairRecord (area : Nat) (s : State) : mems (repairRecord area s) = mems s := by
  simp [repairRecord]

@[simp] theorem mems_repairCopy (s : State) : mems (repairCopy s) = mems s := by simp [repairCopy]

@[simp] theorem canonical_lockForLoss {s : State} (h : Canonical (mems s)) :
    Canonical (mems (lockForLoss s)) := by
  unfold lockForLoss
  split <;> simp [h]

@[simp] theorem mems_deviceDefaults (s : State) : mems (deviceDefaults s) = mems s := by
  simp [deviceDefaults]

@[simp] theorem mems_roleDefaults (s : State) : mems (roleDefaults s) = mems s := by simp [roleDefaults]

@[simp] theorem canonical_loseSet {set : Nat} {s : State} (h : Canonical (mems s)) :
    Canonical (mems (loseSet set s)) := by simp [loseSet, h]

@[simp] theorem canonical_checkSet {set : Nat} {s : State} (h : Canonical (mems s)) :
    Canonical (mems (checkSet set s)) := by simp [checkSet, h]

@[simp] theorem mems_applyPolicy (s : State) : mems (applyPolicy s) = mems s := by simp [applyPolicy]

@[simp] theorem mems_applyForce (s : State) : mems (applyForce s) = mems s := by simp [applyForce]

@[simp] theorem mems_storeIn (n key : Nat) (v : Bytes) (s : State) : mems (storeIn n key v s) = mems s := by
  simp [storeIn]

@[simp] theorem mems_putForce (index sub : Nat) (v : Bytes) (s : State) :
    mems (putForce index sub v s).2 = mems s := by
  unfold putForce
  split <;> simp

@[simp] theorem canonical_copyProfile {a b : Nat} {s0 : State} (h : Canonical (mems s0)) :
    Canonical (mems (copyProfile a b s0)) := by
  simp [copyProfile, h]

@[simp] theorem mems_putFn (f sub n : Nat) (s : State) : mems (putFn f sub n s) = mems s := by simp [putFn]

@[simp] theorem canonical_putValue {index : Nat} {o : Obj} {v : Bytes} {s : State} (h : Canonical (mems s)) :
    Canonical (mems (putValue index o v s).2) := by
  unfold putValue
  split
  · simp [h]
  · split <;> simp [h]
  · split
    · simp [h]
    · split <;> simp [h]

@[simp] theorem mems_dictRecord (u : DictUser) (index sub prof : Nat) (s : State) :
    mems (dictRecord u index sub prof s) = mems s := by simp [dictRecord]

@[simp] theorem canonical_readStore {e : Bytes} {s : State} (h : Canonical (mems s)) :
    Canonical (mems (readStore e s)) := by simp [readStore, h]

@[simp] theorem lands_execDictRead {f : Nat} {s : State} (h : Canonical (mems s)) : Lands (execDictRead f s) := by simp [execDictRead, h]

@[simp] theorem canonical_writeGoes {u : DictUser} {o : Obj} {e v : Bytes} {s : State} (h : Canonical (mems s)) :
    Canonical (mems (writeGoes u o e v s).2) := by
  unfold writeGoes
  split <;> simp [h]

@[simp] theorem canonical_dictWriteBy {u : DictUser} {e : Bytes} {data : Option Bytes} {s : State} (h : Canonical (mems s)) :
    Canonical (mems (dictWriteBy u e data s).2) := by
  unfold dictWriteBy
  split
  · simp [h]
  · simp [h]
  · split
    · simp [h]
    · split
      · simp [h]
      · split <;> simp [h]

@[simp] theorem lands_execDictWrite {f : Nat} {s : State} (h : Canonical (mems s)) : Lands (execDictWrite f s) := by
  refine lands_runAdminSteps (fun j => ?_) h
  extract_lets e v
  have hw : Canonical (mems (dictWriteBy (hostUser f) e v s).2) := canonical_dictWriteBy h
  split
  · next heq => rw [heq] at hw; exact hw
  · next heq => rw [heq] at hw; split <;> simpa using hw

/-! ## Attestation (Machine/Attest.lean) -/

@[simp] theorem drawMems_attSign (alg : Nat) (msg : Bytes) (s : State) : DrawMems s Prod.snd (attSign alg msg s) := by
  simp [attSign]

@[simp] theorem drawMems_makeStatement (nonce : Bytes) (s : State) : DrawMems s Prod.snd (makeStatement nonce s) := by
  simp [makeStatement]

@[simp] theorem mems_refuse (d : Done) (s : State) : mems (refuse d s).2.2 = mems s := by simp [refuse]

theorem mems_answered {α : Type} {s : State} {d : Drawn α} {h : α → State → Answer} (hd : DrawMems s Prod.snd d)
    (hh : ∀ a t, mems (h a t).2.2 = mems t) : mems (answered d h).2.2 = mems s := by
  unfold answered
  split
  · exact (hh ..).trans hd
  · exact hd

@[simp] theorem mems_attAnswer (e out : Bytes) (s : State) : mems (attAnswer e out s).2.2 = mems s := by
  unfold attAnswer
  split <;> simp

@[simp] theorem mems_attestBy (e : Bytes) (s : State) : mems (attestBy e s).2.2 = mems s := by
  unfold attestBy
  split
  · simp
  · split
    · exact mems_answered (drawMems_makeStatement _ s) (fun _ t => by simp)
    · simp

@[simp] theorem lands_runAttest {f op : Nat} {s : State} (h : Canonical (mems s)) : Lands (runAttest f op s) := by
  refine lands_runAdminSteps (fun j => ?_) h
  split <;> simp [h]

@[simp] theorem lands_execAttestStatement {f : Nat} {s : State} (h : Canonical (mems s)) : Lands (execAttestStatement f s) := by
  simp [execAttestStatement, h]

@[simp] theorem lands_execAttestChainEcdsa {f : Nat} {s : State} (h : Canonical (mems s)) : Lands (execAttestChainEcdsa f s) := by
  simp [execAttestChainEcdsa, h]

@[simp] theorem lands_execAttestChainMldsa {f : Nat} {s : State} (h : Canonical (mems s)) : Lands (execAttestChainMldsa f s) := by
  simp [execAttestChainMldsa, h]

/-! ## Service extensions (Machine/Extensions.lean) -/

@[simp] theorem mems_setOwners (pages : List Nat) (v : Nat) (s : State) : mems (setOwners pages v s) = mems s := (rfl)

@[simp] theorem mems_extEvent (id how key : Nat) (s : State) : mems (extEvent id how key s) = mems s := by
  simp [extEvent]

@[simp] theorem canonical_endCalls {id : Nat} {d : Done} {s : State} (h : Canonical (mems s)) :
    Canonical (mems (endCalls id d s)) := canonical_foldl (fun s c hs => by split <;> simp [hs]) _ h

@[simp] theorem canonical_endExt {x : Ext} {how : Nat} {s : State} (h : Canonical (mems s)) :
    Canonical (mems (endExt x how s)) := by
  have he : Canonical (mems (endCalls x.id { status := Status.unavailable, detail := 0x0A } s)) := canonical_endCalls h
  unfold endExt
  generalize endCalls x.id _ s = t at he
  have hz : Canonical (t.mem, zeroPages x.pages t.cram) := ⟨he.1, zeroPages_wf _ _ he.2⟩
  simp only [mems_extEvent, mems_ite, mems_setOwners, mems_mk, ite_self]
  exact hz

theorem fillPages_wf (pages : List Nat) (b : Bytes) (m : List Host.Cell) (h : Memory.wf m = true) :
    Memory.wf (fillPages pages b m) = true := by
  unfold fillPages
  generalize pages.zip _ = l
  induction l generalizing m with
  | nil => exact h
  | cons p l ih => exact ih _ (Memory.wf_putAll _ _ _ h)

@[simp] theorem canonical_placeExt {b : Bytes} {s : State} (h : Canonical (mems s)) : Canonical (mems (placeExt b s)) := by
  unfold placeExt
  dsimp only
  rw [mems_mk, canonical_mk]
  refine ⟨h.1, ?_⟩
  apply fillPages_wf
  apply fillPages_wf
  apply zeroPages_wf
  exact h.2

@[simp] theorem lands_runManager {c : Nat} {body : Job → State → Option Done × State} {s : State}
    (hb : ∀ j, Canonical (mems (body j s).2)) (h : Canonical (mems s)) : Lands (runManager c body s) :=
  lands_runAdminSteps (fun j => by
    split
    · exact h
    · split <;> simp [h, hb]) h

@[simp] theorem lands_execLoad {s : State} (h : Canonical (mems s)) : Lands (execLoad s) := by
  refine lands_runManager (fun j => ?_) h
  split
  · exact h
  · refine canonical_afterReads ?_ h
    dsimp only
    split
    · exact h
    · split
      · exact h
      · rw [mems_extEvent, mems_mk, mems_eta]
        exact canonical_placeExt h

@[simp] theorem lands_execUnload {s : State} (h : Canonical (mems s)) : Lands (execUnload s) := by
  refine lands_runManager (fun j => ?_) h
  split
  · exact h
  · exact canonical_endExt h

@[simp] theorem lands_execList {s : State} (h : Canonical (mems s)) : Lands (execList s) := by
  refine lands_runManager (fun j => ?_) h
  dsimp only
  split <;> simp [h]

@[simp] theorem lands_execExtCall {f : Nat} {s : State} (h : Canonical (mems s)) : Lands (execExtCall f s) := by
  refine lands_runAdminSteps (fun j => ?_) h
  split
  · simp [h]
  · split
    · simp [h]
    · split <;> simp [h]

@[simp] theorem canonical_extFault {x : Nat} {s : State} (h : Canonical (mems s)) :
    Canonical (mems (extFault x s)) := by
  unfold extFault
  split
  · simp [h]
  · split <;> simp [h]

@[simp] theorem lands_runService {x : Nat} {reads writes : Nat × Nat} {body : Ext → Call → Job → State → State} {s : State}
    (hb : ∀ e c j, Canonical (mems (body e c j s))) (h : Canonical (mems s)) : Lands (runService x reads writes body s) := by
  unfold runService
  split
  · split <;> simp [h, hb]
  · exact (lands_next _).mpr h

@[simp] theorem mems_modCall (r : JobRef) (h : Call → Call) (s : State) : mems (modCall r h s) = mems s := by
  simp [modCall]

@[simp] theorem canonical_ramWrite {a : Nat} {b : Bytes} {s : State} (h : Canonical (mems s)) :
    Canonical (mems (ramWrite a b s)) := ramWrite_tidy _ _ _ h

@[simp] theorem lands_execRet {x status detail result1 : Nat} {s : State} (h : Canonical (mems s)) :
    Lands (execRet x status detail result1 s) := lands_runService (fun _ _ _ => by split <;> simp [h]) h

@[simp] theorem lands_execReadIn {x inOff dst n : Nat} {s : State} (h : Canonical (mems s)) :
    Lands (execReadIn x inOff dst n s) := lands_runService (fun _ _ _ => by simp [h]) h

@[simp] theorem lands_execWriteOut {x src outOff n : Nat} {s : State} (h : Canonical (mems s)) :
    Lands (execWriteOut x src outOff n s) := lands_runService (fun _ _ _ => by dsimp only; split <;> simp [h]) h

@[simp] theorem lands_execSubmit {x entryAt slots recAt : Nat} {s : State} (h : Canonical (mems s)) :
    Lands (execSubmit x entryAt slots recAt s) := lands_runService (fun _ _ _ => by simp [h]) h

@[simp] theorem lands_execRandom {x dst n : Nat} {s : State} (h : Canonical (mems s)) : Lands (execRandom x dst n s) := by
  unfold execRandom
  exact lands_runService (fun _ _ _ => by dsimp only; split <;> simp [h]) h

@[simp] theorem lands_execTime {x dst : Nat} {s : State} (h : Canonical (mems s)) : Lands (execTime x dst s) :=
  lands_runService (fun _ _ _ => canonical_ramWrite h) h

@[simp] theorem lands_execExtDictRead {x index sub dst room : Nat} {s : State} (h : Canonical (mems s)) :
    Lands (execExtDictRead x index sub dst room s) := by
  unfold execExtDictRead
  exact lands_runService (fun _ _ _ => by dsimp only; split <;> simp [h]) h

@[simp] theorem lands_execLog {x a1 a2 a3 : Nat} {s : State} (h : Canonical (mems s)) : Lands (execLog x a1 a2 a3 s) := by
  simp [execLog, h]

/-! ## Ceremonies (Machine/Ceremony.lean) -/

@[simp] theorem mems_openGo (fdp : Bool) (e p : Bytes) (s : State) : mems (openGo fdp e p s).2.2 = mems s := by
  unfold openGo
  split
  · simp
  · split
    · simp
    · split
      · simp
      · exact mems_answered (drawMems_fwRandom _ s) (fun _ t => by simp)

@[simp] theorem mems_statusGo (e : Bytes) (s : State) : mems (statusGo e s).2.2 = mems s := by
  unfold statusGo
  split
  · simp
  · split
    · simp
    · split
      · simp
      · split <;> simp

@[simp] theorem mems_modCer (h : Ceremony → Ceremony) (s : State) : mems (modCer h s) = mems s := by
  simp [modCer]

@[simp] theorem mems_startAction (who : Caller) (c : Ceremony) (s : State) :
    mems (startAction who c s).2 = mems s := by
  unfold startAction
  split <;> simp

@[simp] theorem mems_executeGo (who : Caller) (e : Bytes) (s : State) :
    mems (executeGo who e s).2.2 = mems s := by
  unfold executeGo
  split
  · simp
  · split
    · simp
    · split
      · simp
      · split
        · simp
        · split
          · simp
          · split <;> simp

@[simp] theorem canonical_cancelGo {e : Bytes} {s : State} (h : Canonical (mems s)) :
    Canonical (mems (cancelGo e s).2.2) := by
  unfold cancelGo
  split
  · simp [h]
  · split
    · simp [h]
    · split <;> simp [h]

@[simp] theorem mems_apprRecord (e : Bytes) (how detail : Nat) (s : State) :
    mems (apprRecord e how detail s) = mems s := by simp [apprRecord]

@[simp] theorem mems_apprRefused (e : Bytes) (d : Done) (s : State) :
    mems (apprRefused e d s).2.2 = mems s := by simp [apprRefused]

@[simp] theorem canonical_wakeExecute {s : State} (h : Canonical (mems s)) :
    Canonical (mems (wakeExecute s)) := by
  unfold wakeExecute
  split
  · simp [h]
  · split
    · simp [h]
    · split
      · dsimp only
        split <;> simp [h]
      · simp [h]

@[simp] theorem canonical_approveGo {fdp : Bool} {e sig : Bytes} {s : State} (h : Canonical (mems s)) :
    Canonical (mems (approveGo fdp e sig s).2.2) := by
  unfold approveGo
  split
  · simp [h]
  · split
    · simp [h]
    · split
      · simp [h]
      · split
        · simp [h]
        · split <;> simp [h]

@[simp] theorem canonical_adminAnswer {j : Job} {addr : Nat} {r : Answer} (h : Canonical (mems r.2.2)) :
    Canonical (mems (adminAnswer j addr r).2) := by
  simp [adminAnswer, h]

@[simp] theorem lands_runCeremony {op : Nat} {body : Job → State → Option Done × State} {s : State}
    (hb : ∀ j, Canonical (mems (body j s).2)) (h : Canonical (mems s)) : Lands (runCeremony op body s) :=
  lands_runAdminSteps (fun j => by split <;> simp [h, hb]) h

@[simp] theorem lands_execCeremonyOpen {s : State} (h : Canonical (mems s)) : Lands (execCeremonyOpen s) := by
  refine lands_runCeremony (fun j => ?_) h
  split
  · exact h
  · exact canonical_afterReads (canonical_adminAnswer (by simp [h])) h

@[simp] theorem lands_execCeremonyStatus {s : State} (h : Canonical (mems s)) : Lands (execCeremonyStatus s) :=
  lands_runCeremony (fun _ => canonical_adminAnswer (by simp [h])) h

@[simp] theorem lands_execCeremonyExecute {s : State} (h : Canonical (mems s)) : Lands (execCeremonyExecute s) :=
  lands_runCeremony (fun _ => canonical_adminAnswer (by simp [h])) h

@[simp] theorem lands_execCeremonyCancel {s : State} (h : Canonical (mems s)) : Lands (execCeremonyCancel s) :=
  lands_runCeremony (fun _ => canonical_adminAnswer (by simp [h])) h

@[simp] theorem lands_execApprove {s : State} (h : Canonical (mems s)) : Lands (execApprove s) := by
  refine lands_runAdminSteps (fun j => ?_) h
  split
  · simp [h]
  · exact canonical_afterReads (by simp [h]) h

@[simp] theorem lands_execChallengeExpiry {s : State} (h : Canonical (mems s)) : Lands (execChallengeExpiry s) := by
  unfold execChallengeExpiry
  split <;> simp [h]

@[simp] theorem lands_execContinuationWindowExpiry {s : State} (h : Canonical (mems s)) : Lands (execContinuationWindowExpiry s) := by
  unfold execContinuationWindowExpiry
  split <;> simp [h]

/-! ## Ceremony actions (Machine/Domain.lean) -/

@[simp] theorem mems_beginReload (s : State) : mems (beginReload s) = mems s := by simp [beginReload]

@[simp] theorem mems_acquireDomain (dk id : Bytes) (how : Nat) (s : State) :
    mems (acquireDomain dk id how s) = mems s := by simp [acquireDomain]

@[simp] theorem mems_reloadDomain (s : State) : mems (reloadDomain s) = mems s := by
  unfold reloadDomain
  split
  · simp
  · split <;> simp

@[simp] theorem mems_newRoot (root : Bytes) (s : State) : mems (newRoot root s) = mems s := by simp [newRoot]

@[simp] theorem mems_clearLatches (s : State) : mems (clearLatches s) = mems s := (rfl)

@[simp] theorem canonical_leaveLife {atOnce keepSessions : Bool} {s : State} (h : Canonical (mems s)) :
    Canonical (mems (leaveLife atOnce keepSessions s)) := by
  have hw : Canonical (mems (endWork 1 atOnce (eraseIde (eraseAllSets s)))) := canonical_endWork (by simp [h])
  cases keepSessions <;> simp [leaveLife, hw]

@[simp] theorem canonical_moveLife {x : LifeState} {id : Nat} {s : State} (h : Canonical (mems s)) :
    Canonical (mems (moveLife x id s)) := by
  simp [moveLife, h]

@[simp] theorem canonical_destroyAll {s : State} (h : Canonical (mems s)) :
    Canonical (mems (destroyAll s)) := by simp [destroyAll, h]

@[simp] theorem canonical_finishAction {c : Ceremony} {a : ActOut} {old : State} (ha : Canonical (mems a.s))
    (h : Canonical (mems old)) : Canonical (mems (finishAction c a old)) := by
  unfold finishAction
  dsimp only
  split
  · simp [h]
  · split <;> simp [ha]

@[simp] theorem lands_runAction {n : Nat} {body : Ceremony → State → ActOut} {s : State}
    (hb : ∀ c, Canonical (mems (body c s).s)) (h : Canonical (mems s)) : Lands (runAction n body s) := by
  unfold runAction
  split
  · exact (lands_next _).mpr h
  · simp [h, hb]

@[simp] theorem lands_runDraw {n : Nat} {body : Ceremony → State → Except State ActOut} {s : State}
    (hb : ∀ c, DrawLands ActOut.s (body c s)) (h : Canonical (mems s)) : Lands (runDraw n body s) := by
  unfold runDraw
  split
  · exact (lands_next _).mpr h
  · next c _ =>
    have hc := hb c
    split
    · split
      · next e => rw [e] at hc; exact lands_settled.mpr (canonical_finishAction hc h)
      · next e => rw [e] at hc; exact lands_settled.mpr hc
    · exact (lands_next _).mpr h

@[simp] theorem mems_putRoles (p : Bytes) (s : State) : mems (putRoles p s) = mems s := by simp [putRoles]

@[simp] theorem lands_execInitialise {s : State} (h : Canonical (mems s)) : Lands (execInitialise s) :=
  lands_runDraw (fun _ => (drawMems_fwRandom _ s).goLands h fun _ _ ht => by simp [ht]) h

@[simp] theorem lands_execCustodians {s : State} (h : Canonical (mems s)) : Lands (execCustodians s) :=
  lands_runAction (fun _ => by simp [h]) h

@[simp] theorem lands_execDomainCreate {s : State} (h : Canonical (mems s)) : Lands (execDomainCreate s) :=
  lands_runDraw (fun _ => (drawMems_fwRandom _ s).goLands h fun _ _ ht => by simp [ht]) h

@[simp] theorem drawMems_drawPair (s : State) : DrawMems s Prod.snd (drawPair s) := by simp [drawPair]

@[simp] theorem lands_execDomainAdmit {s : State} (h : Canonical (mems s)) : Lands (execDomainAdmit s) :=
  lands_runDraw (fun c => DrawMems.lands (s := s) (by simp) h) h

@[simp] theorem lands_execDomainJoin {s : State} (h : Canonical (mems s)) : Lands (execDomainJoin s) := by
  unfold execDomainJoin
  refine lands_runDraw (fun c => DrawMems.lands (s := s) ?_ h) h
  extract_lets offer
  clear_value offer
  refine .ite rfl (.ite rfl ?_)
  exact (drawMems_fwRandom _ s).go fun _ s => (drawMems_drawPair s).go fun _ s =>
    (drawMems_makeStatement _ s).go fun _ s => (drawMems_ok ..).mpr (mems_modCer _ s)

@[simp] theorem drawMems_continueAdmit (c : Ceremony) (m : Bytes) (s : State) : DrawMems s ActOut.s (continueAdmit c m s) := by
  unfold continueAdmit
  refine .ite rfl (.ite rfl ?_)
  exact (drawMems_fwKey _ s).go fun _ s => (drawMems_fwRandom _ s).go fun _ s =>
    (drawMems_attSign _ _ s).go fun _ s => (drawMems_attSign _ _ s).go fun _ _ => rfl

@[simp] theorem mems_dropSecret (d : Done) (s : State) : mems (dropSecret d s).s = mems s := by
  simp [dropSecret]

@[simp] theorem canonical_continueJoin {c : Ceremony} {m : Bytes} {s : State} (h : Canonical (mems s)) :
    Canonical (mems (continueJoin c m s).s) := by
  unfold continueJoin
  split
  · simp [h]
  · dsimp only
    split
    · split <;> simp [h]
    · simp [h]

@[simp] theorem drawMems_drawShares (n : Nat) (s : State) : DrawMems s Prod.snd (drawShares n s) := by
  induction n generalizing s with
  | zero => simp [drawShares]
  | succ n ih =>
    unfold drawShares
    exact (drawMems_fwKey _ _).go fun _ s => (drawMems_fwRandom _ _).go fun _ s => (ih s).go fun _ s => by simp

@[simp] theorem lands_execShareExport {s : State} (h : Canonical (mems s)) : Lands (execShareExport s) :=
  lands_runDraw (fun c => DrawMems.lands (s := s) (by simp) h) h

@[simp] theorem lands_execShareRestore {s : State} (h : Canonical (mems s)) : Lands (execShareRestore s) :=
  lands_runDraw (fun c => DrawMems.lands (s := s) (by simp) h) h

@[simp] theorem canonical_continueRestore {c : Ceremony} {m : Bytes} {s : State} (h : Canonical (mems s)) :
    Canonical (mems (continueRestore c m s).s) := by
  unfold continueRestore
  split
  · simp [h]
  · dsimp only
    split
    · simp [h]
    · split <;> simp [h]

theorem drawLands_continueAct {c : Ceremony} {m : Bytes} {s : State} (h : Canonical (mems s)) :
    DrawLands ActOut.s (continueAct c m s) := by
  unfold continueAct
  split
  · exact (drawMems_continueAdmit c m s).lands h
  · split <;> simp [h]

@[simp] theorem canonical_continueGo {e m : Bytes} {s : State} (h : Canonical (mems s)) :
    Canonical (mems (continueGo e m s).2.2) := by
  unfold continueGo
  split
  · simp [h]
  · simp [h]
  · next c _ _ =>
    have hc := drawLands_continueAct (c := c) (m := m) h
    split
    · next heq => rw [heq] at hc; exact hc
    · next heq =>
      rw [heq, drawLands_ok] at hc
      split
      · simp [h]
      · dsimp only
        split <;> simp [hc]

@[simp] theorem lands_execCeremonyContinue {s : State} (h : Canonical (mems s)) : Lands (execCeremonyContinue s) := by
  refine lands_runCeremony (fun j => ?_) h
  split
  · exact h
  · exact canonical_afterReads (canonical_adminAnswer (by simp [h])) h

@[simp] theorem lands_execLock {s : State} (h : Canonical (mems s)) : Lands (execLock s) :=
  lands_runAction (fun _ => by simp [h]) h

@[simp] theorem mems_unlockVoid (id : Nat) (root : Bytes) (s : State) :
    mems (unlockVoid id root s) = mems s := by simp [unlockVoid]

@[simp] theorem canonical_unlockGo {c : Ceremony} {root : Bytes} {s : State} (h : Canonical (mems s)) :
    Canonical (mems (unlockGo c root s)) := by
  have hl : ∀ b t, mems t = mems s → Canonical (mems (leaveLife false b t)) :=
    fun b t ht => canonical_leaveLife ((congrArg Canonical ht).mpr h)
  unfold unlockGo
  dsimp only
  split <;> simp [hl]

@[simp] theorem lands_execUnlock {s : State} (h : Canonical (mems s)) : Lands (execUnlock s) := by
  refine lands_runDraw (fun c => ?_) h
  split
  · exact h
  · split
    · exact (drawMems_fwRandom _ s).goLands h fun _ _ ht => by simp [ht]
    · simp [h]

@[simp] theorem lands_execDebugEnter {s : State} (h : Canonical (mems s)) : Lands (execDebugEnter s) := by
  refine lands_runDraw (fun c => ?_) h
  split
  · exact h
  · exact (drawMems_fwRandom _ s).goLands h fun _ _ ht => by simp [ht]

@[simp] theorem lands_execDebugExit {s : State} (h : Canonical (mems s)) : Lands (execDebugExit s) :=
  lands_runDraw (fun _ => (drawMems_fwRandom _ s).goLands h fun _ _ ht => by simp [ht]) h

@[simp] theorem lands_execDecommission {s : State} (h : Canonical (mems s)) : Lands (execDecommission s) :=
  lands_runAction (fun _ => by simp [h]) h

@[simp] theorem mems_registerImage (p image : Bytes) (s : State) :
    mems (registerImage p image s) = mems s := by simp [registerImage]

@[simp] theorem lands_execFwRegister {s : State} (h : Canonical (mems s)) : Lands (execFwRegister s) := by
  unfold execFwRegister
  split
  · exact (lands_next _).mpr h
  · split
    · extract_lets go
      have hgo : Lands (go s) := lands_runAction (fun c => by
        dsimp only
        split <;> simp [h]) h
      split
      · split <;> simp [h, hgo]
      · exact hgo
    · exact (lands_next _).mpr h

@[simp] theorem lands_execExtKey {s : State} (h : Canonical (mems s)) : Lands (execExtKey s) := by
  refine lands_runAction (fun c => ?_) h
  dsimp only
  split
  · simp [h]
  · exact canonical_foldl (fun s x hs => canonical_endExt hs) _ (by simp [h])

@[simp] theorem canonical_quorumWrite {u : DictUser} {w : QuorumWrite} {s : State} (h : Canonical (mems s)) :
    Canonical (mems (quorumWrite u w s)) := by
  unfold quorumWrite
  split <;> simp [h]

@[simp] theorem lands_execDictQuorum {s : State} (h : Canonical (mems s)) : Lands (execDictQuorum s) := by
  refine lands_runAction (fun c => ?_) h
  dsimp only
  split
  · simp [h]
  · exact canonical_foldl (fun s x hs => canonical_quorumWrite hs) _ (by simp [h])

@[simp] theorem lands_execCellService {s : State} (h : Canonical (mems s)) : Lands (execCellService s) :=
  lands_runAction (fun _ => by simp [h]) h

/-! ## The management port (Machine/Fdp.lean) -/

@[simp] theorem mems_dropPart (k : Nat) (s : State) : mems (dropPart k s) = mems s := by simp [dropPart]

@[simp] theorem mems_addFragment (k ty frag : Nat) (more : Bool) (b : Bytes) (s : State) :
    mems (addFragment k ty frag more b s).2 = mems s := by
  unfold addFragment
  dsimp only
  split
  · simp
  · split
    · simp
    · split <;> simp

@[simp] theorem mems_discovered (r : SessPath) (f : Bytes) (s : State) :
    mems (discovered r f s) = mems s := by simp [discovered]

@[simp] theorem drawMems_helloReply (m : Bytes) (s : State) : DrawMems s Prod.snd (helloReply m s) := by
  unfold helloReply
  exact (drawMems_fwRandom _ s).go fun _ s => (drawMems_fwKey _ s).go fun _ s => (drawMems_fwRandom _ s).go fun _ s =>
    (drawMems_makeStatement _ s).go fun _ _ => rfl

@[simp] theorem mems_startSession (r : SessPath) (m : Bytes) (s : State) : mems (startSession r m s) = mems s := by
  have h := drawMems_helloReply m s
  unfold startSession
  split
  · next e => rw [e] at h; exact h
  · next e => rw [e] at h; simpa using h

@[simp] theorem mems_helloed (r : SessPath) (m : Bytes) (s : State) : mems (helloed r m s) = mems s := by
  simp [helloed]

@[simp] theorem mems_helloFrame (r : SessPath) (f : Bytes) (s : State) : mems (helloFrame r f s) = mems s := by
  have h := mems_addFragment r.key Fdp.hello (frameFrag f) (frameMore f) (framePayload f) s
  unfold helloFrame
  split
  · simp
  · split
    · next e => rw [e] at h; simpa using h
    · next e => rw [e] at h; exact h

@[simp] theorem mems_failFrame (x : Session) (s : State) : mems (failFrame x s) = mems s := by
  simp [failFrame]

@[simp] theorem mems_acceptFrame (r : SessPath) (f : Bytes) (s : State) : mems (acceptFrame r f s).2 = mems s := by
  unfold acceptFrame
  split
  · simp
  · split
    · simp
    · split
      · simp
      · split <;> simp

theorem mems_sealedFrame {go : Session → Bytes → State → State} (hgo : ∀ x m s, mems (go x m s) = mems s)
    (r : SessPath) (f : Bytes) (s : State) : mems (sealedFrame r f go s) = mems s := by
  have h := mems_acceptFrame r f s
  unfold sealedFrame
  split
  · next e => rw [e] at h; exact h
  · next x p t e =>
    rw [e] at h
    have ht := mems_addFragment (sessionKey x.id) (frameTy f) (frameFrag f) (frameMore f) p t
    split
    · next e => rw [e] at ht; exact ((hgo ..).trans ht).trans h
    · next e => rw [e] at ht; exact ht.trans h

theorem canonical_sealedFrame {go : Session → Bytes → State → State}
    (hgo : ∀ x m s, Canonical (mems s) → Canonical (mems (go x m s))) {r : SessPath} {f : Bytes} {s : State}
    (h : Canonical (mems s)) : Canonical (mems (sealedFrame r f go s)) := by
  have ha : Canonical (mems (acceptFrame r f s).2) := (mems_acceptFrame r f s).symm ▸ h
  unfold sealedFrame
  split
  · next e => rw [e] at ha; exact ha
  · next x p t e =>
    rw [e] at ha
    have ht : Canonical (mems (addFragment (sessionKey x.id) (frameTy f) (frameFrag f) (frameMore f) p t).2) :=
      (mems_addFragment ..).symm ▸ ha
    split
    · next e => rw [e] at ht; exact hgo _ _ _ ht
    · next e => rw [e] at ht; exact ht

@[simp] theorem mems_authed (x : Session) (m : Bytes) (s : State) : mems (authed x m s) = mems s := by
  simp [authed]

@[simp] theorem canonical_runRequest {id entry : Nat} {m : Bytes} {s : State} (h : Canonical (mems s)) :
    Canonical (mems (runRequest id entry m s).2.2) := by
  unfold runRequest
  split
  · simp [h]
  · extract_lets op t r w
    have ht : Canonical (mems t) := canonical_readStore h
    have hw : Canonical (mems w.2) := by
      simp only [w]
      split <;> simp [h]
    clear_value op w t
    repeat' split
    all_goals simp [h, ht, hw]

@[simp] theorem canonical_runWork {id entry : Nat} {m : Bytes} {s : State} (h : Canonical (mems s)) :
    Canonical (mems (runWork id entry m s)) := by
  have hr : Canonical (mems (runRequest id entry m s).2.2) := canonical_runRequest h
  unfold runWork
  split
  · next e => rw [e] at hr; simpa using hr
  · next e => rw [e] at hr; split <;> exact hr

@[simp] theorem canonical_requested {x0 : Session} {m : Bytes} {s : State} (h : Canonical (mems s)) :
    Canonical (mems (requested x0 m s)) := by
  unfold requested
  split <;> simp [h]

@[simp] theorem mems_closed (x : Session) (_m : Bytes) (s : State) : mems (closed x _m s) = mems s := by
  simp [closed]

@[simp] theorem canonical_receiveFrame {r : SessPath} {f : Bytes} {s : State} (h : Canonical (mems s)) :
    Canonical (mems (receiveFrame r f s)) := by
  have hr : ∀ t, mems t = mems s → Canonical (mems (sealedFrame r f requested t)) :=
    fun t ht => canonical_sealedFrame (fun _ _ _ => canonical_requested) (ht.symm ▸ h)
  simp [receiveFrame, mems_sealedFrame, h, hr]

@[simp] theorem lands_arrive {ty : Nat} {r : FdpRoute} {s : State} (h : Canonical (mems s)) : Lands (arrive ty r s) := by
  unfold arrive
  split <;> simp [h]

@[simp] theorem lands_execDiscover {r : FdpRoute} {s : State} (h : Canonical (mems s)) : Lands (execDiscover r s) := by
  simp [execDiscover, h]

@[simp] theorem lands_execHello {r : FdpRoute} {s : State} (h : Canonical (mems s)) : Lands (execHello r s) := by simp [execHello, h]

@[simp] theorem lands_execAuth {r : FdpRoute} {s : State} (h : Canonical (mems s)) : Lands (execAuth r s) := by simp [execAuth, h]

@[simp] theorem lands_execRequest {r : FdpRoute} {s : State} (h : Canonical (mems s)) : Lands (execRequest r s) := by
  simp [execRequest, h]

@[simp] theorem lands_execClose {r : FdpRoute} {s : State} (h : Canonical (mems s)) : Lands (execClose r s) := by simp [execClose, h]

@[simp] theorem lands_execFragmentTimeout {k : Nat} {s : State} (h : Canonical (mems s)) : Lands (execFragmentTimeout k s) := by
  simp [execFragmentTimeout, h]

@[simp] theorem lands_execAuthTimeout {session : Nat} {s : State} (h : Canonical (mems s)) : Lands (execAuthTimeout session s) := by
  unfold execAuthTimeout
  split <;> simp [h]

@[simp] theorem lands_execSessionIdleTimeout {session : Nat} {s : State} (h : Canonical (mems s)) : Lands (execSessionIdleTimeout session s) := by
  unfold execSessionIdleTimeout
  split <;> simp [h]

@[simp] theorem mems_setBeacon (present : Bool) (s : State) : mems (setBeacon present s) = mems s := by
  simp [setBeacon]

@[simp] theorem lands_execPlcaBeaconChange {present : Bool} {s : State} (h : Canonical (mems s)) : Lands (execPlcaBeaconChange present s) := by simp [execPlcaBeaconChange, h]

@[simp] theorem canonical_deliverRelay {ch n : Nat} {b : Bytes} {s : State} (h : Canonical (mems s)) :
    Canonical (mems (deliverRelay ch n b s).2) := by
  induction n generalizing b s with
  | zero => exact h
  | succ n ih =>
    unfold deliverRelay
    split
    · exact h
    · dsimp only
      split
      · exact h
      · simp [ih, h]

@[simp] theorem canonical_relayAnswer {e : Bytes} {s : State} (h : Canonical (mems s)) :
    Canonical (mems (relayAnswer e s).2) := by
  simp [relayAnswer, h]

@[simp] theorem canonical_relayWaits {j : Job} {s : State} (h : Canonical (mems s)) :
    Canonical (mems (relayWaits j s).2) := by
  unfold relayWaits
  split
  · dsimp only
    split <;> simp [h]
  · dsimp only
    split <;> simp [h]

@[simp] theorem lands_execFdpRelay {s : State} (h : Canonical (mems s)) : Lands (execFdpRelay s) := by
  refine lands_runAdminSteps (fun j => ?_) h
  split
  · simp [h]
  · split
    · exact h
    · split
      · simp [h]
      · refine canonical_afterReads ?_ h
        dsimp only
        split <;> simp [h]

/-! ## Configuration space (Machine/ConfigSpace.lean) -/

@[simp] theorem mems_modLink (h : Link → Link) (s : State) : mems (modLink h s) = mems s := by simp [modLink]

/-! ## The DOE mailbox, SPDM and IDE (Machine/Spdm.lean) -/

@[simp] theorem mems_modConn (h : SpdmConn → SpdmConn) (s : State) : mems (modConn h s) = mems s := by
  simp [modConn]

@[simp] theorem mems_modSpdm (id : Nat) (h : SpdmSession → SpdmSession) (s : State) :
    mems (modSpdm id h s) = mems s := by simp [modSpdm]

@[simp] theorem mems_dropSpdm (id : Nat) (s : State) : mems (dropSpdm id s) = mems s := by simp [dropSpdm]

@[simp] theorem drawMems_spdmSign (ver : Nat) (name : String) (transcript : Bytes) (s : State) :
    DrawMems s Prod.snd (spdmSign ver name transcript s) := by simp [spdmSign]

@[simp] theorem drawMems_spdmSays (m : Bytes) (s t : State) :
    DrawMems s Prod.snd (spdmSays m t) ↔ mems t = mems s := Iff.rfl

@[simp] theorem drawMems_spdmVersion (m : Bytes) (s : State) : DrawMems s Prod.snd (spdmVersion m s) := by
  unfold spdmVersion
  exact .ite rfl rfl

@[simp] theorem drawMems_spdmCapabilities (m : Bytes) (s : State) : DrawMems s Prod.snd (spdmCapabilities m s) := by
  unfold spdmCapabilities
  exact .ite rfl rfl

@[simp] theorem drawMems_spdmAlgorithms (m : Bytes) (s : State) : DrawMems s Prod.snd (spdmAlgorithms m s) := by
  unfold spdmAlgorithms
  exact .ite rfl rfl

@[simp] theorem drawMems_spdmDigests (m : Bytes) (s : State) : DrawMems s Prod.snd (spdmDigests m s) := by
  simp [spdmDigests]

@[simp] theorem drawMems_spdmCertificate (m : Bytes) (s : State) : DrawMems s Prod.snd (spdmCertificate m s) := by
  unfold spdmCertificate
  exact .ite rfl rfl

@[simp] theorem drawMems_spdmChallenge (m : Bytes) (s : State) : DrawMems s Prod.snd (spdmChallenge m s) := by
  unfold spdmChallenge
  dsimp only
  split
  · simp
  · exact .ite rfl ((drawMems_fwRandom _ s).go fun _ s => (drawMems_spdmSign _ _ _ s).go fun _ _ => rfl)

@[simp] theorem mems_setMeasLog (x : Option SpdmSession) (b : Bytes) (s : State) :
    mems (setMeasLog x b s) = mems s := by
  unfold setMeasLog
  split <;> simp

@[simp] theorem drawMems_spdmMeasurements (x : Option SpdmSession) (m : Bytes) (s : State) :
    DrawMems s Prod.snd (spdmMeasurements x m s) := by
  unfold spdmMeasurements
  dsimp only
  split
  · simp
  · exact .ite rfl ((drawMems_fwRandom _ s).go fun _ s =>
      .ite ((drawMems_spdmSign _ _ _ s).go fun _ s => mems_setMeasLog x [] s) (mems_setMeasLog x _ s))

@[simp] theorem drawMems_spdmKeyExchange (m : Bytes) (s : State) : DrawMems s Prod.snd (spdmKeyExchange m s) := by
  unfold spdmKeyExchange
  dsimp only
  split
  · simp
  · exact .ite rfl (.ite rfl (.ite rfl ((drawMems_fwRandom _ s).go fun _ s => (drawMems_fwKey _ s).go fun _ s =>
      (drawMems_spdmSign _ _ _ s).go fun _ _ => rfl)))

@[simp] theorem mems_ideKeyProg (q : IdeReq) (s : State) : mems (ideKeyProg q s).2 = mems s := by
  simp [ideKeyProg]

@[simp] theorem mems_ideKeyGo (q : IdeReq) (s : State) : mems (ideKeyGo q s).2 = mems s := by
  unfold ideKeyGo
  split <;> simp

@[simp] theorem mems_ideKeyStop (q : IdeReq) (s : State) : mems (ideKeyStop q s).2 = mems s := by
  simp [ideKeyStop]

theorem mems_of_ideAnswer {p : Bytes} {s : State} {r : Bytes × State} (h : ideAnswer p s = some r) :
    mems r.2 = mems s := by
  unfold ideAnswer at h
  dsimp only at h
  split at h
  · cases h
  · split at h <;> cases h <;> simp

@[simp] theorem drawMems_spdmVendor (m : Bytes) (s : State) : DrawMems s Prod.snd (spdmVendor m s) := by
  unfold spdmVendor
  dsimp only
  split
  · next p t h =>
    split at h
    · simpa using mems_of_ideAnswer h
    · cases h
  · simp

@[simp] theorem drawMems_spdmPlain (m : Bytes) (s : State) : DrawMems s Prod.snd (spdmPlain m s) := by
  unfold spdmPlain
  extract_lets ver code c s1
  have h : mems s1 = mems s := by
    simp only [s1]
    split <;> simp
  clear_value ver code c s1
  refine DrawMems.trans ?_ h
  split
  · simp
  · exact .ite (drawMems_spdmVersion m s1) (.ite rfl (.ite rfl (.ite (drawMems_spdmCapabilities m s1)
      (.ite (drawMems_spdmAlgorithms m s1) (.ite (drawMems_spdmDigests m s1) (.ite (drawMems_spdmCertificate m s1)
        (.ite (drawMems_spdmChallenge m s1) (.ite (drawMems_spdmMeasurements none m s1) (.ite rfl
          (drawMems_spdmKeyExchange m s1))))))))))

@[simp] theorem drawMems_spdmFinish (x : SpdmSession) (m : Bytes) (s : State) : DrawMems s Prod.snd (spdmFinish x m s) := by
  unfold spdmFinish
  refine .ite rfl ?_
  rw [drawMems_ite]
  simp

@[simp] theorem drawMems_spdmKeyUpdate (x : SpdmSession) (m : Bytes) (s : State) :
    DrawMems s Prod.snd (spdmKeyUpdate x m s) := by
  unfold spdmKeyUpdate
  exact .ite rfl (.ite rfl (.ite rfl rfl))

@[simp] theorem drawMems_spdmInner (x : SpdmSession) (m : Bytes) (s : State) : DrawMems s Prod.snd (spdmInner x m s) := by
  unfold spdmInner
  extract_lets code s1
  have h : mems s1 = mems s := by
    simp only [s1]
    split <;> simp
  clear_value code s1
  refine DrawMems.trans ?_ h
  exact .ite rfl (.ite (.ite (drawMems_spdmFinish x m s1) rfl) (.ite (mems_dropSpdm _ s1) (.ite rfl
    (.ite (drawMems_spdmKeyUpdate x m s1) (.ite (drawMems_spdmVendor m s1) (.ite (drawMems_spdmMeasurements _ m s1)
      (.ite (drawMems_spdmDigests m s1) (.ite (drawMems_spdmCertificate m s1) rfl))))))))

@[simp] theorem drawMems_spdmRun (x : Option SpdmSession) (m : Bytes) (s : State) :
    DrawMems s Prod.snd (spdmRun x m s) := by
  unfold spdmRun
  split <;> simp

@[simp] theorem mems_spdmFits (ver : Nat) (r : Bytes) (s : State) : mems (spdmFits ver r s).2 = mems s := by
  unfold spdmFits
  dsimp only
  split <;> simp

@[simp] theorem drawMems_chunkBad (m : Bytes) (code : Nat) (s : State) : DrawMems s Prod.snd (chunkBad m code s) := by
  simp [chunkBad]

@[simp] theorem drawMems_chunkSend (x : Option SpdmSession) (m : Bytes) (s : State) :
    DrawMems s Prod.snd (chunkSend x m s) := by
  unfold chunkSend
  dsimp only
  split <;> simp

@[simp] theorem drawMems_chunkGet (m : Bytes) (s : State) : DrawMems s Prod.snd (chunkGet m s) := by
  unfold chunkGet
  split <;> simp

@[simp] theorem drawMems_spdmRespond (x : Option SpdmSession) (m : Bytes) (s : State) :
    DrawMems s Prod.snd (spdmRespond x m s) := by simp [spdmRespond]

@[simp] theorem drawMems_spdmSecured (x : SpdmSession) (m : Bytes) (s : State) : DrawMems s Prod.snd (spdmSecured x m s) := by
  unfold spdmSecured
  exact ((drawMems_spdmRespond _ m _).trans (mems_modSpdm _ _ s)).go fun _ t => mems_modSpdm _ _ t

@[simp] theorem mems_doeReply (obj : Bytes) (s : State) : mems (doeReply obj s) = mems s := by
  simp [doeReply]

theorem mems_doeAnswer {obj : Bytes} {ty : Nat} {s : State} {r : Drawn Bytes} (h : DrawMems s Prod.snd r) :
    mems (doeAnswer obj ty r) = mems s := by
  unfold doeAnswer
  split
  · simpa using h
  · simpa using h

@[simp] theorem mems_doeServe (obj : Bytes) (s : State) : mems (doeServe obj s) = mems s := by
  unfold doeServe
  dsimp only
  split
  · rfl
  · split
    · simp
    · split
      · exact mems_doeAnswer (drawMems_spdmRespond _ _ s)
      · split
        · split
          · rfl
          · exact mems_doeAnswer (drawMems_spdmSecured _ _ s)
        · rfl

@[simp] theorem lands_execSpdmRequest {obj : Bytes} {s : State} (h : Canonical (mems s)) : Lands (execSpdmRequest obj s) := by
  simp [execSpdmRequest, h]

@[simp] theorem lands_execDoeAbort {s : State} (h : Canonical (mems s)) : Lands (execDoeAbort s) := by simp [execDoeAbort, h]

@[simp] theorem lands_ideKm {session : Nat} {p : Bytes} {s : State} (h : Canonical (mems s)) : Lands (ideKm session p s) := by
  unfold ideKm
  split
  · simp [h]
  · next x _ =>
    have hx := (drawMems_spdmSecured x (spdmMsg x.ver 0xFE 0 0 (vendorBody p)) s).lands h
    split
    · simp [h]
    · split
      · next e => rw [e] at hx; simpa using hx
      · next e => rw [e] at hx; simpa using hx

@[simp] theorem lands_execIdeKmQuery {session port : Nat} {s : State} (h : Canonical (mems s)) : Lands (execIdeKmQuery session port s) := by simp [execIdeKmQuery, h]

@[simp] theorem lands_execIdeKmKeyProg {session stream keySet sub : Nat} {tx : Bool} {key iv : Bytes} {s : State} (h : Canonical (mems s)) : Lands (execIdeKmKeyProg session stream keySet sub tx key iv s) := by simp [execIdeKmKeyProg, h]

@[simp] theorem lands_execIdeKmKSetGo {session stream keySet sub : Nat} {tx : Bool} {s : State} (h : Canonical (mems s)) : Lands (execIdeKmKSetGo session stream keySet sub tx s) := by simp [execIdeKmKSetGo, h]

@[simp] theorem lands_execIdeKmKSetStop {session stream keySet sub : Nat} {tx : Bool} {s : State} (h : Canonical (mems s)) : Lands (execIdeKmKSetStop session stream keySet sub tx s) := by simp [execIdeKmKSetStop, h]

/-! ## The host link (Machine/HostLink.lean) -/

@[simp] theorem lands_execLinkUp {rate width : Nat} {flit : Bool} {s : State} (h : Canonical (mems s)) : Lands (execLinkUp rate width flit s) := by simp [execLinkUp, h]

@[simp] theorem mems_linkDown (s : State) : mems (linkDown s) = mems s := by simp [linkDown]

@[simp] theorem canonical_resetLink {s : State} (h : Canonical (mems s)) :
    Canonical (mems (resetLink s)) := by simp [resetLink, h]

@[simp] theorem lands_execLinkReset {s : State} (h : Canonical (mems s)) : Lands (execLinkReset s) := by simp [execLinkReset, h]

@[simp] theorem mems_splitFailure (side : Nat) (s : State) : mems (splitFailure side s) = mems s := by
  simp [splitFailure]

@[simp] theorem mems_ideInsecure (stream : Nat) (s : State) : mems (ideInsecure stream s) = mems s := by
  simp [ideInsecure]

@[simp] theorem mems_ideVerdict (v : IdeCheck) (s : State) : mems (ideVerdict v s) = mems s := by
  unfold ideVerdict
  split <;> simp

@[simp] theorem lands_execInboundFlit {a b : Bool} {v : IdeCheck} {s : State} (h : Canonical (mems s)) : Lands (execInboundFlit a b v s) := by simp [execInboundFlit, h]

/-! ## The target gates (Machine/Gates.lean) -/

@[simp] theorem mems_captureFault (a : Attr) (x : Access) (addr : Nat) (s : State) :
    mems (captureFault a x addr s) = mems s := by simp [captureFault]

@[simp] theorem mems_takeTrap (a : Attr) (x : Access) (addr : Nat) (s : State) :
    mems (takeTrap a x addr s) = mems s := by simp [takeTrap]

@[simp] theorem mems_countRefusal (s : State) : mems (countRefusal s) = mems s := by simp [countRefusal]

@[simp] theorem canonical_unitFault {a : Attr} {x : Access} {addr : Nat} {s : State} (h : Canonical (mems s)) :
    Canonical (mems (unitFault a x addr s)) := by simp [unitFault, h]

@[simp] theorem canonical_gateRefuse {a : Attr} {x : Access} {addr : Nat} {s : State} (h : Canonical (mems s)) :
    Canonical (mems (gateRefuse a x addr s)) := by simp [gateRefuse, h]

@[simp] theorem mems_unitTurn (a : Attr) (s : State) : mems (unitTurn a s) = mems s := by simp [unitTurn]

@[simp] theorem mems_debugRefuse (a : Attr) (x : Access) (addr : Nat) (s : State) :
    mems (debugRefuse a x addr s) = mems s := by simp [debugRefuse]

/-! ## Register accesses (Machine/Registers.lean) -/

@[simp] theorem canonical_after {o : Outcome State} {s : State} (ho : Lands o) (h : Canonical (mems s)) :
    Canonical (mems (after o s)) := by
  unfold after
  split
  · exact ho _ rfl
  · exact h

@[simp] theorem mems_signalTimes (n : Nat) (s : State) : mems (signalTimes n s) = mems s := by
  induction n generalizing s with
  | zero => rfl
  | succ n ih => simp [signalTimes, ih]

@[simp] theorem mems_putDsrcEn (k v : Nat) (s : State) : mems (putDsrcEn k v s) = mems s := by
  simp [putDsrcEn]

@[simp] theorem mems_putDsrcCfg (v : Nat) (s : State) : mems (putDsrcCfg v s) = mems s := by
  simp [putDsrcCfg]

@[simp] theorem mems_putReq (v : Nat) (s : State) : mems (putReq v s) = mems s := by simp [putReq]

@[simp] theorem mems_putKeep (v : Nat) (s : State) : mems (putKeep v s) = mems s := by simp [putKeep]

@[simp] theorem mems_kickDog (v : Nat) (s : State) : mems (kickDog v s) = mems s := by simp [kickDog]

@[simp] theorem mems_moveCursor (v : Nat) (s : State) : mems (moveCursor v s) = mems s := by
  simp [moveCursor]

@[simp] theorem mems_putRule (off v : Nat) (s : State) : mems (putRule off v s) = mems s := by simp [putRule]

@[simp] theorem mems_storeReg (c off v : Nat) (b : Bits) (s : State) : mems (storeReg c off v b s) = mems s := by
  simp [storeReg]

@[simp] theorem mems_writeReg (a : Attr) (c off : Nat) (b : Bits) (s : State) : mems (writeReg a c off b s) = mems s := by
  unfold writeReg
  split
  · rfl
  · simp

@[simp] theorem mems_writeWindow (a : Attr) (c off v : Nat) (s : State) : mems (writeWindow a c off v s) = mems s := by
  simp [writeWindow]

theorem canonical_of_gateStops {a : Attr} {x : Access} {addr n : Nat} {s t : State} (hg : gateStops a x addr n s = some t)
    (h : Canonical (mems s)) : Canonical (mems t) := by
  unfold gateStops at hg
  split at hg <;> split at hg <;> cases hg <;> simp [h]

@[simp] theorem canonical_writeBar {a : Attr} {addr n v : Nat} {s : State} (h : Canonical (mems s)) :
    Canonical (mems (writeBar a addr n v s)) := by
  have ht : Canonical (mems (unitTurn a s)) := (mems_unitTurn a s).symm ▸ h
  unfold writeBar
  split
  · exact h
  · dsimp only
    split
    · next hg => exact canonical_of_gateStops hg ht
    · simp [h]

@[simp] theorem mems_writeAqBase (f off : Nat) (wide : Bool) (v : Nat) (s : State) :
    mems (writeAqBase f off wide v s) = mems s := by simp [writeAqBase]

@[simp] theorem canonical_writeAqCfg {f : Nat} {v : Word} {s : State} (h : Canonical (mems s)) :
    Canonical (mems (writeAqCfg f v s)) := by
  simp [writeAqCfg, h]

@[simp] theorem mems_clearStatus (f off : Nat) (v : Word) (s : State) :
    mems (clearStatus f off v s) = mems s := by simp [clearStatus]

@[simp] theorem mems_writeIrqCfg (f : Nat) (v : Word) (s : State) : mems (writeIrqCfg f v s) = mems s := by
  simp [writeIrqCfg]

@[simp] theorem mems_writeImod (f v : Nat) (w : Word) (s : State) : mems (writeImod f v w s) = mems s := by
  simp [writeImod]

@[simp] theorem canonical_writeMsix {f off : Nat} {wide : Bool} {v : Nat} {s : State} (h : Canonical (mems s)) :
    Canonical (mems (writeMsix f off wide v s)) := by
  simp [writeMsix, h]

@[simp] theorem canonical_writePageReg {f off : Nat} {wide : Bool} {v : Nat} {s : State} (h : Canonical (mems s)) :
    Canonical (mems (writePageReg f off wide v s)) := by
  simp [writePageReg, h]

@[simp] theorem canonical_writePage {f off n v : Nat} {s : State} (h : Canonical (mems s)) :
    Canonical (mems (writePage f off n v s)) := by
  simp [writePage, h]

@[simp] theorem canonical_writeCommand {f v : Nat} {s : State} (h : Canonical (mems s)) :
    Canonical (mems (writeCommand f v s)) := by
  simp [writeCommand, h]

@[simp] theorem canonical_writeMsixControl {f : Nat} {enable mask : Bool} {s : State} (h : Canonical (mems s)) :
    Canonical (mems (writeMsixControl f enable mask s)) := by
  simp [writeMsixControl, h]

@[simp] theorem canonical_writeDeviceControl {f v : Nat} {s : State} (h : Canonical (mems s)) :
    Canonical (mems (writeDeviceControl f v s)) := by simp [writeDeviceControl, h]

@[simp] theorem canonical_writeSriovControl {v : Nat} {s : State} (h : Canonical (mems s)) :
    Canonical (mems (writeSriovControl v s)) := by
  simp [writeSriovControl, h]

@[simp] theorem mems_writeDoe (d o n v : Nat) (s : State) : mems (writeDoe d o n v s) = mems s := by
  unfold writeDoe
  split
  · split
    · simp [execDoeAbort, after]
    · split
      · simp [execSpdmRequest, after]
      · rfl
  · simp

@[simp] theorem canonical_writeCfgReg {f d o n v : Nat} {s : State} (h : Canonical (mems s)) :
    Canonical (mems (writeCfgReg f d o n v s)) := by
  simp [writeCfgReg, h]

@[simp] theorem canonical_writeCfg {f off n v : Nat} {s : State} (h : Canonical (mems s)) :
    Canonical (mems (writeCfg f off n v s)) := by
  simp [writeCfg, h]

@[simp] theorem lands_execRegisterWrite {s : State} {a : Attr} {p : RegPlace} {size v : Nat} (h : Canonical (mems s)) : Lands (execRegisterWrite a p size v s) := by
  cases p <;> simp [execRegisterWrite, canonical_writeBar, h]

@[simp] theorem lands_execAliasWrite {s : State} {a : Attr} {p : RegPlace} {v : Word} (h : Canonical (mems s)) : Lands (execAliasWrite a p v s) := by
  cases p <;> simp [execAliasWrite, canonical_writeBar, h]

@[simp] theorem lands_writeMirrorOf {s : State} {kind : Nat} {a : Attr} {addr : Nat} {v : Word} (h : Canonical (mems s)) : Lands (writeMirrorOf kind a addr v s) := by
  simp [writeMirrorOf, canonical_writeBar, h]

@[simp] theorem lands_execGateRuleWrite {s : State} {a : Attr} {addr : Nat} {v : Word} (h : Canonical (mems s)) : Lands (execGateRuleWrite a addr v s) := by
  simp [execGateRuleWrite, canonical_writeBar, h]

@[simp] theorem lands_execAdvance {s : State} {a : Attr} {v : Word} (h : Canonical (mems s)) : Lands (execAdvance a v s) := by
  simp [execAdvance, canonical_writeBar, h]

@[simp] theorem lands_execRetreat {s : State} {a : Attr} {v : Word} (h : Canonical (mems s)) : Lands (execRetreat a v s) := by
  simp [execRetreat, canonical_writeBar, h]

@[simp] theorem lands_execKick {s : State} {a : Attr} {v : Word} (h : Canonical (mems s)) : Lands (execKick a v s) := by
  simp [execKick, canonical_writeBar, h]

@[simp] theorem lands_execPwReqWrite {s : State} {a : Attr} {v : Word} (h : Canonical (mems s)) : Lands (execPwReqWrite a v s) := by
  simp [execPwReqWrite, canonical_writeBar, h]

@[simp] theorem lands_execPwKeepWrite {s : State} {a : Attr} {v : Word} (h : Canonical (mems s)) : Lands (execPwKeepWrite a v s) := by
  simp [execPwKeepWrite, canonical_writeBar, h]

@[simp] theorem lands_execQuiesceGrant {block : Nat} {s : State} (h : Canonical (mems s)) : Lands (execQuiesceGrant block s) := by
  simp [execQuiesceGrant, h]

@[simp] theorem mems_resetReg (c off : Nat) (s : State) : mems (resetReg c off s) = mems s := by
  simp [resetReg]

@[simp] theorem mems_parityRecord (p0 off how : Nat) (again : Bool) (s : State) :
    mems (parityRecord p0 off how again s) = mems s := by simp [parityRecord]

@[simp] theorem canonical_parityError {r : RegPlace} {again : Bool} {s : State} (h : Canonical (mems s)) :
    Canonical (mems (parityError r again s)) := by
  cases r with
  | bar addr =>
    unfold parityError
    dsimp only
    split <;> simp [h]
  | page f off => simp [parityError, h]
  | cfg f off => exact h

@[simp] theorem canonical_scrubAll {seen l : List RegPlace} {s : State} (h : Canonical (mems s)) :
    Canonical (mems (scrubAll seen l s)) := by
  induction l generalizing seen s with
  | nil => exact h
  | cons r l ih => exact ih (canonical_parityError h)

@[simp] theorem lands_execParityScrub {bad : List RegPlace} {s : State} (h : Canonical (mems s)) :
    Lands (execParityScrub bad s) := by
  simp [execParityScrub, h]

@[simp] theorem mems_takeLeast (r : ShadowReg) (s : State) : mems (takeLeast r s) = mems s := by
  simp [takeLeast]

@[simp] theorem mems_reRead (s : State) : mems (reRead s) = mems s := by
  unfold reRead
  split <;> simp

@[simp] theorem lands_execShadowMismatch {r : ShadowReg} {s : State} (h : Canonical (mems s)) : Lands (execShadowMismatch r s) := by
  simp [execShadowMismatch, h]

@[simp] theorem mems_vesperSilent (offset : Nat) (write : Bool) (s : State) :
    mems (vesperSilent offset write s) = mems s := by simp [vesperSilent]

@[simp] theorem lands_execVsAccessTimeout {offset : Nat} {write : Bool} {s : State} (h : Canonical (mems s)) : Lands (execVsAccessTimeout offset write s) := by simp [execVsAccessTimeout, h]

@[simp] theorem lands_execDebugAccess {addr : Nat} {write : Bool} {v : Word} {s : State} (h : Canonical (mems s)) :
    Lands (execDebugAccess addr write v s) := by
  have answered (d : Nat) (t : State) : mems (if write then t else emit (.debugRead addr (BitVec.ofNat 32 d)) t) = mems t := by
    split <;> simp
  unfold execDebugAccess
  extract_lets x a answer
  split
  · simp [h]
  · split
    · simp [answer, answered, h]
    · split
      · simp [answer, answered, h]
      · split <;> simp [h]

@[simp] theorem lands_execDebugHalt {s : State} (h : Canonical (mems s)) : Lands (execDebugHalt s) := by simp [execDebugHalt, h]

@[simp] theorem lands_execDebugResume {s : State} (h : Canonical (mems s)) : Lands (execDebugResume s) := by simp [execDebugResume, h]

/-! ## Resets of the device (Machine/Reset.lean) -/

theorem canonical_leaveTraces {s : State} (h : Canonical (mems s)) : Canonical (mems (leaveTraces s)) :=
  canonical_foldl (fun _ _ hs => by split <;> simp [hs]) _ h

/-- A reset of the main die empties control RAM (R452). -/
theorem canonical_clearMainDie {cold : Bool} {s : State} (h : Canonical (mems s)) : Canonical (mems (clearMainDie cold s)) :=
  ⟨(canonical_leaveTraces h).1, rfl⟩

theorem canonical_warmReset {fault : Bool} {s : State} (h : Canonical (mems s)) : Canonical (mems (warmReset fault s)) :=
  canonical_clearMainDie (cold := false) h

@[simp] theorem lands_execPerstFall {s : State} (h : Canonical (mems s)) : Lands (execPerstFall s) := by
  unfold execPerstFall
  split
  · exact (lands_next _).mpr (canonical_clearMainDie (cold := false) h)
  · exact (lands_next _).mpr h

theorem mems_tearRecord (s : State) : mems (tearRecord s) = mems s := by
  unfold tearRecord
  split
  · rfl
  · split <;> rfl

@[simp] theorem lands_execSupplyLoss {s : State} (h : Canonical (mems s)) : Lands (execSupplyLoss s) := by
  unfold execSupplyLoss
  split
  · exact (lands_next _).mpr h
  · refine (lands_next _).mpr (canonical_clearMainDie (cold := true) ?_)
    split
    · rwa [mems_tearRecord]
    · exact h

@[simp] theorem mems_haltSecure (s : State) : mems (haltSecure s) = mems s := by simp [haltSecure]

@[simp] theorem lands_execWatchdog {s : State} (h : Canonical (mems s)) : Lands (execWatchdog s) := by
  unfold execWatchdog
  split
  · dsimp only
    split
    · simp [h]
    · split
      · exact (lands_next _).mpr (canonical_warmReset (by simp [h]))
      · simp [h]
  · exact (lands_next _).mpr h

@[simp] theorem lands_execDeviceFaultAction {s : State} (h : Canonical (mems s)) : Lands (execDeviceFaultAction s) := by
  unfold execDeviceFaultAction
  split
  · split
    · split
      · exact (lands_next _).mpr (canonical_warmReset h)
      · exact (lands_next _).mpr h
    · split <;> simp [h]
  · exact (lands_next _).mpr h

@[simp] theorem lands_execPerstRise {s : State} (h : Canonical (mems s)) : Lands (execPerstRise s) := by simp [execPerstRise, h]

@[simp] theorem lands_execPowerOnReset {s : State} (h : Canonical (mems s)) : Lands (execPowerOnReset s) := by simp [execPowerOnReset, h]

@[simp] theorem lands_execGlitchArm {s : State} (h : Canonical (mems s)) : Lands (execGlitchArm s) := by simp [execGlitchArm, h]

@[simp] theorem lands_execRefclkLoss {s : State} (h : Canonical (mems s)) : Lands (execRefclkLoss s) := by simp [execRefclkLoss, h]

@[simp] theorem lands_execRefclkReturn {s : State} (h : Canonical (mems s)) : Lands (execRefclkReturn s) := by simp [execRefclkReturn, h]

@[simp] theorem lands_execOperatingConditionsChange {within : Bool} {s : State} (h : Canonical (mems s)) : Lands (execOperatingConditionsChange within s) := by simp [execOperatingConditionsChange, h]

/-! ## Faults (Machine/Faults.lean) -/

@[simp] theorem lands_whileRunning {g : State → State} {s : State} (hg : Canonical (mems (g s))) (h : Canonical (mems s)) :
    Lands (whileRunning g s) := by
  simp [whileRunning, hg, h]

@[simp] theorem lands_execMeridianSourceCheck {ref osc cal : Nat} {s : State} (h : Canonical (mems s)) :
    Lands (execMeridianSourceCheck ref osc cal s) := by
  refine lands_whileRunning ?_ h
  dsimp only
  generalize (if s.clock.onRef then _ else _ : Bool) = onRef
  simp [h]

@[simp] theorem mems_breakBlock (c : Nat) (s : State) : mems (breakBlock c s) = mems s := by
  simp [breakBlock]

@[simp] theorem mems_controlStage (block stage : Nat) (retryAgrees pass1 pass2 : Bool) (s : State) :
    mems (controlStage block stage retryAgrees pass1 pass2 s) = mems s := by simp [controlStage]

@[simp] theorem lands_execControlStageDisagreement {block stage : Nat} {retryAgrees pass1 pass2 : Bool} {s : State} (h : Canonical (mems s)) : Lands (execControlStageDisagreement block stage retryAgrees pass1 pass2 s) := by
  simp [execControlStageDisagreement, h]

@[simp] theorem mems_setUnit (iris : Bool) (n : Nat) (s : State) : mems (setUnit iris n s) = mems s := by
  simp [setUnit]

@[simp] theorem mems_switchOver (cause : Nat) (s : State) : mems (switchOver cause s) = mems s := by
  simp [switchOver]

@[simp] theorem mems_dropUnit (iris : Bool) (s : State) : mems (dropUnit iris s) = mems s := by
  simp [dropUnit]

@[simp] theorem mems_faultUnit (iris : Bool) (cause : Nat) (s : State) :
    mems (faultUnit iris cause s) = mems s := by simp [faultUnit]

@[simp] theorem mems_cuMasked (how unit : Nat) (m : CuMismatch) (s : State) :
    mems (cuMasked how unit m s) = mems s := by simp [cuMasked]

@[simp] theorem mems_diagnosed (m : CuMismatch) (s : State) : mems (diagnosed m s) = mems s := by
  simp [diagnosed]

@[simp] theorem mems_cuProcedure (m : CuMismatch) (s : State) : mems (cuProcedure m s) = mems s := by
  unfold cuProcedure
  split <;> simp

@[simp] theorem mems_cuAlone (m : CuMismatch) (s : State) : mems (cuAlone m s) = mems s := by simp [cuAlone]

@[simp] theorem mems_cuHandle (m : CuMismatch) (s : State) : mems (cuHandle m s) = mems s := by
  simp [cuHandle]

@[simp] theorem lands_execCuMismatch {m : CuMismatch} {s : State} (h : Canonical (mems s)) : Lands (execCuMismatch m s) := by
  simp [execCuMismatch, h]

@[simp] theorem lands_execCuResync {pass : Bool} {us : Nat} {s : State} (h : Canonical (mems s)) : Lands (execCuResync pass us s) := by
  simp [execCuResync, h]

@[simp] theorem mems_stallIn (block : Nat) (s : State) : mems (stallIn block s) = mems s := by simp [stallIn]

@[simp] theorem lands_execStallLimit {st : StallStage} {s : State} (h : Canonical (mems s)) : Lands (execStallLimit st s) := by
  cases st with
  | pkCore c =>
    simp only [execStallLimit]
    split <;> simp [h]
  | splitter c =>
    simp only [execStallLimit]
    refine lands_whileRunning ?_ h
    exact canonical_fencePair (canonical_fencePair h)
  | drbg => simp [execStallLimit, h]
  | store area addr again => simp [execStallLimit, h]
  | _ => simp [execStallLimit, h]

@[simp] theorem mems_releaseClaims (s : State) : mems (releaseClaims s) = mems s :=
  mems_foldl (fun s j => by split <;> simp) _ s

@[simp] theorem canonical_endAll {s : State} (h : Canonical (mems s)) : Canonical (mems (endAll s)) :=
  canonical_foldl (fun s j hs => by
    split
    · exact canonical_endJob (by split <;> simp [hs])
    · exact hs) _ h

@[simp] theorem mems_eraseLanes (s : State) : mems (eraseLanes s) = mems s := by simp [eraseLanes]

@[simp] theorem canonical_deviceFault {seq : Nat} {s : State} (h : Canonical (mems s)) :
    Canonical (mems (deviceFault seq s)) := by
  unfold deviceFault
  dsimp only
  rw [mems_eraseLanes]
  refine canonical_endAll ?_
  rw [mems_persist, mems_mk, mems_eta, mems_record, mems_bump, mems_releaseClaims]
  exact h

@[simp] theorem lands_execDeviceFault {seq : Nat} {s : State} (h : Canonical (mems s)) : Lands (execDeviceFault seq s) := by
  have hw : Lands (whileRunning (deviceFault seq) s) := lands_whileRunning (canonical_deviceFault h) h
  simp [execDeviceFault, hw, h]

@[simp] theorem lands_execEventRecordWrite {s : State} (h : Canonical (mems s)) : Lands (execEventRecordWrite s) := by
  unfold execEventRecordWrite
  split <;> simp [h]

@[simp] theorem lands_execRateWindowEnd {s : State} (h : Canonical (mems s)) : Lands (execRateWindowEnd s) := by
  simp [execRateWindowEnd, h]

/-! ## Start-up (Machine/Startup.lean) -/

@[simp] theorem canonical_restoreVesper {s : State} (h : Canonical (mems s)) : Canonical (mems (restoreVesper s)) := by
  unfold restoreVesper
  extract_lets s1
  have hs : mems s1 = mems s := mems_modVesper _ s
  clear_value s1
  split <;> simp [hs, h]

@[simp] theorem mems_loadMeridian (s : State) : mems (loadMeridian s) = mems s := by simp [loadMeridian]

@[simp] theorem lands_execVesperStateRead {s : State} (h : Canonical (mems s)) : Lands (execVesperStateRead s) := by
  simp [execVesperStateRead, h]

@[simp] theorem mems_drainVesper (s : State) : mems (drainVesper s) = mems s := by simp [drainVesper]

@[simp] theorem mems_noteCopies (r : SelfTest) (s : State) : mems (noteCopies r s) = mems s := by
  simp [noteCopies]

@[simp] theorem mems_placeUnits (r : SelfTest) (s : State) : mems (placeUnits r s) = mems s := by
  simp [placeUnits]

@[simp] theorem mems_placeControl (r : SelfTest) (s : State) : mems (placeControl r s) = mems s := by
  simp [placeControl]

@[simp] theorem mems_noteSimplex (x : Nat × Nat) (s : State) : mems (noteSimplex x s) = mems s := by
  simp [noteSimplex]

@[simp] theorem mems_chooseProfile (s : State) : mems (chooseProfile s) = mems s := by
  unfold chooseProfile
  split
  · dsimp only
    split <;> simp
  · dsimp only
    split <;> simp

@[simp] theorem mems_takeRail (mv : Nat) (s : State) : mems (takeRail mv s) = mems s := by simp [takeRail]

@[simp] theorem lands_execMainDieSelfTest {r : SelfTest} {s : State} (h : Canonical (mems s)) :
    Lands (execMainDieSelfTest r s) := by
  unfold execMainDieSelfTest
  have hc : ∀ t, mems t = mems s → Canonical (mems ((List.range 5).foldl (fun s n => checkSet n s) t)) :=
    fun t ht => canonical_foldl (fun _ _ => canonical_checkSet) _ (ht.symm ▸ h)
  split
  · dsimp only
    split <;> simp [hc]
  · exact (lands_next _).mpr h

@[simp] theorem mems_noteImage (new : Option Image) (chosen : Option (Image × Bool)) (s : State) :
    mems (noteImage new chosen s) = mems s := by
  unfold noteImage
  split <;> simp

@[simp] theorem lands_execFirmwareCheck {r : FirmwareScan} {s : State} (h : Canonical (mems s)) : Lands (execFirmwareCheck r s) := by
  unfold execFirmwareCheck
  split
  · dsimp only
    split
    · simp [h]
    · split <;> simp [h]
  · simp [h]

@[simp] theorem lands_execRootHandOff {s : State} (h : Canonical (mems s)) : Lands (execRootHandOff s) := by simp [execRootHandOff, h]

@[simp] theorem mems_askSeeds (s : State) : mems (askSeeds s) = mems s := by simp [askSeeds]

@[simp] theorem mems_seedFirst (s : State) : mems (seedFirst s) = mems s := by
  unfold seedFirst
  split
  · split
    · rfl
    · next s1 e =>
      have h1 : mems s1 = mems s := by
        split at e
        · cases e; rfl
        · exact mems_of_firstSeed e
      have h := drawMems_fwRandom 32 (askSeeds s1)
      split
      · next e => rw [e] at h; simpa [h1] using h
      · next e => rw [e] at h; simpa [h1] using h
  · rfl

@[simp] theorem mems_loadSlot (bad : List Nat) (s : State) (n : Nat) : mems (loadSlot bad s n) = mems s := by
  simp [loadSlot]

@[simp] theorem mems_loadTenants (bad : List Nat) (s : State) : mems (loadTenants bad s) = mems s := by
  simp [loadTenants]

@[simp] theorem mems_armSweep (s : State) : mems (armSweep s) = mems s := by simp [armSweep]

@[simp] theorem lands_execSlotsLoaded {bad : List Nat} {s : State} (h : Canonical (mems s)) : Lands (execSlotsLoaded bad s) := by
  simp [execSlotsLoaded, h]

theorem canonical_loadStored {s : State} {b : Bytes} (h : Canonical (mems s)) : Canonical (mems (loadStored s b)) := by
  simp [loadStored, h]

@[simp] theorem lands_execQueuesOpen {s : State} (h : Canonical (mems s)) : Lands (execQueuesOpen s) := by
  unfold execQueuesOpen
  split
  · have hl : Canonical (mems (s.worlds.stored.foldl loadStored s)) := canonical_foldl (fun _ _ => canonical_loadStored) _ h
    rw [lands_settled]
    by_cases hs : (s.boot.serviceFw && !s.regs.rulesLock) = true
    · simpa [hs] using hl
    · simpa [hs] using h
  · exact (lands_next _).mpr h

/-! ## Random bytes that arrive (Machine/Wake.lean) -/

@[simp] theorem canonical_wakeOne {s : State} {w : PortWork} (h : Canonical (mems s)) :
    Canonical (mems (wakeOne s w)) := by
  cases w <;> simp [wakeOne, h]

@[simp] theorem canonical_wakePort {s : State} (h : Canonical (mems s)) : Canonical (mems (wakePort s)) :=
  canonical_foldl (fun _ _ => canonical_wakeOne) _ h

@[simp] theorem mems_wakeDoe (s : State) : mems (wakeDoe s) = mems s := by
  unfold wakeDoe
  split <;> simp

@[simp] theorem canonical_wakeFirmware {s : State} (h : Canonical (mems s)) :
    Canonical (mems (wakeFirmware s)) := by simp [wakeFirmware, h]

@[simp] theorem lands_execWindowComplete {src : Nat} {w : WindowReading} {s : State} (h : Canonical (mems s)) : Lands (execWindowComplete src w s) := by simp [execWindowComplete, h]

@[simp] theorem lands_execGenerateRequest {s : State} (h : Canonical (mems s)) : Lands (execGenerateRequest s) := by
  simp [execGenerateRequest, h]

@[simp] theorem lands_execReseedResume {s : State} (h : Canonical (mems s)) : Lands (execReseedResume s) := by simp [execReseedResume, h]

@[simp] theorem lands_execGeneratorRestart {cause : Nat} {s : State} (h : Canonical (mems s)) : Lands (execGeneratorRestart cause s) := by simp [execGeneratorRestart, h]

@[simp] theorem lands_execFirstSeeding {s : State} (h : Canonical (mems s)) : Lands (execFirstSeeding s) := by simp [execFirstSeeding, h]


/-! ## Every command (Machine/Dispatch.lean) -/

/-- The frame rule of the machine: every command keeps both memories in canonical form, by its own rule. -/
theorem lands_exec {s : State} (h : Canonical (mems s)) (c : Instr) : Lands (exec c s) := by
  cases c with
  | setMirrorWrite a addr v => exact lands_writeMirrorOf h
  | clearMirrorWrite a addr v => exact lands_writeMirrorOf h
  | toggleMirrorWrite a addr v => exact lands_writeMirrorOf h
  | _ => simp [exec, h]

theorem mems_tick (s : State) : mems (tick s) = mems s := rfl

/-- Settles O6: a step is the passing of time, which leaves both memories, or a command, which keeps their form. -/
theorem stepKeepsTidy : Obligations.StepKeepsTidy := by
  unfold Obligations.StepKeepsTidy
  intro s t tidy next
  unfold step at next
  split at next
  · cases next
    rw [← canonical_mems, mems_tick]
    exact tidy
  · next c rest _ => exact lands_exec (s := { s with pending := rest }) tidy c t next

end Sys2Proof.Safety
end

section
/-!
PROOFS. The queue of commands, the state after reset, and posted writes of the host (log entries 1, 4, 5 and 7).
-/

-- In turn: a proof that waits for others beside it takes a thread and its stack from the memory that the check allows.
set_option Elab.async false

namespace Sys2Proof.Safety

open Sys2Proof.Machine

/-- Settles O1: it is the second clause of `step`. -/
theorem stepRunsFrontCommand : Obligations.StepRunsFrontCommand := by
  unfold Obligations.StepRunsFrontCommand
  intro c rest s
  rfl

/-! ## The passing of time -/

theorem step_nil {s : State} (h : s.pending = []) : step s = .next (tick s) := by
  unfold step
  rw [h]

/-- Meridian does not go back: the slew is far smaller than the rate. -/
theorem le_tickMeridian (c : Clock) : c.meridian ≤ (tickMeridian c).meridian := Nat.le_add_right _ _

theorem le_meridian_tick (s : State) : s.clock.meridian ≤ (tick s).clock.meridian := by
  unfold tick
  dsimp only
  split
  · exact le_tickMeridian s.clock
  · exact le_refl _

/-- Settles O2. -/
theorem emptyQueueOnlyPassesTime : Obligations.EmptyQueueOnlyPassesTime := by
  unfold Obligations.EmptyQueueOnlyPassesTime
  intro s h
  exact ⟨tick s, step_nil h, h, rfl, rfl, rfl, rfl, rfl, le_meridian_tick s⟩

/-! ## The reset state -/

theorem reset_slot_st (n : Nat) : (State.reset.slot n).st = .empty := rfl

/-- Function 0 alone has an entry in the reset state. -/
theorem reset_fn_zero : State.reset.fn 0 = pf0 := rfl

theorem reset_fn_of_pos {f : Nat} (h : 0 < f) : State.reset.fn f = {} := by
  obtain ⟨n, rfl⟩ := Nat.exists_eq_succ_of_ne_zero (Nat.pos_iff_ne_zero.mp h)
  rfl

theorem reset_jq? (f q : Nat) : State.reset.jq? f q = none := by
  unfold State.jq?
  rcases Nat.eq_zero_or_pos f with rfl | hf
  · rw [reset_fn_zero]; rfl
  · rw [reset_fn_of_pos hf]; rfl

theorem reset_cq? (f q : Nat) : State.reset.cq? f q = none := by
  unfold State.cq?
  rcases Nat.eq_zero_or_pos f with rfl | hf
  · rw [reset_fn_zero]; rfl
  · rw [reset_fn_of_pos hf]; rfl

/-- Settles O4. -/
theorem resetStateOfTheManual : Obligations.ResetStateOfTheManual := by
  unfold Obligations.ResetStateOfTheManual
  exact ⟨rfl, rfl, rfl, rfl, rfl, rfl, rfl, rfl, rfl, rfl, reset_slot_st, fun f q => ⟨reset_jq? f q, reset_cq? f q⟩,
    
    fun f hf => by rw [reset_fn_of_pos hf]⟩

/-- Settles O5. -/
theorem resetIsTidy : Obligations.ResetIsTidy := by
  unfold Obligations.ResetIsTidy
  exact ⟨rfl, rfl⟩

/-! ## Posted writes -/

/-- Settles O7: without a dirty-page log a posted write is `Memory.putAll` at the function's address. -/
theorem hostWriteStoresItsBytes : Obligations.HostWriteStoresItsBytes := by
  unfold Obligations.HostWriteStoresItsBytes
  intro s f a b ht hlog
  obtain ⟨hwf, -⟩ := ht
  rw [hostWrite_unlogged _ _ _ _ hlog]
  exact ⟨Memory.getAll_putAll _ _ _ hwf, fun k => Memory.get_putAll_outside _ _ _ _ hwf⟩

end Sys2Proof.Safety
end

section
/-!
PROOFS. No command ends in a fault or a refusal (log entry 2): every shape in which a command of the model is written
answers a next state, and so does every command.
-/

-- In turn: a proof that waits for others beside it takes a thread and its stack from the memory that the check allows.
set_option Elab.async false

namespace Sys2Proof.Safety

open Sys2Proof.Machine

/-- The command answers a next state. -/
def GoesOn (o : Outcome State) : Prop := ∃ t, o = .next t

/-! ## The shapes a command is written in -/

@[simp] theorem goesOn_next (t : State) : GoesOn (.next t) := ⟨t, rfl⟩

@[simp] theorem goesOn_ite (c : Prop) [Decidable c] (a b : Outcome State) :
    GoesOn (if c then a else b) ↔ if c then GoesOn a else GoesOn b := by split <;> rfl

@[simp] theorem goesOn_settled (old t : State) : GoesOn (settled old t) := ⟨_, rfl⟩

@[simp] theorem goesOn_settledOn (f : Nat) (old t : State) : GoesOn (settledOn f old t) := ⟨_, rfl⟩

@[simp] theorem goesOn_transmits (n : Nat) (s : State) (h : State → Outcome State) :
    GoesOn (transmits n s h) ↔ if n ≥ 3 then True else GoesOn (h (txMismatches n s)) := by
  simp [transmits]

@[simp] theorem goesOn_whileRunning (h : State → State) (s : State) : GoesOn (whileRunning h s) := by
  simp [whileRunning]

@[simp] theorem goesOn_runAdmin (f op : Nat) (body : Job → State → Done × State) (s : State) :
    GoesOn (runAdmin f op body s) := by
  unfold runAdmin
  split <;> simp

@[simp] theorem goesOn_runAdminSteps (f op : Nat) (body : Job → State → Option Done × State) (s : State) :
    GoesOn (runAdminSteps f op body s) := by
  unfold runAdminSteps
  split
  · exact goesOn_next _
  · split <;> simp

@[simp] theorem goesOn_runSlotCmd (f op : Nat) (waits : Bytes → List Nat) (body : Job → State → Option Done × State)
    (s : State) : GoesOn (runSlotCmd f op waits body s) := goesOn_runAdminSteps _ _ _ _

@[simp] theorem goesOn_runManager (c : Nat) (body : Job → State → Option Done × State) (s : State) :
    GoesOn (runManager c body s) := goesOn_runAdminSteps _ _ _ _

@[simp] theorem goesOn_runCeremony (op : Nat) (body : Job → State → Option Done × State) (s : State) :
    GoesOn (runCeremony op body s) := goesOn_runAdminSteps _ _ _ _

@[simp] theorem goesOn_runCipher (r : JobRef) (op resent : Nat) (body : Job → State → State) (s : State) :
    GoesOn (runCipher r op resent body s) := by
  unfold runCipher
  split <;> simp

@[simp] theorem goesOn_runAction (n : Nat) (body : Ceremony → State → ActOut) (s : State) :
    GoesOn (runAction n body s) := by
  unfold runAction
  split <;> simp

@[simp] theorem goesOn_runDraw (n : Nat) (body : Ceremony → State → Except State ActOut) (s : State) :
    GoesOn (runDraw n body s) := by
  unfold runDraw
  split
  · exact goesOn_next _
  · split
    · split <;> simp
    · exact goesOn_next _

@[simp] theorem goesOn_runService (x : Nat) (reads writes : Nat × Nat) (body : Ext → Call → Job → State → State)
    (s : State) : GoesOn (runService x reads writes body s) := by
  unfold runService
  split <;> simp

@[simp] theorem goesOn_compute (j : JobRef) (op : Nat) (result : Job → State → Option PkResult) (s : State) :
    GoesOn (compute j op result s) := by
  unfold compute
  split
  · exact goesOn_next _
  · split <;> simp

@[simp] theorem goesOn_ideKm (session : Nat) (m : Bytes) (s : State) : GoesOn (ideKm session m s) := by
  unfold ideKm
  split
  · exact goesOn_next _
  · split
    · exact goesOn_next _
    · split <;> simp

@[simp] theorem goesOn_runAttest (f op : Nat) (s : State) : GoesOn (runAttest f op s) := goesOn_runAdminSteps _ _ _ _

@[simp] theorem goesOn_arrive (ty : Nat) (r : FdpRoute) (s : State) : GoesOn (arrive ty r s) := by
  unfold arrive
  split <;> simp

@[simp] theorem goesOn_writeMirrorOf (kind : Nat) (a : Attr) (addr : Nat) (v : Word) (s : State) :
    GoesOn (writeMirrorOf kind a addr v s) := goesOn_settled _ _

/-! ## Commands that choose between several ends -/

@[simp] theorem goesOn_execRngFill (j : JobRef) (s : State) : GoesOn (execRngFill j s) := by
  unfold execRngFill
  split <;> simp

@[simp] theorem goesOn_execFwRegister (s : State) : GoesOn (execFwRegister s) := by
  unfold execFwRegister
  repeat' split
  all_goals simp

@[simp] theorem goesOn_execFnCqCiWrite (f q : Nat) (v : Word) (s : State) : GoesOn (execFnCqCiWrite f q v s) := by
  unfold execFnCqCiWrite
  repeat' split
  all_goals simp

@[simp] theorem goesOn_execAliasWrite (a : Attr) (where_ : RegPlace) (v : Word) (s : State) : GoesOn (execAliasWrite a where_ v s) := by
  unfold execAliasWrite
  split <;> simp

@[simp] theorem goesOn_execRegisterWrite (a : Attr) (where_ : RegPlace) (size v : Nat) (s : State) : GoesOn (execRegisterWrite a where_ size v s) := by
  unfold execRegisterWrite
  split <;> simp

@[simp] theorem goesOn_execQuiescenceTimeout (f : Nat) (s : State) : GoesOn (execQuiescenceTimeout f s) := by
  unfold execQuiescenceTimeout
  split <;> simp

@[simp] theorem goesOn_execDmaReadCompletion (t : ReadTarget) (r : ReadStatus) (s : State) : GoesOn (execDmaReadCompletion t r s) := by
  unfold execDmaReadCompletion
  repeat' split
  all_goals simp

@[simp] theorem goesOn_execCompletionTimeout (t : ReadTarget) (s : State) : GoesOn (execCompletionTimeout t s) := by
  unfold execCompletionTimeout
  repeat' split
  all_goals simp

@[simp] theorem goesOn_execDispatch (t : DispatchTarget) (s : State) : GoesOn (execDispatch t s) := by
  unfold execDispatch
  split <;> simp

@[simp] theorem goesOn_execJobCompletion (r : JobRef) (more : Bool) (resent : Nat) (s : State) : GoesOn (execJobCompletion r more resent s) := by
  unfold execJobCompletion
  repeat' split
  all_goals simp

@[simp] theorem goesOn_execMirrorWrite (f q resent : Nat) (s : State) : GoesOn (execMirrorWrite f q resent s) := by
  unfold execMirrorWrite
  split <;> simp

@[simp] theorem goesOn_execJobTimeout (r : JobRef) (s : State) : GoesOn (execJobTimeout r s) := by
  unfold execJobTimeout
  split <;> simp

@[simp] theorem goesOn_execSpareKat (a b : Bool) (s : State) : GoesOn (execSpareKat a b s) := by
  unfold execSpareKat
  split <;> simp

@[simp] theorem goesOn_execJobRetry (r : JobRef) (s : State) : GoesOn (execJobRetry r s) := by
  unfold execJobRetry
  repeat' split
  all_goals simp

@[simp] theorem goesOn_execCheckpointWriteDone (n : Nat) (s : State) : GoesOn (execCheckpointWriteDone n s) := by
  unfold execCheckpointWriteDone
  split <;> simp

@[simp] theorem goesOn_execServiceWindowClose (why : WindowEnd) (mv : Nat) (present : Bool) (s : State) : GoesOn (execServiceWindowClose why mv present s) := by
  unfold execServiceWindowClose
  split <;> simp

@[simp] theorem goesOn_execPkJobStart (core : Nat) (s : State) : GoesOn (execPkJobStart core s) := by
  unfold execPkJobStart
  split <;> simp

@[simp] theorem goesOn_execPkYieldPoint (core : Nat) (s : State) : GoesOn (execPkYieldPoint core s) := by
  unfold execPkYieldPoint
  simp only
  repeat' split
  all_goals simp

@[simp] theorem goesOn_execPkFinishPoint (core : Nat) (s : State) : GoesOn (execPkFinishPoint core s) := by
  unfold execPkFinishPoint
  repeat' split
  all_goals simp

@[simp] theorem goesOn_execPkCoreFault (core detail : Nat) (s : State) : GoesOn (execPkCoreFault core detail s) := by
  unfold execPkCoreFault
  split <;> simp

@[simp] theorem goesOn_execStallLimit (st : StallStage) (s : State) : GoesOn (execStallLimit st s) := by
  unfold execStallLimit
  split <;> simp

@[simp] theorem goesOn_execDeviceFaultAction (s : State) : GoesOn (execDeviceFaultAction s) := by
  unfold execDeviceFaultAction
  repeat' split
  all_goals simp

@[simp] theorem goesOn_execWatchdog (s : State) : GoesOn (execWatchdog s) := by
  unfold execWatchdog
  repeat' split
  all_goals simp

@[simp] theorem goesOn_execEventRecordWrite (s : State) : GoesOn (execEventRecordWrite s) := by
  unfold execEventRecordWrite
  split <;> simp

@[simp] theorem goesOn_execFirmwareCheck (r : FirmwareScan) (s : State) : GoesOn (execFirmwareCheck r s) := by
  unfold execFirmwareCheck
  simp only
  repeat' split
  all_goals simp

@[simp] theorem goesOn_execSessionIdleTimeout (session : Nat) (s : State) : GoesOn (execSessionIdleTimeout session s) := by
  unfold execSessionIdleTimeout
  split <;> simp

@[simp] theorem goesOn_execChallengeExpiry (s : State) : GoesOn (execChallengeExpiry s) := by
  unfold execChallengeExpiry
  split <;> simp

@[simp] theorem goesOn_execContinuationWindowExpiry (s : State) : GoesOn (execContinuationWindowExpiry s) := by
  unfold execContinuationWindowExpiry
  split <;> simp

@[simp] theorem goesOn_execDebugAccess (addr : Nat) (write : Bool) (v : Word) (s : State) : GoesOn (execDebugAccess addr write v s) := by
  unfold execDebugAccess
  repeat' split
  all_goals simp

/-! ## Every command -/

/-- The commands not named in the list below have a rule of their own above; the others are written in one of the shapes. -/
theorem goesOn_exec (c : Instr) (s : State) : GoesOn (exec c s) := by
  cases c with
  | _ =>
    simp [exec, execPad, execNop, execSeal, execUnseal, execCheckGen, execCheckVerify, execRawEncrypt, execRawDecrypt,
      execPkSign, execPkVerify, execPkKeygen, execPkAgree, execPkEncaps, execPkDecaps, execCreateJq, execDestroyJq,
      execResetJq, execCreateCq, execDestroyCq, execDictRead, execDictWrite, execFnAlloc, execFnFree, execFreeze,
      execSave, execThaw, execFnStateLoad, execDirtyLogStart, execDirtyLogSync, execDirtyLogStop, execFnReset,
      execKeyCreate, execKeyImport, execKeyExport, execKeyErase, execRekey, execReattr, execKeyQuery,
      execAttestStatement, execAttestChainEcdsa, execAttestChainMldsa, execApprove, execCeremonyOpen,
      execCeremonyStatus, execCeremonyExecute, execCeremonyContinue, execCeremonyCancel, execInitialise,
      execCustodians, execDomainCreate, execDomainAdmit, execDomainJoin, execShareExport, execShareRestore, execLock,
      execUnlock, execDebugEnter, execDebugExit, execDecommission, execExtKey, execDictQuorum, execCellService,
      execFdpRelay, execLoad, execUnload, execList, execExtCall, execRet, execReadIn, execWriteOut, execSubmit,
      execRandom, execTime, execExtDictRead, execLog, execFnJqPiWrite, execFnSkKeyWrite, execSessionKeyLoad,
      execSessionKeyClear, execAdminQueueEnable, execAdminQueueDisable, execFnRngDataRead, execRngReadStallLimit,
      execAdvance, execRetreat, execKick, execPwReqWrite, execPwKeepWrite, execSetMirrorWrite, execClearMirrorWrite,
      execToggleMirrorWrite, execGateRuleWrite, execBusMasterEnableClear, execFlr, execVfEnableClear,
      execFunctionReset, execFunctionResetComplete, execD3hotWrite, execD0Write, execMsixEnableClear, execMsixUnmask,
      execLinkUp, execLinkReset, execInboundFlit, execSpdmRequest, execDoeAbort, execIdeKmQuery, execIdeKmKeyProg,
      execIdeKmKSetGo, execIdeKmKSetStop, execEntryFetch, execCommitRefusal, execModerationTimer, execPairFault,
      execPairKatVerdict, execCreditRescale, execAvsLoop, execAvsGuard, execRemaskSweepVisit, execSlotReload,
      execParityScrub, execShadowMismatch, execVsAccessTimeout, execMeshSample, execXtampSample, execTempSample,
      execGlitch, execFiDelay, execVbatSample, execVbatCut, execCellPresenceCheck, execXtalFail, execXtalReturn,
      execShadowCheck, execChargerStep, execAdaptiveSamplingUpdate, execAgeingUpdate, execSupplySourceChange,
      execWatchOscillatorRecalibration, execMeridianSlew, execVesperCheckpoint, execMeridianSourceCheck,
      execWindowComplete, execGenerateRequest, execReseedResume, execGeneratorRestart, execMaskGeneratorReseed,
      execPkCoreKatVerdict, execQuiesceGrant, execControlStageDisagreement, execCuMismatch, execCuResync,
      execDeviceFault, execRateWindowEnd, execPowerOnReset, execSupplyLoss, execGlitchArm, execPerstFall,
      execPerstRise, execVesperStateRead, execMainDieSelfTest, execRootHandOff, execFirstSeeding, execSlotsLoaded,
      execQueuesOpen, execDiscover, execHello, execAuth, execRequest, execClose, execFragmentTimeout, execAuthTimeout,
      execPlcaBeaconChange, execDebugHalt, execRefclkLoss, execRefclkReturn, execWrappedStoreReload,
      execTimeAdjustDone, execOperatingConditionsChange, execDebugResume, execMemorySpaceEnableClear,
      execBusMasterEnableSet, execVesperSupplyRise]

/-- Settles O3, by the rule of the shape in which each command is written. -/
theorem noCommandStops : Obligations.NoCommandStops := by
  unfold Obligations.NoCommandStops
  exact goesOn_exec

end Sys2Proof.Safety
end

section
/-!
PROOFS. Fetching, PAD, NOP and refused entries (chapter 4, R121, R122, R126, R131, R132, R137): what the queue engine takes
from a ring, and what commitment without an engine leaves.
-/

-- In turn: a proof that waits for others beside it takes a thread and its stack from the memory that the check allows.
set_option Elab.async false

namespace Sys2Proof.Safety

open Sys2Proof.Machine

/-! ## The job table and the queues -/

theorem Answers.imp {i : Instr} {s : State} {P Q : State → Prop} (h : Answers i s P) (pq : ∀ t, P t → Q t) : Answers i s Q := by
  obtain ⟨t, step, p⟩ := h
  exact ⟨t, step, pq t p⟩

theorem ref_of_job {s : State} {r : JobRef} {j : Job} (h : s.job? r = some j) : j.ref = r := by
  simpa using List.find?_some h

theorem mem_of_job {s : State} {r : JobRef} {j : Job} (h : s.job? r = some j) : j ∈ s.jobs := List.mem_of_find?_eq_some h

theorem job_modJob_self {s : State} {r : JobRef} {j : Job} {h : Job → Job} (hj : s.job? r = some j)
    (hk : ∀ j, (h j).ref = j.ref := by exact fun _ => rfl) : (modJob r h s).job? r = some (h j) := by
  rw [job_modJob s r r h hk, hj]
  simp

theorem job_modJob_ne {s : State} {r k : JobRef} {h : Job → Job} (hne : k ≠ r)
    (hk : ∀ j, (h j).ref = j.ref := by exact fun _ => rfl) :
    (modJob r h s).job? k = s.job? k := by
  rw [job_modJob s r k h hk]
  simp [hne]

theorem jq_modFn_of_jqs {h : Fn → Fn} (f k p : Nat) (s : State) (hj : ∀ g, (h g).jqs = g.jqs := by exact fun _ => rfl) :
    (modFn f h s).jq? k p = s.jq? k p := jq_setFn_of_jqs (hj _) k p

theorem cq_modFn_of_cqs {h : Fn → Fn} (f k c : Nat) (s : State) (hc : ∀ g, (h g).cqs = g.cqs := by exact fun _ => rfl) :
    (modFn f h s).cq? k c = s.cq? k c := cq_setFn_of_cqs (hc _) k c

/-! ## ENTRY_FETCH -/

/-- The job that `takeEntry` makes of the next entry of queue `q` of function `f`. -/
def fetchedJob (f q : Nat) (x : JobQueue) (s : State) : Job :=
  let n := (nextEntry f q x s).2.1
  { ref := { fn := f, jq := q, index := x.next }, entry := s.hostRead f (x.slotAt x.next) (64 * n)
    len := n, header := (nextEntry f q x s).1, atTime := s.now, arrival := arrivalOf x x.next
    downgraded := tooLong s x (s.hostRead f (x.slotAt x.next) (64 * n))
    stage := if q = 0 then .committed else .runAhead
    engine := if q = 0 then .firmware else .none_ }

theorem committed_fetchedJob (f q : Nat) (x : JobQueue) (s : State) : (fetchedJob f q x s).committed = true ↔ q = 0 := by
  unfold Job.committed fetchedJob
  by_cases h : q = 0 <;> simp [h]

/-- The conclusion of O10: the next entry of the queue has been taken as a job, with a reservation for its record. -/
def Fetched (f q : Nat) (x : JobQueue) (c : CompQueue) (s t : State) : Prop :=
  t.jobs = s.jobs ++ [fetchedJob f q x s] ∧ t.cq? f x.cq = some { c with reserved := c.reserved + 1 } ∧ t.mem = s.mem ∧
    t.store = s.store ∧ t.evr = s.evr

/-- The state with the next entry of queue `q` of function `f` taken as a job, before its record is reserved. -/
def entryTaken (f q : Nat) (x : JobQueue) (s : State) : State :=
  let j := fetchedJob f q x s
  let s1 := setJq f q { x with
    entries := insertEntry x.ci { index := x.next, len := (nextEntry f q x s).2.1, done := false } x.entries
    bells := x.bells.filter fun b => decide ((x.next - x.ci).toNat < (b.1 - x.ci).toNat) } s
  { (if j.downgraded then bump 0x0A s1 else s1) with jobs := s1.jobs ++ [j] }

theorem takeEntry_of_not_pad {s : State} {f q : Nat} {x : JobQueue}
    (notPad : ¬((nextEntry f q x s).1 = none ∧ opOf (s.hostRead f (x.slotAt x.next) 64) = Op.pad)) :
    takeEntry f q x s = match (entryTaken f q x s).cq? f x.cq with
      | some c => setCq f x.cq { c with reserved := c.reserved + 1 } (entryTaken f q x s)
      | none => entryTaken f q x s := by
  unfold takeEntry
  exact if_neg (by rwa [Option.isNone_iff_eq_none])

/-- Taking an entry touches jobs, its queue and the downgrade counter alone. -/
theorem frame_entryTaken (f q : Nat) (x : JobQueue) (s : State) :
    (∀ k c, (entryTaken f q x s).cq? k c = s.cq? k c) ∧ (entryTaken f q x s).mem = s.mem ∧
      (entryTaken f q x s).store = s.store ∧ (entryTaken f q x s).evr = s.evr := by
  unfold entryTaken
  by_cases h : (fetchedJob f q x s).downgraded
  · simp only [h, if_true]
    exact ⟨fun k c => cq_setJq _ _ _ _ _ _, rfl, rfl, rfl⟩
  · simp only [h]
    exact ⟨fun k c => cq_setJq _ _ _ _ _ _, rfl, rfl, rfl⟩

theorem fetched_takeEntry {s : State} {f q : Nat} {x : JobQueue} {c : CompQueue} (hc : s.cq? f x.cq = some c)
    (notPad : ¬((nextEntry f q x s).1 = none ∧ opOf (s.hostRead f (x.slotAt x.next) 64) = Op.pad)) :
    Fetched f q x c s (takeEntry f q x s) := by
  obtain ⟨cq, mem, store, evr⟩ := frame_entryTaken f q x s
  rw [takeEntry_of_not_pad notPad, cq, hc]
  exact ⟨rfl, cq_setCq_self _ _ _ _, mem, store, evr⟩

theorem fetchFrom_of_jq {s : State} {f q : Nat} {x : JobQueue} (hx : s.jq? f q = some x) :
    fetchFrom f q s = takeEntry f q x s := by
  unfold fetchFrom
  rw [hx]

theorem fetched_fetchFrom {s : State} {f q : Nat} {x : JobQueue} {c : CompQueue} (hx : s.jq? f q = some x)
    (hc : s.cq? f x.cq = some c)
    (notPad : ¬((nextEntry f q x s).1 = none ∧ opOf (s.hostRead f (x.slotAt x.next) 64) = Op.pad)) :
    Fetched f q x c s (fetchFrom f q s) := by
  rw [fetchFrom_of_jq hx]
  exact fetched_takeEntry hc notPad

/-- Noting whose turn it was leaves what was fetched. -/
theorem Fetched.modTurn {s t : State} {f q k : Nat} {x : JobQueue} {c : CompQueue} (h : Fetched f q x c s t) :
    Fetched f q x c s (modFn f (fun g => { g with turnQ := k }) t) := by
  obtain ⟨jobs, cq, mem, store, evr⟩ := h
  refine ⟨jobs, ?_, mem, store, evr⟩
  rw [← cq]
  exact cq_modFn_of_cqs f f x.cq t

/-- The step fetches from the queue whose turn it is. -/
theorem fetched_entryFetch {s : State} {f q : Nat} {x : JobQueue} {c : CompQueue} (turn : FetchTurn s f q)
    (h : Fetched f q x c s (fetchFrom f q s)) : Answers .entryFetch s (Fetched f q x c s) := by
  refine ⟨_, rfl, ?_⟩
  rcases turn with ⟨hq, hu⟩ | ⟨hu, rfl, ha⟩ | ⟨hu, ha, hp, hr⟩
  · obtain ⟨l, hl⟩ := List.head?_eq_some_iff.mp hu
    rw [hl]
    dsimp only
    rw [show (f * 64 + q) / 64 = f by omega, show (f * 64 + q) % 64 = q by omega]
    exact h
  · obtain ⟨l, hl⟩ := List.head?_eq_some_iff.mp ha
    rw [hu, hl]
    exact h
  · obtain ⟨l, hl⟩ := List.head?_eq_some_iff.mp hp
    obtain ⟨m, hm⟩ := List.head?_eq_some_iff.mp hr
    rw [hu, ha, hl]
    dsimp only
    rw [hm]
    exact h.modTurn

/-- Settles O10: each of the three turns ends in `takeEntry`. -/
theorem entryFetchTakesAJob : Obligations.EntryFetchTakesAJob := by
  unfold Obligations.EntryFetchTakesAJob
  intro s f q x c turn hx hc notPad
  obtain ⟨t, step, jobs, cq, rest⟩ := fetched_entryFetch turn (fetched_fetchFrom hx hc notPad)
  exact ⟨t, step, ⟨_, jobs, rfl, rfl, rfl, rfl, rfl, committed_fetchedJob f q x s⟩, cq, rest⟩

/-! ## PAD -/

/-- A job queue after one of its entries has been marked completed, with FN_JQ_CI moved past what is completed (R129). -/
def entryFinished (i : Word) (x : JobQueue) : JobQueue :=
  let a := advanceEntries x.ci (x.entries.map fun e => if e.index = i then { e with done := true } else e)
  { x with ci := a.1, entries := a.2 }

theorem finishEntry_of_jq {s : State} {f q : Nat} {x : JobQueue} (i : Word) (hx : s.jq? f q = some x) :
    finishEntry f q i s = setJq f q (entryFinished i x) s := by
  unfold finishEntry
  rw [hx]
  rfl

/-- The job queue with `n` slots from its next one on noted as completed. -/
def slotsNoted (n : Nat) (x : JobQueue) : JobQueue :=
  { x with entries := insertEntry x.ci { index := x.next, len := n, done := true } x.entries }

theorem passEntry_of_jq {s : State} {f q n : Nat} {x : JobQueue} (hx : s.jq? f q = some x) :
    passEntry f q x n s = setJq f q (entryFinished x.next (slotsNoted n x)) (setJq f q (slotsNoted n x) s) := by
  unfold passEntry passSlots
  rw [hx]
  exact finishEntry_of_jq _ (jq_setJq_self _ _ _ _)

/-- Where no entry was open, FN_JQ_CI moves past the slots (R129). -/
theorem ci_entryFinished_slotsNoted {n : Nat} {x : JobQueue} (empty : x.entries = []) :
    (entryFinished x.next (slotsNoted n x)).ci = x.ci + BitVec.ofNat 32 n := by
  unfold entryFinished slotsNoted
  simp [empty, insertEntry, advanceEntries]

theorem pad_passes {s : State} {f q : Nat} {x : JobQueue} (may : canFetch s f q = true) (hx : s.jq? f q = some x)
    (pad : nextIsPad f q x s = true) :
    Answers (.pad f q) s fun t =>
      t.jobs = s.jobs ∧ t.mem = s.mem ∧ (∀ k c, t.cq? k c = s.cq? k c) ∧ t.evr = s.evr ∧
      (x.entries = [] → (t.jq? f q).map (·.ci) = some (x.ci + BitVec.ofNat 32 (nextEntry f q x s).2.1)) := by
  refine ⟨_, rfl, ?_⟩
  rw [hx]
  dsimp only
  rw [if_pos (by simp [may, pad]), passEntry_of_jq hx]
  refine ⟨rfl, rfl, fun k c => ?_, rfl, fun empty => ?_⟩
  · rw [cq_setJq, cq_setJq]
  · rw [jq_setJq_self, Option.map_some, ci_entryFinished_slotsNoted empty]

/-! ## NOP and refused entries -/

/-- The job `j` of name `r` has been committed with its completion, and nothing else differs. -/
def CommittedWith (r : JobRef) (j : Job) (d : Done) (s t : State) : Prop :=
  t.job? r = some { j with stage := .committed, outcome := some d } ∧ (∀ k, k ≠ r → t.job? k = s.job? k) ∧
    t.fns = s.fns ∧ t.mem = s.mem ∧ t.store = s.store ∧ t.evr = s.evr

theorem committedWith_modJob {s : State} {r : JobRef} {j : Job} (d : Done) (hj : s.job? r = some j) :
    CommittedWith r j d s (modJob r (fun j => { j with stage := .committed, outcome := some d }) s) := by
  exact ⟨job_modJob_self hj, fun k hk => job_modJob_ne hk, rfl, rfl, rfl, rfl⟩

theorem nop_commits {s : State} {r : JobRef} {j : Job} (hj : s.job? r = some j) (op : j.op = Op.nop) (header : j.header = none)
    (may : mayCommit s j = true) (earlier : s.earlierCommitted j = true) (en : s.regs.dispatchEn = true) :
    Answers (.nop r) s (CommittedWith r j { status := Status.ok } s) := by
  refine ⟨_, rfl, ?_⟩
  rw [hj]
  dsimp only
  rw [if_pos (by simp [op, header, may, earlier, en])]
  exact committedWith_modJob _ hj

theorem commitRefusal_commits {s : State} {r : JobRef} {j : Job} {d : Done} (hj : s.job? r = some j) (plain : r.jq ≠ 0)
    (may : mayCommit s j = true) (earlier : s.earlierCommitted j = true) (en : s.regs.dispatchEn = true)
    (check : j.header = some d ∨ (j.header = none ∧ jobCheck s r.fn j.entry = some d)) :
    Answers (.commitRefusal r) s (CommittedWith r j d s) := by
  refine ⟨_, rfl, ?_⟩
  rw [hj]
  dsimp only
  rw [if_neg plain, if_pos (by simp [may, earlier, en])]
  rcases check with header | ⟨header, check⟩
  · rw [header]
    exact committedWith_modJob _ hj
  · rw [header]
    dsimp only
    rw [check]
    exact committedWith_modJob _ hj

/-- Settles O11. -/
theorem padNopAndRefusal : Obligations.PadNopAndRefusal := by
  unfold Obligations.PadNopAndRefusal
  exact ⟨fun s f q x may hx pad => pad_passes may hx pad,
    fun s r j hj op header may earlier en => nop_commits hj op header may earlier en,
    fun s r j d hj plain may earlier en check => commitRefusal_commits hj plain may earlier en check⟩

end Sys2Proof.Safety
end

section
/-!
PROOFS. Completion records (chapter 4, R114, R124 to R129, R173): what issuing a record, writing a mirror and removing a job
do to the job table, to the completion queues and to memory.
-/

-- In turn: a proof that waits for others beside it takes a thread and its stack from the memory that the check allows.
set_option Elab.async false

namespace Sys2Proof.Safety

open Sys2Proof.Machine

/-! ## Writes to host memory -/

/-- A function without its dirty-page log. -/
def withoutLog (g : Fn) : Fn := { g with log := none }

/-- `t` differs from `s` at most in host memory and in the dirty-page logs. -/
def Written (s t : State) : Prop :=
  { t with fns := [], mem := [] } = { s with fns := [], mem := [] } ∧ ∀ f, withoutLog (t.fn f) = withoutLog (s.fn f)

theorem Written.refl (s : State) : Written s s := ⟨rfl, fun _ => rfl⟩

theorem Written.trans {s t u : State} (a : Written s t) (b : Written t u) : Written s u :=
  ⟨b.1.trans a.1, fun f => (b.2 f).trans (a.2 f)⟩

theorem Written.modLog (s : State) (f : Nat) (l : Fn → Option DirtyLog) : Written s (modFn f (fun g => { g with log := l g }) s) := by
  refine ⟨rfl, fun k => ?_⟩
  rw [fn_modFn]
  split
  · next e => subst e; rfl
  · rfl

theorem Written.mem (s : State) (m : List Host.Cell) : Written s { s with mem := m } := ⟨rfl, fun _ => rfl⟩

theorem written_mergeDirty (f : Nat) (s : State) : Written s (mergeDirty f s) := by
  unfold mergeDirty
  split
  · exact .refl s
  · exact .trans (.mem s _) (.modLog _ f _)

theorem written_logWrite (f a n : Nat) (s : State) : Written s (logWrite f a n s) := by
  unfold logWrite
  split
  · exact .refl s
  · split
    · exact .refl s
    · dsimp only
      split
      · exact .trans (.modLog s f _) (written_mergeDirty _ _)
      · exact .modLog s f _

theorem written_hostWrite (f a : Nat) (b : Bytes) (s : State) : Written s (hostWrite f a b s) :=
  .trans (.mem s _) (written_logWrite _ _ _ _)

section Projections

variable {s t : State} (w : Written s t)

include w

theorem Written.jobs : t.jobs = s.jobs := congrArg (fun x : _ => x.jobs) w.1
theorem Written.fab : t.fab = s.fab := congrArg (fun x : _ => x.fab) w.1
theorem Written.store : t.store = s.store := congrArg (fun x : _ => x.store) w.1
theorem Written.life : t.life = s.life := congrArg (fun x : _ => x.life) w.1
theorem Written.clock : t.clock = s.clock := congrArg (fun x : _ => x.clock) w.1
theorem Written.evr : t.evr = s.evr := congrArg (fun x : _ => x.evr) w.1
theorem Written.boot : t.boot = s.boot := congrArg (fun x : _ => x.boot) w.1
theorem Written.pk : t.pk = s.pk := congrArg (fun x : _ => x.pk) w.1
theorem Written.worlds : t.worlds = s.worlds := congrArg (fun x : _ => x.worlds) w.1
theorem Written.jqs (f : Nat) : (t.fn f).jqs = (s.fn f).jqs := congrArg (fun x : _ => x.jqs) (w.2 f)
theorem Written.cqs (f : Nat) : (t.fn f).cqs = (s.fn f).cqs := congrArg (fun x : _ => x.cqs) (w.2 f)
theorem Written.jq? (f q : Nat) : t.jq? f q = s.jq? f q := congrArg (·.find? q) (w.jqs f)
theorem Written.cq? (f c : Nat) : t.cq? f c = s.cq? f c := congrArg (·.find? c) (w.cqs f)

end Projections

/-! ## The names in the job table -/

/-- The names of the jobs in the table, in their order. -/
def names (s : State) : List JobRef := s.jobs.map (·.ref)

theorem job_eq_none_iff {s : State} {r : JobRef} : s.job? r = none ↔ r ∉ names s := by
  simp [State.job?, names]

theorem names_congr {s t : State} (h : t.jobs = s.jobs) : names t = names s := by
  unfold names
  rw [h]

theorem names_modJob (r : JobRef) (h : Job → Job) (s : State) (hk : ∀ j, (h j).ref = j.ref := by exact fun _ => rfl) :
    names (modJob r h s) = names s := by
  unfold names modJob
  rw [List.map_map]
  refine List.map_congr_left fun j _ => ?_
  dsimp only [Function.comp]
  split
  · exact hk j
  · rfl

@[simp] theorem jobs_returnRole (p : Nat) (s : State) : (returnRole p s).jobs = s.jobs := by
  unfold returnRole
  dsimp only
  split
  · split
    · exact (quiet_setErr _ _ _).jobs.trans (quiet_record _ _ _ _ _ _ _ _).jobs
    · rfl
  · rfl

@[simp] theorem jobs_leavePair (r : JobRef) (s : State) : (leavePair r s).jobs = s.jobs := by
  unfold leavePair
  split
  · rfl
  · exact jobs_returnRole _ _

@[simp] theorem jobs_releaseHold (j : Job) (s : State) : (releaseHold j s).jobs = s.jobs := by
  unfold releaseHold
  split <;> rfl

theorem names_leavePk (r : JobRef) (s : State) : names (leavePk r s) = names s := by
  unfold leavePk
  dsimp only
  split
  · exact names_modJob r eraseContext s
  · rfl

@[simp] theorem jobs_freeRetiring (n gen : Nat) (s : State) : (freeRetiring n gen s).jobs = s.jobs := by
  unfold freeRetiring
  split
  · split <;> rfl
  · rfl

@[simp] theorem jobs_writeMirror (f c : Nat) (s : State) : (writeMirror f c s).jobs = s.jobs := by
  unfold writeMirror
  split
  · rfl
  · split
    · rfl
    · dsimp only
      split
      · exact (quiet_vecEvent _ _ _ _).jobs.trans (written_hostWrite _ _ _ s).jobs
      · exact (written_hostWrite _ _ _ s).jobs

@[simp] theorem jobs_issueRecord (f c : Nat) (b : Bytes) (reserved irqNow : Bool) (s : State) :
    (issueRecord f c b reserved irqNow s).jobs = s.jobs := by
  unfold issueRecord
  split
  · rfl
  · dsimp only
    split
    · exact (jobs_writeMirror _ _ _).trans (written_hostWrite _ _ _ s).jobs
    · exact (written_hostWrite _ _ _ s).jobs

@[simp] theorem jobs_flushMirrors (f : Nat) (s : State) : (flushMirrors f s).jobs = s.jobs := by
  unfold flushMirrors
  generalize (s.fn f).cqs.keys = l
  induction l generalizing s with
  | nil => rfl
  | cons c l ih => exact (ih _).trans (jobs_writeMirror f c s)

@[simp] theorem jobs_enterD3 (f : Nat) (s : State) : (enterD3 f s).jobs = s.jobs := by
  unfold enterD3
  split
  · exact jobs_flushMirrors f s
  · rfl

@[simp] theorem jobs_finishEntry (f q : Nat) (i : Word) (s : State) : (finishEntry f q i s).jobs = s.jobs := by
  unfold finishEntry
  split <;> rfl

@[simp] theorem jobs_returnRecord (j : Job) (d : Done) (s : State) : (returnRecord j d s).jobs = s.jobs := by
  unfold returnRecord
  split <;> rfl

theorem jobs_disturbFold (j : Job) (l : List TraceWrite) (s : State) :
    (l.foldl (fun s w => drewFree (hostWrite j.ref.fn w.addr (disturbed s.free (s.hostRead j.ref.fn w.addr w.len) w) s)) s).jobs =
      s.jobs := by
  induction l generalizing s with
  | nil => rfl
  | cons w l ih => exact (ih _).trans (written_hostWrite _ _ _ s).jobs

@[simp] theorem jobs_disturb (j : Job) (s : State) : (disturb j s).jobs = s.jobs := by
  unfold disturb
  split
  · exact jobs_disturbFold _ _ _
  · rfl

@[simp] theorem jobs_scrub (j : Job) (s : State) : (scrub j s).jobs = s.jobs := by
  unfold scrub
  split
  · exact (written_hostWrite _ _ _ s).jobs
  · rfl

@[simp] theorem jobs_squash (j : Job) (s : State) : (squash j s).jobs = s.jobs := by
  unfold squash
  split
  · exact (jobs_scrub _ _).trans (jobs_disturb _ _)
  · rfl

theorem names_filter (s : State) (r : JobRef) :
    (s.jobs.filter fun k => decide (k.ref ≠ r)).map (·.ref) = (names s).filter fun k => decide (k ≠ r) := by
  unfold names
  rw [List.filter_map]
  rfl

/-- Removing a job takes its name, and no other, from the table. -/
theorem names_dropOne (j : Job) (s : State) : names (dropOne j s) = (names s).filter fun k => decide (k ≠ j.ref) := by
  rw [← names_filter]
  unfold dropOne
  dsimp only
  split
  · rw [names_congr (jobs_enterD3 _ _), names_leavePk]
    exact names_congr ((jobs_releaseHold _ _).trans (jobs_leavePair _ _))
  · rw [names_congr ((jobs_enterD3 _ _).trans (jobs_freeRetiring _ _ _)), names_leavePk]
    exact names_congr ((jobs_releaseHold _ _).trans (jobs_leavePair _ _))

theorem names_closeCall_subset (r : JobRef) (s : State) : names (closeCall r s) ⊆ names s := by
  unfold closeCall
  split
  · exact List.Subset.refl _
  · dsimp only
    split
    · rw [names_dropOne, names_congr (jobs_squash _ _)]
      exact List.filter_subset_self _
    · exact List.Subset.refl _

theorem name_notMem_dropJob (j : Job) (s : State) : j.ref ∉ names (dropJob j s) := fun h => by
  have := names_closeCall_subset j.ref (dropOne j s) h
  rw [names_dropOne] at this
  simp at this

theorem job_completeJob_self (j : Job) (d : Done) (s : State) : (completeJob j d s).job? j.ref = none := by
  rw [job_eq_none_iff]
  unfold completeJob
  split <;> exact name_notMem_dropJob _ _

/-! ## Completion queues -/

/-- The queue once its mirror shows its producer index. -/
def mirrored (q : CompQueue) : CompQueue := { q with covered := q.pi, irqNow := false }

/-- Every completion queue of `t` is as in `s`, but that its mirror may have been written. -/
def Mirrors (s t : State) : Prop := ∀ f c, t.cq? f c = s.cq? f c ∨ t.cq? f c = (s.cq? f c).map mirrored

theorem Mirrors.of_eq {s t : State} (h : ∀ f c, t.cq? f c = s.cq? f c) : Mirrors s t := fun f c => .inl (h f c)

theorem Mirrors.of_cqs {s t : State} (h : ∀ f, (t.fn f).cqs = (s.fn f).cqs) : Mirrors s t :=
  .of_eq fun f c => congrArg (·.find? c) (h f)

theorem Mirrors.of_fns {s t : State} (h : t.fns = s.fns := by exact rfl) : Mirrors s t := .of_cqs fun f => by unfold State.fn; rw [h]

theorem Mirrors.refl (s : State) : Mirrors s s := .of_eq fun _ _ => rfl

theorem Mirrors.of_quiet {s t : State} (q : Quiet s t) : Mirrors s t := .of_cqs q.cqs

theorem Mirrors.of_written {s t : State} (w : Written s t) : Mirrors s t := .of_cqs w.cqs

theorem Mirrors.trans {s t u : State} (a : Mirrors s t) (b : Mirrors t u) : Mirrors s u := fun f c => by
  rcases a f c with ha | ha <;> rcases b f c with hb | hb <;> rw [hb, ha]
  · exact .inl rfl
  · exact .inr rfl
  · exact .inr rfl
  · exact .inr (by rw [Option.map_map]; rfl)

theorem Mirrors.foldl {α : Type} {h : State → α → State} (hm : ∀ s a, Mirrors s (h s a)) (l : List α) (s : State) :
    Mirrors s (l.foldl h s) := by
  induction l generalizing s with
  | nil => exact .refl s
  | cons a l ih => exact (hm s a).trans (ih _)

/-- A written mirror is the queue's own; the vector's event touches no queue (R127, R173). -/
theorem cq_writeMirror_self {f c : Nat} {q : CompQueue} {s : State} (h : s.cq? f c = some q) :
    (writeMirror f c s).cq? f c = some (if q.pi = q.covered then q else mirrored q) := by
  unfold writeMirror
  rw [h]
  dsimp only
  split
  · exact h
  · split
    · rw [(quiet_vecEvent _ _ _ _).cq?]
      exact cq_setCq_self _ _ _ _
    · exact cq_setCq_self _ _ _ _

theorem cq_writeMirror_ne {f c k p : Nat} (s : State) (ne : k ≠ f ∨ p ≠ c) : (writeMirror f c s).cq? k p = s.cq? k p := by
  unfold writeMirror
  split
  · rfl
  · split
    · rfl
    · dsimp only
      split
      · rw [(quiet_vecEvent _ _ _ _).cq?, cq_setCq_ne _ _ ne, (written_hostWrite _ _ _ _).cq?]
      · rw [cq_setCq_ne _ _ ne, (written_hostWrite _ _ _ _).cq?]

theorem mirrors_writeMirror (f c : Nat) (s : State) : Mirrors s (writeMirror f c s) := fun k p => by
  by_cases e : k = f ∧ p = c
  · obtain ⟨rfl, rfl⟩ := e
    cases h : s.cq? k p with
    | none => exact .inl (by unfold writeMirror; rw [h]; exact h)
    | some q =>
      rw [cq_writeMirror_self h]
      split
      · exact .inl rfl
      · exact .inr rfl
  · exact .inl (cq_writeMirror_ne s (by omega))

theorem mirrors_flushMirrors (f : Nat) (s : State) : Mirrors s (flushMirrors f s) :=
  .foldl (fun s c => mirrors_writeMirror f c s) _ s

theorem Mirrors.modFn {h : Fn → Fn} (f : Nat) (s : State) (hc : ∀ g, (h g).cqs = g.cqs := by exact fun _ => rfl) :
    Mirrors s (modFn f h s) := .of_eq fun k c => cq_modFn_of_cqs f k c s hc

theorem mirrors_enterD3 (f : Nat) (s : State) : Mirrors s (enterD3 f s) := by
  unfold enterD3
  split
  · exact (mirrors_flushMirrors f s).trans (.modFn f _)
  · exact .refl s

theorem mirrors_returnRole (p : Nat) (s : State) : Mirrors s (returnRole p s) := by
  unfold returnRole
  dsimp only
  split
  · split
    · exact .trans .of_fns (.of_quiet ((quiet_record _ _ _ _ _ _ _ _).trans (quiet_setErr _ _ _)))
    · exact .refl s
  · exact .refl s

theorem mirrors_leavePair (r : JobRef) (s : State) : Mirrors s (leavePair r s) := by
  unfold leavePair
  split
  · exact .refl s
  · exact .trans .of_fns (mirrors_returnRole _ _)

theorem fns_releaseHold (j : Job) (s : State) : (releaseHold j s).fns = s.fns := by
  unfold releaseHold
  split <;> rfl

theorem fns_leavePk (r : JobRef) (s : State) : (leavePk r s).fns = s.fns := by
  unfold leavePk
  dsimp only
  split <;> rfl

theorem fns_freeRetiring (n gen : Nat) (s : State) : (freeRetiring n gen s).fns = s.fns := by
  unfold freeRetiring
  split
  · split <;> rfl
  · rfl

theorem mirrors_dropOne (j : Job) (s : State) : Mirrors s (dropOne j s) := by
  unfold dropOne
  dsimp only
  have released := (mirrors_leavePair j.ref { s with
    jobs := s.jobs.filter fun k => decide (k.ref ≠ j.ref)
    rng := { s.rng with fills := s.rng.fills.filter fun x => decide (x ≠ j.ref) } }).trans
      ((Mirrors.of_fns (fns_releaseHold j _)).trans (.of_fns (fns_leavePk j.ref _)))
  split
  · exact .trans .of_fns (released.trans (mirrors_enterD3 _ _))
  · exact .trans .of_fns (released.trans ((Mirrors.of_fns (fns_freeRetiring _ _ _)).trans (mirrors_enterD3 _ _)))

theorem mirrors_disturbFold (j : Job) (l : List TraceWrite) (s : State) : Mirrors s
    (l.foldl (fun s w => drewFree (hostWrite j.ref.fn w.addr (disturbed s.free (s.hostRead j.ref.fn w.addr w.len) w) s)) s) :=
  .foldl (fun s w => .trans (t := hostWrite j.ref.fn w.addr (disturbed s.free (s.hostRead j.ref.fn w.addr w.len) w) s)
    (.of_written (written_hostWrite _ _ _ s)) .of_fns) l s

theorem mirrors_squash (j : Job) (s : State) : Mirrors s (squash j s) := by
  unfold squash
  split
  · refine .trans (t := disturb j s) ?_ ?_
    · unfold disturb
      split
      · exact mirrors_disturbFold _ _ _
      · exact .refl s
    · unfold scrub
      split
      · exact .trans (.of_written (written_hostWrite _ _ _ _)) .of_fns
      · exact .refl _
  · exact .refl s

theorem mirrors_closeCall (r : JobRef) (s : State) : Mirrors s (closeCall r s) := by
  unfold closeCall
  split
  · exact .refl s
  · dsimp only
    split
    · exact .trans .of_fns ((mirrors_squash _ _).trans (mirrors_dropOne _ _))
    · exact .of_fns

theorem mirrors_dropJob (j : Job) (s : State) : Mirrors s (dropJob j s) := (mirrors_dropOne j s).trans (mirrors_closeCall _ _)

theorem cq_finishEntry (f q : Nat) (i : Word) (s : State) (k c : Nat) : (finishEntry f q i s).cq? k c = s.cq? k c := by
  unfold finishEntry
  split
  · rfl
  · exact cq_setJq _ _ _ _ _ _

/-- The queue with one more record at its producer index. -/
def withRecord (now : Nat) (reserved irqNow : Bool) (q : CompQueue) : CompQueue :=
  { q with pi := q.pi + 1, reserved := q.reserved - b2n reserved
           firstAt := if q.pi = q.covered then now else q.firstAt, irqNow := q.irqNow || irqNow }

theorem withRecord_mirror (now : Nat) (reserved irqNow : Bool) (q : CompQueue) :
    (withRecord now reserved irqNow q).mirror = q.mirror := rfl

/-- The record lies in the ring, and the mirror may have been written. -/
theorem issueRecord_of_cq {f c : Nat} {q : CompQueue} {s : State} (b : Bytes) (reserved irqNow : Bool) (h : s.cq? f c = some q) :
    let s1 := setCq f c (withRecord s.now reserved irqNow q) (hostWrite f (q.recAt q.pi) b s)
    issueRecord f c b reserved irqNow s = if (q.pi + 1 - q.covered).toNat ≥ 64 then writeMirror f c s1 else s1 := by
  unfold issueRecord
  rw [h]
  rfl

/-- `q'` is `q` with one more record, in a slot that was reserved for it (R126, R135). -/
def OneMore (q q' : CompQueue) : Prop := q'.pi = q.pi + 1 ∧ q'.ci = q.ci ∧ q'.reserved = q.reserved - 1

theorem OneMore.mirrored {q q' : CompQueue} (h : OneMore q q') : OneMore q (mirrored q') := h

/-- What a completion queue held, but for its mirror, it still holds. -/
theorem Mirrors.oneMore {s t : State} {f c : Nat} {q q' : CompQueue} (m : Mirrors s t) (h : s.cq? f c = some q')
    (one : OneMore q q') : ∃ q'', t.cq? f c = some q'' ∧ OneMore q q'' := by
  rcases m f c with e | e <;> rw [e, h]
  · exact ⟨q', rfl, one⟩
  · exact ⟨Safety.mirrored q', rfl, one⟩

theorem oneMore_issueRecord {f c : Nat} {q : CompQueue} {s : State} (b : Bytes) (irqNow : Bool) (h : s.cq? f c = some q) :
    ∃ q', (issueRecord f c b true irqNow s).cq? f c = some q' ∧ OneMore q q' := by
  rw [issueRecord_of_cq b true irqNow h]
  have here := cq_setCq_self (hostWrite f (q.recAt q.pi) b s) f c (withRecord s.now true irqNow q)
  have one : OneMore q (withRecord s.now true irqNow q) := ⟨rfl, rfl, rfl⟩
  split
  · exact (mirrors_writeMirror f c _).oneMore here one
  · exact ⟨_, here, one⟩

theorem oneMore_completeJob {j : Job} {q : CompQueue} {s : State} (d : Done) (ring : j.ref.jq ≠ subQueue)
    (h : s.cq? j.ref.fn (s.cqOf j.ref) = some q) :
    ∃ q', (completeJob j d s).cq? j.ref.fn (s.cqOf j.ref) = some q' ∧ OneMore q q' := by
  unfold completeJob
  rw [if_neg ring]
  obtain ⟨q', here, one⟩ := oneMore_issueRecord (recordBytes j d s.now) (irqNowOf j.entry) h
  exact (mirrors_dropJob j _).oneMore ((cq_finishEntry _ _ _ _ _ _).trans here) one

theorem oneMore_writeMirror {f c : Nat} {q q' : CompQueue} {s : State} (h : s.cq? f c = some q') (one : OneMore q q') :
    ∃ q'', (writeMirror f c s).cq? f c = some q'' ∧ OneMore q q'' ∧ q''.covered = q''.pi := by
  rw [cq_writeMirror_self h]
  split
  · next e => exact ⟨q', rfl, one, e.symm⟩
  · exact ⟨_, rfl, one.mirrored, rfl⟩

/-! ## FLITs that meet mismatches on their way out (R88) -/

/-- `t` is `s` but for signals and for free values drawn. -/
def QuietFree (s t : State) : Prop := Quiet s { t with free := s.free }

theorem QuietFree.of_quiet {s t : State} (q : Quiet s t) : QuietFree s t := by
  have : { t with free := s.free } = t := by rw [← q.free]
  unfold QuietFree
  rwa [this]

theorem QuietFree.trans {s t u : State} (a : QuietFree s t) (b : QuietFree t u) : QuietFree s u := by
  have drawn : Quiet { t with free := s.free } { u with free := s.free } :=
    ⟨congrArg (fun x : State => { x with free := s.free }) b.1, b.2⟩
  exact Quiet.trans a drawn

theorem quietFree_drewFree (s : State) : QuietFree s (drewFree s) := Quiet.refl s

theorem quietFree_txMismatches (n : Nat) (s : State) : QuietFree s (txMismatches n s) := by
  unfold txMismatches
  generalize List.range n = l
  induction l generalizing s with
  | nil => exact Quiet.refl s
  | cons i l ih =>
    refine .trans ?_ (ih _)
    exact (QuietFree.of_quiet (quiet_bump 3 s)).trans ((quietFree_drewFree _).trans (.of_quiet (quiet_record _ _ _ _ _ _ _ _)))

theorem transmits_of_lt {n : Nat} (h : n < 3) (s : State) (k : State → Outcome State) :
    transmits n s k = k (txMismatches n s) := if_neg (by omega)

theorem transmits_of_ge {n : Nat} (h : 3 ≤ n) (s : State) (k : State → Outcome State) :
    transmits n s k = settled s (escalate (txMismatches 3 s)) := if_pos h

/-! ## What signals leave of a device fault that is due -/

theorem boot_evalVec (f v : Nat) (s : State) : (evalVec f v s).boot = s.boot := by
  unfold evalVec
  dsimp only
  split
  · split <;> rfl
  · rfl

theorem boot_vecEvent (f v : Nat) (b : Bool) (s : State) : (vecEvent f v b s).boot = s.boot := by
  unfold vecEvent
  dsimp only
  split
  · exact boot_evalVec _ _ _
  · rfl

theorem boot_raiseSource (n : Nat) (s : State) : (raiseSource n s).boot = s.boot := by
  unfold raiseSource signalDevice
  dsimp only
  split
  · rfl
  · split
    · split
      · exact boot_vecEvent _ _ _ _
      · rfl
    · rfl

theorem boot_setEvent (f n : Nat) (s : State) : (setEvent f n s).boot = s.boot := by
  unfold setEvent
  dsimp only
  split
  · rfl
  · split
    · have signalled (t : State) (h : t.boot = s.boot) : (if f = 0 then raiseSource 204 t else t).boot = s.boot := by
        split
        · exact (boot_raiseSource _ _).trans h
        · exact h
      apply signalled
      split
      · exact boot_vecEvent _ _ _ _
      · rfl
    · rfl

theorem boot_acceptRecord (e : EventRec) (s : State) : (acceptRecord e s).boot = s.boot := by
  have rolled : (rollWindow s).boot = s.boot := by
    unfold rollWindow
    split <;> rfl
  unfold acceptRecord
  dsimp only
  split
  · rfl
  · split
    · exact rolled
    · split
      · exact rolled
      · split <;> exact rolled

theorem boot_record (code level p0 p1 p2 p3 : Nat) (nested : Bool) (s : State) :
    (record code level p0 p1 p2 p3 nested s).boot = s.boot := by
  unfold record aerOfLevel
  split
  · exact boot_acceptRecord _ _
  · split <;> exact boot_acceptRecord _ _

theorem boot_eachFn_setEvent (n : Nat) (s : State) : (eachFn (fun f => setEvent f n) s).boot = s.boot := by
  unfold eachFn
  generalize s.served = l
  induction l generalizing s with
  | nil => rfl
  | cons f l ih => exact (ih _).trans (boot_setEvent f n s)

theorem boot_settle (old s : State) : (settle old s).boot = s.boot := by
  unfold settle noteConditions
  dsimp only
  split
  · rfl
  · have locked : (if old.locked = s.locked then s else eachFn (fun f => setEvent f 1) s).boot = s.boot := by
      split
      · rfl
      · exact boot_eachFn_setEvent 1 s
    generalize (if old.locked = s.locked then s else eachFn (fun f => setEvent f 1) s) = s1 at locked
    have noPair : (if old.noPair = s1.noPair then s1 else eachFn (fun f => setEvent f 2) s1).boot = s.boot := by
      split
      · exact locked
      · exact (boot_eachFn_setEvent 2 s1).trans locked
    generalize (if old.noPair = s1.noPair then s1 else eachFn (fun f => setEvent f 2) s1) = s2 at noPair
    split
    · exact noPair
    · exact (boot_record _ _ _ _ _ _ _ _).trans noPair

/-! ## JOB_COMPLETION -/

/-- JOB_COMPLETION of a decided job, as far as its FLIT is concerned (R88). -/
theorem exec_jobCompletion {s : State} {r : JobRef} {j : Job} {d : Done} (more : Bool) (resent : Nat) (hj : s.job? r = some j)
    (outcome : j.outcome = some d) (loud : j.silent = false) :
    exec (.jobCompletion r more resent) s = transmits resent s fun t =>
      settled s (if more then completeJob j d t else writeMirror r.fn (s.cqOf r) (completeJob j d t)) := by
  show execJobCompletion r more resent s = _
  unfold execJobCompletion
  rw [hj]
  dsimp only
  rw [outcome]
  dsimp only
  rw [if_neg (by simp [loud])]

/-- The reservation is used, the producer index moves by one, and the mirror follows unless more records do. -/
theorem jobCompletion_issues {s : State} {r : JobRef} {j : Job} {d : Done} {c : CompQueue} (more : Bool) {resent : Nat}
    (hj : s.job? r = some j) (outcome : j.outcome = some d) (loud : j.silent = false) (ring : r.jq ≠ subQueue)
    (few : resent < 3) (hc : s.cq? r.fn (s.cqOf r) = some c) :
    Answers (.jobCompletion r more resent) s fun t =>
      t.job? r = none ∧ ∃ c', t.cq? r.fn (s.cqOf r) = some c' ∧ OneMore c c' ∧ (more = false → c'.covered = c'.pi) := by
  rw [Answers, exec_jobCompletion more resent hj outcome loud, transmits_of_lt few]
  refine ⟨_, rfl, ?_⟩
  obtain rfl := ref_of_job hj
  have sent := quietFree_txMismatches resent s
  have cqOf : (txMismatches resent s).cqOf j.ref = s.cqOf j.ref := by
    unfold State.cqOf
    rw [show (txMismatches resent s).jq? j.ref.fn j.ref.jq = s.jq? j.ref.fn j.ref.jq from sent.jq? _ _]
  have gone := job_completeJob_self j d (txMismatches resent s)
  obtain ⟨c', here, one⟩ := oneMore_completeJob (s := txMismatches resent s) d ring
    (by rw [cqOf]; exact (sent.cq? _ _).trans hc)
  rw [cqOf] at here
  cases more with
  | true =>
    refine ⟨?_, c', ((quiet_settle _ _).cq? _ _).trans here, one, nofun⟩
    rw [State.job?, (quiet_settle _ _).jobs]
    exact gone
  | false =>
    obtain ⟨c'', here', one', covered⟩ := oneMore_writeMirror here one
    refine ⟨?_, c'', ((quiet_settle _ _).cq? _ _).trans here', one', fun _ => covered⟩
    rw [State.job?, (quiet_settle _ _).jobs, if_neg Bool.false_ne_true, jobs_writeMirror]
    exact gone

/-- A third mismatch in a row is a device fault, and nothing leaves (R88). -/
theorem jobCompletion_escalates {s : State} {r : JobRef} {j : Job} {d : Done} (more : Bool) {resent : Nat}
    (hj : s.job? r = some j) (outcome : j.outcome = some d) (loud : j.silent = false) (many : 3 ≤ resent) :
    Answers (.jobCompletion r more resent) s fun t =>
      t.boot.escalated.isSome = true ∧ t.jobs = s.jobs ∧ t.mem = s.mem ∧ ∀ f c, t.cq? f c = s.cq? f c := by
  rw [Answers, exec_jobCompletion more resent hj outcome loud, transmits_of_ge many]
  have sent := (quietFree_txMismatches 3 s).trans (.of_quiet ((quiet_escalate _).trans (quiet_settle s _)))
  refine ⟨_, rfl, ?_, sent.jobs, sent.mem, fun f c => sent.cq? f c⟩
  rw [boot_settle]
  rfl

/-! ## The bytes of a record and of a mirror -/

theorem hostKey_of_lt {f a : Nat} (h : a < 2 ^ 64) : hostKey f a = f * 2 ^ 65 + a := by
  unfold hostKey
  rw [Nat.mod_eq_of_lt h]

theorem log_congr {s t : State} (h : t.fns = s.fns) (f : Nat) : (t.fn f).log = (s.fn f).log := by
  unfold State.fn
  rw [h]

/-- Writing the mirror writes four bytes of memory, and no other (R127). -/
theorem mem_writeMirror {f c : Nat} {q : CompQueue} {s : State} (h : s.cq? f c = some q) (log : (s.fn f).log = none) :
    (writeMirror f c s).mem =
      if q.pi = q.covered then s.mem else Memory.putAll s.mem (hostKey f q.mirror) (Bytes.ofLE 4 q.pi.toNat) := by
  unfold writeMirror
  rw [h]
  dsimp only
  split
  · rfl
  · rw [hostWrite_unlogged _ _ _ _ log]
    split
    · exact (quiet_vecEvent _ _ _ _).mem
    · rfl

theorem hostRead_congr {s t : State} (h : t.mem = s.mem) (f a n : Nat) : t.hostRead f a n = s.hostRead f a n := by
  unfold State.hostRead
  rw [h]

/-- A write that meets none of the bytes read leaves them. -/
theorem getAll_putAll_apart {m : List Host.Cell} {k j n : Nat} {b : Bytes} (wf : Memory.wf m = true)
    (apart : j + n ≤ k ∨ k + b.length ≤ j) : Memory.getAll (Memory.putAll m k b) j n = Memory.getAll m j n := by
  unfold Memory.getAll
  refine List.map_congr_left fun i hi => Memory.get_putAll_outside _ _ _ _ wf ?_
  rw [List.mem_range] at hi
  omega

theorem length_ofLE (n v : Nat) : (Bytes.ofLE n v).length = n := by
  induction n generalizing v with
  | zero => rfl
  | succ n ih => exact congrArg (· + 1) (ih _)

/-- The record lies in the ring at the producer index (R114, R124). -/
theorem issueRecord_hostRead {s : State} {f c : Nat} {q : CompQueue} {b : Bytes} (irqNow : Bool) (tidy : Tidy s)
    (hc : s.cq? f c = some q) (len : b.length = 32) (log : (s.fn f).log = none) (fits : q.recAt q.pi + 32 ≤ 2 ^ 64)
    (mirrorFits : q.mirror + 4 ≤ 2 ^ 64) (apart : q.mirror + 4 ≤ q.recAt q.pi ∨ q.recAt q.pi + 32 ≤ q.mirror) :
    (issueRecord f c b true irqNow s).hostRead f (q.recAt q.pi) 32 = b := by
  obtain ⟨wf, -⟩ := tidy
  rw [issueRecord_of_cq b true irqNow hc, hostWrite_unlogged _ _ _ _ log]
  have written : Memory.getAll (Memory.putAll s.mem (hostKey f (q.recAt q.pi)) b) (hostKey f (q.recAt q.pi)) 32 = b := by
    rw [← len]
    exact Memory.getAll_putAll _ _ _ wf
  split
  · unfold State.hostRead
    rw [mem_writeMirror (cq_setCq_self _ f c _) (by unfold setCq; rw [fn_modFn_self]; exact log)]
    split
    · exact written
    · rw [setCq_mem, withRecord_mirror, getAll_putAll_apart (Memory.wf_putAll _ _ _ wf)]
      · exact written
      · rw [length_ofLE, hostKey_of_lt (by omega), hostKey_of_lt (by omega)]
        omega
  · exact written

/-! ## MIRROR_WRITE and MODERATION_TIMER -/

theorem exec_mirrorWrite {s : State} {f c resent : Nat} {q : CompQueue} (hc : s.cq? f c = some q)
    (due : elapsedUs s.now q.firstAt 1 = true) (awake : (s.fn f).run ≠ .d3hot) (serving : (s.fn f).run ≠ .resetting)
    (few : resent < 3) : exec (.mirrorWrite f c resent) s = .next (writeMirror f c (txMismatches resent s)) := by
  show execMirrorWrite f c resent s = _
  unfold execMirrorWrite
  rw [hc]
  dsimp only
  rw [if_neg (by simp [awake, serving]), if_pos (by simp [due]), transmits_of_lt few]

/-- A mirror that is due shows the producer index, and no other byte of memory changes (R127). -/
theorem mirrorWrite_shows {s : State} {f c resent : Nat} {q : CompQueue} (tidy : Tidy s) (hc : s.cq? f c = some q)
    (lags : q.pi ≠ q.covered) (due : elapsedUs s.now q.firstAt 1 = true) (awake : (s.fn f).run ≠ .d3hot)
    (serving : (s.fn f).run ≠ .resetting) (few : resent < 3) :
    Answers (.mirrorWrite f c resent) s fun t =>
      t.cq? f c = some (mirrored q) ∧ t.jobs = s.jobs ∧
      ((s.fn f).log = none → q.mirror + 4 ≤ 2 ^ 64 → t.hostRead f q.mirror 4 = Bytes.ofLE 4 q.pi.toNat ∧
        ∀ k, (k < hostKey f q.mirror ∨ hostKey f q.mirror + 4 ≤ k) → Memory.get t.mem k = Memory.get s.mem k) := by
  obtain ⟨wf, -⟩ := tidy
  have sent := quietFree_txMismatches resent s
  have hc' : (txMismatches resent s).cq? f c = some q := (sent.cq? f c).trans hc
  refine ⟨_, exec_mirrorWrite hc due awake serving few, ?_, (jobs_writeMirror _ _ _).trans sent.jobs, fun log _ => ?_⟩
  · rw [cq_writeMirror_self hc', if_neg lags]
  · have log' : ((txMismatches resent s).fn f).log = none := (congrArg (·.log) (sent.2 f)).trans log
    unfold State.hostRead
    rw [mem_writeMirror hc' log', if_neg lags, show (txMismatches resent s).mem = s.mem from sent.mem]
    have four := length_ofLE 4 q.pi.toNat
    refine ⟨?_, fun k hk => Memory.get_putAll_outside _ _ _ _ wf (by omega)⟩
    have read := Memory.getAll_putAll (Bytes.ofLE 4 q.pi.toNat) s.mem (hostKey f q.mirror) wf
    rwa [four] at read

/-- A vector that is due and may be sent leaves as a message, its counts cleared (R173). -/
theorem moderationTimer_sends {s : State} {f v : Nat} (due : vecDue (s.fn f) ((s.fn f).vec v) s.now = true)
    (may : vecMaySend (s.fn f) ((s.fn f).vec v) = true) :
    Answers (.moderationTimer f v) s fun t =>
      t.out = .msix f v ((s.fn f).vec v).addr ((s.fn f).vec v).data :: s.out ∧
      (t.fn f).vec v = { (s.fn f).vec v with pending := false, n := 0, due := false, pba := false } ∧ Quiet s t := by
  refine ⟨evalVec f v s, rfl, ?_⟩
  have quiet := quiet_evalVec f v s
  unfold evalVec at quiet ⊢
  dsimp only at quiet ⊢
  rw [if_pos (by simp [due]), if_pos may] at quiet ⊢
  refine ⟨rfl, ?_, quiet⟩
  rw [show (emit _ (setFn f _ s)).fn f = (setFn f _ s).fn f from rfl, fn_setFn_self]
  exact FMap.getD_set_self _ _ _ _

/-- Settles O12. -/
theorem completionsReachTheRing : Obligations.CompletionsReachTheRing := by
  unfold Obligations.CompletionsReachTheRing
  refine ⟨fun s r j d c more resent hj outcome loud ring few hc => ?_,
    fun s r j d more resent hj outcome loud many => jobCompletion_escalates more hj outcome loud many,
    fun s f c q b irqNow tidy hc len log fits mirrorFits apart =>
      issueRecord_hostRead irqNow tidy hc len log fits mirrorFits apart,
    fun s f c resent q tidy hc lags due awake serving few => mirrorWrite_shows tidy hc lags due awake serving few,
    fun s f v due may => moderationTimer_sends due may⟩
  refine (jobCompletion_issues more hj outcome loud ring few hc).imp fun t issued => ?_
  obtain ⟨gone, c', here, ⟨pi, ci, reserved⟩, covered⟩ := issued
  exact ⟨gone, c', here, pi, ci, reserved, covered⟩

end Sys2Proof.Safety
end

section
/-!
PROOFS. O13 does not hold: a stopped job is taken off the first pair that lists it, and a state may list one job on two
pairs.
-/

-- In turn: a proof that waits for others beside it takes a thread and its stack from the memory that the check allows.
set_option Elab.async false

namespace Sys2Proof.Safety

open Sys2Proof.Machine

/-- A committed job of queue 1 of PF0 with reads outstanding. -/
def twiceListedJob : Job := { ref := { fn := 0, jq := 1, index := 0 }, entry := [], len := 1, stage := .committed, reads := .outstanding }

/-- A state in which pairs 0 and 1 both list that job, whose queue's default timeout is 0 µs. -/
def twiceListed : State :=
  { jobs := [twiceListedJob], fns := [(0, { run := .ready, jqs := [(1, { log2 := 6, ring := 0, cq := 0, defUs := 0 })] })]
    fab := { pairs := [{ jobs := [twiceListedJob.ref] }, { jobs := [twiceListedJob.ref] }] } }

/-- The state a command answers from `s`, `s` itself if it answers none: what a counterexample is evaluated with. -/
def after (c : Instr) (s : State) : State := match exec c s with | .next t => t | _ => s

theorem after_eq {c : Instr} {s t : State} (h : exec c s = .next t) : after c s = t := by
  unfold after
  rw [h]

/-- Pair 1 still lists the job once its timeout has ended it. -/
theorem timeout_leaves_second_pair :
    twiceListedJob.ref ∈ ((after (.jobTimeout twiceListedJob.ref) twiceListed).pair 1).jobs := by decide +kernel

/-- Refutes O13: with the job listed on pairs 0 and 1 its timeout takes it off pair 0 alone. -/
theorem not_timeoutEndsTheJob : ¬ Obligations.TimeoutEndsTheJob := by
  unfold Obligations.TimeoutEndsTheJob
  intro h
  have ends := h twiceListed twiceListedJob.ref twiceListedJob (by decide +kernel) (by decide) (by decide +kernel)
    (by decide +kernel) rfl rfl rfl
  dsimp only at ends
  rw [if_neg (by decide +kernel), if_pos (by decide +kernel)] at ends
  obtain ⟨t, step, off, -⟩ := ends
  exact off 1 (after_eq step ▸ timeout_leaves_second_pair)

end Sys2Proof.Safety
end

section
/-!
PROOFS. The queue admin commands (chapter 4, R139 to R142): creating and removing queues, and drains that are done at once
or begin.
-/

-- In turn: a proof that waits for others beside it takes a thread and its stack from the memory that the check allows.
set_option Elab.async false

namespace Sys2Proof.Safety

open Sys2Proof.Machine

/-! ## Admin commands -/

theorem row_of_firstFail {rows : List (Bool × Done)} {b : Bool} {d : Done} (h : firstFail rows = none) (row : (b, d) ∈ rows) :
    b = false := by
  cases b with
  | false => rfl
  | true => exact absurd h (firstFail_ne_none row)

theorem admin_spec {s : State} {f op : Nat} {j : Job} (h : s.admin? f op = some j) :
    j ∈ s.jobs ∧ j.ref.fn = f ∧ j.ref.jq = 0 ∧ j.outcome = none := by
  have found := List.find?_some h
  simp only [Bool.and_eq_true, decide_eq_true_eq, Option.isNone_iff_eq_none] at found
  exact ⟨List.mem_of_find?_eq_some h, by tauto⟩

theorem runAdmin_of_admin {s : State} {f op : Nat} {j : Job} (body : Job → State → Done × State)
    (h : s.admin? f op = some j) : runAdmin f op body s = settled s (decideJob j.ref (body j s).1 (body j s).2) := by
  unfold runAdmin
  rw [h]

theorem runAdminSteps_of_done {s t : State} {f op : Nat} {j : Job} {d : Done} {body : Job → State → Option Done × State}
    (h : s.admin? f op = some j) (hb : body j s = (some d, t)) : runAdminSteps f op body s = settled s (decideJob j.ref d t) := by
  unfold runAdminSteps
  rw [h]
  dsimp only
  rw [hb]

theorem runAdminSteps_of_wait {s t : State} {f op : Nat} {j : Job} {body : Job → State → Option Done × State}
    (h : s.admin? f op = some j) (hb : body j s = (none, t)) : runAdminSteps f op body s = settled s t := by
  unfold runAdminSteps
  rw [h]
  dsimp only
  rw [hb]

theorem checked_of_none {rows : List (Bool × Done)} (effect : State → State) (ok : Done) (s : State)
    (h : firstFail rows = none) : checked rows effect ok s = (ok, effect s) := by
  unfold checked
  rw [h]

theorem completes_of_exec {i : Instr} {s u : State} {j : Job} {d : Done} (h : exec i s = settled s (decideJob j.ref d u)) :
    Completes i s j d u := ⟨_, h, quiet_settle _ _⟩

/-- The job that a command completes has its completion, whatever job of its name the table lists first. -/
theorem outcome_decideJob {s : State} {j : Job} (d : Done) (hj : j ∈ s.jobs) :
    ((decideJob j.ref d s).job? j.ref).map (·.outcome) = some (some d) := by
  obtain ⟨k, hk⟩ : ∃ k, s.job? j.ref = some k := by
    rw [← Option.ne_none_iff_exists', Ne, job_eq_none_iff, not_not]
    exact List.mem_map_of_mem hj
  rw [job_decideJob_self, hk]
  rfl

/-! ## CREATE_JQ, CREATE_CQ, DESTROY_CQ -/

theorem exec_createJq {s : State} {f : Nat} {j : Job} (hj : s.admin? f Op.createJq = some j)
    (rows : firstFail (createJqRows (s.fn f) j.entry) = none) :
    exec (.createJq f) s =
      settled s (decideJob j.ref { status := Status.ok } (setJq f (j.entry.at_ 0x10).toNat (newJq j.entry) s)) := by
  show execCreateJq f s = _
  unfold execCreateJq
  rw [runAdmin_of_admin _ hj, checked_of_none _ _ _ rows]

theorem exec_createCq {s : State} {f : Nat} {j : Job} (hj : s.admin? f Op.createCq = some j)
    (rows : firstFail (createCqRows (s.fn f) j.entry) = none) :
    exec (.createCq f) s =
      settled s (decideJob j.ref { status := Status.ok } (setCq f (j.entry.at_ 0x10).toNat (newCq j.entry) s)) := by
  show execCreateCq f s = _
  unfold execCreateCq
  rw [runAdmin_of_admin _ hj, checked_of_none _ _ _ rows]

theorem exec_destroyCq {s : State} {f : Nat} {j : Job} (hj : s.admin? f Op.destroyCq = some j)
    (rows : firstFail (destroyCqRows (s.fn f) j.entry) = none) :
    exec (.destroyCq f) s = settled s (decideJob j.ref { status := Status.ok }
      (modFn f (fun g => { g with cqs := g.cqs.erase (j.entry.at_ 0x10).toNat }) s)) := by
  show execDestroyCq f s = _
  unfold execDestroyCq
  rw [runAdmin_of_admin _ hj, checked_of_none _ _ _ rows]

theorem ring_aligned_newJq {g : Fn} {e : Bytes} (h : firstFail (createJqRows g e) = none) : (newJq e).ring % 4096 = 0 := by
  have row := row_of_firstFail (b := decide ((newJq e).ring % 4096 ≠ 0)) (d := bad 0x0E) h 
    (.tail _ (.tail _ (.tail _ (.head _))))
  simpa using row

theorem aligned_newCq {g : Fn} {e : Bytes} (h : firstFail (createCqRows g e) = none) :
    (newCq e).ring % 4096 = 0 ∧ (newCq e).mirror % 4 = 0 := by
  have row := row_of_firstFail (d := bad 0x0E) (b := decide ((newCq e).ring % 4096 ≠ 0) || decide ((newCq e).mirror % 4 ≠ 0) ||
    mirrorInside (newCq e).mirror (((newCq e).ring, (newCq e).size * 32) :: ringsOf g)) h (by simp [createCqRows])
  simp only [Bool.or_eq_false_iff, decide_eq_false_iff_not, not_not] at row
  obtain ⟨⟨ring, mirror⟩, -⟩ := row
  exact ⟨ring, mirror⟩

theorem createJq_creates {s : State} {f : Nat} {j : Job} (hj : s.admin? f Op.createJq = some j)
    (rows : firstFail (createJqRows (s.fn f) j.entry) = none) :
    Completes (.createJq f) s j { status := 0x00 } (setJq f (j.entry.at_ 0x10).toNat (newJq j.entry) s) ∧
    Answers (.createJq f) s fun t => ∃ x, t.jq? f (j.entry.at_ 0x10).toNat = some x ∧ x.ring = j.entry.leAt 0x18 8 ∧
      x.log2 = (j.entry.at_ 0x11).toNat ∧ x.pi = 0 ∧ x.ci = 0 ∧ x.st = .active ∧ x.ring % 4096 = 0 :=
  ⟨completes_of_exec (exec_createJq hj rows), _, exec_createJq hj rows, newJq j.entry,
    ((quiet_settle _ _).jq? _ _).trans (jq_setJq_self _ _ _ _), rfl, rfl, rfl, rfl, rfl, ring_aligned_newJq rows⟩

theorem createCq_creates {s : State} {f : Nat} {j : Job} (hj : s.admin? f Op.createCq = some j)
    (rows : firstFail (createCqRows (s.fn f) j.entry) = none) :
    Completes (.createCq f) s j { status := 0x00 } (setCq f (j.entry.at_ 0x10).toNat (newCq j.entry) s) ∧
    Answers (.createCq f) s fun t => ∃ x, t.cq? f (j.entry.at_ 0x10).toNat = some x ∧ x.ring = j.entry.leAt 0x18 8 ∧
      x.mirror = j.entry.leAt 0x20 8 ∧ x.pi = 0 ∧ x.ci = 0 ∧ x.ring % 4096 = 0 ∧ x.mirror % 4 = 0 :=
  ⟨completes_of_exec (exec_createCq hj rows), _, exec_createCq hj rows, newCq j.entry,
    ((quiet_settle _ _).cq? _ _).trans (cq_setCq_self _ _ _ _), rfl, rfl, rfl, rfl, aligned_newCq rows⟩

theorem cq_erased (f c : Nat) (s : State) : (modFn f (fun g => { g with cqs := g.cqs.erase c }) s).cq? f c = none := by
  unfold State.cq?
  rw [fn_modFn_self]
  exact FMap.find?_erase_self _ _

theorem destroyCq_removes {s : State} {f : Nat} {j : Job} (hj : s.admin? f Op.destroyCq = some j)
    (rows : firstFail (destroyCqRows (s.fn f) j.entry) = none) :
    Completes (.destroyCq f) s j { status := 0x00 }
      (modFn f (fun g => { g with cqs := g.cqs.erase (j.entry.at_ 0x10).toNat }) s) ∧
    Answers (.destroyCq f) s fun t => t.cq? f (j.entry.at_ 0x10).toNat = none := by
  exact ⟨completes_of_exec (exec_destroyCq hj rows), _, exec_destroyCq hj rows,
    ((quiet_settle _ _).cq? _ _).trans (cq_erased f _ s)⟩

/-! ## What posting a mirror leaves alone -/

/-- A function without what signalling, dirty-page logging and completion records write. -/
def postedFn (g : Fn) : Fn := { stillFn g with log := none, cqs := [] }

/-- `t` differs from `s` at most in host memory, dirty-page logs, completion queues and signals. -/
def Posted (s t : State) : Prop :=
  still { t with mem := [] } = still { s with mem := [] } ∧ ∀ f, postedFn (t.fn f) = postedFn (s.fn f)

theorem Posted.refl (s : State) : Posted s s := ⟨rfl, fun _ => rfl⟩

theorem Posted.trans {s t u : State} (a : Posted s t) (b : Posted t u) : Posted s u :=
  ⟨b.1.trans a.1, fun f => (b.2 f).trans (a.2 f)⟩

theorem Posted.of_quiet {s t : State} (q : Quiet s t) : Posted s t :=
  ⟨congrArg (fun x : State => { x with mem := [] }) q.1,
    fun f => congrArg (fun g : Fn => { g with log := none, cqs := [] }) (q.2 f)⟩

theorem Posted.of_written {s t : State} (w : Written s t) : Posted s t :=
  ⟨by have still_eq := congrArg still w.1; exact still_eq, fun f => congrArg (fun g : Fn => { stillFn g with cqs := [] }) (w.2 f)⟩

theorem posted_setCq (f c : Nat) (x : CompQueue) (s : State) : Posted s (setCq f c x s) := by
  refine ⟨rfl, fun k => ?_⟩
  unfold setCq
  rw [fn_modFn]
  split
  · next e => subst e; rfl
  · rfl

theorem posted_writeMirror (f c : Nat) (s : State) : Posted s (writeMirror f c s) := by
  unfold writeMirror
  split
  · exact .refl s
  · split
    · exact .refl s
    · have written (a : Nat) (b : Bytes) (x : CompQueue) : Posted s (setCq f c x (hostWrite f a b s)) :=
        .trans (.of_written (written_hostWrite f a b s)) (posted_setCq _ _ _ _)
      dsimp only
      split
      · exact .trans (written _ _ _) (.of_quiet (quiet_vecEvent _ _ _ _))
      · exact written _ _ _

section Projections

variable {s t : State} (p : Posted s t)

include p

theorem Posted.jobs : t.jobs = s.jobs := congrArg (fun x : _ => x.jobs) p.1
theorem Posted.job? (r : JobRef) : t.job? r = s.job? r := congrArg (fun l => List.find? _ l) p.jobs
theorem Posted.store : t.store = s.store := congrArg (fun x : _ => x.store) p.1
theorem Posted.life : t.life = s.life := congrArg (fun x : _ => x.life) p.1
theorem Posted.jqs (f : Nat) : (t.fn f).jqs = (s.fn f).jqs := congrArg (fun x : _ => x.jqs) (p.2 f)
theorem Posted.jq? (f q : Nat) : t.jq? f q = s.jq? f q := congrArg (·.find? q) (p.jqs f)

end Projections

/-! ## A posted write depends on its function's log and on the device's dirty cache alone -/

theorem set_set {α : Type} (m : FMap α) (k : Nat) (v w : α) : (m.set k v).set k w = m.set k w := by
  induction m with
  | nil => simp [FMap.set]
  | cons p r ih =>
    obtain ⟨j, u⟩ := p
    by_cases h1 : k < j
    · simp [FMap.set, h1]
    · by_cases h2 : k = j
      · simp [FMap.set, h2]
      · simp [FMap.set, h1, h2, ih]

/-- The words a function's log caches. -/
def cacheLen (g : Fn) : Nat := match g.log with | none => 0 | some l => l.cache.length

theorem map_set_congr {α β : Type} (h : α → β) (m : FMap α) (k : Nat) {v w : α} (e : h v = h w) :
    (m.set k v).map (fun p => h p.2) = (m.set k w).map (fun p => h p.2) := by
  induction m with
  | nil => simp [FMap.set, e]
  | cons p r ih =>
    obtain ⟨j, u⟩ := p
    unfold FMap.set
    split
    · simp [e]
    · split
      · simp [e]
      · simp [ih]

theorem dirtyCacheUse_setFn_congr {f : Nat} {g h : Fn} (s : State) (e : g.log = h.log) :
    dirtyCacheUse (setFn f g s) = dirtyCacheUse (setFn f h s) :=
  congrArg (List.foldl (· + ·) 0) (map_set_congr cacheLen s.fns f (by unfold cacheLen; rw [e]))

theorem setFn_setFn (f : Nat) (g h : Fn) (s : State) : setFn f h (setFn f g s) = setFn f h s := by
  unfold setFn
  rw [set_set]

theorem mem_mergeDirty_congr {f : Nat} {s t : State} (mem : t.mem = s.mem) (log : (t.fn f).log = (s.fn f).log) :
    (mergeDirty f t).mem = (mergeDirty f s).mem := by
  unfold mergeDirty
  rw [log, mem]
  split
  · exact mem
  · rfl

theorem mem_flushDirty_congr {f : Nat} {g h : Fn} (s : State) (log : g.log = h.log) :
    (if dirtyCacheUse (setFn f g s) > 4096 then mergeDirty f (setFn f g s) else setFn f g s).mem =
      (if dirtyCacheUse (setFn f h s) > 4096 then mergeDirty f (setFn f h s) else setFn f h s).mem := by
  rw [dirtyCacheUse_setFn_congr s log]
  split
  · refine mem_mergeDirty_congr ?_ ?_
    · rfl
    · rw [fn_setFn_self, fn_setFn_self, log]
  · rfl

theorem mem_logWrite_setFn {f : Nat} {g : Fn} (a n : Nat) (s : State) (log : g.log = (s.fn f).log) :
    (logWrite f a n (setFn f g s)).mem = (logWrite f a n s).mem := by
  unfold logWrite
  rw [fn_setFn_self, log]
  split
  · rfl
  · split
    · rfl
    · unfold modFn
      dsimp only
      rw [setFn_setFn, fn_setFn_self]
      exact mem_flushDirty_congr s rfl

theorem mem_hostWrite_setFn {f : Nat} {g : Fn} (a : Nat) (b : Bytes) (s : State) (log : g.log = (s.fn f).log) :
    (hostWrite f a b (setFn f g s)).mem = (hostWrite f a b s).mem :=
  mem_logWrite_setFn a b.length { s with mem := Memory.putAll s.mem (hostKey f a) b } log

theorem mem_writeMirror_setJq (f q c : Nat) (x : JobQueue) (s : State) :
    (writeMirror f c (setJq f q x s)).mem = (writeMirror f c s).mem := by
  unfold writeMirror
  rw [cq_setJq]
  split
  · rfl
  · split
    · rfl
    · have written (a : Nat) (b : Bytes) : (hostWrite f a b (setJq f q x s)).mem = (hostWrite f a b s).mem :=
        mem_hostWrite_setFn a b s rfl
      dsimp only
      split
      · rw [(quiet_vecEvent _ _ _ _).mem, (quiet_vecEvent _ _ _ _).mem]
        exact written _ _
      · exact written _ _

/-! ## Drains that are done at once -/

/-- Queue `x` as a drain that has begun leaves it. -/
def drainingJq (x : JobQueue) : JobQueue := { x with st := .draining, unread := false }

theorem drainStart_idle {s : State} {f q cause : Nat} {x : JobQueue} (hx : s.jq? f q = some x)
    (idle : ∀ k ∈ s.jobs, k.ref.fn = f → k.ref.jq ≠ q) : drainStart f q cause s = setJq f q (drainingJq x) s := by
  unfold drainStart
  rw [hx]
  have none : s.jobs.filter (fun j => decide (j.ref.fn = f ∧ j.ref.jq = q)) = [] := by
    rw [List.filter_eq_nil_iff]
    intro k hk
    simpa using idle k hk
  dsimp only
  rw [none]
  rfl

/-- Nothing of an empty queue is left to fetch. -/
theorem hasUnfetched_empty {s : State} {f q : Nat} {x : JobQueue} (hx : s.jq? f q = some x) (done : x.ci = x.pi)
    (empty : x.entries = []) : hasUnfetched s f q = false := by
  unfold hasUnfetched
  rw [hx]
  simp [JobQueue.next, empty, fetchWalk, done]

theorem drainWalk_at_end {s : State} {f q cause n : Nat} {x : JobQueue} (lost : Bool) (hx : s.jq? f q = some x) :
    drainWalk f q cause (n + 1) x.pi lost s = (true, lost, s) := by
  unfold drainWalk
  rw [hx]
  dsimp only
  rw [if_pos rfl]

/-- A drain of an empty queue that leaves it out of the table. -/
theorem drainRun_remove_empty {s : State} {f q cause : Nat} {x : JobQueue} (hx : s.jq? f q = some x) (done : x.ci = x.pi) :
    drainRun f q cause true s =
      (true, false, modFn f (fun g => { g with jqs := g.jqs.erase q }) (writeMirror f x.cq s)) := by
  unfold drainRun
  rw [hx]
  dsimp only
  rw [done, drainWalk_at_end _ hx]
  rfl

/-- Queue `x` as a drain that is done leaves it when it stays. -/
def resumedJq (x : JobQueue) : JobQueue := { x with st := .active, ci := x.pi, entries := [], bells := [], unread := false }

/-- A drain of an empty queue that leaves it ACTIVE. -/
theorem drainRun_keep_empty {s : State} {f q cause : Nat} {x : JobQueue} (hx : s.jq? f q = some x) (done : x.ci = x.pi) :
    drainRun f q cause false s = (true, false, setJq f q (resumedJq x) (writeMirror f x.cq s)) := by
  unfold drainRun
  rw [hx]
  dsimp only
  rw [done, drainWalk_at_end _ hx, if_pos rfl, if_neg Bool.false_ne_true, (posted_writeMirror _ _ _).jq?, hx]
  rfl

theorem jq_erased (f q : Nat) (s : State) : (modFn f (fun g => { g with jqs := g.jqs.erase q }) s).jq? f q = none := by
  unfold State.jq?
  rw [fn_modFn_self]
  exact FMap.find?_erase_self _ _

theorem jq_erased_ne {f q k p : Nat} (s : State) (ne : k ≠ f ∨ p ≠ q) :
    (modFn f (fun g => { g with jqs := g.jqs.erase q }) s).jq? k p = s.jq? k p := by
  unfold State.jq?
  rw [fn_modFn]
  split
  · next e => subst e; exact FMap.find?_erase_ne _ (by omega)
  · rfl

/-- The first step of DESTROY_JQ or RESET_JQ whose checks pass. -/
theorem drainCommand_first {s : State} {f cause : Nat} {remove : Bool} {j : Job} (phase : j.phase = 0)
    (rows : firstFail (drainRows (s.fn f) j.entry) = none) :
    drainCommand f cause remove j s =
      (let q := (j.entry.at_ 0x10).toNat
       let s1 := drainStart f q cause s
       if hasUnfetched s1 f q then (none, modJob j.ref (fun j => { j with phase := 1 }) s1)
       else
         let r := drainRun f q cause remove s1
         if r.1 then (some { status := Status.ok, detail := b2n r.2.1 }, r.2.2)
         else (none, modJob j.ref (fun j => { j with phase := 1 }) r.2.2)) := by
  unfold drainCommand
  dsimp only
  rw [if_pos phase, rows]

section Empty

variable {s : State} {f : Nat} {j : Job} {x : JobQueue} (phase : j.phase = 0)
  (rows : firstFail (drainRows (s.fn f) j.entry) = none) (hx : s.jq? f (j.entry.at_ 0x10).toNat = some x) (done : x.ci = x.pi)
  (empty : x.entries = []) (idle : ∀ k ∈ s.jobs, k.ref.fn = f → k.ref.jq ≠ (j.entry.at_ 0x10).toNat)

include phase rows hx done empty idle

theorem drainCommand_remove_empty (cause : Nat) : drainCommand f cause true j s =
    (some { status := Status.ok }, modFn f (fun g => { g with jqs := g.jqs.erase (j.entry.at_ 0x10).toNat })
      (writeMirror f x.cq (setJq f (j.entry.at_ 0x10).toNat (drainingJq x) s))) := by
  have begun := jq_setJq_self s f (j.entry.at_ 0x10).toNat (drainingJq x)
  rw [drainCommand_first phase rows]
  dsimp only
  rw [drainStart_idle hx idle, hasUnfetched_empty begun done empty, if_neg Bool.false_ne_true,
    drainRun_remove_empty begun done]
  rfl

theorem drainCommand_keep_empty (cause : Nat) : drainCommand f cause false j s =
    (some { status := Status.ok }, setJq f (j.entry.at_ 0x10).toNat (resumedJq (drainingJq x))
      (writeMirror f x.cq (setJq f (j.entry.at_ 0x10).toNat (drainingJq x) s))) := by
  have begun := jq_setJq_self s f (j.entry.at_ 0x10).toNat (drainingJq x)
  rw [drainCommand_first phase rows]
  dsimp only
  rw [drainStart_idle hx idle, hasUnfetched_empty begun done empty, if_neg Bool.false_ne_true, drainRun_keep_empty begun done]
  rfl

end Empty

/-- What the mirror of its completion queue and the drain of an empty queue change of the rest of the state. -/
theorem mirrorFrame_of_drained {s u : State} {f q : Nat} {j : Job} {x : JobQueue} (d : Done) (admin : j.ref.jq = 0)
    (mem : u.mem = (writeMirror f x.cq (setJq f q (drainingJq x) s)).mem) (store : u.store = s.store) (life : u.life = s.life)
    (jobs : u.jobs = s.jobs) (jqs : ∀ k p, k ≠ f ∨ p ≠ q → u.jq? k p = s.jq? k p) :
    MirrorFrame f q x s (settle s (decideJob j.ref d u)) := by
  have quiet := quiet_settle s (decideJob j.ref d u)
  refine ⟨?_, quiet.store.trans store, quiet.life.trans life, fun r plain => ?_, fun k p ne => (quiet.jq? k p).trans (jqs k p ne)⟩
  · rw [quiet.mem, ← mem_writeMirror_setJq f q x.cq (drainingJq x)]
    exact mem
  · unfold State.job?
    rw [quiet.jobs]
    refine (job_decideJob_ne (k := r) u d fun e => plain (e ▸ admin)).trans ?_
    unfold State.job?
    rw [jobs]

/-- DESTROY_JQ of an empty queue removes it at once (R141). -/
theorem destroyJq_empty {s : State} {f : Nat} {j : Job} {x : JobQueue} (hj : s.admin? f Op.destroyJq = some j) (phase : j.phase = 0)
    (rows : firstFail (drainRows (s.fn f) j.entry) = none) (hx : s.jq? f (j.entry.at_ 0x10).toNat = some x) (done : x.ci = x.pi)
    (empty : x.entries = []) (idle : ∀ k ∈ s.jobs, k.ref.fn = f → k.ref.jq ≠ (j.entry.at_ 0x10).toNat) :
    Answers (.destroyJq f) s fun t => t.jq? f (j.entry.at_ 0x10).toNat = none ∧
      (t.job? j.ref).map (·.outcome) = some (some { status := 0x00 }) ∧ MirrorFrame f (j.entry.at_ 0x10).toNat x s t := by
  obtain ⟨mem, -, admin, -⟩ := admin_spec hj
  have posted := posted_writeMirror f x.cq (setJq f (j.entry.at_ 0x10).toNat (drainingJq x) s)
  have quiet (u : State) := quiet_settle s u
  refine ⟨_, runAdminSteps_of_done hj (drainCommand_remove_empty phase rows hx done empty idle 1), ?_, ?_, ?_⟩
  · exact ((quiet _).jq? _ _).trans (jq_erased _ _ _)
  · unfold State.job?
    rw [(quiet _).jobs]
    refine outcome_decideJob { status := Status.ok } ?_
    rw [modFn_jobs, posted.jobs]
    exact mem
  · exact mirrorFrame_of_drained _ admin rfl posted.store posted.life posted.jobs fun k p ne =>
      (jq_erased_ne _ ne).trans ((posted.jq? k p).trans (jq_setJq_ne _ _ ne))

/-- RESET_JQ of an empty queue leaves it ACTIVE at once (R141). -/
theorem resetJq_empty {s : State} {f : Nat} {j : Job} {x : JobQueue} (hj : s.admin? f Op.resetJq = some j) (phase : j.phase = 0)
    (rows : firstFail (drainRows (s.fn f) j.entry) = none) (hx : s.jq? f (j.entry.at_ 0x10).toNat = some x) (done : x.ci = x.pi)
    (empty : x.entries = []) (idle : ∀ k ∈ s.jobs, k.ref.fn = f → k.ref.jq ≠ (j.entry.at_ 0x10).toNat) :
    Answers (.resetJq f) s fun t =>
      (∃ y, t.jq? f (j.entry.at_ 0x10).toNat = some y ∧ y.st = .active ∧ y.ci = y.pi ∧ y.pi = x.pi) ∧
      (t.job? j.ref).map (·.outcome) = some (some { status := 0x00 }) ∧ MirrorFrame f (j.entry.at_ 0x10).toNat x s t := by
  obtain ⟨mem, -, admin, -⟩ := admin_spec hj
  have posted := posted_writeMirror f x.cq (setJq f (j.entry.at_ 0x10).toNat (drainingJq x) s)
  have quiet (u : State) := quiet_settle s u
  refine ⟨_, runAdminSteps_of_done hj (drainCommand_keep_empty phase rows hx done empty idle 2), ?_, ?_, ?_⟩
  · exact ⟨resumedJq (drainingJq x), ((quiet _).jq? _ _).trans (jq_setJq_self _ _ _ _), rfl, rfl, rfl⟩
  · unfold State.job?
    rw [(quiet _).jobs]
    refine outcome_decideJob { status := Status.ok } ?_
    rw [setJq_jobs, posted.jobs]
    exact mem
  · exact mirrorFrame_of_drained _ admin rfl posted.store posted.life posted.jobs fun k p ne =>
      (jq_setJq_ne _ _ ne).trans ((posted.jq? k p).trans (jq_setJq_ne _ _ ne))

/-! ## Drains that begin -/

/-- A function without what signalling and dirty-page logging write. -/
def loggedFn (g : Fn) : Fn := { stillFn g with log := none }

/-- What stopping job `r` leaves: every function but for signals and dirty-page logs, the life cycle, and every other job. -/
def Stops (r : JobRef) (s t : State) : Prop :=
  (∀ f, loggedFn (t.fn f) = loggedFn (s.fn f)) ∧ t.life = s.life ∧ ∀ k, k ≠ r → t.job? k = s.job? k

theorem Stops.refl (r : JobRef) (s : State) : Stops r s s := ⟨fun _ => rfl, rfl, fun _ _ => rfl⟩

theorem Stops.trans {r : JobRef} {s t u : State} (a : Stops r s t) (b : Stops r t u) : Stops r s u :=
  ⟨fun f => (b.1 f).trans (a.1 f), b.2.1.trans a.2.1, fun k ne => (b.2.2 k ne).trans (a.2.2 k ne)⟩

theorem Stops.of_quiet {r : JobRef} {s t : State} (q : Quiet s t) : Stops r s t :=
  ⟨fun f => congrArg (fun g : Fn => { g with log := none }) (q.2 f), q.life, fun k _ => by unfold State.job?; rw [q.jobs]⟩

theorem Stops.of_written {r : JobRef} {s t : State} (w : Written s t) : Stops r s t :=
  ⟨fun f => congrArg stillFn (w.2 f), w.life, fun k _ => by unfold State.job?; rw [w.jobs]⟩

/-- Changes outside the functions, the life cycle and the job table. -/
theorem Stops.of_fields {r : JobRef} {s t : State} (fns : t.fns = s.fns := by exact rfl) (life : t.life = s.life := by exact rfl)
    (jobs : t.jobs = s.jobs := by exact rfl) : Stops r s t :=
  ⟨fun f => by unfold State.fn; rw [fns], life, fun k _ => by unfold State.job?; rw [jobs]⟩

theorem stops_modJob (r : JobRef) (h : Job → Job) (s : State) (hk : ∀ j, (h j).ref = j.ref := by exact fun _ => rfl) :
    Stops r s (modJob r h s) := ⟨fun _ => rfl, rfl, fun _ ne => job_modJob_ne ne hk⟩

theorem stops_hostWriteFold (r : JobRef) (j : Job) (l : List TraceWrite) (s : State) : Stops r s
    (l.foldl (fun s w => drewFree (hostWrite j.ref.fn w.addr (disturbed s.free (s.hostRead j.ref.fn w.addr w.len) w) s)) s) := by
  induction l generalizing s with
  | nil => exact .refl r s
  | cons w l ih => exact (Stops.of_written (written_hostWrite _ _ _ s)).trans (.trans (.of_fields) (ih _))

theorem stops_squash (r : JobRef) (j : Job) (s : State) : Stops r s (squash j s) := by
  unfold squash
  split
  · refine .trans (t := disturb j s) ?_ ?_
    · unfold disturb
      split
      · exact stops_hostWriteFold r j _ s
      · exact .refl r s
    · unfold scrub
      split
      · exact (Stops.of_written (written_hostWrite _ _ _ _)).trans .of_fields
      · exact .refl r _
  · exact .refl r s

theorem stops_returnRole (r : JobRef) (p : Nat) (s : State) : Stops r s (returnRole p s) := by
  unfold returnRole
  dsimp only
  split
  · split
    · exact .trans .of_fields (.of_quiet ((quiet_record _ _ _ _ _ _ _ _).trans (quiet_setErr _ _ _)))
    · exact .refl r s
  · exact .refl r s

theorem stops_leavePair (k r : JobRef) (s : State) : Stops k s (leavePair r s) := by
  unfold leavePair
  split
  · exact .refl k s
  · exact .trans .of_fields (stops_returnRole k _ _)

theorem stops_releaseHold (r : JobRef) (j : Job) (s : State) : Stops r s (releaseHold j s) := by
  unfold releaseHold
  split
  · exact .refl r s
  · exact .of_fields

theorem stops_freeRetiring (r : JobRef) (n gen : Nat) (s : State) : Stops r s (freeRetiring n gen s) := by
  unfold freeRetiring
  split
  · split
    · exact .of_fields
    · exact .refl r s
  · exact .refl r s

theorem stops_leavePk (r : JobRef) (s : State) : Stops r s (leavePk r s) := by
  unfold leavePk
  dsimp only
  split
  · exact (stops_modJob r eraseContext s).trans .of_fields
  · exact .of_fields

theorem stops_suppress (j : Job) (d : Done) (silent : Bool) (s : State) : Stops j.ref s (suppress j d silent s) := by
  unfold suppress
  split
  · exact (Stops.of_quiet (quiet_bump _ s)).trans (stops_modJob _ _ _)
  · exact .of_quiet (quiet_bump _ s)

theorem stops_awaitReads (j : Job) (d : Done) (s : State) : Stops j.ref s (awaitReads j d s) := by
  unfold awaitReads
  dsimp only
  have off := (stops_squash j.ref j s).trans ((stops_leavePair j.ref j.ref _).trans (stops_releaseHold j.ref j _))
  split
  · exact off.trans (stops_modJob _ _ _)
  · exact off.trans ((stops_modJob _ _ _).trans (stops_freeRetiring _ _ _ _))

/-- A drain that reaches a job of a queue other than queue 0 touches no other job. -/
theorem stops_drainJob {j : Job} (cause : Nat) (plain : j.ref.jq ≠ 0) (s : State) : Stops j.ref s (drainJob cause j s) := by
  unfold drainJob
  dsimp only
  rw [if_neg plain]
  split
  · exact (Stops.of_quiet (quiet_bump _ s)).trans (stops_modJob _ _ _)
  · split
    · exact .refl _ s
    · split
      · exact stops_suppress _ _ _ _
      · split
        · exact stops_modJob _ _ _
        · split
          · exact (stops_modJob _ _ _).trans (stops_awaitReads _ _ _)
          · exact (stops_squash _ _ _).trans ((stops_leavePair _ _ _).trans ((stops_releaseHold _ _ _).trans
              ((stops_leavePk _ _).trans (stops_modJob _ _ _))))

theorem Stops.jq? {r : JobRef} {s t : State} (h : Stops r s t) (f q : Nat) : t.jq? f q = s.jq? f q :=
  congrArg (fun g : _ => g.jqs.find? q) (h.1 f)

theorem Stops.cq? {r : JobRef} {s t : State} (h : Stops r s t) (f c : Nat) : t.cq? f c = s.cq? f c :=
  congrArg (fun g : _ => g.cqs.find? c) (h.1 f)

/-- The drain reaches the job of the name of `j`, as it then is. -/
def drainNamed (cause : Nat) (s : State) (j : Job) : State :=
  match s.job? j.ref with | some k => drainJob cause k s | none => s

theorem stops_drainNamed (cause : Nat) (s : State) {j : Job} (plain : j.ref.jq ≠ 0) : Stops j.ref s (drainNamed cause s j) := by
  unfold drainNamed
  split
  · next k hk =>
      have named := ref_of_job hk
      rw [← named]
      exact stops_drainJob cause (by rwa [named]) s
  · exact .refl _ s

/-- What beginning to drain queue `q` of `f` leaves: the other queues, the life cycle, and jobs of other queue numbers. -/
def DrainLeaves (q : Nat) (s t : State) : Prop :=
  (∀ f p, t.jq? f p = s.jq? f p) ∧ (∀ f c, t.cq? f c = s.cq? f c) ∧ t.life = s.life ∧ ∀ r, r.jq ≠ q → t.job? r = s.job? r

theorem drainLeaves_foldl {q : Nat} (cause : Nat) (plain : q ≠ 0) (l : List Job) (hl : ∀ k ∈ l, k.ref.jq = q) (s : State) :
    DrainLeaves q s (l.foldl (drainNamed cause) s) := by
  induction l generalizing s with
  | nil => exact ⟨fun _ _ => rfl, fun _ _ => rfl, rfl, fun _ _ => rfl⟩
  | cons k l ih =>
    have hk : k.ref.jq = q := hl k (.head _)
    have first := stops_drainNamed cause s (j := k) (by rwa [hk])
    obtain ⟨jqs, cqs, life, jobs⟩ := ih (fun i hi => hl i (.tail _ hi)) (drainNamed cause s k)
    exact ⟨fun f p => (jqs f p).trans (first.jq? f p), fun f c => (cqs f c).trans (first.cq? f c), life.trans first.2.1,
      fun r ne => (jobs r ne).trans (first.2.2 r fun e => ne (e ▸ hk))⟩

theorem drainLeaves_drainStart {s : State} {f q : Nat} {x : JobQueue} (cause : Nat) (plain : q ≠ 0) (hx : s.jq? f q = some x) :
    DrainLeaves q (setJq f q (drainingJq x) s) (drainStart f q cause s) := by
  unfold drainStart
  rw [hx]
  refine drainLeaves_foldl cause plain _ (fun k hk => ?_) _
  simp only [List.mem_filter, decide_eq_true_eq] at hk
  exact hk.2.2

theorem queue_pos_of_drainRows {g : Fn} {e : Bytes} (h : firstFail (drainRows g e) = none) : (e.at_ 0x10).toNat ≠ 0 := by
  have row := row_of_firstFail (b := decide ((e.at_ 0x10).toNat < 1) || decide ((e.at_ 0x10).toNat > 63) ||
    (g.jqs.find? (e.at_ 0x10).toNat).isNone) (d := bad 0x0C) h (.tail _ (.head _))
  simp only [Bool.or_eq_false_iff, decide_eq_false_iff_not] at row
  omega

/-- The first step of a drain of a queue that holds entries not fetched yet. -/
theorem drainCommand_begins {s : State} {f : Nat} {j : Job} {x : JobQueue} (cause : Nat) (remove : Bool) (phase : j.phase = 0)
    (admin : j.ref.jq = 0) (hj : s.job? j.ref = some j) (outcome : j.outcome = none)
    (rows : firstFail (drainRows (s.fn f) j.entry) = none) (hx : s.jq? f (j.entry.at_ 0x10).toNat = some x) (more : x.next ≠ x.pi) :
    ∃ u, drainCommand f cause remove j s = (none, u) ∧ DrainBegun f j x s u := by
  have plain := queue_pos_of_drainRows rows
  obtain ⟨jqs, cqs, life, jobs⟩ := drainLeaves_drainStart cause plain hx
  have here : (drainStart f (j.entry.at_ 0x10).toNat cause s).jq? f (j.entry.at_ 0x10).toNat = some (drainingJq x) :=
    (jqs _ _).trans (jq_setJq_self _ _ _ _)
  have unfetched : hasUnfetched (drainStart f (j.entry.at_ 0x10).toNat cause s) f (j.entry.at_ 0x10).toNat = true := by
    unfold hasUnfetched
    rw [here]
    exact decide_eq_true more
  rw [drainCommand_first phase rows]
  dsimp only
  rw [if_pos unfetched]
  refine ⟨_, rfl, ?_, ?_, life, fun k c => (cqs k c).trans (cq_setJq _ _ _ _ _ _),
    fun k p ne => (jqs k p).trans (jq_setJq_ne _ _ ne)⟩
  · exact congrArg (Option.map fun y : JobQueue => (y.st, y.pi, y.ci)) here
  · have kept : (drainStart f (j.entry.at_ 0x10).toNat cause s).job? j.ref = some j :=
      (jobs j.ref (by rw [admin]; exact plain.symm)).trans hj
    rw [job_modJob_self kept, ← outcome]
    rfl

theorem drainBegun_settle {s u : State} {f : Nat} {j : Job} {x : JobQueue} (old : State) (h : DrainBegun f j x s u) :
    DrainBegun f j x s (settle old u) := by
  obtain ⟨jq, job, life, cqs, jqs⟩ := h
  have quiet := quiet_settle old u
  refine ⟨?_, ?_, quiet.life.trans life, fun k c => (quiet.cq? k c).trans (cqs k c),
    fun k p ne => (quiet.jq? k p).trans (jqs k p ne)⟩
  · rw [quiet.jq?]
    exact jq
  · unfold State.job?
    rw [quiet.jobs]
    exact job

/-- Settles O14. -/
theorem queueCommands : Obligations.QueueCommands := by
  unfold Obligations.QueueCommands
  refine ⟨fun s f j hj rows => createJq_creates hj rows, fun s f j hj rows => createCq_creates hj rows,
    fun s f j hj rows => destroyCq_removes hj rows,
    fun s f j x hj phase rows hx done empty idle => destroyJq_empty hj phase rows hx done empty idle,
    fun s f j x hj phase rows hx done empty idle => resetJq_empty hj phase rows hx done empty idle,
    fun s f j x hj named phase rows hx more => ?_, fun s f j x hj named phase rows hx more => ?_⟩
  · obtain ⟨-, -, admin, outcome⟩ := admin_spec hj
    obtain ⟨u, first, begun⟩ := drainCommand_begins 1 true phase admin named outcome rows hx more
    exact ⟨_, runAdminSteps_of_wait hj first, drainBegun_settle s begun⟩
  · obtain ⟨-, -, admin, outcome⟩ := admin_spec hj
    obtain ⟨u, first, begun⟩ := drainCommand_begins 2 false phase admin named outcome rows hx more
    exact ⟨_, runAdminSteps_of_wait hj first, drainBegun_settle s begun⟩

end Sys2Proof.Safety
end

section
/-!
PROOFS. The registers of the admin queue pair (chapter 4, R138): a write of FN_AQ_CFG creates, refuses or removes it.
-/

-- In turn: a proof that waits for others beside it takes a thread and its stack from the memory that the check allows.
set_option Elab.async false

namespace Sys2Proof.Safety

open Sys2Proof.Machine

theorem jq_setFn_ne {f k : Nat} (g : Fn) (p : Nat) (s : State) (ne : k ≠ f) : (setFn f g s).jq? k p = s.jq? k p := by
  unfold State.jq?
  rw [fn_setFn_ne _ _ ne]

/-- A write of FN_AQ_CFG with ENABLE = 1 that finds the pair disabled (R138). -/
theorem exec_adminQueueEnable {s : State} {f : Nat} {v : Word} (reach : aqReach s f = true) (enable : v.getLsbD 31 = true)
    (idle : (s.fn f).aqBusy = false) (off : (s.fn f).aqOn = false) :
    exec (.adminQueueEnable f v) s = .next (if aqRefused (aqFields v (s.fn f)) then
      setFn f { aqFields v (s.fn f) with aqErr := true } s else setFn f (aqCreate (aqFields v (s.fn f))) s) := by
  show execAdminQueueEnable f v s = _
  unfold execAdminQueueEnable
  dsimp only
  rw [if_neg (by simp [reach, enable]), if_neg (by simp [idle]), if_neg (by simp [off])]

theorem adminQueueEnable_refused {s : State} {f : Nat} {v : Word} (off : (s.fn f).aqOn = false)
    (h : exec (.adminQueueEnable f v) s = .next (setFn f { aqFields v (s.fn f) with aqErr := true } s)) :
    Answers (.adminQueueEnable f v) s fun t => (t.fn f).aqErr = true ∧ (t.fn f).aqOn = false ∧
      (∀ k p, t.jq? k p = s.jq? k p) ∧ (∀ k c, t.cq? k c = s.cq? k c) ∧ t.jobs = s.jobs ∧ t.mem = s.mem := by
  refine ⟨_, h, ?_, ?_, jq_setFn_of_jqs rfl, cq_setFn_of_cqs rfl, rfl, rfl⟩
  · rw [fn_setFn_self]
  · rw [fn_setFn_self]
    exact off

theorem adminQueueEnable_created {s : State} {f : Nat} {v : Word}
    (h : exec (.adminQueueEnable f v) s = .next (setFn f (aqCreate (aqFields v (s.fn f))) s)) :
    Answers (.adminQueueEnable f v) s fun t => (t.fn f).aqOn = true ∧
      (∃ x, t.jq? f 0 = some x ∧ x.pi = 0 ∧ x.ci = 0 ∧ x.ring = (s.fn f).aqJq ∧ x.log2 = bitsOf v.toNat 4 0) ∧
      (∃ c, t.cq? f 0 = some c ∧ c.pi = 0 ∧ c.ci = 0 ∧ c.ring = (s.fn f).aqCq ∧ c.log2 = bitsOf v.toNat 12 8) ∧
      (∀ k p, k ≠ f ∨ p ≠ 0 → t.jq? k p = s.jq? k p) ∧ t.jobs = s.jobs ∧ t.mem = s.mem := by
  refine ⟨_, h, ?_, ?_, ?_, fun k p ne => ?_, rfl, rfl⟩
  · rw [fn_setFn_self]
    rfl
  · unfold State.jq?
    rw [fn_setFn_self]
    exact ⟨_, FMap.find?_set_self _ _ _, rfl, rfl, rfl, rfl⟩
  · unfold State.cq?
    rw [fn_setFn_self]
    exact ⟨_, FMap.find?_set_self _ _ _, rfl, rfl, rfl, rfl⟩
  · by_cases e : k = f
    · subst e
      unfold State.jq?
      rw [fn_setFn_self]
      exact FMap.find?_set_ne _ _ (by omega)
    · exact jq_setFn_ne _ _ _ e

/-! ## Disabling an empty pair -/

theorem run_of_pageOpen {s : State} {f : Nat} (h : s.pageOpen f = true) : (s.fn f).run ≠ .resetting := by
  intro e
  simp [State.pageOpen, e] at h

theorem exec_adminQueueDisable {s : State} {f : Nat} {v : Word} (page : s.pageOpen f = true) (disable : v.getLsbD 31 = false)
    (idle : (s.fn f).aqBusy = false) (on : (s.fn f).aqOn = true) :
    exec (.adminQueueDisable f v) s =
      settledOn f s (setFn f { s.fn f with aqBusy := true, aqErr := (s.fn f).aqErr && !v.getLsbD 30 } s) := by
  show execAdminQueueDisable f v s = _
  unfold execAdminQueueDisable
  dsimp only
  rw [if_neg (by rw [page, disable]; simp), if_neg (by simp [idle]), if_pos on]

/-- The drain of queue 0 begins unless it has begun, and with no job of it that marks the queue alone. -/
theorem drainBegin_zero {s : State} {f : Nat} {x : JobQueue} (hx : s.jq? f 0 = some x)
    (noJob : ∀ k ∈ s.jobs, k.ref.fn = f → k.ref.jq ≠ 0) :
    ∃ y, drainBegin f [0] s = setJq f 0 y s ∧ y.ci = x.ci ∧ y.pi = x.pi ∧ y.cq = x.cq ∨ drainBegin f [0] s = s := by
  unfold drainBegin
  rw [List.foldl_cons, List.foldl_nil]
  split
  · exact ⟨x, .inr rfl⟩
  · exact ⟨drainingJq x, .inl ⟨drainStart_idle hx noJob, rfl, rfl, rfl⟩⟩

/-- What is left of an empty admin pair once its disable has run. -/
def PairGone (f : Nat) (t : State) : Prop :=
  (t.fn f).aqOn = false ∧ (t.fn f).aqBusy = false ∧ t.jq? f 0 = none ∧ t.cq? f 0 = none

theorem pairGone_disabled (f : Nat) (s : State) (gone : s.jq? f 0 = none) :
    PairGone f (modFn f (fun g => { g with aqOn := false, aqBusy := false, cqs := g.cqs.erase 0 }) s) := by
  refine ⟨?_, ?_, ?_, ?_⟩
  · rw [fn_modFn_self]
  · rw [fn_modFn_self]
  · exact (jq_modFn_of_jqs _ _ _ _).trans gone
  · unfold State.cq?
    rw [fn_modFn_self]
    exact FMap.find?_erase_self _ _

theorem drainList_one {s : State} {f q : Nat} {x : JobQueue} (hx : s.jq? f q = some x) (done : x.ci = x.pi) :
    drainList f [q] s = (true, modFn f (fun g => { g with jqs := g.jqs.erase q }) (writeMirror f x.cq s)) := by
  unfold drainList
  dsimp only
  rw [drainRun_remove_empty hx done]
  rfl

/-- The disable of a pair whose job queue is empty and binds no other queue ends at once. -/
theorem pairGone_disableRun {s : State} {f : Nat} {x : JobQueue} (only : (s.fn f).jqs = [(0, x)]) (done : x.ci = x.pi)
    (noJob : ∀ k ∈ s.jobs, k.ref.fn = f → k.ref.jq ≠ 0) : PairGone f (disableRun f s) := by
  have hx : s.jq? f 0 = some x := by unfold State.jq?; rw [only]; rfl
  have none : boundQueues (s.fn f) = [] := by unfold boundQueues; rw [only]; simp
  have emptied : ∃ u, drainList f [0] (drainBegin f [0] s) = (true, u) ∧ u.jq? f 0 = Option.none := by
    obtain ⟨y, ⟨begun, ci, pi, -⟩ | begun⟩ := drainBegin_zero hx noJob
    · rw [begun, drainList_one (jq_setJq_self _ _ _ _) (by rw [ci, pi, done])]
      exact ⟨_, rfl, jq_erased _ _ _⟩
    · rw [begun, drainList_one hx done]
      exact ⟨_, rfl, jq_erased _ _ _⟩
  obtain ⟨u, ends, gone⟩ := emptied
  unfold disableRun
  rw [none]
  change PairGone f (let a := drainList f [0] (drainBegin f [0] s)
    if a.1 then modFn f (fun g => { g with aqOn := false, aqBusy := false, cqs := g.cqs.erase 0 }) a.2 else a.2)
  rw [ends]
  exact pairGone_disabled f u gone

theorem PairGone.settle {f : Nat} {t : State} (old : State) (h : PairGone f t) : PairGone f (settle old t) := by
  obtain ⟨on, busy, jq, cq⟩ := h
  have quiet := quiet_settle old t
  exact ⟨(congrArg (·.aqOn) (quiet.2 f)).trans on, (congrArg (·.aqBusy) (quiet.2 f)).trans busy, (quiet.jq? _ _).trans jq,
    (quiet.cq? _ _).trans cq⟩

theorem adminQueueDisable_ends {s : State} {f : Nat} {v : Word} {x : JobQueue} (page : s.pageOpen f = true)
    (disable : v.getLsbD 31 = false) (idle : (s.fn f).aqBusy = false) (on : (s.fn f).aqOn = true)
    (only : (s.fn f).jqs = [(0, x)]) (done : x.ci = x.pi) (noJob : ∀ k ∈ s.jobs, k.ref.fn = f → k.ref.jq ≠ 0) :
    Answers (.adminQueueDisable f v) s (PairGone f) := by
  refine ⟨_, exec_adminQueueDisable page disable idle on, PairGone.settle _ ?_⟩
  unfold disableStep
  rw [fn_setFn_self, if_pos (by simpa using run_of_pageOpen page)]
  exact pairGone_disableRun (by rw [fn_setFn_self]; exact only) done noJob

/-- Settles O15. -/
theorem adminQueueEnableAndDisable : Obligations.AdminQueueEnableAndDisable := by
  unfold Obligations.AdminQueueEnableAndDisable
  refine ⟨fun s f v reach enable idle off => ?_,
    fun s f v x page disable idle on only done _ noJob => adminQueueDisable_ends page disable idle on only done noJob⟩
  have h := exec_adminQueueEnable reach enable idle off
  split
  · next refused => exact adminQueueEnable_refused off (h.trans (congrArg _ (if_pos refused)))
  · next refused => exact adminQueueEnable_created (h.trans (congrArg _ (if_neg refused)))

end Sys2Proof.Safety
end

section
/-!
PROOFS. Completions and timeouts of DMA reads (chapter 4, R25, R146, R150, R158).
-/

-- In turn: a proof that waits for others beside it takes a thread and its stack from the memory that the check allows.
set_option Elab.async false

namespace Sys2Proof.Safety

open Sys2Proof.Machine

/-! ## AER status that has been set stays (R158) -/

/-- No function's uncorrectable AER status bit clears, and no disable of an admin pair begins or ends. -/
def Grows (s t : State) : Prop :=
  ∀ f, (t.fn f).aqBusy = (s.fn f).aqBusy ∧ ∀ b ∈ (s.fn f).cfg.uncor, b ∈ (t.fn f).cfg.uncor

theorem Grows.refl (s : State) : Grows s s := fun _ => ⟨rfl, fun _ h => h⟩

theorem Grows.trans {s t u : State} (a : Grows s t) (b : Grows t u) : Grows s u := fun f =>
  ⟨(b f).1.trans (a f).1, fun n h => (b f).2 n ((a f).2 n h)⟩

theorem Grows.of_fns {s t : State} (h : t.fns = s.fns := by exact rfl) : Grows s t := fun f => by
  unfold State.fn
  rw [h]
  exact ⟨rfl, fun _ h => h⟩

/-- A change of one function that keeps its AER status and the disable of its admin pair. -/
theorem Grows.setFn {f : Nat} {g : Fn} (s : State) (busy : g.aqBusy = (s.fn f).aqBusy := by exact rfl)
    (uncor : ∀ b ∈ (s.fn f).cfg.uncor, b ∈ g.cfg.uncor := by exact fun _ h => h) : Grows s (setFn f g s) := fun k => by
  rw [fn_setFn]
  split
  · next e => subst e; exact ⟨busy, uncor⟩
  · exact ⟨rfl, fun _ h => h⟩

theorem Grows.foldl {α : Type} {h : State → α → State} (hg : ∀ s a, Grows s (h s a)) (l : List α) (s : State) :
    Grows s (l.foldl h s) := by
  induction l generalizing s with
  | nil => exact .refl s
  | cons a l ih => exact (hg s a).trans (ih _)

theorem Grows.of_written {s t : State} (w : Written s t) : Grows s t := fun f =>
  ⟨congrArg (fun g : _ => g.aqBusy) (w.2 f), fun b h => by
    rw [show (t.fn f).cfg.uncor = (s.fn f).cfg.uncor from congrArg (fun g : _ => g.cfg.uncor) (w.2 f)]
    exact h⟩

theorem grows_emit (m : OutMsg) (s : State) : Grows s (emit m s) := .of_fns

theorem grows_evalVec (f v : Nat) (s : State) : Grows s (evalVec f v s) := by
  unfold evalVec
  dsimp only
  split
  · split
    · exact (Grows.setFn s).trans (grows_emit _ _)
    · exact .setFn s
  · exact .refl s

theorem grows_vecEvent (f v : Nat) (b : Bool) (s : State) : Grows s (vecEvent f v b s) := by
  unfold vecEvent
  dsimp only
  split
  · exact (Grows.setFn s).trans (grows_evalVec _ _ _)
  · exact .refl s

theorem grows_raiseSource (n : Nat) (s : State) : Grows s (raiseSource n s) := by
  unfold raiseSource signalDevice
  dsimp only
  split
  · exact .refl s
  · split
    · split
      · exact .trans .of_fns (grows_vecEvent _ _ _ _)
      · exact .of_fns
    · exact .of_fns

theorem grows_setErr (c n : Nat) (s : State) : Grows s (setErr c n s) := by
  unfold setErr
  dsimp only
  split
  · exact .refl s
  · split
    · exact .trans .of_fns (grows_raiseSource _ _)
    · split
      · exact .trans .of_fns (grows_raiseSource _ _)
      · exact .of_fns

theorem grows_setEvent (f n : Nat) (s : State) : Grows s (setEvent f n s) := by
  unfold setEvent
  dsimp only
  split
  · exact .refl s
  · split
    · have signalled (t : State) (h : Grows s t) : Grows s (if f = 0 then raiseSource 204 t else t) := by
        split
        · exact h.trans (grows_raiseSource _ _)
        · exact h
      apply signalled
      split
      · exact (Grows.setFn s).trans (grows_vecEvent _ _ _ _)
      · exact .setFn s
    · exact .setFn s

theorem grows_setQerr (f q : Nat) (s : State) : Grows s (setQerr f q s) := by
  have marked : Grows s (markQerr f q s) := by
    unfold markQerr withQerr
    split <;> exact .setFn s
  rcases setQerr_eq f q s with e | e <;> rw [e]
  · exact marked
  · exact marked.trans (grows_setEvent _ _ _)

/-- An uncorrectable error adds its status bit to its function, and touches no other function. -/
theorem fn_aerUncor (f b : Nat) (s : State) : ∃ c : ConfigSpace,
    c.uncor = (if b ∈ (s.fn f).cfg.uncor then (s.fn f).cfg.uncor else b :: (s.fn f).cfg.uncor) ∧
    stillFn { s.fn f with cfg := c } = stillFn (s.fn f) ∧
    ∀ k, (aerUncor f b s).fn k = if k = f then { s.fn f with cfg := c } else s.fn k := by
  obtain ⟨h, n, e, cfg⟩ : ∃ (h : Fn → Fn) (n : Nat), aerUncor f b s = { modFn f h s with free := n } ∧
      ∀ g, ∃ c : ConfigSpace, h g = { g with cfg := c } ∧
        c.uncor = (if b ∈ g.cfg.uncor then g.cfg.uncor else b :: g.cfg.uncor) ∧ stillFn { g with cfg := c } = stillFn g :=
    ⟨_, _, rfl, fun g => ⟨_, rfl, rfl, by unfold stillFn; dsimp only; split <;> rfl⟩⟩
  obtain ⟨c, hc, uncor, quiet⟩ := cfg (s.fn f)
  refine ⟨c, uncor, quiet, fun k => ?_⟩
  rw [e, ← hc]
  exact fn_modFn s f k h

theorem grows_aerUncor (f b : Nat) (s : State) : Grows s (aerUncor f b s) := fun k => by
  obtain ⟨c, uncor, -, fn⟩ := fn_aerUncor f b s
  rw [fn k]
  split
  · next e =>
      subst e
      refine ⟨rfl, fun n h => ?_⟩
      rw [uncor]
      split
      · exact h
      · exact .tail _ h
  · exact ⟨rfl, fun _ h => h⟩

theorem mem_uncor_aerUncor (f b : Nat) (s : State) : b ∈ ((aerUncor f b s).fn f).cfg.uncor := by
  obtain ⟨c, uncor, -, fn⟩ := fn_aerUncor f b s
  rw [fn f, if_pos rfl, uncor]
  split
  · assumption
  · exact .head _

theorem grows_aerCor (f b : Nat) (s : State) : Grows s (aerCor f b s) := .setFn s

theorem grows_record (code level p0 p1 p2 p3 : Nat) (nested : Bool) (s : State) :
    Grows s (record code level p0 p1 p2 p3 nested s) := by
  have accepted (e : EventRec) : (acceptRecord e s).fns = s.fns := by
    unfold acceptRecord
    dsimp only
    split
    · rfl
    · split
      · exact rollWindow_fns s
      · split
        · exact rollWindow_fns s
        · split <;> exact rollWindow_fns s
  have reported (t : State) : Grows t (aerOfLevel level t) := by
    unfold aerOfLevel
    split
    · exact grows_aerUncor _ _ _
    · split
      · exact grows_aerCor _ _ _
      · exact .refl _
  exact (Grows.of_fns (accepted _)).trans (reported _)

theorem grows_settle (old s : State) : Grows s (settle old s) := by
  have each (n : Nat) (t : State) : Grows t (eachFn (fun f => setEvent f n) t) :=
    .foldl (fun s f => grows_setEvent f n s) _ t
  unfold settle noteConditions
  dsimp only
  split
  · exact .refl s
  · have locked : Grows s (if old.locked = s.locked then s else eachFn (fun f => setEvent f 1) s) := by
      split
      · exact .refl s
      · exact each 1 s
    generalize (if old.locked = s.locked then s else eachFn (fun f => setEvent f 1) s) = s1 at locked
    have noPair : Grows s (if old.noPair = s1.noPair then s1 else eachFn (fun f => setEvent f 2) s1) := by
      split
      · exact locked
      · exact locked.trans (each 2 s1)
    generalize (if old.noPair = s1.noPair then s1 else eachFn (fun f => setEvent f 2) s1) = s2 at noPair
    split
    · exact noPair
    · exact noPair.trans (.trans .of_fns (grows_record _ _ _ _ _ _ _ _))

theorem grows_setCq (f c : Nat) (x : CompQueue) (s : State) : Grows s (setCq f c x s) := .setFn s

theorem grows_setJq (f q : Nat) (x : JobQueue) (s : State) : Grows s (setJq f q x s) := .setFn s

theorem grows_writeMirror (f c : Nat) (s : State) : Grows s (writeMirror f c s) := by
  unfold writeMirror
  split
  · exact .refl s
  · split
    · exact .refl s
    · dsimp only
      split
      · exact (Grows.of_written (written_hostWrite _ _ _ s)).trans ((grows_setCq _ _ _ _).trans (grows_vecEvent _ _ _ _))
      · exact (Grows.of_written (written_hostWrite _ _ _ s)).trans (grows_setCq _ _ _ _)

theorem grows_issueRecord (f c : Nat) (b : Bytes) (reserved irqNow : Bool) (s : State) :
    Grows s (issueRecord f c b reserved irqNow s) := by
  unfold issueRecord
  split
  · exact .refl s
  · dsimp only
    split
    · exact (Grows.of_written (written_hostWrite _ _ _ s)).trans ((grows_setCq _ _ _ _).trans (grows_writeMirror _ _ _))
    · exact (Grows.of_written (written_hostWrite _ _ _ s)).trans (grows_setCq _ _ _ _)

theorem grows_finishEntry (f q : Nat) (i : Word) (s : State) : Grows s (finishEntry f q i s) := by
  unfold finishEntry
  split
  · exact .refl s
  · exact grows_setJq _ _ _ _

theorem grows_enterD3 (f : Nat) (s : State) : Grows s (enterD3 f s) := by
  unfold enterD3
  split
  · exact (Grows.foldl (fun s c => grows_writeMirror f c s) _ s).trans (.setFn _)
  · exact .refl s

theorem grows_leavePair (r : JobRef) (s : State) : Grows s (leavePair r s) := by
  have role (p : Nat) (s : State) : Grows s (returnRole p s) := by
    unfold returnRole
    dsimp only
    split
    · split
      · exact .trans .of_fns ((grows_record _ _ _ _ _ _ _ _).trans (grows_setErr _ _ _))
      · exact .refl s
    · exact .refl s
  unfold leavePair
  split
  · exact .refl s
  · exact .trans .of_fns (role _ _)

theorem grows_dropOne (j : Job) (s : State) : Grows s (dropOne j s) := by
  unfold dropOne
  dsimp only
  have released (t : State) (h : t.fns = s.fns) : Grows s (leavePk j.ref (releaseHold j (leavePair j.ref t))) :=
    (Grows.of_fns h).trans ((grows_leavePair _ _).trans ((Grows.of_fns (fns_releaseHold _ _)).trans (.of_fns (fns_leavePk _ _))))
  split
  · refine .trans ?_ (grows_enterD3 _ _)
    exact released _ rfl
  · refine .trans (.trans ?_ (.of_fns (fns_freeRetiring _ _ _))) (grows_enterD3 _ _)
    exact released _ rfl

theorem grows_squash (j : Job) (s : State) : Grows s (squash j s) := by
  unfold squash
  split
  · refine .trans (t := disturb j s) ?_ ?_
    · unfold disturb
      split
      · exact .foldl (fun s w => (Grows.of_written (written_hostWrite j.ref.fn w.addr
          (disturbed s.free (s.hostRead j.ref.fn w.addr w.len) w) s)).trans .of_fns) _ s
      · exact .refl s
    · unfold scrub
      split
      · exact (Grows.of_written (written_hostWrite _ _ _ _)).trans .of_fns
      · exact .refl _
  · exact .refl s

theorem grows_closeCall (r : JobRef) (s : State) : Grows s (closeCall r s) := by
  unfold closeCall
  split
  · exact .refl s
  · dsimp only
    split
    · exact .trans .of_fns ((grows_squash _ _).trans (grows_dropOne _ _))
    · exact .of_fns

theorem grows_returnRecord (j : Job) (d : Done) (s : State) : Grows s (returnRecord j d s) := by
  unfold returnRecord
  split
  · exact .refl s
  · exact .of_fns

theorem grows_completeJob (j : Job) (d : Done) (s : State) : Grows s (completeJob j d s) := by
  have dropped (s : State) : Grows s (dropJob j s) := (grows_dropOne _ _).trans (grows_closeCall _ _)
  unfold completeJob
  split
  · exact (grows_returnRecord _ _ _).trans (dropped _)
  · exact (grows_issueRecord _ _ _ _ _ _).trans ((grows_finishEntry _ _ _ _).trans (dropped _))

theorem grows_aerRead (f b : Nat) (s : State) : Grows s (aerRead f b s) := by
  unfold aerRead
  dsimp only
  split
  · exact grows_aerUncor _ _ _
  · exact (grows_aerUncor _ _ _).trans (grows_aerCor _ _ _)

theorem mem_uncor_aerRead (f b : Nat) (s : State) : b ∈ ((aerRead f b s).fn f).cfg.uncor := by
  unfold aerRead
  dsimp only
  split
  · exact mem_uncor_aerUncor f b s
  · exact (grows_aerCor f 13 _ f).2 b (mem_uncor_aerUncor f b s)

/-! ## A read of a job that ends -/

/-- A disable of the admin pair that does not wait does not go on. -/
theorem settledOn_of_not_busy {f : Nat} {u : State} (old : State) (busy : (u.fn f).aqBusy = false) :
    settledOn f old u = settled old u := by
  unfold settledOn
  rw [disableStep_of_not_busy busy]

theorem Grows.busy {s t : State} {f : Nat} (g : Grows s t) (h : (s.fn f).aqBusy = false) : (t.fn f).aqBusy = false :=
  (g f).1.trans h

section Read

variable {s : State} {r : JobRef} {j : Job} (hj : s.job? r = some j) (reads : j.reads = .outstanding) (outcome : j.outcome = none)

include hj reads outcome

theorem exec_dmaReadCompletion (st : ReadStatus) :
    exec (.dmaReadCompletion (.job r) st) s = settledOn r.fn s (readEnds j (readFault st) s) := by
  show execDmaReadCompletion (.job r) st s = _
  unfold execDmaReadCompletion
  dsimp only
  rw [hj]
  exact if_pos ⟨reads, outcome⟩

theorem exec_completionTimeout (enabled : ((s.fn 0).cfg.regs.getD 0x98 0).testBit 4 = false) :
    exec (.completionTimeout (.job r)) s = settledOn r.fn s (readEnds j (some (1, 14)) s) := by
  show execCompletionTimeout (.job r) s = _
  unfold execCompletionTimeout
  rw [enabled, if_neg Bool.false_ne_true]
  dsimp only
  rw [hj]
  exact if_pos ⟨reads, outcome⟩

variable (live : j.ended = false) (busy : (s.fn r.fn).aqBusy = false)

include live busy

/-- What was read is in the staging of both sides, and the job goes on (R25). -/
theorem read_arrives : Answers (.dmaReadCompletion (.job r) .ok) s fun t => Quiet (readsArrive j s) t ∧
    t.job? r = some { j with reads := .arrived, inA := landed j s, inB := landed j s } ∧
    (∀ k, k ≠ r → t.job? k = s.job? k) ∧ t.mem = s.mem := by
  have ends : readEnds j (readFault .ok) s = readsArrive j s := by
    unfold readEnds
    rw [live]
    rfl
  have quiet := quiet_settle s (readsArrive j s)
  refine ⟨_, (exec_dmaReadCompletion hj reads outcome .ok).trans
    (by rw [ends]; exact settledOn_of_not_busy s busy), quiet, ?_, fun k ne => ?_, quiet.mem⟩
  · unfold State.job?
    rw [quiet.jobs]
    obtain rfl := ref_of_job hj
    exact job_modJob_self hj
  · unfold State.job?
    rw [quiet.jobs]
    obtain rfl := ref_of_job hj
    exact job_modJob_ne ne

end Read

/-- A failed read is reported in its function's AER and in an error bit before it ends its job (R158). -/
def readReported (j : Job) (aer : Nat) (s : State) : State := setErr (readBlock j) 3 (aerRead j.ref.fn aer s)

theorem quietFree_aerUncor (f b : Nat) (s : State) : QuietFree s (aerUncor f b s) := by
  obtain ⟨c, -, quiet, fn⟩ := fn_aerUncor f b s
  refine ⟨rfl, fun k => ?_⟩
  show stillFn ((aerUncor f b s).fn k) = _
  rw [fn k]
  split
  · next e => subst e; exact quiet
  · rfl

theorem quietFree_aerRead (f b : Nat) (s : State) : QuietFree s (aerRead f b s) := by
  have cor (t : State) : QuietFree t (aerCor f 13 t) := .of_quiet (.of_fn f _ rfl)
  unfold aerRead
  dsimp only
  split
  · exact quietFree_aerUncor _ _ _
  · exact (quietFree_aerUncor _ _ _).trans (cor _)

theorem quietFree_readReported (j : Job) (aer : Nat) (s : State) : QuietFree s (readReported j aer s) :=
  (quietFree_aerRead _ _ _).trans (.of_quiet (quiet_setErr _ _ _))

theorem grows_readReported (j : Job) (aer : Nat) (s : State) : Grows s (readReported j aer s) :=
  (grows_aerRead _ _ _).trans (grows_setErr _ _ _)

theorem mem_uncor_readReported (j : Job) (aer : Nat) (s : State) : aer ∈ ((readReported j aer s).fn j.ref.fn).cfg.uncor :=
  (grows_setErr _ _ _ _).2 _ (mem_uncor_aerRead _ _ _)

theorem readEnds_failed {j : Job} (detail aer : Nat) (s : State) (live : j.ended = false) :
    readEnds j (some (detail, aer)) s =
      if j.ref.jq = 0 then decideJob j.ref { status := Status.dmaError, detail } (readReported j aer s)
      else endJob j { status := Status.dmaError, detail } false (readReported j aer s) := by
  unfold readEnds failRead
  rw [live]
  rfl

/-- A failed read of an admin command ends it with DMA_ERROR, its function's AER status set (R150, R158). -/
theorem admin_read_fails {i : Instr} {s : State} {r : JobRef} {j : Job} {d aer : Nat} (hj : s.job? r = some j) (admin : r.jq = 0)
    (live : j.ended = false) (busy : (s.fn r.fn).aqBusy = false)
    (step : exec i s = settledOn r.fn s (readEnds j (some (d, aer)) s)) :
    Answers i s fun t =>
      t.job? r = some { j with outcome := some { status := 0x23, detail := d } } ∧ aer ∈ (t.fn r.fn).cfg.uncor ∧
      t.mem = s.mem := by
  obtain rfl := ref_of_job hj
  rw [readEnds_failed d aer s live, if_pos admin, settledOn_of_not_busy (u := decideJob _ _ _) _ ((grows_readReported j aer s).busy busy)] at step
  have reported := quietFree_readReported j aer s
  refine ⟨_, step, ?_, ?_, (quiet_settle _ _).mem.trans reported.mem⟩
  · unfold State.job?
    rw [(quiet_settle _ _).jobs]
    refine (job_decideJob_self _ _ _).trans ?_
    rw [show (readReported j aer s).job? j.ref = s.job? j.ref by unfold State.job?; rw [show (readReported j aer s).jobs = s.jobs from reported.jobs], hj]
    rfl
  · exact (grows_settle _ _ _).2 _ (mem_uncor_readReported j aer s)

theorem onCore_congr {s t : State} (h : t.pk = s.pk) (r : JobRef) : onCore r t = onCore r s := by
  unfold onCore
  rw [h]

/-- A job that nothing else holds ends with its record (R134). -/
theorem endJob_free {j : Job} {d : Done} {s : State} (serving : (s.fn j.ref.fn).run ≠ .resetting) (live : j.ended = false)
    (outcome : j.outcome = none) (claim : j.claim = false) (core : onCore j.ref s = false) (waits : awaits j d = false) :
    endJob j d false s = writeMirror j.ref.fn (s.cqOf j.ref) (completeJob j (j.stop.getD d) (squash j s)) := by
  unfold endJob
  rw [if_neg serving, if_neg (by simp [Job.taken, live, outcome]), if_neg (by simp [claim]), if_neg (by simp [core]),
    if_neg (by simp [waits])]

theorem grows_endFree (j : Job) (d : Done) (f c : Nat) (s : State) :
    Grows s (writeMirror f c (completeJob j d (squash j s))) :=
  (grows_squash j s).trans ((grows_completeJob j d _).trans (grows_writeMirror f c _))

/-- A job that nothing else holds, and whose read failed, ends with its record (R150). -/
theorem job_read_fails {s : State} {r : JobRef} {j : Job} {st : ReadStatus} {d aer : Nat} (hj : s.job? r = some j)
    (plain : r.jq ≠ 0) (reads : j.reads = .outstanding) (outcome : j.outcome = none) (live : j.ended = false)
    (fault : readFault st = some (d, aer)) (busy : (s.fn r.fn).aqBusy = false) (claim : j.claim = false)
    (serving : (s.fn r.fn).run ≠ .resetting) (core : onCore r s = false) :
    Answers (.dmaReadCompletion (.job r) st) s fun t => t.job? r = none ∧ aer ∈ (t.fn r.fn).cfg.uncor := by
  obtain rfl := ref_of_job hj
  have step := exec_dmaReadCompletion hj reads outcome st
  have reported := quietFree_readReported j aer s
  have run : ((readReported j aer s).fn j.ref.fn).run = (s.fn j.ref.fn).run := reported.run _
  rw [fault, readEnds_failed d aer s live, if_neg plain, endJob_free (by rw [run]; exact serving) live outcome claim
    ((onCore_congr (t := readReported j aer s) reported.pk _).trans core) (by simp [awaits])] at step
  rw [settledOn_of_not_busy _ (((grows_readReported j aer s).trans (grows_endFree j _ _ _ _)).busy busy)] at step
  refine ⟨_, step, ?_, ?_⟩
  · unfold State.job?
    rw [(quiet_settle _ _).jobs, jobs_writeMirror]
    exact job_completeJob_self _ _ _
  · exact (grows_settle _ _ _).2 _ ((grows_endFree j _ _ _ _ _).2 _ (mem_uncor_readReported j aer s))

/-! ## A read of ring slots that fails (R146) -/

theorem failRing_active {s : State} {f q aer : Nat} {x : JobQueue} (hx : s.jq? f q = some x) (active : x.st = .active)
    (more : x.next ≠ x.pi) :
    failRing f q aer s = setErr Block.qe 4 (record 0x0202 2 f q x.next.toNat
      (s := setQerr f q (setJq f q { x with st := .failed } (setErr Block.qe 3 (aerRead f aer s))))) := by
  unfold failRing
  rw [hx]
  dsimp only
  rw [if_neg (by simp [active]), if_pos ⟨active, more⟩]

theorem QerrSet.of_quiet {q : Nat} {s t : State} {f : Nat} (h : QerrSet q (s.fn f)) (quiet : Quiet s t) : QerrSet q (t.fn f) := by
  unfold QerrSet at h ⊢
  rw [quiet.qerr0, quiet.qerr1]
  exact h

theorem ring_read_fails {s : State} {f q : Nat} {x : JobQueue} {st : ReadStatus} {d aer : Nat} (hx : s.jq? f q = some x)
    (active : x.st = .active) (more : x.next ≠ x.pi) (number : q < 64) (fault : readFault st = some (d, aer))
    (busy : (s.fn f).aqBusy = false) :
    Answers (.dmaReadCompletion (.ring f q) st) s fun t => t.jq? f q = some { x with st := .failed } ∧
      aer ∈ (t.fn f).cfg.uncor ∧ (if q < 32 then (t.fn f).qerr0.getLsbD q = true else (t.fn f).qerr1.getLsbD (q - 32) = true) ∧
      t.jobs = s.jobs ∧ t.mem = s.mem := by
  have step : exec (.dmaReadCompletion (.ring f q) st) s = settledOn f s (failRing f q aer s) := by
    show execDmaReadCompletion (.ring f q) st s = _
    unfold execDmaReadCompletion
    dsimp only
    rw [fault]
  rw [failRing_active hx active more] at step
  have reported : QuietFree s (setErr Block.qe 3 (aerRead f aer s)) :=
    (quietFree_aerRead f aer s).trans (.of_quiet (quiet_setErr _ _ _))
  have aerSet : aer ∈ ((setErr Block.qe 3 (aerRead f aer s)).fn f).cfg.uncor :=
    (grows_setErr _ _ _ _).2 _ (mem_uncor_aerRead f aer s)
  have idle : ((setErr Block.qe 3 (aerRead f aer s)).fn f).aqBusy = false :=
    ((grows_aerRead f aer s).trans (grows_setErr _ _ _)).busy busy
  generalize setErr Block.qe 3 (aerRead f aer s) = u at reported aerSet idle step
  have failed : Grows u _ := (grows_setJq f q { x with st := .failed } u).trans ((grows_setQerr f q _).trans
    ((grows_record 0x0202 2 f q x.next.toNat 0 false _).trans (grows_setErr Block.qe 4 _)))
  have marked : Quiet _ _ := (quiet_setQerr f q (setJq f q { x with st := .failed } u)).trans
    ((quiet_record 0x0202 2 f q x.next.toNat 0 false _).trans ((quiet_setErr Block.qe 4 _).trans (quiet_settle s _)))
  rw [settledOn_of_not_busy _ (failed.busy idle)] at step
  refine ⟨_, step, ?_, (grows_settle _ _ _).2 _ ((failed f).2 _ aerSet), ?_, marked.jobs.trans reported.jobs,
    marked.mem.trans reported.mem⟩
  · rw [marked.jq?, jq_markQerr]
    exact jq_setJq_self _ _ _ _
  · refine QerrSet.of_quiet ?_ marked
    unfold markQerr
    rw [fn_setFn_self]
    exact qerrSet_withQerr _ number

/-- Settles O16. -/
theorem readsArriveOrFail : Obligations.ReadsArriveOrFail := by
  unfold Obligations.ReadsArriveOrFail
  refine ⟨fun s r j hj reads outcome live busy => read_arrives hj reads outcome live busy,
    fun s r j st d aer hj reads outcome live fault busy => ⟨fun admin => ?_, fun plain claim _ serving core =>
      job_read_fails hj plain reads outcome live fault busy claim serving core⟩,
    fun s r j hj reads outcome live busy enabled admin =>
      admin_read_fails hj admin live busy (exec_completionTimeout hj reads outcome enabled),
    fun s f q x st d aer hx active more number fault busy => ring_read_fails hx active more number fault busy⟩
  exact admin_read_fails hj admin live busy (fault ▸ exec_dmaReadCompletion hj reads outcome st)

end Sys2Proof.Safety
end

section
/-!
PROOFS. The block cipher and its modes (chapter 2, R33 to R51, R63): blocks stay 16 bytes long, and each stream mode undoes
itself.
-/

-- In turn: a proof that waits for others beside it takes a thread and its stack from the memory that the check allows.
set_option Elab.async false

namespace Sys2Proof.Safety

open Sys2Proof.Machine

/-! ## Bytes -/

@[simp] theorem length_xor (a b : Bytes) : (Bytes.xor a b).length = min a.length b.length := by simp [Bytes.xor]

@[simp] theorem length_slice (b : Bytes) (o n : Nat) : (b.slice o n).length = n := by simp [Bytes.slice]

@[simp] theorem length_fit (b : Bytes) (n : Nat) : (b.fit n).length = n := length_slice b 0 n

@[simp] theorem length_ofBE (k n : Nat) : (Bytes.ofBE k n).length = k := by simp [Bytes.ofBE, length_ofLE]

/-- Exclusive or with what covers it twice gives it back. -/
theorem xor_xor_cancel {a b : Bytes} (h : a.length ≤ b.length) : Bytes.xor (Bytes.xor a b) b = a := by
  induction a generalizing b with
  | nil => rfl
  | cons x a ih =>
    cases b with
    | nil => simp at h
    | cons y b =>
      have tail := ih (b := b) (by simpa using h)
      unfold Bytes.xor at tail ⊢
      simp only [List.zipWith_cons_cons, tail]
      rw [BitVec.xor_assoc, BitVec.xor_self, BitVec.xor_zero]

/-! ## Blocks -/

/-- Pieces of `n` bytes, none empty, the last possibly shorter. -/
def Pieces (n : Nat) : List Bytes → Prop
  | [] => True
  | [b] => 0 < b.length ∧ b.length ≤ n
  | b :: c :: l => b.length = n ∧ Pieces n (c :: l)

/-- More fuel than there are bytes makes no difference. -/
theorem chunksFuel_eq {n : Nat} (hn : 0 < n) : ∀ (k m : Nat) (b : Bytes), b.length ≤ k → b.length ≤ m →
    Bytes.chunksFuel n k b = Bytes.chunksFuel n m b
  | 0, 0, _, _, _ => rfl
  | 0, _ + 1, b, h, _ => by rw [List.length_eq_zero_iff.mp (Nat.le_zero.mp h)]; rfl
  | _ + 1, 0, b, _, h => by rw [List.length_eq_zero_iff.mp (Nat.le_zero.mp h)]; rfl
  | _ + 1, _ + 1, [], _, _ => rfl
  | k + 1, m + 1, x :: b, hk, hm => by
    unfold Bytes.chunksFuel
    rw [chunksFuel_eq hn k m _ (by simp at hk ⊢; omega) (by simp at hm ⊢; omega)]

@[simp] theorem chunks_nil (n : Nat) : Bytes.chunks n [] = [] := rfl

theorem chunks_of_ne_nil {n : Nat} (hn : 0 < n) {b : Bytes} (h : b ≠ []) :
    Bytes.chunks n b = b.take n :: Bytes.chunks n (b.drop n) := by
  cases b with
  | nil => exact absurd rfl h
  | cons x b =>
    unfold Bytes.chunks
    rw [chunksFuel_eq hn ((x :: b).drop n).length b.length _ (le_refl _) (by simp; omega)]
    rfl

theorem chunks_short {n : Nat} (hn : 0 < n) {b : Bytes} (h : b ≠ []) (short : b.length ≤ n) : Bytes.chunks n b = [b] := by
  rw [chunks_of_ne_nil hn h, List.take_of_length_le short, List.drop_eq_nil_iff.mpr short, chunks_nil]

theorem chunks_append {n : Nat} (hn : 0 < n) {a : Bytes} (b : Bytes) (full : a.length = n) :
    Bytes.chunks n (a ++ b) = a :: Bytes.chunks n b := by
  have ne : a ++ b ≠ [] := by
    intro e
    rw [List.append_eq_nil_iff] at e
    simp [e.1] at full
    omega
  rw [chunks_of_ne_nil hn ne, ← full, List.take_left, List.drop_left]

theorem flatten_chunks {n : Nat} (hn : 0 < n) (b : Bytes) : (Bytes.chunks n b).flatten = b := by
  induction h : b.length using Nat.strong_induction_on generalizing b with
  | _ m ih =>
    by_cases e : b = []
    · rw [e]; rfl
    · have pos : 0 < b.length := List.length_pos_iff.mpr e
      rw [chunks_of_ne_nil hn e, List.flatten_cons, ih (b.drop n).length (by simp; omega) _ rfl, List.take_append_drop]

theorem pieces_chunks {n : Nat} (hn : 0 < n) (b : Bytes) : Pieces n (Bytes.chunks n b) := by
  induction h : b.length using Nat.strong_induction_on generalizing b with
  | _ m ih =>
    by_cases e : b = []
    · rw [e]; trivial
    · have pos : 0 < b.length := List.length_pos_iff.mpr e
      by_cases short : b.length ≤ n
      · rw [chunks_short hn e short]
        exact ⟨pos, short⟩
      · have rest := ih (b.drop n).length (by simp; omega) _ rfl
        have more : b.drop n ≠ [] := by simp; omega
        rw [chunks_of_ne_nil hn e]
        rw [chunks_of_ne_nil hn more] at rest ⊢
        exact ⟨by simp; omega, rest⟩

/-- Cutting pieces put together gives the pieces. -/
theorem chunks_flatten {n : Nat} (hn : 0 < n) : ∀ {l : List Bytes}, Pieces n l → Bytes.chunks n l.flatten = l
  | [], _ => rfl
  | [b], h => by
    rw [List.flatten_cons, List.flatten_nil, List.append_nil]
    exact chunks_short hn (List.length_pos_iff.mp h.1) h.2
  | b :: c :: l, h => by
    rw [List.flatten_cons, chunks_append hn _ h.1, chunks_flatten hn h.2]

/-- Blocks of the same lengths as pieces are pieces. -/
theorem Pieces.of_lengths {n : Nat} : ∀ {l m : List Bytes}, Pieces n l → m.map List.length = l.map List.length → Pieces n m
  | [], m, _, h => by
    rw [List.map_nil, List.map_eq_nil_iff] at h
    rw [h]
    trivial
  | [b], m, hp, h => by
    obtain ⟨c, rfl⟩ : ∃ c, m = [c] := List.length_eq_one_iff.mp (by simpa using congrArg List.length h)
    have e : c.length = b.length := by simpa using h
    exact ⟨e ▸ hp.1, e ▸ hp.2⟩
  | b :: c :: l, m, hp, h => by
    match m, h with
    | [], h => simp at h
    | [_], h => simp at h
    | d :: e :: m, h =>
      simp only [List.map_cons, List.cons.injEq] at h
      obtain ⟨hd, he, hl⟩ := h
      exact ⟨hd.trans hp.1, of_lengths hp.2 (by simp [he, hl])⟩

theorem Pieces.length_le {n : Nat} : ∀ {l : List Bytes}, Pieces n l → ∀ b ∈ l, b.length ≤ n
  | [], _, _, h => nomatch h
  | [b], hp, c, h => by
    rw [List.mem_singleton] at h
    exact h ▸ hp.2
  | b :: c :: l, hp, d, h => by
    rcases List.mem_cons.mp h with rfl | h
    · exact hp.1.le
    · exact length_le hp.2 d h

/-- Pieces that make up a whole number of blocks are all blocks. -/
theorem length_of_mem_chunks {n k : Nat} (hn : 0 < n) : ∀ {b : Bytes}, b.length = n * k → ∀ c ∈ Bytes.chunks n b, c.length = n := by
  induction k with
  | zero =>
    intro b h c hc
    have empty : b = [] := List.length_eq_zero_iff.mp (by simpa using h)
    rw [empty, chunks_nil] at hc
    nomatch hc
  | succ k ih =>
    intro b h c hc
    have long : n ≤ b.length := by rw [h]; exact Nat.le_mul_of_pos_right n (Nat.succ_pos k)
    have ne : b ≠ [] := fun e => by rw [e] at long; simp at long; omega
    rw [chunks_of_ne_nil hn ne] at hc
    rcases List.mem_cons.mp hc with rfl | hc
    · simp [long]
    · exact ih (by rw [List.length_drop, h, Nat.mul_succ]; omega) c hc

/-! ## The block cipher -/

theorem length_aesShiftRows (s : Bytes) : (aesShiftRows s).length = 16 := by simp [aesShiftRows]

theorem length_aesMixColumn (s : Bytes) : (aesMixColumn s).length = s.length := by
  unfold aesMixColumn
  split <;> rfl

theorem length_flatten_map {f : Bytes → Bytes} (hf : ∀ b, (f b).length = b.length) (l : List Bytes) :
    (l.map f).flatten.length = l.flatten.length := by
  induction l with
  | nil => rfl
  | cons b l ih => simp [hf, ih]

theorem length_aesEncRounds : ∀ (ks : List Bytes) (s : Bytes), (∀ k ∈ ks, k.length = 16) → s.length = 16 →
    (aesEncRounds ks s).length = 16
  | [], _, _, hs => hs
  | [k], s, hk, _ => by
    unfold aesEncRounds
    rw [length_xor, length_aesShiftRows, hk k (.head _)]
    rfl
  | k :: c :: ks, s, hk, _ => by
    unfold aesEncRounds
    refine length_aesEncRounds (c :: ks) _ (fun i hi => hk i (.tail _ hi)) ?_
    rw [length_xor, length_flatten_map length_aesMixColumn, flatten_chunks (by decide), length_aesShiftRows, hk k (.head _)]
    rfl

/-- Round keys that the cipher can use: some, of 16 bytes each. -/
def RoundKeys (rk : List Bytes) : Prop := rk ≠ [] ∧ ∀ k ∈ rk, k.length = 16

theorem length_aesEncWith {rk : List Bytes} (h : RoundKeys rk) (b : Bytes) : (aesEncWith rk b).length = 16 := by
  obtain ⟨ne, lens⟩ := h
  cases rk with
  | nil => exact absurd rfl ne
  | cons k ks =>
    unfold aesEncWith
    refine length_aesEncRounds _ _ (fun i hi => lens i (.tail _ hi)) ?_
    simp [lens k (.head _)]

/-- The words of a key expansion that has begun with `ws`: as many more as the fuel, all of four bytes. -/
theorem aesExpandFuel_words (nk : Nat) (pos : 0 < nk) : ∀ (fuel i : Nat) (rcon : Byte) (ws : List Bytes),
    nk ≤ ws.length → (∀ w ∈ ws, w.length = 4) →
    (aesExpandFuel nk fuel i rcon ws).length = ws.length + fuel ∧ ∀ w ∈ aesExpandFuel nk fuel i rcon ws, w.length = 4
  | 0, _, _, _, _, hw => ⟨rfl, hw⟩
  | fuel + 1, i, rcon, ws, hl, hw => by
    have back : (ws.getD (nk - 1) []).length = 4 := by
      rw [List.getD_eq_getElem _ _ (by omega)]
      exact hw _ (List.getElem_mem _)
    have prev : (ws.headD []).length = 4 := by
      cases ws with
      | nil => simp at hl; omega
      | cons w ws => exact hw w (.head _)
    have made : ∀ t : Bytes, t.length = 4 → (Bytes.xor (ws.getD (nk - 1) []) t).length = 4 := fun t ht => by
      rw [length_xor, back, ht]
      rfl
    have step : ∀ (t : Bytes) (c : Byte), t.length = 4 →
        (aesExpandFuel nk fuel (i + 1) c (Bytes.xor (ws.getD (nk - 1) []) t :: ws)).length = ws.length + (fuel + 1) ∧
          ∀ w ∈ aesExpandFuel nk fuel (i + 1) c (Bytes.xor (ws.getD (nk - 1) []) t :: ws), w.length = 4 := by
      intro t c ht
      obtain ⟨len, all⟩ := aesExpandFuel_words nk pos fuel (i + 1) c (Bytes.xor (ws.getD (nk - 1) []) t :: ws)
        (by simp; omega) (List.forall_mem_cons.mpr ⟨made t ht, hw⟩)
      exact ⟨by rw [len, List.length_cons]; omega, all⟩
    unfold aesExpandFuel
    refine step _ _ ?_
    split
    · split
      · rfl
      · exact prev
    · split
      · simpa using prev
      · exact prev

theorem length_flatten_of_all {n : Nat} {l : List Bytes} (h : ∀ b ∈ l, b.length = n) : l.flatten.length = n * l.length := by
  induction l with
  | nil => rfl
  | cons b l ih =>
    rw [List.flatten_cons, List.length_append, h b (.head _), ih fun c hc => h c (.tail _ hc), List.length_cons, Nat.mul_succ,
      Nat.add_comm]

/-- The round keys of a key of one of the three lengths. -/
theorem roundKeys_of_length {key : Bytes} (h : key.length = 16 ∨ key.length = 24 ∨ key.length = 32) : RoundKeys (aesRoundKeys key) := by
  have whole : key.length = 4 * (key.length / 4) := by omega
  have words : ∀ w ∈ Bytes.chunks 4 key, w.length = 4 := length_of_mem_chunks (by decide) whole
  have count : (Bytes.chunks 4 key).length = key.length / 4 := by
    have total := length_flatten_of_all words
    rw [flatten_chunks (by decide)] at total
    omega
  obtain ⟨made, four⟩ := aesExpandFuel_words (key.length / 4) (by omega)
    (4 * (aesRounds key.length + 1) - key.length / 4) (key.length / 4) 1#8 (Bytes.chunks 4 key).reverse
    (by rw [List.length_reverse, count]) (fun w hw => words w (List.mem_reverse.mp hw))
  rw [List.length_reverse, count] at made
  have bytes := length_flatten_of_all (n := 4) (fun w hw => four w (List.mem_reverse.mp hw))
  rw [List.length_reverse, made] at bytes
  have sixteen : 4 * (key.length / 4 + (4 * (aesRounds key.length + 1) - key.length / 4)) = 16 * (aesRounds key.length + 1) := by
    unfold aesRounds
    omega
  rw [sixteen] at bytes
  refine ⟨fun none => ?_, length_of_mem_chunks (by decide) bytes⟩
  have back := flatten_chunks (n := 16) (by decide) (aesExpandFuel (key.length / 4) (4 * (aesRounds key.length + 1) - key.length / 4)
    (key.length / 4) 1#8 (Bytes.chunks 4 key).reverse).reverse.flatten
  rw [show Bytes.chunks 16 _ = [] from none] at back
  rw [← back] at bytes
  simp at bytes

theorem length_aesEnc {key : Bytes} (h : key.length = 16 ∨ key.length = 24 ∨ key.length = 32) (b : Bytes) :
    (aesEnc key b).length = 16 :=
  length_aesEncWith (roundKeys_of_length h) b

theorem length_cmac {key : Bytes} (h : key.length = 16 ∨ key.length = 24 ∨ key.length = 32) (m : Bytes) : (cmac key m).length = 16 :=
  length_aesEncWith (roundKeys_of_length h) _

/-! ## The stream modes -/

/-- What the counter mode makes of the blocks of a message. -/
def ctrBlocks (rk : List Bytes) (w : Nat) (c0 : Bytes) (l : List Bytes) : List Bytes :=
  l.zipIdx.map fun p => Bytes.xor p.1 (aesEncWith rk (ctrAdd w c0 p.2))

theorem ctrMode_eq (key : Bytes) (w : Nat) (c0 src : Bytes) :
    ctrMode key w c0 src = (ctrBlocks (aesRoundKeys key) w c0 (Bytes.chunks 16 src)).flatten := rfl

theorem lengths_ctrBlocks {rk : List Bytes} (hk : RoundKeys rk) (w : Nat) (c0 : Bytes) {l : List Bytes}
    (short : ∀ b ∈ l, b.length ≤ 16) : (ctrBlocks rk w c0 l).map List.length = l.map List.length := by
  refine List.ext_getElem (by simp [ctrBlocks]) fun i hi hj => ?_
  have bound := short (l[i]'(by simpa using hj)) (List.getElem_mem _)
  simp [ctrBlocks, length_aesEncWith hk, bound]

theorem ctrBlocks_ctrBlocks {rk : List Bytes} (hk : RoundKeys rk) (w : Nat) (c0 : Bytes) {l : List Bytes}
    (short : ∀ b ∈ l, b.length ≤ 16) : ctrBlocks rk w c0 (ctrBlocks rk w c0 l) = l := by
  refine List.ext_getElem (by simp [ctrBlocks]) fun i hi hj => ?_
  have bound := short l[i] (List.getElem_mem _)
  simp [ctrBlocks, xor_xor_cancel, length_aesEncWith hk, bound]

theorem short_chunks (src : Bytes) : ∀ b ∈ Bytes.chunks 16 src, b.length ≤ 16 := Pieces.length_le (pieces_chunks (by decide) src)

theorem length_flatten_of_lengths {l m : List Bytes} (h : l.map List.length = m.map List.length) : l.flatten.length = m.flatten.length := by
  rw [List.length_flatten, List.length_flatten, h]

theorem length_ctrMode {key : Bytes} (hk : RoundKeys (aesRoundKeys key)) (w : Nat) (c0 src : Bytes) :
    (ctrMode key w c0 src).length = src.length := by
  rw [ctrMode_eq, length_flatten_of_lengths (lengths_ctrBlocks hk w c0 (short_chunks src)), flatten_chunks (by decide)]

/-- The counter mode undoes itself. -/
theorem ctrMode_ctrMode {key : Bytes} (hk : RoundKeys (aesRoundKeys key)) (w : Nat) (c0 src : Bytes) :
    ctrMode key w c0 (ctrMode key w c0 src) = src := by
  have cut : Bytes.chunks 16 (ctrMode key w c0 src) = ctrBlocks (aesRoundKeys key) w c0 (Bytes.chunks 16 src) :=
    chunks_flatten (by decide) ((pieces_chunks (by decide) src).of_lengths (lengths_ctrBlocks hk w c0 (short_chunks src)))
  rw [ctrMode_eq, cut, ctrBlocks_ctrBlocks hk w c0 (short_chunks src), flatten_chunks (by decide)]

theorem lengths_cfbBlocks {rk : List Bytes} (hk : RoundKeys rk) (enc : Bool) : ∀ (l : List Bytes) (iv : Bytes),
    (∀ b ∈ l, b.length ≤ 16) → (cfbBlocks rk enc iv l).map List.length = l.map List.length
  | [], _, _ => rfl
  | b :: l, iv, short => by
    have bound := short b (.head _)
    unfold cfbBlocks
    simp [length_aesEncWith hk, bound, lengths_cfbBlocks hk enc l _ fun c hc => short c (.tail _ hc)]

/-- Cipher feedback: decryption undoes encryption. -/
theorem cfbBlocks_cfbBlocks {rk : List Bytes} (hk : RoundKeys rk) : ∀ (l : List Bytes) (iv : Bytes), (∀ b ∈ l, b.length ≤ 16) →
    cfbBlocks rk false iv (cfbBlocks rk true iv l) = l
  | [], _, _ => rfl
  | b :: l, iv, short => by
    have bound := short b (.head _)
    have tail := cfbBlocks_cfbBlocks hk l (Bytes.xor b (aesEncWith rk iv)) fun c hc => short c (.tail _ hc)
    simp only [cfbBlocks, Bool.false_eq_true, if_true, if_false, tail]
    rw [xor_xor_cancel (by rw [length_aesEncWith hk]; exact bound)]

theorem cfbMode_cfbMode {key : Bytes} (hk : RoundKeys (aesRoundKeys key)) (iv src : Bytes) :
    cfbMode false key iv (cfbMode true key iv src) = src := by
  have cut : Bytes.chunks 16 (cfbMode true key iv src) = cfbBlocks (aesRoundKeys key) true iv (Bytes.chunks 16 src) :=
    chunks_flatten (by decide) ((pieces_chunks (by decide) src).of_lengths (lengths_cfbBlocks hk true _ iv (short_chunks src)))
  have undone : cfbMode false key iv (cfbMode true key iv src) =
      (cfbBlocks (aesRoundKeys key) false iv (Bytes.chunks 16 (cfbMode true key iv src))).flatten := rfl
  rw [undone, cut, cfbBlocks_cfbBlocks hk _ iv (short_chunks src), flatten_chunks (by decide)]

theorem length_ofbStream {rk : List Bytes} (hk : RoundKeys rk) : ∀ (n : Nat) (o : Bytes), (ofbStream rk n o).flatten.length = 16 * n
  | 0, _ => rfl
  | n + 1, o => by
    simp [ofbStream, length_aesEncWith hk, length_ofbStream hk n]
    omega

/-- Output feedback undoes itself. -/
theorem ofbMode_ofbMode {key : Bytes} (hk : RoundKeys (aesRoundKeys key)) (iv src : Bytes) : ofbMode key iv (ofbMode key iv src) = src := by
  have covers : src.length ≤ (ofbStream (aesRoundKeys key) ((src.length + 15) / 16) iv).flatten.length := by
    rw [length_ofbStream hk]
    omega
  have same : (ofbMode key iv src).length = src.length := by
    unfold ofbMode
    rw [length_xor]
    omega
  have undone : ofbMode key iv (ofbMode key iv src) =
      Bytes.xor (ofbMode key iv src) (ofbStream (aesRoundKeys key) (((ofbMode key iv src).length + 15) / 16) iv).flatten := rfl
  rw [undone, same]
  exact xor_xor_cancel covers

/-! ## Sealed fragments -/

theorem length_fragHead (epoch gen len : Nat) (aad : Bool) (frag obj ver salt : Bytes) (hf : frag.length = 4) (ho : obj.length = 16)
    (hv : ver.length = 8) (hs : salt.length = 8) : (fragHead epoch gen len aad frag obj ver salt).length = 48 := by
  simp [fragHead, length_ofLE, hf, ho, hv, hs, Bytes.ofNats]

/-- The header under which entry `e`'s plaintext is sealed. -/
def sealHead (epoch gen len : Nat) (e salt : Bytes) : Bytes :=
  fragHead epoch gen len (decide (aadLenOf e ≠ 0)) (fragOf e) (e.slice 0x40 16) (e.slice 0x50 8) salt

theorem length_sealHead (epoch gen len : Nat) (e : Bytes) {salt : Bytes} (h : salt.length = 8) :
    (sealHead epoch gen len e salt).length = 48 :=
  length_fragHead epoch gen len _ _ _ _ _ (length_slice ..) (length_slice ..) (length_slice ..) h

theorem getD_append_left {a : Bytes} (b : Bytes) {i : Nat} (h : i < a.length) : (a ++ b).getD i 0 = a.getD i 0 := by
  rw [List.getD_eq_getElem?_getD, List.getElem?_append_left h, List.getD_eq_getElem?_getD]

theorem slice_append_left {a : Bytes} (b : Bytes) {o n : Nat} (h : o + n ≤ a.length) : (a ++ b).slice o n = a.slice o n :=
  List.map_congr_left fun i hi => getD_append_left b (by have := List.mem_range.mp hi; omega)

theorem leAt_append_left {a : Bytes} (b : Bytes) {o n : Nat} (h : o + n ≤ a.length) : (a ++ b).leAt o n = a.leAt o n := by
  unfold Bytes.leAt
  rw [slice_append_left b h]

theorem slice_append_right {a b : Bytes} {o n : Nat} (ha : a.length = o) (hb : b.length = n) : (a ++ b).slice o n = b := by
  refine List.ext_getElem (by rw [length_slice, hb]) fun i hi hj => ?_
  rw [length_slice] at hi
  simp [Bytes.slice, ← ha, hb, hi]

/-- R36, R50: the fragment key depends on the first 48 bytes of the header alone. -/
theorem headerKey_append {a : Bytes} (b key : Bytes) (tenant : Nat) (h : a.length = 48) :
    headerKey key tenant (a ++ b) = headerKey key tenant a := by
  simp [headerKey, leAt_append_left, slice_append_left, h]

theorem length_headerKey {key : Bytes} (h : key.length = 32) (tenant : Nat) (hdr : Bytes) : (headerKey key tenant hdr).length = 32 := by
  simp [headerKey, fragKey, length_cmac (.inr (.inr h))]

theorem length_fragTag {kf : Bytes} (h : kf.length = 32) (hdr aad ct : Bytes) : (fragTag kf hdr aad ct).length = 16 := by
  simp [fragTag, gcmTag, length_aesEnc (.inr (.inr h))]

theorem headerWf_sealHead (epoch gen len : Nat) (e salt tag : Bytes) (h : len ≤ maxLen) :
    Bytes.leAt (sealHead epoch gen len e salt ++ tag) 8 4 = len ∧ headerWf (sealHead epoch gen len e salt ++ tag) = true := by
  have length : Bytes.leAt (sealHead epoch gen len e salt ++ tag) 8 4 = len := by
    have bytes : Bytes.leAt (sealHead epoch gen len e salt ++ tag) 8 4 = Bytes.toLE (Bytes.ofLE 4 len) := rfl
    have small : len ≤ 0x01000000 := h
    rw [bytes]
    simp [Bytes.ofLE, Bytes.toLE]
    omega
  have version : Bytes.at_ (sealHead epoch gen len e salt ++ tag) 2 = BitVec.ofNat 8 (0x01 + 16 * b2n (decide (aadLenOf e ≠ 0))) := rfl
  refine ⟨length, ?_⟩
  unfold headerWf
  rw [length, version, decide_eq_true h, Bool.and_true]
  rcases Decidable.em (aadLenOf e ≠ 0) with aad | aad
  · rw [decide_eq_true aad]
    rfl
  · rw [decide_eq_false aad]
    rfl

/-- What SEAL writes. -/
theorem sealFragment_eq (key : Bytes) (tenant epoch gen : Nat) (salt e plain aad : Bytes) :
    sealFragment key tenant epoch gen salt e plain aad =
      sealHead epoch gen plain.length e salt ++
        fragTag (headerKey key tenant (sealHead epoch gen plain.length e salt)) (sealHead epoch gen plain.length e salt) aad
          (unsealText key tenant (sealHead epoch gen plain.length e salt) plain) ++
        unsealText key tenant (sealHead epoch gen plain.length e salt) plain := rfl

/-- Settles O17: the header that UNSEAL reads spells the key under which SEAL worked, and GCM's counter mode undoes itself. -/
theorem sealThenUnseal : Obligations.SealThenUnseal := by
  unfold Obligations.SealThenUnseal
  intro key tenant epoch gen salt e plain aad hkey hlen hsalt
  rw [sealFragment_eq]
  have headLen := length_sealHead epoch gen plain.length e hsalt
  have wf := headerWf_sealHead epoch gen plain.length e salt
  generalize sealHead epoch gen plain.length e salt = hdr at headLen wf
  have keyLen := length_headerKey hkey tenant hdr
  have ctLen : (unsealText key tenant hdr plain).length = plain.length := length_ctrMode (roundKeys_of_length (.inr (.inr keyLen))) _ _ _
  have back : unsealText key tenant hdr (unsealText key tenant hdr plain) = plain :=
    ctrMode_ctrMode (roundKeys_of_length (.inr (.inr keyLen))) _ _ _
  generalize unsealText key tenant hdr plain = ct at ctLen back
  have tagLen := length_fragTag keyLen hdr aad ct
  have sameTag : ∀ tag : Bytes, fragTag (headerKey key tenant hdr) (hdr ++ tag) aad ct = fragTag (headerKey key tenant hdr) hdr aad ct := by
    simp [fragTag, leAt_append_left, slice_append_left, headLen]
  have sameText : ∀ tag : Bytes, unsealText key tenant (hdr ++ tag) ct = unsealText key tenant hdr ct := by
    simp [unsealText, headerKey_append, leAt_append_left, headLen]
  generalize ht : fragTag (headerKey key tenant hdr) hdr aad ct = tag at tagLen sameTag
  have both : (hdr ++ tag).length = 64 := by rw [List.length_append, headLen, tagLen]
  have take : (hdr ++ tag ++ ct).take 64 = hdr ++ tag := by rw [← both, List.take_left]
  have drop : (hdr ++ tag ++ ct).drop 64 = ct := by rw [← both, List.drop_left]
  obtain ⟨length, wellFormed⟩ := wf tag hlen
  dsimp only
  rw [take, drop]
  refine ⟨?_, wellFormed, length, ?_, (sameText tag).trans back⟩
  · rw [List.length_append, both, ctLen, Nat.add_comm]
  · unfold unsealVerdict
    rw [headerKey_append tag key tenant headLen, sameTag, slice_append_right headLen tagLen]
    exact decide_eq_true rfl

end Sys2Proof.Safety
end

section
/-!
PROOFS. The last steps of cipher jobs (chapter 2, R45 to R66): what SEAL, UNSEAL, the check values and the RAW modes write.
-/

-- In turn: a proof that waits for others beside it takes a thread and its stack from the memory that the check allows.
set_option Elab.async false

namespace Sys2Proof.Safety

open Sys2Proof.Machine

theorem of_running {s : State} {r : JobRef} {op : Nat} {j : Job} (h : running s r op = some j) : s.job? r = some j ∧ j.op = op := by
  unfold running at h
  split at h
  · next k hk =>
    split at h
    · next fits =>
      cases h
      exact ⟨hk, fits.1⟩
    · nomatch h
  · nomatch h

/-- R89, R88: the last step of a cipher job of a pair whose two sides agree, with fewer than three mismatches in a row. -/
theorem runCipher_of_running {s : State} {r : JobRef} {op resent : Nat} {j : Job} (body : Job → State → State)
    (hr : running s r op = some j) (same : lanesDiffer j = false) (few : resent < 3) :
    runCipher r op resent body s = settled s (serveLanes j.pair (body j (txMismatches resent s))) := by
  unfold runCipher
  rw [hr]
  dsimp only
  rw [same, if_neg Bool.false_ne_true, transmits_of_lt few]

theorem jobs_serveLanes (p : Nat) (s : State) : (serveLanes p s).jobs = s.jobs := rfl

theorem job_congr {s t : State} (h : t.jobs = s.jobs) (r : JobRef) : t.job? r = s.job? r := by
  unfold State.job?
  rw [h]

theorem cipherFrame_of_fns {s t : State} (store : t.store = s.store) (life : t.life = s.life) (pairs : t.fab.pairs = s.fab.pairs)
    (cram : t.cram = s.cram) (fns : t.fns = s.fns) : CipherFrame s t :=
  ⟨store, life, pairs, cram, fun f q => by unfold State.jq? State.fn; rw [fns], fun f c => by unfold State.cq? State.fn; rw [fns]⟩

theorem cipherFrame_trans {s t u : State} (a : CipherFrame s t) (b : CipherFrame t u) : CipherFrame s u := by
  obtain ⟨store, life, pairs, cram, jq, cq⟩ := a
  obtain ⟨store', life', pairs', cram', jq', cq'⟩ := b
  exact ⟨store'.trans store, life'.trans life, pairs'.trans pairs, cram'.trans cram, fun f q => (jq' f q).trans (jq f q),
    fun f c => (cq' f c).trans (cq f c)⟩

theorem cipherFrame_of_quietFree {s t : State} (h : QuietFree s t) : CipherFrame s t :=
  ⟨h.store, h.life, congrArg Fabric.pairs h.fab, h.cram, h.jq?, h.cq?⟩

theorem cipherFrame_serveLanes (p : Nat) (s : State) : CipherFrame s (serveLanes p s) := cipherFrame_of_fns rfl rfl rfl rfl rfl

theorem cipherFrame_modJob (r : JobRef) (h : Job → Job) (s : State) : CipherFrame s (modJob r h s) :=
  cipherFrame_of_fns rfl rfl rfl rfl rfl

theorem cipherFrame_releaseHold (j : Job) (s : State) : CipherFrame s (releaseHold j s) := by
  unfold releaseHold
  split <;> exact cipherFrame_of_fns rfl rfl rfl rfl rfl

theorem mem_releaseHold (j : Job) (s : State) : (releaseHold j s).mem = s.mem := by
  unfold releaseHold
  split <;> rfl

theorem cipherFrame_endUnseal (j : Job) (d : Done) (n : Nat) (s : State) : CipherFrame s (endUnseal j d n s) :=
  cipherFrame_trans (cipherFrame_releaseHold j s)
    (cipherFrame_trans (cipherFrame_modJob _ _ _) (cipherFrame_modJob _ _ _))

/-- The end of an UNSEAL that came to state `v` by writing memory alone. -/
theorem endUnseal_ends {s v : State} {r : JobRef} {j : Job} (hj : s.job? r = some j) (jobs : v.jobs = s.jobs) (frame : CipherFrame s v)
    (d : Done) (n : Nat) (t : State) (calm : Quiet (serveLanes j.pair (endUnseal j d n v)) t) :
    (t.job? r = some { j with outcome := some d, hold := 0, written := n } ∧ (∀ k, k ≠ r → t.job? k = s.job? k) ∧
      CipherFrame s t) ∧ t.mem = v.mem := by
  obtain rfl := ref_of_job hj
  have held : (releaseHold j v).job? = v.job? := funext fun k => job_congr (jobs_releaseHold j v) k
  have before : (releaseHold j v).job? j.ref = some j := by rw [held]; exact (job_congr jobs j.ref).trans hj
  have named : (modJob j.ref (fun k => { k with hold := 0, written := n }) (releaseHold j v)).job? j.ref =
      some { j with hold := 0, written := n } := job_modJob_self before
  have left : ∀ k, t.job? k = (endUnseal j d n v).job? k := fun k => job_congr calm.jobs k
  refine ⟨⟨?_, fun k hk => ?_, ?_⟩, calm.mem.trans (mem_releaseHold j v)⟩
  · rw [left]
    exact job_modJob_self named
  · rw [left]
    exact (job_modJob_ne hk).trans ((job_modJob_ne hk).trans ((congrFun held k).trans (job_congr jobs k)))
  · exact cipherFrame_trans frame (cipherFrame_trans (cipherFrame_endUnseal j d n v)
      (cipherFrame_trans (cipherFrame_serveLanes _ _) (cipherFrame_of_quietFree (.of_quiet calm))))

/-- One write of `b` to an unlogged function's memory, seen from the state before the FLITs' signals. -/
theorem writes_of_mem {s t : State} {f a : Nat} {b : Bytes} (tidy : Tidy s) (h : t.mem = Memory.putAll s.mem (hostKey f a) b) :
    t.hostRead f a b.length = b ∧ OnlyWrites f a b.length s t := by
  obtain ⟨wf, -⟩ := tidy
  unfold State.hostRead
  unfold OnlyWrites
  rw [h]
  exact ⟨Memory.getAll_putAll _ _ _ wf, fun k hk => Memory.get_putAll_outside _ _ _ _ wf hk⟩

theorem length_zeros (n : Nat) : (Bytes.zeros n).length = n := List.length_replicate

/-- R94: before its reads an UNSEAL's scrub covers what earlier attempts wrote. -/
theorem scrub_noReads {j : Job} (s : State) (h : j.op = Op.unseal) :
    scrub { j with reads := .none_ } s = drewFree (hostWrite j.ref.fn (dstOf j.entry) (Bytes.zeros j.written) s) :=
  if_pos h

section Unseal

variable {s : State} {r : JobRef} {j : Job} {resent : Nat} (hr : running s r Op.unseal = some j) (same : lanesDiffer j = false)
  (few : resent < 3) (tidy : Tidy s) (log : (s.fn r.fn).log = none)

include hr same few tidy log

/-- An UNSEAL whose last step is one write of `b` at its destination and its end with `d`. -/
theorem unseal_answers (b : Bytes) (d : Done) (n : Nat)
    (h : (unsealJob j (txMismatches resent s)) = endUnseal j d n (hostWrite j.ref.fn (dstOf j.entry) b (txMismatches resent s)) ∨
      (unsealJob j (txMismatches resent s)) = endUnseal j d n (drewFree (hostWrite j.ref.fn (dstOf j.entry) b (txMismatches resent s)))) :
    Answers (.unseal r resent) s fun t =>
      (t.job? r = some { j with outcome := some d, hold := 0, written := n } ∧ (∀ k, k ≠ r → t.job? k = s.job? k) ∧
        CipherFrame s t) ∧ t.hostRead r.fn (dstOf j.entry) b.length = b ∧ OnlyWrites r.fn (dstOf j.entry) b.length s t := by
  obtain ⟨hj, -⟩ := of_running hr
  obtain rfl := ref_of_job hj
  have sent := quietFree_txMismatches resent s
  have frame := cipherFrame_of_quietFree sent
  have unlogged : ((txMismatches resent s).fn j.ref.fn).log = none := (congrArg (·.log) (sent.2 j.ref.fn)).trans log
  have written := hostWrite_unlogged _ (dstOf j.entry) b _ unlogged
  have jobs : (hostWrite j.ref.fn (dstOf j.entry) b (txMismatches resent s)).jobs = s.jobs := by rw [written]; exact sent.jobs
  have mem : (hostWrite j.ref.fn (dstOf j.entry) b (txMismatches resent s)).mem =
      Memory.putAll s.mem (hostKey j.ref.fn (dstOf j.entry)) b := by rw [written, ← show (txMismatches resent s).mem = s.mem from sent.mem]
  have kept : CipherFrame s (hostWrite j.ref.fn (dstOf j.entry) b (txMismatches resent s)) := by rw [written]; exact frame
  have calm := quiet_settle s (serveLanes j.pair (unsealJob j (txMismatches resent s)))
  refine ⟨_, runCipher_of_running unsealJob hr same few, ?_⟩
  rcases h with h | h
  · obtain ⟨ends, after⟩ := endUnseal_ends hj jobs kept d n _ (by rw [← h]; exact calm)
    exact ⟨ends, writes_of_mem tidy (after.trans mem)⟩
  · obtain ⟨ends, after⟩ := endUnseal_ends (v := drewFree _) hj jobs kept d n _ (by rw [← h]; exact calm)
    exact ⟨ends, writes_of_mem tidy (after.trans mem)⟩

end Unseal

theorem unsealJob_of_refused {j : Job} {d : Done} (s : State) (op : j.op = Op.unseal)
    (h : headerRefusal j.entry ((jobSrc j).take 64) j.epoch = some d) :
    unsealJob j s = endUnseal j d 0 (drewFree (hostWrite j.ref.fn (dstOf j.entry) (Bytes.zeros j.written) s)) := by
  unfold unsealJob
  dsimp only
  rw [h, ← scrub_noReads s op]

theorem unsealJob_of_accepted {j : Job} (s : State) (h : headerRefusal j.entry ((jobSrc j).take 64) j.epoch = none) :
    unsealJob j s =
      if unsealVerdict j.keyA.clear j.tenant ((jobSrc j).take 64) (jobAad j) ((jobSrc j).drop 64) then
        endUnseal j { status := okStatus j, detail := identityBits j.entry ((jobSrc j).take 64) }
          (unsealText j.keyA.clear j.tenant ((jobSrc j).take 64) ((jobSrc j).drop 64)).length
          (hostWrite j.ref.fn (dstOf j.entry) (unsealText j.keyA.clear j.tenant ((jobSrc j).take 64) ((jobSrc j).drop 64)) s)
      else
        endUnseal j { status := Status.tagMismatch, detail := identityBits j.entry ((jobSrc j).take 64) } 0
          (hostWrite j.ref.fn (dstOf j.entry)
            (Bytes.zeros (if j.hold = 0 then
              max j.written (unsealText j.keyA.clear j.tenant ((jobSrc j).take 64) ((jobSrc j).drop 64)).length else j.written)) s) := by
  unfold unsealJob
  dsimp only
  rw [h]

/-- Settles O19: each verdict is one write at the destination and the end of the job. -/
theorem unsealVerdicts : Obligations.UnsealVerdicts := by
  unfold Obligations.UnsealVerdicts
  intro s r j resent hr same few tidy log h ct text good ends zeroed
  have zero : ∀ n t, (t.hostRead r.fn (dstOf j.entry) (Bytes.zeros n).length = Bytes.zeros n ∧
      OnlyWrites r.fn (dstOf j.entry) (Bytes.zeros n).length s t) → zeroed n t := by
    intro n t hz
    rwa [length_zeros] at hz
  have answers := unseal_answers hr same few tidy log
  refine ⟨fun d refused => ?_, fun ok hgood => ?_, fun ok bad => ?_⟩
  · refine (answers (Bytes.zeros j.written) d 0 (.inr ?_)).imp fun t ht => ⟨ht.1, zero _ t ht.2⟩
    exact unsealJob_of_refused _ (of_running hr).2 refused
  · refine answers text { status := okStatus j, detail := identityBits j.entry h } text.length (.inl ?_)
    exact (unsealJob_of_accepted _ ok).trans (if_pos hgood)
  · refine (answers (Bytes.zeros _) { status := 0x30, detail := identityBits j.entry h } 0 (.inl ?_)).imp
      fun t ht => ⟨ht.1, zero _ t ht.2⟩
    exact (unsealJob_of_accepted _ ok).trans (if_neg fun tag => Bool.false_ne_true (bad.symm.trans tag))

/-- R45 to R66: the last step of a cipher job whose body decides it with `d` after writing by `w`. -/
theorem cipherEnds_of_running {i : Instr} {s : State} {r : JobRef} {op resent : Nat} {j : Job} {body : Job → State → State} {d : Done}
    {w : State → State} (hi : exec i s = runCipher r op resent body s) (hr : running s r op = some j) (same : lanesDiffer j = false)
    (few : resent < 3) (hb : body j (txMismatches resent s) = decideJob j.ref d (w (txMismatches resent s))) :
    CipherEnds i s resent j d w := by
  refine ⟨_, hi.trans (runCipher_of_running body hr same few), ?_⟩
  rw [← hb]
  exact quiet_settle _ _

/-- Settles O20. -/
theorem checksAndRawComplete : Obligations.ChecksAndRawComplete := by
  unfold Obligations.ChecksAndRawComplete
  refine ⟨fun s r j resent hr same few => ?_, fun s r j hr same => ?_, fun s i r j resent op hr same few hi => ?_,
    fun key iv src len => ?_⟩
  · obtain rfl := ref_of_job (of_running hr).1
    exact cipherEnds_of_running rfl hr same few rfl
  · exact cipherEnds_of_running rfl hr same (by decide) rfl
  · obtain rfl := ref_of_job (of_running hr).1
    rcases hi with ⟨rfl, rfl⟩ | ⟨rfl, rfl⟩
    · exact cipherEnds_of_running rfl hr same few rfl
    · exact cipherEnds_of_running rfl hr same few rfl
  · have keys := roundKeys_of_length len
    exact ⟨fun bits => ctrMode_ctrMode keys bits iv src, ofbMode_ofbMode keys iv src, cfbMode_cfbMode keys iv src⟩

end Sys2Proof.Safety
end

section
/-!
PROOFS. O18 does not hold: it speaks of every state, and a state may hold a SEAL whose job has no key. Without a key the
tag is empty, and what SEAL writes is shorter than a fragment.
-/

-- In turn: a proof that waits for others beside it takes a thread and its stack from the memory that the check allows.
set_option Elab.async false

namespace Sys2Proof.Safety

open Sys2Proof.Machine

/-- A SEAL of no data whose two copies of the key are empty. -/
def keylessSeal : Job :=
  { ref := { fn := 0, jq := 1, index := 0 }, entry := Bytes.ofNats [Op.seal], len := 1, stage := .committed, pair := 0, reads := .arrived,
    salt := Bytes.zeros 8 }

/-- A state in which pair 0 runs that job. -/
def keylessState : State := { jobs := [keylessSeal], fab := { pairs := [{ jobs := [keylessSeal.ref] }] } }

/-- What that SEAL writes is its header alone. -/
theorem keylessSeal_fragment :
    (sealFragment keylessSeal.keyA.clear keylessSeal.tenant keylessSeal.epoch keylessSeal.gen keylessSeal.salt keylessSeal.entry
      (jobSrc keylessSeal) (jobAad keylessSeal)).length = 48 := by
  decide +kernel

/-- Refutes O18: where the destination should hold 64 bytes, a SEAL without a key makes 48. -/
theorem not_sealCompletes : ¬ Obligations.SealCompletes := by
  unfold Obligations.SealCompletes
  intro h
  obtain ⟨t, -, -, -, fragment, -⟩ := h keylessState keylessSeal.ref keylessSeal 0 (by decide +kernel) (by decide +kernel) (by decide)
    (by decide +kernel) (by decide +kernel)
  have length := congrArg List.length fragment
  rw [keylessSeal_fragment] at length
  have read : (t.hostRead keylessSeal.ref.fn (dstOf keylessSeal.entry) ((jobSrc keylessSeal).length + 64)).length = 64 :=
    Memory.getAll_length ..
  exact absurd (read.symm.trans length) (by decide)

end Sys2Proof.Safety
end

section
/-!
PROOFS. O21 does not hold: the random source's dispatch commits every job of the picked name, and a state may hold two
jobs of one name, of which the table shows the first.
-/

-- In turn: a proof that waits for others beside it takes a thread and its stack from the memory that the check allows.
set_option Elab.async false

namespace Sys2Proof.Safety

open Sys2Proof.Machine

/-- An RNG_FILL of PF0's queue 1 that waits for its dispatch. -/
def waitingFill : Job :=
  { ref := { fn := 0, jq := 1, index := 0 }, len := 1
    entry := ((Bytes.zeros 64).patch 0 (Bytes.ofNats [0x30, 1])).patch 0x18 (Bytes.ofLE 4 16) }

/-- A state whose table names that job twice, first with an empty entry. -/
def twiceNamed : State :=
  { fns := [(0, { run := .ready, jqs := [(1, { log2 := 4, ring := 0x20000, cq := 1 })] })], jobs := [{ waitingFill with entry := [] }, waitingFill]
    regs := { dispatchEn := true } }

/-- Refutes O21: the RNG_FILL is picked, and the job of its name that the table shows has another entry. -/
theorem not_dispatchCommitsToAPair : ¬ Obligations.DispatchCommitsToAPair := by
  unfold Obligations.DispatchCommitsToAPair
  intro h
  obtain ⟨-, -, -, random⟩ := h
  obtain ⟨t, step, ⟨⟨k, named, -, -, entry⟩, -⟩, -⟩ := random twiceNamed waitingFill (by decide +kernel) (by decide +kernel)
  have shown : (after (.dispatch .random) twiceNamed).job? waitingFill.ref =
      some { waitingFill with entry := [], stage := .committed, engine := .random, reads := .arrived } := by decide +kernel
  rw [after_eq step, named] at shown
  cases shown
  exact absurd entry (by decide +kernel)

end Sys2Proof.Safety
end

section
/-!
PROOFS. The known-answer verdict of a fenced pair (chapter 3, R24, R95 to R98, R425).
-/

-- In turn: a proof that waits for others beside it takes a thread and its stack from the memory that the check allows.
set_option Elab.async false

namespace Sys2Proof.Safety

open Sys2Proof.Machine

/-! ## Pairs -/

theorem pair_congr {s t : State} (h : t.fab.pairs = s.fab.pairs) (p : Nat) : t.pair p = s.pair p := by
  unfold State.pair
  rw [h]

theorem pair_modPair_self {p : Nat} (h : Pair → Pair) {s : State} (hp : p < s.fab.pairs.length) :
    (modPair p h s).pair p = h (s.pair p) := by
  simp [State.pair, modPair, hp]

theorem pair_modPair_ne {p q : Nat} (h : Pair → Pair) (s : State) (hq : q ≠ p) : (modPair p h s).pair q = s.pair q := by
  simp [State.pair, modPair, List.getElem?_set_ne hq.symm]

@[simp] theorem length_pairs_modPair (p : Nat) (h : Pair → Pair) (s : State) :
    (modPair p h s).fab.pairs.length = s.fab.pairs.length := by
  simp [modPair]

/-- `t` differs from `s` in its pairs, and by signals. -/
def OnlyPairs (s t : State) : Prop := Quiet { s with fab := { s.fab with pairs := t.fab.pairs } } t

theorem OnlyPairs.of_quiet {s t : State} (q : Quiet s t) : OnlyPairs s t := by
  have same : { s with fab := { s.fab with pairs := t.fab.pairs } } = s := by rw [q.fab]
  unfold OnlyPairs
  rwa [same]

theorem OnlyPairs.trans {s t u : State} (a : OnlyPairs s t) (b : OnlyPairs t u) : OnlyPairs s u :=
  Quiet.trans (t := { t with fab := { t.fab with pairs := u.fab.pairs } })
    ⟨congrArg (fun x : State => { x with fab := { x.fab with pairs := u.fab.pairs } }) a.1, a.2⟩ b

theorem onlyPairs_modPair (p : Nat) (h : Pair → Pair) (s : State) : OnlyPairs s (modPair p h s) := .refl _

/-- What a change of the pairs leaves alone. -/
theorem OnlyPairs.kept {s t : State} (h : OnlyPairs s t) : t.jobs = s.jobs ∧ t.mem = s.mem ∧ t.store = s.store ∧ t.life = s.life := by
  have still : Quiet { s with fab := { s.fab with pairs := t.fab.pairs } } t := h
  exact ⟨still.jobs, still.mem, still.store, still.life⟩

theorem quiet_changeRole (p : Nat) (old new : PairState) (s : State) :
    Quiet (modPair p (fun x => { x with st := new }) s) (changeRole p old new s) :=
  (quiet_record ..).trans (quiet_setErr _ _ _)

theorem onlyPairs_changeRole (p : Nat) (old new : PairState) (s : State) : OnlyPairs s (changeRole p old new s) :=
  (onlyPairs_modPair p _ s).trans (.of_quiet (quiet_changeRole p old new s))

theorem pair_changeRole_self {p : Nat} (old new : PairState) {s : State} (hp : p < s.fab.pairs.length) :
    (changeRole p old new s).pair p = { s.pair p with st := new } := by
  rw [pair_congr (congrArg Fabric.pairs (quiet_changeRole p old new s).fab), pair_modPair_self _ hp]

theorem pair_changeRole_ne {p q : Nat} (old new : PairState) (s : State) (hq : q ≠ p) : (changeRole p old new s).pair q = s.pair q := by
  rw [pair_congr (congrArg Fabric.pairs (quiet_changeRole p old new s).fab), pair_modPair_ne _ s hq]

theorem returnRole_of_none {p : Nat} {s : State} (h : (s.pair p).leaving = none) : returnRole p s = s := by
  unfold returnRole
  dsimp only
  rw [h]

/-- R24: a pair that is to return to role `r` does so at once when it has no job. -/
theorem quiet_returnRole {p : Nat} {s : State} {r : PairState} (h : (s.pair p).leaving = some r) (up : (s.pair p).st ≠ .fenced) :
    Quiet (if (s.pair p).jobs = [] then modPair p (fun x => { x with st := r, leaving := none }) s else s) (returnRole p s) := by
  unfold returnRole
  dsimp only
  rw [h]
  dsimp only
  by_cases idle : (s.pair p).jobs = []
  · rw [if_pos idle, if_pos (by simp [idle, up])]
    exact (quiet_record ..).trans (quiet_setErr _ _ _)
  · rw [if_neg idle, if_neg (by simp [idle])]
    exact .refl s

theorem onlyPairs_returnRole (p : Nat) (s : State) : OnlyPairs s (returnRole p s) := by
  unfold returnRole
  dsimp only
  split
  · split
    · exact .trans (onlyPairs_modPair p (fun x => { x with st := _, leaving := none }) s)
        (.of_quiet ((quiet_record ..).trans (quiet_setErr _ _ _)))
    · exact .of_quiet (.refl s)
  · exact .of_quiet (.refl s)

theorem pair_returnRole_ne {p q : Nat} (s : State) (hq : q ≠ p) : (returnRole p s).pair q = s.pair q := by
  unfold returnRole
  dsimp only
  split
  · split
    · refine (pair_congr (congrArg Fabric.pairs (Quiet.fab ((quiet_record ..).trans (quiet_setErr _ _ _)))) q).trans ?_
      exact pair_modPair_ne (fun x => { x with st := _, leaving := none }) s hq
    · rfl
  · rfl

theorem stands_returnRole {p : Nat} {s : State} (len : p < s.fab.pairs.length) (q : Nat) :
    ((returnRole p s).pair q).stands = (s.pair q).stands := by
  by_cases e : q = p
  · subst e
    unfold returnRole
    dsimp only
    split
    · next r _ =>
      split
      · rw [pair_congr (congrArg Fabric.pairs (Quiet.fab ((quiet_record ..).trans (quiet_setErr _ _ _)))) q]
        have set := congrArg Pair.stands (pair_modPair_self (fun x => { x with st := r, leaving := none }) len)
        exact set
      · rfl
    · rfl
  · rw [pair_returnRole_ne s e]

theorem length_pairs_returnRole (p : Nat) (s : State) : (returnRole p s).fab.pairs.length = s.fab.pairs.length := by
  unfold returnRole
  dsimp only
  split
  · split
    · rw [Quiet.fab ((quiet_record ..).trans (quiet_setErr _ _ _))]
      exact List.length_set
    · rfl
  · rfl

/-! ## Stand-ins (R24) -/

/-- The pair that stands in for pair `p`. -/
def standInOf (p : Nat) (s : State) : Option Nat := (List.range 10).find? fun q => (s.pair q).stands.any fun e => decide (e.1 = p)

theorem endStandIn_of_none {p : Nat} {keeps : Bool} {s : State} (h : standInOf p s = none) : endStandIn p keeps s = s := by
  unfold endStandIn
  rw [show (List.find? _ _ : Option Nat) = none from h]

theorem endStandIn_of_some {p q : Nat} {keeps : Bool} {s : State} (h : standInOf p s = some q) :
    endStandIn p keeps s = returnRole q (modPair q (Pair.stopFor p keeps) s) := by
  unfold endStandIn
  rw [show (List.find? _ _ : Option Nat) = some q from h]

theorem onlyPairs_endStandIn (p : Nat) (keeps : Bool) (s : State) : OnlyPairs s (endStandIn p keeps s) := by
  cases h : standInOf p s with
  | none => rw [endStandIn_of_none h]; exact .of_quiet (.refl s)
  | some q => rw [endStandIn_of_some h]; exact (onlyPairs_modPair q _ s).trans (onlyPairs_returnRole q _)

/-- A pair that does not stand in for `p` is not the one that ends standing in for it. -/
theorem standInOf_ne {p q : Nat} {s : State} (h : ∀ e ∈ (s.pair q).stands, e.1 ≠ p) : standInOf p s ≠ some q := by
  intro found
  have stands := List.find?_some found
  obtain ⟨e, he, is⟩ := List.any_eq_true.mp stands
  exact h e he (of_decide_eq_true is)

theorem pair_endStandIn_other {p q : Nat} {keeps : Bool} {s : State} (h : ∀ e ∈ (s.pair q).stands, e.1 ≠ p) :
    (endStandIn p keeps s).pair q = s.pair q := by
  cases found : standInOf p s with
  | none => rw [endStandIn_of_none found]
  | some r =>
    have other : q ≠ r := fun e => standInOf_ne h (e ▸ found)
    rw [endStandIn_of_some found, pair_returnRole_ne _ other, pair_modPair_ne _ s other]

theorem standInOf_first {p q : Nat} {s : State} {old : PairState} (hq : q < 10) (stands : (s.pair q).stands = [(p, old)])
    (first : ∀ r, r < q → ∀ e ∈ (s.pair r).stands, e.1 ≠ p) : standInOf p s = some q := by
  refine List.find?_range_eq_some.mpr ⟨by simp [stands], by simpa using hq, fun r hr => ?_⟩
  simpa using first r hr

/-- The stand-in for `p` alone, seen once that has ended. -/
theorem pair_endStandIn_self {p q : Nat} {keeps : Bool} {s : State} {old : PairState} (found : standInOf p s = some q)
    (len : q < s.fab.pairs.length) (stands : (s.pair q).stands = [(p, old)]) (leaving : (s.pair q).leaving = none)
    (up : (s.pair q).st ≠ .fenced) :
    (endStandIn p keeps s).pair q =
      if keeps then { s.pair q with stands := [] }
      else if (s.pair q).jobs = [] then { s.pair q with st := old, stands := [] }
      else { s.pair q with stands := [], leaving := some old } := by
  have stopped : (s.pair q).stopFor p keeps =
      if keeps then { s.pair q with stands := [] } else { s.pair q with stands := [], leaving := some old } := by
    unfold Pair.stopFor
    rw [stands]
    cases keeps <;> simp
  have mod := pair_modPair_self (Pair.stopFor p keeps) len
  rw [endStandIn_of_some found]
  cases keeps with
  | true =>
    rw [if_pos rfl] at stopped ⊢
    rw [returnRole_of_none (by rw [mod, stopped]; exact leaving), mod, stopped]
  | false =>
    rw [if_neg Bool.false_ne_true] at stopped ⊢
    have back := quiet_returnRole (p := q) (s := modPair q (Pair.stopFor p false) s) (r := old) (by rw [mod, stopped])
      (by rw [mod, stopped]; exact up)
    rw [pair_congr (congrArg Fabric.pairs back.fab), mod, stopped]
    dsimp only
    split
    · rw [pair_modPair_self _ (by simpa using len), mod, stopped, ← leaving]
    · rw [mod, stopped]

/-! ## The verdict -/

/-- R95: the state that a verdict leads to, but for signals. -/
theorem answers_pairKatVerdict {s : State} {p : Nat} (a b : Bool) (fenced : (s.pair p).st = .fenced) :
    ∃ u, Quiet s u ∧ Answers (.pairKatVerdict p a b) s (Quiet
      (if verdictState (s.pair p) a b = (s.pair p).role then
        endStandIn p false (returnRole p (modPair p (fun x => { x with st := verdictState (s.pair p) a b, nested := 0 }) u))
      else
        endStandIn p true (changeRole p .fenced (verdictState (s.pair p) a b)
          (modPair p (fun x => { x with nested := 0, stands := [], leaving := none }) u)))) := by
  refine ⟨record 0x0102 3 p (b2n a + 2 * b2n b) (recentFences s.now (s.pair p).fences).length (s := s), quiet_record .., ?_⟩
  unfold Answers
  show ∃ t, execPairKatVerdict p a b s = .next t ∧ _
  unfold execPairKatVerdict
  dsimp only
  rw [if_pos fenced]
  split
  · exact ⟨_, rfl, quiet_settle _ _⟩
  · exact ⟨_, rfl, quiet_settle _ _⟩

theorem answers_spareKat {s : State} {q : Nat} (a b : Bool) (hq : (s.pair q).st = .spare)
    (first : ∀ r, r < q → (s.pair r).st ≠ .spare) (small : q < 10) :
    ∃ u, Quiet s u ∧ Answers (.spareKat a b) s (Quiet
      (if katOutcome .spare a b = .spare then u else changeRole q .spare (katOutcome .spare a b) u)) := by
  have found : ((List.range 10).find? fun q => decide ((s.pair q).st = .spare)) = some q :=
    List.find?_range_eq_some.mpr ⟨decide_eq_true hq, by simpa using small, fun r hr => by simpa using first r hr⟩
  refine ⟨record 0x0102 3 q (b2n a + 2 * b2n b) 0 (s := s), quiet_record .., ?_⟩
  show ∃ t, execSpareKat a b s = .next t ∧ _
  unfold execSpareKat
  rw [found]
  dsimp only
  split
  · exact ⟨_, rfl, quiet_settle _ _⟩
  · exact ⟨_, rfl, quiet_settle _ _⟩

/-- R95, R96: the two verdicts, and a fence too many. -/
theorem verdictState_of_full {x : Pair} (spent : x.spent = false) (nested : x.nested = 0) (role : x.role = .bulk ∨ x.role = .urgent) :
    verdictState x true true = x.role ∧ verdictState x true false = .halfA ∧ verdictState x false true = .halfB ∧
      verdictState x false false = .failed ∧ ∀ a b, verdictState { x with spent := true } a b = .failed := by
  have none : ∀ a b, verdictState x a b = katOutcome x.role a b := by
    intro a b
    unfold verdictState
    rw [spent, nested]
    simp
  refine ⟨?_, ?_, ?_, ?_, fun a b => ?_⟩
  · rw [none]; rcases role with e | e <;> rw [e] <;> rfl
  · rw [none]; rcases role with e | e <;> rw [e] <;> rfl
  · rw [none]; rcases role with e | e <;> rw [e] <;> rfl
  · rw [none]; rcases role with e | e <;> rw [e] <;> rfl
  · unfold verdictState
    simp

/-! ### What it leaves of each pair -/

section Verdict

variable {s u : State} {p : Nat} (same : ∀ q, u.pair q = s.pair q) (len : p < u.fab.pairs.length)

include same len

/-- A pair that returns to its role, seen once its stand-in has followed. -/
theorem pair_rejoined (h : Pair → Pair) (leaving : (h (s.pair p)).leaving = none) (own : ∀ e ∈ (h (s.pair p)).stands, e.1 ≠ p) :
    (endStandIn p false (returnRole p (modPair p h u))).pair p = h (s.pair p) := by
  have at_p : (modPair p h u).pair p = h (s.pair p) := by rw [pair_modPair_self h len, same]
  rw [returnRole_of_none (by rw [at_p]; exact leaving), pair_endStandIn_other (by rw [at_p]; exact own), at_p]

theorem pair_rejoined_other {q : Nat} (h : Pair → Pair) (hq : q ≠ p) (stands : ∀ e ∈ (s.pair q).stands, e.1 ≠ p) :
    (endStandIn p false (returnRole p (modPair p h u))).pair q = s.pair q := by
  have at_q : (returnRole p (modPair p h u)).pair q = s.pair q := by
    rw [pair_returnRole_ne _ hq, pair_modPair_ne h u hq, same]
  rw [pair_endStandIn_other (by rw [at_q]; exact stands), at_q]

/-- A pair that does not return to its role, seen once its stand-in keeps the role. -/
theorem pair_retired (new : PairState) :
    (endStandIn p true (changeRole p .fenced new
      (modPair p (fun x => { x with nested := 0, stands := [], leaving := none }) u))).pair p =
      { s.pair p with st := new, nested := 0, stands := [], leaving := none } := by
  have at_p : (changeRole p .fenced new (modPair p (fun x => { x with nested := 0, stands := [], leaving := none }) u)).pair p =
      { s.pair p with st := new, nested := 0, stands := [], leaving := none } := by
    rw [pair_changeRole_self _ _ (by simpa using len), pair_modPair_self _ len, same]
  rw [pair_endStandIn_other (by rw [at_p]; exact fun e he => absurd he (by simp)), at_p]

theorem pair_retired_other {q : Nat} (new : PairState) (h : Pair → Pair) (hq : q ≠ p) (stands : ∀ e ∈ (s.pair q).stands, e.1 ≠ p) :
    (endStandIn p true (changeRole p .fenced new (modPair p h u))).pair q = s.pair q := by
  have at_q : (changeRole p .fenced new (modPair p h u)).pair q = s.pair q := by
    rw [pair_changeRole_ne _ _ _ hq, pair_modPair_ne h u hq, same]
  rw [pair_endStandIn_other (by rw [at_q]; exact stands), at_q]

/-- The stand-in after either verdict: `v` is the state in which it ends standing in. -/
theorem pair_standIn {q : Nat} {old : PairState} {keeps : Bool} {v : State} (lenq : q < v.fab.pairs.length) (small : q < 10)
    (up : (s.pair q).st ≠ .fenced) (stands : (s.pair q).stands = [(p, old)]) (leaving : (s.pair q).leaving = none)
    (first : ∀ r, r < q → ∀ e ∈ (s.pair r).stands, e.1 ≠ p) (at_q : v.pair q = s.pair q)
    (others : ∀ r, ∀ e ∈ (v.pair r).stands, e ∈ (s.pair r).stands) :
    (endStandIn p keeps v).pair q =
      if keeps then { s.pair q with stands := [] }
      else if (s.pair q).jobs = [] then { s.pair q with st := old, stands := [] }
      else { s.pair q with stands := [], leaving := some old } := by
  have found : standInOf p v = some q :=
    standInOf_first small (by rw [at_q]; exact stands) fun r hr e he => first r hr e (others r e he)
  rw [pair_endStandIn_self found lenq (by rw [at_q]; exact stands) (by rw [at_q]; exact leaving) (by rw [at_q]; exact up), at_q]

end Verdict

/-- Settles O23: the verdict's state, pair by pair. -/
theorem katVerdictDecidesTheRole : Obligations.KatVerdictDecidesTheRole := by
  unfold Obligations.KatVerdictDecidesTheRole
  refine ⟨fun s p a b len fenced leaving own => ?_, fun s p q old a b len lenq small hq fenced up stands leaving first => ?_,
    fun x spent nested role => verdictState_of_full spent nested role, fun s p spare first small => ?_,
    fun s p a b len spare first small fails => ?_⟩
  · dsimp only
    obtain ⟨u, calm, verdict⟩ := answers_pairKatVerdict a b fenced
    have same := pair_congr (congrArg Fabric.pairs calm.fab)
    have lenu : p < u.fab.pairs.length := by rw [calm.fab]; exact len
    refine verdict.imp fun t quiet => ?_
    have after := fun q => pair_congr (congrArg Fabric.pairs quiet.fab) q
    split at after
    · next returns =>
      rw [if_pos returns] at quiet ⊢
      have only : OnlyPairs s t := (OnlyPairs.of_quiet calm).trans ((onlyPairs_modPair p _ u).trans
        ((onlyPairs_returnRole p _).trans ((onlyPairs_endStandIn p false _).trans (.of_quiet quiet))))
      exact ⟨(after p).trans (pair_rejoined same lenu _ leaving own),
        fun q hq st => (after q).trans (pair_rejoined_other same lenu _ hq st), only.kept⟩
    · next ends =>
      rw [if_neg ends] at quiet ⊢
      have only : OnlyPairs s t := (OnlyPairs.of_quiet calm).trans ((onlyPairs_modPair p _ u).trans
        ((onlyPairs_changeRole p _ _ _).trans ((onlyPairs_endStandIn p true _).trans (.of_quiet quiet))))
      refine ⟨(after p).trans ?_, fun q hq st => (after q).trans (pair_retired_other same lenu _ _ hq st), only.kept⟩
      rw [pair_retired same lenu, ← leaving]
  · obtain ⟨u, calm, verdict⟩ := answers_pairKatVerdict a b fenced
    have same := pair_congr (congrArg Fabric.pairs calm.fab)
    have lenu : ∀ r, r < s.fab.pairs.length → r < u.fab.pairs.length := fun r hr => by rw [calm.fab]; exact hr
    refine verdict.imp fun t quiet => ?_
    rw [pair_congr (congrArg Fabric.pairs quiet.fab) q]
    split
    · refine (pair_standIn (u := u) (keeps := false) same (lenu p len) ?_ small up stands leaving first ?_ ?_).trans rfl
      · rw [length_pairs_returnRole, length_pairs_modPair]; exact lenu q lenq
      · rw [pair_returnRole_ne _ hq, pair_modPair_ne _ u hq, same]
      · intro r e he
        rw [stands_returnRole (by simpa using lenu p len)] at he
        by_cases is : r = p
        · subst is
          rw [pair_modPair_self _ (lenu r len), same] at he
          exact he
        · rwa [pair_modPair_ne _ u is, same] at he
    · refine (pair_standIn (u := u) (keeps := true) same (lenu p len) ?_ small up stands leaving first ?_ ?_).trans rfl
      · rw [(quiet_changeRole ..).fab, length_pairs_modPair, length_pairs_modPair]; exact lenu q lenq
      · rw [pair_changeRole_ne _ _ _ hq, pair_modPair_ne _ u hq, same]
      · intro r e he
        by_cases is : r = p
        · subst is
          rw [pair_changeRole_self _ _ (by simpa using lenu r len), pair_modPair_self _ (lenu r len)] at he
          nomatch he
        · rwa [pair_changeRole_ne _ _ _ is, pair_modPair_ne _ u is, same] at he
  · obtain ⟨u, calm, verdict⟩ := answers_spareKat true true spare first small
    exact verdict.imp fun t quiet => calm.trans quiet
  · obtain ⟨u, calm, verdict⟩ := answers_spareKat a b spare first small
    have same := pair_congr (congrArg Fabric.pairs calm.fab)
    have changes : katOutcome .spare a b ≠ .spare := by cases a <;> cases b <;> simp_all [katOutcome]
    refine verdict.imp fun t quiet => ?_
    rw [if_neg changes] at quiet
    have after := fun q => pair_congr (congrArg Fabric.pairs quiet.fab) q
    have only : OnlyPairs s t := (OnlyPairs.of_quiet calm).trans ((onlyPairs_changeRole p _ _ u).trans (.of_quiet quiet))
    obtain ⟨jobs, mem, store, -⟩ := only.kept
    refine ⟨?_, fun q hq => ?_, jobs, mem, store⟩
    · rw [after, pair_changeRole_self _ _ (by rw [calm.fab]; exact len), same]
    · rw [after, pair_changeRole_ne _ _ _ hq, same]

end Sys2Proof.Safety
end

section
/-!
PROOFS. Credits, the voltage loop, mask generators and checkpoint writes (chapters 3 and 6, R83, R101 to R104, R108, R200).
-/

-- In turn: a proof that waits for others beside it takes a thread and its stack from the memory that the check allows.
set_option Elab.async false

namespace Sys2Proof.Safety

open Sys2Proof.Machine

/-! ## Credits (R108) -/

/-- `s` with every function changed by `h`. -/
def mapFns (h : Nat → Fn → Fn) (s : State) : State := { s with fns := s.fns.map fun p => (p.1, h p.1 p.2) }

theorem find?_eq_none_of_not_mem {α : Type} {m : FMap α} {k : Nat} (h : k ∉ m.keys) : m.find? k = none := by
  induction m with
  | nil => rfl
  | cons p m ih =>
    simp only [FMap.keys, List.map_cons, List.mem_cons, not_or] at h
    rw [FMap.find?, if_neg fun e => h.1 e.symm]
    exact ih h.2

theorem find?_isSome_of_mem {α : Type} {m : FMap α} {k : Nat} (h : k ∈ m.keys) : ∃ v, m.find? k = some v := by
  induction m with
  | nil => nomatch h
  | cons p m ih =>
    rw [FMap.find?]
    split
    · exact ⟨_, rfl⟩
    · next e =>
      rcases List.mem_cons.mp h with is | rest
      · exact absurd is.symm e
      · exact ih rest

theorem fn_mapFns_of_mem {f : Nat} (h : Nat → Fn → Fn) {s : State} (hf : f ∈ s.fns.keys) : (mapFns h s).fn f = h f (s.fn f) := by
  obtain ⟨g, hg⟩ := find?_isSome_of_mem hf
  unfold State.fn FMap.getD mapFns
  rw [FMap.find?_mapVal, hg]
  rfl

theorem fn_mapFns_of_not_mem {f : Nat} (h : Nat → Fn → Fn) {s : State} (hf : f ∉ s.fns.keys) : (mapFns h s).fn f = s.fn f := by
  unfold State.fn FMap.getD mapFns
  rw [FMap.find?_mapVal, find?_eq_none_of_not_mem hf]
  rfl

/-- A change of every function that keeps a part of each keeps that part. -/
theorem fn_mapFns_proj {α : Type} (part : Fn → α) {h : Nat → Fn → Fn} (keeps : ∀ f g, part (h f g) = part g) (s : State) (f : Nat) :
    part ((mapFns h s).fn f) = part (s.fn f) := by
  by_cases hf : f ∈ s.fns.keys
  · rw [fn_mapFns_of_mem h hf, keeps]
  · rw [fn_mapFns_of_not_mem h hf]

/-- What CREDIT_RESCALE makes of each function: `c`, `m`, `e` and `w` are the sums of R108. -/
def rescaled (act : List Nat) (c m e w : Nat) (f : Nat) (g : Fn) : Fn := if act.contains f then accrue c m e w g else idleCredits g

theorem rescaled_of_mem {act : List Nat} {f : Nat} (h : f ∈ act) (c m e w : Nat) (g : Fn) : rescaled act c m e w f g = accrue c m e w g :=
  if_pos (List.contains_iff_mem.mpr h)

theorem rescaled_of_not_mem {act : List Nat} {f : Nat} (h : f ∉ act) (c m e w : Nat) (g : Fn) :
    rescaled act c m e w f g = idleCredits g :=
  if_neg fun has => h (List.contains_iff_mem.mp has)

theorem rescaled_queues (act : List Nat) (c m e w : Nat) (f : Nat) (g : Fn) :
    (rescaled act c m e w f g).jqs = g.jqs ∧ (rescaled act c m e w f g).cqs = g.cqs := by
  unfold rescaled accrue idleCredits
  split <;> exact ⟨rfl, rfl⟩

/-- R108: an active function's share is at most its minimum rate's bytes of one period. -/
theorem accrue_bounds (c m e w : Nat) (g : Fn) :
    (accrue c m e w g).mc ≤ 2 * (rateBytes g.qosMin) ∧ (accrue c m e w g).cc ≤ 2 * (rateBytes g.qosCeil) := by
  have share : (if m ≤ c then rateBytes g.qosMin else rateBytes g.qosMin * c / m) ≤ rateBytes g.qosMin := by
    split
    · exact le_refl _
    · next less => exact Nat.div_le_of_le_mul (by rw [Nat.mul_comm]; exact Nat.mul_le_mul_right _ (Nat.le_of_not_le less))
  unfold accrue
  dsimp only
  exact ⟨by omega, by omega⟩

/-- What CREDIT_RESCALE leaves, but for signals: the functions' credits rescaled, the spill and the scaling mark. -/
theorem rescaled_leaves {s t : State} {c m e w : Nat} {spill : Int} {scaled : Bool}
    (q : Quiet { mapFns (rescaled (activeFns s) c m e w) s with fab := { s.fab with sc := spill, scaled := scaled } } t) :
    t.jobs = s.jobs ∧ t.mem = s.mem ∧ t.store = s.store ∧ t.fab.pairs = s.fab.pairs ∧ (∀ f q, t.jq? f q = s.jq? f q) ∧
      (∀ f c, t.cq? f c = s.cq? f c) ∧
      ∀ f ∈ s.fns.keys, (f ∉ activeFns s → (t.fn f).mc = min (s.fn f).mc 0 ∧ (t.fn f).ec = min (s.fn f).ec 0 ∧
        (t.fn f).cc = (s.fn f).cc) ∧
        (f ∈ activeFns s → (t.fn f).mc ≤ 2 * (rateBytes (s.fn f).qosMin) ∧
          (t.fn f).cc ≤ 2 * (rateBytes (s.fn f).qosCeil)) := by
  have part : ∀ {α : Type} (g : Fn → α) (f : Nat), g (stillFn (t.fn f)) =
      g (stillFn ((mapFns (rescaled (activeFns s) c m e w) s).fn f)) := fun g f => congrArg g (q.2 f)
  have fab := q.fab
  refine ⟨q.jobs, q.mem, q.store, (congrArg Fabric.pairs fab :), fun f n => ?_, fun f n => ?_, fun f hf => ⟨fun idle => ?_, fun active => ?_⟩⟩
  · exact congrArg (·.find? n) ((part Fn.jqs f).trans (fn_mapFns_proj Fn.jqs (fun f g => (rescaled_queues _ c m e w f g).1) s f))
  · exact congrArg (·.find? n) ((part Fn.cqs f).trans (fn_mapFns_proj Fn.cqs (fun f g => (rescaled_queues _ c m e w f g).2) s f))
  · have is := (fn_mapFns_of_mem (rescaled (activeFns s) c m e w) hf).trans (rescaled_of_not_mem idle c m e w _)
    have mc := (part Fn.mc f).trans (congrArg (fun g => Fn.mc (stillFn g)) is)
    have ec := (part Fn.ec f).trans (congrArg (fun g => Fn.ec (stillFn g)) is)
    have cc := (part Fn.cc f).trans (congrArg (fun g => Fn.cc (stillFn g)) is)
    exact ⟨mc, ec, cc⟩
  · have is := (fn_mapFns_of_mem (rescaled (activeFns s) c m e w) hf).trans (rescaled_of_mem active c m e w _)
    obtain ⟨mc, cc⟩ := accrue_bounds c m e w (s.fn f)
    exact ⟨((part Fn.mc f).trans (congrArg (fun g => Fn.mc (stillFn g)) is)).trans_le mc, ((part Fn.cc f).trans (congrArg (fun g => Fn.cc (stillFn g)) is)).trans_le cc⟩

/-! ## The voltage loop (R101 to R104) -/

theorem avsTry_succeeds (n : Nat) (s : State) : avsTry (n + 1) [true] s = (true, avsOk s) := rfl

/-- A command whose transaction succeeds at once. -/
theorem quiet_avsOk (s : State) : Quiet { s with fab := { s.fab with okRun := s.fab.okRun + 1, failRun := 0
                                                                     decHold := s.fab.decHold && decide (s.fab.okRun + 1 < 10) } } (avsOk s) := by
  unfold avsOk
  dsimp only
  split
  · next held =>
    have ends : (s.fab.decHold && decide (s.fab.okRun + 1 < 10)) = false := by simp; omega
    rw [ends]
    exact quiet_record ..
  · next goes =>
    have stays : (s.fab.decHold && decide (s.fab.okRun + 1 < 10)) = s.fab.decHold := by
      cases h : s.fab.decHold
      · rfl
      · simp only [h, true_and] at goes
        simp
        omega
    rw [stays]
    exact .refl _

theorem quiet_vlimitCheck (s : State) : ∃ v, Quiet { s with fab := { s.fab with vlimit := v } } (vlimitCheck s) := by
  unfold vlimitCheck
  split
  · split
    · next v => exact ⟨true, by rw [← v]; exact .refl _⟩
    · exact ⟨true, (quiet_setErr _ _ _).trans (quiet_record ..)⟩
  · exact ⟨false, .refl _⟩

/-- The fabric's rail, and the glitch reference with it, set to `v`; nothing else but the loop's own records. -/
structure RailAt (v cycle : Nat) (s t : State) : Prop where
  vdd : t.fab.vdd = v
  read : t.fab.vddRead = v
  ref : t.vesper.glitchRef = v
  cycle : t.fab.cycle = cycle
  pairs : t.fab.pairs = s.fab.pairs
  jobs : t.jobs = s.jobs
  mem : t.mem = s.mem
  store : t.store = s.store

theorem railAt_of_quiet {v cycle : Nat} {s t u : State} (h : RailAt v cycle s t) (q : Quiet t u) : RailAt v cycle s u where
  vdd := (congrArg Fabric.vdd q.fab).trans h.vdd
  read := (congrArg Fabric.vddRead q.fab).trans h.read
  ref := (congrArg Vesper.glitchRef q.vesper).trans h.ref
  cycle := (congrArg Fabric.cycle q.fab).trans h.cycle
  pairs := (congrArg Fabric.pairs q.fab).trans h.pairs
  jobs := q.jobs.trans h.jobs
  mem := q.mem.trans h.mem
  store := q.store.trans h.store

/-- R101, R103: a commanded voltage whose transaction succeeds at once, from a state `u` that differs from `s` as it may. -/
theorem railAt_settled {v cycle : Nat} {s u : State} (at_cycle : u.fab.cycle = cycle) (pairs : u.fab.pairs = s.fab.pairs)
    (jobs : u.jobs = s.jobs) (mem : u.mem = s.mem) (store : u.store = s.store) :
    RailAt v cycle s (settle s (vlimitCheck (avsCommand v [true] u))) := by
  obtain ⟨lim, check⟩ := quiet_vlimitCheck (avsCommand v [true] u)
  have ok := quiet_avsOk (emit (.avs u.fab.avsRail v) u)
  refine railAt_of_quiet ?_ (check.trans (quiet_settle s _))
  have fab := ok.fab
  exact ⟨rfl, rfl, rfl, (congrArg Fabric.cycle fab).trans at_cycle, (congrArg Fabric.pairs fab).trans pairs, ok.jobs.trans jobs,
    ok.mem.trans mem, ok.store.trans store⟩

theorem avsStep_bounds (k target t v : Nat) : 620 ≤ avsStep k target t v ∧ avsStep k target t v ≤ 900 := by
  unfold avsStep
  dsimp only
  omega

/-! ## Checkpoints (R200) -/

/-- `t` differs from `s` in the slots' pending checkpoint writes, none of which ends; the lease is the same. -/
def PointsAhead (s t : State) : Prop :=
  t.lease = s.lease ∧ ∀ n, t.slot n = { s.slot n with pendingP := (t.slot n).pendingP } ∧
    ((s.slot n).pendingP.isSome = true → (t.slot n).pendingP.isSome = true)

theorem PointsAhead.refl (s : State) : PointsAhead s s := ⟨rfl, fun _ => ⟨rfl, id⟩⟩

theorem PointsAhead.trans {s t u : State} (a : PointsAhead s t) (b : PointsAhead t u) : PointsAhead s u :=
  ⟨b.1.trans a.1, fun n => ⟨by rw [(b.2 n).1, (a.2 n).1], fun h => (b.2 n).2 ((a.2 n).2 h)⟩⟩

theorem PointsAhead.of_store {s t : State} (lease : t.lease = s.lease) (store : t.store = s.store) : PointsAhead s t :=
  ⟨lease, fun n => by unfold State.slot; rw [store]; exact ⟨rfl, id⟩⟩

theorem pointsAhead_startCheckpoint (e : Bytes) (s : State) : PointsAhead s (startCheckpoint e s) := by
  unfold startCheckpoint
  split
  · next n _ =>
    refine ⟨rfl, fun m => ?_⟩
    by_cases is : m = n
    · subst is
      rw [slot_modSlot_self]
      refine ⟨rfl, fun some => ?_⟩
      show (aheadP s.lease (s.slot m)).isSome = true
      unfold aheadP
      dsimp only
      split
      · rfl
      · exact some
    · rw [slot_modSlot_ne _ _ is]
      exact ⟨rfl, id⟩
  · exact .refl s

theorem lease_of_quiet {s t : State} (q : Quiet s t) : t.lease = s.lease := by
  unfold State.lease State.param
  rw [q.force]

theorem quiet_waitNoted (s : State) : Quiet s (setErr Block.ks 5 (bump 9 s)) := (quiet_bump _ _).trans (quiet_setErr _ _ _)

theorem pointsAhead_noteLeaseWait (s : State) (j : Job) : PointsAhead s (noteLeaseWait s j) := by
  unfold noteLeaseWait
  dsimp only
  split
  · exact pointsAhead_startCheckpoint _ _
  · exact (pointsAhead_startCheckpoint _ _).trans
      (.trans (t := modJob j.ref (fun k => { k with leaseWait := true }) (startCheckpoint j.entry s)) (.of_store rfl rfl)
        (.of_store (lease_of_quiet (quiet_waitNoted _)) (quiet_waitNoted _).store))

theorem pointsAhead_foldl (l : List Job) (s : State) : PointsAhead s (l.foldl noteLeaseWait s) := by
  induction l generalizing s with
  | nil => exact .refl s
  | cons j l ih => exact (pointsAhead_noteLeaseWait s j).trans (ih _)

/-- R200: a job that only its lease holds up has its slot's checkpoint write under way. -/
theorem pending_noteLeaseWait {s : State} {j : Job} {n : Nat} (named : slotNamed j.entry = some n)
    (spent : (s.slot n).point ≤ (s.slot n).a.count) (lease : 0 < s.lease) : ((noteLeaseWait s j).slot n).pendingP.isSome = true := by
  have started : ((startCheckpoint j.entry s).slot n).pendingP.isSome = true := by
    unfold startCheckpoint
    rw [named]
    dsimp only
    rw [slot_modSlot_self]
    show (aheadP s.lease (s.slot n)).isSome = true
    unfold aheadP
    dsimp only
    split
    · rfl
    · next no =>
      cases h : (s.slot n).pendingP with
      | some _ => rfl
      | none =>
        rw [h] at no
        simp at no
        omega
  unfold noteLeaseWait
  dsimp only
  split
  · exact started
  · unfold State.slot at started ⊢
    rw [(quiet_waitNoted _).store]
    exact started

theorem pending_foldl {j : Job} {n : Nat} (named : slotNamed j.entry = some n) {l : List Job} (hj : j ∈ l) {s : State}
    (spent : (s.slot n).point ≤ (s.slot n).a.count) (lease : 0 < s.lease) :
    ((l.foldl noteLeaseWait s).slot n).pendingP.isSome = true := by
  induction l generalizing s with
  | nil => nomatch hj
  | cons k l ih =>
    obtain ⟨sameLease, slots⟩ := pointsAhead_noteLeaseWait s k
    rcases List.mem_cons.mp hj with rfl | hj
    · exact ((pointsAhead_foldl l _).2 n).2 (pending_noteLeaseWait named spent lease)
    · refine ih hj ?_ (by rw [sameLease]; exact lease)
      rw [(slots n).1]
      exact spent

theorem store_dispatchRandom (s : State) : (dispatchRandom s).store = s.store := by
  unfold dispatchRandom
  split
  · rfl
  · split <;> rfl

/-- Settles O24. -/
theorem creditsVoltageAndSeeds : Obligations.CreditsVoltageAndSeeds := by
  unfold Obligations.CreditsVoltageAndSeeds
  refine ⟨fun s runs => ?_, fun s cycle mv runs on free moves => ?_, fun s cycle mv oks runs off => ?_,
    fun s cycle on slow low => ?_, fun s g hg => ?_, fun s n p pending => ?_, fun s j n hj charged may lease named pos => ?_⟩
  · show ∃ t, execCreditRescale s = .next t ∧ _
    unfold execCreditRescale
    rw [if_neg (by simp [runs])]
    dsimp only
    split
    · split
      · exact ⟨_, rfl, rescaled_leaves (quiet_bump _ _)⟩
      · exact ⟨_, rfl, rescaled_leaves ((quiet_bump _ _).trans (quiet_record ..))⟩
    · exact ⟨_, rfl, rescaled_leaves (.refl _)⟩
  · have commands : execAvsLoop cycle [true] mv s =
        settled s (vlimitCheck (avsCommand (avsStep s.dummyRate s.avsTarget cycle s.fab.vdd) [true]
          { s with fab := { s.fab with cycle := cycle }, vesper := { s.vesper with refRead := s.vesper.refRead && !s.avsOn } })) := by
      unfold execAvsLoop
      dsimp only
      rw [if_neg (by simp [runs]), if_pos on, if_pos ((Nat.lt_or_gt_of_ne moves).imp id fun less => ⟨less, free⟩)]
    have rail := railAt_settled (s := s) (v := avsStep s.dummyRate s.avsTarget cycle s.fab.vdd) (cycle := cycle)
      (u := { s with fab := { s.fab with cycle := cycle }, vesper := { s.vesper with refRead := s.vesper.refRead && !s.avsOn } })
      rfl rfl rfl rfl rfl
    obtain ⟨least, most⟩ := avsStep_bounds s.dummyRate s.avsTarget cycle s.fab.vdd
    refine ⟨_, commands, rail.vdd, ?_, ?_, rail.read.trans rail.vdd.symm, rail.ref.trans rail.vdd.symm, rail.cycle, rail.pairs,
      rail.jobs, rail.mem, rail.store⟩
    · rw [rail.vdd]; exact least
    · rw [rail.vdd]; exact most
  · have reads : execAvsLoop cycle oks mv s = settled s (railRead mv
        { s with fab := { s.fab with cycle := cycle }, vesper := { s.vesper with refRead := s.vesper.refRead && !s.avsOn } }) := by
      unfold execAvsLoop
      dsimp only
      rw [if_neg (by simp [runs]), if_neg (by simp [off])]
    have calm := quiet_settle s (railRead mv
      { s with fab := { s.fab with cycle := cycle }, vesper := { s.vesper with refRead := s.vesper.refRead && !s.avsOn } })
    have fab := calm.fab
    exact ⟨_, reads, (congrArg Fabric.vddRead fab :), (congrArg Fabric.vdd fab :), (congrArg Fabric.cycle fab :), (congrArg Fabric.pairs fab :),
      calm.jobs, calm.mem, calm.store⟩
  · have raises : min (s.fab.vdd + 20) 900 ≠ s.fab.vdd := by omega
    have commands : execAvsGuard cycle [true] s = settled s (vlimitCheck (avsCommand (min (s.fab.vdd + 20) 900) [true]
        { s with fab := { s.fab with cycle := cycle } })) := by
      unfold execAvsGuard
      dsimp only
      rw [if_pos ⟨on, slow⟩, if_neg raises]
    have rail := railAt_settled (s := s) (v := min (s.fab.vdd + 20) 900) (cycle := cycle)
      (u := { s with fab := { s.fab with cycle := cycle } }) rfl rfl rfl rfl rfl
    exact ⟨_, commands, rail.vdd, rail.cycle, rail.pairs, rail.jobs, rail.mem, rail.store⟩
  · refine ⟨_, rfl, ?_, fun h hh => ?_, rfl⟩
    · simp [List.getElem?_modify, hg, seedSpan]
    · simp [List.getElem?_modify, hh.symm]
  · refine ⟨modSlot n (fun x => { x with point := p, pendingP := none }) s, ?_, ?_, fun m hm => slot_modSlot_ne _ _ hm, rfl⟩
    · show execCheckpointWriteDone n s = _
      unfold execCheckpointWriteDone
      rw [pending]
    · exact slot_modSlot_self _ _ _
  · have held : j ∈ s.jobs.filter fun j => !j.charged && mayDispatch s j && !leaseOk s j.entry :=
      List.mem_filter.mpr ⟨hj, by simp [charged, may, lease]⟩
    have spent : (s.slot n).point ≤ (s.slot n).a.count := by
      unfold leaseOk at lease
      rw [named] at lease
      simpa using lease
    have store := (quiet_settle s (dispatchRandom (noteLeaseWaits s))).store.trans (store_dispatchRandom _)
    have slots : ∀ m, (settle s (dispatchRandom (noteLeaseWaits s))).slot m = (noteLeaseWaits s).slot m := fun m => by
      unfold State.slot
      rw [store]
    refine ⟨_, rfl, ?_⟩
    dsimp only
    rw [slots]
    exact ⟨pending_foldl named held spent pos, ((pointsAhead_foldl _ s).2 n).1⟩

end Sys2Proof.Safety
end

section
/-!
PROOFS. Window tests, generator requests, reseeds and restarts (chapter 9, R281 to R298, R421).
-/

-- In turn: a proof that waits for others beside it takes a thread and its stack from the memory that the check allows.
set_option Elab.async false

namespace Sys2Proof.Safety

open Sys2Proof.Machine

/-! ## Firmware with nothing to take up again (R289) -/

theorem wakeFirmware_of_nothing {s : State} (h : NothingWaits s) : wakeFirmware s = s := by
  obtain ⟨work, held⟩ := h
  have port : wakePort s = s := by
    unfold wakePort
    rw [work, List.foldl_nil, ← work]
  unfold wakeFirmware wakeDoe
  rw [port, held, ite_self]

theorem nothingWaits_congr {s t : State} (mgmt : t.mgmt = s.mgmt) (link : t.link = s.link) (h : NothingWaits s) : NothingWaits t := by
  unfold NothingWaits
  rw [mgmt, link]
  exact h

/-- A state that differs from `s` in the random source alone, but for signals. -/
theorem quiet_withRng {s t : State} {r : Rng} (q : Quiet { s with rng := r } t) : Quiet { s with rng := t.rng } t := by
  have rng : t.rng = r := q.rng
  rwa [← rng] at q

/-! ## Windows (R281 to R283) -/

/-- What a window leaves, where nothing waits for it. -/
theorem answers_windowComplete {s : State} {src : Nat} {w : WindowReading} {r : Rng} (ends : windowEnds src w s = { s with rng := r })
    (idle : NothingWaits s) :
    Answers (.windowComplete src w) s fun t => t.rng = r ∧ Quiet { s with rng := t.rng } t := by
  have wakes : wakeFirmware (windowEnds src w s) = { s with rng := r } := by
    rw [ends]
    exact wakeFirmware_of_nothing (nothingWaits_congr (t := { s with rng := r }) rfl rfl idle)
  have calm := quiet_settle s (wakeFirmware (windowEnds src w s))
  rw [wakes] at calm
  refine ⟨settle s { s with rng := r }, ?_, calm.rng, quiet_withRng calm⟩
  show settled s (wakeFirmware (windowEnds src w s)) = _
  rw [wakes]
  rfl

/-- R282: the first window of a source. -/
theorem windowEnds_first {s : State} {src : Nat} {x : Source} (w : WindowReading) (hx : s.rng.sources[src]? = some x)
    (on : s.rng.enabled = true) (first : x.first = true) :
    windowEnds src w s = { s with rng := { s.rng with sources := s.rng.sources.set src (latchLimits s x) } } := by
  unfold windowEnds
  rw [hx]
  dsimp only
  rw [if_neg (by simp [on]), if_pos first]

/-- What a source shows after a window tested. -/
def tested (s : State) (x : Source) (w : WindowReading) : Source :=
  { latchLimits s x with
    bias := biasOf w, corr := corrOf w, lastFail := !windowPasses x w
    pass := if windowPasses x w then satAdd x.pass 0xFFFFFFFF else x.pass
    fail := if windowPasses x w then x.fail else satAdd x.fail 0xFFFFFFFF }

/-- The pool after a window: one that passes enters, unless it is full. -/
def credited (l : List Bytes) (w : WindowReading) (ok : Bool) : List Bytes := if ok && decide (l.length < 8) then l ++ [w.bits] else l

/-- R281, R283: any other window, while no restart of the generator is due. -/
theorem windowEnds_tested {s : State} {src : Nat} {x : Source} (w : WindowReading) (hx : s.rng.sources[src]? = some x)
    (on : s.rng.enabled = true) (later : x.first = false) (seeded : s.rng.restart = false) :
    windowEnds src w s = { s with rng := { s.rng with
      sources := s.rng.sources.set src (tested s x w), pool := credited s.rng.pool w (windowPasses x w) } } := by
  have stays (u : State) (h : u.rng.restart = false) : restartNow u = u := by
    unfold restartNow
    rw [h]
    split <;> rfl
  unfold windowEnds
  rw [hx]
  dsimp only
  rw [if_neg (by simp [on]), if_neg (by simp [later])]
  cases ok : windowPasses x w with
  | false =>
    rw [if_neg Bool.false_ne_true]
    unfold tested credited
    rw [ok]
    rfl
  | true =>
    rw [if_pos rfl]
    unfold credit credited tested
    rw [ok]
    by_cases room : s.rng.pool.length < 8
    · rw [if_pos room, decide_eq_true room]
      refine (stays _ ?_).trans rfl
      exact seeded
    · rw [if_neg room, decide_eq_false room]
      refine (stays _ ?_).trans rfl
      exact seeded

/-! ## Requests (R286, R291) -/

/-- What serving a consumer leaves alone of the random source, and of everything else that is no consumer's. -/
def unserved (s : State) :=
  (s.rng.requests, s.rng.key, s.rng.v, s.rng.seeded, s.rng.pool, s.rng.waiting, s.mem, s.store, s.life, s.mgmt, s.link)

/-- `t` differs from `s` in what consumers of random bytes take. -/
def Serves (s t : State) : Prop := unserved t = unserved s ∧ ∀ f, (t.fn f).jqs = (s.fn f).jqs ∧ (t.fn f).cqs = (s.fn f).cqs

theorem Serves.refl (s : State) : Serves s s := ⟨rfl, fun _ => ⟨rfl, rfl⟩⟩

theorem Serves.trans {s t u : State} (a : Serves s t) (b : Serves t u) : Serves s u :=
  ⟨b.1.trans a.1, fun f => ⟨(b.2 f).1.trans (a.2 f).1, (b.2 f).2.trans (a.2 f).2⟩⟩

theorem serves_of_fns {s t : State} (h : unserved t = unserved s := by exact rfl) (fns : t.fns = s.fns := by exact rfl) : Serves s t :=
  ⟨h, fun f => by unfold State.fn; rw [fns]; exact ⟨rfl, rfl⟩⟩

theorem serves_setFn (f : Nat) (g : Fn) (s : State) (jqs : g.jqs = (s.fn f).jqs := by exact rfl)
    (cqs : g.cqs = (s.fn f).cqs := by exact rfl) : Serves s (setFn f g s) := by
  refine ⟨rfl, fun k => ?_⟩
  rw [fn_setFn]
  split
  · next e => subst e; exact ⟨jqs, cqs⟩
  · exact ⟨rfl, rfl⟩

theorem serves_serveReads (f : Nat) : ∀ (n : Nat) (s : State), Serves s (serveReads f n s)
  | 0, s => .refl s
  | n + 1, s => by
    unfold serveReads
    dsimp only
    split
    · exact .refl s
    · have answered (m : OutMsg) (g : Fn) (jqs : g.jqs = (s.fn f).jqs) (cqs : g.cqs = (s.fn f).cqs) :
          Serves s (emit m (setFn f g s)) :=
        .trans (serves_setFn f g s jqs cqs) serves_of_fns
      split
      · refine .trans ?_ (serves_serveReads f n _)
        exact answered _ _ rfl rfl
      · exact serves_setFn f _ s

theorem serves_deliver (c : Consumer) (out : Bytes) (s : State) : Serves s (deliver c out s) := by
  unfold deliver
  cases c with
  | salts => exact serves_of_fns
  | firmware => exact serves_of_fns
  | draws r => exact serves_of_fns
  | seed g => exact serves_of_fns
  | bytes f =>
    dsimp only
    split
    · refine .trans (t := modFn f (fun g => { g with rngBuf := out }) { s with rng := { s.rng with turn5 := f } }) ?_
        (serves_serveReads f _ _)
      exact .trans (t := { s with rng := { s.rng with turn5 := f } }) serves_of_fns (serves_setFn f _ _)
    · split <;> exact serves_of_fns

/-- A request that repeats no block serves its consumer from the generator's next state. -/
theorem serves_serve {s : State} (c : Consumer) (fresh : repeats s.rng.last (generate s).1 = false) :
    Serves (generate s).2 (serve c s) := by
  unfold serve
  dsimp only
  rw [fresh, if_neg Bool.false_ne_true]
  exact .trans (t := noteGaps c (generate s).2) serves_of_fns (serves_deliver _ _ _)

/-- What a request leaves, where nothing waits for it. -/
theorem answers_generateRequest {s u v : State} (idle : NothingWaits s) (made : generateOrWait s = u) (from_ : Serves v u)
    (mgmt : v.mgmt = s.mgmt) (link : v.link = s.link) : Answers .generateRequest s (Quiet u) := by
  have parts := from_.1
  simp only [unserved, Prod.mk.injEq] at parts
  obtain ⟨-, -, -, -, -, -, -, -, -, sameMgmt, sameLink⟩ := parts
  have wakes := wakeFirmware_of_nothing (nothingWaits_congr (sameMgmt.trans mgmt) (sameLink.trans link) idle)
  refine ⟨settle s (wakeFirmware (generateOrWait s)), rfl, ?_⟩
  rw [made, wakes]
  exact quiet_settle _ _

/-- What a request that serves its consumer leaves of the generator. -/
theorem unserved_served {s u : State} (h : Serves s u) :
    u.rng.requests = s.rng.requests ∧ u.rng.key = s.rng.key ∧ u.rng.v = s.rng.v ∧ u.rng.seeded = s.rng.seeded ∧
      u.rng.pool = s.rng.pool ∧ u.rng.waiting = s.rng.waiting ∧ u.mem = s.mem ∧ u.store = s.store ∧ u.life = s.life := by
  have parts := h.1
  simp only [unserved, Prod.mk.injEq] at parts
  obtain ⟨requests, key, v, seeded, pool, waiting, mem, store, life, -, -⟩ := parts
  exact ⟨requests, key, v, seeded, pool, waiting, mem, store, life⟩

theorem request_of_fresh {s : State} {c : Consumer} (seeded : s.rng.seeded = true) (turn : consumer s = some c)
    (fresh : reseedDue s = false) : generateOrWait s = serve c s := by
  unfold generateOrWait request
  rw [if_neg (by simp [seeded]), turn]
  dsimp only
  rw [if_neg (by simp [fresh])]

theorem request_of_due {s : State} {c : Consumer} {w : Bytes} {rest : List Bytes} (seeded : s.rng.seeded = true)
    (turn : consumer s = some c) (due : reseedDue s = true) (pool : s.rng.pool = w :: rest) :
    generateOrWait s = serve c (reseed w { s with rng := { s.rng with pool := rest } }) := by
  unfold generateOrWait request
  rw [if_neg (by simp [seeded]), turn]
  dsimp only
  rw [if_pos due, pool]

theorem request_of_starved {s : State} {c : Consumer} (seeded : s.rng.seeded = true) (turn : consumer s = some c)
    (due : reseedDue s = true) (pool : s.rng.pool = []) : generateOrWait s = beginWait s := by
  have starves : starved s = true := by
    unfold starved
    rw [seeded, turn, due, pool]
    rfl
  unfold generateOrWait request
  rw [if_neg (by simp [seeded]), turn]
  dsimp only
  rw [if_pos due, pool]
  dsimp only
  rw [if_pos starves]

/-! ## Reseeds (R286, R298) -/

/-- A reseed, but for its record: the generator's next state, its counts, and the end of a wait. -/
theorem quiet_reseed (w : Bytes) (s : State) :
    Quiet { s with rng := { s.rng with key := (drbgUpdate s.rng.key s.rng.v (drbgDf w)).1, v := (drbgUpdate s.rng.key s.rng.v (drbgDf w)).2
                                       requests := 0, reseeds := satAdd s.rng.reseeds 0xFFFFFFFF, waiting := false } } (reseed w s) := by
  unfold reseed
  dsimp only
  split
  · exact quiet_record ..
  · exact .refl _

theorem quiet_beginWait (s : State) : ∃ r : Rng, r.waiting = true ∧ r.key = s.rng.key ∧ r.requests = s.rng.requests ∧
    Quiet { s with rng := r } (beginWait s) := by
  unfold beginWait
  split
  · next already => exact ⟨s.rng, already, rfl, rfl, .refl s⟩
  · exact ⟨{ s.rng with waiting := true, blocked := satAdd s.rng.blocked 0xFFFFFFFF }, rfl, rfl, rfl,
      (quiet_setErr _ _ _).trans (quiet_record ..)⟩

/-! ## Restarts (R421) -/

theorem rngBuf_eraseGenerator (f : Nat) (s : State) : ((eraseGenerator s).fn f).rngBuf = [] := by
  by_cases hf : f ∈ s.fns.keys
  · exact congrArg Fn.rngBuf (fn_mapFns_of_mem (fun _ g => { g with rngBuf := [] }) hf)
  · have none : (eraseGenerator s).fn f = s.fn f := fn_mapFns_of_not_mem (fun _ g => { g with rngBuf := [] }) hf
    rw [none]
    unfold State.fn FMap.getD
    rw [find?_eq_none_of_not_mem hf]
    rfl

/-- A generator that has begun again from the oldest window, or that has none to begin from. -/
theorem restartNow_of_due {s : State} (due : s.rng.restart = true) :
    restartNow s = (match s.rng.pool with
      | w :: rest => instantiate w { s with rng := { s.rng with pool := rest } }
      | [] => s) := by
  unfold restartNow
  cases h : s.rng.pool with
  | nil => rfl
  | cons w rest => exact if_pos due

/-- What a restart of the generator leaves, but for signals. -/
structure Restarted (s t : State) : Prop where
  salts : t.rng.salts = []
  requests : t.rng.requests = 0
  unseeded : s.rng.pool = [] → t.rng.seeded = false ∧ t.rng.key = []
  buffers : ∀ f, (t.fn f).rngBuf = []
  mem : t.mem = s.mem
  jobs : t.jobs = s.jobs
  store : t.store = s.store
  life : t.life = s.life
  mgmt : t.mgmt = s.mgmt
  link : t.link = s.link

theorem restarted_of_quiet {s t u : State} (h : Restarted s t) (q : Quiet t u) : Restarted s u where
  salts := (congrArg Rng.salts q.rng).trans h.salts
  requests := (congrArg Rng.requests q.rng).trans h.requests
  unseeded := fun none => ⟨(congrArg Rng.seeded q.rng).trans (h.unseeded none).1, (congrArg Rng.key q.rng).trans (h.unseeded none).2⟩
  buffers := fun f => (congrArg Fn.rngBuf (q.2 f)).trans (h.buffers f)
  mem := q.mem.trans h.mem
  jobs := q.jobs.trans h.jobs
  store := q.store.trans h.store
  life := q.life.trans h.life
  mgmt := q.mgmt.trans h.mgmt
  link := q.link.trans h.link

/-- The erasing of a generator and its next beginning, from a state that differs from `s` by signals. -/
theorem restarted_restartNow {s v : State} (calm : Quiet s v) (red : Redundancy) :
    Restarted s (restartNow (eraseGenerator { v with red := red })) := by
  rw [restartNow_of_due rfl]
  have pool : v.rng.pool = s.rng.pool := congrArg Rng.pool calm.rng
  have buffers := fun f => rngBuf_eraseGenerator f { v with red := red }
  cases h : v.rng.pool with
  | nil =>
    rw [show (eraseGenerator { v with red := red }).rng.pool = [] from h]
    exact ⟨rfl, rfl, fun _ => ⟨rfl, rfl⟩, buffers, calm.mem, calm.jobs, calm.store, calm.life, calm.mgmt, calm.link⟩
  | cons w rest =>
    rw [show (eraseGenerator { v with red := red }).rng.pool = w :: rest from h]
    exact ⟨rfl, rfl, fun none => absurd (h.symm.trans (pool.trans none)) (by simp), buffers, calm.mem, calm.jobs, calm.store, calm.life,
      calm.mgmt, calm.link⟩

theorem restarted_restartGenerator (cause : Nat) (s : State) : Restarted s (restartGenerator cause s) := by
  have noted : ∀ v, Quiet s v → ∀ again : Bool, ∀ red, Restarted s
      (if again then escalate (restartNow (eraseGenerator { v with red := red })) else restartNow (eraseGenerator { v with red := red })) := by
    intro v calm again red
    cases again with
    | false => exact restarted_restartNow calm red
    | true => exact restarted_of_quiet (restarted_restartNow calm red) (quiet_escalate _)
  unfold restartGenerator
  dsimp only
  refine noted _ (.trans ?_ (quiet_record ..)) _ _
  split
  · exact (quiet_bump _ _).trans (quiet_setErr _ _ _)
  · split
    · exact (quiet_bump _ _).trans (quiet_setErr _ _ _)
    · exact quiet_setErr _ _ _

/-- Settles O25. -/
theorem windowsAndGenerator : Obligations.WindowsAndGenerator := by
  unfold Obligations.WindowsAndGenerator
  refine ⟨fun s src w x hx on first idle => ?_, fun s src w x hx on later seeded idle => ?_,
    fun s c seeded turn fresh distinct idle => ?_, fun s c w rest seeded turn due pool idle => ?_,
    fun s c seeded turn many pool idle => ?_, fun s w rest pool waiting idle => ?_, fun s cause seeded idle => ?_,
    fun s cause unseeded => ?_, fun s src w => ⟨_, rfl, quiet_settle _ _⟩,
    fun s => ⟨⟨_, rfl, quiet_settle _ _⟩, _, rfl, quiet_settle _ _⟩⟩
  · have here : src < s.rng.sources.length := (List.getElem?_eq_some_iff.mp hx).1
    refine (answers_windowComplete (windowEnds_first w hx on first) idle).imp fun t ⟨rng, quiet⟩ => ⟨quiet, ?_, ?_⟩
    · rw [rng]
    · rw [rng]
      exact List.getElem?_set_self here
  · have here : src < s.rng.sources.length := (List.getElem?_eq_some_iff.mp hx).1
    refine (answers_windowComplete (windowEnds_tested w hx on later seeded) idle).imp fun t ⟨rng, quiet⟩ =>
      ⟨quiet, tested s x w, ?_, rfl, rfl, rfl, ?_, fun ok => ?_, fun ok => ?_, fun k hk => ?_, ?_⟩
    · rw [rng]; exact List.getElem?_set_self here
    · rw [rng]; rfl
    · unfold tested
      rw [ok]
      exact ⟨rfl, rfl⟩
    · unfold tested
      rw [ok]
      exact ⟨rfl, rfl⟩
    · rw [rng]; exact List.getElem?_set_ne hk.symm
    · rw [rng]; exact ⟨rfl, rfl, rfl⟩
  · have served := serves_serve c distinct
    refine (answers_generateRequest idle (request_of_fresh seeded turn fresh) served rfl rfl).imp fun t quiet => ?_
    obtain ⟨requests, key, v, seed, pool, waiting, mem, store, life⟩ := unserved_served served
    have rng := quiet.rng
    refine ⟨(congrArg Rng.requests rng).trans requests, (congrArg Rng.key rng).trans key, (congrArg Rng.v rng).trans v,
      (congrArg Rng.seeded rng).trans (seed.trans seeded), quiet.mem.trans mem, quiet.store.trans store, quiet.life.trans life,
      fun f q => ?_, fun f q => ?_⟩
    · exact congrArg (·.find? q) ((quiet.jqs f).trans (served.2 f).1)
    · exact congrArg (·.find? q) ((quiet.cqs f).trans (served.2 f).2)
  · intro u distinct
    have calm := quiet_reseed w { s with rng := { s.rng with pool := rest } }
    have last : u.rng.last = s.rng.last := (congrArg Rng.last calm.rng :)
    have served := serves_serve (s := u) c (by rw [last]; exact distinct)
    refine (answers_generateRequest idle (request_of_due seeded turn due pool) served calm.mgmt calm.link).imp fun t quiet => ?_
    obtain ⟨requests, key, v, seed, pool, waiting, mem, store, life⟩ := unserved_served served
    have rng := quiet.rng
    have after := calm.rng
    exact ⟨(congrArg Rng.requests rng).trans (requests.trans (congrArg (fun r : Rng => r.requests + 1) after)),
      (congrArg Rng.pool rng).trans (pool.trans (congrArg Rng.pool after)),
      (congrArg Rng.waiting rng).trans (waiting.trans (congrArg Rng.waiting after)), (congrArg Rng.key rng).trans key,
      quiet.mem.trans (mem.trans calm.mem), quiet.store.trans (store.trans calm.store), quiet.life.trans (life.trans calm.life)⟩
  · obtain ⟨r, waits, key, requests, calm⟩ := quiet_beginWait s
    have made := request_of_starved seeded turn (decide_eq_true many) pool
    have wakes := wakeFirmware_of_nothing (nothingWaits_congr calm.mgmt calm.link idle)
    refine ⟨settle s (wakeFirmware (generateOrWait s)), rfl, ?_⟩
    rw [made, wakes]
    have quiet := calm.trans (quiet_settle s (beginWait s))
    have rng : (settle s (beginWait s)).rng = r := quiet.rng
    refine ⟨quiet_withRng quiet, ?_, ?_, ?_⟩ <;> rw [rng] <;> assumption
  · have resumes : resumeReseed s = reseed w { s with rng := { s.rng with pool := rest } } := by
      unfold resumeReseed
      rw [pool]
      exact if_pos waiting
    have calm := quiet_reseed w { s with rng := { s.rng with pool := rest } }
    have wakes := wakeFirmware_of_nothing (nothingWaits_congr calm.mgmt calm.link idle)
    refine ⟨settle s (wakeFirmware (resumeReseed s)), rfl, ?_⟩
    rw [resumes, wakes]
    have quiet := calm.trans (quiet_settle s _)
    have rng := quiet.rng
    exact ⟨quiet_withRng quiet, (congrArg Rng.waiting rng :), (congrArg Rng.requests rng :), (congrArg Rng.pool rng :),
      (congrArg Rng.reseeds rng :)⟩
  · have begun := restarted_restartGenerator cause s
    have wakes := wakeFirmware_of_nothing (nothingWaits_congr begun.mgmt begun.link idle)
    have ends := restarted_of_quiet begun (quiet_settle s (restartGenerator cause s))
    refine ⟨settle s (restartGenerator cause s), ?_, ends.salts, ends.requests, ends.unseeded, fun f _ => ends.buffers f, ends.mem, ends.jobs,
      ends.store, ends.life⟩
    show settled s (if s.rng.seeded then wakeFirmware (restartGenerator cause s) else s) = _
    rw [if_pos seeded, wakes]
    rfl
  · refine ⟨settle s s, ?_, quiet_settle s s⟩
    show settled s (if s.rng.seeded then wakeFirmware (restartGenerator cause s) else s) = _
    rw [if_neg (by simp [unseeded])]
    rfl

end Sys2Proof.Safety
end

section
/-!
PROOFS. Public-key results are held until the finish point, and their lengths (chapter 8, R256, R260, R263, R267).
-/

-- In turn: a proof that waits for others beside it takes a thread and its stack from the memory that the check allows.
set_option Elab.async false

namespace Sys2Proof.Safety

open Sys2Proof.Machine

/-! ## Taking a job off the engine (R275) -/

theorem of_computing {s : State} {r : JobRef} {op : Nat} {j : Job} (h : computing s r op = some j) :
    s.job? r = some j ∧ j.result = none ∧ (s.pk.cores.any fun c => decide (c.cur = some r)) = true := by
  unfold computing at h
  split at h
  · next k hk =>
    split at h
    · next fits =>
      cases h
      exact ⟨hk, fits.2.2.1, fits.2.2.2⟩
    · nomatch h
  · nomatch h

/-- A core of the engine without job `r`. -/
def withoutJob (r : JobRef) (c : PkCore) : PkCore :=
  if c.cur = some r then { c with cur := none, erased := c.erased + 1 }
  else if c.parked = some r then { c with parked := none, erased := c.erased + 1 } else c

theorem cur_withoutJob (r : JobRef) (c : PkCore) : (withoutJob r c).cur = if c.cur = some r then none else c.cur := by
  unfold withoutJob
  split
  · rfl
  · split <;> rfl

theorem withoutJob_of_not_holds {r : JobRef} {c : PkCore} (h : c.holds r = false) : withoutJob r c = c := by
  unfold PkCore.holds at h
  simp only [Bool.or_eq_false_iff, decide_eq_false_iff_not] at h
  obtain ⟨cur, parked⟩ := h
  unfold withoutJob
  rw [if_neg cur, if_neg parked]

/-- The engine after a job of it has left. -/
def pkWithout (r : JobRef) (p : Pk) : Pk :=
  { p with queue := p.queue.filter fun x => decide (x ≠ r), cores := p.cores.map (withoutJob r) }

theorem leavePk_of_held {r : JobRef} {s : State} (h : onCore r s = true) :
    leavePk r s = { modJob r eraseContext s with pk := pkWithout r s.pk } := by
  have held : (s.pk.cores.any fun c => c.holds r) = true := h
  unfold leavePk
  dsimp only
  rw [if_pos held]
  rfl

theorem core_withPk (s : State) (r : JobRef) (p : Pk) (hp : p.cores = s.pk.cores.map (withoutJob r)) (t : State) (ht : t.pk.cores = p.cores)
    (c : Nat) : t.core c = withoutJob r (s.core c) := by
  unfold State.core
  rw [ht, hp, List.getD_eq_getElem?_getD, List.getD_eq_getElem?_getD, List.getElem?_map]
  cases s.pk.cores[c]? <;> rfl

/-! ## Computing (R267) -/

theorem holdsResult_of_compute {i : Instr} {s : State} {r : JobRef} {op : Nat} {j : Job} {body : Job → State → Option PkResult}
    (hi : exec i s = compute r op body s) (hc : computing s r op = some j) : HoldsResult i j (body j s) s := by
  obtain ⟨hj, unknown, runs⟩ := of_computing hc
  obtain rfl := ref_of_job hj
  have step : exec i s = (match body j s with
      | some p => .next (modJob j.ref (fun k => { k with result := some p }) (drewFree s))
      | none => .next (drawAgain j s)) := by
    rw [hi]
    unfold compute
    rw [hc] <;> rfl
  unfold HoldsResult
  cases made : body j s with
  | some p =>
    rw [made] at step
    exact ⟨_, step, job_modJob_self hj, fun k hk => job_modJob_ne hk, rfl⟩
  | none =>
    rw [made] at step
    have held : onCore j.ref s = true := by
      obtain ⟨c, hc, cur⟩ := List.any_eq_true.mp runs
      exact List.any_eq_true.mpr ⟨c, hc, by unfold PkCore.holds; rw [cur]; rfl⟩
    have again : drawAgain j s = { modJob j.ref (fun k => { k with inA := j.inA, inB := j.inB }) (modJob j.ref eraseContext s) with
        pk := { pkWithout j.ref s.pk with queue := j.ref :: (pkWithout j.ref s.pk).queue } } := by
      unfold drawAgain
      rw [leavePk_of_held held]
      rfl
    rw [again] at step
    refine ⟨_, step, ⟨_, job_modJob_self (job_modJob_self hj), rfl, rfl, rfl⟩, fun k hk => ?_, rfl, fun c => ?_, rfl⟩
    · exact (job_modJob_ne hk).trans (job_modJob_ne hk)
    · rw [core_withPk s j.ref (pkWithout j.ref s.pk) rfl _ rfl, cur_withoutJob]
      split
      · exact fun e => nomatch e
      · assumption

/-! ## Lengths (R256, R260) -/

theorem length_nistSign {c : NistCurve} {d k : Nat} {h b : Bytes} {bl : Blind} (hs : c.sign d k h bl = some b) :
    b.length = 2 * c.len := by
  unfold NistCurve.sign at hs
  split at hs
  · nomatch hs
  · dsimp only at hs
    split at hs
    · nomatch hs
    · cases hs
      rw [List.length_append, length_ofBE, length_ofBE, Nat.two_mul]

theorem length_ecdsaSign {c : NistCurve} {d : Nat} {h b : Bytes} {bl : Blind} : ∀ {f : Nat} {rnd : Bytes},
    ecdsaSign c d h bl f rnd = some b → b.length = 2 * c.len
  | 0, _, hs => nomatch hs
  | f + 1, rnd, hs => by
    unfold ecdsaSign at hs
    split at hs
    · nomatch hs
    · split at hs
      · next signed =>
        cases hs
        exact length_nistSign signed
      · exact length_ecdsaSign hs

theorem length_edSign (alg : Nat) (seed pub ctx m : Bytes) (bl : Blind) : (edSign alg seed pub ctx m bl).length = 2 * (edCurve alg).len := by
  unfold edSign EdCurve.encode
  dsimp only
  rw [List.length_append, length_ofLE, length_ofLE, Nat.two_mul]

/-- A signature on a NIST or Edwards curve has its algorithm's length. -/
theorem length_pkSign {alg : Nat} {key rnd sig : Bytes} {m : Signed} {r : Rep} (k : Nat) (h : isP alg = true ∨ isEd alg = true)
    (hs : pkSign alg key m rnd r = some sig) : sig.length = sigLen alg k := by
  unfold pkSign at hs
  split at hs
  · next p =>
    rw [length_ecdsaSign hs]
    have range : alg = 0x08 ∨ alg = 0x09 ∨ alg = 0x0A := by
      unfold isP at p
      have := of_decide_eq_true p
      omega
    rcases range with rfl | rfl | rfl <;> rfl
  · next np =>
    have ed : isEd alg = true := h.resolve_left np
    rw [if_pos ed] at hs
    cases hs
    rw [length_edSign]
    have range : alg = 0x0B ∨ alg = 0x0C := by simpa [isEd] using ed
    rcases range with rfl | rfl <;> rfl

theorem signResult_length {j : Job} {s : State} {p : PkResult} (h : signResult j s = some p)
    (alg : pkAlg j.entry = rsa ∨ isP (pkAlg j.entry) = true ∨ isEd (pkAlg j.entry) = true) :
    p.out0.length = sigLen (pkAlg j.entry) (modBits j.entry / 8) ∧ p.done.r0 = sigLen (pkAlg j.entry) (modBits j.entry / 8) := by
  unfold signResult at h
  dsimp only at h
  split at h
  · next is =>
    cases h
    refine ⟨?_, rfl⟩
    rw [is]
    exact length_ofBE _ _
  · next no =>
    obtain ⟨sig, signed, rfl⟩ := Option.map_eq_some_iff.mp h
    exact ⟨length_pkSign _ (alg.resolve_left no) signed, rfl⟩

theorem keygenResult_rsa {j : Job} {s : State} {p : PkResult} (h : keygenResult j s = some p) (alg : pkAlg j.entry = rsa) :
    p.out0.length = modBits j.entry / 8 + 32 ∧ p.out0.drop (modBits j.entry / 8) = Bytes.ofBE 32 65537 := by
  unfold keygenResult at h
  rw [if_pos alg] at h
  obtain ⟨x, -, rfl⟩ := Option.map_eq_some_iff.mp h
  have out : (rsaKeygen j s x.1 x.2).out0 = Bytes.ofBE (modBits j.entry / 8) (rsaKeyOf x.1 x.2).n ++ Bytes.ofBE 32 65537 := rfl
  rw [out]
  refine ⟨by rw [List.length_append, length_ofBE, length_ofBE], ?_⟩
  exact List.drop_left' (length_ofBE _ _)

theorem verifyResult_eq (j : Job) : (verifyResult j).out0 = [] ∧ (verifyResult j).out1 = [] ∧
    (verifyResult j).done =
      if sigMalformed (pkAlg j.entry) (modBits j.entry / 8) (verifyKey j) (pkIn j 1) then { status := 0x31, detail := 2 }
      else if equationHolds j (verifyKey j) (pkIn j 0) (pkIn j 1) (pkIn j 3) then { status := okStatus j }
      else { status := 0x31, detail := 1 } := by
  unfold verifyResult modLen
  dsimp only
  split
  · exact ⟨rfl, rfl, rfl⟩
  · refine ⟨rfl, rfl, ?_⟩
    dsimp only
    split <;> rfl

/-- Settles O27. -/
theorem pkResultsAreHeldUntilTheFinish : Obligations.PkResultsAreHeldUntilTheFinish := by
  unfold Obligations.PkResultsAreHeldUntilTheFinish
  exact ⟨fun s r j hc => holdsResult_of_compute rfl hc,
    fun s r j hc => holdsResult_of_compute (body := fun j _ => some (verifyResult j)) rfl hc,
    fun s r j hc => holdsResult_of_compute rfl hc,
    fun s r j hc => holdsResult_of_compute (body := fun j s => some (secretResult j none (agreed j) s)) rfl hc,
    fun s r j hc => holdsResult_of_compute rfl hc,
    fun s r j hc => holdsResult_of_compute (body := fun j s => some (decapsResult j s)) rfl hc,
    fun j s p h alg => signResult_length h alg, fun j => verifyResult_eq j, fun j s p h alg => keygenResult_rsa h alg⟩

end Sys2Proof.Safety
end

section
/-!
PROOFS. A free core of the public-key engine takes a job, or brings its parked one back (chapter 8, R262 to R271).
-/

-- In turn: a proof that waits for others beside it takes a thread and its stack from the memory that the check allows.
set_option Elab.async false

namespace Sys2Proof.Safety

open Sys2Proof.Machine

/-! ## A fresh representation (R265, R266) -/

/-- `t` differs from `s` in what its mask generators have served. -/
def Masks (s t : State) : Prop := t = { s with fab := { s.fab with gens := t.fab.gens } }

theorem masks_drawMask (g n : Nat) (s : State) : Masks s (drawMask g n s).2 := rfl

theorem masks_remask (g : Nat) (k : Masked) (s : State) : Masks s (remask g k s).2 := rfl

theorem Masks.trans {s t u : State} (a : Masks s t) (b : Masks t u) : Masks s u := by
  unfold Masks at a b ⊢
  rw [b, a]

theorem masks_loadKeys (ga gb : Nat) (j : Job) (s : State) : Masks s (loadKeys ga gb j s).2 :=
  (masks_remask _ _ _).trans (masks_remask _ _ _)

theorem masks_present (j : Job) (s : State) : Masks s (present j s).2 :=
  .trans (t := passBlocks pkGen (Rep.blinds + Rep.shares) s) rfl (masks_loadKeys _ _ _ _)

theorem ref_present (j : Job) (s : State) : (present j s).1.ref = j.ref := rfl

/-! ## Cores -/

theorem core_modCore_self {c : Nat} (h : PkCore → PkCore) {s : State} (hc : c < s.pk.cores.length) :
    (modCore c h s).core c = h (s.core c) := by
  simp [State.core, modCore, hc]

theorem core_modCore_ne {c d : Nat} (h : PkCore → PkCore) (s : State) (hd : d ≠ c) : (modCore c h s).core d = s.core d := by
  simp [State.core, modCore, List.getElem?_set_ne hd.symm]

theorem core_congr {s t : State} (h : t.pk.cores = s.pk.cores) (c : Nat) : t.core c = s.core c := by
  unfold State.core
  rw [h]

theorem onCore_of_cur {s : State} {c : Nat} {r : JobRef} (hc : c < s.pk.cores.length) (h : (s.core c).cur = some r) : onCore r s = true := by
  have member : s.core c ∈ s.pk.cores := by
    unfold State.core
    rw [List.getD_eq_getElem _ _ hc]
    exact List.getElem_mem hc
  exact List.any_eq_true.mpr ⟨_, member, by unfold PkCore.holds; rw [h]; simp⟩

theorem core_leavePk (r : JobRef) (s : State) (c : Nat) : (leavePk r s).core c = withoutJob r (s.core c) := by
  have cores : (leavePk r s).pk.cores = s.pk.cores.map (withoutJob r) := by
    unfold leavePk
    dsimp only
    split <;> rfl
  exact core_withPk s r { s.pk with cores := s.pk.cores.map (withoutJob r) } rfl _ cores c

theorem queue_leavePk (r : JobRef) (s : State) : (leavePk r s).pk.queue = s.pk.queue.filter fun x => decide (x ≠ r) := by
  unfold leavePk
  dsimp only
  split <;> rfl

theorem not_mem_filter_ne (r : JobRef) (l : List JobRef) : r ∉ l.filter fun x => decide (x ≠ r) := fun h =>
  of_decide_eq_true (List.mem_filter.mp h).2 rfl

/-! ## A job put in the place of another of its name -/

theorem modJob_put {r : JobRef} {k : Job} (hk : k.ref = r) (s : State) :
    modJob r (fun _ => k) s = modJob r (fun j => { k with ref := j.ref }) s := by
  unfold modJob
  congr 1
  refine List.map_congr_left fun j _ => ?_
  split
  · next is =>
    dsimp only
    rw [is, ← hk]
  · rfl

theorem job_put_self {s : State} {r : JobRef} {j k : Job} (hj : s.job? r = some j) (hk : k.ref = r) :
    (modJob r (fun _ => k) s).job? r = some k := by
  rw [modJob_put hk, job_modJob_self hj, ref_of_job hj, ← hk]

theorem job_put_ne {s : State} {r x : JobRef} {k : Job} (hk : k.ref = r) (hx : x ≠ r) : (modJob r (fun _ => k) s).job? x = s.job? x := by
  rw [modJob_put hk, job_modJob_ne hx]

/-! ## The core and its new job -/

/-- The state in which core `c` holds job `j` under its fresh representation, before it is checked. -/
def taking (c : Nat) (j : Job) (s : State) : State :=
  modJob j.ref (fun _ => (present j s).1) (modCore c (fun x => { x with cur := some j.ref })
    { (present j s).2 with pk := { s.pk with queue := s.pk.queue.filter fun r => decide (r ≠ j.ref), turnFn := j.ref.fn } })

section Taking

variable {s : State} {c : Nat} {j : Job} (hc : c < s.pk.cores.length) (hj : s.job? j.ref = some j)

include hc

theorem core_taking : ((taking c j s).core c) = { s.core c with cur := some j.ref } :=
  core_modCore_self (s := { (present j s).2 with
    pk := { s.pk with queue := s.pk.queue.filter fun r => decide (r ≠ j.ref), turnFn := j.ref.fn } })
    (fun x => { x with cur := some j.ref }) hc

theorem onCore_taking : onCore j.ref (taking c j s) = true := by
  refine onCore_of_cur (c := c) ?_ (by rw [core_taking hc])
  show c < (s.pk.cores.set c _).length
  rw [List.length_set]
  exact hc

omit hc
include hj

theorem job_taking_self : (taking c j s).job? j.ref = some (present j s).1 := by
  have jobs := congrArg State.jobs (masks_present j s)
  exact job_put_self ((job_congr jobs j.ref).trans hj) rfl

omit hj

theorem job_taking_ne {r : JobRef} (hr : r ≠ j.ref) : (taking c j s).job? r = s.job? r := by
  have jobs := congrArg State.jobs (masks_present j s)
  exact (job_put_ne (k := (present j s).1) rfl hr).trans (job_congr jobs r)

theorem kept_taking : (taking c j s).mem = s.mem ∧ (taking c j s).store = s.store := by
  have mem := congrArg State.mem (masks_present j s)
  have store := congrArg State.store (masks_present j s)
  exact ⟨mem, store⟩

include hc

/-- R262, R263: a refused job's completion, decided in a state `u` that still has the job at the core, and its leaving. -/
theorem refused_leaves {u t : State} (d : Done) (cores : u.pk = (taking c j s).pk) (jobs : u.jobs = (taking c j s).jobs)
    (mem : u.mem = (taking c j s).mem) (hj : s.job? j.ref = some j)
    (calm : Quiet (leavePk j.ref (decideJob j.ref d u)) t) :
    (t.core c).cur = none ∧ j.ref ∉ t.pk.queue ∧ t.job? j.ref = some (eraseContext { (present j s).1 with outcome := some d }) ∧
      (∀ r, r ≠ j.ref → t.job? r = s.job? r) ∧ t.mem = s.mem ∧ t.store = u.store := by
  have held : onCore j.ref (decideJob j.ref d u) = true := by
    have taken := onCore_taking (s := s) (c := c) (j := j) hc
    unfold onCore at taken ⊢
    rw [decideJob_pk, cores]
    exact taken
  have named : u.job? j.ref = some (present j s).1 := (job_congr jobs _).trans (job_taking_self hj)
  have left := leavePk_of_held held
  have pk := calm.pk
  have after : ∀ r, t.job? r = (leavePk j.ref (decideJob j.ref d u)).job? r := fun r => job_congr calm.jobs r
  refine ⟨?_, ?_, ?_, fun r hr => ?_, ?_, ?_⟩
  · rw [core_congr (congrArg Pk.cores pk), core_leavePk, core_congr (s := taking c j s) (by rw [decideJob_pk, cores]),
      core_taking hc, cur_withoutJob]
    exact if_pos rfl
  · rw [congrArg Pk.queue pk, queue_leavePk]
    exact not_mem_filter_ne _ _
  · rw [after, left]
    exact job_modJob_self (h := eraseContext) (job_modJob_self (h := fun k => { k with outcome := some d }) named)
  · rw [after, left]
    exact (job_modJob_ne (h := eraseContext) hr).trans ((job_decideJob_ne u d hr).trans ((job_congr jobs r).trans (job_taking_ne hr)))
  · rw [calm.mem, left]
    exact mem.trans kept_taking.1
  · rw [calm.store, left]
    rfl

end Taking

theorem takeJob_eq (c : Nat) (j : Job) (s : State) :
    takeJob c j s =
      if keysDiffer (present j s).1 then
        leavePk j.ref (decideJob j.ref { status := Status.keyAbsent, detail := 0x02 } (markBad (present j s).1.slot (taking c j s)))
      else match inputRefusal (present j s).1 s.debug with
        | some d => leavePk j.ref (decideJob j.ref d (taking c j s))
        | none => taking c j s := rfl

/-- R269: a free core with no parked job due takes the job that is picked. -/
theorem pkJobStart_takes {s : State} {c : Nat} {j : Job} (active : (s.core c).st = .active) (free : (s.core c).cur = none)
    (serves : s.quiesced Block.pk = false) (fresh : resumeDue s (s.core c) = false)
    (picked : corePick s ((startable s).filter (mayTake s c)) = some j) :
    exec (.pkJobStart c) s = settled s (takeJob c j s) := by
  show execPkJobStart c s = _
  unfold execPkJobStart
  dsimp only
  rw [if_pos ⟨active, free, serves⟩, if_neg (by simp [fresh]), picked]

/-- Settles O28. -/
theorem coreTakesAJob : Obligations.CoreTakesAJob := by
  unfold Obligations.CoreTakesAJob
  refine ⟨fun s c j hc active free serves fresh hj picked => ?_, fun s c r hc active free serves parked due => ?_⟩
  · have takes := pkJobStart_takes active free serves fresh picked
    rw [takeJob_eq] at takes
    intro k
    refine ⟨fun same accepted => ?_, fun d same refused _ => ?_, fun differ _ => ?_⟩
    · rw [same, if_neg Bool.false_ne_true, accepted] at takes
      have calm := quiet_settle s (taking c j s)
      obtain ⟨mem, store⟩ := kept_taking (s := s) (c := c) (j := j)
      refine ⟨_, takes, ?_, ?_, ?_, ?_, fun r hr => ?_, calm.mem.trans mem, calm.store.trans store⟩
      · rw [core_congr (congrArg Pk.cores calm.pk), core_taking hc]
      · rw [congrArg Pk.queue calm.pk]
        exact not_mem_filter_ne _ _
      · rw [congrArg Pk.turnFn calm.pk]
        rfl
      · rw [job_congr calm.jobs, job_taking_self hj]
      · rw [job_congr calm.jobs, job_taking_ne hr]
    · rw [same, if_neg Bool.false_ne_true, refused] at takes
      have calm := quiet_settle s (leavePk j.ref (decideJob j.ref d (taking c j s)))
      obtain ⟨core, queue, named, others, mem, store⟩ := refused_leaves hc d rfl rfl rfl hj calm
      exact ⟨_, takes, core, queue, named, others, mem, store.trans kept_taking.2⟩
    · rw [differ, if_pos rfl] at takes
      have marks : Quiet (modSlot k.slot (fun x => { x with st := .bad, reloadDue := true }) (taking c j s))
          (markBad k.slot (taking c j s)) := ((quiet_bump _ _).trans (quiet_setErr _ _ _)).trans (quiet_record ..)
      have calm := quiet_settle s (leavePk j.ref (decideJob j.ref { status := 0x40, detail := 0x02 } (markBad k.slot (taking c j s))))
      obtain ⟨core, queue, named, others, mem, store⟩ :=
        refused_leaves hc { status := 0x40, detail := 0x02 } marks.pk marks.jobs marks.mem hj calm
      refine ⟨_, takes, core, queue, ?_, named, others, mem⟩
      have stored := store.trans marks.store
      unfold State.slot
      rw [stored]
      exact congrArg Slot.st (slot_modSlot_self (taking c j s) k.slot _)
  · have resumes : exec (.pkJobStart c) s = .next (resumeParked c s) := by
      show execPkJobStart c s = _
      unfold execPkJobStart
      dsimp only
      rw [if_pos ⟨active, free, serves⟩, if_pos due]
    have brings : resumeParked c s = modJob r (fun j => { j with parkedFor := parkedTime s (s.core c) j })
        (modCore c (fun x => { x with cur := some r, parked := none }) s) := by
      unfold resumeParked
      dsimp only
      rw [parked]
    rw [brings] at resumes
    exact ⟨_, resumes, core_modCore_self (fun x => { x with cur := some r, parked := none }) hc, rfl, fun k hk => job_modJob_ne hk, rfl⟩

end Sys2Proof.Safety
end

section
/-!
PROOFS. What drawing random bytes for custody firmware leaves alone (R289, R291), and FN_ALLOC and ATTEST (R161, R247).
-/

-- In turn: a proof that waits for others beside it takes a thread and its stack from the memory that the check allows.
set_option Elab.async false

namespace Sys2Proof.Safety

open Sys2Proof.Machine

/-! ## A draw changes the random source, and what it hands its other consumers (R291) -/

/-- A function without what signals write and without what the random source hands it. -/
def undrawnFn (g : Fn) : Fn := { stillFn g with rngBuf := [], rngStall := [] }

/-- A job without the random bytes handed to it. -/
def undrawnJob (j : Job) : Job := { j with draws := [], work := [] }

/-- A state without what signals write, the random source, and what that hands its consumers. -/
def undrawn (s : State) : State :=
  { still s with
    jobs := s.jobs.map undrawnJob
    rng := {}
    fab := { s.fab with gens := [] }
    red := { s.red with retryAt := none, conditions := 0 } }

/-- `t` differs from `s` in what the random source holds and hands its consumers, but for signals. -/
def Draws (s t : State) : Prop := undrawn t = undrawn s ∧ ∀ f, undrawnFn (t.fn f) = undrawnFn (s.fn f)

theorem Draws.refl (s : State) : Draws s s := ⟨rfl, fun _ => rfl⟩

theorem Draws.trans {s t u : State} (a : Draws s t) (b : Draws t u) : Draws s u :=
  ⟨b.1.trans a.1, fun f => (b.2 f).trans (a.2 f)⟩

theorem Draws.of_fns {s t : State} (h : undrawn t = undrawn s := by exact rfl) (fns : t.fns = s.fns := by exact rfl) : Draws s t :=
  ⟨h, fun f => by unfold State.fn; rw [fns]⟩

theorem Draws.of_quiet {s t : State} (q : Quiet s t) : Draws s t := by
  refine ⟨?_, fun f => congrArg (fun g : Fn => { g with rngBuf := [], rngStall := [] }) (q.2 f)⟩
  exact congrArg (fun x : State => { x with
    jobs := x.jobs.map undrawnJob, rng := {}, fab := { x.fab with gens := [] }, red := { x.red with retryAt := none } }) q.1

section
variable {s t : State} (d : Draws s t)
include d

theorem Draws.mem : t.mem = s.mem := (congrArg State.mem d.1 :)
theorem Draws.store : t.store = s.store := (congrArg State.store d.1 :)
theorem Draws.life : t.life = s.life := (congrArg State.life d.1 :)
theorem Draws.custody : t.custody = s.custody := (congrArg State.custody d.1 :)
theorem Draws.worlds : t.worlds = s.worlds := (congrArg State.worlds d.1 :)
theorem Draws.vesper : t.vesper = s.vesper := (congrArg State.vesper d.1 :)
theorem Draws.mgmt : t.mgmt = s.mgmt := (congrArg State.mgmt d.1 :)
theorem Draws.now : t.now = s.now := (congrArg (fun x : State => x.clock.meridian) d.1 :)
theorem Draws.force : t.dict.force = s.dict.force := (congrArg (fun x : State => x.dict.force) d.1 :)
theorem Draws.profiles : t.dict.profiles = s.dict.profiles := (congrArg (fun x : State => x.dict.profiles) d.1 :)
theorem Draws.log (f : Nat) : (t.fn f).log = (s.fn f).log := (congrArg Fn.log (d.2 f) :)
theorem Draws.run (f : Nat) : (t.fn f).run = (s.fn f).run := (congrArg Fn.run (d.2 f) :)
theorem Draws.jqs (f : Nat) : (t.fn f).jqs = (s.fn f).jqs := (congrArg Fn.jqs (d.2 f) :)
theorem Draws.jobs : t.jobs.map undrawnJob = s.jobs.map undrawnJob := (congrArg State.jobs d.1 :)

theorem Draws.frame : DrawFrame s t := ⟨d.mem, d.store, d.life, d.custody, d.force, d.now⟩

end

theorem draws_setFn (f : Nat) (g : Fn) (s : State) (h : undrawnFn g = undrawnFn (s.fn f) := by exact rfl) : Draws s (setFn f g s) := by
  refine ⟨rfl, fun k => ?_⟩
  rw [fn_setFn]
  split
  · next e => subst e; exact h
  · rfl

/-- A job given random bytes is otherwise the same. -/
theorem draws_modJob (r : JobRef) (h : Job → Job) (s : State) (same : ∀ j, undrawnJob (h j) = undrawnJob j := by intro _; rfl) :
    Draws s (modJob r h s) := by
  have jobs : (modJob r h s).jobs.map undrawnJob = s.jobs.map undrawnJob := by
    unfold modJob
    rw [List.map_map]
    refine List.map_congr_left fun j _ => ?_
    rw [Function.comp_apply]
    split
    · exact same j
    · rfl
  refine ⟨?_, fun _ => rfl⟩
  exact congrArg (fun l => { undrawn s with jobs := l }) jobs

theorem draws_serveReads (f : Nat) : ∀ (n : Nat) (s : State), Draws s (serveReads f n s)
  | 0, s => .refl s
  | n + 1, s => by
    unfold serveReads
    dsimp only
    split
    · exact .refl s
    · split
      · refine .trans ?_ (draws_serveReads f n _)
        exact .trans (draws_setFn f _ s) (.of_quiet (quiet_emit _ _))
      · exact draws_setFn f _ s

theorem draws_deliver (c : Consumer) (out : Bytes) (s : State) : Draws s (deliver c out s) := by
  unfold deliver
  cases c with
  | salts => exact .of_fns
  | firmware => exact .of_fns
  | draws r => exact draws_modJob r _ s
  | seed g => exact .of_fns
  | bytes f =>
    have turned : Draws s { s with rng := { s.rng with turn5 := f } } := .of_fns
    dsimp only
    split
    · refine turned.trans (.trans ?_ (draws_serveReads f _ _))
      exact draws_setFn f _ _
    · split
      · exact turned.trans (draws_modJob _ _ _)
      · exact turned

theorem draws_eraseGenerator (s : State) : Draws s (eraseGenerator s) :=
  ⟨rfl, fun f => fn_mapFns_proj undrawnFn (h := fun _ g => { g with rngBuf := [] }) (fun _ _ => rfl) s f⟩

theorem draws_restartNow (s : State) : Draws s (restartNow s) := by
  unfold restartNow
  split
  · split
    · exact .of_fns
    · exact .refl s
  · exact .refl s

theorem draws_restartGenerator (cause : Nat) (s : State) : Draws s (restartGenerator cause s) := by
  have restarts (u : State) (red : Redundancy) (h : { red with retryAt := none, conditions := 0 } = { u.red with retryAt := none, conditions := 0 }) :
      Draws u (restartNow (eraseGenerator { u with red := red })) := by
    refine .trans ?_ (draws_restartNow _)
    refine .trans (t := { u with red := red }) ?_ (draws_eraseGenerator _)
    exact ⟨congrArg (fun r => { undrawn u with red := r }) h, fun _ => rfl⟩
  have noted (u : State) (q : Quiet s u) (again : Bool) (red : Redundancy)
      (h : { red with retryAt := none, conditions := 0 } = { u.red with retryAt := none, conditions := 0 }) :
      Draws s (if again then escalate (restartNow (eraseGenerator { u with red := red })) else restartNow (eraseGenerator { u with red := red })) := by
    cases again with
    | false => exact (Draws.of_quiet q).trans (restarts u red h)
    | true => exact ((Draws.of_quiet q).trans (restarts u red h)).trans (.of_quiet (quiet_escalate _))
  unfold restartGenerator
  dsimp only
  refine noted _ (.trans ?_ (quiet_record ..)) _ _ rfl
  split
  · exact (quiet_bump _ _).trans (quiet_setErr _ _ _)
  · split
    · exact (quiet_bump _ _).trans (quiet_setErr _ _ _)
    · exact quiet_setErr _ _ _

theorem draws_noteGaps (c : Consumer) (s : State) : Draws s (noteGaps c s) := by
  unfold noteGaps
  exact .of_fns

theorem draws_generate (s : State) : Draws s (generate s).2 := by
  unfold generate
  exact .of_fns

theorem draws_serve (c : Consumer) (s : State) : Draws s (serve c s) := by
  unfold serve
  dsimp only
  split
  · exact draws_restartGenerator 1 s
  · exact ((draws_generate s).trans (draws_noteGaps c _)).trans (draws_deliver _ _ _)

theorem draws_reseed (w : Bytes) (s : State) : Draws s (reseed w s) :=
  .trans .of_fns (.of_quiet (quiet_reseed w s))

theorem draws_beginWait (s : State) : Draws s (beginWait s) := by
  obtain ⟨r, -, -, -, calm⟩ := quiet_beginWait s
  exact .trans (t := { s with rng := r }) .of_fns (.of_quiet calm)

theorem draws_request {s t : State} (h : request s = some t) : Draws s t := by
  unfold request at h
  split at h
  · exact absurd h (by simp)
  · split at h
    · exact absurd h (by simp)
    · split at h
      · split at h
        · exact absurd h (by simp)
        · next w rest hp =>
          refine Option.some.inj h ▸ .trans ?_ (draws_serve _ _)
          exact .trans (t := { s with rng := { s.rng with pool := rest } }) .of_fns (draws_reseed _ _)
      · exact Option.some.inj h ▸ draws_serve _ s

/-- What a draw comes to, with its value's property and the state left. -/
def DrawnWith {α : Type} (P : α → State → Prop) (s : State) (d : Drawn α) : Prop :=
  match d with
  | .ok (a, t) => P a t ∧ Draws s t
  | .error t => Draws s t

theorem DrawnWith.go {α β : Type} {P : α → State → Prop} {Q : β → State → Prop} {s : State} {d : Drawn α} {h : α → State → Drawn β}
    (a : DrawnWith P s d) (b : ∀ x t, P x t → Draws s t → DrawnWith Q t (h x t)) : DrawnWith Q s (d.go h) := by
  match d, a with
  | .error t, a => exact a
  | .ok (x, t), ⟨px, left⟩ =>
    have next := b x t px left
    show DrawnWith Q s (h x t)
    revert next
    match h x t with
    | .error u => exact fun next => left.trans next
    | .ok (y, u) => exact fun next => ⟨next.1, left.trans next.2⟩

/-- Firmware reads its bytes, or waits; either way the random source alone has changed. -/
theorem drawn_fwRead {α : Type} {take : Bytes → Option (α × Bytes)} {P : α → Prop}
    (h : ∀ b a r, take b = some (a, r) → P a) : ∀ (n : Nat) (s : State), DrawnWith (fun a _ => P a) s (fwRead take n s)
  | n, s => by
    have asked : Draws s (fwAsk s) := .of_fns
    unfold fwRead
    split
    · next a rest got => exact ⟨h _ _ _ got, .of_fns⟩
    · cases n with
      | zero => exact asked
      | succ n =>
        dsimp only
        split
        · next t made =>
          have rest := drawn_fwRead h n t
          have left := asked.trans (draws_request made)
          revert rest
          match fwRead take n t with
          | .error u => exact fun rest => left.trans rest
          | .ok (a, u) => exact fun rest => ⟨rest.1, left.trans rest.2⟩
        · split
          · exact asked.trans (draws_beginWait _)
          · exact asked

theorem drawn_fwRandom (n : Nat) (s : State) : DrawnWith (fun b _ => b.length = n) s (fwRandom n s) := by
  refine drawn_fwRead (fun b a r got => ?_) _ s
  split at got
  · exact absurd got (by simp)
  · next enough =>
    obtain ⟨rfl, -⟩ := Prod.mk.inj (Option.some.inj got)
    rw [List.length_take]
    omega

theorem drawn_fwKey (alg : Nat) (s : State) : DrawnWith (fun _ _ => True) s (fwKey alg s) :=
  drawn_fwRead (fun _ _ _ _ => trivial) _ s

theorem drawn_attSign (alg : Nat) (msg : Bytes) (s : State) : DrawnWith (fun _ _ => True) s (attSign alg msg s) :=
  (drawn_fwRead (P := fun _ => True) (fun _ _ _ _ => trivial) _ s).go fun _ _ _ _ => ⟨trivial, .of_fns⟩

theorem drawn_makeStatement (nonce : Bytes) (s : State) :
    DrawnWith (fun out _ => ∃ e m, out = statement (attPayload s nonce) e m) s (makeStatement nonce s) :=
  (drawn_attSign 1 _ s).go fun e t _ _ => (drawn_attSign 2 _ t).go fun m _ _ _ => ⟨⟨e, m, rfl⟩, .refl _⟩

theorem draws_fwRandom {n : Nat} {s u : State} {b : Bytes} (h : fwRandom n s = .ok (b, u)) : b.length = n ∧ Draws s u := by
  have is := drawn_fwRandom n s
  rw [h] at is
  exact is

/-! ## Signals that reach no function -/

theorem fns_acceptRecord (e : EventRec) (s : State) : (acceptRecord e s).fns = s.fns := by
  have rolled : (rollWindow s).fns = s.fns := by unfold rollWindow; split <;> rfl
  unfold acceptRecord
  split
  · rfl
  · dsimp only
    repeat' split
    all_goals exact rolled

/-- A record of level 0 reports nothing in AER (R423). -/
theorem fns_record_zero (code p0 p1 p2 p3 : Nat) (nested : Bool) (s : State) : (record code 0 p0 p1 p2 p3 nested s).fns = s.fns :=
  fns_acceptRecord _ s

/-- A step that changes neither LOCKED nor NO_PAIR sets no status event (R311). -/
theorem fns_settle {s t : State} (locked : s.locked = t.locked) (noPair : s.noPair = t.noPair) : (settle s t).fns = t.fns := by
  unfold settle
  split
  · rfl
  · dsimp only
    simp only [if_pos locked, if_pos noPair]
    unfold noteConditions
    split
    · rfl
    · exact fns_record_zero ..

theorem Quiet.decideJob {s t : State} (q : Quiet s t) (r : JobRef) (d : Done) :
    Quiet (Machine.decideJob r d s) (Machine.decideJob r d t) :=
  ⟨congrArg (Machine.decideJob r d) q.1, q.2⟩

/-- A command that ends in a state quiet after `u` completes as if in `u`. -/
theorem completes_of_quiet {i : Instr} {s u v : State} {j : Job} {d : Done} (h : exec i s = settled s (decideJob j.ref d v))
    (q : Quiet u v) : Completes i s j d u :=
  ⟨_, h, (q.decideJob _ _).trans (quiet_settle _ _)⟩

/-! ## FN_ALLOC (R161) -/

theorem exec_fnAlloc {s : State} {j : Job} (hj : s.admin? 0 Op.fnAlloc = some j) (rows : firstFail (allocRows s j.entry) = none) :
    exec .fnAlloc s = settled s (decideJob j.ref { status := Status.ok, r0 := j.entry.leAt 0x10 2 }
      (fnAdmin (j.entry.leAt 0x10 2) Op.fnAlloc (modFn (j.entry.leAt 0x10 2) (newFn j.entry) s))) := by
  show execFnAlloc s = _
  unfold execFnAlloc
  rw [runAdmin_of_admin _ hj, checked_of_none _ _ _ rows]

theorem range_of_allocRows {s : State} {e : Bytes} (rows : firstFail (allocRows s e) = none) :
    1 ≤ e.leAt 0x10 2 ∧ e.leAt 0x10 2 ≤ 2048 := by
  have range := row_of_firstFail rows (b := decide (e.leAt 0x10 2 < 1) || decide (e.leAt 0x10 2 > 2048)) (d := bad 0x12)
    (by simp [allocRows])
  simp at range
  omega

/-- Settles O33: a record of level 0 leaves the functions alone, and nothing the device settles changes. -/
theorem functionsAreAllocated : Obligations.FunctionsAreAllocated := by
  unfold Obligations.FunctionsAreAllocated
  intro s j hj rows f
  have ends := exec_fnAlloc hj rows
  have calm : Quiet (modFn f (newFn j.entry) s) (fnAdmin f Op.fnAlloc (modFn f (newFn j.entry) s)) := quiet_record ..
  obtain ⟨low, high⟩ := range_of_allocRows rows
  have fns : (settle s (decideJob j.ref { status := Status.ok, r0 := f } (fnAdmin f Op.fnAlloc (modFn f (newFn j.entry) s)))).fns =
      (modFn f (newFn j.entry) s).fns := by
    refine (fns_settle ?_ ?_).trans (fns_record_zero ..)
    · exact congrArg (fun l : Life => decide (l.lc = .locked)) calm.life.symm
    · exact congrArg (fun b : Fabric => !b.pairs.any fun p => p.counts.full) calm.fab.symm
  have others := fun g => congrArg (fun l : FMap Fn => l.getD g {}) fns
  have self := (others f).trans (fn_modFn_self (s := s) f (newFn j.entry))
  refine ⟨completes_of_quiet ends calm, _, ends, ?_⟩
  refine ⟨congrArg Fn.run self, congrArg Fn.tenant self, congrArg Fn.jqN self, congrArg Fn.cqN self, congrArg Fn.vecN self,
    congrArg Fn.skN self, congrArg Fn.quota self, congrArg Fn.share self, congrArg Fn.qosMin self, congrArg Fn.qosCeil self,
    congrArg Fn.qosWeight self, congrArg Fn.jqs self, congrArg Fn.cqs self, congrArg Fn.vecs self, low, high, fun g other => ?_⟩
  exact congrArg stillFn ((others g).trans (fn_modFn_ne s (newFn j.entry) other))

/-! ## ATTEST (R247, R248) -/

theorem exec_attest {s t : State} {f op : Nat} {j : Job} {i : Instr} {d : Option Done} {out : Bytes}
    (is : exec i s = runAttest f op s) (hj : s.admin? f Op.attest = some j) (hop : attOp j.entry = op)
    (by_ : attestBy j.entry s = (d, out, t)) :
    exec i s = match d with
      | some d => settled s (decideJob j.ref d (if out.isEmpty then t else hostWrite f (j.entry.leAt 0x18 8) out t))
      | none => settled s (if out.isEmpty then t else hostWrite f (j.entry.leAt 0x18 8) out t) := by
  rw [is]
  unfold runAttest
  cases d with
  | some d =>
    refine runAdminSteps_of_done hj ?_
    dsimp only
    rw [if_neg (not_not_intro hop), by_]
  | none =>
    refine runAdminSteps_of_wait hj ?_
    dsimp only
    rw [if_neg (not_not_intro hop), by_]

/-- An output of ATTEST is answered when it fits, and refused when it does not. -/
theorem attestGives {s u : State} {f op : Nat} {j : Job} {i : Instr} {out : Bytes}
    (is : exec i s = runAttest f op s) (hj : s.admin? f Op.attest = some j) (hop : attOp j.entry = op)
    (by_ : attestBy j.entry s = attAnswer j.entry out u) : AttestGives i s u f j out := by
  unfold AttestGives
  unfold attAnswer at by_
  split
  · next fits =>
    rw [if_neg (by omega)] at by_
    exact completes_of_exec (exec_attest is hj hop by_)
  · next long =>
    rw [if_pos (by omega)] at by_
    exact completes_of_exec (exec_attest is hj hop by_)

/-- Settles O40: what a statement draws, and the output ATTEST gives of it or of a chain. -/
theorem attestAnswers : Obligations.AttestAnswers := by
  unfold Obligations.AttestAnswers
  refine ⟨?_, fun s f j hj hop rows => ?_, fun s f j hj hop rows => ?_⟩
  · intro s f j hj hop rows nonce
    have by_ : attestBy j.entry s = answered (makeStatement nonce s) (attAnswer j.entry) := by
      unfold attestBy
      rw [rows]
      exact if_pos hop
    have drawn := drawn_makeStatement nonce s
    revert by_ drawn
    match makeStatement nonce s with
    | .ok (out, u) =>
      intro by_ ⟨is, left⟩
      exact ⟨attestGives (by rfl) hj hop by_, left.frame, is⟩
    | .error u =>
      intro by_ left
      exact ⟨⟨_, exec_attest (by rfl) hj hop by_, quiet_settle _ _⟩, left.frame⟩
  · refine attestGives (by rfl) hj hop ?_
    unfold attestBy
    rw [rows, hop]
    rfl
  · refine attestGives (by rfl) hj hop ?_
    unfold attestBy
    rw [rows, hop]
    rfl

end Sys2Proof.Safety
end

section
/-!
PROOFS. Ceremonies open, count approvals, execute, are cancelled and expire (R226 to R233).
-/

-- In turn: a proof that waits for others beside it takes a thread and its stack from the memory that the check allows.
set_option Elab.async false

namespace Sys2Proof.Safety

open Sys2Proof.Machine

/-! ## States that agree but for signals stay so -/

theorem Quiet.symm {s t : State} (q : Quiet s t) : Quiet t s := ⟨q.1.symm, fun f => (q.2 f).symm⟩

/-- What touches neither signals nor functions takes quiet states to quiet states. -/
theorem Quiet.map {s t : State} (q : Quiet s t) (g : State → State) (calm : ∀ x, still (g x) = g (still x) := by exact fun _ => rfl)
    (fns : ∀ x, (g x).fns = x.fns := by exact fun _ => rfl) : Quiet (g s) (g t) := by
  refine ⟨?_, fun f => ?_⟩
  · rw [calm, calm, q.1]
  · have part (x : State) : (g x).fn f = x.fn f := by unfold State.fn; rw [fns]
    rw [part, part]
    exact q.2 f

theorem Quiet.setFn {s t : State} (q : Quiet s t) (f : Nat) (g : Fn) : Quiet (Machine.setFn f g s) (Machine.setFn f g t) := by
  refine ⟨q.1, fun k => ?_⟩
  rw [fn_setFn, fn_setFn]
  split
  · rfl
  · exact q.2 k

theorem Quiet.mergeDirty {s t : State} (q : Quiet s t) (fns : t.fns = s.fns) (f : Nat) :
    Quiet (Machine.mergeDirty f s) (Machine.mergeDirty f t) := by
  have fn : t.fn f = s.fn f := by unfold State.fn; rw [fns]
  unfold Machine.mergeDirty
  rw [fn, q.mem]
  split
  · exact q
  · next l _ =>
    have moved := (q.map fun x => { x with mem := (l.cache.foldl (mergeWord l) (s.mem, 0)).1 }).setFn f
      { s.fn f with log := some { l with cache := [], count := l.count + (l.cache.foldl (mergeWord l) (s.mem, 0)).2 } }
    unfold modFn
    dsimp only
    rw [show ({ t with mem := (l.cache.foldl (mergeWord l) (s.mem, 0)).1 } : State).fn f = s.fn f from fn]
    exact moved

theorem Quiet.hostWrite {s t : State} (q : Quiet s t) (fns : t.fns = s.fns) (f a : Nat) (b : Bytes) :
    Quiet (Machine.hostWrite f a b s) (Machine.hostWrite f a b t) := by
  have fn : ({ t with mem := Memory.putAll t.mem (hostKey f a) b } : State).fn f =
      ({ s with mem := Memory.putAll s.mem (hostKey f a) b } : State).fn f := by unfold State.fn; rw [fns]
  have written : Quiet { s with mem := Memory.putAll s.mem (hostKey f a) b } { t with mem := Memory.putAll t.mem (hostKey f a) b } :=
    q.map fun x => { x with mem := Memory.putAll x.mem (hostKey f a) b }
  unfold Machine.hostWrite logWrite
  rw [fn]
  split
  · exact written
  · split
    · exact written
    · dsimp only
      unfold modFn
      rw [fn]
      rw [show dirtyCacheUse (Machine.setFn f _ { t with mem := Memory.putAll t.mem (hostKey f a) b }) =
        dirtyCacheUse (Machine.setFn f _ { s with mem := Memory.putAll s.mem (hostKey f a) b }) from by
          unfold dirtyCacheUse Machine.setFn; rw [fns]]
      split
      · exact (written.setFn f _).mergeDirty (by unfold Machine.setFn; rw [fns]) f
      · exact written.setFn f _

theorem Quiet.sendFrames {s t : State} (q : Quiet s t) (r : SessPath) (fs : List Bytes) :
    Quiet (Machine.sendFrames r fs s) (Machine.sendFrames r fs t) := by
  have up : t.portUp = s.portUp := (congrArg State.portUp q.1 :)
  have runs : t.secureRuns = s.secureRuns := (congrArg State.secureRuns q.1 :)
  have room : routeRoom t r fs = routeRoom s r fs := by
    unfold routeRoom relayUse
    rw [q.mgmt]
  unfold Machine.sendFrames
  cases r with
  | port mac =>
    dsimp only
    rw [up]
    split
    · have sent (x : State) : Quiet x (fs.foldl (fun s f => emit (.frame (ethFrame mac f)) s) x) :=
        quiet_fold (fun f s => emit (.frame (ethFrame mac f)) s) (fun _ _ => quiet_emit _ _) fs x
      exact (((sent s).symm.trans q).trans (sent t)).map
        fun x => { x with regs := { x.regs with mpTx := min (x.regs.mpTx + fs.length) 0xFFFFFFFF } }
    · exact q
  | relay ch =>
    dsimp only
    rw [room, runs]
    split
    · exact q.map fun x => { x with
        mgmt := { x.mgmt with relay := x.mgmt.relay.set ch (x.mgmt.relay.getD ch [] ++ fs) }
        regs := { x.regs with mpTx := min (x.regs.mpTx + fs.length) 0xFFFFFFFF } }
    · exact q

theorem Quiet.session? {s t : State} (q : Quiet s t) (id : Nat) : t.session? id = s.session? id := by
  unfold State.session?
  rw [q.mgmt]

theorem Quiet.flushSession (id : Nat) : ∀ (l : List Reply) {s t : State}, Quiet s t →
    Quiet (Machine.flushSession id l s) (Machine.flushSession id l t)
  | [], _, _, q => q.map (modSession id fun x => { x with waiting := [] })
  | m :: r, s, t, q => by
    have room (x : SessPath) (fs : List Bytes) : routeRoom t x fs = routeRoom s x fs := by
      unfold routeRoom relayUse
      rw [q.mgmt]
    unfold Machine.flushSession
    rw [q.session?, q.now]
    split
    · exact q
    · next x _ =>
      dsimp only
      rw [room]
      split
      · exact Quiet.flushSession id r ((q.map (modSession id _)).sendFrames _ _)
      · exact q.map (modSession id fun x => { x with waiting := m :: r })

theorem Quiet.respond {s t : State} (q : Quiet s t) (id : Nat) (d : Done) (out : Bytes) :
    Quiet (Machine.respond id d out s) (Machine.respond id d out t) := by
  unfold Machine.respond
  rw [q.session?]
  split
  · exact q
  · split
    · exact q
    · next p _ =>
      have moved := q.map (modSession id fun x => { x with lastId := some p.id, lastResp := responseBytes p d out })
      unfold sendReply
      dsimp only
      rw [moved.session?]
      split
      · exact moved
      · exact Quiet.flushSession id _ moved

theorem Quiet.job? {s t : State} (q : Quiet s t) (r : JobRef) : t.job? r = s.job? r := by
  unfold State.job?
  rw [q.jobs]

/-- The caller of a ceremony is answered alike in states that agree but for signals, where nothing is written for it. -/
theorem Quiet.answerCaller {s t : State} (q : Quiet s t) (c : Option Caller) (d : Done) :
    Quiet (Machine.answerCaller c d [] s) (Machine.answerCaller c d [] t) := by
  unfold Machine.answerCaller
  split
  · exact q
  · rw [q.job?]
    split
    · split
      · exact q.decideJob _ _
      · exact q
    · exact q
  · exact q.respond _ _ _

/-- ... or where the signals reach no function. -/
theorem Quiet.answerCaller_of_fns {s t : State} (q : Quiet s t) (fns : t.fns = s.fns) (c : Option Caller) (d : Done) (out : Bytes) :
    Quiet (Machine.answerCaller c d out s) (Machine.answerCaller c d out t) := by
  unfold Machine.answerCaller
  split
  · exact q
  · rw [q.job?]
    split
    · split
      · refine Quiet.decideJob ?_ _ _
        split
        · exact q
        · exact q.hostWrite fns _ _ _
      · exact q
    · exact q
  · exact q.respond _ _ _

theorem quiet_ceremonyRecord (c : Ceremony) (how : Nat) (s : State) : Quiet s (ceremonyRecord c how s) := quiet_record ..

/-- A ceremony that closes answers its caller. -/
theorem quiet_closeCeremony {s : State} {c : Ceremony} (h : s.custody.cer = some c) (how : Nat) (d : Done) :
    Quiet (answerCaller c.caller d [] (withCer none s)) (closeCeremony how d s) := by
  unfold closeCeremony
  rw [h]
  exact quiet_record ..

/-! ## What answering a caller leaves alone -/

/-- A state without the jobs, and without what the management port holds and sends. -/
def offPort (s : State) : State := { s with jobs := [], mgmt := {}, regs := { s.regs with mpTx := 0 }, out := [] }

theorem offPort_sendFrames (r : SessPath) (fs : List Bytes) (s : State) : offPort (sendFrames r fs s) = offPort s := by
  have sent : ∀ (l : List Bytes) (mac : Bytes) (x : State), offPort (l.foldl (fun s f => emit (.frame (ethFrame mac f)) s) x) = offPort x := by
    intro l mac
    induction l with
    | nil => exact fun _ => rfl
    | cons f l ih => exact fun x => ih _
  unfold sendFrames
  cases r with
  | port mac =>
    dsimp only
    split
    · exact sent fs mac s
    · rfl
  | relay ch =>
    dsimp only
    split <;> rfl

theorem offPort_flushSession (id : Nat) : ∀ (l : List Reply) (s : State), offPort (flushSession id l s) = offPort s
  | [], _ => rfl
  | m :: r, s => by
    unfold flushSession
    split
    · rfl
    · dsimp only
      split
      · exact (offPort_flushSession id r _).trans (offPort_sendFrames _ _ _)
      · rfl

theorem offPort_respond (id : Nat) (d : Done) (out : Bytes) (s : State) : offPort (respond id d out s) = offPort s := by
  unfold respond
  split
  · rfl
  · split
    · rfl
    · unfold sendReply
      dsimp only
      split
      · rfl
      · exact offPort_flushSession id _ _

theorem offPort_decideJob (r : JobRef) (d : Done) (s : State) : offPort (decideJob r d s) = offPort s := rfl

theorem offPort_answerCaller (c : Option Caller) (d : Done) (s : State) : offPort (answerCaller c d [] s) = offPort s := by
  unfold answerCaller
  split
  · rfl
  · split
    · split <;> rfl
    · rfl
  · exact offPort_respond _ _ _ _

/-- A caller answered without output: jobs, sessions and frames alone change. -/
theorem cerFrame_of_offPort {s t : State} (h : offPort t = offPort s) : CerFrame s t :=
  ⟨(congrArg State.mem h :), (congrArg State.store h :), (congrArg State.life h :), (congrArg (fun x : State => x.custody.roles) h :),
    (congrArg (fun x : State => x.custody.quorumM) h :), (congrArg (fun x : State => x.dict.force) h :),
    (congrArg (fun x : State => x.dict.profiles) h :), (congrArg State.vesper h :)⟩

theorem CerFrame.of_quiet {s t u : State} (h : CerFrame s t) (q : Quiet t u) : CerFrame s u := by
  obtain ⟨mem, store, life, roles, need, force, profiles, vesper⟩ := h
  exact ⟨q.mem.trans mem, q.store.trans store, q.life.trans life, (congrArg Custody.roles q.custody).trans roles,
    (congrArg Custody.quorumM q.custody).trans need, q.force.trans force, q.profiles.trans profiles, q.vesper.trans vesper⟩

theorem cerFrame_decideJob {s t : State} (h : CerFrame s t) (r : JobRef) (d : Done) : CerFrame s (decideJob r d t) := h

/-- A ceremony that is gone, whoever is answered: nothing else changes but for signals. -/
theorem closed_frame {s t u : State} (off : offPort u = offPort (withCer none s)) (q : Quiet u t) :
    t.custody = { s.custody with cer := none } ∧ CerFrame s t := by
  have frame : CerFrame (withCer none s) u := cerFrame_of_offPort off
  exact ⟨q.custody.trans (congrArg State.custody off :), CerFrame.of_quiet frame q⟩

/-! ## The commands of PF0's admin queue -/

theorem cer_of_named {s : State} {e : Bytes} {c : Ceremony} (h : s.named e = some c) : s.custody.cer = some c :=
  (Option.filter_eq_some_iff.mp h).1

theorem modCer_of_cer {s : State} {c : Ceremony} (h : s.custody.cer = some c) (g : Ceremony → Ceremony) :
    modCer g s = withCer (some (g c)) s := by
  unfold modCer
  rw [h]
  rfl

/-- A command of CEREMONY that is done completes. -/
theorem exec_ceremony_done {s t : State} {op : Nat} {i : Instr} {j : Job} {d : Done} {body : Job → State → Option Done × State}
    (is : exec i s = runCeremony op body s) (hj : s.admin? 0 Op.ceremony = some j) (hop : cerOp j.entry = op)
    (done : body j s = (some d, t)) : exec i s = settled s (decideJob j.ref d t) := by
  rw [is]
  exact runAdminSteps_of_done hj ((if_pos hop).trans done)

theorem exec_ceremony_wait {s t : State} {op : Nat} {i : Instr} {j : Job} {body : Job → State → Option Done × State}
    (is : exec i s = runCeremony op body s) (hj : s.admin? 0 Op.ceremony = some j) (hop : cerOp j.entry = op)
    (waits : body j s = (none, t)) : exec i s = settled s t := by
  rw [is]
  exact runAdminSteps_of_wait hj ((if_pos hop).trans waits)

theorem answers_settled {i : Instr} {s u v : State} (h : exec i s = settled s v) (q : Quiet u v) : Answers i s (Quiet u) :=
  ⟨_, h, q.trans (quiet_settle _ _)⟩

/-! ## EXECUTE (R225, R232, R236) -/

theorem executeGo_eq {s : State} {e : Bytes} {c : Ceremony} {who : Caller} (rsv : cerRsv e = false) (named : s.named e = some c)
    (other : c.caller ≠ some who) :
    executeGo who e s =
      if c.stage ≠ .gathering ∨ s.now ≥ c.expires ∨ callerAlive s c.caller = true then refuse (bad 0x31) s
      else if quorumHeld s c then ((startAction who c s).1, [], (startAction who c s).2)
      else if e.at_ 0x11 = 1 then (none, [], withCer (some { c with caller := some who }) s)
      else refuse { status := Status.quorumRequired, detail := 0x01 } s := by
  unfold executeGo
  rw [rsv, named, modCer_of_cer (cer_of_named named)]
  dsimp only
  rw [if_neg Bool.false_ne_true, if_neg other]

theorem startRefusal_eq (s : State) (c : Ceremony) :
    startRefusal s c =
      if c.action = Act.unlock ∧ alarmPersists s = true then some { status := Status.unavailable, detail := 0x05 }
      else if c.action = Act.debugEnter ∧ s.boot.testEn = false then some { status := Status.unavailable, detail := 0x06 }
      else none := by
  unfold startRefusal firstFail
  cases alarmPersists s <;> cases s.boot.testEn <;> simp [firstFail, Act.unlock, Act.debugEnter]

/-- Settles O42: EXECUTE's checks in their order. -/
theorem executeNeedsTheQuorum : Obligations.ExecuteNeedsTheQuorum := by
  unfold Obligations.ExecuteNeedsTheQuorum
  intro s j c hj hop rsv named other
  have cer := cer_of_named named
  have done {d : Done} {t : State} (go : executeGo (.admin j.ref) j.entry s = (some d, [], t)) : Completes .ceremonyExecute s j d t :=
    completes_of_exec (exec_ceremony_done (by rfl) hj hop (congrArg (adminAnswer j (cerOut j.entry)) go))
  have waits {u t : State} (go : executeGo (.admin j.ref) j.entry s = (none, [], t)) (q : Quiet u t) :
      Answers .ceremonyExecute s (Quiet u) :=
    answers_settled (exec_ceremony_wait (by rfl) hj hop (congrArg (adminAnswer j (cerOut j.entry)) go)) q
  have go := executeGo_eq rsv named other
  split
  · next refused => exact done (go.trans (if_pos refused))
  next gathers =>
  replace go := go.trans (if_neg gathers)
  split
  · next held =>
    replace go := go.trans (if_pos held)
    have starts := startRefusal_eq s c
    unfold startAction at go
    split
    · next alarm =>
      rw [starts.trans (if_pos alarm), modCer_of_cer cer] at go
      exact done go
    next calm =>
    replace starts := starts.trans (if_neg calm)
    split
    · next low =>
      rw [starts.trans (if_pos low), modCer_of_cer cer] at go
      exact done go
    · next high =>
      rw [starts.trans (if_neg high)] at go
      dsimp only at go
      rw [modCer_of_cer cer] at go
      exact waits go (quiet_ceremonyRecord ..)
  next short =>
  replace go := go.trans (if_neg short)
  split
  · next asks => exact waits (go.trans (if_pos asks)) (.refl _)
  · next ends => exact done (go.trans (if_neg ends))

/-! ## APPROVE (R230, R231) -/

theorem exec_approve {s t : State} {j : Job} {d : Done} (hj : s.admin? 0 Op.approve = some j)
    (rows : firstFail (apprRows s j.entry false) = none) (read : j.reads = .arrived)
    (go : approveGo false j.entry (j.input 0 s) s = (some d, [], t)) : exec .approve s = settled s (decideJob j.ref d t) := by
  show execApprove s = _
  unfold execApprove
  refine runAdminSteps_of_done hj ?_
  dsimp only
  rw [rows]
  dsimp only
  unfold afterReads
  rw [if_pos read]
  dsimp only
  rw [go]

theorem approveGo_eq {s : State} {e sig : Bytes} {c : Ceremony} (rows : firstFail (apprRows s e false) = none)
    (takes : approvable s e = some c) :
    approveGo false e sig s =
      match (approvers s c (apprWho e)).find? (fun a => verifySig a.2.1 false a.2.2 (approvalTbs c.challenge (apprWho e) (apprDecision e)) sig) with
      | none => apprRefused e (denied 0x0A) s
      | some a =>
        if apprDecision e = 2 then
          (some { status := Status.ok }, [], closeCeremony 3 { status := Status.quorumRequired, detail := 0x03 } (apprRecord e 2 0 s))
        else if c.approvals.contains a.1 then (some { status := Status.ok, detail := 0x01 }, [], apprRecord e 1 1 s)
        else (some { status := Status.ok }, [],
          wakeExecute (modCer (fun c => { c with approvals := c.approvals ++ [a.1] }) (apprRecord e 1 0 s))) := by
  unfold approveGo
  rw [rows, takes] <;> rfl

theorem quiet_apprRecord (e : Bytes) (how detail : Nat) (s : State) : Quiet s (apprRecord e how detail s) := quiet_record ..

theorem quiet_withCer {s t : State} (q : Quiet s t) (k : Option Ceremony) : Quiet (withCer k s) (withCer k t) :=
  q.map (withCer k)

theorem callerAlive_congr {s t : State} (q : Quiet s t) (c : Option Caller) : callerAlive t c = callerAlive s c := by
  unfold callerAlive
  split
  · rfl
  · rw [q.job?]
  · rfl

theorem cer_of_approvable {s : State} {e : Bytes} {c : Ceremony} (h : approvable s e = some c) :
    s.custody.cer = some c ∧ c.stage = .gathering := by
  obtain ⟨cer, takes⟩ := Option.filter_eq_some_iff.mp h
  simp only [Bool.and_eq_true, decide_eq_true_eq] at takes
  exact ⟨cer, takes.1.2⟩

/-- An EXECUTE whose quorum is now held, and which is still in progress, starts (R232). -/
theorem wakeExecute_starts {s : State} {k : Ceremony} (cer : s.custody.cer = some k) (gathers : k.stage = .gathering)
    (held : quorumHeld s k = true) (alive : callerAlive s k.caller = true) (clear : startRefusal s k = none) :
    Quiet (withCer (some { k with stage := .executing }) s) (wakeExecute s) := by
  unfold wakeExecute
  rw [cer]
  dsimp only
  split
  · next none => rw [none] at alive; exact absurd alive (by simp [callerAlive])
  · next who is =>
    rw [if_pos ⟨gathers, held, alive⟩]
    unfold startAction
    rw [clear]
    dsimp only
    rw [modCer_of_cer cer, ← is]
    exact quiet_ceremonyRecord ..

/-- ... and one that lacks its quorum or has ended does not. -/
theorem wakeExecute_rests {s : State} {k : Ceremony} (cer : s.custody.cer = some k)
    (rests : ¬(quorumHeld s k = true ∧ callerAlive s k.caller = true ∧ k.caller ≠ none)) : wakeExecute s = s := by
  unfold wakeExecute
  rw [cer]
  dsimp only
  split
  · rfl
  · next who is =>
    rw [if_neg]
    exact fun h => rests ⟨h.2.1, h.2.2, by rw [is]; simp⟩

/-- Settles O43: the checks, the decision and the count of an APPROVE. -/
theorem approvalsCount : Obligations.ApprovalsCount := by
  unfold Obligations.ApprovalsCount
  refine ⟨fun s j d hj fails => ?_, fun s j c hj rows read takes => ?_⟩
  · refine completes_of_quiet (v := apprRecord j.entry 3 d.detail s) ?_ (quiet_apprRecord ..)
    show execApprove s = _
    unfold execApprove
    refine runAdminSteps_of_done hj ?_
    dsimp only
    rw [fails]
    rfl
  · obtain ⟨cer, gathers⟩ := cer_of_approvable takes
    have go := approveGo_eq (sig := j.input 0 s) rows takes
    have done {d : Done} {u t : State} (go : approveGo false j.entry (j.input 0 s) s = (some d, [], t)) (q : Quiet u t) :
        Completes .approve s j d u := completes_of_quiet (exec_approve hj rows read go) q
    split
    · next missing =>
      rw [missing] at go
      exact done go (quiet_apprRecord ..)
    · next a found =>
      rw [found] at go
      dsimp only at go
      intro k
      have noted := quiet_apprRecord j.entry 1 0 s
      split
      · next rejects =>
        have calm := quiet_apprRecord j.entry 2 0 s
        refine done (go.trans (if_pos rejects)) (.trans ?_ (quiet_closeCeremony ((congrArg Custody.cer calm.custody).trans cer) _ _))
        exact (quiet_withCer calm none).answerCaller _ _
      next approves =>
      replace go := go.trans (if_neg approves)
      split
      · next again => exact done (go.trans (if_pos again)) (quiet_apprRecord ..)
      next first =>
      replace go := go.trans (if_neg first)
      rw [modCer_of_cer ((congrArg Custody.cer noted.custody).trans cer)] at go
      have kept := quiet_withCer noted (some k)
      have held : quorumHeld (withCer (some k) (apprRecord j.entry 1 0 s)) k = quorumHeld s k := (congrArg (quorumHeld · k) noted.1 :)
      have alive : callerAlive (withCer (some k) (apprRecord j.entry 1 0 s)) c.caller = callerAlive s c.caller := callerAlive_congr noted c.caller
      have refusal : startRefusal (withCer (some k) (apprRecord j.entry 1 0 s)) k = startRefusal s k := (congrArg (startRefusal · k) noted.1 :)
      split
      · next starts =>
        obtain ⟨full, lives, -⟩ := starts
        intro clear
        refine done go (.trans ?_ (wakeExecute_starts rfl gathers (held.trans full) (alive.trans lives) (refusal.trans clear)))
        exact quiet_withCer noted (some { k with stage := .executing })
      · next rests =>
        rw [wakeExecute_rests rfl (by rw [held]; exact fun h => rests ⟨h.1, alive.symm.trans h.2.1, h.2.2⟩)] at go
        exact done go kept

/-! ## OPEN (R226 to R229) -/

theorem toLE_ofLE : ∀ (k n : Nat), Bytes.toLE (Bytes.ofLE k n) = n % 256 ^ k
  | 0, n => by rw [Nat.pow_zero, Nat.mod_one]; rfl
  | k + 1, n => by
    show (BitVec.ofNat 8 n).toNat + 256 * Bytes.toLE (Bytes.ofLE k (n / 256)) = _
    rw [toLE_ofLE k, Nat.pow_succ, Nat.mul_comm (256 ^ k), Nat.mod_mul]
    rfl

/-- A number at the end of a message, as it was written there. -/
theorem leAt_last {a : Bytes} {o k n : Nat} (ha : a.length = o) : Bytes.leAt (a ++ Bytes.ofLE k n) o k = n % 256 ^ k := by
  unfold Bytes.leAt
  rw [slice_append_right ha (length_ofLE k n), toLE_ofLE]

theorem length_flatMap_ofBE {w : Nat} (k : Nat) : ∀ l : List (BitVec w), (l.flatMap fun x => Bytes.ofBE k x.toNat).length = k * l.length
  | [] => by simp
  | x :: l => by rw [List.flatMap_cons, List.length_append, length_ofBE, length_flatMap_ofBE k l, List.length_cons, Nat.mul_succ, Nat.add_comm]

theorem length_rounds {w : Nat} (f : ShaFamily w) : ∀ (ks win : List (BitVec w)) (x : ShaWork w), x.1.length = 4 → x.2.length = 4 →
    (f.rounds ks win x).1.length = 4 ∧ (f.rounds ks win x).2.length = 4
  | [], _, _, a, b => ⟨a, b⟩
  | k :: ks, win, x, a, b => by
    unfold ShaFamily.rounds
    refine length_rounds f ks _ _ ?_ ?_
    · simp [ShaFamily.round, a]
    · simp [ShaFamily.round, b]

theorem length_fold {w : Nat} (f : ShaFamily w) (h : List (BitVec w)) (block : Bytes) (eight : h.length = 8) : (f.fold h block).length = 8 := by
  obtain ⟨a, b⟩ := length_rounds f f.k ((Bytes.chunks (w / 8) block).map fun b => BitVec.ofNat w (Bytes.toBE b)) (h.take 4, h.drop 4)
    (by simp [eight]) (by simp [eight])
  unfold ShaFamily.fold
  dsimp only
  rw [List.length_zipWith, List.length_append, a, b, eight]
  rfl

theorem length_foldl_fold {w : Nat} (f : ShaFamily w) : ∀ (l : List Bytes) (h : List (BitVec w)), h.length = 8 → (l.foldl f.fold h).length = 8
  | [], _, eight => eight
  | b :: l, h, eight => length_foldl_fold f l _ (length_fold f h b eight)

theorem length_sha384Init : sha384Init.length = 8 := by decide +kernel

theorem length_sha384 (m : Bytes) : (sha384 m).length = 48 := by
  have words := length_foldl_fold sha64 (Bytes.chunks (2 * 64) (shaPad 64 m)) sha384Init length_sha384Init
  unfold sha384 ShaFamily.hash
  dsimp only
  rw [List.length_take, length_flatMap_ofBE, words]
  rfl

theorem challenge_fields (s : State) (id action : Nat) (p : Bytes) {nonce : Bytes} (full : nonce.length = 16) :
    let ch := challengeOf s id action p nonce
    ch.length = 104 ∧ Bytes.leAt ch 6 2 = action % 2 ^ 16 ∧ Bytes.leAt ch 0x10 4 = id % 2 ^ 32 ∧
    (Bytes.at_ ch 0x14).toNat = s.life.lc.code ∧ Bytes.leAt ch 0x18 8 = s.now % 2 ^ 64 ∧
    Bytes.leAt ch 0x20 8 = (s.now + 120 * second) % 2 ^ 64 ∧ Bytes.slice ch 0x28 16 = nonce ∧ ch.drop 0x38 = sha384 p := by
  have fits : nonce.fit 16 = nonce := by
    have whole := slice_append_right (a := []) (b := nonce) rfl full
    exact whole
  have code : s.life.lc.code < 256 := by cases s.life.lc <;> decide
  have lens (k n : Nat) : (Bytes.ofLE k n).length = k := length_ofLE k n
  have whole := length_sha384 p
  refine ⟨?_, ?_, ?_, ?_, ?_, ?_, ?_, ?_⟩
  · simp [challengeOf, lens, whole, Bytes.ofNats]
  · unfold challengeOf
    simp (disch := simp [lens, whole, Bytes.ofNats]) only [leAt_append_left, leAt_last]
    rfl
  · unfold challengeOf
    simp (disch := simp [lens, whole, Bytes.ofNats]) only [leAt_append_left, leAt_last]
    rfl
  · unfold challengeOf Bytes.at_
    simp (disch := simp [lens, whole, Bytes.ofNats]) only [getD_append_left]
    rw [List.getD_append_right _ _ _ _ (by simp [lens])]
    simp only [List.length_append, lens]
    exact Nat.mod_eq_of_lt code
  · unfold challengeOf
    simp (disch := simp [lens, whole, Bytes.ofNats]) only [leAt_append_left, leAt_last]
    rfl
  · unfold challengeOf
    simp (disch := simp [lens, whole, Bytes.ofNats]) only [leAt_append_left, leAt_last]
    rfl
  · unfold challengeOf
    simp (disch := simp [lens, whole, Bytes.ofNats]) only [slice_append_left]
    rw [fits]
    exact slice_append_right (by simp [lens, Bytes.ofNats]) full
  · unfold challengeOf
    exact List.drop_left' (by simp [lens, Bytes.ofNats])

theorem cerOf_opened {e p : Bytes} {s u : State} {fdp : Bool} {nonce : Bytes} (rows : firstFail (openRows s e) = none)
    (good : paramRefusal s (cerAction e) p = none) (room : 104 ≤ cerMax e) (drawn : fwRandom 16 s = .ok (nonce, u)) :
    let ch := challengeOf s ((s.custody.mono + 1) % 2 ^ 32) (cerAction e) p nonce
    let c : Ceremony := { id := (s.custody.mono + 1) % 2 ^ 32, action := cerAction e, params := p, challenge := ch
                          lc := s.life.lc.code, expires := s.now + 120 * second, fdpPath := fdp }
    openGo fdp e p s = (some { status := Status.ok, r0 := c.id }, ch,
      ceremonyRecord c 1 { u with custody := { s.custody with mono := s.custody.mono + 1, cer := some c } }) := by
  intro ch c
  unfold openGo
  rw [rows, good]
  dsimp only
  rw [if_neg (by omega), drawn]
  unfold answered
  dsimp only
  rw [(draws_fwRandom drawn).2.custody]

theorem openGo_waits {e p : Bytes} {s u : State} {fdp : Bool} (rows : firstFail (openRows s e) = none)
    (good : paramRefusal s (cerAction e) p = none) (room : 104 ≤ cerMax e) (drawn : fwRandom 16 s = .error u) :
    openGo fdp e p s = (none, [], u) := by
  unfold openGo
  rw [rows, good]
  dsimp only
  rw [if_neg (by omega), drawn]
  rfl

theorem openGo_refuses {e p : Bytes} {s : State} {fdp : Bool} (rows : firstFail (openRows s e) = none)
    (good : paramRefusal s (cerAction e) p = none) (room : cerMax e < 104) : openGo fdp e p s = refuse (bad 0x24 104) s := by
  unfold openGo
  rw [rows, good]
  dsimp only
  rw [if_pos room]

/-- What CEREMONY_OPEN runs, its parameter block read. -/
theorem openBody {s : State} {j : Job} (rows : firstFail (openRows s j.entry) = none) (read : j.reads = .arrived) :
    (match firstFail (openRows s j.entry) with
      | some d => (some d, s)
      | none => afterReads j s fun s => adminAnswer j (cerOut j.entry) (openGo false j.entry (j.input 0 s) s)) =
    adminAnswer j (cerOut j.entry) (openGo false j.entry (j.input 0 s) s) := by
  rw [rows]
  exact if_pos read

theorem adminAnswer_writes {j : Job} {out : Bytes} (addr : Nat) (d : Option Done) (s : State) (h : out ≠ []) :
    adminAnswer j addr (d, out, s) = (d, hostWrite j.ref.fn addr out s) := by
  unfold adminAnswer
  rw [if_neg (by simpa using h)]

theorem fns_ceremonyRecord (c : Ceremony) (how : Nat) (s : State) : (ceremonyRecord c how s).fns = s.fns := fns_record_zero ..

/-- R226, R229: the ceremony opens, its challenge written. -/
theorem open_opens {s u : State} {j : Job} {nonce : Bytes} (hj : s.admin? 0 Op.ceremony = some j) (hop : cerOp j.entry = 0)
    (rows : firstFail (openRows s j.entry) = none) (read : j.reads = .arrived) (room : 104 ≤ cerMax j.entry)
    (good : paramRefusal s (cerAction j.entry) (j.input 0 s) = none) (drawn : fwRandom 16 s = .ok (nonce, u)) :
    let ch := challengeOf s ((s.custody.mono + 1) % 2 ^ 32) (cerAction j.entry) (j.input 0 s) nonce
    let c : Ceremony := { id := (s.custody.mono + 1) % 2 ^ 32, action := cerAction j.entry, params := j.input 0 s, challenge := ch
                          lc := s.life.lc.code, expires := s.now + 120 * second, fdpPath := false }
    Completes .ceremonyOpen s j { status := 0x00, r0 := c.id }
      (hostWrite 0 (cerOut j.entry) ch { u with custody := { s.custody with mono := s.custody.mono + 1, cer := some c } }) := by
  intro ch c
  obtain ⟨-, pf0, -, -⟩ := admin_spec hj
  have some_ : ch ≠ [] := fun none => by
    have len := (challenge_fields s ((s.custody.mono + 1) % 2 ^ 32) (cerAction j.entry) (j.input 0 s) (draws_fwRandom drawn).1).1
    rw [show challengeOf s _ _ _ _ = [] from none] at len
    exact absurd len (by simp)
  have ends := exec_ceremony_done (i := .ceremonyOpen) (by rfl) hj hop
    ((openBody rows read).trans (by rw [cerOf_opened rows good room drawn, adminAnswer_writes _ _ _ some_]))
  refine completes_of_quiet ends ?_
  rw [pf0]
  exact Quiet.hostWrite (quiet_ceremonyRecord ..) (fns_ceremonyRecord ..) _ _ _

theorem statusGo_eq {s : State} {e : Bytes} {c : Ceremony} (rsv : cerRsv e = false) (named : s.named e = some c) :
    statusGo e s =
      if c.stage = .window then refuse (bad 0x31) s
      else if cerMax e < 16 then refuse (bad 0x24 16) s
      else (some { status := Status.ok, r0 := 16 },
        Bytes.ofLE 4 c.id ++ Bytes.ofLE 2 c.action ++ Bytes.ofNats [c.approvals.length, (c.challenge.at_ 0x15).toNat] ++
          Bytes.ofLE 8 c.expires, s) := by
  unfold statusGo
  rw [rsv, named]
  exact if_neg Bool.false_ne_true

/-- What a command that writes its output and completes leaves in memory. -/
theorem mem_of_answer {s t u : State} {r : JobRef} {d : Done} {f a : Nat} {b : Bytes}
    (calm : Quiet (decideJob r d (hostWrite f a b u)) t) (log : (u.fn f).log = none) (mem : u.mem = s.mem) :
    t.mem = Memory.putAll s.mem (hostKey f a) b := by
  rw [calm.mem, decideJob_mem, hostWrite_unlogged _ _ _ _ log, ← mem]

theorem frame_hostWrite (f a : Nat) (b : Bytes) (s : State) :
    (hostWrite f a b s).store = s.store ∧ (hostWrite f a b s).life = s.life ∧ (hostWrite f a b s).custody = s.custody := by
  have w := written_hostWrite f a b s
  exact ⟨w.store, w.life, (congrArg State.custody w.1 :)⟩

/-- Settles O41: what OPEN, STATUS, CANCEL and the two expiries leave. -/
theorem ceremoniesOpenCloseAndExpire : Obligations.CeremoniesOpenCloseAndExpire := by
  unfold Obligations.CeremoniesOpenCloseAndExpire
  refine ⟨?_, ?_, ?_, ?_, ?_, ?_, ?_, ?_⟩
  · intro s u j nonce hj hop rows read room good drawn ch c
    obtain ⟨full, left⟩ := draws_fwRandom drawn
    obtain ⟨len, action, id, code, now, ends, is, digest⟩ :=
      challenge_fields s ((s.custody.mono + 1) % 2 ^ 32) (cerAction j.entry) (j.input 0 s) full
    have opened := open_opens hj hop rows read room good drawn
    refine ⟨opened, len, action, id.trans (Nat.mod_mod _ _), code, now, ends, is, digest, ?_⟩
    obtain ⟨t, ht, calm⟩ := opened
    obtain ⟨store, life, custody⟩ := frame_hostWrite 0 (cerOut j.entry) ch
      { u with custody := { s.custody with mono := s.custody.mono + 1, cer := some c } }
    refine ⟨t, ht, calm.store.trans (store.trans left.store), calm.life.trans (life.trans left.life),
      (congrArg Custody.roles calm.custody).trans (congrArg Custody.roles custody :), fun tidy log => ?_⟩
    have writes := writes_of_mem tidy (mem_of_answer calm ((left.log 0).trans log) left.mem)
    rwa [len] at writes
  · intro s u j hj hop rows read room good drawn
    refine answers_settled (exec_ceremony_wait (by rfl) hj hop ((openBody rows read).trans ?_)) (.refl u)
    rw [openGo_waits rows good room drawn]
    rfl
  · intro s j hj hop rows read room good
    refine completes_of_exec (exec_ceremony_done (by rfl) hj hop ((openBody rows read).trans ?_))
    rw [openGo_refuses rows good room]
    rfl
  · intro s j c hj hop rsv named room
    obtain ⟨-, pf0, -, -⟩ := admin_spec hj
    have go := statusGo_eq rsv named
    split
    · next window =>
      exact completes_of_exec (exec_ceremony_done (by rfl) hj hop (congrArg (adminAnswer j (cerOut j.entry)) (go.trans (if_pos window))))
    · next open_ =>
      replace go := (go.trans (if_neg open_)).trans (if_neg (by omega))
      refine completes_of_exec (exec_ceremony_done (by rfl) hj hop ?_)
      refine (congrArg (adminAnswer j (cerOut j.entry)) go).trans ?_
      rw [adminAnswer_writes _ _ _ (by simp [Bytes.ofNats]), pf0]
  · intro s j c hj hop rsv named waits
    have go : cancelGo j.entry s = (some { status := Status.ok }, [],
        closeCeremony 4 { status := Status.quorumRequired, detail := 0x04 } s) := by
      unfold cancelGo
      rw [rsv, named]
      exact (if_neg Bool.false_ne_true).trans (if_neg waits)
    have ends := exec_ceremony_done (i := .ceremonyCancel) (by rfl) hj hop (congrArg (adminAnswer j (cerOut j.entry)) go)
    have closes := completes_of_quiet ends (quiet_closeCeremony (cer_of_named named) 4 { status := 0x72, detail := 0x04 })
    obtain ⟨t, ht, calm⟩ := closes
    exact ⟨⟨t, ht, calm⟩, t, ht, closed_frame ((offPort_decideJob _ _ _).trans (offPort_answerCaller c.caller _ _)) calm⟩
  · intro s c cer gathers late
    have ends : exec .challengeExpiry s = settled s (closeCeremony 5 { status := Status.quorumRequired, detail := 0x02 } s) := by
      show execChallengeExpiry s = _
      unfold execChallengeExpiry
      rw [cer]
      exact if_pos ⟨gathers, late⟩
    obtain ⟨t, ht, calm⟩ := answers_settled ends (quiet_closeCeremony cer 5 _)
    exact ⟨⟨t, ht, calm⟩, t, ht, closed_frame (offPort_answerCaller c.caller _ _) calm⟩
  · intro s c cer window other late alone
    have ends : exec .continuationWindowExpiry s = settled s (closeCeremony 5 { status := Status.badEntry, detail := 0x3A } s) := by
      show execContinuationWindowExpiry s = _
      unfold execContinuationWindowExpiry
      rw [cer]
      exact if_pos ⟨window, other, late⟩
    have closes := quiet_closeCeremony cer 5 { status := Status.badEntry, detail := 0x3A }
    rw [alone] at closes
    exact answers_settled ends closes
  · intro s c cer
    refine ⟨fun early => ⟨s, ?_, rfl⟩, fun early => ⟨s, ?_, rfl⟩⟩
    · show execChallengeExpiry s = _
      unfold execChallengeExpiry
      rw [cer]
      exact if_neg fun h => early.elim (absurd h.1) (fun lt => absurd h.2 (by omega))
    · show execContinuationWindowExpiry s = _
      unfold execContinuationWindowExpiry
      rw [cer]
      exact if_neg fun h => early.elim (absurd h.1) (fun lt => absurd h.2.2 (by omega))

end Sys2Proof.Safety
end

section
/-!
PROOFS. What ending work in flight and answering callers leave alone, and what INITIALISE, CUSTODIANS and DOMAIN_CREATE
leave (R219, R225, R234, R241).
-/

-- In turn: a proof that waits for others beside it takes a thread and its stack from the memory that the check allows.
set_option Elab.async false

namespace Sys2Proof.Safety

open Sys2Proof.Machine

/-! ## Winding up work in flight -/

/-- A function without its queues, its dirty-page log, its sleep and what signals write. -/
def unworkedFn (g : Fn) : Fn :=
  { stillFn g with run := .ready, quiesce := none, rngBuf := [], sleptAt := 0, log := none, freezing := false, jqs := [], cqs := [] }

/-- A slot without the generation it retires. -/
def unworkedSlot (x : Slot) : Slot := { x with retiring := none }

/-- A state without functions and slots, and without what jobs, calls, ceremonies and sessions hold and signals write. -/
def unworked (s : State) : State :=
  { still s with
    jobs := [], mem := [], cram := [], fab := {}, pk := {}, mgmt := {}, free := 0
    store := { s.store with slots := [] }
    rng := { s.rng with fills := [] }
    worlds := { s.worlds with calls := [] }
    custody := { s.custody with cer := none }
    regs := { (still s).regs with mpTx := 0 } }

/-- `t` differs from `s` in what winding up work in flight changes: jobs, calls, queues, memory, sessions, the ceremony's
stage, retiring generations, and slots whose erasure is given up. -/
structure Winds (s t : State) : Prop where
  rest : unworked t = unworked s
  fn (f : Nat) : unworkedFn (t.fn f) = unworkedFn (s.fn f)
  slot (n : Nat) : (s.slot n).st ≠ .erasing → unworkedSlot (t.slot n) = unworkedSlot (s.slot n)

theorem Winds.refl (s : State) : Winds s s := ⟨rfl, fun _ => rfl, fun _ _ => rfl⟩

theorem Winds.trans {s t u : State} (a : Winds s t) (b : Winds t u) : Winds s u where
  rest := b.rest.trans a.rest
  fn f := (b.fn f).trans (a.fn f)
  slot n h := by
    have same := a.slot n h
    have st : (t.slot n).st = (s.slot n).st := (congrArg Slot.st same :)
    exact (b.slot n (by rwa [st])).trans same

theorem Winds.foldl {α : Type} {h : State → α → State} (each : ∀ s a, Winds s (h s a)) : ∀ (l : List α) (s : State), Winds s (l.foldl h s)
  | [], s => .refl s
  | a :: l, s => (each s a).trans (Winds.foldl each l _)

theorem winds_slot_congr {s t : State} (h : t.store = s.store) (n : Nat) : unworkedSlot (t.slot n) = unworkedSlot (s.slot n) := by
  unfold State.slot
  rw [h]

theorem Winds.of_quiet {s t : State} (q : Quiet s t) : Winds s t where
  rest := (congrArg unworked q.1 :)
  fn f := congrArg (fun g : Fn => { g with
    run := .ready, quiesce := none, rngBuf := [], sleptAt := 0, log := none, freezing := false, jqs := [], cqs := [] }) (q.2 f)
  slot n _ := winds_slot_congr q.store n

theorem Winds.of_written {s t : State} (w : Written s t) : Winds s t where
  rest := (congrArg unworked w.1 :)
  fn f := (congrArg unworkedFn (w.2 f) :)
  slot n _ := winds_slot_congr w.store n

/-- Changes outside functions and slots. -/
theorem Winds.of_fields {s t : State} (rest : unworked t = unworked s := by exact rfl) (fns : t.fns = s.fns := by exact rfl)
    (store : t.store = s.store := by exact rfl) : Winds s t where
  rest := rest
  fn f := by unfold State.fn; rw [fns]
  slot n _ := winds_slot_congr store n

theorem winds_setFn (f : Nat) (g : Fn) (s : State) (h : unworkedFn g = unworkedFn (s.fn f) := by exact rfl) : Winds s (setFn f g s) where
  rest := rfl
  fn k := by
    rw [fn_setFn]
    split
    · next e => subst e; exact h
    · rfl
  slot _ _ := rfl

theorem winds_modSlot (n : Nat) (h : Slot → Slot) (s : State)
    (same : (s.slot n).st ≠ .erasing → unworkedSlot (h (s.slot n)) = unworkedSlot (s.slot n)) : Winds s (modSlot n h s) where
  rest := rfl
  fn _ := rfl
  slot k hk := by
    rw [slot_modSlot]
    split
    · next e => subst e; exact same hk
    · rfl

section
variable {s t : State} (w : Winds s t)
include w

theorem Winds.life : t.life = s.life := (congrArg State.life w.rest :)
theorem Winds.force : t.dict.force = s.dict.force := (congrArg (fun x : State => x.dict.force) w.rest :)
theorem Winds.profiles : t.dict.profiles = s.dict.profiles := (congrArg (fun x : State => x.dict.profiles) w.rest :)
theorem Winds.roles : t.custody.roles = s.custody.roles := (congrArg (fun x : State => x.custody.roles) w.rest :)
theorem Winds.quorumM : t.custody.quorumM = s.custody.quorumM := (congrArg (fun x : State => x.custody.quorumM) w.rest :)
theorem Winds.link : t.link = s.link := (congrArg State.link w.rest :)
theorem Winds.vesper : t.vesper = s.vesper := (congrArg State.vesper w.rest :)
theorem Winds.clock : t.clock = s.clock := (congrArg State.clock w.rest :)
theorem Winds.sk (f : Nat) : (t.fn f).sk = (s.fn f).sk := (congrArg Fn.sk (w.fn f) :)

end

theorem winds_hostWrite (f a : Nat) (b : Bytes) (s : State) : Winds s (hostWrite f a b s) := .of_written (written_hostWrite f a b s)

theorem winds_setCq (f c : Nat) (x : CompQueue) (s : State) : Winds s (setCq f c x s) := winds_setFn f _ s

theorem winds_setJq (f q : Nat) (x : JobQueue) (s : State) : Winds s (setJq f q x s) := winds_setFn f _ s

theorem winds_writeMirror (f c : Nat) (s : State) : Winds s (writeMirror f c s) := by
  unfold writeMirror
  split
  · exact .refl s
  · split
    · exact .refl s
    · dsimp only
      have written := fun q : CompQueue => (winds_hostWrite f q.mirror (Bytes.ofLE 4 q.pi.toNat) s).trans
        (winds_setCq f c { q with covered := q.pi, irqNow := false } _)
      split
      · exact (written _).trans (.of_quiet (quiet_vecEvent _ _ _ _))
      · exact written _

theorem winds_issueRecord (f c : Nat) (b : Bytes) (reserved irqNow : Bool) (s : State) : Winds s (issueRecord f c b reserved irqNow s) := by
  unfold issueRecord
  split
  · exact .refl s
  · dsimp only
    split
    · exact (winds_hostWrite _ _ _ _).trans ((winds_setCq _ _ _ _).trans (winds_writeMirror _ _ _))
    · exact (winds_hostWrite _ _ _ _).trans (winds_setCq _ _ _ _)

theorem winds_finishEntry (f q : Nat) (i : Word) (s : State) : Winds s (finishEntry f q i s) := by
  unfold finishEntry
  split
  · exact .refl s
  · exact winds_setJq _ _ _ _

theorem winds_returnRole (p : Nat) (s : State) : Winds s (returnRole p s) := by
  unfold returnRole
  dsimp only
  split
  · split
    · exact .trans .of_fields (.of_quiet ((quiet_record _ _ _ _ _ _ _ _).trans (quiet_setErr _ _ _)))
    · exact .refl s
  · exact .refl s

theorem winds_leavePair (r : JobRef) (s : State) : Winds s (leavePair r s) := by
  unfold leavePair
  split
  · exact .refl s
  · exact .trans .of_fields (winds_returnRole _ _)

theorem winds_releaseHold (j : Job) (s : State) : Winds s (releaseHold j s) := by
  unfold releaseHold
  split
  · exact .refl s
  · exact .of_fields

theorem winds_leavePk (r : JobRef) (s : State) : Winds s (leavePk r s) := by
  unfold leavePk
  dsimp only
  split <;> exact .of_fields

theorem winds_freeRetiring (n gen : Nat) (s : State) : Winds s (freeRetiring n gen s) := by
  unfold freeRetiring
  split
  · split
    · exact winds_modSlot _ _ _ fun _ => rfl
    · exact .refl s
  · exact .refl s

theorem winds_enterD3 (f : Nat) (s : State) : Winds s (enterD3 f s) := by
  unfold enterD3
  split
  · exact (Winds.foldl (fun s c => winds_writeMirror f c s) _ s).trans (winds_setFn _ _ _)
  · exact .refl s

theorem winds_dropOne (j : Job) (s : State) : Winds s (dropOne j s) := by
  unfold dropOne
  dsimp only
  have released (t : State) (h : Winds s t) : Winds s (leavePk j.ref (releaseHold j (leavePair j.ref t))) :=
    h.trans ((winds_leavePair _ _).trans ((winds_releaseHold _ _).trans (winds_leavePk _ _)))
  refine .trans ?_ (winds_enterD3 _ _)
  split
  · exact released _ .of_fields
  · exact (released _ .of_fields).trans (winds_freeRetiring _ _ _)

theorem winds_squash (j : Job) (s : State) : Winds s (squash j s) := by
  unfold squash
  split
  · refine .trans (t := disturb j s) ?_ ?_
    · unfold disturb
      split
      · exact .foldl (fun s w => (winds_hostWrite j.ref.fn w.addr
          (disturbed s.free (s.hostRead j.ref.fn w.addr w.len) w) s).trans .of_fields) _ s
      · exact .refl s
    · unfold scrub
      split
      · exact (winds_hostWrite _ _ _ _).trans .of_fields
      · exact .refl _
  · exact .refl s

theorem winds_closeCall (r : JobRef) (s : State) : Winds s (closeCall r s) := by
  unfold closeCall
  split
  · exact .refl s
  · dsimp only
    split
    · exact .trans .of_fields ((winds_squash _ _).trans (winds_dropOne _ _))
    · exact .of_fields

theorem winds_dropJob (j : Job) (s : State) : Winds s (dropJob j s) := (winds_dropOne j s).trans (winds_closeCall _ _)

theorem winds_returnRecord (j : Job) (d : Done) (s : State) : Winds s (returnRecord j d s) := by
  unfold returnRecord
  split
  · exact .refl s
  · exact .of_fields

theorem winds_completeJob (j : Job) (d : Done) (s : State) : Winds s (completeJob j d s) := by
  unfold completeJob
  split
  · exact (winds_returnRecord _ _ _).trans (winds_dropJob _ _)
  · exact (winds_issueRecord _ _ _ _ _ _).trans ((winds_finishEntry _ _ _ _).trans (winds_dropJob _ _))

theorem winds_bump (n : Nat) (s : State) : Winds s (bump n s) := .of_quiet (quiet_bump n s)

theorem winds_modJob (r : JobRef) (h : Job → Job) (s : State) : Winds s (modJob r h s) := .of_fields

theorem winds_suppress (j : Job) (d : Done) (silent : Bool) (s : State) : Winds s (suppress j d silent s) := by
  unfold suppress
  split
  · exact (winds_bump _ s).trans (winds_modJob _ _ _)
  · exact winds_bump _ s

theorem winds_awaitReads (j : Job) (d : Done) (s : State) : Winds s (awaitReads j d s) := by
  unfold awaitReads
  dsimp only
  have off := (winds_squash j s).trans ((winds_leavePair j.ref _).trans (winds_releaseHold j _))
  split
  · exact off.trans (winds_modJob _ _ _)
  · exact off.trans ((winds_modJob _ _ _).trans (winds_freeRetiring _ _ _))

theorem winds_endJob (j : Job) (d : Done) (atOnce : Bool) (s : State) : Winds s (endJob j d atOnce s) := by
  have stopped : Winds s (if atOnce then leavePk j.ref s else s) := by
    split
    · exact winds_leavePk _ _
    · exact .refl s
  unfold endJob
  split
  · exact stopped.trans (winds_bump _ _)
  · split
    · exact winds_bump _ _
    · split
      · exact winds_suppress _ _ _ _
      · split
        · split
          · exact stopped.trans (winds_bump _ _)
          · exact winds_modJob _ _ _
        · split
          · exact winds_awaitReads _ _ _
          · exact (winds_squash _ _).trans ((winds_completeJob _ _ _).trans (winds_writeMirror _ _ _))

theorem winds_endJobs (p : Job → Bool) (d : Job → Done) (atOnce : Bool) (s : State) : Winds s (endJobs p d atOnce s) := by
  refine .foldl (fun s j => ?_) _ s
  split
  · exact winds_endJob _ _ _ _
  · exact .refl s

theorem winds_abandonAdmin (j : Job) (s : State) : Winds s (abandonAdmin j s) := by
  unfold abandonAdmin
  split
  · exact winds_modSlot _ _ _ fun h => by unfold unErase; rw [if_neg h]
  · split
    · exact winds_setFn _ _ _
    · unfold abandonCeremony
      split
      · exact .refl s
      · split
        · exact .of_fields
        · exact .refl s

theorem winds_endWork (detail : Nat) (atOnce : Bool) (s : State) : Winds s (endWork detail atOnce s) := by
  unfold endWork
  refine .trans ?_ (winds_endJobs _ _ _ _)
  refine .foldl (fun s j => ?_) _ s
  unfold undoSlotCommand
  dsimp only
  split
  · exact (winds_abandonAdmin _ _).trans (winds_dropJob _ _)
  · exact winds_abandonAdmin _ _

theorem winds_endSession (x : Session) (how : Nat) (s : State) : Winds s (endSession x how s) := by
  unfold endSession
  dsimp only
  split
  · exact .trans .of_fields (.of_quiet (quiet_record ..))
  · exact .of_fields

theorem winds_endSessions (p : Session → Bool) (s : State) : Winds s (endSessions p s) :=
  .foldl (fun s x => winds_endSession x 3 s) _ s

theorem Winds.of_offPort {s t : State} (off : offPort t = offPort s) : Winds s t where
  rest := (congrArg unworked off :)
  fn f := (congrArg (fun x : State => unworkedFn (x.fn f)) off :)
  slot n _ := (congrArg (fun x : State => unworkedSlot (x.slot n)) off :)

theorem winds_withCer (k : Option Ceremony) (s : State) : Winds s (withCer k s) := .of_fields

theorem winds_answerCaller (c : Option Caller) (d : Done) (out : Bytes) (s : State) : Winds s (answerCaller c d out s) := by
  unfold answerCaller
  split
  · exact .refl s
  · split
    · split
      · refine .trans ?_ (winds_modJob _ _ _)
        split
        · exact .refl s
        · exact winds_hostWrite _ _ _ _
      · exact .refl s
    · exact .refl s
  · exact .of_offPort (offPort_respond _ _ _ _)

/-! ## Keys under fresh masks (R195, R196) -/

theorem length_keystream (key : Bytes) (ctr blocks : Nat) : (keystream key ctr blocks).length = 16 * blocks := by
  unfold keystream
  rw [List.flatMap_def, length_flatten_of_all (n := 16), List.length_map, List.length_range]
  intro b hb
  obtain ⟨i, -, rfl⟩ := List.mem_map.mp hb
  exact length_aesEnc (by simp) _

theorem length_drawMask (g n : Nat) (s : State) : (drawMask g n s).1.length = n := by
  unfold drawMask
  dsimp only
  rw [List.length_take, length_keystream]
  omega

theorem clear_maskKey (g : Nat) (k : Bytes) (s : State) : (maskKey g k s).1.clear = k :=
  xor_xor_cancel (by rw [length_drawMask])

theorem clear_remask (g : Nat) (k : Masked) (s : State) : (remask g k s).1.clear = k.clear :=
  xor_xor_cancel (by rw [length_drawMask, length_xor]; exact Nat.min_le_left _ _)

theorem masks_maskKey (g : Nat) (k : Bytes) (s : State) : Masks s (maskKey g k s).2 := masks_drawMask g k.length s

/-! ## Reserved slots (R190, R241) -/

theorem masks_freshCopies (c : SlotCopy) (ka kb : Bytes) (s : State) : Masks s (freshCopies c ka kb s).2 :=
  (masks_maskKey _ _ _).trans (masks_maskKey _ _ _)

theorem putReserved_slot (n : Nat) (ka kb : Bytes) (s : State) :
    ((putReserved n ka kb s).slot n).st = .loaded ∧ ((putReserved n ka kb s).slot n).a.key.clear = ka ∧
      ((putReserved n ka kb s).slot n).b.key.clear = kb := by
  unfold putReserved
  dsimp only
  rw [slot_modSlot_self]
  exact ⟨rfl, clear_maskKey _ _ _, clear_maskKey _ _ _⟩

theorem putReserved_slot_ne {n k : Nat} (ka kb : Bytes) (s : State) (h : k ≠ n) : (putReserved n ka kb s).slot k = s.slot k := by
  unfold putReserved
  dsimp only
  rw [slot_modSlot_ne _ _ h]
  exact (congrArg (fun x : State => x.slot k) (masks_freshCopies (reservedCopy n) ka kb s) :)

/-- A reserved slot and the mask generators alone change. -/
theorem putReserved_rest (n : Nat) (ka kb : Bytes) (s : State) :
    putReserved n ka kb s = { s with store := (putReserved n ka kb s).store, fab := (putReserved n ka kb s).fab } := rfl

/-! ## Transitions (R219, R220, R356) -/

/-- What every transition erases: session keys and IDE keys; latches in FACTORY and DEBUG. -/
def unlatched (s : State) : State := if s.life.lc = .factory ∨ s.life.lc = .debug then clearLatches s else s

theorem Winds.clearLatches {s t : State} (w : Winds s t) : Winds (Machine.clearLatches s) (Machine.clearLatches t) where
  rest := (congrArg Machine.clearLatches w.rest :)
  fn := w.fn
  slot := w.slot

theorem Winds.unlatched {s t : State} (w : Winds s t) : Winds (Safety.unlatched s) (Safety.unlatched t) := by
  unfold Safety.unlatched
  rw [w.life]
  split
  · exact w.clearLatches
  · exact w

theorem winds_leaveLife (atOnce keep : Bool) (s : State) : Winds (unlatched (eraseIde (eraseAllSets s))) (leaveLife atOnce keep s) := by
  have ended := winds_endWork 1 atOnce (eraseIde (eraseAllSets s))
  have swept : Winds (eraseIde (eraseAllSets s))
      (if keep then endWork 1 atOnce (eraseIde (eraseAllSets s)) else endSessions (fun _ => true) (endWork 1 atOnce (eraseIde (eraseAllSets s)))) := by
    split
    · exact ended
    · exact ended.trans (winds_endSessions _ _)
  show Winds (if s.life.lc = .factory ∨ s.life.lc = .debug then _ else _) (if s.life.lc = .factory ∨ s.life.lc = .debug then _ else _)
  split
  · exact swept.clearLatches
  · exact swept

/-- A transition that finds no job it ends ends none. -/
theorem endWork_idle {s : State} (idle : ∀ k ∈ s.jobs, endsAtTransition k = false) (detail : Nat) (atOnce : Bool) :
    endWork detail atOnce s = s := by
  have commands : s.jobs.filter (fun j => isSlotCommand j && !j.taken) = [] := by
    refine List.filter_eq_nil_iff.mpr fun j hj => ?_
    have kept := idle j hj
    unfold endsAtTransition at kept
    simp only [Bool.or_eq_false_iff] at kept
    simp [kept.2]
  have none : s.jobs.filter endsAtTransition = [] := List.filter_eq_nil_iff.mpr fun j hj => by simp [idle j hj]
  unfold endWork endJobs
  dsimp only
  rw [commands, List.foldl_nil, none, List.foldl_nil]

theorem kept_endSessions (p : Session → Bool) (s : State) : (endSessions p s).mem = s.mem ∧ (endSessions p s).store = s.store := by
  have one (x : Session) (s : State) : (endSession x 3 s).mem = s.mem ∧ (endSession x 3 s).store = s.store := by
    unfold endSession
    dsimp only
    split
    · have calm := quiet_record 0x0403 0 x.id x.entry 3 x.path.chanCode false { s with mgmt := { s.mgmt with
        sessions := s.mgmt.sessions.filter fun y => decide (y.id ≠ x.id)
        parts := s.mgmt.parts.filter fun p => decide (p.key ≠ 2 ^ 64 + x.id) } }
      exact ⟨calm.mem, calm.store⟩
    · exact ⟨rfl, rfl⟩
  have all (l : List Session) (s : State) :
      (l.foldl (fun s x => endSession x 3 s) s).mem = s.mem ∧ (l.foldl (fun s x => endSession x 3 s) s).store = s.store := by
    induction l generalizing s with
    | nil => exact ⟨rfl, rfl⟩
    | cons x l ih => exact ⟨(ih _).1.trans (one x s).1, (ih _).2.trans (one x s).2⟩
  exact all _ s

theorem kept_leaveLife {s : State} (idle : ∀ k ∈ s.jobs, endsAtTransition k = false) (atOnce keep : Bool) :
    (leaveLife atOnce keep s).mem = s.mem ∧ (leaveLife atOnce keep s).store = s.store := by
  have rests : endWork 1 atOnce (eraseIde (eraseAllSets s)) = eraseIde (eraseAllSets s) := endWork_idle (s := eraseIde (eraseAllSets s)) idle 1 atOnce
  obtain ⟨mem, store⟩ := kept_endSessions (fun _ => true) (eraseIde (eraseAllSets s))
  unfold leaveLife
  dsimp only
  rw [rests]
  split <;> split
  · exact ⟨rfl, rfl⟩
  · exact ⟨mem, store⟩
  · exact ⟨rfl, rfl⟩
  · exact ⟨mem, store⟩

theorem sk_eraseAllSets (f : Nat) (s : State) : ((eraseAllSets s).fn f).sk = [] := by
  by_cases hf : f ∈ s.fns.keys
  · exact congrArg Fn.sk (fn_mapFns_of_mem (fun _ g => { g with sk := [] }) hf)
  · have none : (eraseAllSets s).fn f = s.fn f := fn_mapFns_of_not_mem (fun _ g => { g with sk := [] }) hf
    rw [none]
    unfold State.fn FMap.getD
    rw [find?_eq_none_of_not_mem hf]
    rfl

theorem quiet_enterLife (x : LifeState) (id : Nat) (s : State) :
    Quiet (persist 0 { s with life := { s.life with
      lc := x, changed := if s.clock.running then s.now else s.vesper.calendar
      lockClass := if x = .locked then s.life.lockClass else .none_
      lockTime := if x = .locked then s.life.lockTime else 0 } }) (enterLife x id s) := quiet_record ..

/-- What moving to another life-cycle state leaves, whatever is wound up after it. -/
structure Moved (x : LifeState) (s t : State) : Prop where
  life : t.life = { s.life with
    lc := x, changed := if s.clock.running then s.now else s.vesper.calendar
    lockClass := if x = .locked then s.life.lockClass else .none_
    lockTime := if x = .locked then s.life.lockTime else 0 }
  force : t.dict.force = s.dict.force
  profiles : t.dict.profiles = s.dict.profiles
  roles : t.custody.roles = s.custody.roles
  quorumM : t.custody.quorumM = s.custody.quorumM
  sk (f : Nat) : (t.fn f).sk = []
  ide : t.link.ide = []
  slot (n : Nat) : (s.slot n).st ≠ .erasing → unworkedSlot (t.slot n) = unworkedSlot (s.slot n)

theorem unlatched_rest (s : State) :
    unlatched s = { s with vesper := (unlatched s).vesper } ∧ (unlatched s).vesper.calendar = s.vesper.calendar := by
  unfold unlatched
  split <;> exact ⟨rfl, rfl⟩

theorem Moved.of_winds {x : LifeState} {id : Nat} {s u t : State} (left : Winds (unlatched (eraseIde (eraseAllSets s))) u)
    (w : Winds (enterLife x id u) t) : Moved x s t := by
  have all := (Winds.of_quiet (quiet_enterLife x id u)).trans w
  obtain ⟨erased, cal⟩ := unlatched_rest (eraseIde (eraseAllSets s))
  have life : u.life = s.life := left.life.trans (congrArg State.life erased :)
  have clock : u.clock = s.clock := left.clock.trans (congrArg State.clock erased :)
  have calendar : u.vesper.calendar = s.vesper.calendar := (congrArg Vesper.calendar left.vesper).trans cal
  refine ⟨all.life.trans ?_, all.force.trans (left.force.trans (congrArg (fun x : State => x.dict.force) erased :)),
    all.profiles.trans (left.profiles.trans (congrArg (fun x : State => x.dict.profiles) erased :)),
    all.roles.trans (left.roles.trans (congrArg (fun x : State => x.custody.roles) erased :)),
    all.quorumM.trans (left.quorumM.trans (congrArg (fun x : State => x.custody.quorumM) erased :)), fun f => ?_, ?_, fun n still => ?_⟩
  · unfold State.now
    rw [← life, ← clock, ← calendar]
    rfl
  · exact (all.sk f).trans ((left.sk f).trans ((congrArg (fun x : State => (x.fn f).sk) erased :).trans (sk_eraseAllSets f s)))
  · exact (congrArg Link.ide all.link).trans ((congrArg Link.ide left.link).trans (congrArg (fun x : State => x.link.ide) erased :))
  · have before : (unlatched (eraseIde (eraseAllSets s))).slot n = s.slot n := (congrArg (fun x : State => x.slot n) erased :)
    have same := left.slot n (by rwa [before])
    rw [before] at same
    have st : (u.slot n).st = (s.slot n).st := (congrArg Slot.st same :)
    exact (all.slot n (by rw [← st] at still; exact still)).trans same

theorem moved_moveLife {x : LifeState} {id : Nat} {s t : State} (w : Winds (moveLife x id s) t) : Moved x s t :=
  .of_winds (winds_leaveLife false false s) w

/-- Where a transition ends no job, it writes no memory and changes no slot. -/
theorem kept_moveLife {s : State} (idle : ∀ k ∈ s.jobs, endsAtTransition k = false) (x : LifeState) (id : Nat) :
    (moveLife x id s).mem = s.mem ∧ (moveLife x id s).store = s.store := by
  have calm := quiet_enterLife x id (leaveLife false false s)
  obtain ⟨mem, store⟩ := kept_leaveLife idle false false
  exact ⟨calm.mem.trans mem, calm.store.trans store⟩

/-! ## Actions (R234) -/

theorem exec_runDraw {n : Nat} {i : Instr} {s : State} {c : Ceremony} {a : ActOut} {body : Ceremony → State → Except State ActOut}
    (is : exec i s = runDraw n body s) (ex : Executing s n c) (there : body c s = .ok a) :
    exec i s = settled s (finishAction c a s) := by
  obtain ⟨cer, action, stage, runs⟩ := ex
  rw [is]
  unfold runDraw
  rw [cer]
  dsimp only
  rw [if_pos ⟨action, stage, runs⟩, there]

theorem exec_runDraw_waits {n : Nat} {i : Instr} {s t : State} {c : Ceremony} {body : Ceremony → State → Except State ActOut}
    (is : exec i s = runDraw n body s) (ex : Executing s n c) (short : body c s = .error t) : exec i s = settled s t := by
  obtain ⟨cer, action, stage, runs⟩ := ex
  rw [is]
  unfold runDraw
  rw [cer]
  dsimp only
  rw [if_pos ⟨action, stage, runs⟩, short]

theorem exec_runAction {n : Nat} {i : Instr} {s : State} {c : Ceremony} {body : Ceremony → State → ActOut}
    (is : exec i s = runAction n body s) (ex : Executing s n c) : exec i s = settled s (finishAction c (body c s) s) := by
  obtain ⟨cer, action, stage, runs⟩ := ex
  rw [is]
  unfold runAction
  rw [cer]
  exact if_pos ⟨action, stage, runs⟩

/-- An action that succeeds closes its ceremony and answers its caller. -/
theorem quiet_acted (c : Ceremony) (u s : State) :
    Quiet (answerCaller c.caller { status := 0x00 } [] (withCer none u)) (finishAction c (acted u) s) := by
  unfold finishAction acted
  dsimp only
  rw [if_neg (show ¬ (([] : Bytes).length > callerRoom s c.caller) from Nat.not_lt_zero _)]
  exact (quiet_ceremonyRecord c 3 (withCer none u)).answerCaller _ _

/-- ... and the state it leaves is wound up from its own. -/
theorem winds_acted {c : Ceremony} {u t : State} (q : Quiet (answerCaller c.caller { status := 0x00 } [] (withCer none u)) t) :
    Winds u t ∧ t.custody.cer = none ∧ t.mem = u.mem ∧ t.store = u.store := by
  have off := offPort_answerCaller c.caller { status := 0x00 } (withCer none u)
  exact ⟨(winds_withCer none u).trans ((winds_answerCaller _ _ _ _).trans (.of_quiet q)),
    (congrArg Custody.cer q.custody).trans (congrArg (fun x : State => x.custody.cer) off :),
    q.mem.trans (congrArg State.mem off :), q.store.trans (congrArg State.store off :)⟩

/-- An action whose draws are there ends in the state it makes. -/
theorem actionDone {i : Instr} {s u : State} {c : Ceremony} (ends : exec i s = settled s (finishAction c (acted u) s)) :
    ActionDone i s u c := ⟨_, ends, (quiet_acted c u s).trans (quiet_settle _ _)⟩

theorem idle_of_draws {s u : State} (d : Draws s u) (idle : ∀ k ∈ s.jobs, endsAtTransition k = false) :
    ∀ k ∈ u.jobs, endsAtTransition k = false := by
  intro k hk
  obtain ⟨j, hj, same⟩ : ∃ j ∈ s.jobs, undrawnJob j = undrawnJob k := by
    have listed := List.mem_map_of_mem (f := undrawnJob) hk
    rw [d.jobs] at listed
    exact List.mem_map.mp listed
  exact (congrArg endsAtTransition same).symm.trans (idle j hj)

/-! ## INITIALISE, CUSTODIANS, DOMAIN_CREATE (R225, R234, R241) -/

theorem initialise_ends {s u : State} {c : Ceremony} {root : Bytes} (ex : Executing s Act.initialise c)
    (drawn : fwRandom 32 s = .ok (root, u)) :
    ActionDone .initialise s (moveLife .initialized c.id (putRoles c.params (newRoot root u))) c ∧
    Answers .initialise s fun t => t.life.lc = .initialized ∧ t.life.root = root ∧ t.life.rootMain = root ∧
      t.life.lockClass = .none_ ∧ t.custody.roles = roleTable s.now ((blockRoles c.params).getD []) ∧
      t.custody.quorumM = (c.params.at_ 8).toNat ∧ t.custody.cer = none ∧ (∀ f, (t.fn f).sk = []) ∧ t.link.ide = [] ∧
      MoveFrame (fun _ => True) s t := by
  have ends := exec_runDraw (i := .initialise) (by rfl) ex (congrArg (Drawn.go · _) drawn)
  have done : ActionDone .initialise s (moveLife .initialized c.id (putRoles c.params (newRoot root u))) c := actionDone ends
  refine ⟨done, ?_⟩
  obtain ⟨t, ht, calm⟩ := done
  obtain ⟨wound, closed, mem, store⟩ := winds_acted calm
  have moved := moved_moveLife wound
  have left := (draws_fwRandom drawn).2
  refine ⟨t, ht, (congrArg Life.lc moved.life :), (congrArg Life.root moved.life :), (congrArg Life.rootMain moved.life :),
    (congrArg Life.lockClass moved.life :), moved.roles.trans ?_, moved.quorumM, closed, moved.sk, moved.ide,
    moved.force.trans left.force, moved.profiles.trans left.profiles, fun idle => ?_⟩
  · exact congrArg (fun now => roleTable now ((blockRoles c.params).getD [])) left.now
  · obtain ⟨same, slots⟩ := kept_moveLife (s := putRoles c.params (newRoot root u)) (idle_of_draws (u := u) left idle) .initialized c.id
    refine ⟨mem.trans (same.trans left.mem), fun n _ => ?_⟩
    unfold State.slot
    rw [store.trans (slots.trans left.store)]

theorem custodians_ends {s : State} {c : Ceremony} (ex : Executing s Act.custodians c) :
    let l := roleTable s.now ((blockRoles c.params).getD [])
    let key (m : FMap RoleKey) (i : Nat) : Option Bytes := (m.find? i).map (·.key)
    ActionDone .custodians s (endSessions (fun x => decide (key s.custody.roles x.entry ≠ key l x.entry)) (putRoles c.params s)) c ∧
    Answers .custodians s fun t => t.custody.roles = l ∧
      t.custody.quorumM = (c.params.at_ 8).toNat ∧ t.custody.cer = none ∧ t.life = s.life ∧ t.store = s.store ∧ t.mem = s.mem := by
  intro l key
  have ends := exec_runAction (i := .custodians) (by rfl) ex
  have done : ActionDone .custodians s
      (endSessions (fun x => decide (key s.custody.roles x.entry ≠ key l x.entry)) (putRoles c.params s)) c := actionDone ends
  refine ⟨done, ?_⟩
  obtain ⟨t, ht, calm⟩ := done
  obtain ⟨wound, closed, mem, store⟩ := winds_acted calm
  have swept := winds_endSessions (fun x => decide (key s.custody.roles x.entry ≠ key l x.entry)) (putRoles c.params s)
  obtain ⟨same, slots⟩ := kept_endSessions (fun x => decide (key s.custody.roles x.entry ≠ key l x.entry)) (putRoles c.params s)
  have all := swept.trans wound
  exact ⟨t, ht, all.roles, all.quorumM, closed, all.life, store.trans slots, mem.trans same⟩

theorem putDomain_rest (dka dkb id : Bytes) (s : State) :
    putDomain dka dkb id s = { s with store := (putDomain dka dkb id s).store, fab := (putDomain dka dkb id s).fab } := by
  unfold putDomain
  have first := putReserved_rest 0 dka dkb s
  refine (putReserved_rest 1 _ _ _).trans ?_
  generalize putReserved 1 _ _ _ = u
  rw [first]

/-- The domain objects of the life-cycle state, with the wrapped key. -/
def acquiredDomain (id : Bytes) (how now : Nat) (s1 : State) : State :=
  persist 4 { s1 with life := { s1.life with
    dkWrapped := kwpWrap (s1.life.rootMain.fit 32) s1.domainKeys.1, domId := id.fit 16, domSince := now, domHow := how } }

theorem acquireDomain_eq (dk id : Bytes) (how : Nat) (s : State) :
    acquireDomain dk id how s = beginReload (acquiredDomain id how s.now (putDomain dk dk id s)) := rfl

theorem beginReload_rest (s : State) :
    beginReload s = { s with store := (beginReload s).store } ∧ ∀ n, (beginReload s).slot n = s.slot n := by
  unfold beginReload
  split <;> exact ⟨rfl, fun _ => rfl⟩

/-- A domain key acquired: slots 0 and 1 hold it and its transport key. -/
theorem acquireDomain_leaves (dk id : Bytes) (how : Nat) (s : State) :
    let t := acquireDomain dk id how s
    t.life.domHow = how ∧ t.life.domId = id.fit 16 ∧ t.life.root = s.life.root ∧
      ((t.slot 0).st = .loaded ∧ (t.slot 0).a.key.clear = dk) ∧
      ((t.slot 1).st = .loaded ∧ (t.slot 1).a.key.clear = transportKey dk id) ∧
      (∀ n, 2 ≤ n → t.slot n = s.slot n) ∧
      t.jobs = s.jobs ∧ t.mem = s.mem ∧ t.dict.force = s.dict.force ∧ t.dict.profiles = s.dict.profiles ∧ t.custody = s.custody := by
  obtain ⟨st0, key0, -⟩ := putReserved_slot 0 dk dk s
  obtain ⟨st1, key1, -⟩ := putReserved_slot 1 (transportKey dk id) (transportKey dk id) (putReserved 0 dk dk s)
  have zero := putReserved_slot_ne (n := 1) (k := 0) (transportKey dk id) (transportKey dk id) (putReserved 0 dk dk s) (by decide)
  have others (n : Nat) (high : 2 ≤ n) : (putDomain dk dk id s).slot n = s.slot n :=
    (putReserved_slot_ne _ _ _ (by omega)).trans (putReserved_slot_ne _ _ _ (by omega))
  rw [← zero] at st0 key0
  obtain ⟨reloads, slots⟩ := beginReload_rest (acquiredDomain id how s.now (putDomain dk dk id s))
  have rest := putDomain_rest dk dk id s
  rw [acquireDomain_eq]
  intro t
  have slot (n : Nat) : t.slot n = (putDomain dk dk id s).slot n := slots n
  refine ⟨(congrArg (fun x : State => x.life.domHow) reloads :), (congrArg (fun x : State => x.life.domId) reloads :),
    (congrArg (fun x : State => x.life.root) reloads).trans (congrArg (fun x : State => x.life.root) rest :),
    ⟨(congrArg Slot.st (slot 0)).trans st0, (congrArg (fun x : Slot => x.a.key.clear) (slot 0)).trans key0⟩,
    ⟨(congrArg Slot.st (slot 1)).trans st1, (congrArg (fun x : Slot => x.a.key.clear) (slot 1)).trans key1⟩,
    fun n high => (slot n).trans (others n high),
    (congrArg State.jobs reloads).trans (congrArg State.jobs rest :), (congrArg State.mem reloads).trans (congrArg State.mem rest :),
    (congrArg (fun x : State => x.dict.force) reloads).trans (congrArg (fun x : State => x.dict.force) rest :),
    (congrArg (fun x : State => x.dict.profiles) reloads).trans (congrArg (fun x : State => x.dict.profiles) rest :),
    (congrArg State.custody reloads).trans (congrArg State.custody rest :)⟩

/-- A domain acquired and the device moved to OPERATIONAL, whatever is wound up after that. -/
theorem acquired_moved {cid how : Nat} {dk id : Bytes} {s t : State}
    (w : Winds (moveLife .operational cid (acquireDomain dk id how s)) t) :
    t.life.lc = .operational ∧ t.life.domHow = how ∧ t.life.domId = id.fit 16 ∧
      ((t.slot 0).st = .loaded ∧ (t.slot 0).a.key.clear = dk) ∧
      ((t.slot 1).st = .loaded ∧ (t.slot 1).a.key.clear = transportKey dk id) ∧ t.life.root = s.life.root ∧
      t.custody.roles = s.custody.roles ∧ (∀ f, (t.fn f).sk = []) ∧ t.link.ide = [] ∧
      t.dict.force = s.dict.force ∧ t.dict.profiles = s.dict.profiles := by
  have moved := moved_moveLife w
  obtain ⟨how', domId, root, ⟨st0, key0⟩, ⟨st1, key1⟩, -, -, -, force, profiles, custody⟩ := acquireDomain_leaves dk id how s
  have slot0 := moved.slot 0 (by rw [st0]; decide)
  have slot1 := moved.slot 1 (by rw [st1]; decide)
  exact ⟨(congrArg Life.lc moved.life :), (congrArg Life.domHow moved.life).trans how', (congrArg Life.domId moved.life).trans domId,
    ⟨(congrArg Slot.st slot0).trans st0, (congrArg (fun x : Slot => x.a.key.clear) slot0).trans key0⟩,
    ⟨(congrArg Slot.st slot1).trans st1, (congrArg (fun x : Slot => x.a.key.clear) slot1).trans key1⟩,
    (congrArg Life.root moved.life).trans root, moved.roles.trans (congrArg Custody.roles custody), moved.sk, moved.ide,
    moved.force.trans force, moved.profiles.trans profiles⟩

/-- ... where no job ends at the transition. -/
theorem acquired_kept {s : State} (idle : ∀ k ∈ s.jobs, endsAtTransition k = false) (cid how : Nat) (dk id : Bytes) :
    (moveLife .operational cid (acquireDomain dk id how s)).mem = s.mem ∧
      ∀ n, 2 ≤ n → (moveLife .operational cid (acquireDomain dk id how s)).slot n = s.slot n := by
  obtain ⟨-, -, -, -, -, others, jobs, mem, -, -, -⟩ := acquireDomain_leaves dk id how s
  obtain ⟨same, slots⟩ := kept_moveLife (s := acquireDomain dk id how s) (by rw [jobs]; exact idle) .operational cid
  refine ⟨same.trans mem, fun n high => Eq.trans ?_ (others n high)⟩
  unfold State.slot
  rw [slots]

theorem fit_of_length {b : Bytes} {n : Nat} (h : b.length = n) : b.fit n = b := slice_append_right (a := []) (b := b) rfl h

theorem domainCreate_ends {s u : State} {c : Ceremony} {b : Bytes} (ex : Executing s Act.domainCreate c)
    (drawn : fwRandom 48 s = .ok (b, u)) :
    ActionDone .domainCreate s (moveLife .operational c.id (acquireDomain (b.take 32) (b.drop 32) 1 u)) c ∧
    Answers .domainCreate s fun t => t.life.lc = .operational ∧ t.life.domHow = 1 ∧ t.life.domId = b.drop 32 ∧
      (t.slot 0).st = .loaded ∧ (t.slot 0).a.key.clear = b.take 32 ∧ (t.slot 1).st = .loaded ∧
      (t.slot 1).a.key.clear = transportKey (b.take 32) (b.drop 32) ∧ t.life.root = s.life.root ∧ t.custody.cer = none ∧
      t.custody.roles = s.custody.roles ∧ (∀ f, (t.fn f).sk = []) ∧ t.link.ide = [] ∧ MoveFrame (2 ≤ ·) s t := by
  have ends := exec_runDraw (i := .domainCreate) (by rfl) ex (congrArg (Drawn.go · _) drawn)
  have done : ActionDone .domainCreate s (moveLife .operational c.id (acquireDomain (b.take 32) (b.drop 32) 1 u)) c := actionDone ends
  refine ⟨done, ?_⟩
  obtain ⟨t, ht, calm⟩ := done
  obtain ⟨wound, closed, mem, store⟩ := winds_acted calm
  obtain ⟨len, left⟩ := draws_fwRandom drawn
  obtain ⟨lc, how, domId, ⟨st0, key0⟩, ⟨st1, key1⟩, root, roles, sk, ide, force, profiles⟩ := acquired_moved wound
  refine ⟨t, ht, lc, how, domId.trans (fit_of_length (by rw [List.length_drop, len])), st0, key0, st1, key1,
    root.trans (congrArg Life.root left.life), closed, roles.trans (congrArg Custody.roles left.custody), sk, ide,
    force.trans left.force, profiles.trans left.profiles, fun idle => ?_⟩
  obtain ⟨same, others⟩ := acquired_kept (idle_of_draws left idle) c.id 1 (b.take 32) (b.drop 32)
  refine ⟨mem.trans (same.trans left.mem), fun n high => ?_⟩
  have kept : t.slot n = (moveLife .operational c.id (acquireDomain (b.take 32) (b.drop 32) 1 u)).slot n := by
    unfold State.slot
    rw [store]
  refine kept.trans ((others n high).trans ?_)
  unfold State.slot
  rw [left.store]

/-- Settles O44: the three actions, and their waits for random bytes. -/
theorem initialiseCustodiansDomain : Obligations.InitialiseCustodiansDomain := by
  unfold Obligations.InitialiseCustodiansDomain
  refine ⟨fun s u c root ex drawn => initialise_ends ex drawn, fun s u c ex short => ?_, fun s c ex => custodians_ends ex,
    fun s u c b ex drawn => domainCreate_ends ex drawn, fun s u c ex short => ?_⟩
  · exact answers_settled (exec_runDraw_waits (by rfl) ex (congrArg (Drawn.go · _) short)) (.refl u)
  · exact answers_settled (exec_runDraw_waits (by rfl) ex (congrArg (Drawn.go · _) short)) (.refl u)

end Sys2Proof.Safety
end

section
/-!
PROOFS. What the join and share actions leave (R244, R245, R246).
-/

-- In turn: a proof that waits for others beside it takes a thread and its stack from the memory that the check allows.
set_option Elab.async false

namespace Sys2Proof.Safety

open Sys2Proof.Machine

/-! ## What the actions draw -/

theorem go_go {α β γ : Type} (d : Drawn α) (h : α → State → Drawn β) (k : β → State → Except State γ) :
    Drawn.go (d.go h) k = d.go fun a t => Drawn.go (h a t) k := by
  cases d <;> rfl

/-- A draw that is there, and what is made of it. -/
theorem go_ok {α β : Type} {d : Drawn α} {a : α} {t : State} (h : d = .ok (a, t)) (k : α → State → Except State β) : d.go k = k a t := by
  rw [h]
  rfl

theorem go_error {α β : Type} {d : Drawn α} {t : State} (h : d = .error t) (k : α → State → Except State β) : d.go k = .error t := by
  rw [h]
  rfl

theorem drawn_drawPair (s : State) : DrawnWith (fun _ _ => True) s (drawPair s) :=
  (drawn_fwKey 0x09 s).go fun _ t _ _ => (drawn_fwKey 0x19 t).go fun _ _ _ _ => ⟨trivial, .refl _⟩

theorem drawn_drawShares : ∀ (n : Nat) (s : State), DrawnWith (fun _ _ => True) s (drawShares n s)
  | 0, s => ⟨trivial, .refl s⟩
  | n + 1, s => (drawn_fwKey 0x09 s).go fun _ t _ _ => (drawn_fwRandom 32 t).go fun _ u _ _ =>
      (drawn_drawShares n u).go fun _ _ _ _ => ⟨trivial, .refl _⟩

theorem drawn_admitDraws (s : State) : DrawnWith (fun _ _ => True) s (admitDraws s) :=
  (drawn_fwRandom 32 s).go fun nonce v _ _ => (drawn_makeStatement nonce v).go fun _ _ _ _ => ⟨trivial, .refl _⟩

theorem drawn_joinDraws (o : Bytes) (s : State) : DrawnWith (fun _ _ => True) s (joinDraws o s) :=
  (drawn_fwRandom 32 s).go fun _ v _ _ => (drawn_drawPair v).go fun _ w _ _ => (drawn_makeStatement _ w).go fun _ _ _ _ => ⟨trivial, .refl _⟩

theorem drawn_restoreDraws (front : Bytes) (s : State) : DrawnWith (fun _ _ => True) s (restoreDraws front s) :=
  (drawn_drawPair s).go fun _ w _ _ => (drawn_makeStatement _ w).go fun _ _ _ _ => ⟨trivial, .refl _⟩

theorem drawn_exportDraws (k n : Nat) (s : State) : DrawnWith (fun _ _ => True) s (exportDraws k n s) :=
  (drawn_fwRandom _ s).go fun _ v _ _ => (drawn_drawShares n v).go fun _ _ _ _ => ⟨trivial, .refl _⟩

/-! ## Actions with a message -/

/-- A caller without room learns the length it needs, and the ceremony gathers again. -/
theorem finishAction_noRoom {c : Ceremony} {a : ActOut} {s : State} (cer : s.custody.cer = some c)
    (long : ¬ a.out.length ≤ callerRoom s c.caller) :
    finishAction c a s = answerCaller c.caller { status := 0x20, detail := 0x24, r0 := a.out.length } []
      (withCer (some { c with stage := .gathering, caller := none }) s) := by
  unfold finishAction
  dsimp only
  rw [if_pos (by omega), modCer_of_cer cer]

theorem done_withLength (out : Bytes) :
    (if out.isEmpty then ({ status := Status.ok } : Done) else { status := Status.ok, r0 := out.length }) =
      { status := 0x00, r0 := out.length } := by
  cases out <;> rfl

theorem message_window {i : Instr} {s u : State} {c : Ceremony} {out : Bytes} {e : Nat} (g : Ceremony → Ceremony)
    (cer : s.custody.cer = some c) (left : Draws s u)
    (ends : exec i s = settled s (finishAction c { done := { status := Status.ok }, out := out, next := .window e, s := modCer g u } s)) :
    MessageOrNoRoom i s u c (some { g c with stage := .window, windowEnd := e, caller := none }) out := by
  unfold MessageOrNoRoom
  split
  · next fits =>
    have kept : u.custody.cer = some c := (congrArg Custody.cer left.custody).trans cer
    refine answers_settled ends ?_
    unfold finishAction
    dsimp only
    rw [if_neg (by omega), done_withLength, modCer_of_cer kept, modCer_of_cer (c := g c) rfl]
    exact .refl _
  · next long =>
    refine answers_settled ends ?_
    rw [finishAction_noRoom cer long]
    exact .refl _

theorem message_closes {i : Instr} {s u : State} {c : Ceremony} {out : Bytes} (cer : s.custody.cer = some c)
    (ends : exec i s = settled s (finishAction c { done := { status := Status.ok }, out := out, s := u } s)) :
    MessageOrNoRoom i s u c none out := by
  unfold MessageOrNoRoom
  split
  · next fits =>
    refine answers_settled ends ?_
    unfold finishAction
    dsimp only
    rw [if_neg (by omega), done_withLength]
    exact (quiet_ceremonyRecord c 3 (withCer none u)).answerCaller_of_fns (fns_ceremonyRecord ..) _ _ _
  · next long =>
    refine answers_settled ends ?_
    rw [finishAction_noRoom cer long]
    exact .refl _

/-! ## DOMAIN_ADMIT, DOMAIN_JOIN, SHARE_RESTORE, SHARE_EXPORT -/

/-- What DOMAIN_ADMIT makes of what it draws. -/
def admitAct (c : Ceremony) (x : Bytes × Bytes) (u : State) : Except State ActOut :=
  let ends := u.now + c.params.leAt 16 2 * second
  let offer := joinMsg 1 (u.life.domId.fit 16 ++ c.params.slice 8 8 ++ Bytes.ofLE 8 ends ++ x.1 ++ Bytes.ofLE 4 x.2.length ++ x.2)
  .ok { done := { status := Status.ok }, out := offer, next := .window ends, s := modCer (fun c => { c with offer := offer }) u }

theorem domainAdmit_eq (s : State) : exec .domainAdmit s = runDraw Act.domainAdmit (fun c s => (admitDraws s).go (admitAct c)) s := by
  simp only [admitDraws, go_go]
  rfl

theorem domainAdmit_sends {s : State} {c : Ceremony} (ex : Executing s Act.domainAdmit c) :
    match admitDraws s with
    | .error u => Answers .domainAdmit s (Quiet u) ∧ DrawFrame s u
    | .ok ((nonce, att), u) =>
      let ends := s.now + c.params.leAt 16 2 * second
      let offer := joinMsg 1 (s.life.domId.fit 16 ++ c.params.slice 8 8 ++ Bytes.ofLE 8 ends ++ nonce ++ Bytes.ofLE 4 att.length ++ att)
      MessageOrNoRoom .domainAdmit s u c (some { c with offer := offer, stage := .window, windowEnd := ends, caller := none }) offer ∧
        DrawFrame s u := by
  have drawn := drawn_admitDraws s
  split
  · next u short =>
    rw [short] at drawn
    exact ⟨answers_settled (exec_runDraw_waits (domainAdmit_eq s) ex (go_error short _)) (.refl u), Draws.frame drawn⟩
  · next nonce att u there =>
    rw [there] at drawn
    obtain ⟨-, left⟩ := drawn
    intro ends offer
    have step := exec_runDraw (domainAdmit_eq s) ex (go_ok there _)
    rw [left.now, left.life] at step
    exact ⟨message_window (fun c => { c with offer := offer }) ex.1 left step, left.frame⟩

/-- What DOMAIN_JOIN makes of what it draws. -/
def joinAct (o : Bytes) (x : Bytes × Ephemeral × Bytes) (u : State) : Except State ActOut :=
  let req := joinMsg 2 (x.1 ++ x.2.1.epk ++ x.2.1.ek ++ Bytes.ofLE 4 x.2.2.length ++ x.2.2)
  .ok { done := { status := Status.ok }, out := req, next := .window (u.now + 600 * second)
        s := modCer (fun c => { c with offer := o, request := req, secret := x.2.1.secret }) u }

/-- DOMAIN_JOIN by its draws. -/
def joinBody (c : Ceremony) (s : State) : Except State ActOut :=
  let o := offerOf c.params
  if offerOk c.params = false then .ok (notActed (bad 0x35) s)
  else if peerIs (peerClaims (offerAtt o)) (c.params.leAt 8 8) 2 (c.params.slice 16 16) (o.slice 52 32) = false then
    .ok (notActed (bad 0x36) s)
  else (joinDraws o s).go (joinAct o)

theorem domainJoin_eq (s : State) : exec .domainJoin s = runDraw Act.domainJoin joinBody s := by
  unfold joinBody
  simp only [joinDraws, go_go]
  rfl

/-- What SHARE_RESTORE makes of what it draws. -/
def restoreAct (c : Ceremony) (x : Ephemeral × Bytes) (u : State) : Except State ActOut :=
  let req := joinMsg 4 (c.params.slice 8 32 ++ Bytes.ofNats [(c.params.at_ 40).toNat] ++ x.1.epk ++ x.1.ek ++ x.2)
  .ok { done := { status := Status.ok }, out := req, next := .window (u.now + 3600 * second)
        s := modCer (fun c => { c with request := x.1.epk ++ x.1.ek, secret := x.1.secret }) u }

theorem shareRestore_eq (s : State) :
    exec .shareRestore s = runDraw Act.shareRestore (fun c s => (restoreDraws (c.params.slice 8 32) s).go (restoreAct c)) s := by
  simp only [restoreDraws, go_go]
  rfl

/-- The share records of an export. -/
def exportRecords (c : Ceremony) (b : Bytes) (l : List (Bytes × Bytes)) (u : State) : Bytes :=
  let k := (c.params.at_ 8).toNat
  let n := (c.params.at_ 9).toNat
  let dk := (u.domainKey.getD []).fit 32
  let id := u.life.domId.fit 16
  l.zipIdx.flatMap fun x =>
    let p := recipient c.params x.2
    shareRecord (shareHead k n (x.2 + 1) id (b.take 16) (shareCheck id dk) u.now (recipientId (p.slice 32 97) (p.slice 129 1568)))
      (shareOf dk (b.drop 16) k (x.2 + 1)) (p.slice 32 97) (p.slice 129 1568) x.1.1 x.1.2

/-- What SHARE_EXPORT makes of what it draws. -/
def exportAct (c : Ceremony) (x : Bytes × List (Bytes × Bytes)) (u : State) : Except State ActOut :=
  .ok { done := { status := Status.ok }, out := exportRecords c x.1 x.2 u, s := u }

theorem shareExport_eq (s : State) : exec .shareExport s = runDraw Act.shareExport (fun c s =>
    (exportDraws (c.params.at_ 8).toNat (c.params.at_ 9).toNat s).go (exportAct c)) s := by
  simp only [exportDraws, go_go]
  rfl

/-- An action that is refused leaves its ceremony gathering again. -/
theorem quiet_notActed {s : State} {c : Ceremony} (cer : s.custody.cer = some c) (d : Done) :
    finishAction c (notActed d s) s = answerCaller c.caller d [] (withCer (some { c with stage := .gathering, caller := none }) s) := by
  unfold finishAction notActed
  dsimp only
  rw [if_neg (show ¬ (([] : Bytes).length > callerRoom s c.caller) from Nat.not_lt_zero _), modCer_of_cer cer]
  rfl

/-- A test whose two outcomes are proved apart. -/
theorem ite_of {c p q : Prop} [Decidable c] (yes : c → p) (no : ¬c → q) : if c then p else q := by
  split
  · next h => exact yes h
  · next h => exact no h

theorem domainJoin_gathers {s : State} {c : Ceremony} {d : Done} (ex : Executing s Act.domainJoin c)
    (ends : exec .domainJoin s = settled s (finishAction c (notActed d s) s)) :
    ActionEnds .domainJoin s s c (some { c with stage := .gathering, caller := none }) d [] := by
  refine answers_settled ends ?_
  rw [quiet_notActed ex.1]
  exact .refl _

theorem domainJoin_sends {s : State} {c : Ceremony} (ex : Executing s Act.domainJoin c) (o : Bytes)
    (draws : joinBody c s = (joinDraws o s).go (joinAct o)) :
    match joinDraws o s with
    | .error u => Answers .domainJoin s (Quiet u) ∧ DrawFrame s u
    | .ok ((nonce, k, att), u) =>
      let req := joinMsg 2 (nonce ++ k.epk ++ k.ek ++ Bytes.ofLE 4 att.length ++ att)
      MessageOrNoRoom .domainJoin s u c (some { c with offer := o, request := req, secret := k.secret, stage := .window
                                                       windowEnd := s.now + 600 * second, caller := none }) req ∧
        DrawFrame s u := by
  have drawn := drawn_joinDraws o s
  split
  · next u short =>
    rw [short] at drawn
    exact ⟨answers_settled (exec_runDraw_waits (domainJoin_eq s) ex (draws.trans (go_error short _))) (.refl u), Draws.frame drawn⟩
  · next nonce k att u there =>
    rw [there] at drawn
    obtain ⟨-, left⟩ := drawn
    intro req
    have step := exec_runDraw (domainJoin_eq s) ex (draws.trans (go_ok there _))
    rw [left.now] at step
    exact ⟨message_window (fun c => { c with offer := o, request := req, secret := k.secret }) ex.1 left step, left.frame⟩

theorem shareRestore_sends :
  ∀ (s : State) (c : Ceremony), Executing s Act.shareRestore c →
      let front := c.params.slice 8 32
      match restoreDraws front s with
      | .error u => Answers .shareRestore s (Quiet u) ∧ DrawFrame s u
      | .ok ((k, att), u) =>
        let req := joinMsg 4 (front ++ Bytes.ofNats [(c.params.at_ 40).toNat] ++ k.epk ++ k.ek ++ att)
        MessageOrNoRoom .shareRestore s u c (some { c with request := k.epk ++ k.ek, secret := k.secret, stage := .window
                                                           windowEnd := s.now + 3600 * second, caller := none }) req ∧
          DrawFrame s u := by
  intro s c ex front
  have drawn := drawn_restoreDraws front s
  split
  · next u short =>
    rw [short] at drawn
    exact ⟨answers_settled (exec_runDraw_waits (shareRestore_eq s) ex (go_error short _)) (.refl u), Draws.frame drawn⟩
  · next k att u there =>
    rw [there] at drawn
    obtain ⟨-, left⟩ := drawn
    intro req
    have step := exec_runDraw (shareRestore_eq s) ex (go_ok there _)
    rw [left.now] at step
    exact ⟨message_window (fun c => { c with request := k.epk ++ k.ek, secret := k.secret }) ex.1 left step, left.frame⟩

theorem shareExport_sends :
  ∀ (s : State) (c : Ceremony), Executing s Act.shareExport c →
      let k := (c.params.at_ 8).toNat
      let n := (c.params.at_ 9).toNat
      match exportDraws k n s with
      | .error u => Answers .shareExport s (Quiet u) ∧ DrawFrame s u
      | .ok ((b, l), u) =>
        let dk := (s.domainKey.getD []).fit 32
        let id := s.life.domId.fit 16
        let out := l.zipIdx.flatMap fun x =>
          let p := recipient c.params x.2
          shareRecord (shareHead k n (x.2 + 1) id (b.take 16) (shareCheck id dk) s.now (recipientId (p.slice 32 97) (p.slice 129 1568)))
            (shareOf dk (b.drop 16) k (x.2 + 1)) (p.slice 32 97) (p.slice 129 1568) x.1.1 x.1.2
        MessageOrNoRoom .shareExport s u c none out ∧ DrawFrame s u := by
  intro s c ex k n
  have drawn := drawn_exportDraws k n s
  split
  · next u short =>
    rw [short] at drawn
    exact ⟨answers_settled (exec_runDraw_waits (shareExport_eq s) ex (go_error short _)) (.refl u), Draws.frame drawn⟩
  · next b l u there =>
    rw [there] at drawn
    obtain ⟨-, left⟩ := drawn
    intro dk id out
    have step := exec_runDraw (shareExport_eq s) ex (go_ok there _)
    have same : exportRecords c b l u = exportRecords c b l s := by
      have key : u.domainKey = s.domainKey := by unfold State.domainKey State.slot; rw [left.store]
      unfold exportRecords
      rw [left.now, left.life, key]
    rw [same] at step
    exact ⟨message_closes ex.1 step, left.frame⟩

/-- Settles O45: the four actions by what they draw. -/
theorem joinsAndShares : Obligations.JoinsAndShares := by
  unfold Obligations.JoinsAndShares
  refine ⟨fun s c ex => domainAdmit_sends ex, ?_, shareRestore_sends, shareExport_sends⟩
  intro s c ex o
  generalize formed : offerOk c.params = b
  generalize peer : peerIs (peerClaims (offerAtt o)) (c.params.leAt 8 8) 2 (c.params.slice 16 16) (o.slice 52 32) = p
  cases b with
  | false => exact domainJoin_gathers ex (exec_runDraw (domainJoin_eq s) ex (if_pos formed))
  | true =>
    have good : ¬ offerOk c.params = false := by simp [formed]
    cases p with
    | false => exact domainJoin_gathers ex (exec_runDraw (domainJoin_eq s) ex ((if_neg good).trans (if_pos peer)))
    | true => exact domainJoin_sends ex o ((if_neg good).trans (if_neg (by simp [o, peer])))

end Sys2Proof.Safety
end

section
/-!
PROOFS. CONTINUE, and the domain key from two shares (R244 to R246).
-/

-- In turn: a proof that waits for others beside it takes a thread and its stack from the memory that the check allows.
set_option Elab.async false

namespace Sys2Proof.Safety

open Sys2Proof.Machine

/-! ## Multiplication in GF(2^8) is linear (R245) -/

/-- A byte where a bit is set. -/
def gated (b : Bool) (x : Byte) : Byte := if b then x else 0

theorem gated_xor (a b : Bool) (x : Byte) : gated (a ^^ b) x = gated a x ^^^ gated b x := by
  cases a <;> cases b <;> simp [gated]

theorem gated_xor_right (a : Bool) (x y : Byte) : gated a (x ^^^ y) = gated a x ^^^ gated a y := by
  cases a <;> simp [gated]

theorem aesXtime_eq (a : Byte) : aesXtime a = (a <<< 1) ^^^ gated a.msb 0x1B#8 := by
  unfold aesXtime
  cases a.msb <;> simp [gated]

theorem aesXtime_xor (a b : Byte) : aesXtime (a ^^^ b) = aesXtime a ^^^ aesXtime b := by
  simp only [aesXtime_eq, BitVec.shiftLeft_xor_distrib, BitVec.msb_xor, gated_xor]
  ac_rfl

/-- `a` doubled `i` times. -/
def xtimes (a : Byte) : Nat → Byte
  | 0 => a
  | i + 1 => aesXtime (xtimes a i)

theorem xtimes_xor (a b : Byte) : ∀ i, xtimes (a ^^^ b) i = xtimes a i ^^^ xtimes b i
  | 0 => rfl
  | i + 1 => by rw [xtimes, xtimes_xor a b i, aesXtime_xor]; rfl

theorem gfMul_eq (a b : Byte) : gfMul a b =
    gated (b.getLsbD 0) (xtimes a 0) ^^^ gated (b.getLsbD 1) (xtimes a 1) ^^^ gated (b.getLsbD 2) (xtimes a 2) ^^^
    gated (b.getLsbD 3) (xtimes a 3) ^^^ gated (b.getLsbD 4) (xtimes a 4) ^^^ gated (b.getLsbD 5) (xtimes a 5) ^^^
    gated (b.getLsbD 6) (xtimes a 6) ^^^ gated (b.getLsbD 7) (xtimes a 7) := by
  have step (p q : Byte) (c : Bool) : (if c = true then p ^^^ q else p) = p ^^^ gated c q := by cases c <;> simp [gated]
  unfold gfMul
  rw [show List.range 8 = [0, 1, 2, 3, 4, 5, 6, 7] from rfl]
  simp only [List.foldl_cons, List.foldl_nil, step]
  rw [show ((0 : Byte) ^^^ gated (b.getLsbD 0) a) = gated (b.getLsbD 0) a from BitVec.zero_xor]
  rfl

theorem gfMul_xor_right (a b c : Byte) : gfMul a (b ^^^ c) = gfMul a b ^^^ gfMul a c := by
  simp only [gfMul_eq, BitVec.getLsbD_xor, gated_xor]
  ac_rfl

theorem gfMul_xor_left (a b c : Byte) : gfMul (a ^^^ b) c = gfMul a c ^^^ gfMul b c := by
  simp only [gfMul_eq, xtimes_xor, gated_xor_right]
  ac_rfl

/-- Two linear maps that agree on the eight unit bytes agree. -/
theorem linear_ext {f g : Byte → Byte} (hf : ∀ a b, f (a ^^^ b) = f a ^^^ f b) (hg : ∀ a b, g (a ^^^ b) = g a ^^^ g b)
    (units : ∀ i : Fin 8, f (BitVec.twoPow 8 i) = g (BitVec.twoPow 8 i)) (b : Byte) : f b = g b := by
  have zero {h : Byte → Byte} (hh : ∀ a b, h (a ^^^ b) = h a ^^^ h b) : h 0 = 0 := by
    have twice := hh 0 0
    rwa [BitVec.xor_self, BitVec.xor_self] at twice
  have bit (i : Fin 8) (c : Bool) : f (gated c (BitVec.twoPow 8 i)) = g (gated c (BitVec.twoPow 8 i)) := by
    cases c with
    | false => exact (zero hf).trans (zero hg).symm
    | true => exact units i
  have bits : ∀ b : Byte, b =
      gated (b.getLsbD 0) (BitVec.twoPow 8 (0 : Fin 8)) ^^^ gated (b.getLsbD 1) (BitVec.twoPow 8 (1 : Fin 8)) ^^^
      gated (b.getLsbD 2) (BitVec.twoPow 8 (2 : Fin 8)) ^^^ gated (b.getLsbD 3) (BitVec.twoPow 8 (3 : Fin 8)) ^^^
      gated (b.getLsbD 4) (BitVec.twoPow 8 (4 : Fin 8)) ^^^ gated (b.getLsbD 5) (BitVec.twoPow 8 (5 : Fin 8)) ^^^
      gated (b.getLsbD 6) (BitVec.twoPow 8 (6 : Fin 8)) ^^^ gated (b.getLsbD 7) (BitVec.twoPow 8 (7 : Fin 8)) := by decide +kernel
  rw [bits b]
  simp only [hf, hg, bit]

theorem gfMul_comm (a b : Byte) : gfMul a b = gfMul b a := by
  refine linear_ext (f := fun a => gfMul a b) (g := fun a => gfMul b a) (gfMul_xor_left · · b) (gfMul_xor_right b) (fun i => ?_) a
  refine linear_ext (f := gfMul _) (g := fun b => gfMul b _) (gfMul_xor_right _) (gfMul_xor_left · · _) (fun k => ?_) b
  revert i k
  decide +kernel

theorem gfMul_assoc (a b c : Byte) : gfMul (gfMul a b) c = gfMul a (gfMul b c) := by
  refine linear_ext (f := fun a => gfMul (gfMul a b) c) (g := fun a => gfMul a (gfMul b c)) (fun _ _ => by simp only [gfMul_xor_left])
    (fun _ _ => by simp only [gfMul_xor_left]) (fun i => ?_) a
  refine linear_ext (f := fun b => gfMul (gfMul _ b) c) (g := fun b => gfMul _ (gfMul b c))
    (fun _ _ => by simp only [gfMul_xor_left, gfMul_xor_right]) (fun _ _ => by simp only [gfMul_xor_left, gfMul_xor_right]) (fun k => ?_) b
  refine linear_ext (f := fun c => gfMul _ c) (g := fun c => gfMul _ (gfMul _ c))
    (fun _ _ => by simp only [gfMul_xor_right]) (fun _ _ => by simp only [gfMul_xor_right]) (fun l => ?_) c
  revert i k l
  decide +kernel

theorem gfMul_one (a : Byte) : gfMul 1 a = a := by
  refine linear_ext (f := gfMul 1) (g := id) (gfMul_xor_right 1) (fun _ _ => rfl) ?_ a
  decide +kernel

/-- The power `k + 1` of a byte. -/
def gfPow (a : Byte) (k : Nat) : Byte := (List.range k).foldl (fun p _ => gfMul p a) a

theorem gfPow_succ (a : Byte) (k : Nat) : gfPow a (k + 1) = gfMul (gfPow a k) a := by
  unfold gfPow
  rw [List.range_succ, List.foldl_append]
  rfl

theorem gfPow_add (a : Byte) (j : Nat) : ∀ k, gfPow a (j + k + 1) = gfMul (gfPow a j) (gfPow a k)
  | 0 => gfPow_succ a j
  | k + 1 => by rw [← Nat.add_assoc, gfPow_succ, gfPow_add a j k, gfPow_succ a k, gfMul_assoc]

/-- Squared and multiplied once more: the exponent doubles and grows by one. -/
def gfStep (a p : Byte) : Byte := gfMul (gfMul p p) a

theorem gfPow_step (a : Byte) (k : Nat) : gfPow a (2 * k + 2) = gfStep a (gfPow a k) := by
  rw [gfPow_succ, Nat.two_mul, gfPow_add]
  rfl

theorem gfSteps_one : ∀ a : Byte, a ≠ 0 → gfStep a (gfStep a (gfStep a (gfStep a (gfStep a (gfStep a (gfStep a a)))))) = 1 := by
  decide +kernel

theorem gfMul_gfInv {a : Byte} (h : a ≠ 0) : gfMul a (gfInv a) = 1 := by
  rw [gfMul_comm, show gfInv a = gfPow a 253 from rfl, ← gfPow_succ, ← gfSteps_one a h]
  have chain := fun k => gfPow_step a k
  rw [chain 126, chain 62, chain 30, chain 14, chain 6, chain 2, chain 0]
  rfl

/-! ## Two shares give the key back (R245, R246) -/

theorem gfMul_zero_left (a : Byte) : gfMul 0 a = 0 := by
  have twice := gfMul_xor_left 0 0 a
  rwa [BitVec.xor_self, BitVec.xor_self] at twice

theorem gfEval_pair (x d c : Byte) : gfEval x [d, c] = gfMul c x ^^^ d := by
  show gfMul (gfMul 0 x ^^^ c) x ^^^ d = _
  rw [gfMul_zero_left, show (0 : Byte) ^^^ c = c from BitVec.zero_xor]

/-- The weights at 0 of two points. -/
theorem gfWeight_pair {x y : Nat} (ne : x ≠ y) :
    gfWeight [x, y] x = gfMul (BitVec.ofNat 8 y) (gfInv (BitVec.ofNat 8 x ^^^ BitVec.ofNat 8 y)) ∧
    gfWeight [x, y] y = gfMul (BitVec.ofNat 8 x) (gfInv (BitVec.ofNat 8 x ^^^ BitVec.ofNat 8 y)) := by
  unfold gfWeight
  simp [ne, Ne.symm ne, BitVec.xor_comm (BitVec.ofNat 8 y)]
  exact ⟨gfMul_one _, gfMul_one _⟩

/-- The line through two shares of a byte meets 0 at the byte. -/
theorem gf_line {x y : Byte} (ne : x ≠ y) (d c : Byte) :
    gfMul (gfMul y (gfInv (x ^^^ y))) (gfMul c x ^^^ d) ^^^ gfMul (gfMul x (gfInv (x ^^^ y))) (gfMul c y ^^^ d) = d := by
  have apart : x ^^^ y ≠ 0 := fun h => ne (BitVec.xor_eq_zero_iff.mp h)
  have slopes : gfMul (gfMul y (gfInv (x ^^^ y))) (gfMul c x) = gfMul (gfMul x (gfInv (x ^^^ y))) (gfMul c y) := by
    have comm : Std.Commutative gfMul := ⟨gfMul_comm⟩
    have assoc : Std.Associative gfMul := ⟨gfMul_assoc⟩
    ac_rfl
  have whole : gfMul (gfMul y (gfInv (x ^^^ y))) d ^^^ gfMul (gfMul x (gfInv (x ^^^ y))) d = d := by
    rw [← gfMul_xor_left, ← gfMul_xor_left, BitVec.xor_comm y, gfMul_gfInv apart, gfMul_one]
  rw [gfMul_xor_right, gfMul_xor_right, slopes]
  calc _ = (gfMul (gfMul x (gfInv (x ^^^ y))) (gfMul c y) ^^^ gfMul (gfMul x (gfInv (x ^^^ y))) (gfMul c y)) ^^^
        (gfMul (gfMul y (gfInv (x ^^^ y))) d ^^^ gfMul (gfMul x (gfInv (x ^^^ y))) d) := by ac_rfl
    _ = d := by rw [BitVec.xor_self, whole]; exact BitVec.zero_xor

theorem shareOf_at {dk coef : Bytes} {i : Nat} (x : Nat) (hi : i < 32) :
    Bytes.at_ (shareOf dk coef 2 x) i = gfMul (coef.getD i 0) (BitVec.ofNat 8 x) ^^^ dk.getD i 0 := by
  rw [← gfEval_pair]
  unfold shareOf Bytes.at_
  rw [List.getD_eq_getElem _ _ (by simpa using hi), List.getElem_map, List.getElem_zipIdx]
  simp [Bytes.fit, Bytes.slice]

theorem interpolate_two {dk coef : Bytes} {x y : Nat} (len : dk.length = 32) (hx : x ≤ 16) (hy : y ≤ 16) (ne : x ≠ y) :
    interpolate [(x, shareOf dk coef 2 x), (y, shareOf dk coef 2 y)] = dk := by
  have apart : BitVec.ofNat 8 x ≠ BitVec.ofNat 8 y := fun h => ne (by
    have nat := congrArg BitVec.toNat h
    rw [BitVec.toNat_ofNat, BitVec.toNat_ofNat] at nat
    omega)
  obtain ⟨wx, wy⟩ := gfWeight_pair ne
  unfold interpolate
  refine List.ext_getElem (by rw [List.length_map, List.length_range, len]) fun i hi hd => ?_
  have small : i < 32 := by rwa [List.length_map, List.length_range] at hi
  rw [List.getElem_map, List.getElem_range]
  show (0 ^^^ gfMul (gfWeight [x, y] x) (Bytes.at_ (shareOf dk coef 2 x) i)) ^^^ gfMul (gfWeight [x, y] y) (Bytes.at_ (shareOf dk coef 2 y) i) = _
  rw [wx, wy, shareOf_at x small, shareOf_at y small, show (0 : Byte) ^^^ _ = _ from BitVec.zero_xor, gf_line apart, List.getD_eq_getElem _ _ hd]

/-! ## CONTINUE (R227, R244, R246) -/

/-- A CONTINUE whose message is read. -/
structure Continuing (s : State) (j : Job) (c : Ceremony) : Prop where
  admin : s.admin? 0 Op.ceremony = some j
  op : cerOp j.entry = 3
  rows : firstFail (continueRows s j.entry) = none
  read : j.reads = .arrived
  named : s.named j.entry = some c

theorem continueBody {s : State} {j : Job} {c : Ceremony} (h : Continuing s j c) :
    (match firstFail (continueRows s j.entry) with
      | some d => (some d, s)
      | none => afterReads j s fun s => adminAnswer j (cerOut j.entry) (continueGo j.entry (j.input 0 s) s)) =
    adminAnswer j (cerOut j.entry) (continueGo j.entry (j.input 0 s) s) := by
  rw [h.rows]
  exact if_pos h.read

theorem continueGo_waits {s u : State} {j : Job} {c : Ceremony} {m : Bytes} (h : Continuing s j c) (act : continueAct c m s = .error u) :
    continueGo j.entry m s = (none, [], u) := by
  unfold continueGo
  rw [h.rows, h.named]
  dsimp only
  rw [act]

theorem continueGo_long {s : State} {j : Job} {c : Ceremony} {m : Bytes} {a : ActOut} (h : Continuing s j c)
    (act : continueAct c m s = .ok a) (long : a.out.length > cerMax j.entry) :
    continueGo j.entry m s = refuse (bad 0x24 a.out.length) s := by
  unfold continueGo
  rw [h.rows, h.named]
  dsimp only
  rw [act]
  dsimp only
  rw [if_pos long]

theorem continueGo_closes {s : State} {j : Job} {c : Ceremony} {m : Bytes} {a : ActOut} (h : Continuing s j c)
    (act : continueAct c m s = .ok a) (fits : ¬ a.out.length > cerMax j.entry) (next : a.next = .close) :
    continueGo j.entry m s = (some (if a.out.isEmpty then a.done else { a.done with r0 := a.out.length }), a.out,
      ceremonyRecord c 3 (withCer none a.s)) := by
  unfold continueGo
  rw [h.rows, h.named]
  dsimp only
  rw [act]
  dsimp only
  rw [if_neg fits, next]

theorem continueGo_keeps {s : State} {j : Job} {c : Ceremony} {m : Bytes} {a : ActOut} (h : Continuing s j c)
    (act : continueAct c m s = .ok a) (none : a.out = []) (next : a.next = .reopen) :
    continueGo j.entry m s = (some a.done, [], a.s) := by
  unfold continueGo
  rw [h.rows, h.named]
  dsimp only
  rw [act]
  dsimp only
  rw [none, next, if_neg (show ¬ ([] : Bytes).length > cerMax j.entry from Nat.not_lt_zero _)]
  rfl

/-- A CONTINUE that is done. -/
theorem exec_continue {s t : State} {j : Job} {c : Ceremony} {d : Done} (h : Continuing s j c)
    (go : adminAnswer j (cerOut j.entry) (continueGo j.entry (j.input 0 s) s) = (some d, t)) :
    exec .ceremonyContinue s = settled s (decideJob j.ref d t) :=
  exec_ceremony_done (by rfl) h.admin h.op ((continueBody h).trans go)

/-- A CONTINUE that leaves its window open. -/
theorem continue_keeps {s : State} {j : Job} {c : Ceremony} {a : ActOut} (h : Continuing s j c)
    (act : continueAct c (j.input 0 s) s = .ok a) (none : a.out = []) (next : a.next = .reopen) :
    Completes .ceremonyContinue s j a.done a.s := by
  refine completes_of_exec (exec_continue h ?_)
  rw [continueGo_keeps h act none next]
  rfl

/-- A CONTINUE that closes its ceremony, without output. -/
theorem continue_closes {s : State} {j : Job} {c : Ceremony} {a : ActOut} (h : Continuing s j c)
    (act : continueAct c (j.input 0 s) s = .ok a) (none : a.out = []) (next : a.next = .close) :
    Completes .ceremonyContinue s j a.done (withCer Option.none a.s) := by
  refine completes_of_quiet (exec_continue h ?_) (quiet_ceremonyRecord c 3 (withCer Option.none a.s))
  rw [continueGo_closes h act (by rw [none]; exact Nat.not_lt_zero _) next, none]
  rfl

/-- A domain that a CONTINUE brings: what the state then holds. -/
theorem domain_brought {s : State} {j : Job} {cid : Nat} {dk id : Bytes} {how : Nat} (sixteen : id.length = 16)
    (done : Completes .ceremonyContinue s j { status := 0x00 } (withCer none (moveLife .operational cid (acquireDomain dk id how s)))) :
    Answers .ceremonyContinue s fun t => t.custody.cer = none ∧ t.life.lc = .operational ∧ t.life.domHow = how ∧
      t.life.domId = id ∧ (t.slot 0).st = .loaded ∧ (t.slot 0).a.key.clear = dk ∧ t.life.root = s.life.root ∧ MoveFrame (2 ≤ ·) s t := by
  obtain ⟨t, ht, calm⟩ := done
  have wound := (winds_withCer none (moveLife .operational cid (acquireDomain dk id how s))).trans
    ((winds_modJob j.ref _ _).trans (.of_quiet calm))
  obtain ⟨lc, how', domId, ⟨st0, key0⟩, -, root, -, -, -, force, profiles⟩ := acquired_moved wound
  refine ⟨t, ht, congrArg Custody.cer calm.custody, lc, how', domId.trans (fit_of_length sixteen), st0, key0, root, force, profiles, fun idle => ?_⟩
  obtain ⟨same, others⟩ := acquired_kept idle cid how dk id
  refine ⟨calm.mem.trans same, fun n high => Eq.trans ?_ (others n high)⟩
  have store := calm.store
  unfold State.slot
  rw [store]
  rfl

theorem continueRestore_none {c : Ceremony} {m : Bytes} {s : State} (opened : openShare c m = none) :
    continueRestore c m s = notActed (bad 0x38) s := by
  unfold continueRestore
  rw [opened]

theorem continueRestore_some {c : Ceremony} {m v : Bytes} {s : State} (opened : openShare c m = some v) :
    continueRestore c m s =
      let l := c.shares ++ [((m.at_ 8).toNat, v)]
      if l.length < (c.params.at_ 40).toNat then
        { done := { status := Status.ok }, next := .reopen, s := modCer (fun c => { c with shares := l, check := m.slice 0x30 16 }) s }
      else if shareCheck (c.params.slice 8 16) (interpolate l) = m.slice 0x30 16 then
        acted (moveLife .operational c.id (acquireDomain (interpolate l) (c.params.slice 8 16) 3 s))
      else { done := bad 0x39, s := s } := by
  unfold continueRestore
  rw [opened]

theorem continueAct_restore {c : Ceremony} {m : Bytes} {s : State} (is : c.action = Act.shareRestore) :
    continueAct c m s = .ok (continueRestore c m s) := by
  unfold continueAct
  rw [is]
  rfl

theorem continueAct_join {c : Ceremony} {m : Bytes} {s : State} (is : c.action = Act.domainJoin) :
    continueAct c m s = .ok (continueJoin c m s) := by
  unfold continueAct
  rw [is]
  rfl

/-- A share record that opened: kept while `more` are needed, then its CHECK is `right` or wrong. -/
theorem restore_steps {s : State} {j : Job} {c : Ceremony} {l : List (Nat × Bytes)} {check dk id : Bytes} {more right : Prop}
    [Decidable more] [Decidable right] (h : Continuing s j c) (sixteen : id.length = 16)
    (act : continueAct c (j.input 0 s) s = .ok (if more then
        { done := { status := Status.ok }, next := .reopen, s := modCer (fun c => { c with shares := l, check := check }) s }
      else if right then acted (moveLife .operational c.id (acquireDomain dk id 3 s)) else { done := bad 0x39, s := s })) :
    if more then Completes .ceremonyContinue s j { status := 0x00 } (withCer (some { c with shares := l, check := check }) s)
    else if right then
      Completes .ceremonyContinue s j { status := 0x00 } (withCer none (moveLife .operational c.id (acquireDomain dk id 3 s))) ∧
      Answers .ceremonyContinue s fun t => t.custody.cer = none ∧ t.life.lc = .operational ∧ t.life.domHow = 3 ∧
        t.life.domId = id ∧ (t.slot 0).st = .loaded ∧ (t.slot 0).a.key.clear = dk ∧ t.life.root = s.life.root ∧
        MoveFrame (2 ≤ ·) s t
    else Completes .ceremonyContinue s j { status := 0x20, detail := 0x39 } (withCer none s) := by
  refine ite_of (fun yes => ?_) fun full => ?_
  · rw [if_pos yes, modCer_of_cer (cer_of_named h.named)] at act
    exact continue_keeps h act rfl rfl
  rw [if_neg full] at act
  refine ite_of (fun yes => ?_) fun wrong => ?_
  · rw [if_pos yes] at act
    have done := continue_closes h act rfl rfl
    exact ⟨done, domain_brought sixteen done⟩
  · rw [if_neg wrong] at act
    exact continue_closes h act rfl rfl

/-- A share restore: R246, steps 3 and 4. -/
theorem restore_continues {s : State} {j : Job} {c : Ceremony} (h : Continuing s j c) (is : c.action = Act.shareRestore) :
    let m := j.input 0 s
    match openShare c m with
    | none => Completes .ceremonyContinue s j { status := 0x20, detail := 0x38 } s
    | some v =>
      let l := c.shares ++ [((m.at_ 8).toNat, v)]
      let id := c.params.slice 8 16
      if l.length < (c.params.at_ 40).toNat then
        Completes .ceremonyContinue s j { status := 0x00 } (withCer (some { c with shares := l, check := m.slice 0x30 16 }) s)
      else if shareCheck id (interpolate l) = m.slice 0x30 16 then
        Completes .ceremonyContinue s j { status := 0x00 }
          (withCer none (moveLife .operational c.id (acquireDomain (interpolate l) id 3 s))) ∧
        Answers .ceremonyContinue s fun t => t.custody.cer = none ∧ t.life.lc = .operational ∧ t.life.domHow = 3 ∧
          t.life.domId = id ∧ (t.slot 0).st = .loaded ∧ (t.slot 0).a.key.clear = interpolate l ∧ t.life.root = s.life.root ∧
          MoveFrame (2 ≤ ·) s t
      else Completes .ceremonyContinue s j { status := 0x20, detail := 0x39 } (withCer none s) := by
  intro m
  have act := continueAct_restore (m := m) (s := s) is
  generalize opened : openShare c m = o
  cases o with
  | none =>
    rw [continueRestore_none opened] at act
    exact continue_keeps h act rfl rfl
  | some v =>
    rw [continueRestore_some opened] at act
    exact restore_steps h (length_slice _ _ _) act

/-- The sponsor's RESPONSE, or its refusal. -/
def Admitted (s : State) (a : ActOut) : Prop :=
  a = notActed (bad 0x35) s ∨ a = notActed (bad 0x36) s ∨
    (a.out ≠ [] ∧ a.next = .close ∧ a.done = { status := Status.ok } ∧ Draws s a.s)

/-- What is made of a draw that is there. -/
theorem acted_go {α : Type} {P : α → State → Prop} {Q : ActOut → Prop} {s : State} {d : Drawn α} {k : α → State → Except State ActOut}
    (drawn : DrawnWith P s d) (next : ∀ x t, Draws s t → ∀ a, k x t = .ok a → Q a) : ∀ a, d.go k = .ok a → Q a := by
  match d, drawn with
  | .error t, _ => exact fun a h => (nomatch h)
  | .ok (x, t), ⟨_, left⟩ => exact next x t left

theorem joinMsg_ne_nil (ty : Nat) (body : Bytes) : joinMsg ty body ≠ [] := by
  unfold joinMsg joinHead
  exact fun h => by simp [Bytes.ofLE] at h

theorem admitted_continueAdmit {c : Ceremony} {m : Bytes} {s : State} : ∀ a, continueAdmit c m s = .ok a → Admitted s a := by
  unfold continueAdmit
  dsimp only
  generalize (joinOk 2 m && _ && _ && _ && _) = formed
  cases formed with
  | false => exact fun a h => .inl (Except.ok.inj h).symm
  | true =>
  rw [if_neg (by decide)]
  generalize peerIs _ _ _ _ _ = known
  cases known with
  | false => exact fun a h => .inr (.inl (Except.ok.inj h).symm)
  | true =>
  rw [if_neg (by decide)]
  refine acted_go (drawn_fwKey 0x09 s) fun e t l1 => acted_go (drawn_fwRandom 32 t) fun rnd u l2 => ?_
  refine acted_go (drawn_attSign 1 _ u) fun g1 v l3 => acted_go (drawn_attSign 2 _ v) fun g2 w l4 a h => ?_
  obtain rfl := Except.ok.inj h
  exact .inr (.inr ⟨joinMsg_ne_nil _ _, rfl, rfl, ((l1.trans l2).trans l3).trans l4⟩)

/-- The RESPONSE is written and the ceremony closed. -/
theorem continue_answers {s : State} {j : Job} {c : Ceremony} {a : ActOut} (h : Continuing s j c)
    (act : continueAct c (j.input 0 s) s = .ok a) (fits : ¬ a.out.length > cerMax j.entry) (some : a.out ≠ []) (next : a.next = .close)
    (ok : a.done = { status := Status.ok }) :
    Completes .ceremonyContinue s j { status := 0x00, r0 := a.out.length } (hostWrite 0 (cerOut j.entry) a.out (withCer none a.s)) := by
  have go := continueGo_closes h act fits next
  rw [if_neg (by simpa using some), ok] at go
  refine completes_of_quiet (exec_continue h ?_)
    ((quiet_ceremonyRecord c 3 (withCer none a.s)).hostWrite (fns_ceremonyRecord ..) 0 (cerOut j.entry) a.out)
  rw [go, adminAnswer_writes _ _ _ some, (admin_spec h.admin).2.1]

/-- The CONTINUE of an admission: R244, step 3. -/
theorem admit_continues {s : State} {j : Job} {c : Ceremony} (h : Continuing s j c) (is : c.action = Act.domainAdmit) :
    match continueAdmit c (j.input 0 s) s with
    | .error u => Answers .ceremonyContinue s (Quiet u)
    | .ok a =>
      if a.out.length > cerMax j.entry then
        Completes .ceremonyContinue s j { status := 0x20, detail := 0x24, r0 := a.out.length } s
      else if a.out.isEmpty then Completes .ceremonyContinue s j a.done s ∧ (a.done.detail = 0x35 ∨ a.done.detail = 0x36)
      else Completes .ceremonyContinue s j { status := 0x00, r0 := a.out.length }
          (hostWrite 0 (cerOut j.entry) a.out (withCer none a.s)) ∧
        a.s.life = s.life ∧ a.s.store = s.store ∧ a.s.mem = s.mem ∧ a.s.custody = s.custody := by
  have act : continueAct c (j.input 0 s) s = continueAdmit c (j.input 0 s) s := if_pos is
  have admitted := admitted_continueAdmit (c := c) (m := j.input 0 s) (s := s)
  generalize continueAdmit c (j.input 0 s) s = answer at act admitted
  cases answer with
  | error u =>
    refine answers_settled (exec_ceremony_wait (by rfl) h.admin h.op ((continueBody h).trans ?_)) (.refl u)
    rw [continueGo_waits h act]
    rfl
  | ok a =>
    refine ite_of (fun long => ?_) fun fits => ite_of (fun silent => ?_) fun some => ?_
    · refine completes_of_exec (exec_continue h ?_)
      rw [continueGo_long h act long]
      rfl
    · obtain rfl | rfl | ⟨spoken, -⟩ := admitted a rfl
      · exact ⟨continue_keeps h act rfl rfl, .inl rfl⟩
      · exact ⟨continue_keeps h act rfl rfl, .inr rfl⟩
      · exact absurd (by simpa using silent) spoken
    · obtain rfl | rfl | ⟨spoken, next, ok, left⟩ := admitted a rfl
      · exact absurd rfl some
      · exact absurd rfl some
      · exact ⟨continue_answers h act fits spoken next ok, left.life, left.store, left.mem, left.custody⟩

/-- A CONTINUE whose check fails drops the ephemeral keys. -/
theorem continue_drops {s : State} {j : Job} {c : Ceremony} {d : Done} (h : Continuing s j c)
    (act : continueAct c (j.input 0 s) s = .ok (dropSecret d s)) :
    Completes .ceremonyContinue s j d (withCer (some { c with secret := [] }) s) := by
  have done := continue_keeps h act rfl rfl
  rw [show (dropSecret d s).s = withCer (some { c with secret := [] }) s from modCer_of_cer (cer_of_named h.named) _] at done
  exact done

/-- What a join's CONTINUE does with a message that is `formed`, its key unwrapped or not and its signatures `signed` or not. -/
theorem join_steps {s : State} {j : Job} {c : Ceremony} {formed signed : Bool} {plain : Option Bytes} {id : Bytes} (h : Continuing s j c)
    (sixteen : id.length = 16)
    (act : continueAct c (j.input 0 s) s = .ok (if formed = false then dropSecret (bad 0x35) s
      else match plain with
        | some b =>
          if signed && decide (c.secret ≠ []) && decide (b.length = 48) && decide (b.take 16 = id) then
            acted (moveLife .operational c.id (acquireDomain (b.drop 16) id 2 s))
          else dropSecret (bad 0x37) s
        | none => dropSecret (bad 0x37) s)) :
    let dropped := withCer (some { c with secret := [] }) s
    if formed = false then Completes .ceremonyContinue s j { status := 0x20, detail := 0x35 } dropped
    else match (generalizing := false) plain with
      | none => Completes .ceremonyContinue s j { status := 0x20, detail := 0x37 } dropped
      | some b =>
        if signed = true ∧ c.secret ≠ [] ∧ b.length = 48 ∧ b.take 16 = id then
          Completes .ceremonyContinue s j { status := 0x00 }
            (withCer none (moveLife .operational c.id (acquireDomain (b.drop 16) id 2 s))) ∧
          Answers .ceremonyContinue s fun t => t.custody.cer = none ∧ t.life.lc = .operational ∧ t.life.domHow = 2 ∧
            t.life.domId = id ∧ (t.slot 0).a.key.clear = b.drop 16 ∧ t.life.root = s.life.root ∧ MoveFrame (2 ≤ ·) s t
        else Completes .ceremonyContinue s j { status := 0x20, detail := 0x37 } dropped := by
  intro dropped
  cases formed with
  | false => exact continue_drops h act
  | true =>
  rw [if_neg (by decide)] at act ⊢
  cases plain with
  | none => exact continue_drops h act
  | some b =>
    dsimp only at act ⊢
    have same : (signed && decide (c.secret ≠ []) && decide (b.length = 48) && decide (b.take 16 = id)) = true ↔
        signed = true ∧ c.secret ≠ [] ∧ b.length = 48 ∧ b.take 16 = id := by
      simp only [Bool.and_eq_true, decide_eq_true_eq, and_assoc]
    refine ite_of (fun good => ?_) fun bad => ?_
    · rw [if_pos (same.2 good)] at act
      have done := continue_closes h act rfl rfl
      refine ⟨done, (domain_brought sixteen done).imp ?_⟩
      rintro t ⟨cer, lc, how, domId, -, rest⟩
      exact ⟨cer, lc, how, domId, rest⟩
    · rw [if_neg (mt same.1 bad)] at act
      exact continue_drops h act

/-- Settles O46: CONTINUE by its ceremony's action, and the line through two shares. -/
theorem continueRestoresTheKey : Obligations.ContinueRestoresTheKey := by
  unfold Obligations.ContinueRestoresTheKey
  refine ⟨fun s j c hj hop rows read named is => restore_continues ⟨hj, hop, rows, read, named⟩ is,
    fun s j c hj hop rows read named is => admit_continues ⟨hj, hop, rows, read, named⟩ is,
    fun s j c hj hop rows read named is => join_steps ⟨hj, hop, rows, read, named⟩ (length_slice _ _ _) (continueAct_join is),
    fun dk coef x y len _ hx _ hy ne => interpolate_two len hx hy ne⟩

end Sys2Proof.Safety
end

section
/-!
PROOFS. What the life-cycle actions leave (R219, R221, R235, R236).
-/

-- In turn: a proof that waits for others beside it takes a thread and its stack from the memory that the check allows.
set_option Elab.async false

namespace Sys2Proof.Safety

open Sys2Proof.Machine

/-! ## What the steps of a transition leave alone -/

/-- `t` holds the latches, memory, roles, session and IDE keys and dictionary values of `s`. -/
structure Beside (s t : State) : Prop where
  latch : t.vesper.latch = s.vesper.latch
  repeats : t.vesper.repeats = s.vesper.repeats
  mem : t.mem = s.mem
  roles : t.custody.roles = s.custody.roles
  quorumM : t.custody.quorumM = s.custody.quorumM
  ide : t.link.ide = s.link.ide
  sk (f : Nat) : (t.fn f).sk = (s.fn f).sk
  force : t.dict.force = s.dict.force
  profiles : t.dict.profiles = s.dict.profiles

theorem Beside.trans {s t u : State} (a : Beside s t) (b : Beside t u) : Beside s u :=
  ⟨b.latch.trans a.latch, b.repeats.trans a.repeats, b.mem.trans a.mem, b.roles.trans a.roles, b.quorumM.trans a.quorumM,
    b.ide.trans a.ide, fun f => (b.sk f).trans (a.sk f), b.force.trans a.force, b.profiles.trans a.profiles⟩

theorem Beside.refl (s : State) : Beside s s := ⟨rfl, rfl, rfl, rfl, rfl, rfl, fun _ => rfl, rfl, rfl⟩

theorem Beside.of_quiet {s t : State} (q : Quiet s t) : Beside s t :=
  ⟨congrArg Vesper.latch q.vesper, congrArg Vesper.repeats q.vesper, q.mem, congrArg Custody.roles q.custody,
    congrArg Custody.quorumM q.custody, congrArg Link.ide q.link, q.sk, q.force, q.profiles⟩

theorem Beside.of_winds {s t : State} (w : Winds s t) (mem : t.mem = s.mem) : Beside s t :=
  ⟨congrArg Vesper.latch w.vesper, congrArg Vesper.repeats w.vesper, mem, w.roles, w.quorumM, congrArg Link.ide w.link, w.sk, w.force,
    w.profiles⟩

/-- A change elsewhere. -/
theorem Beside.of_fields {s t : State} (latch : t.vesper.latch = s.vesper.latch := by exact rfl)
    (repeats : t.vesper.repeats = s.vesper.repeats := by exact rfl) (mem : t.mem = s.mem := by exact rfl)
    (custody : t.custody = s.custody := by exact rfl) (link : t.link = s.link := by exact rfl) (fns : t.fns = s.fns := by exact rfl)
    (dict : t.dict.force = s.dict.force ∧ t.dict.profiles = s.dict.profiles := by exact ⟨rfl, rfl⟩) : Beside s t :=
  ⟨latch, repeats, mem, congrArg Custody.roles custody, congrArg Custody.quorumM custody, congrArg Link.ide link,
    fun f => by unfold State.fn; rw [fns], dict.1, dict.2⟩

theorem beside_enterLife (x : LifeState) (id : Nat) (s : State) : Beside s (enterLife x id s) :=
  .trans .of_fields (.of_quiet (quiet_enterLife x id s))

theorem life_enterLife (x : LifeState) (id : Nat) (s : State) : (enterLife x id s).life = { s.life with
    lc := x, changed := if s.clock.running then s.now else s.vesper.calendar
    lockClass := if x = .locked then s.life.lockClass else .none_
    lockTime := if x = .locked then s.life.lockTime else 0 } := (quiet_enterLife x id s).life

theorem slot_enterLife (x : LifeState) (id : Nat) (s : State) (n : Nat) : (enterLife x id s).slot n = s.slot n := by
  unfold State.slot
  rw [(quiet_enterLife x id s).store]
  rfl

theorem beside_putReserved (n : Nat) (ka kb : Bytes) (s : State) : Beside s (putReserved n ka kb s) := by
  rw [putReserved_rest]
  exact .of_fields

theorem beside_putAttest (s : State) : Beside s (putAttest s) := (beside_putReserved ..).trans (beside_putReserved ..)

theorem life_putReserved (n : Nat) (ka kb : Bytes) (s : State) : (putReserved n ka kb s).life = s.life := by
  rw [putReserved_rest]

theorem life_putAttest (s : State) : (putAttest s).life = s.life := (life_putReserved ..).trans (life_putReserved ..)

theorem life_putDomain (dka dkb id : Bytes) (s : State) : (putDomain dka dkb id s).life = s.life :=
  (life_putReserved ..).trans (life_putReserved ..)

/-- Slots 2 and 3 hold the attestation keys; no other slot changes. -/
theorem putAttest_slots (s : State) : ((putAttest s).slot 2).st = .loaded ∧ ((putAttest s).slot 3).st = .loaded ∧
    ∀ n, n ≠ 2 → n ≠ 3 → (putAttest s).slot n = s.slot n := by
  unfold putAttest
  refine ⟨?_, (putReserved_slot 3 _ _ _).1, fun n two three => (putReserved_slot_ne _ _ _ three).trans (putReserved_slot_ne _ _ _ two)⟩
  rw [putReserved_slot_ne _ _ _ (by decide)]
  exact (putReserved_slot 2 _ _ _).1

theorem beside_putDomain (dka dkb id : Bytes) (s : State) : Beside s (putDomain dka dkb id s) :=
  (beside_putReserved ..).trans (beside_putReserved ..)

theorem beside_beginReload (s : State) : Beside s (beginReload s) ∧ (beginReload s).life = s.life := by
  unfold beginReload
  split <;> exact ⟨.of_fields, rfl⟩

theorem beside_acquireDomain (dk id : Bytes) (how : Nat) (s : State) : Beside s (acquireDomain dk id how s) := by
  rw [acquireDomain_eq]
  exact (beside_putDomain dk dk id s).trans
    (.trans (t := acquiredDomain id how s.now (putDomain dk dk id s)) .of_fields (beside_beginReload (acquiredDomain id how s.now (putDomain dk dk id s))).1)

theorem lc_acquireDomain (dk id : Bytes) (how : Nat) (s : State) : (acquireDomain dk id how s).life.lc = s.life.lc := by
  rw [acquireDomain_eq, (beside_beginReload _).2]
  exact (congrArg Life.lc (life_putDomain dk dk id s) :)

theorem quiet_markBad (n : Nat) (s : State) : Quiet (modSlot n (fun x => { x with st := .bad, reloadDue := true }) s) (markBad n s) :=
  (quiet_bump _ _).trans ((quiet_setErr _ _ _).trans (quiet_record ..))

theorem slot_of_quiet {s t : State} (q : Quiet s t) (n : Nat) : t.slot n = s.slot n := by
  unfold State.slot
  rw [q.store]

/-- Slots 0 and 1 alone change when the domain key comes back; slot 0 holds it or is BAD. -/
theorem reloadDomain_leaves (s : State) :
    Beside s (reloadDomain s) ∧ (reloadDomain s).life = s.life ∧ (∀ n, 2 ≤ n → (reloadDomain s).slot n = s.slot n) ∧
      (s.life.dkWrapped ≠ [] → ((reloadDomain s).slot 0).st = .loaded ∨ ((reloadDomain s).slot 0).st = .bad) := by
  unfold reloadDomain
  split
  · next none => exact ⟨.refl s, rfl, fun _ _ => rfl, fun some => absurd none some⟩
  split
  · next ka kb _ _ =>
    refine ⟨beside_putDomain _ _ _ _, life_putDomain _ _ _ _, fun n high => ?_, fun _ => .inl ?_⟩
    · exact (putReserved_slot_ne _ _ _ (by omega)).trans (putReserved_slot_ne _ _ _ (by omega))
    · unfold putDomain
      rw [putReserved_slot_ne _ _ _ (by decide)]
      exact (putReserved_slot 0 _ _ _).1
  · have calm := quiet_markBad 0 s
    refine ⟨.trans .of_fields (.of_quiet calm), calm.life, fun n high => ?_, fun _ => .inr ?_⟩
    · rw [slot_of_quiet calm, slot_modSlot_ne _ _ (by omega)]
    · rw [slot_of_quiet calm, slot_modSlot_self]

/-! ## What every transition leaves (R219, R220, R356) -/

/-- What leaving a life-cycle state leaves of `s`. -/
structure Left (s t : State) : Prop where
  life : t.life = s.life
  latch : s.vesper.latch = 0 → s.vesper.repeats = 0 → t.vesper.latch = 0 ∧ t.vesper.repeats = 0
  roles : t.custody.roles = s.custody.roles
  ide : t.link.ide = []
  sk (f : Nat) : (t.fn f).sk = []
  force : t.dict.force = s.dict.force
  profiles : t.dict.profiles = s.dict.profiles
  idle : (∀ k ∈ s.jobs, endsAtTransition k = false) → t.mem = s.mem ∧ t.store = s.store

theorem left_leaveLife (atOnce keep : Bool) (s : State) : Left s (leaveLife atOnce keep s) := by
  have wound := winds_leaveLife atOnce keep s
  obtain ⟨rest, -⟩ := unlatched_rest (eraseIde (eraseAllSets s))
  refine ⟨wound.life.trans (congrArg State.life rest :), fun latch repeats => ?_, wound.roles.trans (congrArg (fun x : State => x.custody.roles) rest :),
    (congrArg Link.ide wound.link).trans (congrArg (fun x : State => x.link.ide) rest :),
    fun f => (wound.sk f).trans ((congrArg (fun x : State => (x.fn f).sk) rest :).trans (sk_eraseAllSets f s)),
    wound.force.trans (congrArg (fun x : State => x.dict.force) rest :), wound.profiles.trans (congrArg (fun x : State => x.dict.profiles) rest :),
    fun idle => kept_leaveLife idle atOnce keep⟩
  rw [wound.vesper]
  unfold unlatched
  split
  · exact ⟨rfl, rfl⟩
  · exact ⟨latch, repeats⟩

/-- The state after an action that closes its ceremony. -/
theorem acted_leaves {c : Ceremony} {v t : State} (q : Quiet (answerCaller c.caller { status := 0x00 } [] (withCer none v)) t) :
    Beside v t ∧ t.life = v.life ∧ (∀ n, t.slot n = v.slot n) ∧ t.custody.cer = none := by
  obtain ⟨wound, closed, mem, store⟩ := winds_acted q
  exact ⟨.of_winds wound mem, wound.life, fun n => by unfold State.slot; rw [store], closed⟩

theorem slot_of_store {s t : State} (h : t.store = s.store) (n : Nat) : t.slot n = s.slot n := by
  unfold State.slot
  rw [h]

/-! ## LOCK (R236) -/

theorem lock_ends {s : State} {c : Ceremony} (ex : Executing s Act.lock c) :
    ActionDone .lock s (enterLocked .ceremony s.vesper.calendar c.id (leaveLife false true s)) c ∧
    Answers .lock s fun t => t.life.lc = .locked ∧ t.life.lockClass = .ceremony ∧ t.life.before = s.life.lc ∧
      t.life.lockTime = s.vesper.calendar ∧ t.life.root = s.life.root ∧ t.life.dkWrapped = s.life.dkWrapped ∧
      (∀ f, (t.fn f).sk = []) ∧ t.link.ide = [] ∧ t.custody.cer = none ∧ t.custody.roles = s.custody.roles ∧
      MoveFrame (fun _ => True) s t := by
  have done : ActionDone .lock s (enterLocked .ceremony s.vesper.calendar c.id (leaveLife false true s)) c :=
    actionDone (exec_runAction (i := .lock) (by rfl) ex)
  refine ⟨done, ?_⟩
  obtain ⟨t, ht, calm⟩ := done
  have left := left_leaveLife false true s
  obtain ⟨beside, life, slots, closed⟩ := acted_leaves calm
  unfold enterLocked at beside life slots
  generalize leaveLife false true s = u at left beside life slots
  have entered := (beside_enterLife .locked c.id { u with life := { u.life with before := u.life.lc, lockClass := .ceremony, lockTime := s.vesper.calendar } }).trans beside
  rw [life_enterLife] at life
  dsimp only at life
  refine ⟨t, ht, (congrArg Life.lc life :), (congrArg Life.lockClass life :), (congrArg Life.before life :).trans (congrArg Life.lc left.life :),
    (congrArg Life.lockTime life :), (congrArg Life.root life :).trans (congrArg Life.root left.life :),
    (congrArg Life.dkWrapped life :).trans (congrArg Life.dkWrapped left.life :), fun f => (entered.sk f).trans (left.sk f), entered.ide.trans left.ide,
    closed, entered.roles.trans left.roles, entered.force.trans left.force, entered.profiles.trans left.profiles, fun idle => ?_⟩
  obtain ⟨mem, store⟩ := left.idle idle
  exact ⟨entered.mem.trans mem, fun n _ => (slots n).trans ((slot_enterLife _ _ _ n).trans (slot_of_store store n))⟩

/-! ## UNLOCK (R235) -/

/-- An UNLOCK records the end of the lock and clears the latches. -/
def unlockStart (s : State) : State := clearLatches (vesperRecord 0x0703 0 s.life.lockClass.code s.vesper.repeats (s := s))

/-- A record of Vesper's changes its buffer, or is passed on. -/
theorem vesperRecord_rest (code level p0 p1 p2 p3 : Nat) (s : State) :
    ∃ v : Vesper, Quiet { s with vesper := v } (vesperRecord code level p0 p1 p2 p3 s) := by
  unfold vesperRecord
  dsimp only
  split
  · exact ⟨s.vesper, quiet_acceptRecord _ s⟩
  · exact ⟨_, .refl _⟩

/-- What UNLOCK leaves, before the transition. -/
structure Unlatched (s t : State) : Prop where
  life : t.life = s.life
  latch : t.vesper.latch = 0
  repeats : t.vesper.repeats = 0
  roles : t.custody.roles = s.custody.roles
  force : t.dict.force = s.dict.force
  profiles : t.dict.profiles = s.dict.profiles
  jobs : t.jobs = s.jobs
  mem : t.mem = s.mem
  store : t.store = s.store

theorem unlatched_unlockStart (s : State) : Unlatched s (unlockStart s) := by
  obtain ⟨v, calm⟩ := vesperRecord_rest 0x0703 0 s.life.lockClass.code s.vesper.repeats 0 0 s
  exact ⟨calm.life, rfl, rfl, congrArg Custody.roles calm.custody, calm.force, calm.profiles, calm.jobs, calm.mem, calm.store⟩

theorem unlockGo_eq (c : Ceremony) (root : Bytes) (s : State) :
    unlockGo c root s =
      let u := leaveLife false (decide (s.life.lockClass ≠ .z) && decide (s.life.lockClass ≠ .v)) (unlockStart s)
      match s.life.lockClass with
      | .v => unlockVoid c.id root (putAttest u)
      | .z => beginReload (reloadDomain (putAttest (enterLife s.life.before c.id u)))
      | _ => enterLife s.life.before c.id u := rfl

/-- An UNLOCK that nothing holds up. -/
theorem unlock_done {s : State} {c : Ceremony} (ex : Executing s Act.unlock c) (clear : startRefusal s c = none)
    (other : s.life.lockClass ≠ .v) : ActionDone .unlock s (unlockGo c [] s) c := by
  refine actionDone (exec_runDraw (i := .unlock) (by rfl) ex ?_)
  rw [clear, if_neg other]

theorem unlock_returns {s : State} {c : Ceremony} (ex : Executing s Act.unlock c) (clear : startRefusal s c = none)
    (cls : s.life.lockClass = .ceremony ∨ s.life.lockClass = .l) :
    Answers .unlock s fun t => t.life.lc = s.life.before ∧
      (s.life.before ≠ .locked → t.life.lockClass = .none_ ∧ t.life.lockTime = 0) ∧ t.vesper.latch = 0 ∧ t.vesper.repeats = 0 ∧
      t.life.root = s.life.root ∧ t.life.dkWrapped = s.life.dkWrapped ∧ t.custody.cer = none ∧
      t.custody.roles = s.custody.roles ∧ MoveFrame (fun _ => True) s t := by
  obtain ⟨t, ht, calm⟩ := unlock_done ex clear (by rcases cls with h | h <;> rw [h] <;> decide)
  have start := unlatched_unlockStart s
  have go : unlockGo c [] s = enterLife s.life.before c.id (leaveLife false true (unlockStart s)) := by
    rw [unlockGo_eq]
    rcases cls with h | h <;> rw [h] <;> rfl
  rw [go] at calm
  obtain ⟨beside, life, slots, closed⟩ := acted_leaves calm
  have left := left_leaveLife false true (unlockStart s)
  generalize leaveLife false true (unlockStart s) = u at left beside life slots
  have entered := (beside_enterLife s.life.before c.id u).trans beside
  rw [life_enterLife] at life
  have held := left.life.trans start.life
  obtain ⟨latch, repeats⟩ := left.latch start.latch start.repeats
  refine ⟨t, ht, (congrArg Life.lc life :), fun out => ⟨?_, ?_⟩, entered.latch.trans latch, entered.repeats.trans repeats,
    (congrArg Life.root life :).trans (congrArg Life.root held :), (congrArg Life.dkWrapped life :).trans (congrArg Life.dkWrapped held :), closed,
    entered.roles.trans (left.roles.trans start.roles), entered.force.trans (left.force.trans start.force),
    entered.profiles.trans (left.profiles.trans start.profiles), fun idle => ?_⟩
  · exact (congrArg Life.lockClass life :).trans (if_neg out)
  · exact (congrArg Life.lockTime life :).trans (if_neg out)
  · obtain ⟨mem, store⟩ := left.idle (by rw [start.jobs]; exact idle)
    exact ⟨entered.mem.trans (mem.trans start.mem),
      fun n _ => (slots n).trans ((slot_enterLife _ _ _ n).trans (slot_of_store (store.trans start.store) n))⟩

theorem unlock_reloads {s : State} {c : Ceremony} (ex : Executing s Act.unlock c) (clear : startRefusal s c = none)
    (cls : s.life.lockClass = .z) :
    Answers .unlock s fun t => t.life.lc = s.life.before ∧ (s.life.before ≠ .locked → t.life.lockClass = .none_) ∧
      t.vesper.latch = 0 ∧ t.life.root = s.life.root ∧ t.life.dkWrapped = s.life.dkWrapped ∧ (t.slot 2).st = .loaded ∧ (t.slot 3).st = .loaded ∧
      (s.life.dkWrapped ≠ [] → ((t.slot 0).st = .loaded ∨ (t.slot 0).st = .bad)) ∧ t.custody.cer = none ∧
      MoveFrame (4 ≤ ·) s t := by
  obtain ⟨t, ht, calm⟩ := unlock_done ex clear (by rw [cls]; decide)
  have start := unlatched_unlockStart s
  have go : unlockGo c [] s = beginReload (reloadDomain (putAttest (enterLife s.life.before c.id (leaveLife false false (unlockStart s))))) := by
    rw [unlockGo_eq, cls]
    rfl
  rw [go] at calm
  obtain ⟨beside, life, slots, closed⟩ := acted_leaves calm
  have left := left_leaveLife false false (unlockStart s)
  generalize leaveLife false false (unlockStart s) = u at left beside life slots
  obtain ⟨two, three, attest⟩ := putAttest_slots (enterLife s.life.before c.id u)
  obtain ⟨again, life2, domain, slot0⟩ := reloadDomain_leaves (putAttest (enterLife s.life.before c.id u))
  obtain ⟨begun, life3⟩ := beside_beginReload (reloadDomain (putAttest (enterLife s.life.before c.id u)))
  obtain ⟨-, reloading⟩ := beginReload_rest (reloadDomain (putAttest (enterLife s.life.before c.id u)))
  have all := (beside_enterLife s.life.before c.id u).trans ((beside_putAttest _).trans (again.trans (begun.trans beside)))
  have held := left.life.trans start.life
  have now := life.trans (life3.trans (life2.trans ((life_putAttest _).trans (life_enterLife _ _ _))))
  rw [life_putAttest, life_enterLife] at slot0
  have slot (n : Nat) : t.slot n = (reloadDomain (putAttest (enterLife s.life.before c.id u))).slot n := (slots n).trans (reloading n)
  obtain ⟨latch, -⟩ := left.latch start.latch start.repeats
  refine ⟨t, ht, (congrArg Life.lc now :), fun out => (congrArg Life.lockClass now :).trans (if_neg out), all.latch.trans latch,
    (congrArg Life.root now :).trans (congrArg Life.root held :), (congrArg Life.dkWrapped now :).trans (congrArg Life.dkWrapped held :),
    ?_, ?_, fun some => ?_, closed, all.force.trans (left.force.trans start.force), all.profiles.trans (left.profiles.trans start.profiles),
    fun idle => ?_⟩
  · rw [slot, domain 2 (by decide)]
    exact two
  · rw [slot, domain 3 (by decide)]
    exact three
  · rw [slot]
    exact slot0 (by rw [held]; exact some)
  · obtain ⟨mem, store⟩ := left.idle (by rw [start.jobs]; exact idle)
    refine ⟨all.mem.trans (mem.trans start.mem), fun n high => ?_⟩
    rw [slot, domain n (by omega), attest n (by omega) (by omega), slot_enterLife, slot_of_store (store.trans start.store)]

/-! ## New roots and the end of a domain -/

theorem eraseDomain_leaves (s : State) :
    Beside s (eraseDomain s) ∧ (eraseDomain s).life = { s.life with dkWrapped := [], domId := Bytes.zeros 16, domSince := 0, domHow := 0 } ∧
      ((eraseDomain s).slot 0).st = .empty ∧ ((eraseDomain s).slot 1).st = .empty ∧ ∀ n, 2 ≤ n → (eraseDomain s).slot n = s.slot n := by
  refine ⟨.of_fields, rfl, ?_, ?_, fun n high => ?_⟩
  · show (FMap.getD ((s.store.slots.set 0 _).set 1 _) 0 {}).st = _
    rw [FMap.getD_set_ne _ _ _ (by decide), FMap.getD_set_self]
    rfl
  · show (FMap.getD ((s.store.slots.set 0 _).set 1 _) 1 {}).st = _
    rw [FMap.getD_set_self]
    rfl
  · show FMap.getD ((s.store.slots.set 0 _).set 1 _) n {} = _
    rw [FMap.getD_set_ne _ _ _ (by omega), FMap.getD_set_ne _ _ _ (by omega)]
    rfl

theorem unlock_voids {s u : State} {c : Ceremony} {root : Bytes} (ex : Executing s Act.unlock c) (clear : startRefusal s c = none)
    (cls : s.life.lockClass = .v) (drawn : fwRandom 32 s = .ok (root, u)) :
    ActionDone .unlock s (unlockGo c root u) c ∧
    Answers .unlock s fun t => t.life.lc = .initialized ∧ t.life.lockClass = .none_ ∧ t.life.root = root ∧
      t.life.dkWrapped = [] ∧ t.life.domHow = 0 ∧ t.vesper.latch = 0 ∧ t.custody.cer = none ∧ MoveFrame (4 ≤ ·) s t := by
  have done : ActionDone .unlock s (unlockGo c root u) c := by
    refine actionDone (exec_runDraw (i := .unlock) (by rfl) ex ?_)
    rw [clear, if_pos cls, drawn]
    rfl
  refine ⟨done, ?_⟩
  obtain ⟨t, ht, calm⟩ := done
  have drew := (draws_fwRandom drawn).2
  have start := unlatched_unlockStart u
  have go : unlockGo c root u = enterLife .initialized c.id (newRoot root (eraseDomain (putAttest (leaveLife false false (unlockStart u))))) := by
    rw [unlockGo_eq, drew.life, cls]
    rfl
  rw [go] at calm
  obtain ⟨beside, life, slots, closed⟩ := acted_leaves calm
  have left := left_leaveLife false false (unlockStart u)
  generalize leaveLife false false (unlockStart u) = v at left beside life slots
  obtain ⟨-, -, attest⟩ := putAttest_slots v
  obtain ⟨erased, gone, -, -, others⟩ := eraseDomain_leaves (putAttest v)
  have renewed : Beside (eraseDomain (putAttest v)) (newRoot root (eraseDomain (putAttest v))) := .of_fields
  have all := (beside_putAttest v).trans (erased.trans (renewed.trans ((beside_enterLife .initialized c.id _).trans beside)))
  have now := life.trans (life_enterLife _ _ _)
  obtain ⟨latch, -⟩ := left.latch start.latch start.repeats
  refine ⟨t, ht, (congrArg Life.lc now :), (congrArg Life.lockClass now :), (congrArg Life.root now :),
    (congrArg Life.dkWrapped now :).trans (congrArg Life.dkWrapped gone :), (congrArg Life.domHow now :).trans (congrArg Life.domHow gone :),
    all.latch.trans latch, closed, all.force.trans (left.force.trans (start.force.trans drew.force)),
    all.profiles.trans (left.profiles.trans (start.profiles.trans drew.profiles)), fun idle => ?_⟩
  obtain ⟨mem, store⟩ := left.idle (by rw [start.jobs]; exact idle_of_draws drew idle)
  refine ⟨all.mem.trans (mem.trans (start.mem.trans drew.mem)), fun n high => ?_⟩
  rw [slots, slot_enterLife]
  refine (others n (by omega)).trans ((attest n (by omega) (by omega)).trans ?_)
  exact slot_of_store (store.trans (start.store.trans drew.store)) n

/-! ## DEBUG and the end (R219, R221, R236) -/

/-- Of the slots but 2 and 3 nothing is left. -/
theorem slot_destroyStore (s : State) (n : Nat) :
    (n = 2 ∨ n = 3 → (destroyStore s).slot n = s.slot n) ∧ (n ≠ 2 → n ≠ 3 → ((destroyStore s).slot n).st = .empty) := by
  have found := FMap.find?_mapVal s.store.slots (fun k (x : Slot) => if k = 2 ∨ k = 3 then x else emptySlot x) n
  unfold State.slot FMap.getD destroyStore
  dsimp only
  rw [found]
  cases s.store.slots.find? n with
  | none => exact ⟨fun _ => rfl, fun _ _ => rfl⟩
  | some x =>
    refine ⟨fun attest => ?_, fun two three => ?_⟩
    · exact congrArg (Option.getD · _) (congrArg some (if_pos attest))
    · show (if n = 2 ∨ n = 3 then x else emptySlot x).st = .empty
      rw [if_neg (by omega)]
      rfl

theorem destroyAll_leaves (s : State) :
    Beside (leaveLife true false s) (destroyAll s) ∧
      (destroyAll s).life = { (leaveLife true false s).life with
        root := [], rootMain := [], dkWrapped := [], domId := Bytes.zeros 16, domSince := 0, domHow := 0 } ∧
      ∀ n, 4 ≤ n → ((destroyAll s).slot n).st = .empty := by
  unfold destroyAll
  generalize leaveLife true false s = u
  obtain ⟨erased, gone, -, -, others⟩ := eraseDomain_leaves (destroyStore (eraseSlots u))
  refine ⟨.trans (.trans .of_fields erased) .of_fields, ?_, fun n high => ?_⟩
  · show ({ (eraseDomain (destroyStore (eraseSlots u))).life with root := [], rootMain := [] } : Life) = _
    rw [gone]
    rfl
  · show ((eraseDomain (destroyStore (eraseSlots u))).slot n).st = _
    rw [others n (by omega)]
    exact (slot_destroyStore _ n).2 (by omega) (by omega)

theorem startRefusal_none {s : State} {c : Ceremony} (unlock : c.action ≠ Act.unlock) (high : c.action = Act.debugEnter → s.boot.testEn = true) :
    startRefusal s c = none := by
  unfold startRefusal
  rw [decide_eq_false unlock]
  by_cases enter : c.action = Act.debugEnter
  · rw [high enter, Bool.not_true, Bool.and_false]
    rfl
  · rw [decide_eq_false enter]
    rfl

theorem debugEnter_ends {s u : State} {c : Ceremony} {b : Bytes} (ex : Executing s Act.debugEnter c) (high : s.boot.testEn = true)
    (drawn : fwRandom 48 s = .ok (b, u)) :
    ActionDone .debugEnter s (acquireDomain (b.take 32) (b.drop 32) 4
      (putAttest (enterLife .debug c.id (newRoot testRoot (destroyAll u))))) c ∧
    Answers .debugEnter s fun t => t.life.lc = .debug ∧ t.life.root = (List.range 32).map (BitVec.ofNat 8) ∧
      t.life.domHow = 4 ∧ (t.slot 0).st = .loaded ∧ (t.slot 0).a.key.clear = b.take 32 ∧
      (∀ n, 64 ≤ n → (t.slot n).st = .empty) ∧ (∀ f, (t.fn f).sk = []) ∧ t.custody.cer = none ∧ MoveFrame (fun _ => False) s t := by
  obtain ⟨-, action, -⟩ := id ex
  have done : ActionDone .debugEnter s (acquireDomain (b.take 32) (b.drop 32) 4
      (putAttest (enterLife .debug c.id (newRoot testRoot (destroyAll u))))) c := by
    refine actionDone (exec_runDraw (i := .debugEnter) (by rfl) ex ?_)
    rw [startRefusal_none (by rw [action]; decide) fun _ => high, drawn]
    rfl
  refine ⟨done, ?_⟩
  obtain ⟨t, ht, calm⟩ := done
  have drew := (draws_fwRandom drawn).2
  obtain ⟨beside, life, slots, closed⟩ := acted_leaves calm
  have left := left_leaveLife true false u
  obtain ⟨destroyed, -, empty⟩ := destroyAll_leaves u
  generalize destroyAll u = v at beside life slots destroyed empty
  have entered := beside_enterLife .debug c.id (newRoot testRoot v)
  have lives := life_enterLife .debug c.id (newRoot testRoot v)
  have enters := slot_enterLife .debug c.id (newRoot testRoot v)
  generalize enterLife .debug c.id (newRoot testRoot v) = w at beside life slots entered lives enters
  obtain ⟨-, -, attest⟩ := putAttest_slots w
  obtain ⟨how, -, root, ⟨st0, key0⟩, -, others, -⟩ := acquireDomain_leaves (b.take 32) (b.drop 32) 4 (putAttest w)
  have acquired := beside_acquireDomain (b.take 32) (b.drop 32) 4 (putAttest w)
  have lc := congrArg Life.lc life
  rw [lc_acquireDomain, life_putAttest, lives] at lc
  rw [life_putAttest, lives] at root
  have all := destroyed.trans (Beside.trans (t := newRoot testRoot v) .of_fields (entered.trans ((beside_putAttest w).trans (acquired.trans beside))))
  refine ⟨t, ht, lc, ?_, (congrArg Life.domHow life :).trans how, ?_, ?_, fun n high => ?_, fun f => (all.sk f).trans (left.sk f), closed,
    all.force.trans (left.force.trans drew.force), all.profiles.trans (left.profiles.trans drew.profiles), fun idle => ?_⟩
  · exact (congrArg Life.root life :).trans root
  · rw [slots]
    exact st0
  · rw [slots]
    exact key0
  · rw [slots, others n (by omega), attest n (by omega) (by omega), enters]
    exact empty n (by omega)
  · obtain ⟨mem, -⟩ := left.idle (idle_of_draws drew idle)
    exact ⟨all.mem.trans (mem.trans drew.mem), fun _ never => never.elim⟩

theorem debugExit_ends {s u : State} {c : Ceremony} {root : Bytes} (ex : Executing s Act.debugExit c)
    (drawn : fwRandom 32 s = .ok (root, u)) :
    ActionDone .debugExit s (enterLife .initialized c.id (newRoot root (eraseDomain (destroyStore (leaveLife true false u))))) c ∧
    Answers .debugExit s fun t => t.life.lc = .initialized ∧ t.life.root = root ∧ t.life.dkWrapped = [] ∧
      (∀ n, 64 ≤ n → (t.slot n).st = .empty) ∧ t.custody.cer = none ∧ MoveFrame (fun n => n = 2 ∨ n = 3) s t := by
  have done : ActionDone .debugExit s (enterLife .initialized c.id (newRoot root (eraseDomain (destroyStore (leaveLife true false u))))) c := by
    refine actionDone (exec_runDraw (i := .debugExit) (by rfl) ex ?_)
    rw [drawn]
    rfl
  refine ⟨done, ?_⟩
  obtain ⟨t, ht, calm⟩ := done
  have drew := (draws_fwRandom drawn).2
  obtain ⟨beside, life, slots, closed⟩ := acted_leaves calm
  have left := left_leaveLife true false u
  generalize leaveLife true false u = v at left beside life slots
  obtain ⟨erased, gone, -, -, others⟩ := eraseDomain_leaves (destroyStore v)
  have renewed : Beside (eraseDomain (destroyStore v)) (newRoot root (eraseDomain (destroyStore v))) := .of_fields
  have all := Beside.trans (s := v) .of_fields (erased.trans (renewed.trans ((beside_enterLife .initialized c.id _).trans beside)))
  have now := life.trans (life_enterLife _ _ _)
  have slot (n : Nat) : 2 ≤ n → t.slot n = (destroyStore v).slot n := fun high => by
    rw [slots, slot_enterLife]
    exact others n high
  refine ⟨t, ht, (congrArg Life.lc now :), (congrArg Life.root now :), (congrArg Life.dkWrapped now :).trans (congrArg Life.dkWrapped gone :),
    fun n high => ?_, closed, all.force.trans (left.force.trans drew.force), all.profiles.trans (left.profiles.trans drew.profiles), fun idle => ?_⟩
  · rw [slot n (by omega)]
    exact (slot_destroyStore v n).2 (by omega) (by omega)
  · obtain ⟨mem, store⟩ := left.idle (idle_of_draws drew idle)
    refine ⟨all.mem.trans (mem.trans drew.mem), fun n attest => ?_⟩
    rw [slot n (by omega), (slot_destroyStore v n).1 attest]
    exact slot_of_store (store.trans drew.store) n

/-- Role table and stored profiles gone (R236). -/
def rolesGone (s : State) : State :=
  persist 4 { s with custody := { s.custody with roles := [], quorumM := 0, quorumN := 0 }, dict := { s.dict with profiles := [] } }

theorem decommission_ends {s : State} {c : Ceremony} (ex : Executing s Act.decommission c) :
    ActionDone .decommission s (enterLife .decommissioned c.id (putAttest (rolesGone (destroyAll s)))) c ∧
    Answers .decommission s fun t => t.life.lc = .decommissioned ∧ t.life.root = [] ∧ t.life.rootMain = [] ∧
      t.life.dkWrapped = [] ∧ t.custody.roles = [] ∧ t.custody.quorumM = 0 ∧ t.dict.profiles = [] ∧
      (∀ n, 64 ≤ n → (t.slot n).st = .empty) ∧ (∀ f, (t.fn f).sk = []) ∧ t.custody.cer = none ∧ t.dict.force = s.dict.force := by
  have done : ActionDone .decommission s (enterLife .decommissioned c.id (putAttest (rolesGone (destroyAll s)))) c :=
    actionDone (exec_runAction (i := .decommission) (by rfl) ex)
  refine ⟨done, ?_⟩
  obtain ⟨t, ht, calm⟩ := done
  obtain ⟨beside, life, slots, closed⟩ := acted_leaves calm
  have left := left_leaveLife true false s
  obtain ⟨destroyed, gone, empty⟩ := destroyAll_leaves s
  generalize destroyAll s = v at beside life slots destroyed gone empty
  obtain ⟨-, -, attest⟩ := putAttest_slots (rolesGone v)
  have all := (beside_putAttest (rolesGone v)).trans ((beside_enterLife .decommissioned c.id _).trans beside)
  have now := life.trans (life_enterLife _ _ _)
  rw [life_putAttest] at now
  have same : (rolesGone v).life = v.life := rfl
  refine ⟨t, ht, (congrArg Life.lc now :), (congrArg Life.root now :).trans (congrArg Life.root gone :),
    (congrArg Life.rootMain now :).trans (congrArg Life.rootMain gone :), (congrArg Life.dkWrapped now :).trans (congrArg Life.dkWrapped gone :),
    all.roles, all.quorumM, all.profiles, fun n high => ?_, fun f => (all.sk f).trans ((destroyed.sk f).trans (left.sk f)), closed,
    all.force.trans (destroyed.force.trans left.force)⟩
  rw [slots, slot_enterLife, attest n (by omega) (by omega)]
  exact empty n (by omega)

/-! ## What holds an action up -/

theorem refused_ends {s : State} {c : Ceremony} {i : Instr} {n : Nat} {d : Done} (ex : Executing s n c) (refusal : startRefusal s c = some d)
    (is : i = .unlock ∧ n = Act.unlock ∨ i = .debugEnter ∧ n = Act.debugEnter) :
    ActionEnds i s s c (some { c with stage := .gathering, caller := none }) d [] := by
  have ends : exec i s = settled s (finishAction c (notActed d s) s) := by
    rcases is with ⟨rfl, rfl⟩ | ⟨rfl, rfl⟩
    · refine exec_runDraw (i := .unlock) (by rfl) ex ?_
      rw [refusal]
    · refine exec_runDraw (i := .debugEnter) (by rfl) ex ?_
      rw [refusal]
  refine answers_settled ends ?_
  rw [quiet_notActed ex.1]
  exact .refl _

theorem draws_wait {s u : State} {c : Ceremony} :
    (Executing s Act.unlock c → startRefusal s c = none → s.life.lockClass = .v → fwRandom 32 s = .error u →
      Answers .unlock s (Quiet u)) ∧
    (Executing s Act.debugEnter c → s.boot.testEn = true → fwRandom 48 s = .error u → Answers .debugEnter s (Quiet u)) ∧
    (Executing s Act.debugExit c → fwRandom 32 s = .error u → Answers .debugExit s (Quiet u)) := by
  refine ⟨fun ex clear cls short => ?_, fun ex high short => ?_, fun ex short => ?_⟩
  · refine answers_settled (exec_runDraw_waits (i := .unlock) (by rfl) ex ?_) (.refl u)
    rw [clear, if_pos cls, short]
    rfl
  · obtain ⟨-, action, -⟩ := id ex
    refine answers_settled (exec_runDraw_waits (i := .debugEnter) (by rfl) ex ?_) (.refl u)
    rw [startRefusal_none (by rw [action]; decide) fun _ => high, short]
    rfl
  · refine answers_settled (exec_runDraw_waits (i := .debugExit) (by rfl) ex ?_) (.refl u)
    rw [short]
    rfl

/-- Settles O47: action by action, each from what the steps of its transition leave. -/
theorem lifeCycleActions : Obligations.LifeCycleActions := by
  unfold Obligations.LifeCycleActions
  exact ⟨fun s c ex => lock_ends ex, fun s c ex clear other => unlock_done ex clear other, fun s c ex clear cls => unlock_returns ex clear cls,
    fun s c ex clear cls => unlock_reloads ex clear cls, fun s u c root ex clear cls drawn => unlock_voids ex clear cls drawn,
    fun s u c b ex high drawn => debugEnter_ends ex high drawn, fun s u c root ex drawn => debugExit_ends ex drawn,
    fun s c ex => decommission_ends ex, fun s c i n d ex refusal is => refused_ends ex refusal is, fun s u c => draws_wait⟩

end Sys2Proof.Safety
end

section
/-!
PROOFS. FW_REGISTER, EXT_KEY, DICT_QUORUM and CELL_SERVICE (R237 to R240).
-/

-- In turn: a proof that waits for others beside it takes a thread and its stack from the memory that the check allows.
set_option Elab.async false

namespace Sys2Proof.Safety

open Sys2Proof.Machine

/-! ## FW_REGISTER (R237) -/

/-- An FW_REGISTER whose image is here runs on it. -/
theorem exec_fwRegister {s : State} {c : Ceremony} {image : Bytes} (ex : Executing s Act.fwRegister c) (here : ImageHere s c image) :
    exec .fwRegister s = settled s (finishAction c
      (if imagePasses s c.params image then acted (registerImage c.params image s) else notActed (bad 0x34) s) s) := by
  obtain ⟨cer, action, stage, -⟩ := id ex
  have read : imageRead c s = image := by
    unfold imageRead
    rcases here with ⟨direct, rfl⟩ | ⟨r, k, caller, job, -, -, rfl⟩
    · split
      · next r caller => exact absurd caller (direct r)
      · rfl
    · rw [caller]
      dsimp only
      rw [job]
  have run : runAction Act.fwRegister (fun c s =>
      if imagePasses s c.params (imageRead c s) then acted (registerImage c.params (imageRead c s) s) else notActed (bad 0x34) s) s =
      settled s (finishAction c (if imagePasses s c.params image then acted (registerImage c.params image s) else notActed (bad 0x34) s) s) := by
    unfold runAction
    obtain ⟨-, -, -, runs⟩ := ex
    rw [cer]
    dsimp only
    rw [if_pos ⟨action, stage, runs⟩, read]
  show execFwRegister s = _
  unfold execFwRegister
  rw [cer]
  dsimp only
  rw [if_pos ⟨action, stage⟩]
  rcases here with ⟨direct, -⟩ | ⟨r, k, caller, job, open', arrived, -⟩
  · split
    · next r caller => exact absurd caller (direct r)
    · exact run
  · rw [caller]
    dsimp only
    rw [job]
    dsimp only
    rw [open', if_neg (by decide), if_pos arrived]
    exact run

theorem fwRegister_ends {s : State} {c : Ceremony} {image : Bytes} (ex : Executing s Act.fwRegister c) (here : ImageHere s c image) :
    if imagePasses s c.params image then ActionDone .fwRegister s (registerImage c.params image s) c
    else ActionEnds .fwRegister s s c (some { c with stage := .gathering, caller := none }) { status := 0x20, detail := 0x34 } [] := by
  have ends := exec_fwRegister ex here
  generalize imagePasses s c.params image = passes at ends ⊢
  cases passes with
  | true => exact actionDone ends
  | false =>
    refine answers_settled ends ?_
    show Quiet _ (finishAction c (notActed (bad 0x34) s) s)
    rw [quiet_notActed ex.1]
    exact .refl _

/-- An FW_REGISTER that has not begun its read begins it. -/
theorem fwRegister_reads {s : State} {c : Ceremony} {r : JobRef} {k : Job} (ex : Executing s Act.fwRegister c)
    (caller : c.caller = some (.admin r)) (job : s.job? r = some k) (running : k.outcome = none) (unread : k.reads = .none_) :
    Answers .fwRegister s fun t => t = { s with jobs := t.jobs } ∧ t.job? r = some { k with reads := .outstanding } ∧
      ∀ q, q ≠ r → t.job? q = s.job? q := by
  obtain ⟨cer, action, stage, -⟩ := ex
  refine ⟨startReads r s, ?_, rfl, job_modJob_self job, fun q ne => job_modJob_ne ne⟩
  show execFwRegister s = _
  unfold execFwRegister
  rw [cer]
  dsimp only
  rw [if_pos ⟨action, stage⟩, caller]
  dsimp only
  rw [job]
  dsimp only
  rw [running, unread]
  rfl

/-! ## EXT_KEY (R238) -/

theorem extKey_registers {s : State} {c : Ceremony} (ex : Executing s Act.extKey c) (register : c.params.at_ 9 = 0) :
    ActionDone .extKey s (persist 0 { s with custody := { s.custody with
      extKeys := s.custody.extKeys.set (c.params.at_ 8).toNat
        { alg := (c.params.at_ 10).toNat, key := c.params.slice 16 (c.params.leAt 12 2), since := s.now }
      monoFw := s.custody.monoFw + 1 } }) c := by
  have ends := exec_runAction (i := .extKey) (rfl : _ = execExtKey s) ex
  dsimp only at ends
  rw [if_pos register] at ends
  exact actionDone ends

/-- `t` holds the custody state of `s`, its ceremony apart, and its life-cycle objects. -/
def HoldsCustody (s t : State) : Prop := { t.custody with cer := none } = { s.custody with cer := none } ∧ t.life = s.life

theorem Winds.holdsCustody {s t : State} (w : Winds s t) : HoldsCustody s t := ⟨(congrArg State.custody w.rest :), w.life⟩

theorem HoldsCustody.trans {s t u : State} (a : HoldsCustody s t) (b : HoldsCustody t u) : HoldsCustody s u :=
  ⟨b.1.trans a.1, b.2.trans a.2⟩

theorem winds_decideJob (r : JobRef) (d : Done) (s : State) : Winds s (decideJob r d s) := winds_modJob _ _ _

theorem winds_endCalls (id : Nat) (d : Done) (s : State) : Winds s (endCalls id d s) := by
  refine .foldl (fun s c => ?_) _ s
  split
  · refine .trans ?_ (winds_closeCall _ _)
    split
    · exact winds_decideJob _ _ _
    · exact .refl s
  · exact winds_closeCall _ _

theorem HoldsCustody.of_quiet {s u t : State} (q : Quiet u t) (custody : u.custody = s.custody) (life : u.life = s.life) : HoldsCustody s t :=
  ⟨congrArg (fun c : Custody => { c with cer := none }) (q.custody.trans custody), q.life.trans life⟩

theorem quiet_extEvent (id how key : Nat) (s : State) : Quiet s (extEvent id how key s) := quiet_record ..

theorem holdsCustody_endExt (x : Ext) (how : Nat) (s : State) : HoldsCustody s (endExt x how s) := by
  have ended := (winds_endCalls x.id { status := Status.unavailable, detail := 0x0A } s).holdsCustody
  unfold endExt
  dsimp only
  generalize endCalls x.id _ s = u at ended ⊢
  refine ended.trans ?_
  split
  · exact .of_quiet (quiet_extEvent ..) rfl rfl
  · exact .of_quiet (quiet_extEvent ..) rfl rfl

theorem holdsCustody_endExts (l : List Ext) (s : State) : HoldsCustody s (l.foldl (fun s x => endExt x 3 s) s) := by
  induction l generalizing s with
  | nil => exact ⟨rfl, rfl⟩
  | cons x l ih => exact (holdsCustody_endExt x 3 s).trans (ih _)

theorem extKey_revokes {s : State} {c : Ceremony} (ex : Executing s Act.extKey c) (revoke : c.params.at_ 9 ≠ 0) :
    Answers .extKey s fun t => t.custody.extKeys.find? (c.params.at_ 8).toNat = none ∧
      (∀ i, i ≠ (c.params.at_ 8).toNat → t.custody.extKeys.find? i = s.custody.extKeys.find? i) ∧
      t.custody.monoFw = s.custody.monoFw ∧ t.custody.cer = none ∧ t.life = s.life := by
  have ends := exec_runAction (i := .extKey) (rfl : _ = execExtKey s) ex
  dsimp only at ends
  rw [if_neg revoke] at ends
  obtain ⟨t, ht, calm⟩ := actionDone ends
  obtain ⟨wound, closed, -, -⟩ := winds_acted calm
  obtain ⟨custody, life⟩ := (holdsCustody_endExts (s.worlds.exts.filter fun x => decide (x.key = (c.params.at_ 8).toNat))
    (persist 0 { s with custody := { s.custody with extKeys := s.custody.extKeys.erase (c.params.at_ 8).toNat } })).trans wound.holdsCustody
  have keys : t.custody.extKeys = s.custody.extKeys.erase (c.params.at_ 8).toNat := (congrArg Custody.extKeys custody :)
  refine ⟨t, ht, ?_, fun i ne => ?_, (congrArg Custody.monoFw custody :), closed, life⟩
  · rw [keys, FMap.find?_erase_self]
  · rw [keys, FMap.find?_erase_ne _ ne]

/-! ## DICT_QUORUM (R240) -/

theorem dictQuorum_ends {s : State} {c : Ceremony} (ex : Executing s Act.dictQuorum c) :
    let l := (blockWrites c.params).getD []
    match l.findSome? (quorumRefusal s) with
    | some d => ActionEnds .dictQuorum s s c none d []
    | none => ActionDone .dictQuorum s (l.foldl (fun s w => quorumWrite (quorumUser c.caller) w s) s) c := by
  have ends := exec_runAction (i := .dictQuorum) (rfl : _ = execDictQuorum s) ex
  dsimp only at ends ⊢
  generalize ((blockWrites c.params).getD []).findSome? (quorumRefusal s) = refusal at ends ⊢
  cases refusal with
  | none => exact actionDone ends
  | some d =>
    refine answers_settled ends ?_
    unfold finishAction
    dsimp only
    rw [if_neg (show ¬ (([] : Bytes).length > callerRoom s c.caller) from Nat.not_lt_zero _)]
    exact (quiet_ceremonyRecord c 3 (withCer none s)).answerCaller _ _

/-- What class P values change besides themselves leaves them, and keys, memory and the life cycle, alone. -/
theorem applyForce_leaves (s : State) : (applyForce s).dict.force = s.dict.force ∧ (applyForce s).life = s.life ∧
    (applyForce s).store = s.store ∧ (applyForce s).mem = s.mem := by
  unfold applyForce
  dsimp only
  split
  · exact ⟨rfl, rfl, rfl, rfl⟩
  · have swept := winds_endSessions (fun _ => true) (applyPolicy s)
    obtain ⟨mem, store⟩ := kept_endSessions (fun _ => true) (applyPolicy s)
    exact ⟨swept.force, swept.life, store, mem⟩

theorem putForce_leaves (index sub : Nat) (v : Bytes) (s : State) :
    (putForce index sub v s).2.dict.force = s.dict.force.set (objKey index sub) v ∧ (putForce index sub v s).2.life = s.life ∧
      (putForce index sub v s).2.store = s.store ∧ (putForce index sub v s).2.mem = s.mem := by
  unfold putForce
  dsimp only
  split
  · exact applyForce_leaves _
  · exact applyForce_leaves _

theorem dictQuorum_puts {s : State} {c : Ceremony} {w : QuorumWrite} {o : Obj} (ex : Executing s Act.dictQuorum c)
    (one : blockWrites c.params = some [w]) (good : quorumRefusal s w = none) (obj : objOf w.index w.sub = some o) (cls : o.cls = .p) :
    Answers .dictQuorum s fun t => t.dict.force.find? (objKey w.index o.sub) = some w.value ∧ t.custody.cer = none ∧
      t.life = s.life ∧ t.store = s.store ∧ t.mem = s.mem := by
  have done := dictQuorum_ends ex
  dsimp only at done
  rw [one] at done
  simp only [Option.getD_some, List.findSome?_cons, good, List.findSome?_nil, List.foldl_cons, List.foldl_nil] at done
  obtain ⟨t, ht, calm⟩ := done
  obtain ⟨wound, closed, mem, store⟩ := winds_acted calm
  obtain ⟨force, life, slots, same⟩ := putForce_leaves w.index o.sub w.value s
  have write : Quiet (putForce w.index o.sub w.value s).2 (quorumWrite (quorumUser c.caller) w s) := by
    unfold quorumWrite
    rw [obj]
    dsimp only
    have put : (putValue w.index o w.value s).2 = (putForce w.index o.sub w.value s).2 := by
      unfold putValue
      rw [cls]
    rw [put]
    exact quiet_record ..
  refine ⟨t, ht, ?_, closed, wound.life.trans (write.life.trans life), store.trans (write.store.trans slots), mem.trans (write.mem.trans same)⟩
  rw [wound.force, write.force, force, FMap.find?_set_self]

/-! ## CELL_SERVICE (R239) -/

theorem cellService_opens {s : State} {c : Ceremony} (ex : Executing s Act.cellService c) :
    let ends := s.now + c.params.leAt 8 2 * second
    ActionEnds .cellService s (chargeTo .service (modVesper (fun v => { v with window := some { ends := ends } }) s)) c
      (some { c with stage := .window, windowEnd := ends, caller := none }) { status := 0x00 } [] ∧
    Answers .cellService s fun t => (t.vesper.window).map (·.ends) = some ends ∧
      t.vesper.cell.st = .service ∧ t.life = s.life ∧ t.store = s.store ∧ t.mem = s.mem := by
  intro ends
  have step := exec_runAction (i := .cellService) (rfl : _ = execCellService s) ex
  obtain ⟨cer, -⟩ := id ex
  have done : ActionEnds .cellService s (chargeTo .service (modVesper (fun v => { v with window := some { ends := ends } }) s)) c
      (some { c with stage := .window, windowEnd := ends, caller := none }) { status := 0x00 } [] := by
    refine answers_settled step ?_
    unfold finishAction
    dsimp only
    rw [if_neg (show ¬ (([] : Bytes).length > callerRoom s c.caller) from Nat.not_lt_zero _),
      modCer_of_cer (c := c) (s := chargeTo .service (modVesper (fun v => { v with window := some { ends := ends } }) s)) cer]
    exact .refl _
  refine ⟨done, ?_⟩
  obtain ⟨t, ht, calm⟩ := done
  have wound := (winds_withCer _ _).trans ((winds_answerCaller _ _ _ _).trans (.of_quiet calm))
  have off := offPort_answerCaller c.caller { status := 0x00 }
    (withCer (some { c with stage := .window, windowEnd := ends, caller := none })
      (chargeTo .service (modVesper (fun v => { v with window := some { ends := ends } }) s)))
  refine ⟨t, ht, ?_, ?_, wound.life, calm.store.trans (congrArg State.store off :), calm.mem.trans (congrArg State.mem off :)⟩
  · rw [wound.vesper]
    rfl
  · rw [wound.vesper]
    rfl

/-- Settles O48: each action from the state it makes. -/
theorem firmwareKeysQuorumCell : Obligations.FirmwareKeysQuorumCell := by
  unfold Obligations.FirmwareKeysQuorumCell
  exact ⟨fun s c image ex here => fwRegister_ends ex here, fun s c r k ex caller job running unread => fwRegister_reads ex caller job running unread,
    fun s c ex register => extKey_registers ex register, fun s c ex revoke => extKey_revokes ex revoke, fun s c ex => dictQuorum_ends ex,
    fun s c w o ex one good obj cls => dictQuorum_puts ex one good obj cls, fun s c ex => cellService_opens ex⟩

end Sys2Proof.Safety
end

section
/-!
PROOFS. Dirty-page logs (R176, R177, R179) and the dictionary commands (R328, R340, R341).
-/

-- In turn: a proof that waits for others beside it takes a thread and its stack from the memory that the check allows.
set_option Elab.async false

namespace Sys2Proof.Safety

open Sys2Proof.Machine

/-! ## DIRTY_LOG -/

theorem quiet_fnAdmin (f op : Nat) (s : State) : Quiet s (fnAdmin f op s) := quiet_record ..

theorem Quiet.log {s t : State} (q : Quiet s t) (f : Nat) : (t.fn f).log = (s.fn f).log := (congrArg Fn.log (q.2 f) :)

theorem log_decideJob (r : JobRef) (d : Done) (s : State) (f : Nat) : ((decideJob r d s).fn f).log = (s.fn f).log := rfl

theorem dirtyLogStart_begins {s : State} {j : Job} (hj : s.admin? 0 Op.dirtyLog = some j) (op : j.entry.at_ 0x10 = 0)
    (rows : firstFail (logRows s j.entry true) = none) (read : j.reads = .arrived) :
    let f := j.entry.leAt 0x12 2
    let l := (List.range (j.entry.at_ 0x14).toNat).map (rangeAt (j.input 0 s))
    if rangesBad (j.input 0 s) l then Completes .dirtyLogStart s j { status := 0x20, detail := 0x15 } s
    else Completes .dirtyLogStart s j { status := 0x00 } (modFn f (fun g => { g with log := some { ranges := l } }) s) ∧
      Answers .dirtyLogStart s fun t => ∃ l, (t.fn f).log = some l ∧ l.useB = false ∧ l.cache = [] ∧ l.count = 0 ∧
        l.outside = false ∧ l.ranges.length = (j.entry.at_ 0x14).toNat ∧ t.mem = s.mem := by
  intro f l
  have step {d : Done} {u : State} (body : (if rangesBad (j.input 0 s) l then (some (bad 0x15), s)
        else (some { status := Status.ok }, fnAdmin f Op.dirtyLog (modFn f (fun g => { g with log := some { ranges := l } }) s))) = (some d, u)) :
      exec .dirtyLogStart s = settled s (decideJob j.ref d u) := by
    show execDirtyLogStart s = _
    unfold execDirtyLogStart
    refine runAdminSteps_of_done hj (Eq.trans ?_ body)
    dsimp only
    rw [if_neg (by rw [op]; decide), rows]
    exact if_pos read
  refine ite_of (fun bad => ?_) fun good => ?_
  · exact completes_of_exec (step (if_pos bad))
  · have done : Completes .dirtyLogStart s j { status := 0x00 } (modFn f (fun g => { g with log := some { ranges := l } }) s) :=
      completes_of_quiet (step (if_neg good)) (quiet_fnAdmin ..)
    refine ⟨done, ?_⟩
    obtain ⟨t, ht, calm⟩ := done
    refine ⟨t, ht, { ranges := l }, ?_, rfl, rfl, rfl, rfl, ?_, calm.mem⟩
    · rw [calm.log, log_decideJob, fn_modFn_self]
    · rw [List.length_map, List.length_range]

/-- SYNC and STOP report the bitmap that they retire, its cache merged first. -/
theorem logStep_retires {s : State} {j : Job} {l : DirtyLog} {i : Instr} {op : Byte} {next : DirtyLog → Option DirtyLog}
    (is : exec i s = runAdminSteps 0 Op.dirtyLog (logStep op next) s) (hj : s.admin? 0 Op.dirtyLog = some j) (hop : j.entry.at_ 0x10 = op)
    (rows : firstFail (logRows s j.entry false) = none) (log : ((mergeDirty (j.entry.leAt 0x12 2) s).fn (j.entry.leAt 0x12 2)).log = some l) :
    Completes i s j { status := 0x00, r0 := min l.count 0xFFFFFFFF, r1 := b2n l.outside + 2 * b2n l.useB }
      (modFn (j.entry.leAt 0x12 2) (fun g => { g with log := next l }) (mergeDirty (j.entry.leAt 0x12 2) s)) := by
  have body : logStep op next j s = (some (logReport l), fnAdmin (j.entry.leAt 0x12 2) Op.dirtyLog
      (modFn (j.entry.leAt 0x12 2) (fun g => { g with log := next l }) (mergeDirty (j.entry.leAt 0x12 2) s))) := by
    unfold logStep
    dsimp only
    rw [if_neg (by rw [hop]; exact fun h => h rfl), rows]
    dsimp only
    rw [log]
  exact completes_of_quiet (is.trans (runAdminSteps_of_done hj body)) (quiet_fnAdmin ..)

/-- A cache with nothing in it merges into nothing. -/
theorem mergeDirty_of_empty {s : State} {f : Nat} {l : DirtyLog} (log : (s.fn f).log = some l) (empty : l.cache = []) :
    (mergeDirty f s).mem = s.mem ∧ ((mergeDirty f s).fn f).log = some l := by
  unfold mergeDirty
  rw [log]
  dsimp only
  rw [empty]
  refine ⟨rfl, ?_⟩
  rw [fn_modFn_self]
  cases l
  cases empty
  rfl

/-- Settles O37: START, SYNC and STOP, and the merge of an empty cache. -/
theorem dirtyLogs : Obligations.DirtyLogs := by
  unfold Obligations.DirtyLogs
  exact ⟨fun s j hj op rows read => dirtyLogStart_begins hj op rows read, fun s j l hj op rows log => logStep_retires (i := .dirtyLogSync) (rfl : _ = execDirtyLogSync s) hj op rows log,
    fun s j l hj op rows log => logStep_retires (i := .dirtyLogStop) (rfl : _ = execDirtyLogStop s) hj op rows log, fun s f l log empty => mergeDirty_of_empty log empty⟩

/-! ## DICT_READ (R328, R340) -/

theorem dictReadBy_of_rows {u : DictUser} {e : Bytes} {s : State} (rows : firstFail (readRows s u e) = none) (path : u.path ≠ 2) :
    dictReadBy u e s = readOutput (readBytes s e) (decide (e.leAt 0x18 8 ≠ 0)) (e.leAt 0x20 4) := by
  unfold dictReadBy
  rw [rows]
  dsimp only
  rw [if_neg path]

theorem exec_dictRead {s : State} {f : Nat} {j : Job} (hj : s.admin? f Op.dictRead = some j)
    (rows : firstFail (readRows (readStore j.entry s) (hostUser f) j.entry) = none) :
    let u := readStore j.entry s
    let r := readOutput (readBytes u j.entry) (decide (j.entry.leAt 0x18 8 ≠ 0)) (j.entry.leAt 0x20 4)
    exec (.dictRead f) s = settled s (decideJob j.ref r.1 (if r.2.isEmpty then u else hostWrite f (j.entry.leAt 0x18 8) r.2 u)) := by
  intro u r
  show execDictRead f s = _
  unfold execDictRead
  rw [runAdmin_of_admin _ hj]
  dsimp only
  rw [dictReadBy_of_rows rows (show (1 : Nat) ≠ 2 by decide)]

theorem dictRead_answers {s : State} {f : Nat} {j : Job} (hj : s.admin? f Op.dictRead = some j) :
    let u := readStore j.entry s
    firstFail (readRows u (hostUser f) j.entry) = none → j.entry.leAt 0x18 8 = 0 → (readBytes u j.entry).length ≤ 8 →
    Completes (.dictRead f) s j
      { status := 0x00, r0 := (readBytes u j.entry).leAt 0 4, r1 := (readBytes u j.entry).leAt 4 4 } u := by
  intro u rows direct short
  have step := exec_dictRead hj rows
  dsimp only at step
  have out : readOutput (readBytes u j.entry) (decide (j.entry.leAt 0x18 8 ≠ 0)) (j.entry.leAt 0x20 4) = (inResults (readBytes u j.entry), []) := by
    unfold readOutput
    rw [if_neg (by simp [direct]), if_pos short]
  rw [show readStore j.entry s = u from rfl, out] at step
  exact completes_of_exec step

theorem dictRead_writes {s : State} {f : Nat} {j : Job} (hj : s.admin? f Op.dictRead = some j) :
    let u := readStore j.entry s
    firstFail (readRows u (hostUser f) j.entry) = none → j.entry.leAt 0x18 8 ≠ 0 → readBytes u j.entry ≠ [] →
    (readBytes u j.entry).length ≤ j.entry.leAt 0x20 4 →
    Completes (.dictRead f) s j { status := 0x00, r0 := (readBytes u j.entry).length }
      (hostWrite f (j.entry.leAt 0x18 8) (readBytes u j.entry) u) := by
  intro u rows buffer some fits
  have step := exec_dictRead hj rows
  dsimp only at step
  have out : readOutput (readBytes u j.entry) (decide (j.entry.leAt 0x18 8 ≠ 0)) (j.entry.leAt 0x20 4) =
      ({ status := Status.ok, r0 := (readBytes u j.entry).length }, readBytes u j.entry) := by
    unfold readOutput
    rw [if_pos (by simp [buffer]), if_pos fits]
  rw [show readStore j.entry s = u from rfl, out, if_neg (show ¬ (readBytes u j.entry).isEmpty = true by simpa using some)] at step
  exact completes_of_exec step

/-! ## DICT_WRITE (R341) -/

theorem exec_dictWrite {s : State} {f : Nat} {j : Job} {o : Obj} {v : Bytes} (hj : s.admin? f Op.dictWrite = some j)
    (access : firstFail (writeAccessRows s (hostUser f) j.entry) = none) (obj : objOf (dictIndex j.entry) (dictSub j.entry) = some o)
    (len : firstFail (writeLenRows o j.entry) = none) (here : ValueHere s j v) (good : writeValueRefusal s o j.entry v = none) :
    exec (.dictWrite f) s =
      settled s (decideJob j.ref (writeGoes (hostUser f) o j.entry v s).1 (writeGoes (hostUser f) o j.entry v s).2) := by
  have data : (if j.entry.leAt 0x18 8 = 0 then some (j.entry.slice 0x28 (writeLen j.entry))
      else if j.reads = .arrived then some (j.input 0 s) else none) = some v := by
    rcases here with ⟨inline, rfl⟩ | ⟨buffer, read, rfl⟩
    · exact if_pos inline
    · rw [if_neg buffer, if_pos read]
  have goes : dictWriteBy (hostUser f) j.entry (some v) s =
      (some (writeGoes (hostUser f) o j.entry v s).1, (writeGoes (hostUser f) o j.entry v s).2) := by
    unfold dictWriteBy
    rw [access, obj]
    dsimp only
    rw [len]
    dsimp only
    rw [good]
  show execDictWrite f s = _
  unfold execDictWrite
  refine runAdminSteps_of_done hj ?_
  dsimp only
  rw [data, goes]

theorem jobs_endSessions (p : Session → Bool) (s : State) : (endSessions p s).jobs = s.jobs := by
  have one (x : Session) (s : State) : (endSession x 3 s).jobs = s.jobs := by
    unfold endSession
    dsimp only
    split
    · exact (quiet_record 0x0403 0 x.id x.entry 3 x.path.chanCode false _).jobs
    · rfl
  have all (l : List Session) (s : State) : (l.foldl (fun s x => endSession x 3 s) s).jobs = s.jobs := by
    induction l generalizing s with
    | nil => rfl
    | cons x l ih => exact (ih _).trans (one x s)
  exact all _ s

/-- `t` holds the jobs, slots, life-cycle objects and memory of `s`. -/
def HoldsWork (s t : State) : Prop := t.jobs = s.jobs ∧ t.store = s.store ∧ t.life = s.life ∧ t.mem = s.mem

theorem HoldsWork.trans {s t u : State} (a : HoldsWork s t) (b : HoldsWork t u) : HoldsWork s u :=
  ⟨b.1.trans a.1, b.2.1.trans a.2.1, b.2.2.1.trans a.2.2.1, b.2.2.2.trans a.2.2.2⟩

theorem HoldsWork.of_quiet {s t : State} (q : Quiet s t) : HoldsWork s t := ⟨q.jobs, q.store, q.life, q.mem⟩

theorem holdsWork_storeIn (n key : Nat) (v : Bytes) (s : State) : HoldsWork s (storeIn n key v s) := ⟨rfl, rfl, rfl, rfl⟩

theorem holdsWork_applyForce (s : State) : HoldsWork s (applyForce s) ∧ (applyForce s).dict.profiles = s.dict.profiles := by
  unfold applyForce
  dsimp only
  split
  · exact ⟨⟨rfl, rfl, rfl, rfl⟩, rfl⟩
  · have swept := winds_endSessions (fun _ => true) (applyPolicy s)
    obtain ⟨mem, store⟩ := kept_endSessions (fun _ => true) (applyPolicy s)
    exact ⟨⟨jobs_endSessions _ _, store, swept.life, mem⟩, swept.profiles⟩

/-- The value stored in profile `n`. -/
theorem vals_storeIn {n key : Nat} (v : Bytes) (s : State) (some : n ≠ 0) :
    ((storeIn n key v s).profile n).vals.find? key = Option.some v := by
  unfold State.profile
  rw [if_neg some]
  show (FMap.getD (s.dict.profiles.set n _) n {}).vals.find? key = _
  rw [FMap.getD_set_self, FMap.find?_set_self]

theorem profile_congr {s t : State} (h : t.dict.profiles = s.dict.profiles) (n : Nat) : t.profile n = s.profile n := by
  unfold State.profile
  rw [h]

theorem putForce_stores (index sub : Nat) (v : Bytes) (s : State) :
    (putForce index sub v s).1 = { status := 0x00, detail := if s.dict.active = 0 then 0x01 else 0x00 } ∧
      HoldsWork s (putForce index sub v s).2 ∧
      (s.dict.active ≠ 0 → ((putForce index sub v s).2.profile s.dict.active).vals.find? (objKey index sub) = some v) := by
  unfold putForce
  dsimp only
  split
  · next factory =>
    refine ⟨rfl, HoldsWork.trans (t := { s with dict := { s.dict with force := s.dict.force.set (objKey index sub) v } }) ⟨rfl, rfl, rfl, rfl⟩
      (holdsWork_applyForce _).1, fun some => absurd factory some⟩
  · next stored =>
    obtain ⟨holds, profiles⟩ := holdsWork_applyForce (storeIn s.dict.active (objKey index sub) v
      { s with dict := { s.dict with force := s.dict.force.set (objKey index sub) v } })
    exact ⟨rfl, ⟨holds.1, holds.2.1, holds.2.2.1, holds.2.2.2⟩,
      fun some => (congrArg (fun p : Profile => p.vals.find? (objKey index sub)) (profile_congr profiles _)).trans (vals_storeIn v _ some)⟩

/-- What a write of a class P object leaves, in force or in the stored profile that its TARGET names. -/
theorem writeGoes_leaves {u : DictUser} {o : Obj} {e v : Bytes} {s : State} (cls : o.cls = .p) :
    HoldsWork s (writeGoes u o e v s).2 ∧
    (dictFlag1 e = false →
      (writeGoes u o e v s).1 = { status := 0x00, detail := if s.dict.active = 0 then 0x01 else 0x00 } ∧
      (writeGoes u o e v s).2.dict.force.find? (objKey (dictIndex e) o.sub) = some v ∧
      (s.dict.active ≠ 0 → ((writeGoes u o e v s).2.profile s.dict.active).vals.find? (objKey (dictIndex e) o.sub) = some v)) ∧
    (dictFlag1 e = true →
      (writeGoes u o e v s).1 = { status := 0x00 } ∧ (writeGoes u o e v s).2.dict.force = s.dict.force ∧
      (dictProfile e ≠ 0 → ((writeGoes u o e v s).2.profile (dictProfile e)).vals.find? (objKey (dictIndex e) o.sub) = some v)) := by
  have put : putValue (dictIndex e) o v s = putForce (dictIndex e) o.sub v s := by
    unfold putValue
    rw [cls]
  unfold writeGoes
  dsimp only
  rw [put]
  cases dictFlag1 e with
  | true =>
    have calm := quiet_record 0x0903 0 (dictIndex e * 65536 + o.sub) u.path u.who (dictProfile e) false
      (storeIn (dictProfile e) (objKey (dictIndex e) o.sub) v s)
    refine ⟨(holdsWork_storeIn ..).trans (.of_quiet calm), fun no => absurd no (by decide), fun _ => ⟨rfl, calm.force, fun some => ?_⟩⟩
    exact (congrArg (fun p : Profile => p.vals.find? _) (profile_congr calm.profiles _)).trans (vals_storeIn v s some)
  | false =>
    obtain ⟨result, holds, stored⟩ := putForce_stores (dictIndex e) o.sub v s
    obtain ⟨force, -⟩ := putForce_leaves (dictIndex e) o.sub v s
    have calm := quiet_record 0x0903 0 (dictIndex e * 65536 + o.sub) u.path u.who (if o.cls = .p then s.dict.active else 0) false
      (putForce (dictIndex e) o.sub v s).2
    refine ⟨holds.trans (.of_quiet calm), fun _ => ⟨result, ?_, fun some => ?_⟩, fun no => absurd no (by decide)⟩
    · exact (congrArg (fun m : FMap Bytes => m.find? (objKey (dictIndex e) o.sub)) (calm.force.trans force)).trans (FMap.find?_set_self _ _ _)
    · exact (congrArg (fun p : Profile => p.vals.find? _) (profile_congr calm.profiles _)).trans (stored some)

theorem dictWrite_ends {s : State} {f : Nat} {j : Job} {o : Obj} {v : Bytes} (hj : s.admin? f Op.dictWrite = some j)
    (access : firstFail (writeAccessRows s (hostUser f) j.entry) = none) (obj : objOf (dictIndex j.entry) (dictSub j.entry) = some o)
    (len : firstFail (writeLenRows o j.entry) = none) (here : ValueHere s j v) (good : writeValueRefusal s o j.entry v = none) :
    Completes (.dictWrite f) s j (writeGoes (hostUser f) o j.entry v s).1 (writeGoes (hostUser f) o j.entry v s).2 ∧
    (o.cls = .p → dictFlag1 j.entry = false →
      Answers (.dictWrite f) s fun t => t.dict.force.find? (objKey (dictIndex j.entry) o.sub) = some v ∧
        (t.job? j.ref).map (·.outcome) = some (some { status := 0x00, detail := if s.dict.active = 0 then 0x01 else 0x00 }) ∧
        (s.dict.active ≠ 0 → (t.profile s.dict.active).vals.find? (objKey (dictIndex j.entry) o.sub) = some v) ∧
        t.store = s.store ∧ t.life = s.life ∧ t.mem = s.mem) ∧
    (o.cls = .p → dictFlag1 j.entry = true →
      Answers (.dictWrite f) s fun t => (t.profile (dictProfile j.entry)).vals.find? (objKey (dictIndex j.entry) o.sub) = some v ∧
        t.dict.force = s.dict.force ∧ (t.job? j.ref).map (·.outcome) = some (some { status := 0x00 }) ∧
        t.store = s.store ∧ t.life = s.life ∧ t.mem = s.mem) := by
  have done : Completes (.dictWrite f) s j (writeGoes (hostUser f) o j.entry v s).1 (writeGoes (hostUser f) o j.entry v s).2 :=
    completes_of_exec (exec_dictWrite hj access obj len here good)
  have listed := (admin_spec hj).1
  refine ⟨done, fun cls force => ?_, fun cls target => ?_⟩
  · obtain ⟨t, ht, calm⟩ := done
    obtain ⟨⟨jobs, store, life, mem⟩, direct, -⟩ := writeGoes_leaves (u := hostUser f) (e := j.entry) (v := v) (s := s) cls
    obtain ⟨result, value, stored⟩ := direct force
    refine ⟨t, ht, ?_, ?_, fun some => ?_, calm.store.trans store, calm.life.trans life, calm.mem.trans mem⟩
    · rw [calm.force]
      exact value
    · rw [← result, ← outcome_decideJob _ (by rw [jobs]; exact listed)]
      unfold State.job?
      rw [calm.jobs]
    · exact (congrArg (fun p : Profile => p.vals.find? _) (profile_congr calm.profiles _)).trans (stored some)
  · obtain ⟨t, ht, calm⟩ := done
    obtain ⟨⟨jobs, store, life, mem⟩, -, stored⟩ := writeGoes_leaves (u := hostUser f) (e := j.entry) (v := v) (s := s) cls
    obtain ⟨result, force, value⟩ := stored target
    have named : dictProfile j.entry ≠ 0 := by
      intro zero
      unfold writeValueRefusal at good
      have row := row_of_firstFail good (b := dictFlag1 j.entry && (decide (o.cls ≠ .p) || decide (dictProfile j.entry < 1) ||
        decide (dictProfile j.entry > 3) || decide ((s.profile (dictProfile j.entry)).st = .bad))) (d := bad 0x53) (by simp)
      rw [target, zero] at row
      simp at row
    refine ⟨t, ht, ?_, calm.force.trans force, ?_, calm.store.trans store, calm.life.trans life, calm.mem.trans mem⟩
    · exact (congrArg (fun p : Profile => p.vals.find? _) (profile_congr calm.profiles _)).trans (value named)
    · rw [← result, ← outcome_decideJob _ (by rw [jobs]; exact listed)]
      unfold State.job?
      rw [calm.jobs]

/-- Settles O39: a read by its output, a write by where its value goes. -/
theorem dictionaryAccess : Obligations.DictionaryAccess := by
  unfold Obligations.DictionaryAccess
  exact ⟨fun s f j hj => dictRead_answers hj, fun s f j hj => dictRead_writes hj,
    fun s f j o v hj access obj len here good => dictWrite_ends hj access obj len here good⟩

end Sys2Proof.Safety
end

section
/-!
PROOFS. O38 does not hold: FREEZE releases every job of a released name, and a state may hold a committed job and one in
run-ahead of one name.
-/

-- In turn: a proof that waits for others beside it takes a thread and its stack from the memory that the check allows.
set_option Elab.async false

namespace Sys2Proof.Safety

open Sys2Proof.Machine

/-- A FREEZE of function 1 in PF0's admin queue. -/
def freezeCommand : Job :=
  { ref := { fn := 0, jq := 0, index := 0 }, len := 1, stage := .committed
    entry := ((Bytes.zeros 64).patch 0 (Bytes.ofNats [Op.fnStateSave, 1])).patch 0x12 (Bytes.ofLE 2 1) }

/-- A job of function 1's queue 1 in run-ahead. -/
def runAheadJob : Job := { ref := { fn := 1, jq := 1, index := 0 }, len := 1, entry := [] }

/-- A state whose table names that job twice, once as committed. -/
def committedAndAhead : State :=
  { fns := [(0, { run := .ready }), (1, { run := .ready })]
    jobs := [freezeCommand, { runAheadJob with stage := .committed }, runAheadJob] }

/-- Refutes O38: the committed job goes with the released one, and the busy function is frozen at once. -/
theorem not_migration : ¬ Obligations.Migration := by
  unfold Obligations.Migration
  intro h
  obtain ⟨-, waits, -⟩ := h
  obtain ⟨t, step, run, -⟩ := waits committedAndAhead freezeCommand (by decide +kernel) (by decide +kernel) (by decide +kernel)
    (by decide +kernel) (by decide +kernel) (by decide +kernel) (by decide +kernel)
  have frozen : ((after .freeze committedAndAhead).fn 1).run = .frozen := by decide +kernel
  rw [after_eq step, show (1 : Nat) = freezeCommand.entry.leAt 0x12 2 by decide +kernel, run] at frozen
  cases frozen

end Sys2Proof.Safety
end

section
/-!
PROOFS. Session keys (R67, R68).
-/

-- In turn: a proof that waits for others beside it takes a thread and its stack from the memory that the check allows.
set_option Elab.async false

namespace Sys2Proof.Safety

open Sys2Proof.Machine

/-- Session key set `set` of function `f` replaced. -/
def putSet (f set : Nat) (x : SessionSet) (s : State) : State := modFn f (fun g => { g with sk := g.sk.set set x }) s

theorem set_putSet (f set : Nat) (x : SessionSet) (s : State) : ((putSet f set x s).fn f).set set = x := by
  unfold putSet Fn.set
  rw [fn_modFn_self]
  exact FMap.getD_set_self _ _ _ _

/-- Replacing a set, under masks just drawn, changes that set alone. -/
theorem onlySet_putSet {s u : State} (drawn : Masks s u) (f set : Nat) (x : SessionSet) : OnlySet f set s (putSet f set x u) := by
  have fns : u.fns = s.fns := (congrArg State.fns drawn :)
  have fn (g : Nat) : u.fn g = s.fn g := by
    unfold State.fn
    rw [fns]
  unfold putSet
  refine ⟨fun g ne => (fn_modFn_ne _ _ ne).trans (fn g), ?_, fun k ne => ?_, ?_⟩
  · rw [fn_modFn_self, fn]
  · unfold Fn.set
    rw [fn_modFn_self, fn]
    exact FMap.getD_set_ne _ _ _ ne
  · exact congrArg (fun v : State => { v with fns := (modFn f (fun g => { g with sk := g.sk.set set x }) u).fns }) drawn

theorem masks_refl (s : State) : Masks s s := rfl

/-- A control write of an open page, by what it does. -/
theorem writeSkCtl_open {s : State} {f set : Nat} {v : Word} (open' : s.pageOpen f = true) (there : set < (s.fn f).skN) :
    writeSkCtl f set v s =
      let x := (s.fn f).set set
      let klen := bitsOf v.toNat 1 0
      let y := { x with klen := klen, loadErr := x.loadErr && !v.getLsbD 17 }
      if v.getLsbD 9 then putSet f set { eraseSet y with loadErr := y.loadErr } s
      else if v.getLsbD 8 then
        if loadable x klen && decide (s.life.lc ≠ .decommissioned) then
          let a := maskKey 10 (x.staging.take (4 * keyWords klen)) s
          let b := maskKey 11 (x.staging.take (4 * keyWords klen)) a.2
          putSet f set { klen := klen, valid := true, loadErr := y.loadErr, a := a.1, b := b.1 } b.2
        else putSet f set { y with loadErr := true } s
      else putSet f set y s := if_pos ⟨open', there⟩

/-- A control write with CLEAR erases the set. -/
theorem writeSkCtl_clears {s : State} {f set : Nat} {v : Word} (open' : s.pageOpen f = true) (there : set < (s.fn f).skN)
    (clear : v.getLsbD 9 = true) :
    OnlySet f set s (writeSkCtl f set v s) ∧
      let y := ((writeSkCtl f set v s).fn f).set set
      y.valid = false ∧ y.a = {} ∧ y.b = {} ∧ y.staging = Bytes.zeros 32 ∧ y.writtenK = [] := by
  rw [writeSkCtl_open open' there]
  dsimp only
  rw [if_pos clear, set_putSet]
  exact ⟨onlySet_putSet (masks_refl s) _ _ _, rfl, rfl, rfl, rfl, rfl⟩

/-- A LOAD puts the staged key in force, or is refused. -/
theorem writeSkCtl_loads {s : State} {f set : Nat} {v : Word} (open' : s.pageOpen f = true) (there : set < (s.fn f).skN)
    (load : v.getLsbD 8 = true) (keep : v.getLsbD 9 = false) :
    OnlySet f set s (writeSkCtl f set v s) ∧
      let x := (s.fn f).set set
      let y := ((writeSkCtl f set v s).fn f).set set
      y.klen = bitsOf v.toNat 1 0 ∧
      if loadable x (bitsOf v.toNat 1 0) = true ∧ s.life.lc ≠ .decommissioned then
        y.valid = true ∧ y.a.clear = x.staging.take (4 * keyWords (bitsOf v.toNat 1 0)) ∧ y.b.clear = y.a.clear ∧
          y.staging = Bytes.zeros 32 ∧ y.writtenK = []
      else y.loadErr = true ∧ y.valid = x.valid ∧ y.a = x.a ∧ y.b = x.b ∧ y.staging = x.staging ∧ y.writtenK = x.writtenK := by
  rw [writeSkCtl_open open' there]
  dsimp only
  rw [keep, if_neg (by decide), if_pos load]
  have both : (loadable ((s.fn f).set set) (bitsOf v.toNat 1 0) && decide (s.life.lc ≠ .decommissioned)) = true ↔
      loadable ((s.fn f).set set) (bitsOf v.toNat 1 0) = true ∧ s.life.lc ≠ .decommissioned := by
    rw [Bool.and_eq_true, decide_eq_true_eq]
  by_cases good : loadable ((s.fn f).set set) (bitsOf v.toNat 1 0) = true ∧ s.life.lc ≠ .decommissioned
  · rw [if_pos (both.2 good), if_pos good, set_putSet]
    refine ⟨onlySet_putSet ((masks_maskKey _ _ _).trans (masks_maskKey _ _ _)) _ _ _, rfl, rfl, clear_maskKey _ _ _, ?_, rfl, rfl⟩
    exact (clear_maskKey _ _ _).trans (clear_maskKey _ _ _).symm
  · rw [if_neg (mt both.1 good), if_neg good, set_putSet]
    exact ⟨onlySet_putSet (masks_refl s) _ _ _, rfl, rfl, rfl, rfl, rfl, rfl, rfl⟩

/-- A write of FN_SK_KEY stages its bytes. -/
theorem fnSkKeyWrite_stages {s : State} {f set k : Nat} {wide : Bool} (v : Nat) (open' : s.pageOpen f = true) (there : set < (s.fn f).skN)
    (word : k < 8) (even : wide = true → k % 2 = 0) :
    Answers (.fnSkKeyWrite f set k wide v) s fun t =>
      ((t.fn f).set set).staging = ((s.fn f).set set).staging.patch (4 * k) (Bytes.ofLE (if wide then 8 else 4) v) ∧
      (t.fn f).set set = { (s.fn f).set set with staging := ((t.fn f).set set).staging, writtenK := ((t.fn f).set set).writtenK } ∧
      k ∈ ((t.fn f).set set).writtenK ∧ OnlySet f set s t := by
  have aligned : ¬ (wide = true ∧ k % 2 ≠ 0) := fun h => h.2 (even h.1)
  have step : exec (.fnSkKeyWrite f set k wide v) s = .next (putSet f set { (s.fn f).set set with
      staging := ((s.fn f).set set).staging.patch (4 * k) (Bytes.ofLE (if wide then 8 else 4) v)
      writtenK := (if wide then [k, k + 1] else [k]) ++ ((s.fn f).set set).writtenK } s) := by
    show execFnSkKeyWrite f set k wide v s = _
    unfold execFnSkKeyWrite
    rw [if_pos ⟨open', there, word⟩, if_neg aligned]
    rfl
  refine ⟨_, step, ?_⟩
  dsimp only
  rw [set_putSet]
  refine ⟨rfl, rfl, ?_, onlySet_putSet (masks_refl s) _ _ _⟩
  cases wide <;> simp

/-- Settles O35: writes of the key words, and control writes with LOAD and with CLEAR. -/
theorem sessionKeys : Obligations.SessionKeys := by
  unfold Obligations.SessionKeys
  refine ⟨fun s f set k v wide open' there word even => fnSkKeyWrite_stages v open' there word even, fun s f set k v open' there word odd => ?_,
    fun s f set v open' there load keep => ?_, fun s f set v open' there clear => ?_, fun s f set v open' there load clear => ?_⟩
  · have step : exec (.fnSkKeyWrite f set k true v) s = .next (refuseAccess s) := by
      show execFnSkKeyWrite f set k true v s = _
      unfold execFnSkKeyWrite
      rw [if_pos ⟨open', there, word⟩, if_pos ⟨rfl, by omega⟩]
    exact ⟨_, step, quiet_bump _ _⟩
  · exact ⟨_, congrArg Host.Outcome.next (if_pos load), writeSkCtl_loads open' there load keep⟩
  · exact ⟨_, congrArg Host.Outcome.next (if_pos clear), writeSkCtl_clears open' there clear⟩
  · exact ⟨_, congrArg Host.Outcome.next (if_pos load), writeSkCtl_clears open' there clear⟩

end Sys2Proof.Safety
end

section
/-!
PROOFS. The services of a running extension call (R384, R385).
-/

-- In turn: a proof that waits for others beside it takes a thread and its stack from the memory that the check allows.
set_option Elab.async false

namespace Sys2Proof.Safety

open Sys2Proof.Machine

/-! ## The call an extension runs -/

theorem currentCall_spec {s : State} {x : Nat} {c : Call} {j : Job} (h : currentCall s x = some (c, j)) :
    s.worlds.calls.find? (fun c => decide (c.ext = x)) = some c ∧ s.job? c.job = some j ∧ j.outcome = none ∧ c.subJob = none := by
  unfold currentCall at h
  split at h
  · cases h
  · next c' found =>
    split at h
    · cases h
    · next j' job =>
      split at h
      · next runs =>
        obtain ⟨rfl, rfl⟩ := Prod.mk.inj (Option.some.inj h)
        rw [Bool.and_eq_true, Option.isNone_iff_eq_none, Option.isNone_iff_eq_none] at runs
        exact ⟨found, job, runs.1, runs.2⟩
      · cases h

section
variable {s : State} {x : Nat} {c : Call} {j : Job} {e : Ext} (h : Serving s x c j e)
include h

/-- A service whose buffers lie in the extension's pages runs. -/
theorem service_runs {i : Instr} {reads writes : Nat × Nat} {body : Ext → Call → Job → State → State}
    (is : exec i s = runService x reads writes body s)
    (source : reads.2 = 0 ∨ inPages e.pages reads.1 reads.2 = true) (target : writes.2 = 0 ∨ inPages (e.data ++ e.zero) writes.1 writes.2 = true) :
    exec i s = settled s (body e c j s) := by
  rw [is]
  obtain ⟨runs, current, ext, -⟩ := h
  unfold runService
  rw [if_pos runs, current, ext]
  dsimp only
  rw [if_pos]
  rcases source with a | a <;> rcases target with b | b <;> simp [a, b]

/-- One whose buffers do not faults. -/
theorem service_faults {i : Instr} {reads writes : Nat × Nat} {body : Ext → Call → Job → State → State}
    (is : exec i s = runService x reads writes body s)
    (out : (reads.2 ≠ 0 ∧ inPages e.pages reads.1 reads.2 = false) ∨ (writes.2 ≠ 0 ∧ inPages (e.data ++ e.zero) writes.1 writes.2 = false)) :
    exec i s = settled s (extFault x s) := by
  rw [is]
  obtain ⟨runs, current, ext, -⟩ := h
  unfold runService
  rw [if_pos runs, current, ext]
  dsimp only
  rw [if_neg]
  rcases out with ⟨a, b⟩ | ⟨a, b⟩ <;> simp [a, b]

/-- A fault ends the call with FAULT, 0x03. -/
theorem quiet_extFault : Quiet (CallEnds c.job { status := 0x61, detail := 0x03 } s) (extFault x s) := by
  obtain ⟨found, job, running, -⟩ := currentCall_spec h.2.1
  unfold extFault
  rw [found]
  dsimp only
  rw [job]
  dsimp only
  rw [if_neg (by rw [running]; decide)]
  exact quiet_extEvent ..

/-- The end of the call: it leaves the list, the pages its extension's calls leave zeroed are zeroed, and its job is decided. -/
theorem callEnds_eq (d : Done) : CallEnds c.job d s = { decideJob c.job d s with
    worlds := { s.worlds with calls := s.worlds.calls.filter fun d => decide (d.job ≠ c.job) }, cram := zeroPages e.zero s.cram } := by
  obtain ⟨found, -, -, alone⟩ := currentCall_spec h.2.1
  obtain ⟨-, -, ext, one⟩ := h
  have listed : c ∈ s.worlds.calls := List.mem_of_find?_eq_some found
  have named : c.ext = x := by simpa using List.find?_some found
  have same : s.worlds.calls.find? (fun d => decide (d.job = c.job)) = some c := by
    obtain ⟨d, hd⟩ : ∃ d, s.worlds.calls.find? (fun d => decide (d.job = c.job)) = some d := by
      rw [← Option.isSome_iff_exists, List.find?_isSome]
      exact ⟨c, listed, decide_eq_true rfl⟩
    rw [hd, one d (List.mem_of_find?_eq_some hd) (by simpa using List.find?_some hd)]
  have zero : zeroOf (decideJob c.job d s) c.ext = e.zero := by
    have loaded : s.worlds.exts.find? (fun y => decide (y.id = x)) = some e := ext
    unfold zeroOf
    rw [named]
    show (match s.worlds.exts.find? _ with | some e => e.zero | none => []) = _
    rw [loaded]
  unfold CallEnds closeCall
  rw [show (decideJob c.job d s).worlds = s.worlds from rfl, same]
  dsimp only
  rw [alone, zero]
  rfl

end

/-! ## RETURN (R385) -/

theorem notMem_zeroPages (pages : List Nat) (m : List Host.Cell) : ∀ p ∈ zeroPages pages m, p.1 / 4096 ∉ pages := by
  intro p hp
  have kept := (List.mem_filter.mp hp).2
  simpa using kept

theorem ret_ends {s : State} {x status detail r1 : Nat} {c : Call} {j : Job} {e : Ext} (h : Serving s x c j e) :
    Answers (.ret x status detail r1) s fun t =>
      Quiet (CallEnds c.job (if returnOk status detail then { status := status, detail := detail, r0 := c.out, r1 := r1 }
        else { status := 0x61, detail := 0x03 }) s) t ∧
      (t.job? c.job).map (·.outcome) = some (some
        (if returnOk status detail then { status := status, detail := detail, r0 := c.out, r1 := r1 }
         else { status := 0x61, detail := 0x03 })) ∧
      t.worlds.calls = s.worlds.calls.filter (fun d => decide (d.job ≠ c.job)) ∧ (∀ p ∈ t.cram, p.1 / 4096 ∉ e.zero) ∧
      t.mem = s.mem ∧ t.store = s.store ∧ ∀ k, k ≠ c.job → t.job? k = s.job? k := by
  obtain ⟨-, job, -, -⟩ := currentCall_spec h.2.1
  have step : exec (.ret x status detail r1) s = settled s (if returnOk status detail then
      CallEnds c.job { status, detail, r0 := c.out, r1 := r1 } s else extFault x s) :=
    service_runs (i := .ret x status detail r1) h (rfl : _ = execRet x status detail r1 s) (.inl rfl) (.inl rfl)
  have calm : Quiet (CallEnds c.job (if returnOk status detail then { status := status, detail := detail, r0 := c.out, r1 := r1 }
      else { status := 0x61, detail := 0x03 }) s) (if returnOk status detail then
      CallEnds c.job { status, detail, r0 := c.out, r1 := r1 } s else extFault x s) := by
    split
    · exact .refl _
    · exact quiet_extFault h
  generalize (if returnOk status detail then ({ status := status, detail := detail, r0 := c.out, r1 := r1 } : Done)
    else { status := 0x61, detail := 0x03 }) = d at calm ⊢
  have all := calm.trans (quiet_settle s _)
  have ends := callEnds_eq h d
  refine ⟨_, step, all, ?_, (congrArg Worlds.calls all.worlds).trans (congrArg (fun u : State => u.worlds.calls) ends :), fun p hp => ?_,
    all.mem.trans (congrArg State.mem ends :), all.store.trans (congrArg State.store ends :), fun k ne => ?_⟩
  · have jobs := all.jobs.trans (congrArg State.jobs ends :)
    have decided := outcome_decideJob d (mem_of_job job)
    rw [ref_of_job job] at decided
    refine Eq.trans ?_ decided
    exact congrArg (fun l : List Job => (l.find? fun j => decide (j.ref = c.job)).map (·.outcome)) jobs
  · rw [all.cram, ends] at hp
    exact notMem_zeroPages _ _ p hp
  · have jobs := all.jobs.trans (congrArg State.jobs ends :)
    exact ((congrArg (fun l : List Job => l.find? fun j => decide (j.ref = k)) jobs :) : _ = (decideJob c.job d s).job? k).trans (job_decideJob_ne s d ne)

/-! ## Buffers in memory and control RAM (R384) -/

theorem ramRead_ramWrite {s t : State} {a : Nat} {b : Bytes} (calm : t.cram = (ramWrite a b s).cram) (tidy : Tidy s) :
    t.ramRead a b.length = b := by
  unfold State.ramRead
  rw [calm]
  exact Memory.getAll_putAll _ _ _ tidy.2

theorem readIn_brings {s : State} {x inOff dst n : Nat} {c : Call} {j : Job} {e : Ext} (h : Serving s x c j e)
    (inside : n = 0 ∨ inPages (e.data ++ e.zero) dst n = true) :
    let k := min n (callInLen j.entry - inOff)
    (k = 0 ∨ j.reads = .outstanding → Answers (.readIn x inOff dst n) s (Quiet s)) ∧
    (0 < k → j.reads = .none_ → Answers (.readIn x inOff dst n) s (Quiet (startReads c.job s))) ∧
    (0 < k → j.reads = .arrived → Answers (.readIn x inOff dst n) s fun t =>
      Quiet (modJob c.job (fun j => { j with reads := .none_ }) (ramWrite dst ((j.input 0 s).slice inOff k) s)) t ∧
      (Tidy s → t.ramRead dst ((j.input 0 s).slice inOff k).length = (j.input 0 s).slice inOff k)) := by
  intro k
  have step : exec (.readIn x inOff dst n) s = settled s (if k = 0 then s
      else if j.reads = .arrived then
        modJob c.job (fun j => { j with reads := .none_ }) (ramWrite dst ((j.input 0 s).slice inOff k) s)
      else if j.reads = .none_ then startReads c.job s else s) :=
    service_runs (i := .readIn x inOff dst n) h (rfl : _ = execReadIn x inOff dst n s) (.inl rfl) inside
  refine ⟨fun idle => ?_, fun some unread => ?_, fun some read => ?_⟩
  · have rests : (if k = 0 then s else if j.reads = .arrived then
        modJob c.job (fun j => { j with reads := .none_ }) (ramWrite dst ((j.input 0 s).slice inOff k) s)
        else if j.reads = .none_ then startReads c.job s else s) = s := by
      rcases idle with none | waits
      · exact if_pos none
      · rw [waits, if_neg (by decide : ¬ Reads.outstanding = Reads.arrived), if_neg (by decide : ¬ Reads.outstanding = Reads.none_), ite_self]
    rw [rests] at step
    exact answers_settled step (.refl s)
  · rw [if_neg (by omega), unread, if_neg (by decide), if_pos rfl] at step
    exact answers_settled step (.refl _)
  · rw [if_neg (by omega), if_pos read] at step
    exact ⟨_, step, quiet_settle _ _, fun tidy => ramRead_ramWrite (quiet_settle s _).cram tidy⟩

theorem writeOut_writes {s : State} {x src outOff n : Nat} {c : Call} {j : Job} {e : Ext} (h : Serving s x c j e)
    (inside : n = 0 ∨ inPages e.pages src n = true) :
    let k := min n (callMax j.entry - outOff)
    let a := callOut j.entry + outOff
    Answers (.writeOut x src outOff n) s fun t =>
      Quiet (modCall c.job (fun c => { c with out := c.out + k })
        (if k = 0 then s else hostWrite c.job.fn a (s.ramRead src k) s)) t ∧
      (Tidy s → (s.fn c.job.fn).log = none → t.hostRead c.job.fn a k = s.ramRead src k ∧ OnlyWrites c.job.fn a k s t) := by
  intro k a
  have step : exec (.writeOut x src outOff n) s = settled s (modCall c.job (fun c => { c with out := c.out + k })
      (if k = 0 then s else hostWrite c.job.fn a (s.ramRead src k) s)) :=
    service_runs (i := .writeOut x src outOff n) h (rfl : _ = execWriteOut x src outOff n s) inside (.inl rfl)
  refine ⟨_, step, quiet_settle _ _, fun tidy log => ?_⟩
  have len : (s.ramRead src k).length = k := Memory.getAll_length _ _ _
  have mem : (if k = 0 then s else hostWrite c.job.fn a (s.ramRead src k) s).mem = Memory.putAll s.mem (hostKey c.job.fn a) (s.ramRead src k) := by
    split
    · next none =>
      rw [List.eq_nil_of_length_eq_zero (len.trans none)]
      rfl
    · rw [hostWrite_unlogged _ _ _ _ log]
  have calm := quiet_settle s (modCall c.job (fun c => { c with out := c.out + k })
    (if k = 0 then s else hostWrite c.job.fn a (s.ramRead src k) s))
  have wrote := writes_of_mem (f := c.job.fn) (a := a) tidy (calm.mem.trans mem)
  rw [len] at wrote
  exact wrote

theorem submit_adds {s : State} {x entryAt slots recAt : Nat} {c : Call} {j : Job} {e : Ext} (h : Serving s x c j e)
    (jobs : imgFlag e.header 1 = true) (source : slots = 0 ∨ inPages e.pages entryAt (64 * slots) = true)
    (target : inPages (e.data ++ e.zero) recAt 32 = true) :
    if s.inFlight c.job.fn < (s.fn c.job.fn).share ∧ s.jobs.length < 16384 then
      let b := s.ramRead entryAt (64 * slots)
      let r : JobRef := { fn := c.job.fn, jq := subQueue, index := BitVec.ofNat 32 s.stamp }
      Answers (.submit x entryAt slots recAt) s (Quiet (modCall c.job
        (fun c => { c with recAt := some (recAt - 0x10000000), subJob := some r })
        { s with stamp := s.stamp + 1, jobs := s.jobs ++ [{ ref := r, entry := b, len := slots
                                                            header := submitHeader c.job.fn b slots, atTime := s.now
                                                            arrival := s.stamp }] }))
    else Answers (.submit x entryAt slots recAt) s (Quiet s) := by
  have step : exec (.submit x entryAt slots recAt) s = settled s _ :=
    service_runs (i := .submit x entryAt slots recAt) h (rfl : _ = execSubmit x entryAt slots recAt s) (source.imp (fun z => by rw [z]) id) (.inr target)
  rw [if_neg (by rw [jobs]; decide)] at step
  refine ite_of (fun room => ?_) fun full => ?_
  · rw [if_neg (by omega)] at step
    exact answers_settled step (.refl _)
  · rw [if_pos (by omega)] at step
    exact answers_settled step (.refl s)

/-! ## RANDOM, TIME, DICT_READ (R384) -/

/-- What RANDOM does with its call. -/
def randomBody (dst m : Nat) (c : Call) (s : State) : State :=
  let g := s.fn c.job.fn
  let k := min (m - c.work.length) g.rngBuf.length
  let w := c.work ++ g.rngBuf.take k
  let u := setFn c.job.fn { g with rngBuf := g.rngBuf.drop k } s
  if w.length ≥ m then modCall c.job (fun c => { c with work := [] }) (ramWrite dst w u) else modCall c.job (fun c => { c with work := w }) u

theorem exec_random (x dst n : Nat) (s : State) :
    exec (.random x dst n) s = runService x (0, 0) (dst, min n 256) (fun _ c _ s => randomBody dst (min n 256) c s) s := rfl

theorem random_draws {s : State} {x dst n : Nat} {c : Call} {j : Job} {e : Ext} (h : Serving s x c j e)
    (inside : n = 0 ∨ inPages (e.data ++ e.zero) dst (min n 256) = true) :
    let m := min n 256
    let g := s.fn c.job.fn
    let w := c.work ++ g.rngBuf.take (m - c.work.length)
    let u := setFn c.job.fn { g with rngBuf := g.rngBuf.drop (m - c.work.length) } s
    Answers (.random x dst n) s (Quiet
      (if m ≤ w.length then modCall c.job (fun c => { c with work := [] }) (ramWrite dst w u)
       else modCall c.job (fun c => { c with work := w }) u)) := by
  intro m g w u
  have taken : g.rngBuf.take (min (m - c.work.length) g.rngBuf.length) = g.rngBuf.take (m - c.work.length) := by
    rw [← List.take_take, List.take_length]
  have left : g.rngBuf.drop (min (m - c.work.length) g.rngBuf.length) = g.rngBuf.drop (m - c.work.length) := by
    by_cases more : m - c.work.length ≤ g.rngBuf.length
    · rw [Nat.min_eq_left more]
    · rw [Nat.min_eq_right (by omega), List.drop_length, List.drop_of_length_le (by omega)]
  have step : exec (.random x dst n) s = settled s _ :=
    service_runs h (exec_random x dst n s) (.inl rfl) (inside.imp (fun z => by rw [z]; rfl) id)
  refine answers_settled (step.trans ?_) (.refl _)
  unfold randomBody
  dsimp only
  rw [taken, left]

theorem time_tells {s : State} {x dst : Nat} {c : Call} {j : Job} {e : Ext} (h : Serving s x c j e)
    (inside : inPages (e.data ++ e.zero) dst 8 = true) :
    Answers (.time x dst) s fun t => Quiet (ramWrite dst (Bytes.ofLE 8 s.now) s) t ∧ (Tidy s → t.ramRead dst 8 = Bytes.ofLE 8 s.now) := by
  have step : exec (.time x dst) s = settled s (ramWrite dst (Bytes.ofLE 8 s.now) s) :=
    service_runs (i := .time x dst) h (rfl : _ = execTime x dst s) (.inl rfl) (.inr inside)
  refine ⟨_, step, quiet_settle _ _, fun tidy => ?_⟩
  have read := ramRead_ramWrite (quiet_settle s (ramWrite dst (Bytes.ofLE 8 s.now) s)).cram tidy
  rwa [length_ofLE] at read

/-- The bytes of an extension's DICT_READ. -/
def extRead (s : State) (f index sub room : Nat) : Bytes :=
  if s.secureRuns = false then [] else (dictReadBy (hostUser f) (dictReadEntry index sub room) s).2

theorem execExtDictRead_eq {s : State} {x index sub dst room : Nat} {c : Call} {j : Job} {e : Ext} (h : Serving s x c j e) :
    execExtDictRead x index sub dst room s = runService x (0, 0) (dst, (extRead s c.job.fn index sub room).length) (fun e c _ s =>
      if imgFlag e.header 2 then ramWrite dst (extRead s c.job.fn index sub room) s else extFault x s) s := by
  unfold execExtDictRead
  dsimp only
  rw [h.2.1]
  rfl

theorem extDictRead_puts {s : State} {x index sub dst room : Nat} {c : Call} {j : Job} {e : Ext} (h : Serving s x c j e)
    (dict : imgFlag e.header 2 = true) :
    let v := if s.secureRuns then (dictReadBy (hostUser c.job.fn) (dictReadEntry index sub room) s).2 else []
    (v = [] ∨ inPages (e.data ++ e.zero) dst v.length = true) →
    Answers (.extDictRead x index sub dst room) s fun t => Quiet (ramWrite dst v s) t ∧ (Tidy s → t.ramRead dst v.length = v) := by
  intro v inside
  have same : extRead s c.job.fn index sub room = v := by
    unfold extRead
    show _ = if s.secureRuns then _ else _
    cases s.secureRuns <;> rfl
  have step : exec (.extDictRead x index sub dst room) s = settled s _ :=
    service_runs h (execExtDictRead_eq h) (.inl rfl) (by rw [same]; exact inside.imp (fun z => by rw [z]; rfl) id)
  rw [if_pos dict, same] at step
  exact ⟨_, step, quiet_settle _ _, fun tidy => ramRead_ramWrite (quiet_settle s _).cram tidy⟩

theorem log_records {s : State} {x a1 a2 a3 : Nat} {c : Call} {j : Job} {e : Ext} (h : Serving s x c j e) :
    Answers (.log x a1 a2 a3) s (Quiet s) := by
  have step : exec (.log x a1 a2 a3) s = settled s (record 0x0A03 0 x a1 a2 a3 (s := s)) :=
    service_runs (i := .log x a1 a2 a3) h (rfl : _ = execLog x a1 a2 a3 s) (.inl rfl) (.inl rfl)
  exact answers_settled step (quiet_record ..)

/-! ## Services that fault (R384, R385) -/

theorem service_refused {s : State} {i : Instr} {x a b n m : Nat} {c : Call} {j : Job} {e : Ext} (h : Serving s x c j e)
    (why : i = .readIn x a b n ∧ n ≠ 0 ∧ inPages (e.data ++ e.zero) b n = false ∨
      i = .writeOut x a b n ∧ n ≠ 0 ∧ inPages e.pages a n = false ∨
      i = .submit x a n b ∧ (n ≠ 0 ∧ inPages e.pages a (64 * n) = false ∨ inPages (e.data ++ e.zero) b 32 = false ∨
        imgFlag e.header 1 = false) ∨
      i = .random x a n ∧ n ≠ 0 ∧ inPages (e.data ++ e.zero) a (min n 256) = false ∨
      i = .time x a ∧ inPages (e.data ++ e.zero) a 8 = false ∨ i = .extDictRead x a b n m ∧ (imgFlag e.header 2 = false ∨
        let v := (dictReadBy (hostUser c.job.fn) (dictReadEntry a b m) s).2
        s.secureRuns = true ∧ v ≠ [] ∧ inPages (e.data ++ e.zero) n v.length = false)) :
    exec i s = settled s (extFault x s) := by
  rcases why with ⟨rfl, some, out⟩ | ⟨rfl, some, out⟩ | ⟨rfl, why⟩ | ⟨rfl, some, out⟩ | ⟨rfl, out⟩ | ⟨rfl, why⟩
  · exact service_faults (i := .readIn x a b n) h (rfl : _ = execReadIn x a b n s) (.inr ⟨some, out⟩)
  · exact service_faults (i := .writeOut x a b n) h (rfl : _ = execWriteOut x a b n s) (.inl ⟨some, out⟩)
  · by_cases mine : n = 0 ∨ inPages e.pages a (64 * n) = true
    · by_cases out : inPages (e.data ++ e.zero) b 32 = true
      · have plain : imgFlag e.header 1 = false := by
          rcases why with ⟨some, off⟩ | off | plain
          · rcases mine with none | on
            · exact absurd none some
            · rw [on] at off; cases off
          · rw [out] at off; cases off
          · exact plain
        have step : exec (.submit x a n b) s = settled s _ :=
          service_runs (i := .submit x a n b) h (rfl : _ = execSubmit x a n b s) (mine.imp (fun z => by rw [z]) id) (.inr out)
        rw [if_pos plain] at step
        exact step
      · exact service_faults (i := .submit x a n b) h (rfl : _ = execSubmit x a n b s) (.inr ⟨(by decide : (32 : Nat) ≠ 0), eq_false_of_ne_true out⟩)
    · obtain ⟨some, off⟩ := not_or.mp mine
      exact service_faults (i := .submit x a n b) h (rfl : _ = execSubmit x a n b s) (.inl ⟨(by omega : 64 * n ≠ 0), eq_false_of_ne_true off⟩)
  · exact service_faults h (exec_random x a n s) (.inr ⟨(by omega : min n 256 ≠ 0), out⟩)
  · exact service_faults (i := .time x a) h (rfl : _ = execTime x a s) (.inr ⟨(by decide : (8 : Nat) ≠ 0), out⟩)
  · by_cases out : (extRead s c.job.fn a b m).length = 0 ∨ inPages (e.data ++ e.zero) n (extRead s c.job.fn a b m).length = true
    · have plain : imgFlag e.header 2 = false := by
        rcases why with plain | ⟨runs, some, off⟩
        · exact plain
        · have same : extRead s c.job.fn a b m = (dictReadBy (hostUser c.job.fn) (dictReadEntry a b m) s).2 := if_neg (by rw [runs]; decide)
          rw [same] at out
          rcases out with none | on
          · exact absurd (List.eq_nil_of_length_eq_zero none) some
          · rw [on] at off; cases off
      have step : exec (.extDictRead x a b n m) s = settled s _ := service_runs h (execExtDictRead_eq h) (.inl rfl) out
      rw [if_neg (by rw [plain]; decide)] at step
      exact step
    · obtain ⟨some, off⟩ := not_or.mp out
      exact service_faults h (execExtDictRead_eq h) (.inr ⟨some, eq_false_of_ne_true off⟩)

/-- Settles O50: each service from the call that its extension runs. -/
theorem extensionServices : Obligations.ExtensionServices := by
  unfold Obligations.ExtensionServices
  exact ⟨fun s x status detail r1 c j e h => ret_ends h, fun s x inOff dst n c j e h inside => readIn_brings h inside,
    fun s x src outOff n c j e h inside => writeOut_writes h inside,
    fun s x entryAt slots recAt c j e h jobs source target => submit_adds h jobs source target, fun s x dst n c j e h inside => random_draws h inside,
    fun s x dst c j e h inside => time_tells h inside, fun s x index sub dst room c j e h dict => extDictRead_puts h dict,
    fun s x a1 a2 a3 c j e h => log_records h,
    fun s i x a b n m c j e h why => answers_settled (service_refused h why) (quiet_extFault h)⟩

end Sys2Proof.Safety
end

section
/-!
PROOFS. LOAD, UNLOAD and LIST of extensions, and the place of an EXT_CALL (R381, R383, R386).
-/

-- In turn: a proof that waits for others beside it takes a thread and its stack from the memory that the check allows.
set_option Elab.async false

namespace Sys2Proof.Safety

open Sys2Proof.Machine

/-! ## Manager operations (R383) -/

theorem manager_body {α : Type} {s : State} {j : Job} {n : Nat} (call : ManagerCall s j n) (wait : α) (refused : Done → α) (runs : α) :
    (if callService j.entry ≠ 0 ∨ callCode j.entry ≠ n then wait
      else match firstFail (callRows s 0 j.entry) with
        | some d => refused d
        | none => runs) = runs := by
  obtain ⟨-, service, code, rows⟩ := call
  rw [if_neg (by rw [service, code]; simp), rows]

theorem manager_done {i : Instr} {s t : State} {j : Job} {n : Nat} {d : Done} {body : Job → State → Option Done × State}
    (is : exec i s = runManager n body s) (call : ManagerCall s j n) (done : body j s = (some d, t)) :
    exec i s = settled s (decideJob j.ref d t) := by
  rw [is]
  exact runAdminSteps_of_done call.1 ((manager_body call _ _ _).trans done)

theorem manager_waits {i : Instr} {s t : State} {j : Job} {n : Nat} {body : Job → State → Option Done × State}
    (is : exec i s = runManager n body s) (call : ManagerCall s j n) (waits : body j s = (none, t)) : exec i s = settled s t := by
  rw [is]
  exact runAdminSteps_of_wait call.1 ((manager_body call _ _ _).trans waits)

/-! ## LOAD (R383) -/

/-- LOAD's effect on its image. -/
def loadGo (b : Bytes) (s : State) : Option Done × State :=
  if imgGood s b = false then (some (bad 0x61), s)
  else if (s.ext? (imgId b)).isSome || !pagesFit s b then (some (bad 0x62), s)
  else (some { status := Status.ok, r1 := imgId b },
    extEvent (imgId b) 1 (imgKey b) { placeExt b s with worlds := { (placeExt b s).worlds with stored := (placeExt b s).worlds.stored ++ [b] } })

theorem exec_load (s : State) : exec .load s = runManager 0 (fun j s =>
    if callInLen j.entry = 0 then (some (bad 0x61), s) else afterReads j s fun s => loadGo (j.input 0 s) s) s := rfl

/-- The extension that an image becomes. -/
def loadedExt (b : Bytes) (s : State) : Ext :=
  { id := imgId b, header := b.take imgHead, measure := sha384 (imgSigned b), key := imgKey b
    kid := match s.custody.extKeys.find? (imgKey b) with | some k => keyId k.key | none => []
    code := (freePages s).take (imgCode b / 4096), data := ((freePages s).drop (imgCode b / 4096)).take (imgData b / 4096)
    zero := ((freePages s).drop (imgCode b / 4096 + imgData b / 4096)).take (imgZero b), image := b }

theorem placeExt_leaves (b : Bytes) (s : State) :
    (placeExt b s).worlds = { s.worlds with exts := s.worlds.exts ++ [loadedExt b s] } ∧ (placeExt b s).mem = s.mem ∧
      (placeExt b s).store = s.store ∧ (placeExt b s).life = s.life := ⟨rfl, rfl, rfl, rfl⟩

theorem loadedExt_fields (b : Bytes) (s : State) :
    (loadedExt b s).id = imgId b ∧ (loadedExt b s).image = b ∧ (loadedExt b s).key = imgKey b ∧
      (loadedExt b s).header = b.take 128 ∧ (loadedExt b s).measure = sha384 (imgSigned b) := by
  unfold loadedExt
  dsimp only
  generalize sha384 (imgSigned b) = m
  exact ⟨rfl, rfl, rfl, rfl, rfl⟩

theorem loadedExt_pages {b : Bytes} {s : State} (fit : pagesFit s b = true) :
    (loadedExt b s).code.length = imgCode b / 4096 ∧ (loadedExt b s).data.length = imgData b / 4096 ∧
      (loadedExt b s).zero.length = imgZero b ∧ ∀ p ∈ (loadedExt b s).pages, p ∈ freePages s := by
  unfold pagesFit imgPages at fit
  simp only [Bool.and_eq_true, decide_eq_true_eq] at fit
  obtain ⟨-, room⟩ := fit
  unfold loadedExt
  refine ⟨?_, ?_, ?_, fun p hp => ?_⟩
  · rw [List.length_take]
    omega
  · rw [List.length_take, List.length_drop]
    omega
  · rw [List.length_take, List.length_drop]
    omega
  · unfold Ext.pages at hp
    simp only [List.mem_append] at hp
    rcases hp with (code | data) | zero
    · exact List.mem_of_mem_take code
    · exact List.mem_of_mem_drop (List.mem_of_mem_take data)
    · exact List.mem_of_mem_drop (List.mem_of_mem_take zero)

theorem load_places {s : State} {j : Job} (call : ManagerCall s j 0) (image : callInLen j.entry ≠ 0) (read : j.reads = .arrived) :
    let b := j.input 0 s
    if imgGood s b = false then Completes .load s j { status := 0x20, detail := 0x61 } s
    else if ((s.ext? (imgId b)).isSome || !pagesFit s b) = true then
      Completes .load s j { status := 0x20, detail := 0x62 } s
    else
      Completes .load s j { status := 0x00, r1 := imgId b } { placeExt b s with
        worlds := { (placeExt b s).worlds with stored := s.worlds.stored ++ [b] } } ∧
      Answers .load s fun t =>
        (∃ x, t.worlds.exts = s.worlds.exts ++ [x] ∧ x.id = imgId b ∧ x.image = b ∧ x.key = imgKey b ∧ x.header = b.take 128 ∧
          x.measure = sha384 (imgSigned b) ∧ x.code.length = imgCode b / 4096 ∧ x.data.length = imgData b / 4096 ∧
          x.zero.length = imgZero b ∧ ∀ p ∈ x.pages, p ∈ freePages s) ∧
        t.worlds.stored = s.worlds.stored ++ [b] ∧ t.worlds.calls = s.worlds.calls ∧ t.mem = s.mem ∧ t.store = s.store ∧
        t.life = s.life := by
  intro b
  have step {d : Done} {t : State} (go : loadGo b s = (some d, t)) : exec .load s = settled s (decideJob j.ref d t) := by
    refine manager_done (exec_load s) call ?_
    rw [if_neg image]
    exact (if_pos read).trans go
  unfold loadGo at step
  obtain ⟨worlds, mem, store, life⟩ := placeExt_leaves b s
  have pages := loadedExt_pages (b := b) (s := s)
  generalize placeExt b s = v at step worlds mem store life ⊢
  have before : v.worlds.stored = s.worlds.stored := by rw [worlds]
  rw [before] at step
  generalize imgGood s b = good at step ⊢
  cases good with
  | false => exact completes_of_exec (step rfl)
  | true =>
  rw [if_neg (by decide)] at step ⊢
  refine ite_of (fun full => ?_) fun fits => ?_
  · exact completes_of_exec (step (if_pos full))
  · have done : Completes .load s j { status := 0x00, r1 := imgId b } { v with
        worlds := { v.worlds with stored := s.worlds.stored ++ [b] } } :=
      completes_of_quiet (step (if_neg fits)) (quiet_extEvent ..)
    refine ⟨done, ?_⟩
    obtain ⟨t, ht, calm⟩ := done
    have fit : pagesFit s b = true := by
      simp only [Bool.or_eq_true, not_or, Bool.not_eq_true', Bool.not_eq_false] at fits
      exact fits.2
    have held : t.worlds = { v.worlds with stored := s.worlds.stored ++ [b] } := calm.worlds
    rw [worlds] at held
    obtain ⟨id, same, key, header, measure⟩ := loadedExt_fields b s
    exact ⟨t, ht, ⟨loadedExt b s, (congrArg Worlds.exts held :), id, same, key, header, measure, pages fit⟩,
      (congrArg Worlds.stored held :), (congrArg Worlds.calls held :), calm.mem.trans mem, calm.store.trans store, calm.life.trans life⟩

/-! ## UNLOAD (R383, R386) -/

/-- Where no call waits for a job it submitted, closing one touches its list and the zeroed pages alone. -/
theorem closeCall_plain {s : State} (plain : ∀ c ∈ s.worlds.calls, c.subJob = none) (r : JobRef) :
    (closeCall r s).jobs = s.jobs ∧ (closeCall r s).mem = s.mem ∧ (closeCall r s).store = s.store ∧
      ∀ c ∈ (closeCall r s).worlds.calls, c.subJob = none := by
  unfold closeCall
  split
  · exact ⟨rfl, rfl, rfl, plain⟩
  · next c found =>
    dsimp only
    rw [plain c (List.mem_of_find?_eq_some found)]
    exact ⟨rfl, rfl, rfl, fun d hd => plain d (List.mem_of_mem_filter hd)⟩

/-- One call of an extension that ends. -/
def endCall (d : Done) (s : State) (c : Call) : State :=
  match s.job? c.job with
  | some j => closeCall c.job (if j.outcome.isNone then decideJob c.job d s else s)
  | none => closeCall c.job s

/-- What becomes of job `r`: nothing yet, with a call of it in `l` still to end, or its end with `d`. -/
def EndsBy (d : Done) (r : JobRef) (l : List Call) (s : State) : Prop :=
  (s.job? r).map (·.outcome) = some (some d) ∨ ((s.job? r).map (·.outcome) = some none ∧ ∃ c ∈ l, c.job = r)

/-- The state before a call closes: its job's completion is decided when it was open. -/
def callDecided (d : Done) (s : State) (c : Call) : State :=
  match s.job? c.job with
  | some j => if j.outcome.isNone then decideJob c.job d s else s
  | none => s

theorem endCall_eq (d : Done) (s : State) (c : Call) : endCall d s c = closeCall c.job (callDecided d s c) := by
  unfold endCall callDecided
  split <;> rfl

theorem callDecided_rest (d : Done) (s : State) (c : Call) : callDecided d s c = { s with jobs := (callDecided d s c).jobs } := by
  unfold callDecided
  split
  · split <;> rfl
  · rfl

theorem callDecided_job (d : Done) (s : State) (c : Call) (r : JobRef) :
    ((callDecided d s c).job? r).map (·.outcome) =
      if c.job = r ∧ (s.job? r).map (·.outcome) = some none then some (some d) else (s.job? r).map (·.outcome) := by
  unfold callDecided
  by_cases mine : c.job = r
  · subst mine
    split
    · next j job =>
      rw [job]
      cases out : j.outcome with
      | none =>
        have decided := outcome_decideJob d (mem_of_job job)
        rw [ref_of_job job] at decided
        simpa [out] using decided
      | some k => simp [job, out]
    · next none => simp [none]
  · rw [if_neg fun h => mine h.1]
    split
    · split
      · rw [job_decideJob_ne _ _ (Ne.symm mine)]
      · rfl
    · rfl

theorem endCall_plain {s : State} (plain : ∀ c ∈ s.worlds.calls, c.subJob = none) (d : Done) (c : Call) :
    (endCall d s c).mem = s.mem ∧ (endCall d s c).store = s.store ∧ (∀ k ∈ (endCall d s c).worlds.calls, k.subJob = none) ∧
      ∀ r l, EndsBy d r (c :: l) s → EndsBy d r l (endCall d s c) := by
  have rest := callDecided_rest d s c
  obtain ⟨jobs, mem, store, left⟩ := closeCall_plain (s := callDecided d s c) (by rw [rest]; exact plain) c.job
  rw [endCall_eq d s c]
  refine ⟨mem.trans (congrArg State.mem rest :), store.trans (congrArg State.store rest :), left, fun r l ends => ?_⟩
  have job : ((closeCall c.job (callDecided d s c)).job? r).map (·.outcome) = ((callDecided d s c).job? r).map (·.outcome) := by
    unfold State.job?
    rw [jobs]
  unfold EndsBy
  rw [job, callDecided_job]
  rcases ends with done | ⟨running, k, listed, named⟩
  · exact .inl (by rw [if_neg (by rw [done]; simp), done])
  · by_cases mine : c.job = r
    · exact .inl (if_pos ⟨mine, running⟩)
    · refine .inr ⟨by rw [if_neg fun h => mine h.1, running], k, ?_, named⟩
      rcases List.mem_cons.mp listed with rfl | later
      · exact absurd named mine
      · exact later

theorem endCalls_plain {d : Done} : ∀ (l : List Call) (s : State), (∀ c ∈ s.worlds.calls, c.subJob = none) →
    (l.foldl (endCall d) s).mem = s.mem ∧ (l.foldl (endCall d) s).store = s.store ∧
      ∀ r, EndsBy d r l s → ((l.foldl (endCall d) s).job? r).map (·.outcome) = some (some d)
  | [], s, _ => ⟨rfl, rfl, fun r ends => ends.elim id fun h => by obtain ⟨-, c, none, -⟩ := h; cases none⟩
  | c :: l, s, plain => by
    obtain ⟨mem, store, left, ends⟩ := endCall_plain plain d c
    obtain ⟨mem', store', ends'⟩ := endCalls_plain l (endCall d s c) left
    exact ⟨mem'.trans mem, store'.trans store, fun r h => ends' r (ends r l h)⟩

/-- The state in which an extension's end is recorded. -/
def extEnded (x : Ext) (s : State) : State :=
  let u := endCalls x.id { status := Status.unavailable, detail := 0x0A } s
  let v := { u with
    cram := zeroPages x.pages u.cram
    worlds := { u.worlds with
      exts := u.worlds.exts.filter fun y => decide (y.id ≠ x.id)
      stored := u.worlds.stored.filter fun b => decide (b ≠ x.image) } }
  if v.regs.rulesLock then v else setOwners x.pages 0 v

theorem quiet_endExt (x : Ext) (how : Nat) (s : State) : Quiet (extEnded x s) (endExt x how s) := quiet_extEvent ..

theorem extEnded_leaves (x : Ext) (s : State) :
    (extEnded x s).worlds.exts = s.worlds.exts.filter (fun y => decide (y.id ≠ x.id)) ∧ (∀ c ∈ (extEnded x s).cram, c.1 / 4096 ∉ x.pages) ∧
      (extEnded x s).life = s.life ∧
      ((∀ c ∈ s.worlds.calls, c.subJob = none) → (extEnded x s).mem = s.mem ∧ (extEnded x s).store = s.store ∧
        ∀ c ∈ s.worlds.calls, c.ext = x.id → (s.job? c.job).map (·.outcome) = some none →
          ((extEnded x s).job? c.job).map (·.outcome) = some (some { status := 0x71, detail := 0x0A })) := by
  have wound := winds_endCalls x.id { status := Status.unavailable, detail := 0x0A } s
  have plainly := endCalls_plain (d := { status := Status.unavailable, detail := 0x0A }) (s.worlds.calls.filter fun c => decide (c.ext = x.id)) s
  have same : (s.worlds.calls.filter fun c => decide (c.ext = x.id)).foldl (endCall { status := Status.unavailable, detail := 0x0A }) s =
      endCalls x.id { status := Status.unavailable, detail := 0x0A } s := rfl
  rw [same] at plainly
  have exts : (endCalls x.id { status := Status.unavailable, detail := 0x0A } s).worlds.exts = s.worlds.exts :=
    (congrArg (fun u : State => u.worlds.exts) wound.rest :)
  unfold extEnded
  dsimp only
  generalize endCalls x.id _ s = u at wound plainly exts ⊢
  rw [← exts]
  split
  all_goals
    refine ⟨rfl, notMem_zeroPages _ _, wound.life, fun plain => ?_⟩
    obtain ⟨mem, store, ends⟩ := plainly plain
    exact ⟨mem, store, fun c hc of running => ends c.job (.inr ⟨running, c, List.mem_filter.mpr ⟨hc, decide_eq_true of⟩, rfl⟩)⟩

theorem find?_ext_filter (l : List Ext) (x k : Nat) :
    (l.filter fun y => decide (y.id ≠ x)).find? (fun y => decide (y.id = k)) = if k = x then none else l.find? fun y => decide (y.id = k) := by
  rw [List.find?_filter]
  split
  · next is =>
    rw [List.find?_eq_none]
    intro y _
    simp [is]
  · next not =>
    congr 1
    funext y
    by_cases named : y.id = k
    · simp [named, not]
    · simp [named]

theorem unload_ends {s : State} {j : Job} {x : Ext} (call : ManagerCall s j 1) (loaded : s.ext? (callArg0 j.entry) = some x) :
    Completes .unload s j { status := 0x00 } (endExt x 2 s) ∧
    Answers .unload s fun t => t.ext? (callArg0 j.entry) = none ∧ (∀ k, k ≠ callArg0 j.entry → t.ext? k = s.ext? k) ∧
      (∀ c ∈ t.cram, c.1 / 4096 ∉ x.pages) ∧ t.life = s.life ∧
      ((∀ c ∈ s.worlds.calls, c.subJob = none) → t.mem = s.mem ∧ t.store = s.store ∧
        ∀ c ∈ s.worlds.calls, c.ext = x.id → c.job ≠ j.ref → (s.job? c.job).map (·.outcome) = some none →
          (t.job? c.job).map (·.outcome) = some (some { status := 0x71, detail := 0x0A })) := by
  have step : exec .unload s = settled s (decideJob j.ref { status := Status.ok } (endExt x 2 s)) := by
    refine manager_done (i := .unload) (rfl : _ = execUnload s) call ?_
    rw [loaded]
  have done : Completes .unload s j { status := 0x00 } (endExt x 2 s) := completes_of_exec step
  refine ⟨done, ?_⟩
  obtain ⟨t, ht, calm⟩ := done
  have ended := quiet_endExt x 2 s
  obtain ⟨exts, zeroed, life, plainly⟩ := extEnded_leaves x s
  have id : x.id = callArg0 j.entry := by simpa using List.find?_some loaded
  have same : t.worlds.exts = s.worlds.exts.filter (fun y => decide (y.id ≠ x.id)) :=
    (congrArg Worlds.exts (calm.worlds.trans ended.worlds)).trans exts
  have cram : t.cram = (extEnded x s).cram := calm.cram.trans ended.cram
  refine ⟨t, ht, ?_, fun k ne => ?_, by rw [cram]; exact zeroed, calm.life.trans (ended.life.trans life), fun plain => ?_⟩
  · unfold State.ext?
    rw [same, find?_ext_filter, if_pos id.symm]
  · unfold State.ext?
    rw [same, find?_ext_filter, if_neg (by rw [id]; exact ne)]
  · obtain ⟨mem, store, ends⟩ := plainly plain
    refine ⟨calm.mem.trans (ended.mem.trans mem), calm.store.trans (ended.store.trans store), fun c hc of ne running => ?_⟩
    rw [← ends c hc of running]
    have jobs : t.job? c.job = (extEnded x s).job? c.job := by
      refine Eq.trans (b := (decideJob j.ref { status := 0x00 } (endExt x 2 s)).job? c.job) ?_ ((job_decideJob_ne _ _ ne).trans ?_)
      · unfold State.job?
        rw [calm.jobs]
      · unfold State.job?
        rw [ended.jobs]
    rw [jobs]

/-! ## LIST and EXT_CALL (R383, R385) -/

theorem list_writes {s : State} {j : Job} (call : ManagerCall s j 2) :
    let b := (List.range 9).flatMap fun e => if (s.ext? e).isSome then extRecord s e else []
    if b.length > callMax j.entry then Completes .list s j { status := 0x20, detail := 0x24, r0 := b.length } s
    else Completes .list s j { status := 0x00, r0 := b.length } (hostWrite 0 (callOut j.entry) b s) := by
  intro b
  have step {d : Done} {t : State} (go : (if b.length > callMax j.entry then (some (bad 0x24 b.length), s)
      else (some { status := Status.ok, r0 := b.length }, hostWrite 0 (callOut j.entry) b s)) = (some d, t)) :
      exec .list s = settled s (decideJob j.ref d t) := manager_done (i := .list) (rfl : _ = execList s) call go
  generalize b = b at step ⊢
  refine ite_of (fun long => ?_) fun fits => ?_
  · exact completes_of_exec (step (if_pos long))
  · exact completes_of_exec (step (if_neg fits))

theorem extCall_waits {s : State} {f : Nat} {j : Job} (hj : s.admin? f Op.extCall = some j) (service : callService j.entry ≠ 0)
    (new : (s.worlds.calls.any fun c => decide (c.job = j.ref)) = false) :
    match firstFail (callRows s f j.entry) with
    | some d => Completes (.extCall f) s j d s
    | none => Answers (.extCall f) s (Quiet { s with worlds := { s.worlds with
        calls := s.worlds.calls ++ [{ job := j.ref, ext := callService j.entry }] } }) := by
  have step : exec (.extCall f) s = execExtCall f s := rfl
  unfold execExtCall at step
  generalize rows : firstFail (callRows s f j.entry) = refusal
  cases refusal with
  | some d =>
    refine completes_of_exec (step.trans (runAdminSteps_of_done hj ?_))
    rw [new, rows]
    rfl
  | none =>
    refine answers_settled (step.trans (runAdminSteps_of_wait hj ?_)) (.refl _)
    rw [new, rows]
    exact if_neg service

/-- Settles O49: the manager's operations, and the checks of a call. -/
theorem extensionsAreManaged : Obligations.ExtensionsAreManaged := by
  unfold Obligations.ExtensionsAreManaged
  refine ⟨fun s j call image read => load_places call image read, fun s j call none => ?_, fun s j call image unread => ?_,
    fun s j x call loaded => unload_ends call loaded, fun s j call absent => ?_, fun s j call => list_writes call,
    fun s f j hj service new => extCall_waits hj service new⟩
  · exact completes_of_exec (manager_done (exec_load s) call (if_pos none))
  · refine answers_settled (manager_waits (exec_load s) call ?_) (.refl _)
    unfold afterReads
    rw [if_neg image, unread]
    rfl
  · refine completes_of_exec (manager_done (i := .unload) (rfl : _ = execUnload s) call ?_)
    rw [absent]

end Sys2Proof.Safety
end

section
/-!
PROOFS. Register writes: whole, through an alias and through the mirrors (R300 to R304, R314, R368, R370).
-/

-- In turn: a proof that waits for others beside it takes a thread and its stack from the memory that the check allows.
set_option Elab.async false

namespace Sys2Proof.Safety

open Sys2Proof.Machine

/-! ## Bits -/

theorem testBit_mergeBits (m a b k : Nat) : (mergeBits m a b).testBit k = if m.testBit k then b.testBit k else a.testBit k := by
  unfold mergeBits
  rw [Nat.testBit_or, Nat.testBit_xor, Nat.testBit_and, Nat.testBit_and]
  cases m.testBit k <;> cases a.testBit k <;> simp

/-- Bits under a mask of the low `n` bits are the new value's. -/
theorem mergeBits_mod (n a b : Nat) : mergeBits (2 ^ n - 1) a b % 2 ^ n = b % 2 ^ n := by
  refine Nat.eq_of_testBit_eq fun k => ?_
  rw [Nat.testBit_mod_two_pow, Nat.testBit_mod_two_pow, testBit_mergeBits, Nat.testBit_two_pow_sub_one]
  by_cases low : k < n <;> simp [low]

theorem mergeBits_and (m a b : Nat) : mergeBits m a b &&& m = b &&& m := by
  refine Nat.eq_of_testBit_eq fun k => ?_
  rw [Nat.testBit_and, Nat.testBit_and, testBit_mergeBits]
  cases m.testBit k <;> simp

/-! ## A write that no gate stops -/

/-- The active unit's turn counts, and changes nothing that the gates or the registers look at. -/
theorem unitTurn_rest (a : Attr) (s : State) :
    unitTurn a s = { s with free := (unitTurn a s).free, worlds := (unitTurn a s).worlds } ∧
      (unitTurn a s).worlds.halted = s.worlds.halted := by
  unfold unitTurn
  split <;> exact ⟨rfl, rfl⟩

theorem gateStops_unitTurn (a : Attr) (x : Access) (addr n : Nat) (s : State) (h : gateStops a x addr n s = none) :
    gateStops a x addr n (unitTurn a s) = none := by
  unfold unitTurn
  split
  · next unit =>
    unfold gateStops at h ⊢
    rw [unit] at h ⊢
    split at h
    · next no => exact absurd no (by decide)
    · rw [if_neg (by decide)]
      split at h
      · next yes => exact if_pos yes
      · cases h
  · exact h

theorem writeBar_of_reach {s : State} {a : Attr} {addr n : Nat} (v : Nat) (reach : windowReach s a = true) (inside : addr < 0xC00000)
    (free : gateStops a .write (barInternal addr) n s = none) :
    writeBar a addr n v s =
      if n = 4 ∧ addr % 4 = 0 then writeWindow a (addr / 0x100000) (addr % 0x100000) v (unitTurn a s)
      else if n = 8 ∧ addr % 8 = 0 ∧ isWide (addr / 0x100000) (addr % 0x100000) = true then
        writeReg a (addr / 0x100000) (addr % 0x100000) { rw := v % 2 ^ 32 } (unitTurn a s)
      else if hasReg (addr / 4 * 4) then refuseAccess (unitTurn a s)
      else unitTurn a s := by
  unfold writeBar
  dsimp only
  rw [reach, gateStops_unitTurn a .write (barInternal addr) n s free, if_neg]
  unfold hostReserved
  simp [Nat.not_le.mpr inside]

theorem writeBar_four {s : State} {a : Attr} {addr : Nat} {secure : Bool} (v : Nat) (may : MayWrite s a addr secure)
    (inside : addr < 0xC00000) (aligned : addr % 4 = 0) :
    writeBar a addr 4 v s = writeWindow a (addr / 0x100000) (addr % 0x100000) v (unitTurn a s) :=
  (writeBar_of_reach v may.1 inside may.2.1).trans (if_pos ⟨rfl, aligned⟩)

/-- A register's write by a master in its class. -/
theorem writeReg_of_class {a : Attr} {c off : Nat} {b : Bits} {s : State} {i : RegInfo} (there : regInfo c off = some i)
    (cls : isEngine a = true ∨ if i.secure then a.secure = true else a.priv = true)
    (writes : ¬ (i.rw = 0 ∧ i.w1c = 0 ∧ i.w1s = 0 ∧ i.wo = 0)) :
    writeReg a c off b s = storeReg c off (mergeBits i.rw (storedReg s c off) b.rw)
      { b with ones := b.ones &&& (i.w1c ||| i.w1s), wo := b.wo &&& i.wo } s := by
  have admits : i.admits a = true := by
    unfold RegInfo.admits
    rw [Bool.or_eq_true]
    refine cls.imp id fun h => ?_
    split <;> rename_i sec <;> simpa [sec] using h
  unfold writeReg
  rw [there]
  dsimp only
  rw [admits, if_neg (by decide), if_neg writes]

theorem workStands_of_quiet {s t : State} (q : Quiet s t) : WorkStands s t := ⟨q.jobs, q.mem, q.store, q.life, q.custody⟩

theorem WorkStands.trans {s t u : State} (a : WorkStands s t) (b : WorkStands t u) : WorkStands s u := by
  obtain ⟨jobs, mem, store, life, custody⟩ := a
  obtain ⟨jobs', mem', store', life', custody'⟩ := b
  exact ⟨jobs'.trans jobs, mem'.trans mem, store'.trans store, life'.trans life, custody'.trans custody⟩

theorem workStands_unitTurn (a : Attr) (s : State) : WorkStands s (unitTurn a s) := by
  rw [(unitTurn_rest a s).1]
  exact ⟨rfl, rfl, rfl, rfl, rfl⟩

theorem regs_unitTurn (a : Attr) (s : State) : (unitTurn a s).regs = s.regs := by rw [(unitTurn_rest a s).1]

/-! ## The error enable registers (R314) -/

/-- The error enable register of block `c` takes `v`; its bit 16 is always 1. -/
def putErrEn (c v : Nat) (s : State) : State :=
  { s with regs := { s.regs with errEn := s.regs.errEn.modify c fun _ => BitVec.ofNat 32 (v % 65536 + 65536) } }

theorem regInfo_errEn (c : Nat) : regInfo c 0xC = some { rw := 0xFFFF } := rfl

theorem storedReg_errEn (s : State) (c : Nat) : storedReg s c 0xC = (s.regs.errEn.getD c 0).toNat := by
  have taken : s.taken? c 0xC = none := by
    unfold State.taken?
    split
    · next r v _ => exact if_neg (by cases r <;> simp [shadowPlace])
    · rfl
  unfold storedReg
  rw [if_neg (by simp)]
  unfold readReg
  rw [regInfo_errEn, if_neg (by decide), if_neg (by omega)]
  unfold readPlain
  rw [taken]
  rfl

theorem writeReg_errEn {a : Attr} (c : Nat) (b : Bits) (s : State) (cls : isEngine a = true ∨ a.priv = true) :
    writeReg a c 0xC b s = putErrEn c (mergeBits 0xFFFF (s.regs.errEn.getD c 0).toNat b.rw) s := by
  rw [writeReg_of_class (regInfo_errEn c) cls (by decide), storedReg_errEn]
  rfl

/-- A write of an error enable register: what the step leaves. -/
theorem putErrEn_settled {i : Instr} {s : State} {a : Attr} {c v : Nat} (step : exec i s = settled s (putErrEn c v (unitTurn a s))) :
    Answers i s fun t => t.regs.errEn = s.regs.errEn.modify c (fun _ => BitVec.ofNat 32 (v % 65536 + 65536)) ∧
      t.regs.rules = s.regs.rules ∧ t.regs.owners = s.regs.owners ∧ t.regs.pwReq = s.regs.pwReq ∧ t.regs.pwKeep = s.regs.pwKeep ∧
      WorkStands s t := by
  have calm := quiet_settle s (putErrEn c v (unitTurn a s))
  have regs := regs_unitTurn a s
  refine ⟨_, step, ?_, ?_, ?_, ?_, ?_, WorkStands.trans (workStands_unitTurn a s) (WorkStands.trans (t := putErrEn c v (unitTurn a s))
    ⟨rfl, rfl, rfl, rfl, rfl⟩ (workStands_of_quiet calm))⟩
  · rw [← regs]
    exact (congrArg (fun x : State => x.regs.errEn) calm.1 :)
  · rw [← regs]
    exact calm.rules
  · rw [← regs]
    exact (congrArg (fun x : State => x.regs.owners) calm.1 :)
  · rw [← regs]
    exact (congrArg (fun x : State => x.regs.pwReq) calm.1 :)
  · rw [← regs]
    exact (congrArg (fun x : State => x.regs.pwKeep) calm.1 :)

theorem getD_modify_self {l : List Word} {c : Nat} (h : c < l.length) (w : Word) : (l.modify c fun _ => w).getD c 0 = w := by
  rw [List.getD_eq_getElem _ _ (by rw [List.length_modify]; exact h), List.getElem_modify_eq]

theorem getD_modify_ne {l : List Word} {c k : Nat} (ne : k ≠ c) (h : Word → Word) : (l.modify c h).getD k 0 = l.getD k 0 := by
  rw [List.getD_eq_getElem?_getD, List.getD_eq_getElem?_getD, List.getElem?_modify]
  simp [Ne.symm ne]

/-- The low half takes the value's bits. -/
theorem getLsbD_errEn {v k : Nat} (h : k < 16) : (BitVec.ofNat 32 (v % 65536 + 65536)).getLsbD k = v.testBit k := by
  rw [BitVec.getLsbD_ofNat, decide_eq_true (by omega), Bool.true_and]
  have same : (v % 65536 + 65536) % 2 ^ 16 = v % 2 ^ 16 := by omega
  have low : ∀ x : Nat, (x % 2 ^ 16).testBit k = x.testBit k := fun x => by
    rw [Nat.testBit_mod_two_pow, decide_eq_true h, Bool.true_and]
  rw [← low, same, low]

/-! ## The four ways to write -/

theorem registerWrite_whole {s : State} {a : Attr} {c v : Nat} (block : c < 12) (len : s.regs.errEn.length = 12)
    (may : MayWrite s a (c * 0x100000 + 0xC) false) :
    Answers (.registerWrite a (.bar (c * 0x100000 + 0xC)) 4 v) s fun t =>
      t.regs.errEn = s.regs.errEn.set c (BitVec.ofNat 32 (v % 65536 + 65536)) ∧ t.regs.rules = s.regs.rules ∧
      t.regs.owners = s.regs.owners ∧ t.regs.pwReq = s.regs.pwReq ∧ t.regs.pwKeep = s.regs.pwKeep ∧ WorkStands s t := by
  obtain ⟨-, -, cls⟩ := id may
  have step : exec (.registerWrite a (.bar (c * 0x100000 + 0xC)) 4 v) s =
      settled s (putErrEn c (mergeBits 0xFFFF (s.regs.errEn.getD c 0).toNat v) (unitTurn a s)) := by
    show settled s (writeBar a (c * 0x100000 + 0xC) 4 v s) = _
    rw [writeBar_four v may (by omega) (by omega), show (c * 0x100000 + 0xC) / 0x100000 = c by omega,
      show (c * 0x100000 + 0xC) % 0x100000 = 0xC by omega]
    unfold writeWindow
    rw [if_pos (by decide), writeReg_errEn c _ _ cls, regs_unitTurn]
  obtain ⟨t, ht, errEn, rest⟩ := putErrEn_settled step
  refine ⟨t, ht, errEn.trans ?_, rest⟩
  have low : mergeBits 65535 (s.regs.errEn.getD c 0).toNat v % 65536 = v % 65536 := mergeBits_mod 16 _ _
  rw [low, List.modify_eq_set_get _ (by omega)]

/-- Writes of another size, or from outside the class, are refused. -/
theorem registerWrite_size {s : State} {a : Attr} {c n v : Nat} (block : c < 12) (size : n ≠ 4) (reach : windowReach s a = true)
    (free : gateStops a .write (barInternal (c * 0x100000 + 0xC)) n s = none) :
    Answers (.registerWrite a (.bar (c * 0x100000 + 0xC)) n v) s (Quiet (unitTurn a s)) := by
  have step : exec (.registerWrite a (.bar (c * 0x100000 + 0xC)) n v) s = settled s (writeBar a (c * 0x100000 + 0xC) n v s) := rfl
  rw [writeBar_of_reach v reach (by omega) free, if_neg (by omega), if_neg (by omega)] at step
  refine answers_settled (u := unitTurn a s) step ?_
  split
  · exact quiet_refuseAccess _
  · exact .refl _

theorem registerWrite_class {s : State} {a : Attr} {c v : Nat} (block : c < 12) (reach : windowReach s a = true)
    (engine : isEngine a = false) (user : a.priv = false) (free : gateStops a .write (barInternal (c * 0x100000 + 0xC)) 4 s = none) :
    Answers (.registerWrite a (.bar (c * 0x100000 + 0xC)) 4 v) s (Quiet (unitTurn a s)) := by
  have step : exec (.registerWrite a (.bar (c * 0x100000 + 0xC)) 4 v) s = settled s (writeBar a (c * 0x100000 + 0xC) 4 v s) := rfl
  rw [writeBar_of_reach v reach (by omega) free, if_pos ⟨rfl, by omega⟩, show (c * 0x100000 + 0xC) / 0x100000 = c by omega,
    show (c * 0x100000 + 0xC) % 0x100000 = 0xC by omega] at step
  unfold writeWindow writeReg RegInfo.admits at step
  rw [if_pos (by decide), regInfo_errEn] at step
  dsimp only at step
  rw [engine, user] at step
  exact answers_settled step (quiet_refuseAccess _)

/-- A write of the host that the gate refuses is captured. -/
theorem registerWrite_gated {s : State} {a : Attr} {addr n v : Nat} (host : a.master = 0x0100) (reach : windowReach s a = true)
    (inside : addr < 0xC00000) (refused : granted s a .write (barInternal addr) n = false) :
    Answers (.registerWrite a (.bar addr) n v) s (Quiet (captureFault a .write (barInternal addr) s)) := by
  have turn : unitTurn a s = s := if_neg (by rw [host]; decide)
  have stops : gateStops a .write (barInternal addr) n s = some (captureFault a .write (barInternal addr) (bump 0x13 s)) := by
    unfold gateStops gateRefuse
    rw [if_neg (by rw [host]; decide), refused, if_neg (by decide)]
    dsimp only
    rw [if_pos (by omega)]
  have write : writeBar a addr n v s = captureFault a .write (barInternal addr) (bump 0x13 s) := by
    unfold writeBar
    dsimp only
    rw [reach, turn, stops, if_neg]
    unfold hostReserved
    simp [Nat.not_le.mpr inside]
  have step : exec (.registerWrite a (.bar addr) n v) s = settled s (writeBar a addr n v s) := rfl
  rw [write] at step
  exact answers_settled step (.of_still rfl rfl)

/-- What a write of one block's error enable bits leaves: the bits `x` there, and every other block's. -/
theorem errEn_bits {i : Instr} {s : State} {a : Attr} {c x : Nat} (block : c < 12) (len : s.regs.errEn.length = 12)
    (step : exec i s = settled s (putErrEn c (mergeBits 0xFFFF (s.regs.errEn.getD c 0).toNat x) (unitTurn a s))) :
    Answers i s fun t => (∀ k, k < 16 → (t.regs.errEn.getD c 0).getLsbD k = x.testBit k) ∧
      (∀ k, k ≠ c → t.regs.errEn.getD k 0 = s.regs.errEn.getD k 0) ∧ WorkStands s t := by
  obtain ⟨t, ht, errEn, -, -, -, -, stands⟩ := putErrEn_settled step
  refine ⟨t, ht, fun k low => ?_, fun k ne => ?_, stands⟩
  · have bit : (0xFFFF : Nat).testBit k = true := by
      rw [show (0xFFFF : Nat) = 2 ^ 16 - 1 from rfl, Nat.testBit_two_pow_sub_one, decide_eq_true low]
    rw [errEn, getD_modify_self (by omega), getLsbD_errEn low, testBit_mergeBits, bit, if_pos rfl]
  · rw [errEn, getD_modify_ne ne]

theorem aliasWrite_bit {s : State} {a : Attr} {c b : Nat} {v : Word} (block : c < 12) (plain : Machine.mirrored c = false) (bit : b < 16)
    (may : MayWrite s a (c * 0x100000 + 0x40180 + 4 * b) false) (len : s.regs.errEn.length = 12) :
    Answers (.aliasWrite a (.bar (c * 0x100000 + 0x40180 + 4 * b)) v) s fun t =>
      (t.regs.errEn.getD c 0).getLsbD b = v.getLsbD 0 ∧
      (∀ k, k < 16 → k ≠ b → (t.regs.errEn.getD c 0).getLsbD k = (s.regs.errEn.getD c 0).getLsbD k) ∧
      (∀ k, k ≠ c → t.regs.errEn.getD k 0 = s.regs.errEn.getD k 0) ∧ WorkStands s t := by
  obtain ⟨-, -, cls⟩ := id may
  have step : exec (.aliasWrite a (.bar (c * 0x100000 + 0x40180 + 4 * b)) v) s = settled s (putErrEn c (mergeBits 0xFFFF
      (s.regs.errEn.getD c 0).toNat (mergeBits (2 ^ b) (s.regs.errEn.getD c 0).toNat ((v.toNat % 2) <<< b))) (unitTurn a s)) := by
    show settled s (if 0x40000 ≤ (c * 0x100000 + 0x40180 + 4 * b) % 0x100000 ∧ (c * 0x100000 + 0x40180 + 4 * b) % 0x100000 < 0x80000 then
      writeBar a (c * 0x100000 + 0x40180 + 4 * b) 4 v.toNat s else s) = _
    rw [if_pos (by omega), writeBar_four _ may (by omega) (by omega), show (c * 0x100000 + 0x40180 + 4 * b) / 0x100000 = c by omega,
      show (c * 0x100000 + 0x40180 + 4 * b) % 0x100000 = 0x40180 + 4 * b by omega]
    unfold writeWindow
    rw [if_neg (by omega), plain, if_neg (by simp), if_pos (by simp; omega), show (0x40180 + 4 * b - 0x40000) / 128 * 4 = 0xC by omega,
      show (0x40180 + 4 * b - 0x40000) % 128 / 4 = b by omega, writeReg_errEn c _ _ cls, storedReg_errEn, regs_unitTurn]
    rfl
  obtain ⟨t, ht, bits, others, stands⟩ := errEn_bits block len step
  refine ⟨t, ht, ?_, fun k low ne => ?_, others, stands⟩
  · rw [bits b bit, testBit_mergeBits, Nat.testBit_two_pow_self, if_pos rfl, Nat.testBit_shiftLeft, decide_eq_true (Nat.le_refl b),
      Bool.true_and, Nat.sub_self, Nat.testBit_zero, BitVec.getLsbD, Nat.testBit_zero]
    simp
  · rw [bits k low, testBit_mergeBits, Nat.testBit_two_pow_of_ne (Ne.symm ne), if_neg (by decide)]
    rfl

/-- A write through the mirror of a kind presents the bits of that kind. -/
theorem mirrorWrite_bits {i : Instr} {s : State} {a : Attr} {c kind addr : Nat} {v : Word} (block : c < 12) (at' : addr = c * 0x100000 + kind * 0x10000 + 0xC) (mirror : Machine.mirrored c = true)
    (one : 1 ≤ kind) (three : kind ≤ 3) (is : exec i s = writeMirrorOf kind a addr v s)
    (may : MayWrite s a addr false) (len : s.regs.errEn.length = 12) :
    Answers i s fun t =>
      (∀ k, k < 16 → (t.regs.errEn.getD c 0).getLsbD k = (mirrorBits kind (s.regs.errEn.getD c 0).toNat v.toNat).rw.testBit k) ∧
      (∀ k, k ≠ c → t.regs.errEn.getD k 0 = s.regs.errEn.getD k 0) ∧ WorkStands s t := by
  obtain ⟨-, -, cls⟩ := id may
  refine errEn_bits (a := a) block len (is.trans ?_)
  unfold writeMirrorOf
  rw [if_pos (by omega), writeBar_four _ may (by omega) (by omega), show addr / 0x100000 = c by omega,
    show addr % 0x100000 = kind * 0x10000 + 0xC by omega]
  unfold writeWindow
  rw [if_neg (by omega), mirror, if_pos (by simp; omega), show (kind * 0x10000 + 0xC) % 0x10000 = 0xC by omega,
    show (kind * 0x10000 + 0xC) / 0x10000 = kind by omega, writeReg_errEn c _ _ cls, storedReg_errEn, regs_unitTurn]

/-- Settles O54: each way to write puts its bits in the one register. -/
theorem registerWrites : Obligations.RegisterWrites := by
  unfold Obligations.RegisterWrites
  refine ⟨fun s a c v block len may => registerWrite_whole block len may, fun s a c n v block size reach free => registerWrite_size block size reach free,
    fun s a c v block reach engine user free => registerWrite_class block reach engine user free,
    fun s a addr n v host reach inside refused => registerWrite_gated host reach inside refused,
    fun s a c b v block plain bit may len => aliasWrite_bit block plain bit may len, fun s a c v block mirror may len => ?_,
    fun s a c v block mirror may len => ?_, fun s a c v block mirror may len => ?_⟩
  · obtain ⟨t, ht, bits, rest⟩ := mirrorWrite_bits (kind := 1) (i := .setMirrorWrite a (c * 0x100000 + 0x1000C) v) block (by omega) mirror (by decide) (by decide) rfl may len
    refine ⟨t, ht, fun k low => (bits k low).trans ?_, rest⟩
    exact Nat.testBit_or _ _ _
  · obtain ⟨t, ht, bits, rest⟩ := mirrorWrite_bits (kind := 2) (i := .clearMirrorWrite a (c * 0x100000 + 0x2000C) v) block (by omega) mirror (by decide) (by decide) rfl may len
    refine ⟨t, ht, fun k low => (bits k low).trans ?_, rest⟩
    show ((s.regs.errEn.getD c 0).toNat ^^^ ((s.regs.errEn.getD c 0).toNat &&& v.toNat)).testBit k = _
    rw [Nat.testBit_xor, Nat.testBit_and]
    unfold BitVec.getLsbD
    cases (s.regs.errEn.getD c 0).toNat.testBit k <;> cases v.toNat.testBit k <;> rfl
  · obtain ⟨t, ht, bits, rest⟩ := mirrorWrite_bits (kind := 3) (i := .toggleMirrorWrite a (c * 0x100000 + 0x3000C) v) block (by omega) mirror (by decide) (by decide) rfl may len
    refine ⟨t, ht, fun k low => (bits k low).trans ?_, rest⟩
    exact Nat.testBit_xor _ _ _

end Sys2Proof.Safety
end

section
/-!
PROOFS. The event cursor, the kick, power votes, gate rules and the debug port (R317, R366, R369, R371, R373, R376, R379,
R380).
-/

-- In turn: a proof that waits for others beside it takes a thread and its stack from the memory that the check allows.
set_option Elab.async false

namespace Sys2Proof.Safety

open Sys2Proof.Machine

/-! ## A register's write -/

/-- A four-byte write of a register by a master in its class stores what its access codes let through. -/
theorem writeBar_stores {s : State} {a : Attr} {addr c off : Nat} {i : RegInfo} (v : Nat) (may : MayWrite s a addr i.secure)
    (at' : addr = c * 0x100000 + off) (block : c < 12) (low : off < 0x10000) (aligned : off % 4 = 0) (there : regInfo c off = some i)
    (writes : ¬ (i.rw = 0 ∧ i.w1c = 0 ∧ i.w1s = 0 ∧ i.wo = 0)) :
    writeBar a addr 4 v s = storeReg c off (mergeBits i.rw (storedReg (unitTurn a s) c off) v)
      { rw := v, ones := v &&& (i.w1c ||| i.w1s), wo := v &&& i.wo } (unitTurn a s) := by
  obtain ⟨-, -, cls⟩ := id may
  rw [writeBar_four v may (by omega) (by omega), show addr / 0x100000 = c by omega, show addr % 0x100000 = off by omega]
  unfold writeWindow
  rw [if_pos low, writeReg_of_class there cls writes]

/-- A step that is a register's write leaves the work alone, where the register's effect does. -/
theorem workStands_settled {s u t : State} {a : Attr} (effect : WorkStands (unitTurn a s) u) (calm : Quiet u t) : WorkStands s t :=
  WorkStands.trans (workStands_unitTurn a s) (WorkStands.trans effect (workStands_of_quiet calm))

/-- A step with the effect `u` of one register's write, and what it leaves. -/
theorem answers_register {i : Instr} {s u : State} {a : Attr} {P : State → Prop} (step : exec i s = settled s u)
    (effect : WorkStands (unitTurn a s) u) (holds : ∀ t, Quiet u t → WorkStands s t → P t) : Answers i s P :=
  ⟨_, step, holds _ (quiet_settle s u) (workStands_settled effect (quiet_settle s u))⟩

theorem Quiet.ring {s t : State} (q : Quiet s t) : t.evr.ring = s.evr.ring := (congrArg (fun x : State => x.evr.ring) q.1 :)

theorem Quiet.pwReq {s t : State} (q : Quiet s t) : t.regs.pwReq = s.regs.pwReq := (congrArg (fun x : State => x.regs.pwReq) q.1 :)

theorem Quiet.pwKeep {s t : State} (q : Quiet s t) : t.regs.pwKeep = s.regs.pwKeep := (congrArg (fun x : State => x.regs.pwKeep) q.1 :)

theorem Quiet.pwGrant {s t : State} (q : Quiet s t) : t.regs.pwGrant = s.regs.pwGrant := (congrArg (fun x : State => x.regs.pwGrant) q.1 :)

theorem Quiet.owners {s t : State} (q : Quiet s t) : t.regs.owners = s.regs.owners := (congrArg (fun x : State => x.regs.owners) q.1 :)

/-! ## The event cursor (R317) -/

theorem eventControl_write {s : State} {a : Attr} {v : Word} (may : MayWrite s a 0x700108 false) :
    writeBar a 0x700108 4 v.toNat s = moveCursor (v.toNat &&& 3) (unitTurn a s) :=
  writeBar_stores (c := 7) (off := 0x108) (i := { wo := 3 }) v.toNat may (by decide) (by decide) (by decide) (by decide) rfl (by decide)

theorem evr_unitTurn (a : Attr) (s : State) : (unitTurn a s).evr = s.evr := by rw [(unitTurn_rest a s).1]

theorem advance_moves {s : State} {a : Attr} {v : Word} (may : MayWrite s a 0x700108 false) (on : v.getLsbD 0 = true)
    (off : v.getLsbD 1 = false) :
    Answers (.advance a v) s fun t => t.evr.cursor = s.evr.cursor + 1 ∧ t.evr.ring = s.evr.ring ∧ WorkStands s t := by
  have step : exec (.advance a v) s = settled s (moveCursor (v.toNat &&& 3) (unitTurn a s)) := by
    show settled s (if v.getLsbD 0 then writeBar a 0x700108 4 v.toNat s else s) = _
    rw [if_pos on, eventControl_write may]
  have bits : (v.toNat &&& 3).testBit 0 = true ∧ (v.toNat &&& 3).testBit 1 = false := by
    rw [Nat.testBit_and, Nat.testBit_and]
    exact ⟨(Bool.and_eq_true ..).mpr ⟨on, rfl⟩, (Bool.and_eq_false_iff ..).mpr (.inl off)⟩
  refine answers_register (a := a) step ⟨rfl, rfl, rfl, rfl, rfl⟩ fun t calm stands => ⟨?_, ?_, stands⟩
  · rw [calm.cursor]
    show (unitTurn a s).evr.cursor + _ = _
    rw [evr_unitTurn, bits.1, bits.2]
    rfl
  · rw [calm.ring, ← evr_unitTurn a s]
    rfl

theorem retreat_moves {s : State} {a : Attr} {v : Word} (may : MayWrite s a 0x700108 false) (on : v.getLsbD 1 = true)
    (off : v.getLsbD 0 = false) :
    Answers (.retreat a v) s fun t => t.evr.cursor = s.evr.cursor - 1 ∧ t.evr.ring = s.evr.ring ∧ WorkStands s t := by
  have step : exec (.retreat a v) s = settled s (moveCursor (v.toNat &&& 3) (unitTurn a s)) := by
    show settled s (if v.getLsbD 1 then writeBar a 0x700108 4 v.toNat s else s) = _
    rw [if_pos on, eventControl_write may]
  have bits : (v.toNat &&& 3).testBit 0 = false ∧ (v.toNat &&& 3).testBit 1 = true := by
    rw [Nat.testBit_and, Nat.testBit_and]
    exact ⟨(Bool.and_eq_false_iff ..).mpr (.inl off), (Bool.and_eq_true ..).mpr ⟨on, rfl⟩⟩
  refine answers_register (a := a) step ⟨rfl, rfl, rfl, rfl, rfl⟩ fun t calm stands => ⟨?_, ?_, stands⟩
  · rw [calm.cursor]
    show (unitTurn a s).evr.cursor + _ = _
    rw [evr_unitTurn, bits.1, bits.2, BitVec.sub_eq_add_neg]
    rfl
  · rw [calm.ring, ← evr_unitTurn a s]
    rfl

/-! ## The kick (R373) -/

theorem kick_restarts {s : State} {a : Attr} {v : Word} (may : MayWrite s a 0x900108 true) :
    Answers (.kick a v) s (Quiet (if v.toNat % 65536 = 0x6C1E ∧ s.worlds.halted = false then
      { unitTurn a s with worlds := { (unitTurn a s).worlds with kickAt := s.now } } else unitTurn a s)) := by
  have write : writeBar a 0x900108 4 v.toNat s = kickDog (v.toNat &&& 0xFFFF) (unitTurn a s) :=
    writeBar_stores (c := 9) (off := 0x108) (i := { secure := true, wo := 0xFFFF }) v.toNat may (by decide) (by decide) (by decide)
      (by decide) rfl (by decide)
  have step : exec (.kick a v) s = settled s (writeBar a 0x900108 4 v.toNat s) := rfl
  have now : (unitTurn a s).now = s.now := by rw [(unitTurn_rest a s).1] <;> rfl
  have data : (v.toNat &&& 0xFFFF) % 65536 = v.toNat % 65536 := by
    rw [show v.toNat &&& 0xFFFF = v.toNat % 65536 from Nat.and_two_pow_sub_one_eq_mod _ 16, Nat.mod_mod]
  rw [write] at step
  unfold kickDog at step
  rw [data, (unitTurn_rest a s).2, now] at step
  exact answers_settled step (.refl _)

/-! ## Power votes (R376) -/

theorem testBit_vote {k : Nat} (h : k < 12) (old v : Nat) : (mergeBits 0xFFF old v).testBit k = v.testBit k := by
  have bit : (0xFFF : Nat).testBit k = true := by
    rw [show (0xFFF : Nat) = 2 ^ 12 - 1 from rfl, Nat.testBit_two_pow_sub_one, decide_eq_true h]
  rw [testBit_mergeBits, bit, if_pos rfl]

theorem request_taken {s : State} {a : Attr} {v : Word} (may : MayWrite s a 0xB00110 false) :
    Answers (.pwReqWrite a v) s fun t => t.regs.pwReq % 4096 = v.toNat % 4096 ∧ t.regs.pwKeep = s.regs.pwKeep ∧
      (∀ k, k < 12 → t.regs.pwGrant.testBit k = (s.regs.pwGrant.testBit k && v.getLsbD k)) ∧ WorkStands s t := by
  obtain ⟨w, hw⟩ : ∃ w, w = mergeBits 0xFFF (storedReg (unitTurn a s) 11 0x110) v.toNat := ⟨_, rfl⟩
  have step : exec (.pwReqWrite a v) s = settled s (putReq w (unitTurn a s)) := by
    rw [hw]
    exact congrArg (settled s) (writeBar_stores (c := 11) (off := 0x110) (i := { rw := 0xFFF }) v.toNat may (by decide) (by decide)
      (by decide) (by decide) rfl (by decide))
  have regs := regs_unitTurn a s
  refine answers_register (a := a) step ⟨rfl, rfl, rfl, rfl, rfl⟩ fun t calm stands => ⟨?_, ?_, fun k low => ?_, stands⟩
  · rw [calm.pwReq, hw]
    exact mergeBits_mod 12 _ _
  · rw [← regs]
    exact calm.pwKeep
  · rw [calm.pwGrant]
    show ((unitTurn a s).regs.pwGrant &&& w).testBit k = _
    rw [regs, hw, Nat.testBit_and, testBit_vote low]
    rfl

theorem vote_taken {s : State} {a : Attr} {v : Word} (may : MayWrite s a 0xB00114 true) :
    Answers (.pwKeepWrite a v) s fun t => t.regs.pwKeep % 4096 = v.toNat % 4096 ∧ t.regs.pwReq = s.regs.pwReq ∧
      (∀ k, k < 12 → t.regs.pwGrant.testBit k = (s.regs.pwGrant.testBit k && !v.getLsbD k)) ∧ WorkStands s t := by
  obtain ⟨w, hw⟩ : ∃ w, w = mergeBits 0xFFF (storedReg (unitTurn a s) 11 0x114) v.toNat := ⟨_, rfl⟩
  have step : exec (.pwKeepWrite a v) s = settled s (putKeep w (unitTurn a s)) := by
    rw [hw]
    exact congrArg (settled s) (writeBar_stores (c := 11) (off := 0x114) (i := { secure := true, rw := 0xFFF }) v.toNat may (by decide)
      (by decide) (by decide) (by decide) rfl (by decide))
  have regs := regs_unitTurn a s
  refine answers_register (a := a) step ⟨rfl, rfl, rfl, rfl, rfl⟩ fun t calm stands => ⟨?_, ?_, fun k low => ?_, stands⟩
  · rw [calm.pwKeep, hw]
    exact mergeBits_mod 12 _ _
  · rw [← regs]
    exact calm.pwReq
  · rw [calm.pwGrant]
    show ((unitTurn a s).regs.pwGrant ^^^ ((unitTurn a s).regs.pwGrant &&& w)).testBit k = _
    rw [regs, hw, Nat.testBit_xor, Nat.testBit_and, testBit_vote low]
    unfold BitVec.getLsbD
    cases s.regs.pwGrant.testBit k <;> cases v.toNat.testBit k <;> rfl

/-- A request of an idle block that no vote holds is granted. -/
theorem quiesce_granted {s : State} {c : Nat} (on : s.mainOn = true) (asks : s.regs.pwReq.testBit c = true) (free : s.keeps c = false)
    (idle : s.blockIdle c = true) :
    Answers (.quiesceGrant c) s fun t => t.regs.pwGrant.testBit c = true ∧
      (∀ k, k ≠ c → t.regs.pwGrant.testBit k = s.regs.pwGrant.testBit k) ∧ WorkStands s t := by
  have step : exec (.quiesceGrant c) s = settled s (if s.mainOn && s.regs.pwReq.testBit c && !s.keeps c &&
    !s.regs.pwGrant.testBit c && s.blockIdle c then { s with regs := { s.regs with pwGrant := s.regs.pwGrant ||| 2 ^ c } } else s) := rfl
  rw [on, asks, free, idle] at step
  have calm := quiet_settle s
  by_cases granted : s.regs.pwGrant.testBit c = true
  · rw [granted, if_neg (by decide)] at step
    refine ⟨_, step, ?_, fun k _ => ?_, workStands_of_quiet (calm s)⟩
    · rw [(calm s).pwGrant]
      exact granted
    · rw [(calm s).pwGrant]
  · rw [Bool.eq_false_iff.mpr granted, if_pos (by decide)] at step
    refine ⟨_, step, ?_, fun k ne => ?_, WorkStands.trans
      (t := { s with regs := { s.regs with pwGrant := s.regs.pwGrant ||| 2 ^ c } }) ⟨rfl, rfl, rfl, rfl, rfl⟩ (workStands_of_quiet (calm _))⟩
    · rw [(calm _).pwGrant]
      show (s.regs.pwGrant ||| 2 ^ c).testBit c = true
      rw [Nat.testBit_or, Nat.testBit_two_pow_self, Bool.or_true]
    · rw [(calm _).pwGrant]
      show (s.regs.pwGrant ||| 2 ^ c).testBit k = _
      rw [Nat.testBit_or, Nat.testBit_two_pow_of_ne (Ne.symm ne), Bool.or_false]

theorem quiesce_waits {s : State} {c : Nat} (held : s.regs.pwReq.testBit c = false ∨ s.keeps c = true ∨ s.blockIdle c = false) :
    Answers (.quiesceGrant c) s (Quiet s) := by
  have step : exec (.quiesceGrant c) s = settled s (if s.mainOn && s.regs.pwReq.testBit c && !s.keeps c &&
    !s.regs.pwGrant.testBit c && s.blockIdle c then { s with regs := { s.regs with pwGrant := s.regs.pwGrant ||| 2 ^ c } } else s) := rfl
  rw [if_neg] at step
  · exact answers_settled step (.refl s)
  · rcases held with h | h | h <;> simp [h]

/-! ## Rule words and page owner entries (R363, R366, R371) -/

theorem specialReg_tg (off : Nat) : specialReg 8 off = if off = 0x200 then some { secure := true, w1s := 1 }
    else if isRuleWord off then some { secure := true, rw := ruleMask off }
    else if isOwnerWord off then some { secure := true, rw := 0xF1F } else none := rfl

theorem regInfo_rule {off : Nat} (rule : isRuleWord off = true) (aligned : off % 4 = 0) :
    regInfo 8 off = some { secure := true, rw := ruleMask off } := by
  have range : 0x1000 ≤ off := by
    unfold isRuleWord at rule
    simp at rule
    omega
  unfold regInfo
  rw [if_neg (by omega), if_neg (by omega), if_neg (by omega), if_neg (by omega), if_neg]
  · rw [specialReg_tg, if_neg (by omega), if_pos rule]
  · unfold roOffsets
    simp
    omega

theorem regInfo_owner {p : Nat} (own : p < 1024) : regInfo 8 (0x4000 + 4 * p) = some { secure := true, rw := 0xF1F } := by
  unfold regInfo
  rw [if_neg (by omega), if_neg (by omega), if_neg (by omega), if_neg (by omega), if_neg]
  · rw [specialReg_tg, if_neg (by omega), if_neg (by unfold isRuleWord; simp; omega), if_pos (by unfold isOwnerWord; simp; omega)]
  · unfold roOffsets
    simp
    omega

theorem ruleMask_ne (off : Nat) : ruleMask off ≠ 0 := by
  unfold ruleMask
  split <;> decide

/-- A rule word's or an owner entry's write. -/
theorem exec_gateRule {s : State} {a : Attr} {off m : Nat} {v : Word} (places : (isRuleWord off || isOwnerWord off) = true)
    (aligned : off % 4 = 0) (low : off < 0x10000) (high : 0x1000 ≤ off) (some' : m ≠ 0)
    (there : regInfo 8 off = some { secure := true, rw := m }) (may : MayWrite s a (0x800000 + off) true) :
    exec (.gateRuleWrite a off v) s = settled s (putRule off (mergeBits m (storedReg (unitTurn a s) 8 off) v.toNat) (unitTurn a s)) := by
  show settled s (if isRuleWord off || isOwnerWord off then writeBar a (0x800000 + off) 4 v.toNat s else s) = _
  rw [if_pos places, writeBar_stores (c := 8) (off := off) v.toNat may (by omega) (by decide) low aligned there fun h => some' h.1]
  unfold storeReg
  rw [if_neg (by omega), if_neg (by omega), if_neg (by omega), if_neg (by omega), if_pos rfl, if_neg (by omega)]

theorem workStands_putRule (off v : Nat) (s : State) : WorkStands s (putRule off v s) := by
  unfold putRule
  split_ifs <;> exact ⟨rfl, rfl, rfl, rfl, rfl⟩

theorem ruleWord_taken {s : State} {a : Attr} {off : Nat} {v : Word} (rule : isRuleWord off = true) (aligned : off % 4 = 0)
    (may : MayWrite s a (0x800000 + off) true) :
    Answers (.gateRuleWrite a off v) s fun t => t.regs.owners = s.regs.owners ∧ WorkStands s t ∧
      if s.regs.rulesLock then t.regs.rules = s.regs.rules
      else t.regs.rules.getD off 0 &&& ruleMask off = v.toNat &&& ruleMask off ∧
        ∀ k, k ≠ off → t.regs.rules.getD k 0 = s.regs.rules.getD k 0 := by
  have range : 0x1000 ≤ off ∧ off < 0x2400 := by
    unfold isRuleWord at rule
    simp at rule
    omega
  have step := exec_gateRule (v := v) (by rw [rule, Bool.true_or]) aligned (by omega) range.1 (ruleMask_ne off) (regInfo_rule rule aligned) may
  generalize storedReg (unitTurn a s) 8 off = old at step
  have regs := regs_unitTurn a s
  refine answers_register (a := a) step (workStands_putRule ..) fun t calm stands => ?_
  unfold putRule at calm
  rw [regs] at calm
  by_cases locked : s.regs.rulesLock = true
  · rw [if_pos locked] at calm ⊢
    rw [← regs]
    exact ⟨calm.owners, stands, calm.rules⟩
  · rw [if_neg locked, if_pos (by omega)] at calm
    rw [if_neg locked]
    have rules : t.regs.rules = s.regs.rules.set off _ := calm.rules
    refine ⟨calm.owners, stands, ?_, fun k ne => ?_⟩
    · rw [rules, FMap.getD_set_self]
      exact mergeBits_and _ _ _
    · rw [rules, FMap.getD_set_ne _ _ _ ne]

theorem ownerEntry_taken {s : State} {a : Attr} {p : Nat} {v : Word} (own : p < 1024) (may : MayWrite s a (0x804000 + 4 * p) true) :
    Answers (.gateRuleWrite a (0x4000 + 4 * p) v) s fun t => t.regs.rules = s.regs.rules ∧ WorkStands s t ∧
      if s.regs.rulesLock then t.regs.owners = s.regs.owners
      else t.owner p &&& 0xF1F = v.toNat &&& 0xF1F ∧ ∀ k, k ≠ p → t.owner k = s.owner k := by
  have step := exec_gateRule (a := a) (s := s) (v := v) (off := 0x4000 + 4 * p) (by unfold isOwnerWord; simp; omega) (by omega) (by omega)
    (by omega) (by decide) (regInfo_owner own) (by rw [← Nat.add_assoc]; exact may)
  generalize storedReg (unitTurn a s) 8 (0x4000 + 4 * p) = old at step
  have regs := regs_unitTurn a s
  refine answers_register (a := a) step (workStands_putRule ..) fun t calm stands => ?_
  unfold putRule at calm
  rw [regs] at calm
  by_cases locked : s.regs.rulesLock = true
  · rw [if_pos locked] at calm ⊢
    rw [← regs]
    exact ⟨calm.rules, stands, calm.owners⟩
  · rw [if_neg locked, if_neg (by omega), if_pos (by omega), show (0x4000 + 4 * p - 0x4000) / 4 = p by omega] at calm
    rw [if_neg locked]
    have owners : t.regs.owners = s.regs.owners.set p _ := calm.owners
    refine ⟨calm.rules, stands, ?_, fun k ne => ?_⟩
    · unfold State.owner
      rw [if_neg (by omega), owners, FMap.getD_set_self]
      exact mergeBits_and _ _ _
    · unfold State.owner
      rw [owners, FMap.getD_set_ne _ _ _ ne]

/-! ## The debug port (R379, R380) -/

theorem out_acceptRecord (e : EventRec) (s : State) : (acceptRecord e s).out = s.out := by
  have rolled : (rollWindow s).out = s.out := by unfold rollWindow; split <;> rfl
  unfold acceptRecord
  split
  · rfl
  · dsimp only
    repeat' split
    all_goals exact rolled

/-- A step that changes neither LOCKED nor NO_PAIR sends nothing of its own. -/
theorem out_settle {s t : State} (locked : s.locked = t.locked) (noPair : s.noPair = t.noPair) : (settle s t).out = t.out := by
  unfold settle
  split
  · rfl
  · dsimp only
    simp only [if_pos locked, if_pos noPair]
    unfold noteConditions
    split
    · rfl
    · exact out_acceptRecord ..

theorem quiet_debugRefuse (a : Attr) (x : Access) (addr : Nat) (s : State) : Quiet (captureFault a x addr s) (debugRefuse a x addr s) :=
  (Quiet.of_still rfl rfl : Quiet (captureFault a x addr s) (captureFault a x addr (bump 0x14 s))).trans (quiet_record ..)

theorem exec_debugRead {s : State} {addr : Nat} {v : Word} (port : s.debugPort = true) :
    exec (.debugAccess addr false v) s = if ((List.range 4).any fun i => debugLocked s .read (addr + i)) = true then
        settled s (emit (.debugRead addr 0) (debugRefuse (debugAttr s) .read addr s))
      else .next (emit (.debugRead addr (BitVec.ofNat 32 (debugValue s addr))) (drewFree s)) :=
  if_neg (by rw [port]; decide)

theorem exec_debugWrite {s : State} {addr : Nat} {v : Word} (port : s.debugPort = true) :
    exec (.debugAccess addr true v) s = if ((List.range 4).any fun i => debugLocked s .write (addr + i)) = true then
        settled s (debugRefuse (debugAttr s) .write addr s)
      else match gateOf addr with
      | some 1 => .next (ramWrite addr (Bytes.ofLE 4 v.toNat) s)
      | some g => settled s (if g < 8 then s else writeBar (debugAttr s) (addr - 0x40000000) 4 v.toNat s)
      | none => .next s :=
  if_neg (by rw [port]; decide)

theorem debugWrite_ram {s : State} {addr : Nat} {v : Word} (port : s.debugPort = true) (low : 0x10000000 ≤ addr) (high : addr + 4 ≤ 0x10400000) :
    if ((List.range 4).any fun i => debugLocked s .write (addr + i)) = true then
      Answers (.debugAccess addr true v) s (Quiet (captureFault (debugAttr s) .write addr s))
    else Answers (.debugAccess addr true v) s fun t => t = ramWrite addr (Bytes.ofLE 4 v.toNat) s ∧
      (Tidy s → t.ramRead addr 4 = Bytes.ofLE 4 v.toNat) := by
  have step := exec_debugWrite (addr := addr) (v := v) port
  split
  · next locked =>
    rw [if_pos locked] at step
    exact answers_settled step (quiet_debugRefuse ..)
  · next free =>
    have gate : gateOf addr = some 1 := by
      unfold gateOf
      rw [if_neg (by omega), if_pos (by omega)]
    rw [if_neg free, gate] at step
    refine ⟨_, step, rfl, fun tidy => ?_⟩
    have back := ramRead_ramWrite (s := s) (a := addr) (b := Bytes.ofLE 4 v.toNat) (t := ramWrite addr (Bytes.ofLE 4 v.toNat) s) rfl tidy
    rw [length_ofLE] at back
    exact back

theorem debugRead_ram {s : State} {addr : Nat} {v : Word} (port : s.debugPort = true) (low : 0x10000000 ≤ addr) (high : addr + 4 ≤ 0x10400000) :
    if ((List.range 4).any fun i => debugLocked s .read (addr + i)) = true then
      Answers (.debugAccess addr false v) s fun t =>
        Quiet (captureFault (debugAttr s) .read addr s) t ∧ .debugRead addr 0 ∈ t.out
    else Answers (.debugAccess addr false v) s fun t =>
      t = { s with free := s.free + 1, out := .debugRead addr (BitVec.ofNat 32 (Bytes.toLE (s.ramRead addr 4))) :: s.out } := by
  have step := exec_debugRead (addr := addr) (v := v) port
  split
  · next locked =>
    rw [if_pos locked] at step
    have calm := quiet_debugRefuse (debugAttr s) .read addr s
    refine ⟨_, step, (calm.trans (quiet_emit _ _)).trans (quiet_settle _ _), ?_⟩
    rw [out_settle]
    · exact List.mem_cons_self
    · exact congrArg (fun l : Life => decide (l.lc = .locked)) calm.life.symm
    · exact congrArg (fun b : Fabric => !b.pairs.any fun p => p.counts.full) calm.fab.symm
  · next free =>
    have gate : gateOf addr = some 1 := by
      unfold gateOf
      rw [if_neg (by omega), if_pos (by omega)]
    rw [if_neg free] at step
    unfold debugValue at step
    rw [gate] at step
    exact ⟨_, step, rfl⟩

theorem debugWrite_register {s : State} {addr : Nat} {v : Word} (port : s.debugPort = true) (inside : addr < 0xC00000)
    (free : ((List.range 4).any fun i => debugLocked s .write (barInternal addr + i)) = false) :
    Answers (.debugAccess (barInternal addr) true v) s (Quiet (writeBar (debugAttr s) addr 4 v.toNat s)) := by
  have step := exec_debugWrite (addr := barInternal addr) (v := v) port
  have gate : gateOf (barInternal addr) = some (8 + (barInternal addr - 0x40000000) / 0x100000) := by
    unfold gateOf barInternal
    rw [if_neg (by omega), if_neg (by omega), if_neg (by omega), if_neg (by omega), if_neg (by omega), if_pos (by omega)]
  rw [free, if_neg (by decide), gate] at step
  split at step
  · next one =>
    injection one with one
    omega
  · next g _ is =>
    injection is with is
    rw [if_neg (by omega), show barInternal addr - 0x40000000 = addr by unfold barInternal; omega] at step
    exact answers_settled step (.refl _)
  · next none' => cases none'

theorem debugHalt_stops {s : State} (port : s.debugPort = true) (runs : s.worlds.debugHalt = false) :
    Answers .debugHalt s fun t => t.normalRuns = false ∧ (s.life.lc = .debug → t.secureRuns = false) ∧
      Quiet { s with worlds := { s.worlds with
        debugHalt := true, pausedAt := if s.life.lc = .debug ∧ s.worlds.armed = true then some s.now else none } } t := by
  have step : exec .debugHalt s = execDebugHalt s := rfl
  unfold execDebugHalt at step
  rw [if_pos ⟨port, runs⟩] at step
  have calm := quiet_settle s { s with worlds := { s.worlds with
        debugHalt := true, pausedAt := if s.life.lc = .debug ∧ s.worlds.armed = true then some s.now else none } }
  have halted := congrArg Worlds.debugHalt calm.worlds
  refine ⟨_, step, ?_, fun debug => ?_, calm⟩
  · unfold State.normalRuns
    rw [halted]
    rfl
  · unfold State.secureRuns State.debugStops
    rw [halted, calm.life]
    show (_ && !(true && decide (s.life.lc = .debug))) = false
    rw [debug]
    simp

theorem debugResume_goes {s : State} (halted : s.worlds.debugHalt = true) :
    Answers .debugResume s fun t => t.normalRuns = true ∧ Quiet { s with worlds := { s.worlds with
      debugHalt := false, pausedAt := none, kickAt := s.worlds.kickAt + (s.worlds.pausedAt.map (s.now - ·)).getD 0 } } t := by
  have step : exec .debugResume s = execDebugResume s := rfl
  unfold execDebugResume at step
  rw [if_pos halted] at step
  have calm := quiet_settle s { s with worlds := { s.worlds with
      debugHalt := false, pausedAt := none, kickAt := s.worlds.kickAt + (s.worlds.pausedAt.map (s.now - ·)).getD 0 } }
  refine ⟨_, step, ?_, calm⟩
  unfold State.normalRuns
  rw [calm.worlds]
  rfl

/-- Settles O55: each register's write has its one effect, and the port only what it is open to. -/
theorem controlRegisters : Obligations.ControlRegisters := by
  unfold Obligations.ControlRegisters
  refine ⟨fun s a v may on off => advance_moves may on off, fun s a v may on off => retreat_moves may on off,
    fun s a v may => kick_restarts may, fun s a v may => request_taken may, fun s a v may => vote_taken may,
    fun s c on asks free idle => quiesce_granted on asks free idle, fun s c held => quiesce_waits held,
    fun s a off v rule aligned may => ruleWord_taken rule aligned may, fun s a p v own may => ownerEntry_taken own may,
    fun s addr v port low high => debugWrite_ram port low high, fun s addr v port low high => debugRead_ram port low high,
    fun s addr v port inside free => debugWrite_register port inside free, fun s addr write v port => ?_,
    fun s port runs => debugHalt_stops port runs, fun s halted => debugResume_goes halted, fun s => ⟨fun no => ?_, fun runs => ?_⟩⟩
  · exact ⟨s, if_pos (by rw [port]; decide), rfl⟩
  · exact ⟨s, if_neg (by rcases no with h | h <;> simp [h]), rfl⟩
  · exact ⟨s, if_neg (by rw [runs]; decide), rfl⟩

end Sys2Proof.Safety
end

section
/-!
PROOFS. The device fault, its action, the secure watchdog and the event recorder (R373, R374, R427, R428, R436 to R439).
-/

-- In turn: a proof that waits for others beside it takes a thread and its stack from the memory that the check allows.
set_option Elab.async false

namespace Sys2Proof.Safety

open Sys2Proof.Machine

/-! ## The error registers (R314) -/

theorem err_evalVec (f v : Nat) (s : State) : (evalVec f v s).regs.err = s.regs.err := by
  unfold evalVec
  dsimp only
  split
  · split <;> rfl
  · rfl

theorem err_vecEvent (f v : Nat) (b : Bool) (s : State) : (vecEvent f v b s).regs.err = s.regs.err := by
  unfold vecEvent
  dsimp only
  split
  · exact err_evalVec _ _ _
  · rfl

theorem err_raiseSource (n : Nat) (s : State) : (raiseSource n s).regs.err = s.regs.err := by
  unfold raiseSource signalDevice
  dsimp only
  split
  · rfl
  · split
    · split
      · exact err_vecEvent _ _ _ _
      · rfl
    · rfl

theorem err_setEvent (f n : Nat) (s : State) : (setEvent f n s).regs.err = s.regs.err := by
  unfold setEvent
  dsimp only
  split
  · rfl
  · split
    · have signalled (t : State) (h : t.regs.err = s.regs.err) : (if f = 0 then raiseSource 204 t else t).regs.err = s.regs.err := by
        split
        · exact (err_raiseSource _ _).trans h
        · exact h
      apply signalled
      split
      · exact err_vecEvent _ _ _ _
      · rfl
    · rfl

theorem err_record (code level p0 p1 p2 p3 : Nat) (nested : Bool) (s : State) :
    (record code level p0 p1 p2 p3 nested s).regs.err = s.regs.err := by
  have accepted (e : EventRec) : (acceptRecord e s).regs.err = s.regs.err := by
    have rolled : (rollWindow s).regs.err = s.regs.err := by
      unfold rollWindow
      split <;> rfl
    unfold acceptRecord
    split
    · rfl
    · dsimp only
      repeat' split
      all_goals exact rolled
  unfold record aerOfLevel
  repeat' split
  all_goals exact accepted _

theorem err_eachFn_setEvent (n : Nat) (s : State) : (eachFn (fun f => setEvent f n) s).regs.err = s.regs.err := by
  unfold eachFn
  generalize s.served = l
  induction l generalizing s with
  | nil => rfl
  | cons f l ih => exact (ih _).trans (err_setEvent f n s)

theorem err_noteConditions (s : State) : (noteConditions s).regs.err = s.regs.err := by
  unfold noteConditions
  split
  · rfl
  · exact err_record _ _ _ _ _ _ _ _

theorem err_settle (old s : State) : (settle old s).regs.err = s.regs.err := by
  have each (p : Prop) [Decidable p] (n : Nat) (t : State) (h : t.regs.err = s.regs.err) :
      (if p then t else eachFn (fun f => setEvent f n) t).regs.err = s.regs.err := by
    split
    · exact h
    · exact (err_eachFn_setEvent n t).trans h
  unfold settle
  split
  · rfl
  · exact (err_noteConditions _).trans (each _ 2 _ (each _ 1 s rfl))

theorem evr_raiseSource (n : Nat) (s : State) : (raiseSource n s).evr = s.evr := by
  have sent (t : State) : (signalDevice t).evr = t.evr := by
    unfold signalDevice vecEvent evalVec
    dsimp only
    repeat' split
    all_goals rfl
  unfold raiseSource
  dsimp only
  split
  · rfl
  · split
    · exact sent _
    · rfl

theorem evr_setErr (c n : Nat) (s : State) : (setErr c n s).evr = s.evr := by
  unfold setErr
  dsimp only
  split
  · rfl
  · split
    · exact evr_raiseSource _ _
    · split
      · exact evr_raiseSource _ _
      · rfl

/-- A set error bit is shown. -/
theorem shown_setErr {c n : Nat} {s : State} (block : c < s.regs.err.length) (bit : n < 32) : ErrShown c n (setErr c n s) := by
  unfold setErr
  dsimp only
  split
  · next already => exact already
  · have put : ErrShown c n { s with regs := { s.regs with
        err := s.regs.err.set c (s.regs.err.getD c 0 ||| BitVec.ofNat 32 (2 ^ n)) } } := by
      show ((s.regs.err.set c _).getD c 0).getLsbD n = true
      rw [List.getD_eq_getElem _ _ (by rw [List.length_set]; exact block), List.getElem_set_self, BitVec.getLsbD_or,
        BitVec.getLsbD_ofNat, decide_eq_true bit, Nat.testBit_two_pow_self]
      simp
    split
    · show ((raiseSource _ _).regs.err.getD c 0).getLsbD n = true
      rw [err_raiseSource]
      exact put
    · split
      · show ((raiseSource _ _).regs.err.getD c 0).getLsbD n = true
        rw [err_raiseSource]
        exact put
      · exact put

theorem ErrShown.congr {c n : Nat} {s t : State} (shown : ErrShown c n s) (h : t.regs.err = s.regs.err) : ErrShown c n t := by
  show (t.regs.err.getD c 0).getLsbD n = true
  rw [h]
  exact shown

/-! ## Jobs that end -/

/-- `t` has no job beside those of `s`, and no function has come under reset. -/
structure Sheds (s t : State) : Prop where
  jobs : ∀ k ∈ t.jobs, k ∈ s.jobs
  run (f : Nat) : (s.fn f).run ≠ .resetting → (t.fn f).run ≠ .resetting

theorem Sheds.refl (s : State) : Sheds s s := ⟨fun _ h => h, fun _ h => h⟩

theorem Sheds.trans {s t u : State} (a : Sheds s t) (b : Sheds t u) : Sheds s u :=
  ⟨fun k h => a.jobs k (b.jobs k h), fun f h => b.run f (a.run f h)⟩

theorem Sheds.of_jobs {s t : State} (jobs : t.jobs = s.jobs := by exact rfl) (run : ∀ f, (t.fn f).run = (s.fn f).run := by exact fun _ => rfl) :
    Sheds s t :=
  ⟨fun k h => by rwa [← jobs], fun f h => by rwa [run f]⟩

theorem Sheds.of_quiet {s t : State} (q : Quiet s t) : Sheds s t := .of_jobs q.jobs q.run

theorem Sheds.of_written {s t : State} (w : Written s t) : Sheds s t :=
  .of_jobs w.jobs fun f => (congrArg Fn.run (w.2 f) :)

theorem sheds_setFn {f : Nat} {g : Fn} {s : State} (run : g.run = (s.fn f).run ∨ g.run = .d3hot) : Sheds s (setFn f g s) := by
  refine ⟨fun _ h => h, fun k h => ?_⟩
  rw [fn_setFn]
  split
  · next e =>
    subst e
    rcases run with same | asleep
    · rwa [same]
    · rw [asleep]
      decide
  · exact h

theorem Sheds.foldl {α : Type} {h : State → α → State} (each : ∀ s a, Sheds s (h s a)) : ∀ (l : List α) (s : State), Sheds s (l.foldl h s)
  | [], s => .refl s
  | a :: l, s => (each s a).trans (Sheds.foldl each l _)

theorem sheds_hostWrite (f a : Nat) (b : Bytes) (s : State) : Sheds s (hostWrite f a b s) := .of_written (written_hostWrite f a b s)

theorem sheds_writeMirror (f c : Nat) (s : State) : Sheds s (writeMirror f c s) := by
  unfold writeMirror
  split
  · exact .refl s
  · split
    · exact .refl s
    · have put (q : CompQueue) (b : Bytes) (a : Nat) : Sheds s (setCq f c q (hostWrite f a b s)) :=
        (sheds_hostWrite f a b s).trans (sheds_setFn (.inl rfl))
      dsimp only
      split
      · exact (put _ _ _).trans (.of_quiet (quiet_vecEvent _ _ _ _))
      · exact put _ _ _

theorem sheds_issueRecord (f c : Nat) (b : Bytes) (reserved irqNow : Bool) (s : State) : Sheds s (issueRecord f c b reserved irqNow s) := by
  unfold issueRecord
  split
  · exact .refl s
  · have put (q : CompQueue) (a : Nat) : Sheds s (setCq f c q (hostWrite f a b s)) :=
      (sheds_hostWrite f a b s).trans (sheds_setFn (.inl rfl))
    dsimp only
    split
    · exact (put _ _).trans (sheds_writeMirror _ _ _)
    · exact put _ _

theorem sheds_finishEntry (f q : Nat) (i : Word) (s : State) : Sheds s (finishEntry f q i s) := by
  unfold finishEntry
  split
  · exact .refl s
  · exact sheds_setFn (.inl rfl)

theorem sheds_enterD3 (f : Nat) (s : State) : Sheds s (enterD3 f s) := by
  unfold enterD3
  split
  · exact (Sheds.foldl (fun s c => sheds_writeMirror f c s) _ s).trans (sheds_setFn (.inr rfl))
  · exact .refl s

theorem run_of_logged {g g' : Fn} (h : loggedFn g = loggedFn g') : g.run = g'.run := (congrArg Fn.run h :)

theorem sheds_leavePair (r : JobRef) (s : State) : Sheds s (leavePair r s) :=
  .of_jobs (jobs_leavePair r s) fun f => run_of_logged ((stops_leavePair r r s).1 f)

theorem sheds_squash (j : Job) (s : State) : Sheds s (squash j s) :=
  .of_jobs (jobs_squash j s) fun f => run_of_logged ((stops_squash j.ref j s).1 f)

theorem sheds_freeRetiring (n gen : Nat) (s : State) : Sheds s (freeRetiring n gen s) := by
  unfold freeRetiring
  split
  · split
    · exact .of_jobs
    · exact .refl s
  · exact .refl s

/-- A context is erased for a job that is gone. -/
theorem sheds_leavePk {r : JobRef} {s : State} (gone : ∀ k ∈ s.jobs, k.ref ≠ r) : Sheds s (leavePk r s) := by
  refine .of_jobs ?_ fun f => by rw [State.fn, fns_leavePk]; rfl
  unfold leavePk
  dsimp only
  split
  · show (s.jobs.map fun j => if j.ref = r then eraseContext j else j) = s.jobs
    exact (List.map_congr_left fun k h => if_neg (gone k h)).trans (List.map_id _)
  · rfl

theorem sheds_dropOne (j : Job) (s : State) : Sheds s (dropOne j s) := by
  have removed : Sheds s { s with
      jobs := s.jobs.filter fun k => decide (k.ref ≠ j.ref), rng := { s.rng with fills := s.rng.fills.filter fun x => decide (x ≠ j.ref) } } :=
    ⟨fun k h => List.mem_of_mem_filter h, fun _ h => h⟩
  have off (t : State) (from' : Sheds s t) (gone : ∀ k ∈ t.jobs, k.ref ≠ j.ref) :
      Sheds s (leavePk j.ref (releaseHold j (leavePair j.ref t))) := by
    have held : (releaseHold j (leavePair j.ref t)).jobs = t.jobs := (jobs_releaseHold _ _).trans (jobs_leavePair _ _)
    refine (from'.trans (sheds_leavePair j.ref t)).trans (.trans (.of_jobs (jobs_releaseHold _ _) fun f => ?_) (sheds_leavePk ?_))
    · unfold releaseHold
      split <;> rfl
    · rw [held]
      exact gone
  have gone : ∀ k ∈ s.jobs.filter fun k => decide (k.ref ≠ j.ref), k.ref ≠ j.ref := fun k h => by simpa using (List.mem_filter.mp h).2
  have out := off _ removed gone
  unfold dropOne
  dsimp only
  refine .trans ?_ (sheds_enterD3 _ _)
  split
  · exact out
  · exact out.trans (sheds_freeRetiring _ _ _)

theorem sheds_closeCall (r : JobRef) (s : State) : Sheds s (closeCall r s) := by
  unfold closeCall
  split
  · exact .refl s
  · dsimp only
    split
    · exact .trans .of_jobs ((sheds_squash _ _).trans (sheds_dropOne _ _))
    · exact .of_jobs

theorem sheds_returnRecord (j : Job) (d : Done) (s : State) : Sheds s (returnRecord j d s) := by
  unfold returnRecord
  split
  · exact .refl s
  · exact .of_jobs

theorem sheds_completeJob (j : Job) (d : Done) (s : State) : Sheds s (completeJob j d s) := by
  have dropped (t : State) : Sheds t (dropJob j t) := (sheds_dropOne j t).trans (sheds_closeCall _ _)
  unfold completeJob
  split
  · exact (sheds_returnRecord _ _ _).trans (dropped _)
  · exact (sheds_issueRecord _ _ _ _ _ _).trans ((sheds_finishEntry _ _ _ _).trans (dropped _))

theorem sheds_abandonAdmin (j : Job) (s : State) : Sheds s (abandonAdmin j s) := by
  unfold abandonAdmin
  split
  · exact .of_jobs
  · split
    · exact sheds_setFn (.inl rfl)
    · unfold abandonCeremony
      split
      · exact .refl s
      · split
        · exact .of_jobs
        · exact .refl s

/-! ## What a device fault ends (R427) -/

/-- Nothing else has the job's claim, and its completion is nobody else's to issue. -/
structure Endable (s : State) (k : Job) : Prop where
  claim : k.claim = false
  silent : k.silent = false
  taken : k.taken = false
  run : (s.fn k.ref.fn).run ≠ .resetting

theorem endJob_atOnce {k : Job} {s : State} (d : Done) (free : Endable s k) (status : d.status = Status.fault) :
    endJob k d true s = writeMirror k.ref.fn (s.cqOf k.ref) (completeJob k (k.stop.getD d) (squash k s)) := by
  have waits : awaits k d = false := by
    unfold awaits
    rw [status]
    simp [Status.fault, Status.timeout, Status.aborted]
  unfold endJob
  rw [if_neg free.run, free.taken, if_neg (by decide), free.claim, if_neg (by decide), free.silent, if_neg (by simp), waits,
    if_neg (by decide)]

/-- One job's turn among those that a device fault ends. -/
def endsOne (s : State) (j : Job) : State :=
  match s.job? j.ref with
  | some k =>
    endJob k { status := Status.fault, detail := 0x04 } true
      (if k.ref.jq = 0 ∧ k.outcome.isNone then abandonAdmin k s else s)
  | none => s

theorem endAll_eq (s : State) : endAll s = s.jobs.foldl endsOne s := rfl

theorem sheds_endsOne {s : State} (free : ∀ k ∈ s.jobs, Endable s k) (j : Job) :
    Sheds s (endsOne s j) ∧ ∀ k ∈ (endsOne s j).jobs, k.ref ≠ j.ref := by
  unfold endsOne
  split
  · next k hk =>
    have left : Sheds s (if k.ref.jq = 0 ∧ k.outcome.isNone then abandonAdmin k s else s) := by
      split
      · exact sheds_abandonAdmin _ _
      · exact .refl s
    obtain ⟨claim, silent, taken, run⟩ := free k (mem_of_job hk)
    rw [endJob_atOnce _ ⟨claim, silent, taken, left.run _ run⟩ rfl]
    refine ⟨left.trans ((sheds_squash _ _).trans ((sheds_completeJob _ _ _).trans (sheds_writeMirror _ _ _))), fun x hx same => ?_⟩
    rw [jobs_writeMirror] at hx
    have gone := job_completeJob_self k (k.stop.getD { status := Status.fault, detail := 0x04 })
      (squash k (if k.ref.jq = 0 ∧ k.outcome.isNone then abandonAdmin k s else s))
    rw [job_eq_none_iff] at gone
    exact gone (List.mem_map.mpr ⟨x, hx, same.trans (ref_of_job hk).symm⟩)
  · next none' =>
    refine ⟨.refl s, fun x hx same => ?_⟩
    rw [job_eq_none_iff] at none'
    exact none' (same ▸ List.mem_map_of_mem hx)

theorem Endable.of_sheds {s t : State} {k : Job} (free : Endable s k) (left : Sheds s t) : Endable t k :=
  ⟨free.claim, free.silent, free.taken, left.run _ free.run⟩

/-- Each job's turn takes the jobs of its name away. -/
theorem jobs_endsFold : ∀ (l : List Job) (s : State), (∀ k ∈ s.jobs, Endable s k) → (∀ k ∈ s.jobs, ∃ j ∈ l, j.ref = k.ref) →
    (l.foldl endsOne s).jobs = []
  | [], s, _, named => List.eq_nil_iff_forall_not_mem.mpr fun k hk => by
    obtain ⟨j, hj, -⟩ := named k hk
    cases hj
  | j :: l, s, free, named => by
    obtain ⟨left, gone⟩ := sheds_endsOne free j
    refine jobs_endsFold l _ (fun k hk => (free k (left.jobs k hk)).of_sheds left) fun k hk => ?_
    obtain ⟨x, hx, same⟩ := named k (left.jobs k hk)
    rcases List.mem_cons.mp hx with rfl | hx
    · exact absurd same.symm (gone k hk)
    · exact ⟨x, hx, same⟩

theorem jobs_endAll {s : State} (free : ∀ k ∈ s.jobs, Endable s k) : (endAll s).jobs = [] := by
  rw [endAll_eq]
  exact jobs_endsFold _ _ free fun k hk => ⟨k, hk, rfl⟩

theorem winds_endAll (s : State) : Winds s (endAll s) := by
  rw [endAll_eq]
  refine .foldl (fun s j => ?_) _ s
  unfold endsOne
  split
  · refine .trans ?_ (winds_endJob _ _ _ _)
    split
    · exact winds_abandonAdmin _ _
    · exact .refl s
  · exact .refl s

/-- One job's turn among those whose claims a device fault releases. -/
def releasesOne (s : State) (j : Job) : State :=
  if (j.claim || j.silent) && decide ((s.fn j.ref.fn).run ≠ .resetting) then
    bump 0x12 (modJob j.ref (fun k =>
      { k with claim := false, stop := none, silent := false, outcome := if j.silent then none else k.outcome }) s)
  else s

theorem releaseClaims_eq (s : State) : releaseClaims s = s.jobs.foldl releasesOne s := rfl

theorem winds_releaseClaims (s : State) : Winds s (releaseClaims s) := by
  rw [releaseClaims_eq]
  refine .foldl (fun s j => ?_) _ s
  unfold releasesOne
  split
  · exact (winds_modJob _ _ _).trans (winds_bump _ _)
  · exact .refl s

/-- A job in service that has no end yet: no claim is held, or its own turn to be released is in `l`. -/
structure Releasable (l : List Job) (s : State) (k : Job) : Prop where
  taken : k.taken = false
  run : (s.fn k.ref.fn).run ≠ .resetting
  claims : (k.claim = false ∧ k.silent = false) ∨ ∃ j ∈ l, j.ref = k.ref ∧ (j.claim || j.silent) = true

theorem releasable_next {j : Job} {l : List Job} {s : State} (all : ∀ k ∈ s.jobs, Releasable (j :: l) s k)
    (serving : (s.fn j.ref.fn).run ≠ .resetting) : ∀ k ∈ (releasesOne s j).jobs, Releasable l (releasesOne s j) k := by
  unfold releasesOne
  by_cases claims : (j.claim || j.silent) = true
  · rw [if_pos (by rw [claims, decide_eq_true serving]; rfl)]
    intro k hk
    obtain ⟨x, hx, rfl⟩ := List.mem_map.mp hk
    obtain ⟨taken, run, held⟩ := all x hx
    by_cases same : x.ref = j.ref
    · rw [if_pos same]
      refine ⟨?_, run, .inl ⟨rfl, rfl⟩⟩
      unfold Job.taken at taken ⊢
      simp only [Bool.or_eq_false_iff, Bool.and_eq_false_iff] at taken ⊢
      refine ⟨taken.1, ?_⟩
      cases j.silent with
      | true => exact .inl rfl
      | false => exact taken.2.imp id fun h => ⟨trivial, h.2⟩
    · rw [if_neg same]
      refine ⟨taken, run, held.imp id fun h => ?_⟩
      obtain ⟨y, hy, of, yes⟩ := h
      rcases List.mem_cons.mp hy with rfl | hy
      · exact absurd of.symm same
      · exact ⟨y, hy, of, yes⟩
  · rw [if_neg (by simp [claims])]
    intro k hk
    obtain ⟨taken, run, held⟩ := all k hk
    refine ⟨taken, run, held.imp id fun h => ?_⟩
    obtain ⟨y, hy, same, yes⟩ := h
    rcases List.mem_cons.mp hy with rfl | hy
    · exact absurd yes claims
    · exact ⟨y, hy, same, yes⟩

theorem fns_releasesOne (s : State) (j : Job) : (releasesOne s j).fns = s.fns := by
  unfold releasesOne
  split <;> rfl

theorem endable_releaseFold : ∀ (l : List Job) (s : State), (∀ k ∈ s.jobs, Releasable l s k) →
    (∀ j ∈ l, (s.fn j.ref.fn).run ≠ .resetting) → ∀ k ∈ (l.foldl releasesOne s).jobs, Endable (l.foldl releasesOne s) k
  | [], s, all, _ => fun k hk => by
    obtain ⟨taken, run, claims⟩ := all k hk
    rcases claims with ⟨claim, silent⟩ | ⟨j, hj, -⟩
    · exact ⟨claim, silent, taken, run⟩
    · cases hj
  | j :: l, s, all, serving =>
    endable_releaseFold l _ (releasable_next all (serving j (.head l))) fun x hx => by
      rw [State.fn, fns_releasesOne]
      exact serving x (.tail j hx)

theorem endable_releaseClaims {s : State} (live : ∀ j ∈ s.jobs, j.taken = false ∧ (s.fn j.ref.fn).run ≠ .resetting) :
    ∀ k ∈ (releaseClaims s).jobs, Endable (releaseClaims s) k := by
  rw [releaseClaims_eq]
  refine endable_releaseFold _ _ (fun k hk => ⟨(live k hk).1, (live k hk).2, ?_⟩) fun j hj => (live j hj).2
  by_cases held : (k.claim || k.silent) = true
  · exact .inr ⟨k, hk, rfl, held⟩
  · rw [Bool.not_eq_true, Bool.or_eq_false_iff] at held
    exact .inl held

/-! ## The device fault (R427) -/

/-- The state in which a device fault ends the jobs. -/
def faulted (seq : Nat) (s : State) : State :=
  let s1 := record 0x0805 4 seq (b2n (holdsFault s)) (faultEnds (releaseClaims s)).length (s := bump 0x1F (releaseClaims s))
  persist 0 { s1 with
    red := { s1.red with lastFault := s.now }
    regs := { s1.regs with fetchEn := false, dispatchEn := false }
    boot := { s1.boot with
      escalated := none, devFault := true, dueAt := if holdsFault s then none else some (s1.boot.dueAt.getD s.now) } }

theorem deviceFault_eq (seq : Nat) (s : State) : deviceFault seq s = eraseLanes (endAll (faulted seq s)) := rfl

theorem endable_faulted {seq : Nat} {s : State} (live : ∀ j ∈ s.jobs, j.taken = false ∧ (s.fn j.ref.fn).run ≠ .resetting) :
    ∀ k ∈ (faulted seq s).jobs, Endable (faulted seq s) k := by
  have calm : Quiet (releaseClaims s) (record 0x0805 4 seq (b2n (holdsFault s)) (faultEnds (releaseClaims s)).length
      (s := bump 0x1F (releaseClaims s))) := (quiet_bump _ _).trans (quiet_record _ _ _ _ _ _ _ _)
  have left : Sheds (releaseClaims s) (faulted seq s) := .trans (.of_quiet calm) .of_jobs
  exact fun k hk => (endable_releaseClaims live k (left.jobs k hk)).of_sheds left

theorem deviceFault_ends {s : State} {seq : Nat} (due : s.boot.escalated = some seq) (on : s.mainOn = true) :
    Answers (.deviceFault seq) s fun t => t.boot.devFault = true ∧ t.regs.fetchEn = false ∧ t.regs.dispatchEn = false ∧
      t.red.lastFault = s.now ∧ t.boot.dueAt = (if holdsFault s then none else some (s.boot.dueAt.getD s.now)) ∧
      t.life = s.life ∧ t.boot.phase = s.boot.phase ∧
      (∀ j ∈ t.jobs, j.keyA = {} ∧ j.keyB = {} ∧ j.draws = [] ∧ j.result = none) ∧
      ((∀ j ∈ s.jobs, j.taken = false ∧ (s.fn j.ref.fn).run ≠ .resetting) → t.jobs = []) := by
  have step : exec (.deviceFault seq) s = settled s (eraseLanes (endAll (faulted seq s))) := by
    show execDeviceFault seq s = _
    unfold execDeviceFault whileRunning State.runs
    rw [if_pos due, if_pos on, deviceFault_eq]
  have before : Winds s (record 0x0805 4 seq (b2n (holdsFault s)) (faultEnds (releaseClaims s)).length
      (s := bump 0x1F (releaseClaims s))) :=
    (winds_releaseClaims s).trans ((winds_bump _ _).trans (.of_quiet (quiet_record _ _ _ _ _ _ _ _)))
  have ended := winds_endAll (faulted seq s)
  have calm := quiet_settle s (eraseLanes (endAll (faulted seq s)))
  have after' : Winds (faulted seq s) (settle s (eraseLanes (endAll (faulted seq s)))) :=
    ended.trans (.trans .of_fields (.of_quiet calm))
  refine ⟨_, step, (congrArg (fun x : State => x.boot.devFault) after'.rest :), (congrArg (fun x : State => x.regs.fetchEn) after'.rest :),
    (congrArg (fun x : State => x.regs.dispatchEn) after'.rest :), (congrArg (fun x : State => x.red.lastFault) after'.rest :), ?_,
    after'.life.trans before.life, ?_, fun j hj => ?_, fun live => ?_⟩
  · refine (congrArg (fun x : State => x.boot.dueAt) after'.rest :).trans ?_
    exact congrArg (fun d : Option Nat => if holdsFault s then none else some (d.getD s.now))
      (congrArg (fun x : State => x.boot.dueAt) before.rest :)
  · exact (congrArg (fun x : State => x.boot.phase) after'.rest :).trans (congrArg (fun x : State => x.boot.phase) before.rest :)
  · rw [calm.jobs] at hj
    obtain ⟨k, -, rfl⟩ := List.mem_map.mp hj
    exact ⟨rfl, rfl, rfl, rfl⟩
  · rw [calm.jobs]
    show (endAll (faulted seq s)).jobs.map _ = []
    rw [jobs_endAll (endable_faulted live)]
    rfl

/-! ## A reset of the device (R452) -/

/-- `t` differs from `s` at most in host memory, dirty-page logs and the free values drawn. -/
structure Traced (s t : State) : Prop where
  rest : { t with fns := [], mem := [], free := 0 } = { s with fns := [], mem := [], free := 0 }
  fn (f : Nat) : withoutLog (t.fn f) = withoutLog (s.fn f)

theorem Traced.trans {s t u : State} (a : Traced s t) (b : Traced t u) : Traced s u :=
  ⟨b.rest.trans a.rest, fun f => (b.fn f).trans (a.fn f)⟩

theorem Traced.refl (s : State) : Traced s s := ⟨rfl, fun _ => rfl⟩

theorem traced_write (f a : Nat) (b : Bytes) (s : State) : Traced s (drewFree (hostWrite f a b s)) := by
  obtain ⟨rest, fns⟩ := written_hostWrite f a b s
  exact ⟨(congrArg (fun x : State => { x with free := 0 }) rest :), fns⟩

theorem traced_leaveTrace (j : Job) (s : State) : Traced s (leaveTrace j s).2 := by
  unfold leaveTrace
  split
  · split
    · dsimp only
      split
      · exact .refl s
      · exact traced_write _ _ _ _
    · exact .refl s
  · show Traced s (disturb j s)
    unfold disturb
    split
    · generalize attemptWrites j s = l
      induction l generalizing s with
      | nil => exact .refl s
      | cons w l ih => exact (traced_write _ _ _ _).trans (ih _)
    · exact .refl s

theorem traced_leaveTraces (s : State) : Traced s (leaveTraces s) := by
  unfold leaveTraces
  have each : ∀ (l : List Job) (u : State), Traced u (l.foldl (fun s j =>
      if j.committed && j.outcome.isNone && decide (j.ref.jq ≠ 0) then (leaveTrace j s).2 else s) u) := by
    intro l
    induction l with
    | nil => exact fun u => .refl u
    | cons j l ih =>
      intro u
      refine .trans ?_ (ih _)
      beta_reduce
      split
      · exact traced_leaveTrace j u
      · exact .refl u
  exact each _ s

theorem leaveTraces_of_empty {s : State} (h : s.jobs = []) : leaveTraces s = s := by
  unfold leaveTraces
  rw [h]
  rfl

/-! ## The device fault's action (R428) -/

theorem deviceFaultAction_resets {s : State} {t0 : Nat} (fault : s.boot.devFault = true) (due : s.boot.dueAt = some t0) :
    if elapsedUs s.now t0 1000 = true then Answers .deviceFaultAction s fun t => t.boot.phase = .stage 1 ∧
      t.boot.faultReset = some s.now ∧ t.boot.devFault = false ∧ t.jobs = [] ∧ t.evr = s.evr ∧ t.clock.meridian = s.clock.meridian ∧
      t.life = { s.life with rootMain := [] } ∧ t.vesper = { s.vesper with refRead := false, adjust := 0 } ∧
      t.worlds.stored = s.worlds.stored ∧ (s.jobs = [] → t.mem = s.mem)
    else Answers .deviceFaultAction s (· = s) := by
  have step : exec .deviceFaultAction s = if elapsedUs s.now t0 1000 then .next (warmReset true s) else .next s := by
    show execDeviceFaultAction s = _
    unfold execDeviceFaultAction
    rw [if_pos fault, due]
  split
  · next late =>
    rw [if_pos late] at step
    have rest := (traced_leaveTraces s).rest
    refine ⟨_, step, rfl, rfl, rfl, rfl, (congrArg State.evr rest :), (congrArg (fun x : State => x.clock.meridian) rest :), ?_, ?_,
      (congrArg (fun x : State => x.worlds.stored) rest :), fun empty => ?_⟩
    · exact congrArg (fun l : Life => { l with rootMain := [] }) (congrArg State.life rest :)
    · exact congrArg (fun v : Vesper => { v with refRead := false, adjust := 0 }) (congrArg State.vesper rest :)
    · show (leaveTraces s).mem = s.mem
      rw [leaveTraces_of_empty empty]
  · next early =>
    rw [if_neg early] at step
    exact ⟨s, step, rfl⟩

theorem deviceFaultAction_holds {s : State} (fault : s.boot.devFault = true) (held : s.boot.dueAt = none)
    (phase : s.boot.phase = .open_ ∨ ∃ n, s.boot.phase = .stage n) :
    Answers .deviceFaultAction s (Quiet { s with boot := { s.boot with
      phase := if s.boot.stage3 then .devHold else .unbooted, stuck := s.boot.stuck || !s.boot.stage3 } }) := by
  have step : exec .deviceFaultAction s = settled s { s with boot := { s.boot with
      phase := if s.boot.stage3 then .devHold else .unbooted, stuck := s.boot.stuck || !s.boot.stage3 } } := by
    show execDeviceFaultAction s = _
    unfold execDeviceFaultAction
    rw [if_pos fault, held]
    rcases phase with is | ⟨n, is⟩ <;> rw [is]
  exact answers_settled step (.refl _)

theorem deviceFaultAction_waits {s : State} (none' : s.boot.devFault = false ∨
    (s.boot.dueAt = none ∧ s.boot.phase ≠ .open_ ∧ ∀ n, s.boot.phase ≠ .stage n)) : Answers .deviceFaultAction s (· = s) := by
  refine ⟨s, ?_, rfl⟩
  show execDeviceFaultAction s = _
  unfold execDeviceFaultAction
  rcases none' with off | ⟨held, notOpen, notStage⟩
  · rw [if_neg (by rw [off]; decide)]
  · split
    · rw [held]
      dsimp only
      split
      · next is => exact absurd is notOpen
      · next n is => exact absurd is (notStage n)
      · rfl
    · rfl

/-! ## The secure watchdog (R373, R374) -/

/-- The watchdog has run out once more, and CU_ERR says so. -/
def dogRanOut (s : State) : State :=
  setErr Block.cu 5 { s with worlds := { s.worlds with wdogs := satAdd s.worlds.wdogs 0xFFFFFFFF } }

theorem quiet_dogRanOut (s : State) : Quiet { s with worlds := { s.worlds with wdogs := satAdd s.worlds.wdogs 0xFFFFFFFF } } (dogRanOut s) :=
  quiet_setErr _ _ _

theorem exec_watchdog {s : State} (on : s.mainOn = true) (out : wdogExpired s = true) (sound : s.boot.devFault = false) :
    exec .watchdog s = match s.boot.phase with
      | .stage _ => settled s (escalate (record 0x0807 3 s.ahnomHang (s := { dogRanOut s with
          worlds := { (dogRanOut s).worlds with kickAt := s.now } })))
      | _ => if s.ahnomHang = 0 then .next (warmReset false (record 0x0807 3 0 (s := dogRanOut s))) else settled s (haltSecure (dogRanOut s)) := by
  show execWatchdog s = _
  unfold execWatchdog State.runs
  rw [if_pos (by rw [on, out, sound]; rfl)]
  rfl

/-- What halting the secure world leaves alone. -/
structure Halts (s t : State) : Prop where
  winds : Winds s t
  mem : t.mem = s.mem
  cer : t.custody.cer = s.custody.cer
  sessions : t.mgmt.sessions = s.mgmt.sessions

theorem halts_one {j : Job} {s : State} (d : Done) (cer : s.custody.cer = none) : Halts s (decideJob j.ref d (abandonAdmin j s)) := by
  have open' : abandonCeremony j.ref s = s := by
    unfold abandonCeremony
    rw [cer]
  have left : Halts s (abandonAdmin j s) := by
    refine ⟨winds_abandonAdmin j s, ?_, ?_, ?_⟩ <;>
    · unfold abandonAdmin
      rw [open']
      split_ifs <;> rfl
  exact ⟨left.winds.trans (winds_modJob _ _ _), left.mem, left.cer, left.sessions⟩

theorem halts_fold : ∀ (l : List Job) (s : State), s.custody.cer = none → Halts s (l.foldl (fun s j =>
    decideJob j.ref { status := Status.unavailable, detail := 0x09 } (abandonAdmin j s)) s)
  | [], s, _ => ⟨.refl s, rfl, rfl, rfl⟩
  | j :: l, s, cer => by
    have one := halts_one (j := j) { status := Status.unavailable, detail := 0x09 } cer
    have rest := halts_fold l _ (one.cer.trans cer)
    exact ⟨one.winds.trans rest.winds, rest.mem.trans one.mem, rest.cer.trans one.cer, rest.sessions.trans one.sessions⟩

theorem haltSecure_leaves (s : State) : (haltSecure s).worlds.halted = true ∧ (haltSecure s).worlds.wdogs = s.worlds.wdogs ∧
    (haltSecure s).custody.cer = none ∧ (haltSecure s).mgmt.sessions = [] ∧ (haltSecure s).boot.phase = s.boot.phase ∧
    (haltSecure s).life = s.life ∧ (haltSecure s).mem = s.mem ∧
    (s.jobs = [] → (haltSecure s).jobs = [] ∧ (haltSecure s).store = s.store) := by
  obtain ⟨u, hu⟩ : ∃ u, u = { s with
    custody := { s.custody with cer := none }, mgmt := { s.mgmt with sessions := [], parts := [], relay := [] } } := ⟨_, rfl⟩
  have ended := halts_fold (u.jobs.filter haltStops) u (by rw [hu])
  have is : haltSecure s = { (u.jobs.filter haltStops).foldl (fun s j =>
      decideJob j.ref { status := Status.unavailable, detail := 0x09 } (abandonAdmin j s)) u with
    worlds := { ((u.jobs.filter haltStops).foldl (fun s j =>
      decideJob j.ref { status := Status.unavailable, detail := 0x09 } (abandonAdmin j s)) u).worlds with halted := true } } := by
    rw [hu]
    rfl
  rw [is]
  refine ⟨rfl, ?_, ?_, ?_, ?_, ?_, ?_, fun empty => ?_⟩
  · refine (congrArg (fun x : State => x.worlds.wdogs) ended.winds.rest :).trans ?_
    rw [hu]
    rfl
  · exact ended.cer.trans (by rw [hu])
  · exact ended.sessions.trans (by rw [hu])
  · refine (congrArg (fun x : State => x.boot.phase) ended.winds.rest :).trans ?_
    rw [hu]
    rfl
  · exact ended.winds.life.trans (by rw [hu])
  · exact ended.mem.trans (by rw [hu])
  · have none' : u.jobs.filter haltStops = [] := by
      rw [hu]
      show s.jobs.filter haltStops = []
      rw [empty]
      rfl
    rw [none']
    exact ⟨by rw [hu]; exact empty, by rw [hu]; rfl⟩

theorem watchdog_runsOut {s : State} (on : s.mainOn = true) (out : wdogExpired s = true) (sound : s.boot.devFault = false) :
    Answers .watchdog s fun t => t.worlds.wdogs = satAdd s.worlds.wdogs 0xFFFFFFFF ∧
      match s.boot.phase with
      | .stage _ =>
        Quiet { s with worlds := { s.worlds with wdogs := satAdd s.worlds.wdogs 0xFFFFFFFF, kickAt := s.now } } t ∧
          t.boot.escalated.isSome = true
      | _ => if s.ahnomHang = 0 then t.boot.phase = .stage 1 ∧ t.boot.faultReset = s.boot.faultReset ∧ t.jobs = [] ∧
        t.life = { s.life with rootMain := [] } ∧ t.vesper = { s.vesper with refRead := false, adjust := 0 } ∧
        (s.jobs = [] → t.mem = s.mem)
      else t.worlds.halted = true ∧ t.custody.cer = none ∧ t.mgmt.sessions = [] ∧ t.boot.phase = s.boot.phase ∧
        t.life = s.life ∧ t.mem = s.mem ∧ (s.jobs = [] → t.jobs = [] ∧ t.store = s.store) := by
  have ran := quiet_dogRanOut s
  have step := exec_watchdog on out sound
  have during (n : Nat) (phase : s.boot.phase = .stage n) : Answers .watchdog s fun t =>
      t.worlds.wdogs = satAdd s.worlds.wdogs 0xFFFFFFFF ∧
      Quiet { s with worlds := { s.worlds with wdogs := satAdd s.worlds.wdogs 0xFFFFFFFF, kickAt := s.now } } t ∧
          t.boot.escalated.isSome = true := by
    rw [phase] at step
    have kicked : Quiet { s with worlds := { s.worlds with wdogs := satAdd s.worlds.wdogs 0xFFFFFFFF, kickAt := s.now } }
        { dogRanOut s with worlds := { (dogRanOut s).worlds with kickAt := s.now } } :=
      ⟨(congrArg (fun x : State => { x with worlds := { x.worlds with kickAt := s.now } }) ran.1 :), ran.2⟩
    have calm := kicked.trans ((quiet_record 0x0807 3 s.ahnomHang 0 0 0 false _).trans ((quiet_escalate _).trans (quiet_settle s _)))
    exact ⟨_, step, congrArg Worlds.wdogs calm.worlds, calm, by rw [boot_settle]; rfl⟩
  have later (notStage : ∀ n, s.boot.phase ≠ .stage n) : Answers .watchdog s fun t =>
      t.worlds.wdogs = satAdd s.worlds.wdogs 0xFFFFFFFF ∧
      if s.ahnomHang = 0 then t.boot.phase = .stage 1 ∧ t.boot.faultReset = s.boot.faultReset ∧ t.jobs = [] ∧
        t.life = { s.life with rootMain := [] } ∧ t.vesper = { s.vesper with refRead := false, adjust := 0 } ∧
        (s.jobs = [] → t.mem = s.mem)
      else t.worlds.halted = true ∧ t.custody.cer = none ∧ t.mgmt.sessions = [] ∧ t.boot.phase = s.boot.phase ∧
        t.life = s.life ∧ t.mem = s.mem ∧ (s.jobs = [] → t.jobs = [] ∧ t.store = s.store) := by
    have step' : exec .watchdog s = if s.ahnomHang = 0 then .next (warmReset false (record 0x0807 3 0 (s := dogRanOut s)))
        else settled s (haltSecure (dogRanOut s)) := by
      rw [step]
      split
      · next n is => exact absurd is (notStage n)
      · rfl
    split
    · next hang =>
      rw [if_pos hang] at step'
      have calm := ran.trans (quiet_record 0x0807 3 0 0 0 0 false (dogRanOut s))
      have rest := (traced_leaveTraces (record 0x0807 3 0 (s := dogRanOut s))).rest
      refine ⟨_, step', ?_, rfl, ?_, rfl, ?_, ?_, fun empty => ?_⟩
      · exact (congrArg (fun x : State => x.worlds.wdogs) rest :).trans (congrArg Worlds.wdogs calm.worlds)
      · exact (congrArg (fun x : State => x.boot.faultReset) rest :).trans (congrArg (fun x : State => x.boot.faultReset) calm.1 :)
      · exact congrArg (fun l : Life => { l with rootMain := [] }) ((congrArg State.life rest :).trans calm.life)
      · exact congrArg (fun v : Vesper => { v with refRead := false, adjust := 0 }) ((congrArg State.vesper rest :).trans calm.vesper)
      · show (leaveTraces (record 0x0807 3 0 (s := dogRanOut s))).mem = s.mem
        rw [leaveTraces_of_empty (calm.jobs.trans empty), calm.mem]
    · next hang =>
      rw [if_neg hang] at step'
      obtain ⟨halted, wdogs, cer, sessions, phase, life, mem, work⟩ := haltSecure_leaves (dogRanOut s)
      have calm := quiet_settle s (haltSecure (dogRanOut s))
      refine ⟨_, step', (congrArg Worlds.wdogs calm.worlds).trans (wdogs.trans (congrArg Worlds.wdogs ran.worlds)),
        (congrArg Worlds.halted calm.worlds).trans halted, (congrArg Custody.cer calm.custody).trans cer,
        (congrArg Mgmt.sessions calm.mgmt).trans sessions, calm.phase.trans (phase.trans ran.phase),
        calm.life.trans (life.trans ran.life), calm.mem.trans (mem.trans ran.mem), fun empty => ?_⟩
      obtain ⟨jobs, store⟩ := work (ran.jobs.trans empty)
      exact ⟨calm.jobs.trans jobs, calm.store.trans (store.trans ran.store)⟩
  cases phase : s.boot.phase with
  | stage n => exact during n phase
  | _ =>
    rw [phase] at later
    exact later fun n => nofun

/-! ## The event recorder (R436 to R439) -/

theorem length_eventBytes (seq : Nat) (e : EventRec) : (eventBytes seq e).length = 32 := by
  unfold eventBytes
  simp only [List.length_append, length_ofLE]

theorem eventRecord_written {s : State} {e : EventRec} {l : List EventRec} (queue : s.evr.queue = e :: l) (on : s.mainOn = true) :
    Answers .eventRecordWrite s fun t => Quiet { s with evr := t.evr } t ∧
      t.evr = { s.evr with
        queue := l, head := (s.evr.head + 1) % 2 ^ 32, ring := s.evr.ring.set (s.evr.head % 65536) (eventBytes s.evr.head e) } ∧
      t.evr.ring.find? (s.evr.head % 65536) = some (eventBytes s.evr.head e) ∧ (eventBytes s.evr.head e).length = 32 ∧
      (overrunsCursor s = true → s.regs.err.length = 12 → ErrShown Block.ev 4 t) := by
  obtain ⟨u, hu⟩ : ∃ u, u = if overrunsCursor s then setErr Block.ev 4 (bump 0x19 s) else s := ⟨_, rfl⟩
  have step : exec .eventRecordWrite s = .next { u with evr := { u.evr with
      queue := l, head := (s.evr.head + 1) % 2 ^ 32, ring := u.evr.ring.set (s.evr.head % 65536) (eventBytes s.evr.head e) } } := by
    show execEventRecordWrite s = _
    unfold execEventRecordWrite State.runs
    rw [queue]
    dsimp only
    rw [if_pos on, hu]
  have calm : Quiet s u := by
    rw [hu]
    split
    · exact (quiet_bump _ _).trans (quiet_setErr _ _ _)
    · exact .refl s
  have evr : u.evr = s.evr := by
    rw [hu]
    split
    · exact evr_setErr _ _ _
    · rfl
  rw [evr] at step
  refine ⟨_, step, ⟨(congrArg (fun x : State => { x with evr := { s.evr with
      queue := [], window := 0, counts := [], suppressed := [], head := (s.evr.head + 1) % 2 ^ 32
      ring := s.evr.ring.set (s.evr.head % 65536) (eventBytes s.evr.head e) } }) calm.1 :), calm.2⟩, rfl, FMap.find?_set_self _ _ _,
    length_eventBytes _ _, fun overrun len => ?_⟩
  show ErrShown Block.ev 4 u
  rw [hu, if_pos overrun]
  exact shown_setErr (by show Block.ev < s.regs.err.length; rw [len]; decide) (by decide)

/-- Settles O58: each command's effect where its condition holds, and none where it does not. -/
theorem deviceFaultsAndRecords : Obligations.DeviceFaultsAndRecords := by
  unfold Obligations.DeviceFaultsAndRecords
  refine ⟨fun s seq due on => deviceFault_ends due on, fun s seq other => ⟨s, if_neg other, rfl⟩,
    fun s t0 fault due => deviceFaultAction_resets fault due, fun s fault held phase => deviceFaultAction_holds fault held phase,
    fun s none' => deviceFaultAction_waits none', fun s on out sound => watchdog_runsOut on out sound, fun s off => ⟨s, ?_, rfl⟩,
    fun s e l queue on => eventRecord_written queue on, fun s off => ⟨s, ?_, rfl⟩, fun s running changed => ?_, fun s off => ⟨s, ?_, rfl⟩⟩
  · show execWatchdog s = _
    unfold execWatchdog State.runs
    rw [if_neg]
    rcases off with h | h | h <;> simp [h]
  · show execEventRecordWrite s = _
    unfold execEventRecordWrite State.runs
    rcases off with h | h
    · rw [h]
    · rw [h]
      split <;> rfl
  · refine ⟨rollWindow s, ?_, ?_⟩
    · show execRateWindowEnd s = _
      unfold execRateWindowEnd
      rw [if_pos running]
    · unfold rollWindow
      rw [if_neg changed]
  · show execRateWindowEnd s = _
    unfold execRateWindowEnd rollWindow
    rcases off with h | h
    · rw [if_neg (by rw [h]; decide)]
    · rw [if_pos h, ite_self]

end Sys2Proof.Safety
end

section
/-!
PROOFS. O59 does not hold: stage 6 loads every LOADING entry of the slot table, and a state may list a reserved slot twice.
-/

-- In turn: a proof that waits for others beside it takes a thread and its stack from the memory that the check allows.
set_option Elab.async false

namespace Sys2Proof.Safety

open Sys2Proof.Machine

/-- A device in stage 6 of its start-up, in OPERATIONAL with its domain key in slot 0, whose table lists slot 2 twice, the second
time as LOADING. -/
def slotListedTwice : State :=
  { boot := { phase := .stage 6 }
    life := { lc := .operational }
    store := { slots := [(0, { st := .loaded }), (2, { st := .loaded }), (2, { st := .loading })] }
    fab := { gens := List.replicate 12 { key := [1] } } }

/-- Refutes O59: the unwrap named as failed is slot 2's, and its second entry has it reloaded, which leaves slot 2 BAD. -/
theorem not_resetsAndStartUp : ¬ Obligations.ResetsAndStartUp := by
  unfold Obligations.ResetsAndStartUp
  intro h
  obtain ⟨-, -, -, -, -, -, -, -, -, -, -, -, -, -, -, -, loads, -⟩ := h
  obtain ⟨t, step, -, -, -, -, loaded, -⟩ := loads slotListedTwice [2] (by decide +kernel) (by decide +kernel) (by decide +kernel)
  have bad : ((after (.slotsLoaded [2]) slotListedTwice).slot 2).st = .bad := by decide +kernel
  rw [after_eq step, loaded] at bad
  cases bad

end Sys2Proof.Safety
end

section
/-!
PROOFS. The re-mask sweep and the reload of a slot (R196, R198, R215).
-/

-- In turn: a proof that waits for others beside it takes a thread and its stack from the memory that the check allows.
set_option Elab.async false

namespace Sys2Proof.Safety

open Sys2Proof.Machine

/-- Of what slots, jobs, memory and the life cycle hold, `t` differs from `s` in slot `n` alone. -/
structure OnlySlot (n : Nat) (s t : State) : Prop where
  others (m : Nat) : m ≠ n → t.slot m = s.slot m
  jobs : t.jobs = s.jobs
  mem : t.mem = s.mem
  life : t.life = s.life

theorem OnlySlot.refl (n : Nat) (s : State) : OnlySlot n s s := ⟨fun _ _ => rfl, rfl, rfl, rfl⟩

theorem OnlySlot.trans {n : Nat} {s t u : State} (a : OnlySlot n s t) (b : OnlySlot n t u) : OnlySlot n s u :=
  ⟨fun m h => (b.others m h).trans (a.others m h), b.jobs.trans a.jobs, b.mem.trans a.mem, b.life.trans a.life⟩

theorem OnlySlot.of_quiet {n : Nat} {s t : State} (q : Quiet s t) : OnlySlot n s t :=
  ⟨fun m _ => slot_of_quiet q m, q.jobs, q.mem, q.life⟩

theorem slot_of_masks {s t : State} (h : Masks s t) (n : Nat) : t.slot n = s.slot n := (congrArg (fun x : State => x.slot n) h :)

theorem OnlySlot.of_masks {n : Nat} {s t : State} (h : Masks s t) : OnlySlot n s t :=
  ⟨fun m _ => slot_of_masks h m, (congrArg State.jobs h :), (congrArg State.mem h :), (congrArg State.life h :)⟩

theorem onlySlot_modSlot (n : Nat) (h : Slot → Slot) (s : State) : OnlySlot n s (modSlot n h s) :=
  ⟨fun _ ne => slot_modSlot_ne s h ne, rfl, rfl, rfl⟩

/-! ## The sweep (R196) -/

/-- Under fresh masks a slot's two copies have their clear values and their attributes. -/
theorem remaskSlot_leaves (n : Nat) (s : State) :
    OnlySlot n s (remaskSlot n s) ∧ (remaskSlot n s).store.sweep = s.store.sweep ∧
      ((remaskSlot n s).slot n).st = (s.slot n).st ∧ ((remaskSlot n s).slot n).a.key.clear = (s.slot n).a.key.clear ∧
      ((remaskSlot n s).slot n).b.key.clear = (s.slot n).b.key.clear ∧ ((remaskSlot n s).slot n).a.count = (s.slot n).a.count ∧
      ((remaskSlot n s).slot n).a.attr = (s.slot n).a.attr := by
  have drawn (a b : SlotCopy) (t : State) : Masks t (remaskCopy 11 b (remaskCopy 10 a t).2).2 :=
    (masks_remask 10 a.key t).trans (masks_remask 11 b.key _)
  obtain ⟨u, hu⟩ : ∃ u, u = modSlot n (fun x => { x with
      a := (remaskCopy 10 (s.slot n).a s).1, b := (remaskCopy 11 (s.slot n).b (remaskCopy 10 (s.slot n).a s).2).1 })
      (remaskCopy 11 (s.slot n).b (remaskCopy 10 (s.slot n).a s).2).2 := ⟨_, rfl⟩
  have first := drawn (s.slot n).a (s.slot n).b s
  have placed : OnlySlot n s u := by
    rw [hu]
    exact (OnlySlot.of_masks first).trans (onlySlot_modSlot _ _ _)
  have here : u.slot n = { s.slot n with
      a := (remaskCopy 10 (s.slot n).a s).1, b := (remaskCopy 11 (s.slot n).b (remaskCopy 10 (s.slot n).a s).2).1 } := by
    rw [hu, slot_modSlot_self, slot_of_masks first]
  have sweep : u.store.sweep = s.store.sweep := by
    rw [hu]
    exact (congrArg (fun x : State => x.store.sweep) first :)
  have is : remaskSlot n s = match (s.slot n).retiring with
      | none => u
      | some r => modSlot n (fun x => { x with retiring := some { r with
          a := (remaskCopy 10 r.a u).1, b := (remaskCopy 11 r.b (remaskCopy 10 r.a u).2).1 } })
          (remaskCopy 11 r.b (remaskCopy 10 r.a u).2).2 := by
    rw [hu]
    rfl
  have values : (u.slot n).st = (s.slot n).st ∧ (u.slot n).a.key.clear = (s.slot n).a.key.clear ∧
      (u.slot n).b.key.clear = (s.slot n).b.key.clear ∧ (u.slot n).a.count = (s.slot n).a.count ∧
      (u.slot n).a.attr = (s.slot n).a.attr := by
    rw [here]
    exact ⟨rfl, clear_remask _ _ _, clear_remask _ _ _, rfl, rfl⟩
  rw [is]
  split
  · exact ⟨placed, sweep, values⟩
  · next r _ =>
    have second := drawn r.a r.b u
    refine ⟨placed.trans ((OnlySlot.of_masks second).trans (onlySlot_modSlot _ _ _)),
      (congrArg (fun x : State => x.store.sweep) second :).trans sweep, ?_⟩
    rw [slot_modSlot_self, slot_of_masks second]
    exact values

theorem sweepOn_next {s : State} (h : s.store.sweep < 65535) :
    sweepOn s = { s with store := { s.store with sweep := s.store.sweep + 1 } } := by
  unfold sweepOn
  dsimp only
  rw [if_neg (by omega), Nat.mod_eq_of_lt (by omega)]

theorem exec_sweepVisit (s : State) : exec .remaskSweepVisit s =
    settled s (sweepOn (if (s.slot s.store.sweep).st = .loaded ∧ copiesAgree (s.slot s.store.sweep) = false then
      markBad s.store.sweep (if (s.slot s.store.sweep).st = .loaded ∨ (s.slot s.store.sweep).st = .bad ∨
        (s.slot s.store.sweep).st = .erasing then remaskSlot s.store.sweep s else s)
      else if (s.slot s.store.sweep).st = .loaded ∨ (s.slot s.store.sweep).st = .bad ∨
        (s.slot s.store.sweep).st = .erasing then remaskSlot s.store.sweep s else s)) := rfl

theorem sweepVisit_loaded {s : State} (loaded : (s.slot s.store.sweep).st = .loaded) (more : s.store.sweep < 65535) :
    Answers .remaskSweepVisit s fun t =>
      let n := s.store.sweep
      t.store.sweep = n + 1 ∧ (t.slot n).a.key.clear = (s.slot n).a.key.clear ∧
      (t.slot n).b.key.clear = (s.slot n).b.key.clear ∧ (t.slot n).a.count = (s.slot n).a.count ∧
      (t.slot n).a.attr = (s.slot n).a.attr ∧
      (t.slot n).st = (if copiesAgree (s.slot n) then .loaded else .bad) ∧ (∀ m, m ≠ n → t.slot m = s.slot m) ∧
      t.jobs = s.jobs ∧ t.mem = s.mem ∧ t.life = s.life := by
  have step := exec_sweepVisit s
  rw [if_pos (Or.inl loaded)] at step
  obtain ⟨only, sweep, st, keyA, keyB, count, attr⟩ := remaskSlot_leaves s.store.sweep s
  generalize remaskSlot s.store.sweep s = u at step only sweep st keyA keyB count attr
  obtain ⟨v, hv⟩ : ∃ v, v = if (s.slot s.store.sweep).st = .loaded ∧ copiesAgree (s.slot s.store.sweep) = false then
    markBad s.store.sweep u else u := ⟨_, rfl⟩
  rw [← hv] at step
  have marked : OnlySlot s.store.sweep u v ∧ v.store.sweep = s.store.sweep ∧
      v.slot s.store.sweep = { u.slot s.store.sweep with
        st := if copiesAgree (s.slot s.store.sweep) then .loaded else .bad, reloadDue := (v.slot s.store.sweep).reloadDue } := by
    rw [hv, loaded]
    cases copiesAgree (s.slot s.store.sweep) with
    | true =>
      rw [if_neg (by simp)]
      refine ⟨.refl _ u, sweep, ?_⟩
      rw [if_pos rfl, ← loaded, ← st]
    | false =>
      rw [if_pos ⟨rfl, rfl⟩]
      have calm := quiet_markBad s.store.sweep u
      refine ⟨(onlySlot_modSlot _ _ _).trans (.of_quiet calm), (congrArg Store.sweep calm.store).trans sweep, ?_⟩
      rw [slot_of_quiet calm, slot_modSlot_self]
      rfl
  obtain ⟨onlyV, sweepV, here⟩ := marked
  rw [sweepOn_next (by rw [sweepV]; exact more)] at step
  have calm := quiet_settle s { v with store := { v.store with sweep := v.store.sweep + 1 } }
  have same (m : Nat) : (settle s { v with store := { v.store with sweep := v.store.sweep + 1 } }).slot m = v.slot m := slot_of_quiet calm m
  have all := only.trans onlyV
  refine ⟨_, step, (congrArg Store.sweep calm.store).trans (congrArg (· + 1) sweepV), ?_, ?_, ?_, ?_, ?_,
    fun m ne => (same m).trans (all.others m ne), calm.jobs.trans all.jobs, calm.mem.trans all.mem, calm.life.trans all.life⟩
  · rw [same, here]
    exact keyA
  · rw [same, here]
    exact keyB
  · rw [same, here]
    exact count
  · rw [same, here]
    exact attr
  · rw [same, here]

/-! ## Reloads (R198, R215) -/

theorem domain_of_sideKey {s : State} {n : Nat} {dk key : Bytes} (h : sideKey n dk s = some key) : n < 64 ∨ s.domainKey.isSome = true := by
  unfold sideKey at h
  by_cases low : n < 64
  · exact .inl low
  · rw [if_neg (by omega), if_neg (by omega), if_neg (by omega)] at h
    refine .inr ?_
    cases is : s.domainKey with
    | none => rw [is, if_pos (by rfl)] at h; cases h
    | some _ => rfl

/-- Both sides make the same key: the slot is LOADED with it in both copies, under fresh masks. -/
theorem reloadSlot_loads {s : State} {n : Nat} {key : Bytes} (a : sideKey n s.domainKeys.1 s = some key)
    (b : sideKey n s.domainKeys.2 s = some key) :
    (reloadSlot n true true s).1 = true ∧ OnlySlot n s (reloadSlot n true true s).2 ∧
      ((reloadSlot n true true s).2.slot n).st = .loaded ∧ ((reloadSlot n true true s).2.slot n).a.key.clear = key ∧
      ((reloadSlot n true true s).2.slot n).b.key.clear = key ∧
      (64 ≤ n → ((reloadSlot n true true s).2.slot n).a.count = (s.slot n).point) ∧
      ((reloadSlot n true true s).2.slot n).reloadDue = false := by
  have drawn := masks_freshCopies (reloadedCopy n (s.slot n)) key key s
  have is : reloadSlot n true true s = (true, modSlot n (fun x => { x with
      st := .loaded, a := (freshCopies (reloadedCopy n (s.slot n)) key key s).1.1
      b := (freshCopies (reloadedCopy n (s.slot n)) key key s).1.2, reloadDue := false })
      (freshCopies (reloadedCopy n (s.slot n)) key key s).2) := by
    unfold reloadSlot
    rw [a, b]
    exact if_pos (by simp)
  rw [is]
  dsimp only
  refine ⟨rfl, (OnlySlot.of_masks drawn).trans (onlySlot_modSlot _ _ _), ?_⟩
  rw [slot_modSlot_self]
  refine ⟨rfl, clear_maskKey _ _ _, clear_maskKey _ _ _, fun high => ?_, rfl⟩
  show (reloadedCopy n (s.slot n)).count = _
  unfold reloadedCopy
  rw [if_neg (by omega)]

theorem reloadSlot_fails {s : State} {n : Nat} {okA okB : Bool} (h : (okA && okB) = false) : reloadSlot n okA okB s = (false, s) := by
  unfold reloadSlot
  dsimp only
  split
  · rw [h, Bool.false_and, if_neg (by decide)]
  · rfl

theorem onlySlot_endReload (n : Nat) (s : State) : OnlySlot n s (endReload s) ∧ (endReload s).slot n = s.slot n := by
  unfold endReload
  split
  · exact ⟨.refl n s, rfl⟩
  · exact ⟨⟨fun _ _ => rfl, rfl, rfl, rfl⟩, rfl⟩

theorem exec_slotReload {s : State} {n : Nat} (okA okB : Bool) (bad : (s.slot n).st = .bad) (due : (s.slot n).reloadDue = true)
    (free : slotHeld s n = false) (domain : n < 64 ∨ s.domainKey.isSome = true) :
    exec (.slotReload n okA okB) s = settled s (record 0x0303 1 n (if (reloadSlot n okA okB s).1 then 1 else 2)
      (s := if (reloadSlot n okA okB s).1 then (reloadSlot n okA okB s).2 else modSlot n (fun x => { x with reloadDue := false }) s)) :=
  if_pos ⟨bad, due, free, domain⟩

theorem slotReload_loads {s : State} {n : Nat} {key : Bytes} (bad : (s.slot n).st = .bad) (due : (s.slot n).reloadDue = true)
    (free : slotHeld s n = false) (a : sideKey n s.domainKeys.1 s = some key) (b : sideKey n s.domainKeys.2 s = some key) :
    Answers (.slotReload n true true) s fun t => (t.slot n).st = .loaded ∧ (t.slot n).a.key.clear = key ∧
      (t.slot n).b.key.clear = key ∧ (64 ≤ n → (t.slot n).a.count = (s.slot n).point) ∧ (t.slot n).reloadDue = false ∧
      (∀ m, m ≠ n → t.slot m = s.slot m) ∧ t.jobs = s.jobs ∧ t.mem = s.mem ∧ t.life = s.life := by
  have step := exec_slotReload true true bad due free (domain_of_sideKey a)
  obtain ⟨done, only, st, keyA, keyB, count, done'⟩ := reloadSlot_loads a b
  rw [done, if_pos rfl, if_pos rfl] at step
  have calm := (quiet_record 0x0303 1 n 1 0 0 false (reloadSlot n true true s).2).trans (quiet_settle s _)
  have all := only.trans (.of_quiet calm)
  refine ⟨_, step, ?_, ?_, ?_, fun high => ?_, ?_, all.others, all.jobs, all.mem, all.life⟩
  all_goals rw [slot_of_quiet calm]
  · exact st
  · exact keyA
  · exact keyB
  · exact count high
  · exact done'

theorem storeReload_loads {s : State} {n : Nat} {key : Bytes} (loading : (s.slot n).st = .loading) (due : s.store.reload = true)
    (a : sideKey n s.domainKeys.1 s = some key) (b : sideKey n s.domainKeys.2 s = some key) :
    Answers (.wrappedStoreReload n true true) s fun t => (t.slot n).st = .loaded ∧ (t.slot n).a.key.clear = key ∧
      (t.slot n).b.key.clear = key ∧ (64 ≤ n → (t.slot n).a.count = (s.slot n).point) ∧
      (∀ m, m ≠ n → t.slot m = s.slot m) ∧ t.jobs = s.jobs ∧ t.mem = s.mem ∧ t.life = s.life := by
  have step : exec (.wrappedStoreReload n true true) s =
      settled s (endReload (if (reloadSlot n true true s).1 then (reloadSlot n true true s).2 else reloadFails n s)) := if_pos ⟨loading, due⟩
  obtain ⟨done, only, st, keyA, keyB, count, -⟩ := reloadSlot_loads a b
  rw [done, if_pos rfl] at step
  obtain ⟨ended, same⟩ := onlySlot_endReload n (reloadSlot n true true s).2
  have calm := quiet_settle s (endReload (reloadSlot n true true s).2)
  have all := only.trans (ended.trans (.of_quiet calm))
  refine ⟨_, step, ?_, ?_, ?_, fun high => ?_, all.others, all.jobs, all.mem, all.life⟩
  all_goals rw [slot_of_quiet calm, same]
  · exact st
  · exact keyA
  · exact keyB
  · exact count high

theorem storeReload_fails {s : State} {n : Nat} {okA okB : Bool} (loading : (s.slot n).st = .loading) (due : s.store.reload = true)
    (fails : (okA && okB) = false) :
    Answers (.wrappedStoreReload n okA okB) s fun t => (t.slot n).st = .bad ∧ (t.slot n).reloadDue = false ∧
      (∀ m, m ≠ n → t.slot m = s.slot m) ∧ t.jobs = s.jobs ∧ t.mem = s.mem ∧ t.life = s.life := by
  have step : exec (.wrappedStoreReload n okA okB) s =
      settled s (endReload (if (reloadSlot n okA okB s).1 then (reloadSlot n okA okB s).2 else reloadFails n s)) := if_pos ⟨loading, due⟩
  rw [reloadSlot_fails fails, if_neg Bool.false_ne_true] at step
  have marked := quiet_markBad n s
  obtain ⟨ended, same⟩ := onlySlot_endReload n (reloadFails n s)
  have calm := quiet_settle s (endReload (reloadFails n s))
  have only : OnlySlot n s (reloadFails n s) :=
    (onlySlot_modSlot _ _ _).trans ((OnlySlot.of_quiet marked).trans (onlySlot_modSlot _ _ _))
  have all := only.trans (ended.trans (.of_quiet calm))
  refine ⟨_, step, ?_, ?_, all.others, all.jobs, all.mem, all.life⟩
  all_goals
    rw [slot_of_quiet calm, same]
    unfold reloadFails
    rw [slot_modSlot_self, slot_of_quiet marked, slot_modSlot_self]

/-- Settles O32: fresh masks leave the clear values, and a reload places the key that both sides make. -/
theorem slotsAreSweptAndReloaded : Obligations.SlotsAreSweptAndReloaded := by
  unfold Obligations.SlotsAreSweptAndReloaded
  refine ⟨fun s loaded more => sweepVisit_loaded loaded more, fun s idle more => ?_,
    fun s n key bad due free _ a b => slotReload_loads bad due free a b, fun s n okA okB bad due free domain fails => ?_,
    fun s n key loading due a b => storeReload_loads loading due a b,
    fun s n okA okB loading due fails => storeReload_fails loading due fails⟩
  · have step := exec_sweepVisit s
    rw [if_neg, if_neg, sweepOn_next more] at step
    · exact answers_settled step (.refl _)
    · rcases idle with h | h <;> rw [h] <;> decide
    · rcases idle with h | h <;> rw [h] <;> exact fun no => nomatch no.1
  · have step := exec_slotReload okA okB bad due free domain
    rw [reloadSlot_fails fails] at step
    exact answers_settled step (quiet_record ..)

end Sys2Proof.Safety
end

section
/-!
PROOFS. O36 does not hold: a D3hot write releases every job of a released name, and a state may hold a committed job and one in
run-ahead of one name.
-/

-- In turn: a proof that waits for others beside it takes a thread and its stack from the memory that the check allows.
set_option Elab.async false

namespace Sys2Proof.Safety

open Sys2Proof.Machine

/-- Function 1 with one name for a committed job and for one in run-ahead. -/
def busyAndAhead : State :=
  { fns := [(1, { run := .ready })], jobs := [{ runAheadJob with stage := .committed }, runAheadJob] }

/-- Refutes O36: the committed job goes with the released one, and the busy function sleeps at once. -/
theorem not_powerStatesAndEnables : ¬ Obligations.PowerStatesAndEnables := by
  unfold Obligations.PowerStatesAndEnables
  intro h
  obtain ⟨-, goesOn, -⟩ := h
  obtain ⟨t, step, run, -⟩ := goesOn busyAndAhead 1 (by decide +kernel) (.inl (by decide +kernel)) (by decide +kernel)
  have asleep : ((after (.d3hotWrite 1) busyAndAhead).fn 1).run = .d3hot := by decide +kernel
  rw [after_eq step, run] at asleep
  exact absurd asleep (by decide +kernel)

end Sys2Proof.Safety
end

section
/-!
PROOFS. Alarms latch and lock (R389 to R399, R411).
-/

-- In turn: a proof that waits for others beside it takes a thread and its stack from the memory that the check allows.
set_option Elab.async false

namespace Sys2Proof.Safety

open Sys2Proof.Machine

/-! ## Ending a job leaves the custody state alone -/

theorem custody_hostWrite (f a : Nat) (b : Bytes) (s : State) : (hostWrite f a b s).custody = s.custody :=
  (congrArg State.custody (written_hostWrite f a b s).1 :)

theorem custody_writeMirror (f c : Nat) (s : State) : (writeMirror f c s).custody = s.custody := by
  unfold writeMirror
  split
  · rfl
  · split
    · rfl
    · dsimp only
      split
      · exact (quiet_vecEvent _ _ _ _).custody.trans (custody_hostWrite _ _ _ _)
      · exact custody_hostWrite _ _ _ _

theorem custody_issueRecord (f c : Nat) (b : Bytes) (reserved irqNow : Bool) (s : State) :
    (issueRecord f c b reserved irqNow s).custody = s.custody := by
  unfold issueRecord
  split
  · rfl
  · dsimp only
    split
    · exact (custody_writeMirror _ _ _).trans (custody_hostWrite _ _ _ _)
    · exact custody_hostWrite _ _ _ _

theorem custody_finishEntry (f q : Nat) (i : Word) (s : State) : (finishEntry f q i s).custody = s.custody := by
  unfold finishEntry
  split <;> rfl

theorem custody_leavePair (r : JobRef) (s : State) : (leavePair r s).custody = s.custody := by
  unfold leavePair
  split
  · rfl
  · unfold returnRole
    dsimp only
    split
    · split
      · exact ((quiet_record _ _ _ _ _ _ _ _).trans (quiet_setErr _ _ _)).custody
      · rfl
    · rfl

theorem custody_releaseHold (j : Job) (s : State) : (releaseHold j s).custody = s.custody := by
  unfold releaseHold
  split <;> rfl

theorem custody_leavePk (r : JobRef) (s : State) : (leavePk r s).custody = s.custody := by
  unfold leavePk
  dsimp only
  split <;> rfl

theorem custody_freeRetiring (n gen : Nat) (s : State) : (freeRetiring n gen s).custody = s.custody := by
  unfold freeRetiring
  split
  · split <;> rfl
  · rfl

theorem custody_foldl {α : Type} {h : State → α → State} (each : ∀ s a, (h s a).custody = s.custody) :
    ∀ (l : List α) (s : State), (l.foldl h s).custody = s.custody
  | [], _ => rfl
  | a :: l, s => (custody_foldl each l _).trans (each s a)

theorem custody_enterD3 (f : Nat) (s : State) : (enterD3 f s).custody = s.custody := by
  unfold enterD3
  split
  · exact custody_foldl (fun s c => custody_writeMirror f c s) _ s
  · rfl

theorem custody_dropOne (j : Job) (s : State) : (dropOne j s).custody = s.custody := by
  have left (x : State) : (leavePk j.ref (releaseHold j (leavePair j.ref x))).custody = x.custody :=
    (custody_leavePk _ _).trans ((custody_releaseHold _ _).trans (custody_leavePair _ _))
  unfold dropOne
  dsimp only
  refine (custody_enterD3 _ _).trans ?_
  split
  · exact left _
  · exact (custody_freeRetiring _ _ _).trans (left _)

theorem custody_squash (j : Job) (s : State) : (squash j s).custody = s.custody := by
  unfold squash
  split
  · have disturbed : (disturb j s).custody = s.custody := by
      unfold disturb
      split
      · refine custody_foldl (fun s w => ?_) _ s
        exact custody_hostWrite _ _ _ _
      · rfl
    refine Eq.trans ?_ disturbed
    unfold scrub
    split
    · exact custody_hostWrite _ _ _ _
    · rfl
  · rfl

theorem custody_closeCall (r : JobRef) (s : State) : (closeCall r s).custody = s.custody := by
  unfold closeCall
  split
  · rfl
  · dsimp only
    split
    · exact (custody_dropOne _ _).trans (custody_squash _ _)
    · rfl

theorem custody_dropJob (j : Job) (s : State) : (dropJob j s).custody = s.custody :=
  (custody_closeCall _ _).trans (custody_dropOne j s)

theorem custody_completeJob (j : Job) (d : Done) (s : State) : (completeJob j d s).custody = s.custody := by
  unfold completeJob
  split
  · refine (custody_dropJob _ _).trans ?_
    unfold returnRecord
    split <;> rfl
  · exact (custody_dropJob _ _).trans ((custody_finishEntry _ _ _ _).trans (custody_issueRecord _ _ _ _ _ _))

theorem custody_awaitReads (j : Job) (d : Done) (s : State) : (awaitReads j d s).custody = s.custody := by
  have off : (releaseHold j (leavePair j.ref (squash j s))).custody = s.custody :=
    (custody_releaseHold _ _).trans ((custody_leavePair _ _).trans (custody_squash _ _))
  unfold awaitReads
  dsimp only
  split
  · exact off
  · exact (custody_freeRetiring _ _ _).trans off

theorem custody_endJob (j : Job) (d : Done) (atOnce : Bool) (s : State) : (endJob j d atOnce s).custody = s.custody := by
  have stopped : (bump 0x12 (if atOnce then leavePk j.ref s else s)).custody = s.custody := by
    refine (quiet_bump _ _).custody.trans ?_
    split
    · exact custody_leavePk _ _
    · rfl
  unfold endJob
  split
  · exact stopped
  · split
    · rfl
    · split
      · unfold suppress
        split <;> rfl
      · split
        · split
          · exact stopped
          · rfl
        · split
          · exact custody_awaitReads _ _ _
          · exact (custody_writeMirror _ _ _).trans ((custody_completeJob _ _ _).trans (custody_squash _ _))

theorem custody_endJobs (p : Job → Bool) (d : Job → Done) (atOnce : Bool) (s : State) : (endJobs p d atOnce s).custody = s.custody := by
  refine custody_foldl (fun s j => ?_) _ s
  split
  · exact custody_endJob _ _ _ _
  · rfl

/-- A command given up reopens no ceremony. -/
theorem cer_abandonAdmin {s : State} (closed : s.custody.cer = none) (j : Job) : (abandonAdmin j s).custody.cer = none := by
  unfold abandonAdmin
  split
  · exact closed
  · split
    · exact closed
    · unfold abandonCeremony
      rw [closed]
      exact closed

theorem cer_undoSlotCommand {s : State} (closed : s.custody.cer = none) (j : Job) : (undoSlotCommand j s).custody.cer = none := by
  unfold undoSlotCommand
  dsimp only
  split
  · exact (congrArg Custody.cer (custody_dropJob _ _)).trans (cer_abandonAdmin closed j)
  · exact cer_abandonAdmin closed j

theorem cer_endWork {s : State} (closed : s.custody.cer = none) (detail : Nat) (atOnce : Bool) :
    (endWork detail atOnce s).custody.cer = none := by
  have undone : ∀ (l : List Job) (x : State), x.custody.cer = none → (l.foldl (fun s j => undoSlotCommand j s) x).custody.cer = none := by
    intro l
    induction l with
    | nil => exact fun _ h => h
    | cons j l ih => exact fun x h => ih _ (cer_undoSlotCommand h j)
  unfold endWork
  exact (congrArg Custody.cer (custody_endJobs _ _ _ _)).trans (undone _ s closed)

/-! ## A ceremony that an alarm closes (R233) -/

theorem jobs_sendFrames (r : SessPath) (fs : List Bytes) (s : State) : (sendFrames r fs s).jobs = s.jobs := by
  have sent : ∀ (l : List Bytes) (mac : Bytes) (x : State), (l.foldl (fun s f => emit (.frame (ethFrame mac f)) s) x).jobs = x.jobs := by
    intro l mac
    induction l with
    | nil => exact fun _ => rfl
    | cons f l ih => exact fun x => ih _
  unfold sendFrames
  cases r with
  | port mac =>
    dsimp only
    split
    · exact sent fs mac s
    · rfl
  | relay ch =>
    dsimp only
    split <;> rfl

theorem jobs_flushSession (id : Nat) : ∀ (l : List Reply) (s : State), (flushSession id l s).jobs = s.jobs
  | [], _ => rfl
  | m :: r, s => by
    unfold flushSession
    split
    · rfl
    · dsimp only
      split
      · exact (jobs_flushSession id r _).trans (jobs_sendFrames _ _ _)
      · rfl

theorem jobs_sendReply (id : Nat) (m : Reply) (s : State) : (sendReply id m s).jobs = s.jobs := by
  unfold sendReply
  split
  · rfl
  · exact jobs_flushSession _ _ _

theorem jobs_respond (id : Nat) (d : Done) (out : Bytes) (s : State) : (respond id d out s).jobs = s.jobs := by
  unfold respond
  split
  · rfl
  · split
    · rfl
    · exact jobs_sendReply _ _ _

/-- Every job of `t` is one of `s` by name and opcode. -/
def SameWork (s t : State) : Prop := ∀ k ∈ t.jobs, ∃ j ∈ s.jobs, j.ref = k.ref ∧ j.op = k.op

theorem SameWork.of_eq {s t : State} (h : t.jobs = s.jobs) : SameWork s t := fun k hk => ⟨k, h ▸ hk, rfl, rfl⟩

theorem sameWork_decideJob (r : JobRef) (d : Done) (s : State) : SameWork s (decideJob r d s) := by
  intro k hk
  obtain ⟨j, hj, rfl⟩ := List.mem_map.mp (show k ∈ s.jobs.map fun j => if j.ref = r then { j with outcome := some d } else j from hk)
  refine ⟨j, hj, ?_⟩
  split <;> exact ⟨rfl, rfl⟩

theorem sameWork_answerCaller (c : Option Caller) (d : Done) (s : State) : SameWork s (answerCaller c d [] s) := by
  unfold answerCaller
  split
  · exact .of_eq rfl
  · split
    · split
      · exact sameWork_decideJob _ _ _
      · exact .of_eq rfl
    · exact .of_eq rfl
  · exact .of_eq (jobs_respond _ _ _ _)

theorem SameWork.idle {s t : State} (w : SameWork s t) (idle : ∀ k ∈ s.jobs, endsAtTransition k = false) :
    ∀ k ∈ t.jobs, endsAtTransition k = false := by
  intro k hk
  obtain ⟨j, hj, ref, op⟩ := w k hk
  have kept := idle j hj
  unfold endsAtTransition isSlotCommand at kept ⊢
  rwa [← ref, ← op]

/-- What an alarm leaves when it closes the ceremony. -/
structure Closes (s t : State) : Prop where
  custody : t.custody = { s.custody with cer := none }
  frame : CerFrame s t
  link : t.link = s.link
  clock : t.clock = s.clock
  work : SameWork s t

theorem closes_alarmCloses (s : State) : Closes s (alarmCloses s) := by
  unfold alarmCloses
  split
  · next none =>
    have same : s.custody = { s.custody with cer := Option.none } := by
      rw [← none]
    exact ⟨same, ⟨rfl, rfl, rfl, rfl, rfl, rfl, rfl, rfl⟩, rfl, rfl, .of_eq rfl⟩
  · next c some =>
    generalize (if c.stage = .executing then ({ status := Status.locked } : Done) else { status := Status.quorumRequired, detail := 0x04 }) = d
    have calm := quiet_closeCeremony some 3 d
    have off := offPort_answerCaller c.caller d (withCer Option.none s)
    obtain ⟨custody, frame⟩ := closed_frame off calm
    refine ⟨custody, frame, calm.link.trans (congrArg State.link off :), calm.clock.trans (congrArg State.clock off :), fun k hk => ?_⟩
    rw [calm.jobs] at hk
    exact sameWork_answerCaller c.caller d (withCer Option.none s) k hk

/-! ## What a raised class erases (R397) -/

theorem mgmt_endSession (x : Session) (how : Nat) (s : State) :
    (endSession x how s).mgmt.sessions = s.mgmt.sessions.filter fun y => decide (y.id ≠ x.id) := by
  unfold endSession
  dsimp only
  split
  · exact (congrArg Mgmt.sessions (quiet_record ..).mgmt :)
  · rfl

theorem sessions_endSessions (s : State) : (endSessions (fun _ => true) s).mgmt.sessions = [] := by
  have left : ∀ (l : List Session) (s : State), ∀ y ∈ (l.foldl (fun s x => endSession x 3 s) s).mgmt.sessions,
      y ∈ s.mgmt.sessions ∧ ∀ x ∈ l, y.id ≠ x.id := by
    intro l
    induction l with
    | nil => exact fun s y hy => ⟨hy, fun x hx => absurd hx List.not_mem_nil⟩
    | cons x l ih =>
      intro s y hy
      obtain ⟨held, others⟩ := ih (endSession x 3 s) y hy
      rw [mgmt_endSession, List.mem_filter] at held
      refine ⟨held.1, fun z hz => ?_⟩
      rcases List.mem_cons.mp hz with rfl | hz
      · simpa using held.2
      · exact others z hz
  refine List.eq_nil_iff_forall_not_mem.mpr fun y hy => ?_
  obtain ⟨held, others⟩ := left _ s y hy
  exact others y (List.mem_filter.mpr ⟨held, rfl⟩) rfl

/-- The state before the work in flight ends: session and IDE keys gone, in class V the root besides. -/
def respondErased (c : LockClass) (root : Bool) (s : State) : State :=
  let u := eraseIde (eraseAllSets (alarmCloses s))
  if c = .v ∧ root = true then eraseRoot u else u

/-- What classes Z and V erase once the work in flight has ended. -/
def eraseHeavy (heavy : Bool) (s : State) : State :=
  if heavy then endSessions (fun _ => true) (eraseRandom (eraseSlots s)) else s

/-- The class is Z or V. -/
def heavyClass (c : LockClass) : Bool := decide (c.rank ≥ LockClass.z.rank)

theorem respondTo_eq (c : LockClass) (root : Bool) (s : State) :
    respondTo c root s = eraseHeavy (heavyClass c) (endWork 0 (heavyClass c) (respondErased c root s)) := by
  unfold respondTo eraseHeavy heavyClass respondErased
  dsimp only
  split <;> rfl

/-- What a raised class leaves of `s`, whatever it ends. -/
structure Responds (c : LockClass) (root : Bool) (s t : State) : Prop where
  life : t.life = if c = .v ∧ root = true then { s.life with root := [], rootMain := [] } else s.life
  vesper : t.vesper = { s.vesper with counts := { s.vesper.counts with voids := t.vesper.counts.voids } }
  cer : t.custody.cer = none
  roles : t.custody.roles = s.custody.roles
  sk (f : Nat) : (t.fn f).sk = []
  ide : t.link.ide = []
  ideKeys : t.link.ideKeys = []
  force : t.dict.force = s.dict.force
  profiles : t.dict.profiles = s.dict.profiles

theorem responds_respondErased (c : LockClass) (root : Bool) (s : State) : Responds c root s (respondErased c root s) := by
  obtain ⟨custody, ⟨-, -, life, -, -, force, profiles, vesper⟩, -, -, -⟩ := closes_alarmCloses s
  have cer := (congrArg Custody.cer custody :)
  have roles := (congrArg Custody.roles custody :)
  have sk (f : Nat) := sk_eraseAllSets f (alarmCloses s)
  unfold respondErased
  dsimp only
  generalize hu : alarmCloses s = u at *
  split
  · next h =>
    exact ⟨by rw [if_pos h, ← life]; rfl, by rw [← vesper]; rfl, cer, roles, sk, rfl, rfl, force, profiles⟩
  · next h =>
    exact ⟨by rw [if_neg h, ← life]; rfl, by rw [← vesper]; rfl, cer, roles, sk, rfl, rfl, force, profiles⟩

theorem Responds.of_winds {c : LockClass} {root : Bool} {s t u : State} (r : Responds c root s t) (w : Winds t u)
    (cer : u.custody.cer = none) : Responds c root s u where
  life := w.life.trans r.life
  vesper := by rw [w.vesper]; exact r.vesper
  cer := cer
  roles := w.roles.trans r.roles
  sk f := (w.sk f).trans (r.sk f)
  ide := (congrArg Link.ide w.link).trans r.ide
  ideKeys := (congrArg Link.ideKeys w.link).trans r.ideKeys
  force := w.force.trans r.force
  profiles := w.profiles.trans r.profiles

theorem cer_endSessions {s : State} (p : Session → Bool) : (endSessions p s).custody.cer = s.custody.cer := by
  have one (s : State) (x : Session) : (endSession x 3 s).custody = s.custody := by
    unfold endSession
    dsimp only
    split
    · exact (quiet_record ..).custody
    · rfl
  exact congrArg Custody.cer (custody_foldl one _ s)

theorem sk_eraseRandom (s : State) (f : Nat) : ((eraseRandom s).fn f).sk = (s.fn f).sk :=
  fn_mapFns_proj Fn.sk (h := fun _ g => { g with rngBuf := [] }) (fun _ _ => rfl) s f

theorem Responds.heavy {c : LockClass} {root : Bool} {s t : State} (r : Responds c root s t) (h : Bool) :
    Responds c root s (eraseHeavy h t) := by
  unfold eraseHeavy
  split
  · have erased : Responds c root s (eraseRandom (eraseSlots t)) :=
      ⟨r.life, r.vesper, r.cer, r.roles, fun f => (sk_eraseRandom _ f).trans (r.sk f), r.ide, r.ideKeys, r.force, r.profiles⟩
    exact erased.of_winds (winds_endSessions _ _) ((cer_endSessions _).trans erased.cer)
  · exact r

theorem responds_respondTo (c : LockClass) (root : Bool) (s : State) : Responds c root s (respondTo c root s) := by
  rw [respondTo_eq]
  have erased := responds_respondErased c root s
  exact (erased.of_winds (winds_endWork _ _ _) (cer_endWork erased.cer _ _)).heavy _

/-- The working copies, the random source's state and the sessions are gone. -/
def ErasedHeavy (t : State) : Prop :=
  (∀ n, (t.slot n).a = {} ∧ (t.slot n).b = {} ∧ (t.slot n).retiring = none) ∧ t.rng.seeded = false ∧ t.rng.pool = [] ∧ t.mgmt.sessions = []

theorem slot_eraseSlots (s : State) (n : Nat) :
    ((eraseSlots s).slot n).a = {} ∧ ((eraseSlots s).slot n).b = {} ∧ ((eraseSlots s).slot n).retiring = none := by
  have unloaded (x : Slot) : (unloadSlot x).a = {} ∧ (unloadSlot x).b = {} ∧ (unloadSlot x).retiring = none := by
    unfold unloadSlot
    split <;> exact ⟨rfl, rfl, rfl⟩
  have named : (eraseSlots s).slot n = ((s.store.slots.find? n).map unloadSlot).getD {} := by
    unfold State.slot FMap.getD eraseSlots
    rw [FMap.find?_mapVal s.store.slots (fun _ x => unloadSlot x) n]
  rw [named]
  cases s.store.slots.find? n with
  | none => exact ⟨rfl, rfl, rfl⟩
  | some x => exact unloaded x

theorem erasedHeavy (s : State) : ErasedHeavy (eraseHeavy true s) := by
  have swept := winds_endSessions (fun _ => true) (eraseRandom (eraseSlots s))
  have store := (kept_endSessions (fun _ => true) (eraseRandom (eraseSlots s))).2
  refine ⟨fun n => ?_, ?_, ?_, sessions_endSessions _⟩
  · have same : (eraseHeavy true s).slot n = (eraseSlots s).slot n := slot_of_store store n
    rw [same]
    exact slot_eraseSlots s n
  · exact (congrArg (fun x : State => x.rng.seeded) swept.rest :)
  · exact (congrArg (fun x : State => x.rng.pool) swept.rest :)

theorem heavy_respondTo {c : LockClass} (h : heavyClass c = true) (root : Bool) (s : State) : ErasedHeavy (respondTo c root s) := by
  rw [respondTo_eq, h]
  exact erasedHeavy _

theorem work_respondErased (c : LockClass) (root : Bool) (s : State) :
    SameWork s (respondErased c root s) ∧ (respondErased c root s).mem = s.mem ∧ (respondErased c root s).store = s.store := by
  obtain ⟨-, ⟨mem, store, -, -, -, -, -, -⟩, -, -, work⟩ := closes_alarmCloses s
  unfold respondErased
  dsimp only
  split <;> exact ⟨work, mem, store⟩

/-- Without a job that a transition ends, no byte of memory changes, and in class L no slot. -/
theorem idle_respondTo {s : State} (idle : ∀ k ∈ s.jobs, endsAtTransition k = false) (c : LockClass) (root : Bool) :
    (respondTo c root s).mem = s.mem ∧ (heavyClass c = false → (respondTo c root s).store = s.store) := by
  obtain ⟨work, mem, store⟩ := work_respondErased c root s
  rw [respondTo_eq, endWork_idle (work.idle idle)]
  unfold eraseHeavy
  split
  · next h => exact ⟨(kept_endSessions _ _).1.trans mem, fun light => absurd h (by rw [light]; exact Bool.false_ne_true)⟩
  · exact ⟨mem, fun _ => store⟩

/-! ## The response to a latch (R395, R396) -/

/-- What a latch that raises no lock class leaves. -/
structure Repeats (c : LockClass) (s t : State) : Prop where
  life : t.life = s.life
  store : t.store = s.store
  mem : t.mem = s.mem
  vesper : t.vesper = s.vesper
  cer : t.custody.cer = none
  sk (f : Nat) : (t.fn f).sk = []
  heavy : heavyClass c = true → t.link.ideKeys = [] ∧ t.mgmt.sessions = [] ∧ t.rng.seeded = false

theorem repeats_repeatResponse (c : LockClass) (s : State) : Repeats c s (repeatResponse c s) := by
  obtain ⟨custody, ⟨mem, store, life, -, -, -, -, vesper⟩, -, -, -⟩ := closes_alarmCloses s
  have cer := (congrArg Custody.cer custody :)
  have sk (f : Nat) := sk_eraseAllSets f (alarmCloses s)
  unfold repeatResponse
  dsimp only
  generalize alarmCloses s = u at *
  split
  · have swept := winds_endSessions (fun _ => true) (eraseRandom (eraseIde (eraseAllSets u)))
    have kept := kept_endSessions (fun _ => true) (eraseRandom (eraseIde (eraseAllSets u)))
    exact ⟨swept.life.trans life, kept.2.trans store, kept.1.trans mem, swept.vesper.trans vesper, (cer_endSessions _).trans cer,
      fun f => (swept.sk f).trans ((sk_eraseRandom _ f).trans (sk f)),
      fun _ => ⟨(congrArg Link.ideKeys swept.link :), sessions_endSessions _, (congrArg (fun x : State => x.rng.seeded) swept.rest :)⟩⟩
  · next light =>
    exact ⟨life, store, mem, vesper, cer, sk, fun h => absurd (of_decide_eq_true h) light⟩

/-- A condition that latches its group: recorded and counted, before the response. -/
def latched (g c : Nat) (s : State) : State :=
  let new := match s.life.lc with
    | .initialized | .operational | .locked => (raised s (lockOf c)).code
    | _ => s.life.lockClass.code
  setErr Block.vs 4 (countAlarm (vesperRecord 0x0701 5 g c new 1 (s := { s with
    vesper := { s.vesper with latch := s.vesper.latch ||| 2 ^ g, latchedAt := s.vesper.latchedAt.set g s.vesper.calendar } })))

theorem latchGroup_eq (g c : Nat) (s : State) : latchGroup g c s = lockResponse (lockOf c) (latched g c s) := rfl

/-- `t` is `s` but for signals and Vesper's counts and records. -/
structure Noted (s t : State) : Prop where
  calm : Quiet { s with vesper := t.vesper } t
  calendar : t.vesper.calendar = s.vesper.calendar
  latch : t.vesper.latch = s.vesper.latch
  repeats : t.vesper.repeats = s.vesper.repeats
  cond : t.vesper.cond = s.vesper.cond
  cell : t.vesper.cell = s.vesper.cell
  window : t.vesper.window = s.vesper.window
  classes : t.vesper.classes = s.vesper.classes
  xtalOk : t.vesper.xtalOk = s.vesper.xtalOk
  xtalFail : t.vesper.counts.xtalFail = s.vesper.counts.xtalFail

theorem quiet_vesper {s t u : State} (a : Quiet { s with vesper := t.vesper } t) (b : Quiet { t with vesper := u.vesper } u) :
    Quiet { s with vesper := u.vesper } u :=
  (a.map fun x => { x with vesper := u.vesper }).trans b

theorem Noted.trans {s t u : State} (a : Noted s t) (b : Noted t u) : Noted s u :=
  ⟨quiet_vesper a.calm b.calm, b.calendar.trans a.calendar, b.latch.trans a.latch, b.repeats.trans a.repeats, b.cond.trans a.cond,
    b.cell.trans a.cell, b.window.trans a.window, b.classes.trans a.classes, b.xtalOk.trans a.xtalOk, b.xtalFail.trans a.xtalFail⟩

theorem Noted.of_quiet {s t : State} (q : Quiet s t) : Noted s t := by
  have v := q.vesper
  exact ⟨by rw [v]; exact q, congrArg Vesper.calendar v, congrArg Vesper.latch v, congrArg Vesper.repeats v, congrArg Vesper.cond v,
    congrArg Vesper.cell v, congrArg Vesper.window v, congrArg Vesper.classes v, congrArg Vesper.xtalOk v,
    congrArg (fun x : Vesper => x.counts.xtalFail) v⟩

theorem noted_vesperRecord (code level p0 p1 p2 p3 : Nat) (s : State) :
    Noted s (vesperRecord code level p0 p1 p2 p3 s) ∧
      (vesperRecord code level p0 p1 p2 p3 s).vesper.counts = s.vesper.counts := by
  unfold vesperRecord
  dsimp only
  split
  · have calm := quiet_acceptRecord { time := if s.clock.running then s.now else s.vesper.calendar, code := code, level := level, vesper := true, calendar := !s.clock.running, p0 := p0 % 2 ^ 32, p1 := p1 % 2 ^ 32, p2 := p2 % 2 ^ 32, p3 := p3 % 2 ^ 16 } s
    exact ⟨.of_quiet calm, congrArg Vesper.counts calm.vesper⟩
  · unfold pushBuffer
    split <;> exact ⟨⟨.refl _, rfl, rfl, rfl, rfl, rfl, rfl, rfl, rfl, rfl⟩, rfl⟩

theorem noted_countAlarm (s : State) :
    Noted s (countAlarm s) ∧ (countAlarm s).vesper.counts.alarms = satAdd s.vesper.counts.alarms 0xFFFFFFFF := by
  unfold countAlarm
  dsimp only
  split <;> exact ⟨⟨.refl _, rfl, rfl, rfl, rfl, rfl, rfl, rfl, rfl, rfl⟩, rfl⟩

theorem noted_latched (g c : Nat) (s : State) : Noted { s with
    vesper := { s.vesper with latch := s.vesper.latch ||| 2 ^ g, latchedAt := s.vesper.latchedAt.set g s.vesper.calendar } } (latched g c s) :=
  (noted_vesperRecord ..).1.trans ((noted_countAlarm _).1.trans (.of_quiet (quiet_setErr _ _ _)))

/-- A state that `Noted` ties to another differs from it only in Vesper. -/
theorem Noted.frame {s t : State} (n : Noted s t) : t.life = s.life ∧ t.store = s.store ∧ t.mem = s.mem ∧ t.jobs = s.jobs ∧
    t.custody = s.custody ∧ t.dict.force = s.dict.force ∧ t.dict.profiles = s.dict.profiles ∧ t.clock = s.clock :=
  ⟨n.calm.life, n.calm.store, n.calm.mem, n.calm.jobs, n.calm.custody, n.calm.force, n.calm.profiles, n.calm.clock⟩

/-! ## A condition found present or absent (R389, R395) -/

/-- The condition of group `g` shown or not. -/
def setCond (g : Nat) (b : Bool) (s : State) : State := { s with vesper := { s.vesper with
  cond := if b then s.vesper.cond ||| 2 ^ g else s.vesper.cond - (if s.vesper.cond.testBit g then 2 ^ g else 0) } }

theorem sense_false (g : Nat) (s : State) : sense g false s = setCond g false s := by
  unfold sense
  dsimp only
  split
  · rfl
  · exact if_pos rfl

theorem sense_true {g : Nat} {s : State} (on : s.classOfGroup g ≠ 7) :
    sense g true s =
      if s.classOfGroup g = 0 then
        (if s.vesper.cond.testBit g then setCond g true s else countAlarm (vesperRecord 0x0702 0 g (s := setCond g true s)))
      else if s.vesper.latch.testBit g then
        { setCond g true s with vesper := { (setCond g true s).vesper with repeats := satAdd s.vesper.repeats 0xFFFFFFFF } }
      else latchGroup g (s.classOfGroup g) (setCond g true s) := by
  unfold sense
  dsimp only
  rw [if_neg on, if_neg (by decide)]
  rfl

/-- `h` is the state a sample leaves before group `g` is decided: Vesper alone differs, and not in what decides. -/
structure Sampled (g : Nat) (s h : State) : Prop where
  rest : h = { s with vesper := h.vesper }
  latch : h.vesper.latch = s.vesper.latch
  repeats : h.vesper.repeats = s.vesper.repeats
  calendar : h.vesper.calendar = s.vesper.calendar
  alarms : h.vesper.counts.alarms = s.vesper.counts.alarms
  cls : h.classOfGroup g = s.classOfGroup g
  cond : h.vesper.cond.testBit g = s.vesper.cond.testBit g

/-- `t` follows `u`: Vesper alone differs but for signals, and not in its latches and counts of alarms. -/
structure Trails (u t : State) : Prop where
  calm : Quiet { u with vesper := t.vesper } t
  latch : t.vesper.latch = u.vesper.latch
  repeats : t.vesper.repeats = u.vesper.repeats
  alarms : t.vesper.counts.alarms = u.vesper.counts.alarms

theorem Trails.trans {s t u : State} (a : Trails s t) (b : Trails t u) : Trails s u :=
  ⟨quiet_vesper a.calm b.calm, b.latch.trans a.latch, b.repeats.trans a.repeats, b.alarms.trans a.alarms⟩

theorem Trails.of_quiet {s t : State} (q : Quiet s t) : Trails s t :=
  ⟨by rw [q.vesper]; exact q, congrArg Vesper.latch q.vesper, congrArg Vesper.repeats q.vesper,
    congrArg (fun x : Vesper => x.counts.alarms) q.vesper⟩

theorem Trails.refl (s : State) : Trails s s := .of_quiet (.refl s)

theorem trails_setCond (g : Nat) (b : Bool) (s : State) : Trails s (setCond g b s) := ⟨.refl _, rfl, rfl, rfl⟩

theorem trails_sense_false (g : Nat) (s : State) : Trails s (sense g false s) := by
  rw [sense_false]
  exact trails_setCond _ _ _

theorem trails_settle (old s : State) : Trails s (settle old s) := .of_quiet (quiet_settle old s)

theorem trails_vesperRecord (code level p0 p1 p2 p3 : Nat) (s : State) : Trails s (vesperRecord code level p0 p1 p2 p3 s) := by
  obtain ⟨noted, counts⟩ := noted_vesperRecord code level p0 p1 p2 p3 s
  exact ⟨noted.calm, noted.latch, noted.repeats, congrArg LifeCounters.alarms counts⟩

/-- What every alarm that acts erases stays erased. -/
theorem AlarmErases.of_trails {c : Nat} {s u t : State} (e : AlarmErases c s u) (q : Trails u t) : AlarmErases c s t := by
  obtain ⟨sk, ide, ideKeys, cer, roles, heavy, force, profiles, idle⟩ := e
  have calm := q.calm
  have slot (n : Nat) : t.slot n = u.slot n := slot_of_quiet calm n
  refine ⟨fun f => (calm.sk f).trans (sk f), (congrArg Link.ide calm.link).trans ide, (congrArg Link.ideKeys calm.link).trans ideKeys,
    (congrArg Custody.cer calm.custody).trans cer, (congrArg Custody.roles calm.custody).trans roles, fun h => ?_, calm.force.trans force,
    calm.profiles.trans profiles, fun h => ?_⟩
  · obtain ⟨slots, seeded, pool, sessions⟩ := heavy h
    exact ⟨fun n => by rw [slot n]; exact slots n, (congrArg Rng.seeded calm.rng).trans seeded, (congrArg Rng.pool calm.rng).trans pool,
      (congrArg Mgmt.sessions calm.mgmt).trans sessions⟩
  · obtain ⟨mem, slots⟩ := idle h
    exact ⟨calm.mem.trans mem, fun n hn => (slot n).trans (slots n hn)⟩

theorem heavyClass_lockOf {c : Nat} (low : 1 ≤ c) (high : c ≤ 3) : heavyClass (lockOf c) = decide (2 ≤ c) := by
  interval_cases c <;> rfl

theorem isV_lockOf {c : Nat} (low : 1 ≤ c) (high : c ≤ 3) : lockOf c = .v ↔ c = 3 := by
  interval_cases c <;> decide

/-- A response erases what its class does, of a state with the same jobs, memory, slots, roles and values. -/
theorem alarmErases_respondTo {c : Nat} (low : 1 ≤ c) (high : c ≤ 3) (root : Bool) {s u : State} (jobs : u.jobs = s.jobs) (mem : u.mem = s.mem)
    (store : u.store = s.store) (custody : u.custody = s.custody) (force : u.dict.force = s.dict.force)
    (profiles : u.dict.profiles = s.dict.profiles) : AlarmErases c s (respondTo (lockOf c) root u) := by
  have left := responds_respondTo (lockOf c) root u
  have is := heavyClass_lockOf low high
  refine ⟨left.sk, left.ide, left.ideKeys, left.cer, left.roles.trans (congrArg Custody.roles custody), fun h => ?_,
    left.force.trans force, left.profiles.trans profiles, fun idle => ?_⟩
  · exact heavy_respondTo (by rw [is]; exact decide_eq_true h) root u
  · obtain ⟨memory, slots⟩ := idle_respondTo (s := u) (by rw [jobs]; exact idle) (lockOf c) root
    refine ⟨memory.trans mem, fun n one => ?_⟩
    have light : heavyClass (lockOf c) = false := by
      rw [is, one]
      rfl
    exact slot_of_store ((slots light).trans store) n

/-! ## The response in each life-cycle state -/

theorem lockResponse_locks {c : LockClass} {s : State} (lc : s.life.lc = .initialized ∨ s.life.lc = .operational) :
    lockResponse c s = respondTo c true (enterLocked c s.vesper.calendar 0 s) := by
  unfold lockResponse
  rcases lc with lc | lc <;> rw [lc]

theorem lockResponse_locked {c : LockClass} {s : State} (lc : s.life.lc = .locked) :
    lockResponse c s = if s.life.lockClass.rank < c.rank then
      respondTo c true { s with life := { s.life with lockClass := c, lockTime := s.vesper.calendar } } else repeatResponse c s := by
  unfold lockResponse
  rw [lc]

theorem lockResponse_else {c : LockClass} {s : State} (lc : s.life.lc = .factory ∨ s.life.lc = .debug ∨ s.life.lc = .decommissioned) :
    lockResponse c s = respondTo c false s := by
  unfold lockResponse
  rcases lc with lc | lc | lc <;> rw [lc]

/-- A group that latches: the state its response starts from. -/
structure Latching (g : Nat) (s u : State) : Prop where
  latch : u.vesper.latch.testBit g = true
  calendar : u.vesper.calendar = s.vesper.calendar
  life : u.life = s.life
  store : u.store = s.store
  mem : u.mem = s.mem
  jobs : u.jobs = s.jobs
  custody : u.custody = s.custody
  force : u.dict.force = s.dict.force
  profiles : u.dict.profiles = s.dict.profiles

theorem sense_latches {g : Nat} {s h : State} (head : Sampled g s h) (fresh : s.vesper.latch.testBit g = false)
    (low : 1 ≤ s.classOfGroup g) (high : s.classOfGroup g ≤ 3) :
    ∃ u, Latching g s u ∧ sense g true h = lockResponse (lockOf (s.classOfGroup g)) u := by
  have noted := noted_latched g (s.classOfGroup g) (setCond g true h)
  obtain ⟨life, store, mem, jobs, custody, force, profiles, -⟩ := noted.frame
  have same := head.rest
  refine ⟨latched g (s.classOfGroup g) (setCond g true h), ⟨?_, noted.calendar.trans head.calendar, life.trans (congrArg State.life same :),
    store.trans (congrArg State.store same :), mem.trans (congrArg State.mem same :), jobs.trans (congrArg State.jobs same :),
    custody.trans (congrArg State.custody same :), force.trans (congrArg (fun x : State => x.dict.force) same :),
    profiles.trans (congrArg (fun x : State => x.dict.profiles) same :)⟩, ?_⟩
  · rw [noted.latch]
    simp [Nat.testBit_or, Nat.testBit_two_pow_self]
  · have cls := head.cls
    rw [sense_true (by omega), if_neg (by omega), if_neg (by rw [head.latch, fresh]; exact Bool.false_ne_true), latchGroup_eq, cls]

theorem alarm_locks {g : Nat} {s h t : State} (head : Sampled g s h) (tail : Trails (sense g true h) t)
    (fresh : s.vesper.latch.testBit g = false) (low : 1 ≤ s.classOfGroup g) (high : s.classOfGroup g ≤ 3)
    (lc : s.life.lc = .initialized ∨ s.life.lc = .operational) :
    t.vesper.latch.testBit g = true ∧ t.life.lc = .locked ∧
      t.life.lockClass = lockOf (s.classOfGroup g) ∧ t.life.before = s.life.lc ∧ t.life.lockTime = s.vesper.calendar ∧
      t.life.dkWrapped = s.life.dkWrapped ∧ t.life.root = (if s.classOfGroup g = 3 then [] else s.life.root) ∧
      AlarmErases (s.classOfGroup g) s t := by
  obtain ⟨u, start, is⟩ := sense_latches head fresh low high
  rw [is, lockResponse_locks (by rw [start.life]; exact lc)] at tail
  have v := isV_lockOf low high
  generalize hc : s.classOfGroup g = c at *
  have entered := quiet_enterLife .locked 0 { u with life := { u.life with before := u.life.lc, lockClass := lockOf c, lockTime := u.vesper.calendar } }
  have left := responds_respondTo (lockOf c) true (enterLocked (lockOf c) u.vesper.calendar 0 u)
  have erases : AlarmErases c s (respondTo (lockOf c) true (enterLocked (lockOf c) u.vesper.calendar 0 u)) :=
    alarmErases_respondTo low high true (entered.jobs.trans start.jobs) (entered.mem.trans start.mem) (entered.store.trans start.store)
      (entered.custody.trans start.custody) (entered.force.trans start.force) (entered.profiles.trans start.profiles)
  have life := tail.calm.life.trans left.life
  have vesper : (enterLocked (lockOf c) u.vesper.calendar 0 u).vesper = u.vesper := entered.vesper
  have old : (enterLocked (lockOf c) u.vesper.calendar 0 u).life = { u.life with
      lc := .locked, changed := if u.clock.running then u.now else u.vesper.calendar, before := u.life.lc, lockClass := lockOf c
      lockTime := u.vesper.calendar } := life_enterLife ..
  rw [old, start.life, start.calendar] at life
  have shown : t.vesper.latch.testBit g = true := by
    rw [tail.latch, left.vesper, vesper]
    exact start.latch
  have gone := AlarmErases.of_trails erases tail
  by_cases three : c = 3
  · rw [if_pos ⟨v.mpr three, rfl⟩] at life
    rw [if_pos three]
    exact ⟨shown, (congrArg Life.lc life :), (congrArg Life.lockClass life :), (congrArg Life.before life :), (congrArg Life.lockTime life :),
      (congrArg Life.dkWrapped life :), (congrArg Life.root life :), gone⟩
  · rw [if_neg fun h => three (v.mp h.1)] at life
    rw [if_neg three]
    exact ⟨shown, (congrArg Life.lc life :), (congrArg Life.lockClass life :), (congrArg Life.before life :), (congrArg Life.lockTime life :),
      (congrArg Life.dkWrapped life :), (congrArg Life.root life :), gone⟩

theorem alarm_raises {g : Nat} {s h t : State} (head : Sampled g s h) (tail : Trails (sense g true h) t)
    (fresh : s.vesper.latch.testBit g = false) (low : 1 ≤ s.classOfGroup g) (high : s.classOfGroup g ≤ 3) (lc : s.life.lc = .locked)
    (raises : s.life.lockClass.rank < (lockOf (s.classOfGroup g)).rank) :
    t.vesper.latch.testBit g = true ∧ t.life.lc = .locked ∧ t.life.before = s.life.before ∧
      t.life.lockClass = lockOf (s.classOfGroup g) ∧ t.life.lockTime = s.vesper.calendar ∧
      t.life.root = (if s.classOfGroup g = 3 then [] else s.life.root) ∧ AlarmErases (s.classOfGroup g) s t := by
  obtain ⟨u, start, is⟩ := sense_latches head fresh low high
  rw [is, lockResponse_locked (by rw [start.life]; exact lc), if_pos (by rw [start.life]; exact raises)] at tail
  have v := isV_lockOf low high
  generalize hc : s.classOfGroup g = c at *
  generalize hw : ({ u with life := { u.life with lockClass := lockOf c, lockTime := u.vesper.calendar } } : State) = w at *
  have left := responds_respondTo (lockOf c) true w
  have gone := AlarmErases.of_trails (alarmErases_respondTo low high true (s := s) (u := w) (by rw [← hw]; exact start.jobs)
    (by rw [← hw]; exact start.mem) (by rw [← hw]; exact start.store) (by rw [← hw]; exact start.custody)
    (by rw [← hw]; exact start.force) (by rw [← hw]; exact start.profiles)) tail
  have life := tail.calm.life.trans left.life
  have shown : t.vesper.latch.testBit g = true := by
    rw [tail.latch, left.vesper, ← hw]
    exact start.latch
  have old : w.life = { s.life with lockClass := lockOf c, lockTime := s.vesper.calendar } := by
    rw [← hw, ← start.life, ← start.calendar]
  rw [old] at life
  by_cases three : c = 3
  · rw [if_pos ⟨v.mpr three, rfl⟩] at life
    rw [if_pos three]
    exact ⟨shown, (congrArg Life.lc life :).trans lc, (congrArg Life.before life :), (congrArg Life.lockClass life :),
      (congrArg Life.lockTime life :), (congrArg Life.root life :), gone⟩
  · rw [if_neg fun h => three (v.mp h.1)] at life
    rw [if_neg three]
    exact ⟨shown, (congrArg Life.lc life :).trans lc, (congrArg Life.before life :), (congrArg Life.lockClass life :),
      (congrArg Life.lockTime life :), (congrArg Life.root life :), gone⟩

theorem alarm_repeats {g : Nat} {s h t : State} (head : Sampled g s h) (tail : Trails (sense g true h) t)
    (fresh : s.vesper.latch.testBit g = false) (low : 1 ≤ s.classOfGroup g) (high : s.classOfGroup g ≤ 3) (lc : s.life.lc = .locked)
    (lesser : (lockOf (s.classOfGroup g)).rank ≤ s.life.lockClass.rank) :
    t.vesper.latch.testBit g = true ∧ t.life = s.life ∧ t.store = s.store ∧ t.mem = s.mem ∧
      (∀ f, (t.fn f).sk = []) ∧ t.custody.cer = none ∧
      (2 ≤ s.classOfGroup g → t.link.ideKeys = [] ∧ t.mgmt.sessions = [] ∧ t.rng.seeded = false) := by
  obtain ⟨u, start, is⟩ := sense_latches head fresh low high
  rw [is, lockResponse_locked (by rw [start.life]; exact lc), if_neg (by rw [start.life]; omega)] at tail
  have left := repeats_repeatResponse (lockOf (s.classOfGroup g)) u
  have calm := tail.calm
  refine ⟨?_, calm.life.trans (left.life.trans start.life), calm.store.trans (left.store.trans start.store),
    calm.mem.trans (left.mem.trans start.mem), fun f => (calm.sk f).trans (left.sk f), (congrArg Custody.cer calm.custody).trans left.cer,
    fun two => ?_⟩
  · rw [tail.latch, left.vesper]
    exact start.latch
  · obtain ⟨keys, sessions, seeded⟩ := left.heavy ((heavyClass_lockOf low high).trans (decide_eq_true two))
    exact ⟨(congrArg Link.ideKeys calm.link).trans keys, (congrArg Mgmt.sessions calm.mgmt).trans sessions,
      (congrArg Rng.seeded calm.rng).trans seeded⟩

theorem alarm_erases {g : Nat} {s h t : State} (head : Sampled g s h) (tail : Trails (sense g true h) t)
    (fresh : s.vesper.latch.testBit g = false) (low : 1 ≤ s.classOfGroup g) (high : s.classOfGroup g ≤ 3)
    (lc : s.life.lc = .factory ∨ s.life.lc = .debug ∨ s.life.lc = .decommissioned) :
    t.vesper.latch.testBit g = true ∧ t.life = s.life ∧ AlarmErases (s.classOfGroup g) s t := by
  obtain ⟨u, start, is⟩ := sense_latches head fresh low high
  rw [is, lockResponse_else (by rw [start.life]; exact lc)] at tail
  have left := responds_respondTo (lockOf (s.classOfGroup g)) false u
  have life := left.life
  rw [if_neg fun h => Bool.false_ne_true h.2] at life
  refine ⟨?_, tail.calm.life.trans (life.trans start.life), AlarmErases.of_trails (alarmErases_respondTo low high false start.jobs start.mem
    start.store start.custody start.force start.profiles) tail⟩
  rw [tail.latch, left.vesper]
  exact start.latch

theorem alarm_counts_repeat {g : Nat} {s h t : State} (head : Sampled g s h) (tail : Trails (sense g true h) t)
    (held : s.vesper.latch.testBit g = true) (low : 1 ≤ s.classOfGroup g) (high : s.classOfGroup g ≤ 3) :
    t.vesper.repeats = satAdd s.vesper.repeats 0xFFFFFFFF ∧ t.vesper.latch = s.vesper.latch ∧
      t.life = s.life ∧ t.store = s.store ∧ t.mem = s.mem ∧ t.jobs = s.jobs := by
  have cls := head.cls
  rw [sense_true (by omega), if_neg (by omega), if_pos (by rw [head.latch]; exact held)] at tail
  have calm := tail.calm
  have rest := head.rest
  refine ⟨tail.repeats.trans (congrArg (satAdd · 0xFFFFFFFF) head.repeats), tail.latch.trans head.latch, calm.life.trans (congrArg State.life rest :),
    calm.store.trans (congrArg State.store rest :), calm.mem.trans (congrArg State.mem rest :), calm.jobs.trans (congrArg State.jobs rest :)⟩

theorem alarm_counts_only {g : Nat} {s h t : State} (head : Sampled g s h) (tail : Trails (sense g true h) t)
    (cls : s.classOfGroup g = 0) (fresh : s.vesper.cond.testBit g = false) :
    t.vesper.latch = s.vesper.latch ∧ t.life = s.life ∧
      t.vesper.counts.alarms = satAdd s.vesper.counts.alarms 0xFFFFFFFF ∧ t.store = s.store ∧ t.mem = s.mem ∧ t.jobs = s.jobs := by
  have zero : h.classOfGroup g = 0 := head.cls.trans cls
  rw [sense_true (by omega), if_pos zero, if_neg (by rw [head.cond, fresh]; exact Bool.false_ne_true)] at tail
  obtain ⟨recorded, counts⟩ := noted_vesperRecord 0x0702 0 g 0 0 0 (setCond g true h)
  obtain ⟨counted, alarms⟩ := noted_countAlarm (vesperRecord 0x0702 0 g (s := setCond g true h))
  have noted := recorded.trans counted
  have calm := quiet_vesper noted.calm tail.calm
  have rest := head.rest
  refine ⟨tail.latch.trans (noted.latch.trans head.latch), calm.life.trans (congrArg State.life rest :), ?_,
    calm.store.trans (congrArg State.store rest :), calm.mem.trans (congrArg State.mem rest :), calm.jobs.trans (congrArg State.jobs rest :)⟩
  rw [tail.alarms, alarms, counts]
  exact congrArg (satAdd · 0xFFFFFFFF) head.alarms

/-! ## Each sample -/

/-- A sample's own note of what it read. -/
theorem sampled_modVesper (g : Nat) (w : Vesper → Vesper) (s : State) (latch : (w s.vesper).latch = s.vesper.latch := by exact rfl)
    (repeats : (w s.vesper).repeats = s.vesper.repeats := by exact rfl)
    (calendar : (w s.vesper).calendar = s.vesper.calendar := by exact rfl)
    (alarms : (w s.vesper).counts.alarms = s.vesper.counts.alarms := by exact rfl)
    (classes : (w s.vesper).classes = s.vesper.classes := by exact rfl)
    (window : (w s.vesper).window.isSome = s.vesper.window.isSome := by exact rfl)
    (cond : (w s.vesper).cond = s.vesper.cond := by exact rfl) : Sampled g s (modVesper w s) where
  rest := rfl
  latch := latch
  repeats := repeats
  calendar := calendar
  alarms := alarms
  cls := by
    unfold State.classOfGroup
    show (if (g = 15 ∨ g = 17) ∧ (w s.vesper).window.isSome = true then 0 else (w s.vesper).classes.getD g 0) = _
    simp only [window, classes]
  cond := by
    show (w s.vesper).cond.testBit g = _
    rw [cond]

theorem sampled_refl (g : Nat) (s : State) : Sampled g s s := ⟨rfl, rfl, rfl, rfl, rfl, rfl, rfl⟩

theorem sampled_noteVbat (g mv : Nat) (s : State) : Sampled g s (noteVbat mv s) :=
  sampled_modVesper g _ s (window := by simp)

/-- TEMP_SAMPLE decides group 8 first, which leaves group 9 as it was. -/
theorem sampled_temp_high (dc : Int) (s : State) : Sampled 9 s (sense 8 false (modVesper (fun v => { v with dieTemp := dc }) s)) := by
  rw [sense_false]
  refine ⟨rfl, rfl, rfl, rfl, rfl, rfl, ?_⟩
  show (s.vesper.cond - (if s.vesper.cond.testBit 8 then 2 ^ 8 else 0)).testBit 9 = s.vesper.cond.testBit 9
  generalize s.vesper.cond = n
  simp only [Nat.testBit_eq_decide_div_mod_eq]
  by_cases shown : n / 2 ^ 8 % 2 = 1
  · rw [decide_eq_true shown, if_pos rfl]
    exact decide_eq_decide.mpr (by omega)
  · rw [decide_eq_false shown, if_neg Bool.false_ne_true, Nat.sub_zero]

theorem trails_settled {i : Instr} {s u v : State} (is : exec i s = settled s v) (tail : Trails u v) :
    ∃ t, exec i s = .next t ∧ Trails u t := ⟨_, is, tail.trans (trails_settle _ _)⟩

/-- A sample that finds its condition decides its group in a state that is `s` but for what the sample notes in Vesper. -/
theorem senses_split {s : State} {i : Instr} {g : Nat} (h : Senses s i g) :
    ∃ u t, Sampled g s u ∧ exec i s = .next t ∧ Trails (sense g true u) t := by
  cases i with
  | meshSample m =>
    obtain ⟨rfl, layer, works, on, alarm⟩ := h
    have is : exec (.meshSample m) s = settled s (sense m.layer (meshAlarm s.vesper m)
        (modVesper (fun v => { v with patCtr := (v.patCtr + 1) % 2 ^ 128 }) s)) := if_pos ⟨works, on, layer⟩
    rw [alarm] at is
    exact ⟨_, _, sampled_modVesper _ _ s, is, trails_settle _ _⟩
  | xtampSample n high =>
    obtain ⟨rfl, input, works, on, twice, alarm⟩ := h
    have is : exec (.xtampSample n high) s = settled s (sense (4 + n) (xtampAlarm s n high)
        (modVesper (fun v => { v with xtamp := v.xtamp.set n (some high) }) s)) :=
      (if_pos ⟨works, on, input⟩).trans (if_pos twice)
    rw [alarm] at is
    exact ⟨_, _, sampled_modVesper _ _ s, is, trails_settle _ _⟩
  | tempSample dc =>
    obtain ⟨works, cases⟩ := h
    have is : exec (.tempSample dc) s = settled s (sense 9 (decide (dc > 10 * s.paramInt 0x4000 2 125))
        (sense 8 (decide (dc < 10 * s.paramInt 0x4000 1 (-30))) (modVesper (fun v => { v with dieTemp := dc }) s))) := if_pos works
    rcases cases with ⟨rfl, cold, warm⟩ | ⟨rfl, hot, cold⟩
    · rw [decide_eq_true cold, decide_eq_false warm] at is
      obtain ⟨t, ht, tail⟩ := trails_settled is (trails_sense_false 9 _)
      exact ⟨_, t, sampled_modVesper _ _ s, ht, tail⟩
    · rw [decide_eq_true hot, decide_eq_false cold] at is
      exact ⟨_, _, sampled_temp_high dc s, is, trails_settle _ _⟩
  | glitch n mv =>
    obtain ⟨rfl, works, armed, out, powered⟩ := h
    have is : exec (.glitch n mv) s = settled s (sense (glitchGroup n) false (sense (glitchGroup n) true s)) :=
      if_pos ⟨works, armed, out, powered⟩
    obtain ⟨t, ht, tail⟩ := trails_settled is (trails_sense_false _ _)
    exact ⟨s, t, sampled_refl _ s, ht, tail⟩
  | fiDelay n =>
    obtain ⟨rfl, works, supplies⟩ := h
    have is : exec (.fiDelay n) s = settled s (sense 14 false (sense 14 true s)) := if_pos ⟨works, supplies⟩
    obtain ⟨t, ht, tail⟩ := trails_settled is (trails_sense_false _ _)
    exact ⟨s, t, sampled_refl _ s, ht, tail⟩
  | vbatSample mv =>
    obtain ⟨rfl, works, supplied, low⟩ := h
    have is : exec (.vbatSample mv) s = settled s (sense 15 (decide (mv < s.vbatLow)) (noteVbat mv s)) := if_pos ⟨works, supplied⟩
    rw [decide_eq_true low] at is
    exact ⟨_, _, sampled_noteVbat _ _ s, is, trails_settle _ _⟩
  | vbatCut mv =>
    obtain ⟨rfl, battery, low⟩ := h
    have is : exec (.vbatCut mv) s = settled s (sense 16 (decide (mv < 2000)) (noteVbat mv s)) :=
      if_neg (by rw [battery]; exact Bool.false_ne_true)
    rw [decide_eq_true low] at is
    exact ⟨_, _, sampled_noteVbat _ _ s, is, trails_settle _ _⟩
  | cellPresenceCheck p =>
    obtain ⟨rfl, works, supplied, gone⟩ := h
    have is : exec (.cellPresenceCheck p) s = settled s (sense 17 (cellGone s p s.vesper.cell.vbat)
        (modVesper (fun v => { v with cell := { v.cell with present := p } }) s)) := if_pos ⟨works, supplied⟩
    rw [gone] at is
    exact ⟨_, _, sampled_modVesper _ _ s, is, trails_settle _ _⟩
  | xtalFail =>
    obtain ⟨rfl, works, ok, late⟩ := h
    have is : exec .xtalFail s = settled s (vesperRecord 0x0704 0 1 (s := setErr Block.vs 5 (sense 18 true (modVesper (fun v => { v with
        xtalOk := false, counts := { v.counts with xtalFail := satAdd v.counts.xtalFail 0xFFFFFFFF } }) s)))) := if_pos ⟨works, ok, late⟩
    obtain ⟨t, ht, tail⟩ := trails_settled is ((Trails.of_quiet (quiet_setErr _ _ _)).trans (trails_vesperRecord ..))
    exact ⟨_, t, sampled_modVesper _ _ s, ht, tail⟩
  | shadowCheck ok =>
    obtain ⟨rfl, works, rfl⟩ := h
    have is : exec (.shadowCheck false) s = settled s (sense 19 true s) := if_pos works
    exact ⟨s, _, sampled_refl _ s, is, trails_settle _ _⟩
  | _ => exact h.elim

/-- A sample without a condition notes what it read, and its group shows none. -/
theorem findsNothing_trails {s : State} {i : Instr} (h : FindsNothing s i) : ∃ t, exec i s = .next t ∧ Trails s t := by
  have noted (w : Vesper → Vesper) (latch : (w s.vesper).latch = s.vesper.latch) (repeats : (w s.vesper).repeats = s.vesper.repeats)
      (alarms : (w s.vesper).counts.alarms = s.vesper.counts.alarms) : Trails s (modVesper w s) := ⟨.refl _, latch, repeats, alarms⟩
  have absent {c : Prop} [Decidable c] {v : State} (is : exec i s = if c then settled s v else .next s) (tail : Trails s v) :
      ∃ t, exec i s = .next t ∧ Trails s t := by
    by_cases hc : c
    · exact trails_settled (is.trans (if_pos hc)) tail
    · exact ⟨s, is.trans (if_neg hc), .refl s⟩
  cases i with
  | meshSample m =>
    refine absent (rfl : _ = execMeshSample m s) ?_
    rw [show meshAlarm s.vesper m = false from h]
    exact (noted _ rfl rfl rfl).trans (trails_sense_false _ _)
  | xtampSample n high =>
    by_cases c : s.vesperWorks = true ∧ s.classOfGroup (4 + n) ≠ 7 ∧ n < 4
    · have read : Trails s (modVesper (fun v => { v with xtamp := v.xtamp.set n (some high) }) s) := noted _ rfl rfl rfl
      by_cases twice : s.vesper.xtamp.getD n none = some high
      · have quiet : xtampAlarm s n high = false := h.resolve_right fun other => other twice
        refine trails_settled ((if_pos c).trans (if_pos twice)) ?_
        rw [quiet]
        exact read.trans (trails_sense_false _ _)
      · exact ⟨_, (if_pos c).trans (if_neg twice), read⟩
    · exact ⟨s, if_neg c, .refl s⟩
  | tempSample dc =>
    refine absent (rfl : _ = execTempSample dc s) ?_
    rw [decide_eq_false h.1, decide_eq_false h.2]
    exact (noted _ rfl rfl rfl).trans ((trails_sense_false _ _).trans (trails_sense_false _ _))
  | glitch n mv =>
    refine ⟨s, if_neg fun c => ?_, .refl s⟩
    obtain ⟨-, armed, out, powered⟩ := c
    rcases h with off | inside | low
    · rw [off] at armed
      exact Bool.false_ne_true armed
    · rw [inside] at out
      exact Bool.false_ne_true out
    · omega
  | fiDelay n =>
    refine ⟨s, if_neg fun c => Bool.false_ne_true (Eq.trans (Eq.symm h) c.2), .refl s⟩
  | vbatSample mv =>
    refine absent (rfl : _ = execVbatSample mv s) ?_
    rw [decide_eq_false h]
    exact (noted _ rfl rfl rfl).trans (trails_sense_false _ _)
  | vbatCut mv =>
    by_cases c : s.vesper.vchg = true
    · exact ⟨s, if_pos c, .refl s⟩
    · refine trails_settled (if_neg c) ?_
      rw [decide_eq_false h]
      exact (noted _ rfl rfl rfl).trans (trails_sense_false _ _)
  | cellPresenceCheck p =>
    refine absent (rfl : _ = execCellPresenceCheck p s) ?_
    rw [show cellGone s p s.vesper.cell.vbat = false from h]
    exact (noted _ rfl rfl rfl).trans (trails_sense_false _ _)
  | xtalReturn =>
    refine absent (rfl : _ = execXtalReturn s) ?_
    exact ((noted _ rfl rfl rfl).trans (trails_sense_false _ _)).trans (trails_vesperRecord ..)
  | shadowCheck ok =>
    refine absent (rfl : _ = execShadowCheck ok s) ?_
    rw [show ok = true from h]
    exact trails_sense_false _ _
  | _ => exact h.elim

/-! ## What deciding a group leaves of the crystal and the cell -/

/-- `t` holds the cell, the service window, the crystal and its count, and the calendar of `s`, and opens no ceremony. -/
structure HoldsCell (s t : State) : Prop where
  cell : t.vesper.cell = s.vesper.cell
  window : t.vesper.window = s.vesper.window
  xtalOk : t.vesper.xtalOk = s.vesper.xtalOk
  xtalFail : t.vesper.counts.xtalFail = s.vesper.counts.xtalFail
  calendar : t.vesper.calendar = s.vesper.calendar
  closed : s.custody.cer = none → t.custody.cer = none

theorem HoldsCell.trans {s t u : State} (a : HoldsCell s t) (b : HoldsCell t u) : HoldsCell s u :=
  ⟨b.cell.trans a.cell, b.window.trans a.window, b.xtalOk.trans a.xtalOk, b.xtalFail.trans a.xtalFail, b.calendar.trans a.calendar,
    fun h => b.closed (a.closed h)⟩

theorem Noted.holdsCell {s t : State} (n : Noted s t) : HoldsCell s t :=
  ⟨n.cell, n.window, n.xtalOk, n.xtalFail, n.calendar, fun h => (congrArg Custody.cer n.calm.custody).trans h⟩

theorem HoldsCell.of_quiet {s t : State} (q : Quiet s t) : HoldsCell s t := (Noted.of_quiet q).holdsCell

theorem holdsCell_of_vesper {s t : State} (v : t.vesper = { s.vesper with counts := { s.vesper.counts with voids := t.vesper.counts.voids } })
    (closed : s.custody.cer = none → t.custody.cer = none) : HoldsCell s t := by
  refine ⟨?_, ?_, ?_, ?_, ?_, closed⟩ <;> rw [v]

theorem holdsCell_respondTo (c : LockClass) (root : Bool) (s : State) : HoldsCell s (respondTo c root s) :=
  holdsCell_of_vesper (responds_respondTo c root s).vesper fun _ => (responds_respondTo c root s).cer

theorem holdsCell_lockResponse (c : LockClass) (s : State) : HoldsCell s (lockResponse c s) := by
  have locks : HoldsCell s (respondTo c true (enterLocked c s.vesper.calendar 0 s)) := by
    have entered := quiet_enterLife .locked 0 { s with life := { s.life with before := s.life.lc, lockClass := c, lockTime := s.vesper.calendar } }
    exact .trans ⟨congrArg Vesper.cell entered.vesper, congrArg Vesper.window entered.vesper, congrArg Vesper.xtalOk entered.vesper,
      congrArg (fun x : Vesper => x.counts.xtalFail) entered.vesper, congrArg Vesper.calendar entered.vesper,
      fun h => (congrArg Custody.cer entered.custody).trans h⟩ (holdsCell_respondTo _ _ _)
  unfold lockResponse
  split
  · exact locks
  · exact locks
  · split
    · have left := holdsCell_respondTo c true { s with life := { s.life with lockClass := c, lockTime := s.vesper.calendar } }
      exact ⟨left.cell, left.window, left.xtalOk, left.xtalFail, left.calendar, left.closed⟩
    · have left := repeats_repeatResponse c s
      have v := left.vesper
      exact ⟨congrArg Vesper.cell v, congrArg Vesper.window v, congrArg Vesper.xtalOk v, congrArg (fun x : Vesper => x.counts.xtalFail) v,
        congrArg Vesper.calendar v, fun _ => left.cer⟩
  · exact holdsCell_respondTo _ _ _

theorem holdsCell_setCond (g : Nat) (b : Bool) (s : State) : HoldsCell s (setCond g b s) := ⟨rfl, rfl, rfl, rfl, rfl, id⟩

theorem holdsCell_sense (g : Nat) (b : Bool) (s : State) : HoldsCell s (sense g b s) := by
  by_cases off : s.classOfGroup g = 7
  · have is : sense g b s = setCond g false s := if_pos off
    rw [is]
    exact holdsCell_setCond _ _ _
  cases b with
  | false =>
    rw [sense_false]
    exact holdsCell_setCond _ _ _
  | true =>
    rw [sense_true off]
    split
    · split
      · exact holdsCell_setCond _ _ _
      · exact (holdsCell_setCond _ _ _).trans ((noted_vesperRecord ..).1.trans (noted_countAlarm _).1).holdsCell
    · split
      · exact ⟨rfl, rfl, rfl, rfl, rfl, id⟩
      · rw [latchGroup_eq]
        have noted := (noted_latched g (s.classOfGroup g) (setCond g true s)).holdsCell
        refine HoldsCell.trans ?_ (holdsCell_lockResponse _ _)
        exact ⟨noted.cell, noted.window, noted.xtalOk, noted.xtalFail, noted.calendar, noted.closed⟩

theorem xtalFail_answers {s : State} (works : s.vesperWorks = true) (ok : s.vesper.xtalOk = true) (late : xtalHoldOff s = false) :
    Answers .xtalFail s fun t => t.vesper.xtalOk = false ∧
      t.vesper.counts.xtalFail = satAdd s.vesper.counts.xtalFail 0xFFFFFFFF := by
  have is : exec .xtalFail s = settled s (vesperRecord 0x0704 0 1 (s := setErr Block.vs 5 (sense 18 true (modVesper (fun v => { v with
      xtalOk := false, counts := { v.counts with xtalFail := satAdd v.counts.xtalFail 0xFFFFFFFF } }) s)))) := if_pos ⟨works, ok, late⟩
  have held := (holdsCell_sense 18 true (modVesper (fun v => { v with
      xtalOk := false, counts := { v.counts with xtalFail := satAdd v.counts.xtalFail 0xFFFFFFFF } }) s)).trans
    ((HoldsCell.of_quiet (quiet_setErr Block.vs 5 _)).trans ((noted_vesperRecord 0x0704 0 1 0 0 0 _).1.holdsCell.trans
      (.of_quiet (quiet_settle s _))))
  exact ⟨_, is, held.xtalOk, held.xtalFail⟩

theorem xtalReturn_answers {s : State} (works : s.vesperWorks = true) (lost : s.vesper.xtalOk = false) :
    Answers .xtalReturn s fun t => t.vesper.xtalOk = true ∧ t.vesper.counts = s.vesper.counts ∧ t.life = s.life ∧
      t.store = s.store ∧ t.mem = s.mem ∧ t.jobs = s.jobs := by
  have is : exec .xtalReturn s = settled s (vesperRecord 0x0704 0 0 (s := sense 18 false (modVesper (fun v => { v with xtalOk := true }) s))) :=
    if_pos ⟨works, lost⟩
  rw [sense_false] at is
  obtain ⟨noted, counts⟩ := noted_vesperRecord 0x0704 0 0 0 0 0 (setCond 18 false (modVesper (fun v => { v with xtalOk := true }) s))
  have calm := quiet_vesper noted.calm (Trails.of_quiet (quiet_settle s _)).calm
  have settled' := (quiet_settle s (vesperRecord 0x0704 0 0 (s := setCond 18 false (modVesper (fun v => { v with xtalOk := true }) s)))).vesper
  exact ⟨_, is, (congrArg Vesper.xtalOk settled').trans noted.xtalOk, (congrArg Vesper.counts settled').trans counts, calm.life, calm.store,
    calm.mem, calm.jobs⟩

/-! ## What each sample decides -/

theorem meshSample_answers {s : State} (works : s.vesperWorks = true) (m : MeshReading) (layer : m.layer < 4) :
    Answers (.meshSample m) s (if s.classOfGroup m.layer = 7 then (· = s) else
      Quiet (sense m.layer (meshAlarm s.vesper m)
        { s with vesper := { s.vesper with patCtr := (s.vesper.patCtr + 1) % 2 ^ 128 } })) := by
  split
  · next off => exact ⟨s, if_neg fun c => c.2.1 off, rfl⟩
  · next on => exact answers_settled (if_pos ⟨works, on, layer⟩) (.refl _)

theorem xtampSample_answers {s : State} (works : s.vesperWorks = true) (n : Nat) (high : Bool) (input : n < 4) :
    Answers (.xtampSample n high) s (if s.classOfGroup (4 + n) = 7 then (· = s) else
      let u := { s with vesper := { s.vesper with xtamp := s.vesper.xtamp.set n (some high) } }
      if s.vesper.xtamp.getD n none = some high then Quiet (sense (4 + n) (xtampAlarm s n high) u) else (· = u)) := by
  split
  · next off => exact ⟨s, if_neg fun c => c.2.1 off, rfl⟩
  · next on =>
    dsimp only
    split
    · next twice => exact answers_settled ((if_pos ⟨works, on, input⟩).trans (if_pos twice)) (.refl _)
    · next once => exact ⟨_, (if_pos ⟨works, on, input⟩).trans (if_neg once), rfl⟩

/-- Settles O52: each sample decides its group, and the group's class in force and the life-cycle state decide what follows. -/
theorem alarmsLatchAndLock : Obligations.AlarmsLatchAndLock := by
  unfold Obligations.AlarmsLatchAndLock
  refine ⟨fun s works => ⟨fun m layer => meshSample_answers works m layer, fun n high input => xtampSample_answers works n high input,
      fun dc => answers_settled (if_pos works) (.refl _), fun n mv armed out powered => answers_settled (if_pos ⟨works, armed, out, powered⟩) (.refl _),
      fun n supplies => answers_settled (if_pos ⟨works, supplies⟩) (.refl _), fun mv supplied => answers_settled (if_pos ⟨works, supplied⟩) (.refl _),
      fun p supplied => answers_settled (if_pos ⟨works, supplied⟩) (.refl _), fun ok => answers_settled (if_pos works) (.refl _)⟩,
    fun s mv battery => answers_settled (if_neg (by rw [battery]; exact Bool.false_ne_true)) (.refl _), ?_, ?_, ?_, ?_, ?_, ?_, ?_,
    fun s works ok late => xtalFail_answers works ok late, fun s works lost => xtalReturn_answers works lost⟩
  · intro s i g found fresh low high lc
    obtain ⟨u, t, head, ht, tail⟩ := senses_split found
    exact ⟨t, ht, alarm_locks head tail fresh low high lc⟩
  · intro s i g found fresh low high lc raises
    obtain ⟨u, t, head, ht, tail⟩ := senses_split found
    exact ⟨t, ht, alarm_raises head tail fresh low high lc raises⟩
  · intro s i g found fresh low high lc lesser
    obtain ⟨u, t, head, ht, tail⟩ := senses_split found
    exact ⟨t, ht, alarm_repeats head tail fresh low high lc lesser⟩
  · intro s i g found fresh low high lc
    obtain ⟨u, t, head, ht, tail⟩ := senses_split found
    exact ⟨t, ht, alarm_erases head tail fresh low high lc⟩
  · intro s i g found held low high
    obtain ⟨u, t, head, ht, tail⟩ := senses_split found
    exact ⟨t, ht, alarm_counts_repeat head tail held low high⟩
  · intro s i g found cls fresh
    obtain ⟨u, t, head, ht, tail⟩ := senses_split found
    exact ⟨t, ht, alarm_counts_only head tail cls fresh⟩
  · intro s i absent
    obtain ⟨t, ht, tail⟩ := findsNothing_trails absent
    have calm := tail.calm
    exact ⟨t, ht, tail.latch, calm.life, calm.jobs, calm.store, calm.mem, tail.alarms⟩

end Sys2Proof.Safety
end

section
/-!
PROOFS. Vesper's charger, cell, supplies, calendar and oscillators (R403 to R413, R30, R31).
-/

-- In turn: a proof that waits for others beside it takes a thread and its stack from the memory that the check allows.
set_option Elab.async false

namespace Sys2Proof.Safety

open Sys2Proof.Machine

/-! ## The charger's state machine (R403) -/

/-- A state without Vesper's cell, its records and what signals write. -/
def offCell (s : State) : State := still { s with vesper := { s.vesper with cell := {}, buf := [], lost := 0 } }

/-- `t` is `s` but for the cell, which is `c`, Vesper's records and signals. -/
structure Charged (c : Cell) (s t : State) : Prop where
  rest : offCell t = offCell s
  cell : t.vesper.cell = c

theorem Charged.trans {a b : Cell} {s t u : State} (x : Charged a s t) (y : Charged b t u) : Charged b s u :=
  ⟨y.rest.trans x.rest, y.cell⟩

theorem charged_modCell (h : Cell → Cell) (s : State) : Charged (h s.vesper.cell) s (modCell h s) := ⟨rfl, rfl⟩

theorem Charged.of_quiet {s t : State} (q : Quiet s t) : Charged s.vesper.cell s t :=
  ⟨(congrArg offCell q.1 :), congrArg Vesper.cell q.vesper⟩

theorem charged_vesperRecord (code level p0 p1 p2 p3 : Nat) (s : State) :
    Charged s.vesper.cell s (vesperRecord code level p0 p1 p2 p3 s) := by
  unfold vesperRecord
  dsimp only
  split
  · exact .of_quiet (quiet_acceptRecord _ s)
  · unfold pushBuffer
    split <;> exact ⟨rfl, rfl⟩

theorem charged_chargeTo (st : ChargeState) (s : State) : Charged { s.vesper.cell with st := st } s (chargeTo st s) := by
  have moved : Charged { s.vesper.cell with st := st } s (modCell (fun c => { c with st := st }) s) := charged_modCell (fun c => { c with st := st }) s
  unfold chargeTo
  dsimp only
  split
  · have noted := charged_vesperRecord 0x0705 0 s.vesper.cell.st.ctorIdx st.ctorIdx s.vesper.cell.vbat 0 (modCell (fun c => { c with st := st }) s)
    exact ⟨noted.rest.trans moved.rest, noted.cell⟩
  · exact moved

section
variable {c : Cell} {s t : State} (x : Charged c s t)
include x

theorem Charged.capNom : t.capNom = s.capNom := (congrArg State.capNom x.rest :)
theorem Charged.param (index sub d : Nat) : t.param index sub d = s.param index sub d := (congrArg (fun y : State => y.param index sub d) x.rest :)
theorem Charged.paramInt (index sub : Nat) (d : Int) : t.paramInt index sub d = s.paramInt index sub d :=
  (congrArg (fun y : State => y.paramInt index sub d) x.rest :)
theorem Charged.vCv (d : Int) : t.vCv d = s.vCv d := (congrArg (fun y : State => y.vCv d) x.rest :)
theorem Charged.calendar : t.vesper.calendar = s.vesper.calendar := (congrArg (fun y : State => y.vesper.calendar) x.rest :)
theorem Charged.latch : t.vesper.latch = s.vesper.latch := (congrArg (fun y : State => y.vesper.latch) x.rest :)
theorem Charged.window : t.vesper.window = s.vesper.window := (congrArg (fun y : State => y.vesper.window) x.rest :)
theorem Charged.life : t.life = s.life := (congrArg State.life x.rest :)
theorem Charged.mem : t.mem = s.mem := (congrArg State.mem x.rest :)
theorem Charged.store : t.store = s.store := (congrArg State.store x.rest :)
theorem Charged.jobs : t.jobs = s.jobs := (congrArg State.jobs x.rest :)
theorem Charged.custody : t.custody = s.custody := (congrArg State.custody x.rest :)

end

/-- The estimated capacity follows the charge delivered, the age and k. -/
theorem capEst_congr {s t : State} (nom : t.capNom = s.capNom) (charged : t.vesper.cell.charged = s.vesper.cell.charged)
    (aged : t.vesper.cell.aged = s.vesper.cell.aged) (k : t.vesper.cell.k = s.vesper.cell.k) : t.capEst = s.capEst := by
  unfold State.capEst fade Cell.chargedMah
  rw [nom, charged, aged, k]

/-- The safety timer ends a charge that has run too long. -/
def overTime (s u : State) : State :=
  if u.vesper.cell.st.on ∧ (s.vesper.calendar - u.vesper.cell.tStart) * (2 * s.param 0x4100 0x11 500) >
      (3 * s.capNom + 4 * s.param 0x4100 0x11 500) * 3600 * second then
    chargeTo .fault u
  else u

/-- A charge that goes on, without the time VBAT was found low. -/
def above (s : State) : State := modCell (fun c => { c with tPre := none }) s

theorem chargeRun_cc {s : State} {r : ChargerReading} (cc : s.vesper.cell.st = .cc) (high : 2500 ≤ r.vbatMv) :
    chargeRun r s = overTime s (if r.vbatMv ≥ s.vCv r.tempDc then chargeTo .cv (countCharge r.iUa (above s)) else countCharge r.iUa (above s)) := by
  unfold chargeRun
  rw [cc]
  dsimp only
  rw [if_neg (Nat.not_lt.mpr high), show (modCell (fun c => { c with tPre := none }) s).vesper.cell.st = .cc from cc]
  rfl

theorem chargeRun_cv {s : State} {r : ChargerReading} (cv : s.vesper.cell.st = .cv) (high : 2500 ≤ r.vbatMv) :
    let n := if r.iUa < s.param 0x4100 0x14 50 then s.vesper.cell.lowFor + 1 else 0
    let u := modCell (fun c => { c with lowFor := n }) (countCharge r.iUa (above s))
    chargeRun r s = overTime s (if n ≥ 60 then chargeDone u else u) := by
  intro n u
  unfold chargeRun
  rw [cv]
  dsimp only
  rw [if_neg (Nat.not_lt.mpr high), show (modCell (fun c => { c with tPre := none }) s).vesper.cell.st = .cv from cv]
  rfl

theorem chargeRun_done {s : State} {r : ChargerReading} (done : s.vesper.cell.st = .done) (high : 2500 ≤ r.vbatMv) :
    chargeRun r s = overTime s (if r.vbatMv + 80 < s.vCv r.tempDc then chargeCc (countCharge 0 (above s)) else countCharge 0 (above s)) := by
  unfold chargeRun
  rw [done]
  dsimp only
  rw [if_neg (Nat.not_lt.mpr high), show (modCell (fun c => { c with tPre := none }) s).vesper.cell.st = .done from done]
  rfl

theorem charged_chargeCc (s : State) : Charged { s.vesper.cell with
    st := .cc, tStart := s.vesper.calendar, lowFor := 0, socStart := some s.socPm, qIn := 0 } s (chargeCc s) :=
  (charged_modCell (fun c => { c with tStart := s.vesper.calendar, lowFor := 0, socStart := some s.socPm, qIn := 0 }) s).trans
    (charged_chargeTo .cc (modCell (fun c => { c with
      tStart := s.vesper.calendar, lowFor := 0, socStart := some s.socPm, qIn := 0 }) s))

/-- The count of a full cell, in µA·s (R404). -/
def fullCount (s : State) : Nat := s.capEst * 3600

/-- The count of a cell set to `n`, its charge over. -/
def countFull (n : Nat) (s : State) : State := modCell (fun c => { c with remaining := n, socStart := none }) s

theorem countFull_cell (n : Nat) (s : State) : (countFull n s).vesper.cell = { s.vesper.cell with remaining := n, socStart := none } := rfl

/-- The cell with k corrected after a charge that began at `soc` (R405). -/
def correctK (soc : Nat) (s : State) : State := modCell (fun c => { c with k := nextK s soc c.qIn }) s

/-- A deep enough charge corrects k. -/
def corrected (s : State) : State :=
  match s.vesper.cell.socStart with
  | some soc => if soc ≤ 400 then correctK soc s else s
  | none => s

theorem setK_keeps (k : Cell → Nat) (s : State) : (modCell (fun c => { c with k := k c }) s).vesper.cell.lowFor = s.vesper.cell.lowFor ∧
    (modCell (fun c => { c with k := k c }) s).vesper.cell.charged = s.vesper.cell.charged := ⟨rfl, rfl⟩

theorem corrected_keeps (s : State) : (corrected s).vesper.cell.lowFor = s.vesper.cell.lowFor ∧
    (corrected s).vesper.cell.charged = s.vesper.cell.charged := by
  unfold corrected correctK
  split
  · split
    · exact setK_keeps _ _
    · exact ⟨rfl, rfl⟩
  · exact ⟨rfl, rfl⟩

theorem chargeDone_eq (s : State) :
    chargeDone s = countFull (fullCount (chargeTo .done (corrected s))) (chargeTo .done (corrected s)) := rfl

theorem chargeDone_cell (s : State) : (chargeDone s).vesper.cell.st = .done ∧ (chargeDone s).vesper.cell.lowFor = s.vesper.cell.lowFor ∧
    (chargeDone s).vesper.cell.charged = s.vesper.cell.charged ∧ (chargeDone s).vesper.cell.remaining = (chargeDone s).capEst * 3600 := by
  obtain ⟨lowFor, charged⟩ := corrected_keeps s
  have cell := (charged_chargeTo .done (corrected s)).cell
  rw [chargeDone_eq]
  generalize corrected s = u at *
  have est (n : Nat) : (countFull n (chargeTo .done u)).capEst * 3600 = fullCount (chargeTo .done u) :=
    congrArg (· * 3600) (capEst_congr rfl rfl rfl rfl)
  rw [est]
  generalize fullCount (chargeTo .done u) = n
  rw [← lowFor, ← charged, countFull_cell, cell]
  exact ⟨rfl, rfl, rfl, rfl⟩

theorem st_chargeCc (s : State) : (chargeCc s).vesper.cell.st = .cc := by
  rw [(charged_chargeCc s).cell]

theorem chargeRun_starts {s : State} {r : ChargerReading} (idle : s.vesper.cell.st = .off ∨ s.vesper.cell.st = .tempHold) :
    chargeRun r s = chargeRun r (chargeCc s) := by
  have cc := st_chargeCc s
  unfold chargeRun
  dsimp only
  rw [cc]
  rcases idle with st | st <;> rw [st]

theorem chargeRun_deep {s : State} {r : ChargerReading} (off : s.vesper.cell.st ≠ .off) (hold : s.vesper.cell.st ≠ .tempHold)
    (low : r.vbatMv < 2500) :
    chargeRun r s =
      let u := countCharge r.iUa (modCell (fun c => { c with tPre := some (s.vesper.cell.tPre.getD s.vesper.calendar) }) s)
      if s.vesper.calendar - s.vesper.cell.tPre.getD s.vesper.calendar ≥ 36000 * second then chargeTo .fault u else u := by
  cases st : s.vesper.cell.st with
  | off => exact absurd st off
  | tempHold => exact absurd st hold
  | _ =>
    unfold chargeRun
    rw [st]
    dsimp only
    rw [if_pos low]

/-- Neither a charge nor its end. -/
theorem chargeRun_else {s : State} {r : ChargerReading} (st : s.vesper.cell.st = .fault ∨ s.vesper.cell.st = .service)
    (high : 2500 ≤ r.vbatMv) : chargeRun r s = overTime s (countCharge 0 (above s)) := by
  unfold chargeRun
  rcases st with st | st
  all_goals
    rw [st]
    dsimp only
    rw [if_neg (Nat.not_lt.mpr high), show (modCell (fun c => { c with tPre := none }) s).vesper.cell.st = _ from st]
    rfl

/-! ## What every step of the charger leaves -/

/-- `t` is `s` but for the cell's charge, Vesper's records and signals. -/
structure Keeps (s t : State) : Prop where
  rest : offCell t = offCell s
  temp : t.vesper.cell.temp = s.vesper.cell.temp
  vbat : t.vesper.cell.vbat = s.vesper.cell.vbat

theorem Keeps.refl (s : State) : Keeps s s := ⟨rfl, rfl, rfl⟩

theorem Keeps.trans {s t u : State} (a : Keeps s t) (b : Keeps t u) : Keeps s u :=
  ⟨b.rest.trans a.rest, b.temp.trans a.temp, b.vbat.trans a.vbat⟩

theorem Keeps.of_quiet {s t : State} (q : Quiet s t) : Keeps s t :=
  ⟨(congrArg offCell q.1 :), congrArg (fun v : Vesper => v.cell.temp) q.vesper, congrArg (fun v : Vesper => v.cell.vbat) q.vesper⟩

theorem keeps_modCell (h : Cell → Cell) (s : State) (temp : ∀ c, (h c).temp = c.temp := by exact fun _ => rfl)
    (vbat : ∀ c, (h c).vbat = c.vbat := by exact fun _ => rfl) : Keeps s (modCell h s) := ⟨rfl, temp _, vbat _⟩

theorem keeps_chargeTo (st : ChargeState) (s : State) : Keeps s (chargeTo st s) := by
  have moved := charged_chargeTo st s
  exact ⟨moved.rest, (congrArg Cell.temp moved.cell :), (congrArg Cell.vbat moved.cell :)⟩

theorem keeps_chargeCc (s : State) : Keeps s (chargeCc s) := (keeps_modCell _ s).trans (keeps_chargeTo _ _)

theorem keeps_countCharge (i : Nat) (s : State) : Keeps s (countCharge i s) := keeps_modCell _ s

theorem keeps_corrected (s : State) : Keeps s (corrected s) := by
  unfold corrected
  split
  · split
    · exact keeps_modCell _ s
    · exact .refl s
  · exact .refl s

theorem keeps_chargeDone (s : State) : Keeps s (chargeDone s) := by
  rw [chargeDone_eq]
  exact (keeps_corrected s).trans ((keeps_chargeTo _ _).trans (keeps_modCell _ _))

theorem keeps_overTime {s u : State} (k : Keeps s u) : Keeps s (overTime s u) := by
  unfold overTime
  split
  · exact k.trans (keeps_chargeTo _ _)
  · exact k

theorem keeps_counts (i : Nat) (s : State) : Keeps s (countCharge i (above s)) := (keeps_modCell _ s).trans (keeps_countCharge i _)

theorem keeps_chargeRun_on {s : State} (r : ChargerReading) (off : s.vesper.cell.st ≠ .off) (hold : s.vesper.cell.st ≠ .tempHold) :
    Keeps s (chargeRun r s) := by
  by_cases low : r.vbatMv < 2500
  · rw [chargeRun_deep off hold low]
    dsimp only
    have counted := (keeps_modCell (fun c => { c with tPre := some (s.vesper.cell.tPre.getD s.vesper.calendar) }) s).trans (keeps_countCharge r.iUa _)
    split
    · exact counted.trans (keeps_chargeTo _ _)
    · exact counted
  · have high := Nat.not_lt.mp low
    cases st : s.vesper.cell.st with
    | off => exact absurd st off
    | tempHold => exact absurd st hold
    | cc =>
      rw [chargeRun_cc st high]
      refine keeps_overTime ?_
      split
      · exact (keeps_counts _ _).trans (keeps_chargeTo _ _)
      · exact keeps_counts _ _
    | cv =>
      have run := chargeRun_cv (r := r) st high
      dsimp only at run
      rw [run]
      refine keeps_overTime ?_
      generalize (if r.iUa < s.param 0x4100 0x14 50 then s.vesper.cell.lowFor + 1 else 0) = n
      have counted := (keeps_counts r.iUa s).trans (keeps_modCell (fun c => { c with lowFor := n }) _)
      split
      · exact counted.trans (keeps_chargeDone _)
      · exact counted
    | done =>
      rw [chargeRun_done st high]
      refine keeps_overTime ?_
      split
      · exact (keeps_counts _ _).trans (keeps_chargeCc _)
      · exact keeps_counts _ _
    | fault =>
      rw [chargeRun_else (.inl st) high]
      exact keeps_overTime (keeps_counts _ _)
    | service =>
      rw [chargeRun_else (.inr st) high]
      exact keeps_overTime (keeps_counts _ _)

theorem keeps_chargeRun (r : ChargerReading) (s : State) : Keeps s (chargeRun r s) := by
  by_cases idle : s.vesper.cell.st = .off ∨ s.vesper.cell.st = .tempHold
  · rw [chargeRun_starts idle]
    have cc := st_chargeCc s
    exact (keeps_chargeCc s).trans (keeps_chargeRun_on r (by rw [cc]; decide) (by rw [cc]; decide))
  · obtain ⟨off, hold⟩ := not_or.mp idle
    exact keeps_chargeRun_on r off hold

/-! ## A step of the charger -/

/-- The reading is noted. -/
def noteReading (r : ChargerReading) (s : State) : State :=
  modCell (fun c => { c with temp := r.tempDc, tempSum := c.tempSum + r.tempDc, tempCount := c.tempCount + 1 }) (noteVbat r.vbatMv s)

theorem exec_chargerStep {s : State} (r : ChargerReading) (supplied : s.vesper.vchg = true) (works : s.vesperWorks = true) :
    exec (.chargerStep r) s = settled s (
      if s.vesper.window.isSome then chargeTo .service (countCharge 0 (noteReading r s))
      else if ntcFault r.tempDc then chargeTo .fault (countCharge 0 (noteReading r s))
      else if !s.vesper.cell.present then chargeTo .off (countCharge 0 (noteReading r s))
      else if s.vesper.cell.st = .fault then countCharge 0 (noteReading r s)
      else if r.tempDc < 10 * s.paramInt 0x4100 0x15 0 ∨ r.tempDc > 10 * s.paramInt 0x4100 0x16 45 then
        chargeTo .tempHold (countCharge 0 (noteReading r s))
      else chargeRun r (noteReading r s)) := if_pos ⟨supplied, works⟩

/-- A charge goes on or starts. -/
theorem exec_chargerStep_runs {s : State} {r : ChargerReading} (may : MayCharge s r) (st : s.vesper.cell.st ≠ .fault) :
    exec (.chargerStep r) s = settled s (chargeRun r (noteReading r s)) := by
  obtain ⟨supplied, works, window, ntc, present, range⟩ := may
  rw [exec_chargerStep r supplied works, if_neg (by rw [window]; exact Bool.false_ne_true), if_neg (by rw [ntc]; exact Bool.false_ne_true),
    if_neg (by rw [present]; decide), if_neg st, if_neg range]

/-- The last step of a charge: the cell it leaves stays through the step's end. -/
theorem answers_cell {i : Instr} {s v : State} {P : Cell → Prop} (is : exec i s = settled s v) (h : P v.vesper.cell) :
    Answers i s fun t => P t.vesper.cell := by
  refine ⟨_, is, ?_⟩
  show P (settle s v).vesper.cell
  rw [(quiet_settle s v).vesper]
  exact h

theorem overTime_within {s u : State} (start : u.vesper.cell.tStart = s.vesper.cell.tStart)
    (within : (s.vesper.calendar - s.vesper.cell.tStart) * (2 * s.param 0x4100 0x11 500) ≤
      (3 * s.capNom + 4 * s.param 0x4100 0x11 500) * 3600 * second) : overTime s u = u := by
  unfold overTime
  rw [if_neg]
  rw [start]
  exact fun h => Nat.not_lt.mpr within h.2

theorem overTime_off {s u : State} (off : u.vesper.cell.st.on = false) : overTime s u = u :=
  if_neg fun h => by rw [off] at h; exact Bool.false_ne_true h.1

/-- A charge that has just begun has not run out. -/
theorem overTime_new {s u : State} (start : u.vesper.cell.tStart = s.vesper.calendar) : overTime s u = u := by
  unfold overTime
  rw [if_neg]
  rw [start, Nat.sub_self, Nat.zero_mul]
  exact fun h => Nat.not_lt_zero _ h.2

theorem capEst_noteReading (r : ChargerReading) (s : State) : (noteReading r s).capEst = s.capEst := rfl

/-- A reading while the charger is in CC. -/
theorem charger_cc {s : State} {r : ChargerReading} (may : MayCharge s r) (cc : s.vesper.cell.st = .cc) (high : 2500 ≤ r.vbatMv)
    (within : TimerRuns s) :
    Answers (.chargerStep r) s fun t => t.vesper.cell.st = (if r.vbatMv ≥ s.vCv r.tempDc then .cv else .cc) ∧
      t.vesper.cell.charged = s.vesper.cell.charged + r.iUa ∧ t.vesper.cell.iMeas = r.iUa ∧
      t.vesper.cell.remaining = min (s.vesper.cell.remaining + r.iUa) (s.capEst * 3600) := by
  have is := exec_chargerStep_runs may (by rw [cc]; decide)
  rw [chargeRun_cc (s := noteReading r s) cc high] at is
  refine answers_cell (P := fun c => c.st = (if r.vbatMv ≥ s.vCv r.tempDc then .cv else .cc) ∧ c.charged = s.vesper.cell.charged + r.iUa ∧
    c.iMeas = r.iUa ∧ c.remaining = min (s.vesper.cell.remaining + r.iUa) (s.capEst * 3600)) is ?_
  have vcv : (noteReading r s).vCv r.tempDc = s.vCv r.tempDc := rfl
  have counted : min (s.vesper.cell.remaining + r.iUa) ((above (noteReading r s)).capEst * 3600) =
    min (s.vesper.cell.remaining + r.iUa) (s.capEst * 3600) := rfl
  rw [vcv]
  split
  · have cell := (charged_chargeTo .cv (countCharge r.iUa (above (noteReading r s)))).cell
    rw [overTime_within (s := noteReading r s) (by rw [cell]; rfl) within, cell]
    exact ⟨rfl, rfl, rfl, counted⟩
  · rw [overTime_within (s := noteReading r s) (u := countCharge r.iUa (above (noteReading r s))) rfl within]
    exact ⟨cc, rfl, rfl, counted⟩

theorem charger_starts {s : State} {r : ChargerReading} (may : MayCharge s r)
    (idle : s.vesper.cell.st = .off ∨ s.vesper.cell.st = .tempHold) (high : 2500 ≤ r.vbatMv) :
    Answers (.chargerStep r) s fun t => t.vesper.cell.st = (if r.vbatMv ≥ s.vCv r.tempDc then .cv else .cc) ∧
      t.vesper.cell.charged = s.vesper.cell.charged + r.iUa ∧ t.vesper.cell.tStart = s.vesper.calendar := by
  have is := exec_chargerStep_runs may (by rcases idle with st | st <;> rw [st] <;> decide)
  rw [chargeRun_starts (s := noteReading r s) idle, chargeRun_cc (st_chargeCc _) high] at is
  refine answers_cell (P := fun c => c.st = (if r.vbatMv ≥ s.vCv r.tempDc then .cv else .cc) ∧ c.charged = s.vesper.cell.charged + r.iUa ∧
    c.tStart = s.vesper.calendar) is ?_
  have begun := charged_chargeCc (noteReading r s)
  have vcv : (chargeCc (noteReading r s)).vCv r.tempDc = s.vCv r.tempDc := begun.vCv _
  have calendar : (chargeCc (noteReading r s)).vesper.calendar = s.vesper.calendar := begun.calendar
  have start : (chargeCc (noteReading r s)).vesper.cell.tStart = s.vesper.calendar := (congrArg Cell.tStart begun.cell :)
  have charged : (chargeCc (noteReading r s)).vesper.cell.charged = s.vesper.cell.charged := (congrArg Cell.charged begun.cell :)
  have st := st_chargeCc (noteReading r s)
  rw [vcv]
  generalize chargeCc (noteReading r s) = w at *
  split
  · have cell := (charged_chargeTo .cv (countCharge r.iUa (above w))).cell
    rw [overTime_new (by rw [cell, calendar]; exact start), cell]
    exact ⟨rfl, congrArg (· + r.iUa) charged, start⟩
  · rw [overTime_new (s := w) (u := countCharge r.iUa (above w)) (start.trans calendar.symm)]
    exact ⟨st, congrArg (· + r.iUa) charged, start⟩

theorem charger_cv {s : State} {r : ChargerReading} (may : MayCharge s r) (cv : s.vesper.cell.st = .cv) (high : 2500 ≤ r.vbatMv)
    (within : TimerRuns s) :
    let n := if r.iUa < s.param 0x4100 0x14 50 then s.vesper.cell.lowFor + 1 else 0
    Answers (.chargerStep r) s fun t => t.vesper.cell.st = (if 60 ≤ n then .done else .cv) ∧ t.vesper.cell.lowFor = n ∧
      t.vesper.cell.charged = s.vesper.cell.charged + r.iUa ∧ (60 ≤ n → t.vesper.cell.remaining = t.capEst * 3600) := by
  intro n
  have is := exec_chargerStep_runs may (by rw [cv]; decide)
  have run := chargeRun_cv (s := noteReading r s) (r := r) cv high
  dsimp only at run
  rw [run] at is
  have low : (if r.iUa < (noteReading r s).param 0x4100 0x14 50 then (noteReading r s).vesper.cell.lowFor + 1 else 0) = n := rfl
  rw [low] at is
  generalize hw : modCell (fun c => { c with lowFor := n }) (countCharge r.iUa (above (noteReading r s))) = w at is
  have st : w.vesper.cell.st = .cv := hw ▸ cv
  have lowFor : w.vesper.cell.lowFor = n := hw ▸ rfl
  have start : w.vesper.cell.tStart = (noteReading r s).vesper.cell.tStart := hw ▸ rfl
  have charged : w.vesper.cell.charged = s.vesper.cell.charged + r.iUa := hw ▸ rfl
  by_cases deep : 60 ≤ n
  · rw [if_pos deep]
    rw [if_pos (show n ≥ 60 from deep), overTime_off (by rw [(chargeDone_cell w).1]; rfl)] at is
    obtain ⟨done, kept, same, full⟩ := chargeDone_cell w
    have calm := quiet_settle s (chargeDone w)
    refine ⟨_, is, ?_, ?_, ?_, fun _ => ?_⟩
    · rw [calm.vesper, done]
    · rw [calm.vesper, kept, lowFor]
    · rw [calm.vesper, same, charged]
    · rw [calm.vesper, full]
      exact congrArg (· * 3600) (congrArg State.capEst calm.1 :).symm
  · rw [if_neg deep]
    rw [if_neg (show ¬ n ≥ 60 from deep), overTime_within start within] at is
    obtain ⟨t, ht, same, count, delivered⟩ := answers_cell (P := fun c => c.st = .cv ∧ c.lowFor = n ∧
      c.charged = s.vesper.cell.charged + r.iUa) is ⟨st, lowFor, charged⟩
    exact ⟨t, ht, same, count, delivered, fun h => absurd h deep⟩

theorem charger_done {s : State} {r : ChargerReading} (may : MayCharge s r) (done : s.vesper.cell.st = .done) (high : 2500 ≤ r.vbatMv) :
    Answers (.chargerStep r) s fun t => t.vesper.cell.st = (if r.vbatMv + 80 < s.vCv r.tempDc then .cc else .done) ∧
      t.vesper.cell.charged = s.vesper.cell.charged := by
  have is := exec_chargerStep_runs may (by rw [done]; decide)
  rw [chargeRun_done (s := noteReading r s) done high] at is
  refine answers_cell (P := fun c => c.st = (if r.vbatMv + 80 < s.vCv r.tempDc then .cc else .done) ∧ c.charged = s.vesper.cell.charged) is ?_
  have vcv : (noteReading r s).vCv r.tempDc = s.vCv r.tempDc := rfl
  rw [vcv]
  split
  · have begun := charged_chargeCc (countCharge 0 (above (noteReading r s)))
    rw [overTime_new (s := noteReading r s) (by rw [begun.cell]; rfl), begun.cell]
    exact ⟨rfl, rfl⟩
  · rw [overTime_off (s := noteReading r s) (u := countCharge 0 (above (noteReading r s))) (congrArg ChargeState.on done)]
    exact ⟨done, rfl⟩

theorem charger_deep {s : State} {r : ChargerReading} (may : MayCharge s r) (on : s.vesper.cell.st = .cc ∨ s.vesper.cell.st = .cv)
    (low : r.vbatMv < 2500) :
    Answers (.chargerStep r) s fun t => t.vesper.cell.charged = s.vesper.cell.charged + r.iUa ∧
      t.vesper.cell.st = (if s.vesper.calendar - s.vesper.cell.tPre.getD s.vesper.calendar ≥ 36000 * second then .fault
        else s.vesper.cell.st) := by
  have is := exec_chargerStep_runs may (by rcases on with st | st <;> rw [st] <;> decide)
  rw [chargeRun_deep (s := noteReading r s) (by rcases on with st | st <;> exact fun h => ChargeState.noConfusion (st.symm.trans h))
    (by rcases on with st | st <;> exact fun h => ChargeState.noConfusion (st.symm.trans h)) low] at is
  refine answers_cell (P := fun c => c.charged = s.vesper.cell.charged + r.iUa ∧
    c.st = (if s.vesper.calendar - s.vesper.cell.tPre.getD s.vesper.calendar ≥ 36000 * second then .fault else s.vesper.cell.st)) is ?_
  dsimp only
  have age : (noteReading r s).vesper.calendar - (noteReading r s).vesper.cell.tPre.getD (noteReading r s).vesper.calendar =
    s.vesper.calendar - s.vesper.cell.tPre.getD s.vesper.calendar := rfl
  rw [age]
  split
  · rw [(charged_chargeTo .fault _).cell]
    exact ⟨rfl, rfl⟩
  · exact ⟨rfl, rfl⟩

theorem charger_late {s : State} {r : ChargerReading} (may : MayCharge s r) (cc : s.vesper.cell.st = .cc) (high : 2500 ≤ r.vbatMv)
    (late : ¬ TimerRuns s) : Answers (.chargerStep r) s fun t => t.vesper.cell.st = .fault := by
  have is := exec_chargerStep_runs may (by rw [cc]; decide)
  rw [chargeRun_cc (s := noteReading r s) cc high] at is
  refine answers_cell (P := fun c => c.st = .fault) is ?_
  have ends {u : State} (on : u.vesper.cell.st.on = true) (start : u.vesper.cell.tStart = s.vesper.cell.tStart) :
      (overTime (noteReading r s) u).vesper.cell.st = .fault := by
    unfold overTime
    rw [if_pos ⟨on, by rw [start]; exact Nat.not_le.mp late⟩, (charged_chargeTo .fault u).cell]
  split
  · have cell := (charged_chargeTo .cv (countCharge r.iUa (above (noteReading r s)))).cell
    exact ends (by rw [cell]; rfl) (by rw [cell]; rfl)
  · exact ends (congrArg ChargeState.on cc) rfl

theorem charger_stops {s : State} (r : ChargerReading) (supplied : s.vesper.vchg = true) (works : s.vesperWorks = true) :
    Answers (.chargerStep r) s fun t => t.life = s.life ∧ t.mem = s.mem ∧ t.store = s.store ∧ t.jobs = s.jobs ∧
      t.vesper.cell.temp = r.tempDc ∧ t.vesper.cell.vbat = r.vbatMv ∧ t.vesper.latch = s.vesper.latch ∧
      (s.vesper.window ≠ none → t.vesper.cell.st = .service ∧ t.vesper.cell.charged = s.vesper.cell.charged) ∧
      (s.vesper.window = none → ntcFault r.tempDc = true →
        t.vesper.cell.st = .fault ∧ t.vesper.cell.charged = s.vesper.cell.charged) ∧
      (s.vesper.window = none → ntcFault r.tempDc = false → s.vesper.cell.present = false → t.vesper.cell.st = .off) ∧
      (s.vesper.window = none → ntcFault r.tempDc = false → s.vesper.cell.present = true → s.vesper.cell.st = .fault →
        t.vesper.cell.st = .fault ∧ t.vesper.cell.charged = s.vesper.cell.charged) ∧
      (s.vesper.window = none → ntcFault r.tempDc = false → s.vesper.cell.present = true → s.vesper.cell.st ≠ .fault →
        (r.tempDc < 10 * s.paramInt 0x4100 0x15 0 ∨ r.tempDc > 10 * s.paramInt 0x4100 0x16 45) →
        t.vesper.cell.st = .tempHold ∧ t.vesper.cell.charged = s.vesper.cell.charged) := by
  have is := exec_chargerStep r supplied works
  have idle (st : ChargeState) : let t := settle s (chargeTo st (countCharge 0 (noteReading r s)))
      Keeps (noteReading r s) t ∧ t.vesper.cell.st = st ∧ t.vesper.cell.charged = s.vesper.cell.charged := by
    have calm := quiet_settle s (chargeTo st (countCharge 0 (noteReading r s)))
    have moved := charged_chargeTo st (countCharge 0 (noteReading r s))
    have kept := (keeps_countCharge 0 (noteReading r s)).trans (keeps_chargeTo st _)
    refine ⟨kept.trans (.of_quiet calm), ?_, ?_⟩
    · rw [calm.vesper, moved.cell]
    · rw [calm.vesper, moved.cell]
      rfl
  have rest {t : State} (k : Keeps (noteReading r s) t) : t.life = s.life ∧ t.mem = s.mem ∧ t.store = s.store ∧ t.jobs = s.jobs ∧
      t.vesper.cell.temp = r.tempDc ∧ t.vesper.cell.vbat = r.vbatMv ∧ t.vesper.latch = s.vesper.latch :=
    ⟨(congrArg State.life k.rest :), (congrArg State.mem k.rest :), (congrArg State.store k.rest :), (congrArg State.jobs k.rest :), k.temp,
      k.vbat, (congrArg (fun x : State => x.vesper.latch) k.rest :)⟩
  cases window : s.vesper.window with
  | some w =>
    rw [if_pos (by rw [window]; rfl)] at is
    obtain ⟨kept, st, charged⟩ := idle .service
    obtain ⟨life, mem, store, jobs, temp, vbat, latch⟩ := rest kept
    exact ⟨_, is, life, mem, store, jobs, temp, vbat, latch, fun _ => ⟨st, charged⟩, nofun, nofun, nofun, nofun⟩
  | none =>
    rw [if_neg (by rw [window]; exact Bool.false_ne_true)] at is
    cases ntc : ntcFault r.tempDc with
    | true =>
      rw [if_pos ntc] at is
      obtain ⟨kept, st, charged⟩ := idle .fault
      obtain ⟨life, mem, store, jobs, temp, vbat, latch⟩ := rest kept
      exact ⟨_, is, life, mem, store, jobs, temp, vbat, latch, fun h => absurd rfl h, fun _ _ => ⟨st, charged⟩, nofun, nofun, nofun⟩
    | false =>
      rw [if_neg (by rw [ntc]; exact Bool.false_ne_true)] at is
      cases present : s.vesper.cell.present with
      | false =>
        rw [if_pos (by rw [present]; rfl)] at is
        obtain ⟨kept, st, -⟩ := idle .off
        obtain ⟨life, mem, store, jobs, temp, vbat, latch⟩ := rest kept
        exact ⟨_, is, life, mem, store, jobs, temp, vbat, latch, fun h => absurd rfl h, nofun, fun _ _ _ => st, nofun, nofun⟩
      | true =>
        rw [if_neg (by rw [present]; decide)] at is
        by_cases fault : s.vesper.cell.st = .fault
        · rw [if_pos fault] at is
          have calm := quiet_settle s (countCharge 0 (noteReading r s))
          obtain ⟨life, mem, store, jobs, temp, vbat, latch⟩ := rest ((keeps_countCharge 0 (noteReading r s)).trans (.of_quiet calm))
          exact ⟨_, is, life, mem, store, jobs, temp, vbat, latch, fun h => absurd rfl h, nofun, nofun,
            fun _ _ _ _ => ⟨by rw [calm.vesper]; exact fault, by rw [calm.vesper]; rfl⟩, fun _ _ _ h => absurd fault h⟩
        · rw [if_neg fault] at is
          by_cases range : r.tempDc < 10 * s.paramInt 0x4100 0x15 0 ∨ r.tempDc > 10 * s.paramInt 0x4100 0x16 45
          · rw [if_pos range] at is
            obtain ⟨kept, st, charged⟩ := idle .tempHold
            obtain ⟨life, mem, store, jobs, temp, vbat, latch⟩ := rest kept
            exact ⟨_, is, life, mem, store, jobs, temp, vbat, latch, fun h => absurd rfl h, nofun, nofun, fun _ _ _ h => absurd h fault,
              fun _ _ _ _ _ => ⟨st, charged⟩⟩
          · rw [if_neg range] at is
            obtain ⟨life, mem, store, jobs, temp, vbat, latch⟩ := rest ((keeps_chargeRun r (noteReading r s)).trans (.of_quiet (quiet_settle s _)))
            exact ⟨_, is, life, mem, store, jobs, temp, vbat, latch, fun h => absurd rfl h, nofun, nofun, fun _ _ _ h => absurd h fault,
              fun _ _ _ _ h => absurd h range⟩

/-! ## Sampling and ageing (R405, R408) -/

theorem adaptiveSampling_answers {s : State} (works : s.vesperWorks = true) :
    Answers .adaptiveSamplingUpdate s fun t =>
      (s.vesper.vchg = true → t = { s with vesper := { s.vesper with factor := 1 } }) ∧
      (s.vesper.vchg = false → t.vesper.factor = factorOf t.socPm (s.param 0x4100 0x31 4) ∧
        t.vesper.cell.remaining ≤ s.vesper.cell.remaining ∧ t = { s with vesper := t.vesper, free := s.free + 1 }) := by
  cases vchg : s.vesper.vchg with
  | true => exact ⟨_, if_pos vchg, fun _ => rfl, nofun⟩
  | false =>
    exact ⟨_, (if_neg (by rw [vchg]; exact Bool.false_ne_true)).trans (if_pos works), nofun, fun _ => ⟨rfl, Nat.sub_le _ _, rfl⟩⟩

/-- A cell after an hour, its ageing, mean temperature and capacity given. -/
theorem hour_leaves (age : Nat) (mean : Int) (capacity : List Nat) (s : State) :
    let t := modCell (fun c => { c with capacity := capacity })
      (modCell (fun c => { c with aged := c.aged + age, hours := (mean :: c.hours).take 720, tempSum := 0, tempCount := 0 }) s)
    t.vesper.cell.aged = s.vesper.cell.aged + age ∧ t.vesper.cell.hours.length = min (s.vesper.cell.hours.length + 1) 720 ∧
      t.vesper.cell.tempCount = 0 ∧ t = { s with vesper := { s.vesper with cell := t.vesper.cell } } :=
  ⟨rfl, List.length_take.trans (Nat.min_comm _ _), rfl, rfl⟩

theorem ageing_answers {s : State} (works : s.vesperWorks = true) :
    Answers .ageingUpdate s fun t =>
      t.vesper.cell.aged = s.vesper.cell.aged + hourAge (if s.vesper.vchg then
        (if s.vesper.cell.tempCount = 0 then s.vesper.cell.temp else s.vesper.cell.tempSum / (s.vesper.cell.tempCount : Int))
        else s.vesper.dieTemp) ∧
      t.vesper.cell.hours.length = min (s.vesper.cell.hours.length + 1) 720 ∧ t.vesper.cell.tempCount = 0 ∧
      t = { s with vesper := { s.vesper with cell := t.vesper.cell } } :=
  ⟨_, if_pos works, hour_leaves _ _ _ s⟩

/-! ## The cell service window (R239, R409) -/

/-- The ceremony whose continuation window the service window was closes with it. -/
def serviceCloses (s : State) : State :=
  match s.custody.cer with
  | some c => if c.action = 0x41 ∧ c.stage = .window then closeCeremony 3 { status := Status.ok } s else s
  | none => s

theorem serviceCloses_leaves (s : State) : CerFrame s (serviceCloses s) ∧
    ∀ c, s.custody.cer = some c → c.action = Act.cellService → c.stage = .window → (serviceCloses s).custody.cer = none := by
  unfold serviceCloses
  split
  · next c cer =>
    split
    · obtain ⟨custody, frame⟩ := closed_frame (offPort_answerCaller _ _ _) (quiet_closeCeremony cer 3 { status := Status.ok })
      exact ⟨frame, fun _ _ _ _ => (congrArg Custody.cer custody :)⟩
    · next other =>
      refine ⟨⟨rfl, rfl, rfl, rfl, rfl, rfl, rfl, rfl⟩, fun d is action stage => ?_⟩
      obtain rfl := Option.some.inj (cer.symm.trans is)
      exact absurd ⟨action, stage⟩ other
  · next none => exact ⟨⟨rfl, rfl, rfl, rfl, rfl, rfl, rfl, rfl⟩, fun c is => nomatch none.symm.trans is⟩

theorem exec_serviceWindowClose {s : State} {w : SvcWindow} {why : WindowEnd} (mv : Nat) (present : Bool)
    (window : s.vesper.window = some w) (due : windowOver s w why = true) :
    exec (.serviceWindowClose why mv present) s =
      if why = .powerLoss then settled s (endWindow (serviceCloses s))
      else settled s (windowChecks present mv (w.low || decide (mv < 1500))
        (noteVbat mv (modCell (fun c => { c with present := present }) (endWindow (serviceCloses s))))) := by
  show execServiceWindowClose why mv present s = _
  unfold execServiceWindowClose
  rw [window]
  exact if_pos due

/-- The window is over: the charger is OFF, and what the ceremony's end leaves stays. -/
structure WindowEnded (s t : State) : Prop where
  window : t.vesper.window = none
  cell : t.vesper.cell = { s.vesper.cell with st := .off }
  calendar : t.vesper.calendar = s.vesper.calendar
  life : t.life = s.life
  store : t.store = s.store
  mem : t.mem = s.mem
  closed : ∀ c, s.custody.cer = some c → c.action = Act.cellService → c.stage = .window → t.custody.cer = none
  low : t.vbatLow = s.vbatLow

theorem windowEnded (s : State) : WindowEnded s (endWindow (serviceCloses s)) := by
  obtain ⟨⟨mem, store, life, -, -, force, -, vesper⟩, closed⟩ := serviceCloses_leaves s
  have ended := charged_chargeTo .off (modVesper (fun v => { v with window := none }) (serviceCloses s))
  refine ⟨ended.window, ended.cell.trans ?_, ended.calendar.trans ?_, ended.life.trans life, ended.store.trans store, ended.mem.trans mem,
    fun c is action stage => (congrArg Custody.cer ended.custody).trans (closed c is action stage), (ended.param _ _ _).trans ?_⟩
  · rw [← vesper]
    rfl
  · rw [← vesper]
    rfl
  · unfold State.param
    rw [show (modVesper (fun v => { v with window := none }) (serviceCloses s)).dict.force = s.dict.force from force]
    rfl

theorem serviceWindow_powerLoss {s : State} {w : SvcWindow} (mv : Nat) (present : Bool) (window : s.vesper.window = some w)
    (lost : s.vesper.vchg = false) :
    Answers (.serviceWindowClose .powerLoss mv present) s fun t => t.vesper.window = none ∧ t.vesper.cell.st = .off ∧
      t.vesper.cell.installed = s.vesper.cell.installed ∧ t.life = s.life ∧ t.store = s.store ∧ t.mem = s.mem := by
  have is := exec_serviceWindowClose (why := .powerLoss) mv present window (by unfold windowOver; rw [lost]; rfl)
  rw [if_pos rfl] at is
  have ended := windowEnded s
  have calm := quiet_settle s (endWindow (serviceCloses s))
  refine ⟨_, is, ?_, ?_, ?_, calm.life.trans ended.life, calm.store.trans ended.store, calm.mem.trans ended.mem⟩
  · rw [calm.vesper, ended.window]
  · rw [calm.vesper, ended.cell]
  · rw [calm.vesper, ended.cell]

/-- A new cell: what its close keeps, and what it sets. -/
theorem newCell_leaves (s : State) : (newCell s).vesper.window = s.vesper.window ∧ (newCell s).custody = s.custody ∧
    (newCell s).life = s.life ∧ (newCell s).store = s.store ∧ (newCell s).mem = s.mem ∧
    (newCell s).vesper.cell.installed = s.vesper.calendar ∧ (newCell s).vesper.cell.charged = 0 ∧ (newCell s).vesper.cell.st = .cc := by
  generalize hu : drewFree (modCell (fun c => { c with
    installed := s.vesper.calendar, charged := 0, aged := 0, k := 1000000000
    remaining := Config.freeNat s.free % (s.capNom + 1) * 3600, hours := [], capacity := [] }) s) = u
  have is : newCell s = chargeCc (vesperRecord 0x0706 0 s.vesper.cell.vbat (Config.freeNat s.free % (s.capNom + 1)) (s := u)) := by
    rw [← hu]
    rfl
  have noted := charged_vesperRecord 0x0706 0 s.vesper.cell.vbat (Config.freeNat s.free % (s.capNom + 1)) 0 0 u
  have begun := charged_chargeCc (vesperRecord 0x0706 0 s.vesper.cell.vbat (Config.freeNat s.free % (s.capNom + 1)) (s := u))
  have all := noted.trans begun
  have kept : u.vesper.window = s.vesper.window ∧ u.custody = s.custody ∧ u.life = s.life ∧ u.store = s.store ∧ u.mem = s.mem ∧
      u.vesper.cell.installed = s.vesper.calendar ∧ u.vesper.cell.charged = 0 := by
    rw [← hu]
    exact ⟨rfl, rfl, rfl, rfl, rfl, rfl, rfl⟩
  obtain ⟨window, custody, life, store, mem, installed, charged⟩ := kept
  rw [is]
  refine ⟨all.window.trans window, all.custody.trans custody, all.life.trans life, all.store.trans store, all.mem.trans mem, ?_, ?_, ?_⟩
  · rw [begun.cell, noted.cell]
    exact installed
  · rw [begun.cell, noted.cell]
    exact charged
  · rw [begun.cell]

/-- The groups decided when a window closes, and the charger's fault. -/
def windowSensed (present ok2 ok3 : Bool) (s : State) : State :=
  if ok3 then sense 17 (!present) (sense 15 (!ok2) s) else chargeTo .fault (sense 17 (!present) (sense 15 (!ok2) s))

theorem windowChecks_eq (present : Bool) (mv : Nat) (low : Bool) (s : State) :
    let ok2 := decide (mv ≥ s.vbatLow)
    let ok3 := decide (-400 ≤ s.vesper.cell.temp) && decide (s.vesper.cell.temp ≤ 850)
    windowChecks present mv low s =
      if present && ok2 && ok3 && low then newCell (windowSensed present ok2 ok3 s) else windowSensed present ok2 ok3 s := rfl

theorem windowSensed_keeps (present ok2 ok3 : Bool) (s : State) : (windowSensed present ok2 ok3 s).vesper.window = s.vesper.window ∧
    (s.custody.cer = none → (windowSensed present ok2 ok3 s).custody.cer = none) ∧
    (windowSensed present ok2 ok3 s).vesper.cell.installed = s.vesper.cell.installed ∧
    (windowSensed present ok2 ok3 s).vesper.cell.charged = s.vesper.cell.charged := by
  have held := (holdsCell_sense 15 (!ok2) s).trans (holdsCell_sense 17 (!present) _)
  unfold windowSensed
  split
  · exact ⟨held.window, held.closed, by rw [held.cell], by rw [held.cell]⟩
  · have failed := charged_chargeTo .fault (sense 17 (!present) (sense 15 (!ok2) s))
    exact ⟨failed.window.trans held.window, fun h => (congrArg Custody.cer failed.custody).trans (held.closed h),
      by rw [failed.cell, held.cell], by rw [failed.cell, held.cell]⟩

theorem serviceWindow_closes {s : State} {w : SvcWindow} {why : WindowEnd} (mv : Nat) (present : Bool) (window : s.vesper.window = some w)
    (due : windowOver s w why = true) :
    Answers (.serviceWindowClose why mv present) s fun t => t.vesper.window = none ∧
      (∀ c, s.custody.cer = some c → c.action = Act.cellService → c.stage = .window → t.custody.cer = none) ∧
      ((why = .powerLoss ∨ present = false ∨ mv < s.vbatLow ∨ s.vesper.cell.temp < -400 ∨ 850 < s.vesper.cell.temp) →
        t.vesper.cell.installed = s.vesper.cell.installed ∧ t.vesper.cell.charged = s.vesper.cell.charged) := by
  have is := exec_serviceWindowClose mv present window due
  have ended := windowEnded s
  by_cases power : why = .powerLoss
  · rw [if_pos power] at is
    have calm := quiet_settle s (endWindow (serviceCloses s))
    refine ⟨_, is, by rw [calm.vesper, ended.window], fun c cer action stage => ?_, fun _ => ⟨by rw [calm.vesper, ended.cell], by rw [calm.vesper, ended.cell]⟩⟩
    rw [calm.custody, ended.closed c cer action stage]
  · rw [if_neg power, windowChecks_eq] at is
    generalize hu : noteVbat mv (modCell (fun c => { c with present := present }) (endWindow (serviceCloses s))) = u at is
    have open_ : u.vesper.window = none := by
      rw [← hu]
      exact congrArg (Option.map fun w : SvcWindow => { w with low := w.low || decide (mv < 1500) }) ended.window
    have cer : u.custody = (endWindow (serviceCloses s)).custody := by rw [← hu]; rfl
    have cell : u.vesper.cell.installed = s.vesper.cell.installed ∧ u.vesper.cell.charged = s.vesper.cell.charged ∧
        u.vesper.cell.temp = s.vesper.cell.temp := by
      rw [← hu]
      exact ⟨(congrArg Cell.installed ended.cell :), (congrArg Cell.charged ended.cell :), (congrArg Cell.temp ended.cell :)⟩
    have low : u.vbatLow = s.vbatLow := by rw [← ended.low, ← hu]; rfl
    obtain ⟨installed, charged, temp⟩ := cell
    rw [low, temp] at is
    obtain ⟨kept, closed, sameDay, sameCharge⟩ := windowSensed_keeps present (decide (mv ≥ s.vbatLow))
      (decide (-400 ≤ s.vesper.cell.temp) && decide (s.vesper.cell.temp ≤ 850)) u
    generalize windowSensed present (decide (mv ≥ s.vbatLow))
      (decide (-400 ≤ s.vesper.cell.temp) && decide (s.vesper.cell.temp ≤ 850)) u = v at *
    have shut (c : Ceremony) (is : s.custody.cer = some c) (action : c.action = Act.cellService) (stage : c.stage = .window) :
        v.custody.cer = none := closed (by rw [cer]; exact ended.closed c is action stage)
    by_cases good : (present && decide (mv ≥ s.vbatLow) && (decide (-400 ≤ s.vesper.cell.temp) && decide (s.vesper.cell.temp ≤ 850)) &&
        (w.low || decide (mv < 1500))) = true
    · rw [if_pos good] at is
      obtain ⟨newWindow, newCustody, -⟩ := newCell_leaves v
      have calm := quiet_settle s (newCell v)
      refine ⟨_, is, by rw [calm.vesper, newWindow, kept, open_], fun c cer action stage => by rw [calm.custody, newCustody, shut c cer action stage],
        fun bad => ?_⟩
      simp only [Bool.and_eq_true, decide_eq_true_eq] at good
      obtain ⟨⟨⟨is, charge⟩, cold, hot⟩, -⟩ := good
      rcases bad with h | h | h | h | h
      · exact absurd h power
      · exact absurd (h.symm.trans is) Bool.false_ne_true
      all_goals omega
    · rw [if_neg good] at is
      have calm := quiet_settle s v
      exact ⟨_, is, by rw [calm.vesper, kept, open_], fun c cer action stage => by rw [calm.custody, shut c cer action stage],
        fun _ => ⟨by rw [calm.vesper, sameDay, installed], by rw [calm.vesper, sameCharge, charged]⟩⟩

theorem serviceWindow_kept {s : State} {w : SvcWindow} {why : WindowEnd} {mv : Nat} (window : s.vesper.window = some w)
    (power : why ≠ .powerLoss) (due : windowOver s w why = true) (high : s.vbatLow ≤ mv) (warm : -400 ≤ s.vesper.cell.temp)
    (cool : s.vesper.cell.temp ≤ 850) :
    Answers (.serviceWindowClose why mv true) s fun t => t.vesper.window = none ∧ t.life = s.life ∧ t.store = s.store ∧
      t.mem = s.mem ∧
      (if (w.low || decide (mv < 1500)) = true then
        t.vesper.cell.installed = s.vesper.calendar ∧ t.vesper.cell.charged = 0 ∧ t.vesper.cell.st = .cc
       else t.vesper.cell.installed = s.vesper.cell.installed ∧ t.vesper.cell.charged = s.vesper.cell.charged ∧
        t.vesper.cell.st = .off) := by
  have is := exec_serviceWindowClose mv true window due
  have ended := windowEnded s
  rw [if_neg power, windowChecks_eq] at is
  generalize hu : noteVbat mv (modCell (fun c => { c with present := true }) (endWindow (serviceCloses s))) = u at is
  have open_ : u.vesper.window = none := by
    rw [← hu]
    exact congrArg (Option.map fun w : SvcWindow => { w with low := w.low || decide (mv < 1500) }) ended.window
  have rest : u.life = s.life ∧ u.store = s.store ∧ u.mem = s.mem ∧ u.vesper.calendar = s.vesper.calendar := by
    rw [← hu]
    exact ⟨ended.life, ended.store, ended.mem, ended.calendar⟩
  have cell : u.vesper.cell.installed = s.vesper.cell.installed ∧ u.vesper.cell.charged = s.vesper.cell.charged ∧
      u.vesper.cell.temp = s.vesper.cell.temp ∧ u.vesper.cell.st = .off := by
    rw [← hu]
    exact ⟨(congrArg Cell.installed ended.cell :), (congrArg Cell.charged ended.cell :), (congrArg Cell.temp ended.cell :), (congrArg Cell.st ended.cell :)⟩
  have low : u.vbatLow = s.vbatLow := by rw [← ended.low, ← hu]; rfl
  obtain ⟨life, store, mem, calendar⟩ := rest
  obtain ⟨installed, charged, temp, st⟩ := cell
  have good : (decide (-400 ≤ s.vesper.cell.temp) && decide (s.vesper.cell.temp ≤ 850)) = true := by
    rw [decide_eq_true warm, decide_eq_true cool]; rfl
  rw [low, temp, decide_eq_true high, good] at is
  have sensed : windowSensed true true true u = sense 17 false (sense 15 false u) := rfl
  rw [sensed] at is
  generalize hv : sense 17 false (sense 15 false u) = v at is
  have plain : v.vesper.window = u.vesper.window ∧ v.vesper.cell = u.vesper.cell ∧ v.vesper.calendar = u.vesper.calendar ∧ v.life = u.life ∧
      v.store = u.store ∧ v.mem = u.mem := by
    rw [← hv, sense_false, sense_false]
    exact ⟨rfl, rfl, rfl, rfl, rfl, rfl⟩
  obtain ⟨window', cell', calendar', life', store', mem'⟩ := plain
  rw [show (true && true && true && (w.low || decide (mv < 1500))) = (w.low || decide (mv < 1500)) from rfl] at is
  by_cases new : (w.low || decide (mv < 1500)) = true
  · rw [if_pos new] at is
    obtain ⟨kept, -, keptLife, keptStore, keptMem, day, none_, st⟩ := newCell_leaves v
    have calm := quiet_settle s (newCell v)
    refine ⟨_, is, by rw [calm.vesper, kept, window', open_], calm.life.trans (keptLife.trans (life'.trans life)),
      calm.store.trans (keptStore.trans (store'.trans store)), calm.mem.trans (keptMem.trans (mem'.trans mem)), ?_⟩
    rw [if_pos new, calm.vesper]
    exact ⟨day.trans (calendar'.trans calendar), none_, st⟩
  · rw [if_neg new] at is
    have calm := quiet_settle s v
    refine ⟨_, is, by rw [calm.vesper, window', open_], calm.life.trans (life'.trans life),
      calm.store.trans (store'.trans store), calm.mem.trans (mem'.trans mem), ?_⟩
    rw [if_neg new, calm.vesper, cell']
    exact ⟨installed, charged, st⟩

/-! ## Supplies, calendar and oscillators (R388, R413, R468, R30, R31, R410 to R412) -/

/-- VCHG is at `v`, and the charger OFF. -/
def supplyAt (v : Bool) (s : State) : State :=
  modCell (fun c => { c with st := .off, iMeas := 0 }) (modVesper (fun x => { x with vchg := v, factor := if v then 1 else x.factor }) s)

theorem exec_supplySourceChange {s : State} {v : Bool} (changes : s.vesper.vchg ≠ v) :
    exec (.supplySourceChange v) s =
      settled s (if !v && s.vesper.window.isSome then serviceCloses (endWindow (supplyAt v s)) else supplyAt v s) := by
  refine (if_neg changes).trans (congrArg (fun u => settled s (if !v && s.vesper.window.isSome then u else supplyAt v s)) ?_)
  have ended := charged_chargeTo .off (modVesper (fun x => { x with window := none }) (supplyAt v s))
  have custody : (endWindow (supplyAt v s)).custody.cer = s.custody.cer := (congrArg Custody.cer ended.custody :)
  unfold serviceCloses
  rw [custody]
  rfl

theorem supplySourceChange_answers {s : State} {v : Bool} (changes : s.vesper.vchg ≠ v) :
    Answers (.supplySourceChange v) s fun t => t.vesper.vchg = v ∧ t.vesper.cell.st = .off ∧ t.vesper.cell.iMeas = 0 ∧
      t.life = s.life ∧ t.store = s.store ∧ t.mem = s.mem ∧ t.vesper.cell.charged = s.vesper.cell.charged ∧
      (v = false → t.vesper.window = none) ∧ (v = true → t.vesper.factor = 1 ∧ t.vesper.window = s.vesper.window) := by
  have is := exec_supplySourceChange changes
  by_cases closes : (!v && s.vesper.window.isSome) = true
  · rw [if_pos closes] at is
    obtain rfl : v = false := by cases v with | true => exact absurd closes Bool.false_ne_true | false => rfl
    have ended := charged_chargeTo .off (modVesper (fun x => { x with window := none }) (supplyAt false s))
    obtain ⟨⟨mem, store, life, -, -, -, -, vesper⟩, -⟩ := serviceCloses_leaves (endWindow (supplyAt false s))
    have calm := quiet_settle s (serviceCloses (endWindow (supplyAt false s)))
    have same := calm.vesper.trans vesper
    have cell : (endWindow (supplyAt false s)).vesper.cell = (supplyAt false s).vesper.cell := ended.cell
    refine ⟨_, is, ?_, ?_, ?_, calm.life.trans (life.trans ended.life), calm.store.trans (store.trans ended.store),
      calm.mem.trans (mem.trans ended.mem), ?_, fun _ => ?_, nofun⟩
    · rw [same]
      exact (congrArg (fun y : State => y.vesper.vchg) ended.rest :)
    · rw [same, cell]
      rfl
    · rw [same, cell]
      rfl
    · rw [same, cell]
      rfl
    · rw [same]
      exact ended.window
  · rw [if_neg closes] at is
    have calm := quiet_settle s (supplyAt v s)
    refine ⟨_, is, ?_, ?_, ?_, calm.life, calm.store, calm.mem, ?_, fun off => ?_, fun on => ?_⟩
    · rw [calm.vesper]; rfl
    · rw [calm.vesper]; rfl
    · rw [calm.vesper]; rfl
    · rw [calm.vesper]; rfl
    · rw [calm.vesper]
      subst off
      exact Option.not_isSome_iff_eq_none.mp closes
    · rw [calm.vesper]
      subst on
      exact ⟨rfl, rfl⟩

theorem supplyRise_answers (s : State) :
    Answers .vesperSupplyRise s fun t => t.life.root = [] ∧ t.life.lc = s.life.lc ∧ t.vesper.latch = 0 ∧
      t.vesper.warm = false ∧ t.vesper.valid = false ∧ t.vesper.cell.charged = s.vesper.cell.charged ∧
      t.vesper.cell.installed = s.vesper.cell.installed ∧ t.life.rootMain = s.life.rootMain ∧ t.life.dkWrapped = s.life.dkWrapped ∧
      t.vesper.stored = s.vesper.stored ∧ t.store = s.store ∧ t.mem = s.mem ∧ t.jobs = s.jobs := by
  obtain ⟨t, is, calm⟩ := answers_settled (i := .vesperSupplyRise) (s := s) rfl (Quiet.refl _)
  refine ⟨t, is, ?_⟩
  dsimp only
  rw [calm.life, calm.vesper, calm.store, calm.mem, calm.jobs]
  exact ⟨rfl, rfl, rfl, rfl, rfl, rfl, rfl, rfl, rfl, rfl, rfl, rfl, rfl⟩

theorem watchRecalibration_answers (s : State) (n : Nat) : Answers (.watchOscillatorRecalibration n) s fun t =>
    t = if s.vesper.xtalOk then { s with vesper := { s.vesper with watch := n } } else s := by
  by_cases runs : s.vesper.xtalOk = true
  · exact ⟨_, if_pos runs, (if_pos runs).symm⟩
  · exact ⟨_, if_neg runs, (if_neg runs).symm⟩

theorem slewFor_bounds (m c : Nat) : -500 ≤ slewFor m c ∧ slewFor m c ≤ 500 ∧ (m < c → 0 ≤ slewFor m c) ∧ (m > c → slewFor m c ≤ 0) := by
  unfold slewFor
  refine ⟨le_max_left _ _, max_le (by decide) (min_le_left _ _), fun behind => ?_, fun ahead => ?_⟩
  · have : (0 : Int) ≤ ((c : Int) - m) * 1000000 / 16777216 := by omega
    omega
  · have : ((c : Int) - m) * 1000000 / 16777216 ≤ 0 := by omega
    omega

theorem meridianSlew_answers {s : State} (runs : s.clock.running = true) : Answers .meridianSlew s fun t =>
    -500 ≤ t.clock.slew ∧ t.clock.slew ≤ 500 ∧ (s.clock.meridian < s.vesper.calendar → 0 ≤ t.clock.slew) ∧
    (s.clock.meridian > s.vesper.calendar → t.clock.slew ≤ 0) ∧
    t = { s with clock := { s.clock with slew := t.clock.slew } } := by
  obtain ⟨low, high, behind, ahead⟩ := slewFor_bounds s.clock.meridian s.vesper.calendar
  exact ⟨_, if_pos runs, low, high, behind, ahead, rfl⟩

theorem vesperCheckpoint_answers {s : State} (runs : s.clock.running = true) : Answers .vesperCheckpoint s fun t =>
    t = { s with vesper := { s.vesper with stored := s.vesper.counts, storedCal := s.vesper.calendar } } :=
  ⟨_, congrArg Host.Outcome.next (if_pos runs), rfl⟩

theorem clockStopped_answers {s : State} (stands : s.clock.running = false) :
    Answers .meridianSlew s (· = s) ∧ Answers .vesperCheckpoint s (· = s) := by
  have off : ¬ s.clock.running = true := by rw [stands]; exact Bool.false_ne_true
  exact ⟨⟨_, if_neg off, rfl⟩, ⟨_, congrArg Host.Outcome.next (if_neg off), rfl⟩⟩

/-- Settles O53: the charger's runs by state and reading, the service window's close in its parts, and the supplies and oscillators. -/
theorem vesperKeepsItsCellAndTime : Obligations.VesperKeepsItsCellAndTime := by
  unfold Obligations.VesperKeepsItsCellAndTime
  exact ⟨fun s r vchg works => charger_stops r vchg works, fun s r may st high runs => charger_cc may st high runs,
    fun s r may st high => charger_starts may st high, fun s r may st high runs => charger_cv may st high runs,
    fun s r may st high => charger_done may st high, fun s r may st low => charger_deep may st low,
    fun s r may st high late => charger_late may st high late, fun s works => adaptiveSampling_answers works,
    fun s works => ageing_answers works, fun s w why mv present window due => serviceWindow_closes mv present window due,
    fun s w mv present window lost => serviceWindow_powerLoss mv present window lost,
    fun s w why mv window power due high warm cool => serviceWindow_kept window power due high warm cool,
    fun s v changes => supplySourceChange_answers changes, fun s => supplyRise_answers s, fun s n => watchRecalibration_answers s n,
    fun s runs => meridianSlew_answers runs, fun s runs => vesperCheckpoint_answers runs, fun s stands => clockStopped_answers stands,
    fun s => ⟨_, rfl, rfl⟩⟩

end Sys2Proof.Safety
end

section
/-!
PROOFS. Function resets (R163, R164, R168 to R170): what ending a function's jobs leaves alone, and each way a reset begins
and ends.
-/

-- In turn: a proof that waits for others beside it takes a thread and its stack from the memory that the check allows.
set_option Elab.async false

namespace Sys2Proof.Safety

open Sys2Proof.Machine

/-! ## Jobs given up without a record -/

/-- `t` has the status events of `s`, at least. -/
def Events (s t : State) : Prop := ∀ f n, (s.fn f).event.getLsbD n = true → (t.fn f).event.getLsbD n = true

theorem Events.refl (s : State) : Events s s := fun _ _ h => h

theorem Events.trans {s t u : State} (a : Events s t) (b : Events t u) : Events s u := fun f n h => b f n (a f n h)

theorem Events.of_fns {s t : State} (h : t.fns = s.fns := by exact rfl) : Events s t := fun f n e => by
  unfold State.fn at e ⊢
  rwa [h]

theorem events_setFn {f : Nat} {g : Fn} {s : State} (h : g.event = (s.fn f).event := by exact rfl) : Events s (setFn f g s) := fun k n e => by
  rw [fn_setFn]
  split
  · next is => rwa [h, ← is]
  · exact e

theorem Events.foldl {α : Type} {h : State → α → State} (each : ∀ s a, Events s (h s a)) : ∀ (l : List α) (s : State), Events s (l.foldl h s)
  | [], s => .refl s
  | a :: l, s => (each s a).trans (Events.foldl each l _)

theorem events_evalVec (f v : Nat) (s : State) : Events s (evalVec f v s) := by
  unfold evalVec
  dsimp only
  split
  · split <;> exact events_setFn
  · exact .refl s

theorem events_vecEvent (f v : Nat) (irqNow : Bool) (s : State) : Events s (vecEvent f v irqNow s) := by
  unfold vecEvent
  dsimp only
  split
  · exact .trans events_setFn (events_evalVec _ _ _)
  · exact .refl s

theorem events_raiseSource (n : Nat) (s : State) : Events s (raiseSource n s) := by
  unfold raiseSource
  split
  · exact .refl s
  · dsimp only
    split
    · unfold signalDevice
      split
      · exact .trans .of_fns (events_vecEvent _ _ _ _)
      · exact .of_fns
    · exact .of_fns

theorem events_setErr (c n : Nat) (s : State) : Events s (setErr c n s) := by
  unfold setErr
  dsimp only
  split
  · exact .refl s
  · split
    · exact .trans .of_fns (events_raiseSource _ _)
    · split
      · exact .trans .of_fns (events_raiseSource _ _)
      · exact .of_fns

theorem events_modFn (f n : Nat) (h : Fn → Fn) (s : State) (same : ∀ g, (h g).event = g.event) : Events s { modFn f h s with free := n } :=
  (events_setFn (same _) : Events s (modFn f h s))

theorem events_aerUncor (f b : Nat) (s : State) : Events s (aerUncor f b s) := events_modFn f _ _ s fun _ => rfl

theorem events_record (code level p0 p1 p2 p3 : Nat) (nested : Bool) (s : State) : Events s (record code level p0 p1 p2 p3 nested s) := by
  have accepted (e : EventRec) : Events s (acceptRecord e s) := .of_fns (fns_acceptRecord e s)
  have reported (u : State) : Events u (aerOfLevel level u) := by
    unfold aerOfLevel
    split
    · exact events_aerUncor 0 22 u
    · split
      · exact events_setFn
      · exact .refl _
  exact (accepted _).trans (reported _)

theorem setEvent_shows (f n : Nat) (hn : n < 32) (s : State) : ((setEvent f n s).fn f).event.getLsbD n = true := by
  have put : ((setFn f { s.fn f with event := (s.fn f).event ||| BitVec.ofNat 32 (2 ^ n) } s).fn f).event.getLsbD n = true := by
    rw [fn_setFn_self]
    show ((s.fn f).event ||| BitVec.ofNat 32 (2 ^ n)).getLsbD n = true
    rw [BitVec.getLsbD_or, BitVec.getLsbD_ofNat, decide_eq_true hn, Nat.testBit_two_pow_self]
    exact Bool.or_true _
  unfold setEvent
  dsimp only
  split
  · next h => exact h
  · split
    · split
      · split
        · exact events_raiseSource _ _ _ _ (events_vecEvent _ _ _ _ _ _ put)
        · exact events_raiseSource _ _ _ _ put
      · split
        · exact events_vecEvent _ _ _ _ _ _ put
        · exact put
    · exact put

theorem events_setEvent (f n : Nat) (s : State) : Events s (setEvent f n s) := by
  have put : Events s (setFn f { s.fn f with event := (s.fn f).event ||| BitVec.ofNat 32 (2 ^ n) } s) := fun k m h => by
    rw [fn_setFn]
    split
    · next e =>
      subst e
      simp [h]
    · exact h
  unfold setEvent
  dsimp only
  split
  · exact .refl s
  · split
    · split
      · split
        · exact put.trans ((events_vecEvent _ _ _ _).trans (events_raiseSource _ _))
        · exact put.trans (events_raiseSource _ _)
      · split
        · exact put.trans (events_vecEvent _ _ _ _)
        · exact put
    · exact put

theorem events_settle (old s : State) : Events s (settle old s) := by
  have each (n : Nat) (u : State) : Events u (eachFn (fun f => setEvent f n) u) := .foldl (fun s f => events_setEvent f n s) _ u
  have noted (u : State) : Events u (noteConditions u) := by
    unfold noteConditions
    split
    · exact .refl u
    · exact .trans .of_fns (events_record _ _ _ _ _ _ _ _)
  unfold settle
  split
  · exact .refl s
  · dsimp only
    split <;> split
    · exact noted s
    · exact (each 2 s).trans (noted _)
    · exact (each 1 s).trans (noted _)
    · exact (each 1 s).trans ((each 2 _).trans (noted _))

/-- `t` is `s` with jobs given up: no queue's entry is finished, no dirty-page log begins, no call begins, and the jobs that meet
`p` stay. -/
structure Frees (p : JobRef → Prop) (s t : State) : Prop where
  life : t.life = s.life
  tenant (f : Nat) : (t.fn f).tenant = (s.fn f).tenant
  events : Events s t
  jqs (f : Nat) : (t.fn f).jqs = (s.fn f).jqs
  log (f : Nat) : (s.fn f).log = none → (t.fn f).log = none
  calls : ∀ c ∈ t.worlds.calls, c ∈ s.worlds.calls
  job (r : JobRef) : p r → t.job? r = s.job? r

section
variable {p : JobRef → Prop}

theorem Frees.refl (s : State) : Frees p s s :=
  ⟨rfl, fun _ => rfl, .refl s, fun _ => rfl, fun _ h => h, fun _ h => h, fun _ _ => rfl⟩

theorem Frees.trans {s t u : State} (a : Frees p s t) (b : Frees p t u) : Frees p s u :=
  ⟨b.life.trans a.life, fun f => (b.tenant f).trans (a.tenant f), a.events.trans b.events, fun f => (b.jqs f).trans (a.jqs f),
    fun f h => b.log f (a.log f h), fun c h => a.calls c (b.calls c h), fun r h => (b.job r h).trans (a.job r h)⟩

theorem Frees.mono {q : JobRef → Prop} {s t : State} (a : Frees p s t) (h : ∀ r, q r → p r) : Frees q s t :=
  ⟨a.life, a.tenant, a.events, a.jqs, a.log, a.calls, fun r hr => a.job r (h r hr)⟩

theorem Frees.foldl {α : Type} {h : State → α → State} : ∀ (l : List α) (s : State), (∀ s, ∀ a ∈ l, Frees p s (h s a)) →
    Frees p s (l.foldl h s)
  | [], s, _ => .refl s
  | a :: l, s, each => (each s a (.head _)).trans (Frees.foldl l _ fun s b hb => each s b (.tail _ hb))

theorem Frees.of_quiet {s t : State} (q : Quiet s t) (events : Events s t) : Frees p s t where
  life := q.life
  tenant f := (congrArg Fn.tenant (q.2 f) :)
  events := events
  jqs f := (congrArg Fn.jqs (q.2 f) :)
  log f h := (q.log f).trans h
  calls c h := by rwa [show t.worlds.calls = s.worlds.calls from (congrArg (fun x : State => x.worlds.calls) q.1 :)] at h
  job r _ := q.job? r

/-- Changes outside functions, jobs and calls. -/
theorem Frees.of_fields {s t : State} (life : t.life = s.life := by exact rfl) (fns : t.fns = s.fns := by exact rfl)
    (calls : ∀ c ∈ t.worlds.calls, c ∈ s.worlds.calls := by exact fun _ h => h) (jobs : t.jobs = s.jobs := by exact rfl) : Frees p s t where
  life := life
  tenant f := by unfold State.fn; rw [fns]
  events := .of_fns fns
  jqs f := by unfold State.fn; rw [fns]
  log f h := by unfold State.fn at h ⊢; rwa [fns]
  calls := calls
  job r _ := job_congr jobs r

theorem frees_setFn {f : Nat} {g : Fn} {s : State} (tenant : g.tenant = (s.fn f).tenant := by exact rfl)
    (event : g.event = (s.fn f).event := by exact rfl) (jqs : g.jqs = (s.fn f).jqs := by exact rfl)
    (log : g.log = (s.fn f).log := by exact rfl) : Frees p s (setFn f g s) where
  life := rfl
  tenant k := by
    rw [fn_setFn]
    split
    · next e => rw [e, tenant]
    · rfl
  events := events_setFn event
  jqs k := by
    rw [fn_setFn]
    split
    · next e => rw [e, jqs]
    · rfl
  log k h := by
    rw [fn_setFn]
    split
    · next e => rw [log, ← e, h]
    · exact h
  calls _ h := h
  job _ _ := rfl

/-- A function whose log is off is not one whose log is on. -/
theorem ne_of_logged {f k : Nat} {s : State} {l : DirtyLog} (off : (s.fn k).log = none) (some : (s.fn f).log = some l) : k ≠ f := fun e => by
  rw [e, some] at off
  nomatch off

theorem log_mergeDirty {k : Nat} (f : Nat) {s : State} (off : (s.fn k).log = none) : ((mergeDirty f s).fn k).log = none := by
  unfold mergeDirty
  split
  · exact off
  · next l is => exact (congrArg Fn.log (fn_modFn_ne _ _ (ne_of_logged off is))).trans off

theorem log_logWrite {k : Nat} (f a n : Nat) {s : State} (off : (s.fn k).log = none) : ((logWrite f a n s).fn k).log = none := by
  unfold logWrite
  split
  · exact off
  · next l is =>
    have marked (h : Fn → Fn) : ((modFn f h s).fn k).log = none := (congrArg Fn.log (fn_modFn_ne _ h (ne_of_logged off is))).trans off
    split
    · exact off
    · dsimp only
      split
      · exact log_mergeDirty f (marked _)
      · exact marked _

theorem frees_hostWrite (f a : Nat) (b : Bytes) (s : State) : Frees p s (hostWrite f a b s) :=
  have w := written_hostWrite f a b s
  ⟨w.life, fun k => (congrArg Fn.tenant (w.2 k) :), fun k n h => by rwa [show ((hostWrite f a b s).fn k).event = (s.fn k).event from (congrArg Fn.event (w.2 k) :)],
    w.jqs, fun _ h => log_logWrite f a b.length h, fun _ h => by rwa [w.worlds] at h, fun r _ => job_congr w.jobs r⟩

theorem frees_writeMirror (f c : Nat) (s : State) : Frees p s (writeMirror f c s) := by
  unfold writeMirror
  split
  · exact .refl s
  · split
    · exact .refl s
    · have put (q : CompQueue) (b : Bytes) (a : Nat) : Frees p s (setCq f c q (hostWrite f a b s)) := (frees_hostWrite f a b s).trans frees_setFn
      dsimp only
      split
      · exact (put _ _ _).trans (.of_quiet (quiet_vecEvent _ _ _ _) (events_vecEvent _ _ _ _))
      · exact put _ _ _

theorem frees_enterD3 (f : Nat) (s : State) : Frees p s (enterD3 f s) := by
  unfold enterD3
  split
  · exact (Frees.foldl _ s fun s c _ => frees_writeMirror f c s).trans frees_setFn
  · exact .refl s

theorem frees_disturb (j : Job) (s : State) : Frees p s (disturb j s) := by
  unfold disturb
  split
  · exact .foldl _ s fun s w _ => (frees_hostWrite _ _ _ s).trans .of_fields
  · exact .refl s

theorem frees_squash (j : Job) (s : State) : Frees p s (squash j s) := by
  unfold squash
  split
  · refine (frees_disturb j s).trans ?_
    unfold scrub
    split
    · exact (frees_hostWrite _ _ _ _).trans .of_fields
    · exact .refl _
  · exact .refl s

theorem frees_leaveTrace (j : Job) (s : State) : Frees p s (leaveTrace j s).2 := by
  unfold leaveTrace
  split
  · split
    · dsimp only
      split
      · exact .refl s
      · exact (frees_hostWrite _ _ _ _).trans .of_fields
    · exact .refl s
  · exact frees_disturb j s

theorem frees_leavePair (r : JobRef) (s : State) : Frees p s (leavePair r s) := by
  unfold leavePair
  split
  · exact .refl s
  · refine .trans .of_fields ?_
    unfold returnRole
    dsimp only
    split
    · split
      · exact .trans .of_fields (.of_quiet ((quiet_record ..).trans (quiet_setErr _ _ _)) ((events_record _ _ _ _ _ _ _ _).trans (events_setErr _ _ _)))
      · exact .of_fields
    · exact .of_fields

theorem frees_releaseHold (j : Job) (s : State) : Frees p s (releaseHold j s) := by
  unfold releaseHold
  split
  · exact .refl s
  · exact .of_fields

theorem frees_freeRetiring (n gen : Nat) (s : State) : Frees p s (freeRetiring n gen s) := by
  unfold freeRetiring
  split
  · split
    · exact .of_fields
    · exact .refl s
  · exact .refl s

end

theorem frees_modJob (r : JobRef) (h : Job → Job) (s : State) (hk : ∀ j, (h j).ref = j.ref := by exact fun _ => rfl) :
    Frees (· ≠ r) s (modJob r h s) :=
  ⟨rfl, fun _ => rfl, .of_fns, fun _ => rfl, fun _ h => h, fun _ h => h, fun _ ne => job_modJob_ne ne hk⟩

theorem frees_leavePk (r : JobRef) (s : State) : Frees (· ≠ r) s (leavePk r s) := by
  unfold leavePk
  dsimp only
  split
  · exact (frees_modJob r eraseContext s).trans .of_fields
  · exact .of_fields

theorem job_removed {r x : JobRef} (s : State) (ne : x ≠ r) :
    ({ s with jobs := s.jobs.filter fun k => decide (k.ref ≠ r) } : State).job? x = s.job? x := by
  show List.find? _ (List.filter _ _) = _
  rw [List.find?_filter]
  refine congrArg (fun q => List.find? q s.jobs) (funext fun k => ?_)
  by_cases is : k.ref = x
  · simp [is, ne]
  · simp [is]

theorem frees_dropOne (j : Job) (s : State) : Frees (· ≠ j.ref) s (dropOne j s) := by
  have removed : Frees (· ≠ j.ref) s { s with
      jobs := s.jobs.filter fun k => decide (k.ref ≠ j.ref), rng := { s.rng with fills := s.rng.fills.filter fun x => decide (x ≠ j.ref) } } :=
    ⟨rfl, fun _ => rfl, .of_fns, fun _ => rfl, fun _ h => h, fun _ h => h, fun _ ne => job_removed s ne⟩
  have off := removed.trans ((frees_leavePair j.ref _).trans ((frees_releaseHold j _).trans (frees_leavePk j.ref _)))
  unfold dropOne
  dsimp only
  refine .trans ?_ (frees_enterD3 _ _)
  split
  · exact off
  · exact off.trans (frees_freeRetiring _ _ _)

/-- Ending a call takes the job it has submitted. -/
theorem frees_closeCall (r : JobRef) (s : State) : Frees (fun x => ∀ c ∈ s.worlds.calls, c.subJob ≠ some x) s (closeCall r s) := by
  unfold closeCall
  split
  · exact .refl s
  · next c found =>
    have begun {p : JobRef → Prop} : Frees p s { s with
        worlds := { s.worlds with calls := s.worlds.calls.filter fun c => decide (c.job ≠ r) }, cram := zeroPages (zeroOf s c.ext) s.cram } :=
      .of_fields rfl rfl (fun _ h => List.mem_of_mem_filter h) rfl
    dsimp only
    split
    · next k sub =>
      obtain ⟨x, named, is⟩ := Option.bind_eq_some_iff.mp sub
      refine begun.trans ((frees_squash k _).trans ((frees_dropOne k _).mono fun y free e => ?_))
      exact free c (List.mem_of_find?_eq_some found) (by rw [named, e, ref_of_job is])
    · exact begun

theorem frees_dropJob (j : Job) (s : State) : Frees (fun x => x ≠ j.ref ∧ ∀ c ∈ s.worlds.calls, c.subJob ≠ some x) s (dropJob j s) := by
  have one := frees_dropOne j s
  exact (one.mono fun _ h => h.1).trans ((frees_closeCall j.ref _).mono fun _ h c hc => h.2 c (one.calls c hc))

theorem frees_releaseEntry (j : Job) (s : State) : Frees (· ≠ j.ref) s (releaseEntry j s) := by
  have removed : Frees (· ≠ j.ref) s { s with jobs := s.jobs.filter fun k => decide (k.ref ≠ j.ref) } :=
    ⟨rfl, fun _ => rfl, .of_fns, fun _ => rfl, fun _ h => h, fun _ h => h, fun _ ne => job_removed s ne⟩
  unfold releaseEntry
  dsimp only
  split
  · exact removed
  · exact removed.trans frees_setFn

theorem frees_abandonAdmin {p : JobRef → Prop} (j : Job) (s : State) : Frees p s (abandonAdmin j s) := by
  unfold abandonAdmin
  split
  · exact .of_fields
  · split
    · exact frees_setFn
    · unfold abandonCeremony
      split
      · exact .refl s
      · split
        · exact .of_fields
        · exact .refl s

/-- Every job of function `f` is given up; the others stay, but for those that its calls have submitted. -/
theorem frees_resetJob {f : Nat} {j : Job} (mine : j.ref.fn = f) (s : State) :
    Frees (fun x => x.fn ≠ f ∧ ∀ c ∈ s.worlds.calls, c.subJob ≠ some x) s (resetJob s j) := by
  have ne (x : JobRef) (h : x.fn ≠ f) : x ≠ j.ref := fun e => h (by rw [e, mine])
  unfold resetJob
  split
  · exact (frees_modJob j.ref _ s).mono fun x h => ne x h.1
  · have traced {p : JobRef → Prop} : Frees p s (if j.ref.jq = 0 then abandonAdmin j s
        else if j.committed && j.outcome.isNone then (leaveTrace j s).2 else s) := by
      split
      · exact frees_abandonAdmin j s
      · split
        · exact frees_leaveTrace j s
        · exact .refl s
    dsimp only
    generalize (if j.ref.jq = 0 then abandonAdmin j s else if j.committed && j.outcome.isNone then (leaveTrace j s).2 else s) = u at traced
    have read {p : JobRef → Prop} : Frees p s (if j.reads = .outstanding then modFn j.ref.fn (fun g => { g with reading := j.ref :: g.reading }) u else u) := by
      split
      · exact traced.trans frees_setFn
      · exact traced
    generalize (if j.reads = .outstanding then modFn j.ref.fn (fun g => { g with reading := j.ref :: g.reading }) u else u) = v at read
    split
    · exact read.trans ((frees_dropJob j v).mono fun x h => ⟨ne x h.1, fun c hc => h.2 c ((read (p := fun _ => True)).calls c hc)⟩)
    · exact read.trans ((frees_releaseEntry j v).mono fun x h => ne x h.1)

end Sys2Proof.Safety
end

section
/-!
PROOFS. Each way a function reset begins and ends (R163, R164, R168 to R170).
-/

-- In turn: a proof that waits for others beside it takes a thread and its stack from the memory that the check allows.
set_option Elab.async false

namespace Sys2Proof.Safety

open Sys2Proof.Machine

/-! ## Signals and a function under reset -/

/-- Signals reach no vector of a function under reset (R164). -/
def Mute (f : Nat) (s t : State) : Prop := (s.fn f).run = .resetting → (t.fn f).run = .resetting ∧ (t.fn f).vecs = (s.fn f).vecs

theorem Mute.refl (f : Nat) (s : State) : Mute f s s := fun h => ⟨h, rfl⟩

theorem Mute.trans {f : Nat} {s t u : State} (a : Mute f s t) (b : Mute f t u) : Mute f s u := fun h => by
  obtain ⟨run, vecs⟩ := a h
  obtain ⟨run', vecs'⟩ := b run
  exact ⟨run', vecs'.trans vecs⟩

theorem Mute.of_fns {f : Nat} {s t : State} (h : t.fns = s.fns := by exact rfl) : Mute f s t := fun run => by
  unfold State.fn at run ⊢
  rw [h]
  exact ⟨run, rfl⟩

theorem Mute.foldl {f : Nat} {α : Type} {h : State → α → State} (each : ∀ s a, Mute f s (h s a)) : ∀ (l : List α) (s : State), Mute f s (l.foldl h s)
  | [], s => .refl f s
  | a :: l, s => (each s a).trans (Mute.foldl each l _)

/-- A change of function `k` that keeps the vectors of a function under reset. -/
theorem mute_setFn {f k : Nat} {g : Fn} {s : State} (h : (s.fn k).run = .resetting → g.run = .resetting ∧ g.vecs = (s.fn k).vecs) :
    Mute f s (setFn k g s) := fun run => by
  rw [fn_setFn]
  split
  · next e =>
    rw [e] at run ⊢
    exact h run
  · exact ⟨run, rfl⟩

theorem mute_evalVec {f k : Nat} (v : Nat) {s : State} (up : (s.fn k).run ≠ .resetting) : Mute f s (evalVec k v s) := by
  unfold evalVec
  dsimp only
  split
  · split
    · exact Mute.trans (mute_setFn fun h => absurd h up) .of_fns
    · exact mute_setFn fun h => absurd h up
  · exact .refl f s

theorem mute_vecEvent (f k v : Nat) (irqNow : Bool) (s : State) : Mute f s (vecEvent k v irqNow s) := by
  unfold vecEvent
  dsimp only
  split
  · next h =>
    obtain ⟨-, up, -⟩ := h
    exact (mute_setFn fun h => absurd h up).trans (mute_evalVec _ (by rw [fn_setFn_self]; exact up))
  · exact .refl f s

theorem mute_raiseSource (f n : Nat) (s : State) : Mute f s (raiseSource n s) := by
  unfold raiseSource
  split
  · exact .refl f s
  · dsimp only
    split
    · unfold signalDevice
      split
      · exact .trans .of_fns (mute_vecEvent _ _ _ _ _)
      · exact .of_fns
    · exact .of_fns

theorem mute_setEvent (f k n : Nat) (s : State) : Mute f s (setEvent k n s) := by
  have put : Mute f s (setFn k { s.fn k with event := (s.fn k).event ||| BitVec.ofNat 32 (2 ^ n) } s) := mute_setFn fun h => ⟨h, rfl⟩
  unfold setEvent
  dsimp only
  split
  · exact .refl f s
  · split
    · split
      · split
        · exact put.trans ((mute_vecEvent _ _ _ _ _).trans (mute_raiseSource _ _ _))
        · exact put.trans (mute_raiseSource _ _ _)
      · split
        · exact put.trans (mute_vecEvent _ _ _ _ _)
        · exact put
    · exact put

theorem mute_settle (f : Nat) (old s : State) : Mute f s (settle old s) := by
  have each (n : Nat) (u : State) : Mute f u (eachFn (fun f => setEvent f n) u) := .foldl (fun s k => mute_setEvent f k n s) _ u
  have noted (u : State) : Mute f u (noteConditions u) := by
    unfold noteConditions
    split
    · exact .refl f u
    · exact .trans .of_fns (.of_fns (fns_record_zero _ _ _ _ _ _ _))
  unfold settle
  split
  · exact .refl f s
  · dsimp only
    split <;> split
    · exact noted s
    · exact (each 2 s).trans (noted _)
    · exact (each 1 s).trans (noted _)
    · exact (each 1 s).trans ((each 2 _).trans (noted _))

/-! ## The reset point (R164) -/

/-- What the reset point makes of a function. -/
def resetFn (cause now : Nat) (g : Fn) : Fn :=
  { g with
    run := .resetting, cfg := { resetCfg g.cfg with txPending := true }, rngBuf := [], rngStall := [], vecs := []
    quiesce := none, freezing := false, froze := false, resetCause := cause, resetAt := now }

/-- A function in service. -/
abbrev InService (s : State) (f : Nat) : Prop := (s.fn f).run ≠ .resetting ∧ (s.fn f).run ≠ .unallocated

theorem beginReset_eq {s : State} {f : Nat} (cause : Nat) (live : InService s f) :
    beginReset f cause s =
      modFn f (resetFn cause s.now) (dropStalled f ((s.jobs.filter fun j => decide (j.ref.fn = f)).foldl resetJob s)) := by
  unfold beginReset
  split
  · next h => exact absurd h live.1
  · next h => exact absurd h live.2
  · rfl

theorem beginReset_resetting {s : State} {f : Nat} (cause : Nat) (h : (s.fn f).run = .resetting) : beginReset f cause s = s := by
  unfold beginReset
  rw [h]

theorem dropStalled_leaves (f : Nat) (s : State) : ∃ o, dropStalled f s = { s with out := o } := by
  unfold dropStalled
  generalize (s.fn f).rngStall = l
  induction l generalizing s with
  | nil => exact ⟨_, rfl⟩
  | cons a l ih =>
    obtain ⟨o, is⟩ := ih (emit (.unsupported f) s)
    exact ⟨o, is⟩

theorem frees_dropStalled {p : JobRef → Prop} (f : Nat) (s : State) : Frees p s (dropStalled f s) := by
  obtain ⟨o, is⟩ := dropStalled_leaves f s
  rw [is]
  exact .of_fields

/-- What a reset of function `f` gives up, before the function is reset. -/
theorem frees_reset (f : Nat) (s : State) : Frees (fun x => x.fn ≠ f ∧ ∀ c ∈ s.worlds.calls, c.subJob ≠ some x) s
    (dropStalled f ((s.jobs.filter fun j => decide (j.ref.fn = f)).foldl resetJob s)) := by
  refine .trans ?_ (frees_dropStalled f _)
  have all (l : List Job) (mine : ∀ j ∈ l, j.ref.fn = f) : ∀ u : State, (∀ c ∈ u.worlds.calls, c ∈ s.worlds.calls) →
      Frees (fun x => x.fn ≠ f ∧ ∀ c ∈ s.worlds.calls, c.subJob ≠ some x) u (l.foldl resetJob u) := by
    induction l with
    | nil => exact fun u _ => .refl u
    | cons j l ih =>
      intro u calls
      have one := frees_resetJob (mine j (.head _)) u
      exact (one.mono fun x h => ⟨h.1, fun c hc => h.2 c (calls c hc)⟩).trans
        (ih (fun j h => mine j (.tail _ h)) _ fun c hc => calls c (one.calls c hc))
  exact all _ (fun j h => by simpa using (List.mem_filter.mp h).2) s fun _ h => h

theorem underReset_begins {s : State} {f : Nat} (cause : Nat) (live : InService s f) : UnderReset f cause s (beginReset f cause s) := by
  have freed := frees_reset f s
  rw [beginReset_eq cause live]
  unfold UnderReset
  rw [fn_modFn_self]
  exact ⟨rfl, rfl, rfl, rfl, rfl, rfl, rfl, freed.tenant f, congrArg FMap.keys (freed.jqs f)⟩

theorem UnderReset.settle {s t : State} {f cause : Nat} (u : UnderReset f cause s t) (old : State) : UnderReset f cause s (settle old t) := by
  have calm := quiet_settle old t
  obtain ⟨run, why, since, buf, stall, vecs, bme, tenant, jqs⟩ := u
  have same {α : Type} (part : Fn → α) (still : ∀ g, part (stillFn g) = part g) : part ((Machine.settle old t).fn f) = part (t.fn f) := by
    rw [← still, calm.2 f, still]
  exact ⟨(calm.run f).trans run, (same Fn.resetCause fun _ => rfl).trans why, (same Fn.resetAt fun _ => rfl).trans since,
    (same Fn.rngBuf fun _ => rfl).trans buf, (same Fn.rngStall fun _ => rfl).trans stall, (mute_settle f old t run).2.trans vecs,
    (same (fun g => g.cfg.bme) fun _ => rfl).trans bme, (calm.tenant f).trans tenant, (congrArg FMap.keys (calm.jqs f)).trans jqs⟩

/-- A reset of a function that holds no work gives up none. -/
theorem beginReset_idle {s : State} {f : Nat} (cause : Nat) (live : InService s f) (idle : s.inFlight f = 0) :
    ∃ o, beginReset f cause s = { modFn f (resetFn cause s.now) s with out := o } := by
  rw [beginReset_eq cause live, List.eq_nil_of_length_eq_zero idle]
  obtain ⟨o, is⟩ := dropStalled_leaves f s
  exact ⟨o, by rw [List.foldl_nil, is]; rfl⟩

theorem resetFrame_begins {s : State} {f : Nat} (cause : Nat) (live : InService s f) (old : State) :
    ResetFrame f s (settle old (beginReset f cause s)) := by
  intro idle
  obtain ⟨o, is⟩ := beginReset_idle cause live idle
  have calm := quiet_settle old (beginReset f cause s)
  generalize beginReset f cause s = u at *
  subst is
  refine ⟨calm.jobs, calm.mem, calm.store, calm.fab, fun g other => (calm.2 g).trans (congrArg stillFn ?_)⟩
  exact fn_modFn_ne s (resetFn cause s.now) other

theorem startReset_vf {f : Nat} (cause : Nat) (vf : f ≠ 0) (s : State) : startReset f cause s = beginReset f cause s := by
  unfold startReset
  rw [if_neg fun h => vf h.1, if_neg vf]

theorem startReset_resetting {f cause : Nat} {s : State} (covered : f ≠ 0 ∨ cause ≠ 7) (h : (s.fn f).run = .resetting) :
    startReset f cause s = s := by
  by_cases vf : f = 0
  · subst vf
    exact if_pos ⟨rfl, covered.resolve_left fun ne => ne rfl, h⟩
  · rw [startReset_vf cause vf, beginReset_resetting cause h]

theorem life_beginReset (f cause : Nat) (s : State) : (beginReset f cause s).life = s.life := by
  unfold beginReset
  split
  · rfl
  · rfl
  · exact (frees_reset f s).life

/-- A reset of one VF in service begins. -/
theorem vfReset_begins {i : Instr} {s : State} {f cause : Nat} (vf : f ≠ 0) (live : InService s f)
    (is : exec i s = settled s (startReset f cause s)) :
    Answers i s fun t => UnderReset f cause s t ∧ ResetFrame f s t ∧ t.life = s.life := by
  rw [startReset_vf cause vf] at is
  exact ⟨_, is, UnderReset.settle (underReset_begins cause live) s, resetFrame_begins cause live s,
    (quiet_settle s _).life.trans (life_beginReset f cause s)⟩

/-! ## PF0's reset takes the VFs (R170) -/

/-- What resetting the VFs in `l` makes of a state without jobs. -/
structure VfsReset (l : List Nat) (cause : Nat) (s t : State) : Prop where
  rest : { t with fns := [], out := [] } = { s with fns := [], out := [] }
  log (g : Nat) : (s.fn g).log = none → (t.fn g).log = none
  begun (g : Nat) : g ∈ l → InService s g → UnderReset g cause s t
  resetting (g : Nat) : (s.fn g).run = .resetting → t.fn g = s.fn g
  other (g : Nat) : g ∉ l → t.fn g = s.fn g

theorem vfsReset_one {s : State} (f cause : Nat) (empty : s.jobs = []) : VfsReset [f] cause s (beginReset f cause s) := by
  have idle : s.inFlight f = 0 := by unfold State.inFlight; rw [empty]; rfl
  cases run : (s.fn f).run with
  | resetting =>
    rw [beginReset_resetting cause run]
    exact ⟨rfl, fun _ h => h, fun g h live => by rw [List.mem_singleton.mp h] at live; exact absurd run live.1, fun _ _ => rfl, fun _ _ => rfl⟩
  | unallocated =>
    have is : beginReset f cause s = modFn f (fun g => { g with cfg := resetCfg g.cfg }) s := by unfold beginReset; rw [run]
    rw [is]
    refine ⟨rfl, fun g h => ?_, fun g h live => by rw [List.mem_singleton.mp h] at live; exact absurd run live.2, fun g h => ?_, fun g h => ?_⟩
    · rw [fn_modFn]
      split
      · next e => rwa [e] at h
      · exact h
    · exact fn_modFn_ne _ _ fun e => by rw [e, run] at h; nomatch h
    · exact fn_modFn_ne _ _ fun e => h (List.mem_singleton.mpr e)
  | _ =>
    have live : InService s f := ⟨by rw [run]; decide, by rw [run]; decide⟩
    have begins := underReset_begins cause live
    obtain ⟨o, is⟩ := beginReset_idle cause live idle
    rw [is] at begins ⊢
    have others (g : Nat) (ne : g ≠ f) : ({ modFn f (resetFn cause s.now) s with out := o } : State).fn g = s.fn g := fn_modFn_ne s _ ne
    refine ⟨rfl, fun g h => ?_, fun g h _ => by rw [List.mem_singleton.mp h]; exact begins, fun g h => others g fun e => live.1 (e ▸ h),
      fun g h => others g fun e => h (List.mem_singleton.mpr e)⟩
    by_cases e : g = f
    · subst e
      exact (congrArg Fn.log (fn_modFn_self s g (resetFn cause s.now))).trans h
    · rw [others g e]
      exact h

theorem vfsReset_fold (cause : Nat) : ∀ (l : List Nat) (s : State), s.jobs = [] →
    VfsReset l cause s (l.foldl (fun s f => beginReset f cause s) s)
  | [], s, _ => ⟨rfl, fun _ h => h, fun _ h => (List.not_mem_nil h).elim, fun _ _ => rfl, fun _ _ => rfl⟩
  | f :: l, s, empty => by
    have one := vfsReset_one f cause empty
    have rest := vfsReset_fold cause l (beginReset f cause s) ((congrArg State.jobs one.rest :).trans empty)
    rw [List.foldl_cons]
    refine ⟨rest.rest.trans one.rest, fun g h => rest.log g (one.log g h), fun g h live => ?_, fun g h => ?_, fun g h => ?_⟩
    · by_cases e : g = f
      · have begun := one.begun g (List.mem_singleton.mpr e) live
        unfold UnderReset at begun ⊢
        rwa [rest.resetting g begun.1]
      · have same := one.other g fun h => e (List.mem_singleton.mp h)
        have begun := rest.begun g ((List.mem_cons.mp h).resolve_left e) (by unfold InService; rwa [same])
        unfold UnderReset at begun ⊢
        rw [same, show (beginReset f cause s).now = s.now from (congrArg State.now one.rest :)] at begun
        exact begun
    · have same := one.resetting g h
      exact (rest.resetting g (by rwa [same])).trans same
    · exact (rest.other g fun k => h (.tail _ k)).trans (one.other g fun k => h (List.mem_singleton.mp k ▸ .head _))

theorem fn_stopLogs (s : State) (g : Nat) : (stopLogs s).fn g = { s.fn g with log := none } := by
  have is : stopLogs s = mapFns (fun _ g => { g with log := none }) s := rfl
  rw [is]
  by_cases h : g ∈ s.fns.keys
  · rw [fn_mapFns_of_mem _ h]
  · rw [fn_mapFns_of_not_mem _ h]
    unfold State.fn FMap.getD
    rw [find?_eq_none_of_not_mem h]
    rfl

theorem mem_keys_set {α : Type} {m : FMap α} {k : Nat} (j : Nat) (v : α) (h : k ∈ m.keys) : k ∈ (m.set j v).keys := by
  induction m with
  | nil => nomatch h
  | cons p m ih =>
    unfold FMap.keys at h ⊢
    unfold FMap.set
    split
    · exact .tail _ h
    · split
      · next e =>
        rw [List.map_cons] at h ⊢
        rcases List.mem_cons.mp h with is | is
        · rw [is, ← e]
          exact .head _
        · exact .tail _ is
      · rw [List.map_cons] at h ⊢
        rcases List.mem_cons.mp h with is | is
        · rw [is]
          exact .head _
        · exact .tail _ (ih is)

/-- Resetting the VFs of a state without jobs leaves the VFs in service RESETTING, and PF0 alone. -/
theorem vfsReset (cause : Nat) {s : State} (empty : s.jobs = []) : VfsReset (s.fns.keys.filter (· ≠ 0)) cause s (resetVfs cause s) :=
  vfsReset_fold cause _ s empty

theorem mem_vfs {s : State} {f : Nat} (h : f ∈ s.fns.keys) (vf : f ≠ 0) : f ∈ s.fns.keys.filter (· ≠ 0) :=
  List.mem_filter.mpr ⟨h, by simpa using vf⟩

theorem not_mem_vfs (s : State) : 0 ∉ s.fns.keys.filter (· ≠ 0) := fun h => by simpa using (List.mem_filter.mp h).2

theorem keys_stopLogs (s : State) : (stopLogs s).fns.keys = s.fns.keys := by
  unfold stopLogs FMap.keys
  rw [List.map_map]
  rfl

theorem pf0Reset_begins {s : State} {f : Nat} (live : InService s 0) (empty : s.jobs = []) (mem : f ∈ s.fns.keys) (vf : f ≠ 0)
    (up : InService s f) :
    Answers (.flr 0) s fun t => UnderReset 0 1 s t ∧ UnderReset f 4 s t ∧ (∀ g, (t.fn g).log = none) ∧ t.jobs = [] ∧
      t.mem = s.mem ∧ t.store = s.store ∧ t.life = s.life := by
  have idle : s.inFlight 0 = 0 := by unfold State.inFlight; rw [empty]; rfl
  have is : exec (.flr 0) s = settled s (resetVfs 4 (stopLogs (beginReset 0 1 s))) := by
    show settled s (startReset 0 1 s) = _
    unfold startReset
    rw [if_neg fun h => live.1 h.2.2, if_pos rfl, if_neg (by decide)]
  have own := underReset_begins 1 live
  obtain ⟨o, begun⟩ := beginReset_idle 1 live idle
  generalize beginReset 0 1 s = u at is own begun
  have key : f ∈ (stopLogs u).fns.keys := by
    rw [keys_stopLogs, begun]
    exact mem_keys_set 0 _ mem
  have jobs : (stopLogs u).jobs = [] := by rw [begun]; exact empty
  have there : u.fn f = s.fn f := by
    rw [begun]
    exact fn_modFn_ne s _ vf
  have plain : (stopLogs u).mem = s.mem ∧ (stopLogs u).store = s.store ∧ (stopLogs u).life = s.life ∧ (stopLogs u).now = s.now := by
    rw [begun]
    exact ⟨rfl, rfl, rfl, rfl⟩
  obtain ⟨kept, store, life, now⟩ := plain
  have all := vfsReset 4 jobs
  have pf0 : UnderReset 0 1 s (resetVfs 4 (stopLogs u)) := by
    unfold UnderReset at own ⊢
    rw [all.other 0 (not_mem_vfs _), fn_stopLogs]
    exact own
  have vfs : UnderReset f 4 s (resetVfs 4 (stopLogs u)) := by
    have begins := all.begun f (mem_vfs key vf) (by unfold InService; rw [fn_stopLogs, there]; exact up)
    unfold UnderReset at begins ⊢
    rw [fn_stopLogs, there, now] at begins
    exact begins
  have calm := quiet_settle s (resetVfs 4 (stopLogs u))
  exact ⟨_, is, UnderReset.settle pf0 s, UnderReset.settle vfs s, fun g => (calm.log g).trans (all.log g (by rw [fn_stopLogs])),
    calm.jobs.trans ((congrArg State.jobs all.rest :).trans jobs), calm.mem.trans ((congrArg State.mem all.rest :).trans kept),
    calm.store.trans ((congrArg State.store all.rest :).trans store), calm.life.trans ((congrArg State.life all.rest :).trans life)⟩

theorem vfEnableClear_resets {s : State} {f : Nat} (mem : f ∈ s.fns.keys) (vf : f ≠ 0) (pf0 : (s.fn 0).run ≠ .resetting)
    (up : InService s f) (empty : s.jobs = []) :
    Answers .vfEnableClear s fun t => UnderReset f 4 s t ∧ (t.fn 0).cfg.vfEnable = false ∧ (t.fn 0).run = (s.fn 0).run ∧
      t.jobs = [] ∧ t.mem = s.mem ∧ t.store = s.store ∧ t.life = s.life := by
  have is : exec .vfEnableClear s = settled s (resetVfs 4 (modFn 0 (fun g => { g with cfg := { g.cfg with vfEnable := false } }) s)) := if_neg pf0
  have all := vfsReset 4 (s := modFn 0 (fun g => { g with cfg := { g.cfg with vfEnable := false } }) s) empty
  have begins := all.begun f (mem_vfs (mem_keys_set 0 _ mem) vf) (by unfold InService; rw [fn_modFn_ne _ _ vf]; exact up)
  have clear := all.other 0 (not_mem_vfs _)
  rw [fn_modFn_self] at clear
  have calm := quiet_settle s (resetVfs 4 (modFn 0 (fun g => { g with cfg := { g.cfg with vfEnable := false } }) s))
  have under : UnderReset f 4 s (resetVfs 4 (modFn 0 (fun g => { g with cfg := { g.cfg with vfEnable := false } }) s)) := by
    unfold UnderReset at begins ⊢
    rw [fn_modFn_ne _ _ vf] at begins
    exact begins
  refine ⟨_, is, UnderReset.settle under s, (congrArg (fun g : Fn => g.cfg.vfEnable) (calm.2 0) :).trans ?_, (calm.run 0).trans ?_,
    calm.jobs.trans ((congrArg State.jobs all.rest :).trans empty), calm.mem.trans (congrArg State.mem all.rest :),
    calm.store.trans (congrArg State.store all.rest :), calm.life.trans (congrArg State.life all.rest :)⟩
  · show ((resetVfs 4 _).fn 0).cfg.vfEnable = false
    rw [clear]
  · rw [clear]

/-! ## Bus Master Enable (R151) -/

theorem busMasterClear_resets {s : State} {f : Nat} (vf : f ≠ 0) (live : InService s f) (works : 0 < s.inFlight f) :
    Answers (.busMasterEnableClear f) s fun t => UnderReset f 3 s t ∧ t.life = s.life := by
  have is : exec (.busMasterEnableClear f) s = settled s (startReset f 3 (modFn f (fun g => { g with cfg := { g.cfg with bme := false } }) s)) :=
    (if_neg live.1).trans (congrArg (settled s) (if_neg (Nat.ne_of_gt works)))
  rw [startReset_vf 3 vf] at is
  have begins := underReset_begins (s := modFn f (fun g => { g with cfg := { g.cfg with bme := false } }) s) (f := f) 3 (by
    unfold InService
    rw [fn_modFn_self]
    exact live)
  have under : UnderReset f 3 s (beginReset f 3 (modFn f (fun g => { g with cfg := { g.cfg with bme := false } }) s)) := by
    unfold UnderReset at begins ⊢
    rw [fn_modFn_self] at begins
    exact begins
  exact ⟨_, is, UnderReset.settle under s, (quiet_settle s _).life.trans (life_beginReset _ _ _)⟩

theorem busMasterClear_plain {s : State} {f : Nat} (up : (s.fn f).run ≠ .resetting) (idle : s.inFlight f = 0) :
    Answers (.busMasterEnableClear f) s (Quiet (modFn f (fun g => { g with cfg := { g.cfg with bme := false } }) s)) :=
  ⟨_, (if_neg up).trans (congrArg (settled s) (if_pos idle)), quiet_settle _ _⟩

theorem reset_goes_on {s : State} {f cause : Nat} (covered : f ≠ 0 ∨ cause ≠ 7) (h : (s.fn f).run = .resetting) :
    Answers (.functionReset f cause) s (Quiet s) ∧ Answers (.flr f) s (Quiet s) ∧ Answers (.busMasterEnableClear f) s (Quiet s) := by
  refine ⟨⟨_, congrArg (settled s) (startReset_resetting covered h), quiet_settle s s⟩,
    ⟨_, congrArg (settled s) (startReset_resetting (.inr (by decide)) h), quiet_settle s s⟩, ⟨_, if_pos h, .refl s⟩⟩

/-! ## The end of a reset (R163, R164, R169) -/

/-- The state after the reset of `f` has ended, with its record. -/
def resetDone (f : Nat) (s : State) : State :=
  record 0x0203 0 f (s.fn f).resetCause (sinceUs s.now (s.fn f).resetAt) (s := modFn f afterReset s)

theorem quiet_resetDone (f : Nat) (s : State) : Quiet (modFn f afterReset s) (resetDone f s) := quiet_record ..

theorem exec_resetComplete {s : State} {f : Nat} (run : (s.fn f).run = .resetting) (reading : (s.fn f).reading = []) (idle : s.inFlight f = 0) :
    exec (.functionResetComplete f) s = settled s (resetEnds f (resetDone f s)) := if_pos ⟨run, reading, idle⟩

/-- The completion of the command that waited. -/
theorem answered_of_find {u s : State} {j : Job} {p : Job → Bool} (found : s.jobs.find? p = some j) (jobs : u.jobs = s.jobs) (d : Done) :
    ((decideJob j.ref d u).job? j.ref).map (·.outcome) = some (some d) := by
  obtain ⟨k, is⟩ : ∃ k, u.job? j.ref = some k := by
    refine Option.isSome_iff_exists.mp (List.find?_isSome.mpr ⟨j, ?_, by simp⟩)
    rw [jobs]
    exact List.mem_of_find?_eq_some found
  rw [job_decideJob_self, is]
  rfl

theorem resetEnds_plain {s u : State} {f : Nat} (jobs : u.jobs = s.jobs) (free : s.jobs.find? (waitsReset f Op.fnFree) = none)
    (wait : s.jobs.find? (waitsReset f Op.fnReset) = none) : resetEnds f u = u := by
  unfold resetEnds
  rw [jobs, free, wait]

theorem resetEnds_answers {s u : State} {f : Nat} {j : Job} (jobs : u.jobs = s.jobs) (free : s.jobs.find? (waitsReset f Op.fnFree) = none)
    (wait : s.jobs.find? (waitsReset f Op.fnReset) = some j) :
    resetEnds f u = decideJob j.ref { status := Status.ok } (fnAdmin f Op.fnReset u) := by
  unfold resetEnds
  rw [jobs, free, wait]

/-- A function given back by FN_FREE. -/
def freedFn (g : Fn) : Fn := { cfg := resetCfg g.cfg, event := g.event &&& 0x10#32 }

theorem resetEnds_frees {s u : State} {f : Nat} {j : Job} (jobs : u.jobs = s.jobs) (free : s.jobs.find? (waitsReset f Op.fnFree) = some j) :
    resetEnds f u = decideJob j.ref { status := Status.ok }
      (modFn f freedFn (fnAdmin f Op.fnFree u)) := by
  unfold resetEnds
  rw [jobs, free]
  rfl

/-- A function after its reset, as far as a state that agrees with it but for signals shows. -/
theorem readyAgain {s t : State} {f : Nat} (calm : ∀ g, stillFn (t.fn g) = stillFn ((modFn f afterReset s).fn g)) :
    (t.fn f).run = .ready ∧ (t.fn f).tenant = (s.fn f).tenant ∧ (t.fn f).jqs = [] ∧ (t.fn f).cqs = [] ∧ (t.fn f).sk = [] ∧
      (t.fn f).quota = (s.fn f).quota ∧ (t.fn f).qosMin = (s.fn f).qosMin ∧ (t.fn f).log = (s.fn f).log ∧
      ∀ g, g ≠ f → stillFn (t.fn g) = stillFn (s.fn g) := by
  have own := calm f
  rw [fn_modFn_self] at own
  exact ⟨(congrArg Fn.run own :), (congrArg Fn.tenant own :), (congrArg Fn.jqs own :), (congrArg Fn.cqs own :), (congrArg Fn.sk own :),
    (congrArg Fn.quota own :), (congrArg Fn.qosMin own :), (congrArg Fn.log own :), fun g ne => (calm g).trans (by rw [fn_modFn_ne _ _ ne])⟩

/-- The end of a reset for which no FN_FREE waits. -/
abbrev ResetEnded (f : Nat) (s t : State) : Prop :=
  (t.fn f).run = .ready ∧ (t.fn f).tenant = (s.fn f).tenant ∧ (t.fn f).jqs = [] ∧ (t.fn f).cqs = [] ∧ (t.fn f).sk = [] ∧
    (t.fn f).quota = (s.fn f).quota ∧ (t.fn f).qosMin = (s.fn f).qosMin ∧ (t.fn f).log = (s.fn f).log ∧ t.mem = s.mem ∧ t.store = s.store ∧
    ∀ g, g ≠ f → stillFn (t.fn g) = stillFn (s.fn g)

theorem resetEnded_of_still {s t : State} {f : Nat} (calm : ∀ g, stillFn (t.fn g) = stillFn ((modFn f afterReset s).fn g)) (mem : t.mem = s.mem)
    (store : t.store = s.store) : ResetEnded f s t := by
  obtain ⟨run, tenant, jqs, cqs, sk, quota, qos, log, other⟩ := readyAgain calm
  exact ⟨run, tenant, jqs, cqs, sk, quota, qos, log, mem, store, other⟩

theorem resetComplete_ends {s : State} {f : Nat} (run : (s.fn f).run = .resetting) (reading : (s.fn f).reading = []) (idle : s.inFlight f = 0)
    (free : s.jobs.find? (waitsReset f Op.fnFree) = none) :
    Answers (.functionResetComplete f) s fun t => ResetEnded f s t ∧
      (∀ j, s.jobs.find? (waitsReset f Op.fnReset) = some j → (t.job? j.ref).map (·.outcome) = some (some { status := 0x00 })) ∧
      (s.jobs.find? (waitsReset f Op.fnReset) = none → t.jobs = s.jobs) := by
  have is := exec_resetComplete run reading idle
  have done := quiet_resetDone f s
  have jobs : (resetDone f s).jobs = s.jobs := done.jobs
  cases wait : s.jobs.find? (waitsReset f Op.fnReset) with
  | none =>
    rw [resetEnds_plain jobs free wait] at is
    have calm := done.trans (quiet_settle s _)
    refine ⟨_, is, resetEnded_of_still calm.2 calm.mem calm.store, fun k e => ?_, fun _ => calm.jobs⟩
    nomatch e
  | some j =>
    rw [resetEnds_answers jobs free wait] at is
    have noted := done.trans (quiet_fnAdmin f Op.fnReset _)
    generalize fnAdmin f Op.fnReset (resetDone f s) = u at is noted
    have calm := quiet_settle s (decideJob j.ref { status := Status.ok } u)
    refine ⟨_, is, resetEnded_of_still (fun g => (calm.2 g).trans (noted.2 g)) (calm.mem.trans noted.mem) (calm.store.trans noted.store),
      fun k e => ?_, nofun⟩
    obtain rfl := Option.some.inj e
    rw [calm.job?]
    exact answered_of_find wait noted.jobs _

theorem resetComplete_frees {s : State} {f : Nat} {j : Job} (run : (s.fn f).run = .resetting) (reading : (s.fn f).reading = [])
    (idle : s.inFlight f = 0) (free : s.jobs.find? (waitsReset f Op.fnFree) = some j) :
    Answers (.functionResetComplete f) s fun t => (t.fn f).run = .unallocated ∧ (t.fn f).quota = 0 ∧ (t.fn f).jqN = 0 ∧
      (t.fn f).jqs = [] ∧ (t.fn f).cqs = [] ∧ (t.fn f).sk = [] ∧ (t.fn f).log = none ∧
      (t.job? j.ref).map (·.outcome) = some (some { status := 0x00 }) ∧ t.mem = s.mem ∧ t.store = s.store ∧
      ∀ g, g ≠ f → stillFn (t.fn g) = stillFn (s.fn g) := by
  have is := exec_resetComplete run reading idle
  have noted := (quiet_resetDone f s).trans (quiet_fnAdmin f Op.fnFree _)
  rw [resetEnds_frees (quiet_resetDone f s).jobs free] at is
  generalize fnAdmin f Op.fnFree (resetDone f s) = u at is noted
  have calm := quiet_settle s (decideJob j.ref { status := Status.ok } (modFn f freedFn u))
  have own : stillFn ((settle s (decideJob j.ref { status := Status.ok } (modFn f freedFn u))).fn f) = stillFn (freedFn (u.fn f)) :=
    (calm.2 f).trans (congrArg stillFn (fn_modFn_self u f freedFn))
  refine ⟨_, is, (congrArg Fn.run own :), (congrArg Fn.quota own :), (congrArg Fn.jqN own :), (congrArg Fn.jqs own :), (congrArg Fn.cqs own :),
    (congrArg Fn.sk own :), (congrArg Fn.log own :), ?_, calm.mem.trans noted.mem, calm.store.trans noted.store, fun g ne => ?_⟩
  · rw [calm.job?]
    exact answered_of_find free noted.jobs _
  · exact (calm.2 g).trans ((congrArg stillFn (fn_modFn_ne u freedFn ne)).trans ((noted.2 g).trans (congrArg stillFn (fn_modFn_ne s afterReset ne))))

/-! ## FN_RESET and FN_FREE (R163, R169) -/

theorem of_admin {s : State} {f op : Nat} {j : Job} (hj : s.admin? f op = some j) : j.ref.fn = f ∧ j.outcome = none := by
  have all := List.find?_some hj
  simp only [Bool.and_eq_true, decide_eq_true_eq, Option.isNone_iff_eq_none] at all
  exact ⟨all.1.1.1.1.1.1.1.1, all.1.1.1.1.2⟩

/-- The reset that an admin command of PF0 starts, from a state in which the command waits for it. -/
theorem commandReset_begins {s u : State} {j : Job} {f cause : Nat} (hj : s.job? j.ref = some j) (pf0 : j.ref.fn = 0) (open_ : j.outcome = none)
    (sub : ∀ c ∈ s.worlds.calls, c.subJob ≠ some j.ref) (vf : f ≠ 0) (live : InService s f)
    (fns : ∀ g, u.fn g = s.fn g ∨ u.fn g = { s.fn g with log := none })
    (rest : { u with fns := s.fns } = modJob j.ref (fun k => { k with phase := 1 }) s) :
    let t := settle s (startReset f cause u)
    UnderReset f cause s t ∧ ((u.fn f).log = none → (t.fn f).log = none) ∧ (s.inFlight f = 0 → t.mem = s.mem ∧ t.store = s.store) ∧
      t.life = s.life ∧ (t.job? j.ref).map (fun k => (k.phase, k.outcome)) = some (1, none) := by
  intro t
  have run (g : Nat) : (u.fn g).run = (s.fn g).run := by rcases fns g with is | is <;> rw [is]
  have up : InService u f := by unfold InService; rwa [run]
  have freed := frees_reset f u
  have eq := beginReset_eq cause up
  have calm : Quiet (beginReset f cause u) t := by
    show Quiet _ (settle s (startReset f cause u))
    rw [startReset_vf cause vf]
    exact quiet_settle s _
  have under : UnderReset f cause s (beginReset f cause u) := by
    have begins := underReset_begins cause up
    unfold UnderReset at begins ⊢
    rw [show u.now = s.now from (congrArg State.now rest :)] at begins
    rcases fns f with is | is <;> rw [is] at begins <;> exact begins
  have jobs : u.jobs = (modJob j.ref (fun k => { k with phase := 1 }) s).jobs := (congrArg State.jobs rest :)
  have named : u.job? j.ref = some { j with phase := 1 } := (job_congr jobs j.ref).trans (job_modJob_self hj)
  refine ⟨?_, fun off => (calm.log f).trans ?_, fun idle => ?_, calm.life.trans ((life_beginReset f cause u).trans (congrArg State.life rest :)), ?_⟩
  · show UnderReset f cause s (settle s (startReset f cause u))
    rw [startReset_vf cause vf]
    exact UnderReset.settle under s
  · rw [eq, fn_modFn_self]
    exact freed.log f off
  · have held : u.inFlight f = s.inFlight f := by
      unfold State.inFlight
      rw [jobs]
      unfold modJob
      show (List.filter _ (List.map _ s.jobs)).length = _
      rw [List.filter_map, List.length_map]
      refine congrArg (fun p => (List.filter p s.jobs).length) (funext fun k => ?_)
      show decide (JobRef.fn (Job.ref (if k.ref = j.ref then { k with phase := 1 } else k)) = f) = decide (k.ref.fn = f)
      split <;> rfl
    obtain ⟨o, is⟩ := beginReset_idle cause up (held.trans idle)
    exact ⟨calm.mem.trans ((congrArg State.mem is).trans (congrArg State.mem rest :)),
      calm.store.trans ((congrArg State.store is).trans (congrArg State.store rest :))⟩
  · have kept : (beginReset f cause u).job? j.ref = u.job? j.ref := by
      rw [eq]
      refine freed.job j.ref ⟨by rw [pf0]; exact vf.symm, fun c hc => sub c ?_⟩
      rwa [show u.worlds = s.worlds from (congrArg State.worlds rest :)] at hc
    rw [calm.job?, kept, named]
    exact congrArg (fun o => some (1, o)) open_

/-- A command on a VF that its checks let pass names one that is allocated. -/
theorem vf_of_rows {s : State} {f : Nat} {rows : List (Bool × Done)} (passed : firstFail rows = none) (all : ∀ r ∈ fnRows s f, r ∈ rows) :
    f ≠ 0 ∧ (s.fn f).run ≠ .unallocated := by
  have low := row_of_firstFail passed (all _ (.head _))
  have alloc := row_of_firstFail passed (all _ (.tail _ (.head _)))
  simp only [Bool.or_eq_false_iff, decide_eq_false_iff_not] at low alloc
  exact ⟨by omega, alloc⟩

theorem fnReset_answers {s : State} {j : Job} (hj : s.admin? 0 Op.fnReset = some j) (job : s.job? j.ref = some j) (phase : j.phase = 0)
    (sub : ∀ c ∈ s.worlds.calls, c.subJob ≠ some j.ref) :
    let f := j.entry.leAt 0x10 2
    firstFail ((rsvSet j.entry [(0x12, 46)], bad 0x02) :: fnRows s f) = none →
    if (s.fn f).run = .resetting then
      Answers .fnReset s (Quiet (modJob j.ref (fun k => { k with phase := 1 }) s))
    else
      Answers .fnReset s fun t => UnderReset f 2 s t ∧ (s.inFlight f = 0 → t.mem = s.mem ∧ t.store = s.store) ∧ t.life = s.life ∧
        (t.job? j.ref).map (fun k => (k.phase, k.outcome)) = some (1, none) := by
  intro f passed
  obtain ⟨vf, allocated⟩ := vf_of_rows passed fun _ h => .tail _ h
  obtain ⟨pf0, open_⟩ := of_admin hj
  have is : exec .fnReset s = settled s (startReset f 2 (modJob j.ref (fun k => { k with phase := 1 }) s)) := by
    show execFnReset s = _
    unfold execFnReset
    refine runAdminSteps_of_wait hj ?_
    dsimp only
    rw [if_neg (not_not.mpr phase), passed]
  split
  · next run =>
    rw [startReset_resetting (s := modJob j.ref (fun k => { k with phase := 1 }) s) (.inl vf) run] at is
    exact ⟨_, is, quiet_settle s _⟩
  · next up =>
    obtain ⟨under, -, idle, life, named⟩ := commandReset_begins (cause := 2)
      (u := modJob j.ref (fun k => { k with phase := 1 }) s) job pf0 open_ sub vf ⟨up, allocated⟩ (fun _ => .inl rfl) rfl
    exact ⟨_, is, under, idle, life, named⟩

theorem fnFree_answers {s : State} {j : Job} (hj : s.admin? 0 Op.fnFree = some j) (job : s.job? j.ref = some j) (phase : j.phase = 0)
    (sub : ∀ c ∈ s.worlds.calls, c.subJob ≠ some j.ref) :
    let f := j.entry.leAt 0x10 2
    firstFail (freeRows s j.entry) = none →
    if (s.fn f).run = .resetting then
      Answers .fnFree s (Quiet (modFn f (fun g => { g with log := none }) (modJob j.ref (fun k => { k with phase := 1 }) s)))
    else
      Answers .fnFree s fun t => UnderReset f 6 s t ∧ (t.fn f).log = none ∧
        (s.inFlight f = 0 → t.mem = s.mem ∧ t.store = s.store) ∧ t.life = s.life ∧
        (t.job? j.ref).map (fun k => (k.phase, k.outcome)) = some (1, none) := by
  intro f passed
  obtain ⟨vf, allocated⟩ := vf_of_rows (s := s) (f := f) passed fun _ h => List.mem_append_left _ (.tail _ h)
  obtain ⟨pf0, open_⟩ := of_admin hj
  have is : exec .fnFree s =
      settled s (startReset f 6 (modFn f (fun g => { g with log := none }) (modJob j.ref (fun k => { k with phase := 1 }) s))) := by
    show execFnFree s = _
    unfold execFnFree
    refine runAdminSteps_of_wait hj ?_
    dsimp only
    rw [if_neg (not_not.mpr phase), passed]
  split
  · next run =>
    rw [startReset_resetting (.inl vf) (by rw [fn_modFn_self]; exact run)] at is
    exact ⟨_, is, quiet_settle s _⟩
  · next up =>
    have fns (g : Nat) : (modFn f (fun g => { g with log := none }) (modJob j.ref (fun k => { k with phase := 1 }) s)).fn g = s.fn g ∨
        (modFn f (fun g => { g with log := none }) (modJob j.ref (fun k => { k with phase := 1 }) s)).fn g = { s.fn g with log := none } := by
      rw [fn_modFn]
      split
      · next e => exact .inr (by rw [e]; rfl)
      · exact .inl rfl
    obtain ⟨under, log, idle, life, named⟩ := commandReset_begins (cause := 6) job pf0 open_ sub vf ⟨up, allocated⟩ fns rfl
    exact ⟨_, is, under, log (by rw [fn_modFn_self]), idle, life, named⟩

/-- Settles O34: the reset point gives up a function's jobs and leaves it RESETTING; its end, by the commands that wait for it. -/
theorem functionResets : Obligations.FunctionResets := by
  unfold Obligations.FunctionResets
  refine ⟨fun s f vf up alloc => vfReset_begins vf ⟨up, alloc⟩ rfl,
    fun s f up alloc empty mem vf fup falloc => pf0Reset_begins ⟨up, alloc⟩ empty mem vf ⟨fup, falloc⟩,
    fun s f cause vf up alloc => vfReset_begins vf ⟨up, alloc⟩ rfl, fun s f cause covered run => reset_goes_on covered run,
    fun s f mem vf pf0 up alloc empty => vfEnableClear_resets mem vf pf0 ⟨up, alloc⟩ empty,
    fun s f vf up alloc works => busMasterClear_resets vf ⟨up, alloc⟩ works, fun s f up idle => busMasterClear_plain up idle,
    fun s f run reading idle free => ?_, fun s f j run reading idle free => resetComplete_frees run reading idle free,
    fun s j hj job phase sub => fnReset_answers hj job phase sub, fun s j hj job phase sub => fnFree_answers hj job phase sub⟩
  obtain ⟨t, is, ⟨ready, tenant, jqs, cqs, sk, quota, qos, log, mem, store, other⟩, answered, plain⟩ := resetComplete_ends run reading idle free
  refine ⟨t, is, ready, tenant, jqs, cqs, sk, quota, qos, log, mem, store, other, ?_⟩
  cases wait : s.jobs.find? (waitsReset f Op.fnReset) with
  | some j => exact answered j wait
  | none => exact plain wait

end Sys2Proof.Safety
end

section
/-!
PROOFS. Parity, shadows, Vesper's silence and the Meridian source (R306 to R308, R422).
-/

-- In turn: a proof that waits for others beside it takes a thread and its stack from the memory that the check allows.
set_option Elab.async false

namespace Sys2Proof.Safety

open Sys2Proof.Machine

/-! ## Error bits stay set -/

/-- `t` shows the error bits that `s` shows. -/
def Shows (s t : State) : Prop := ∀ c n, ErrShown c n s → ErrShown c n t

theorem Shows.refl (s : State) : Shows s s := fun _ _ h => h

theorem Shows.trans {s t u : State} (a : Shows s t) (b : Shows t u) : Shows s u := fun c n h => b c n (a c n h)

theorem Shows.of_err {s t : State} (h : t.regs.err = s.regs.err := by exact rfl) : Shows s t := fun _ _ shown => ErrShown.congr shown h

theorem shows_record (code level p0 p1 p2 p3 : Nat) (nested : Bool) (s : State) : Shows s (record code level p0 p1 p2 p3 nested s) :=
  .of_err (err_record code level p0 p1 p2 p3 nested s)

theorem shows_settle (old s : State) : Shows s (settle old s) := .of_err (err_settle old s)

theorem shows_setErr (c n : Nat) (s : State) : Shows s (setErr c n s) := by
  have put : Shows s { s with regs := { s.regs with err := s.regs.err.set c (s.regs.err.getD c 0 ||| BitVec.ofNat 32 (2 ^ n)) } } := by
    intro k m h
    show ((s.regs.err.set c _).getD k 0).getLsbD m = true
    by_cases e : k = c
    · subst e
      by_cases block : k < s.regs.err.length
      · rw [List.getD_eq_getElem _ _ (by rw [List.length_set]; exact block), List.getElem_set_self, BitVec.getLsbD_or, h]
        rfl
      · rw [List.set_eq_of_length_le (Nat.not_lt.mp block)]
        exact h
    · rw [List.getD_eq_getElem?_getD, List.getElem?_set_ne (Ne.symm e), ← List.getD_eq_getElem?_getD]
      exact h
  unfold setErr
  dsimp only
  split
  · exact .refl s
  · split
    · exact put.trans (.of_err (err_raiseSource _ _))
    · split
      · exact put.trans (.of_err (err_raiseSource _ _))
      · exact put

theorem errLength_raise (c n : Nat) (s : State) : (setErr c n s).regs.err.length = s.regs.err.length := by
  have put (e : Word) : (s.regs.err.set c e).length = s.regs.err.length := List.length_set
  unfold setErr
  dsimp only
  split
  · rfl
  · split
    · rw [err_raiseSource]
      exact put _
    · split
      · rw [err_raiseSource]
        exact put _
      · exact put _

/-! ## Parity (R307) -/

theorem err_signalTimes : ∀ (n : Nat) (s : State), (signalTimes n s).regs.err = s.regs.err
  | 0, _ => rfl
  | n + 1, s => by
    refine (err_signalTimes n (signalDevice s)).trans ?_
    unfold signalDevice
    split
    · exact err_vecEvent _ _ _ _
    · rfl

theorem err_storeReg {c off v : Nat} (b : Bits) (s : State) (plain : off ≠ 8) : (storeReg c off v b s).regs.err = s.regs.err := by
  unfold storeReg
  rw [if_neg plain]
  split
  · rfl
  · split
    · split
      · rfl
      · split
        · rfl
        · split
          · exact err_signalTimes _ _
          · unfold putDsrcCfg signalDevice
            dsimp only
            split
            · split
              · exact err_vecEvent _ _ _ _
              · rfl
            · rfl
    · split
      · split <;> rfl
      · split
        · split
          · rfl
          · unfold putRule
            split
            · rfl
            · split
              · rfl
              · split <;> rfl
        · split
          · unfold kickDog
            split <;> rfl
          · split
            · split <;> rfl
            · rfl

theorem err_resetReg {c off : Nat} (s : State) (plain : off ≠ 8) : (resetReg c off s).regs.err = s.regs.err := by
  unfold resetReg
  split
  · exact err_storeReg _ _ plain
  · split
    · rfl
    · exact err_storeReg _ _ plain

/-- An error register holds no RW bit. -/
theorem plain_of_rw {c off : Nat} {i : RegInfo} (is : regInfo c off = some i) (rw : i.rw ≠ 0) : off ≠ 8 := fun e => by
  subst e
  exact rw (congrArg RegInfo.rw (Option.some.inj is).symm)

theorem parityRecord_plain (p0 off how : Nat) (s : State) : parityRecord p0 off how false s = record 0x0901 1 p0 off how 0 false (bump 0x11 s) := by
  unfold parityRecord
  rw [if_neg Bool.false_ne_true]

theorem quiet_parityRecord (p0 off how : Nat) (s : State) : Quiet s (parityRecord p0 off how false s) := by
  rw [parityRecord_plain]
  exact (quiet_bump _ s).trans (quiet_record ..)

theorem shows_parityRecord (p0 off how : Nat) (s : State) : Shows s (parityRecord p0 off how false s) := by
  rw [parityRecord_plain]
  exact Shows.trans (t := bump 0x11 s) (.of_err rfl) (shows_record _ _ _ _ _ _ _ _)

/-- A mismatch in a register of block `c`, by what it leaves of the register. -/
theorem parity_answers {s u : State} {c off how addr : Nat} (on : s.mainOn = true) (block : c < 12) (err : u.regs.err = s.regs.err)
    (is : parityError (.bar addr) false s = parityRecord c off how false (setErr c 16 u)) :
    Answers (.parityScrub [.bar addr]) s fun t => Quiet u t ∧ (s.regs.err.length = 12 → ErrShown c 16 t) := by
  have run : exec (.parityScrub [.bar addr]) s = settled s (parityError (.bar addr) false s) := congrArg (settled s) (if_pos on)
  rw [is] at run
  exact ⟨_, run, (quiet_setErr c 16 u).trans ((quiet_parityRecord c off how _).trans (quiet_settle s _)), fun len =>
    shows_settle s _ c 16 (shows_parityRecord c off how _ c 16 (shown_setErr (by rw [err, len]; exact block) (by decide)))⟩

theorem parityError_bar {s : State} {c off addr : Nat} {i : RegInfo} (again : Bool) (hc : addr / 0x100000 = c) (ho : addr % 0x100000 = off)
    (block : c < 12) (info : regInfo c off = some i) (rw : i.rw ≠ 0) : parityError (.bar addr) again s =
      if i.secure then parityRecord c off 1 again (setErr c 16 s) else parityRecord c off 2 false (setErr c 16 (resetReg c off s)) := by
  unfold parityError
  dsimp only
  rw [hc, ho, info]
  exact if_neg fun h => h.elim rw fun h => Nat.not_lt.mpr h block

theorem parity_register {s : State} {c off addr : Nat} {i : RegInfo} (on : s.mainOn = true) (hc : addr / 0x100000 = c)
    (ho : addr % 0x100000 = off) (block : c < 12) (info : regInfo c off = some i) (rw : i.rw ≠ 0) :
    Answers (.parityScrub [.bar addr]) s fun t =>
      Quiet (if i.secure then s else resetReg c off s) t ∧ (s.regs.err.length = 12 → ErrShown c 16 t) := by
  have split := parityError_bar (s := s) false hc ho block info rw
  cases secure : i.secure with
  | true =>
    rw [if_pos rfl]
    exact parity_answers on block rfl (split.trans (if_pos secure))
  | false =>
    rw [if_neg Bool.false_ne_true]
    exact parity_answers on block (err_resetReg s (plain_of_rw info rw)) (split.trans (if_neg (by rw [secure]; exact Bool.false_ne_true)))

theorem parity_errEn {s : State} {c addr : Nat} (on : s.mainOn = true) (hc : addr / 0x100000 = c) (ho : addr % 0x100000 = 0xC)
    (block : c < 12) (len : s.regs.errEn.length = 12) :
    Answers (.parityScrub [.bar addr]) s (Quiet { s with regs := { s.regs with errEn := s.regs.errEn.set c 0x1FFFF#32 } }) := by
  obtain ⟨t, is, calm, -⟩ := parity_register (i := { rw := 0xFFFF }) on hc ho block rfl (by decide)
  refine ⟨t, is, ?_⟩
  have reset : resetReg c 0xC s = { s with regs := { s.regs with errEn := s.regs.errEn.set c 0x1FFFF#32 } } := by
    show ({ s with regs := { s.regs with errEn := s.regs.errEn.modify c fun _ => BitVec.ofNat 32 (0xFFFF % 65536 + 65536) } } : State) = _
    rw [List.modify_eq_set_get _ (by rw [len]; exact block)]
  rw [← reset]
  exact calm

theorem parity_page {s : State} {f off : Nat} (on : s.mainOn = true) (vf : f ≠ 0) (page : pageParity off = true) (live : InService s f) :
    Answers (.parityScrub [.page f off]) s fun t => UnderReset f 5 s t ∧ (t.fn f).event.getLsbD 4 = true ∧ ResetFrame f s t ∧
      t.life = s.life := by
  have noted : Quiet s (setEvent f 4 (parityRecord (0x100 + f) off 3 false s)) := (quiet_parityRecord _ _ _ s).trans (quiet_setEvent _ _ _)
  have shown := setEvent_shows f 4 (by decide) (parityRecord (0x100 + f) off 3 false s)
  have is : exec (.parityScrub [.page f off]) s = settled s (startReset f 5 (setEvent f 4 (parityRecord (0x100 + f) off 3 false s))) := by
    refine congrArg (settled s) ((if_pos on).trans ?_)
    exact if_pos ⟨page, live.2, live.1⟩
  generalize setEvent f 4 (parityRecord (0x100 + f) off 3 false s) = u at *
  rw [startReset_vf 5 vf] at is
  have up : InService u f := by unfold InService; rwa [noted.run]
  have begins := underReset_begins 5 up
  have under : UnderReset f 5 s (beginReset f 5 u) := by
    unfold UnderReset at begins ⊢
    rw [noted.now, noted.tenant, noted.jqs] at begins
    exact begins
  have events : ((beginReset f 5 u).fn f).event.getLsbD 4 = true := by
    rw [beginReset_eq 5 up, fn_modFn_self]
    exact (frees_reset f u).events f 4 shown
  have calm := quiet_settle s (beginReset f 5 u)
  refine ⟨_, is, UnderReset.settle under s, events_settle s _ f 4 events, fun idle => ?_, calm.life.trans ((life_beginReset f 5 u).trans noted.life)⟩
  obtain ⟨o, plain⟩ := beginReset_idle 5 up (by unfold State.inFlight; rw [noted.jobs]; exact idle)
  have others (g : Nat) (ne : g ≠ f) : (beginReset f 5 u).fn g = u.fn g := by
    rw [plain]
    exact fn_modFn_ne u _ ne
  exact ⟨calm.jobs.trans ((congrArg State.jobs plain).trans noted.jobs), calm.mem.trans ((congrArg State.mem plain).trans noted.mem),
    calm.store.trans ((congrArg State.store plain).trans noted.store), calm.fab.trans ((congrArg State.fab plain).trans noted.fab),
    fun g ne => (calm.2 g).trans ((congrArg stillFn (others g ne)).trans (noted.2 g))⟩

/-! ## Shadows (R308) -/

/-- The logic takes the normal world, whatever CU_WORLD and its shadow hold. -/
theorem world_taken (x : Nat) : x &&& (1 - x) = 0 := by
  match x with
  | 0 => rfl
  | 1 => rfl
  | n + 2 => rw [show 1 - (n + 2) = 0 by omega, Nat.and_zero]

theorem reRead_takeLeast (r : ShadowReg) (s : State) :
    reRead (takeLeast r s) = { s with free := s.free + 1, worlds := { s.worlds with taken := if r = .world then some (.world, 0) else none } } := by
  cases r with
  | world =>
    show drewFree { s with worlds := { s.worlds with taken := some (.world, leastGrant .world _ (1 - _)) } } = _
    rw [show ∀ x, leastGrant .world x (1 - x) = 0 from world_taken]
    rfl
  | _ => rfl

theorem shadow_answers {s : State} (r : ShadowReg) (on : s.mainOn = true) :
    Answers (.shadowMismatch r) s fun t => (s.regs.err.length = 12 → ErrShown (shadowPlace r).1 2 t) ∧
      Quiet { s with free := s.free + 1, worlds := { s.worlds with taken := if r = .world then some (.world, 0) else none } } t := by
  have noted : Quiet s (record 0x0902 1 (shadowPlace r).2 (s := setErr (shadowPlace r).1 2 s)) := (quiet_setErr _ _ s).trans (quiet_record ..)
  have shown (len : s.regs.err.length = 12) : ErrShown (shadowPlace r).1 2 (record 0x0902 1 (shadowPlace r).2 (s := setErr (shadowPlace r).1 2 s)) :=
    shows_record _ _ _ _ _ _ _ _ _ _ (shown_setErr (by rw [len]; cases r <;> decide) (by decide))
  refine ⟨_, congrArg (settled s) (if_pos on), ?_⟩
  rw [reRead_takeLeast]
  generalize record 0x0902 1 (shadowPlace r).2 (s := setErr (shadowPlace r).1 2 s) = u at *
  have taken : Quiet { s with free := s.free + 1, worlds := { s.worlds with taken := if r = .world then some (.world, 0) else none } }
      { u with free := u.free + 1, worlds := { u.worlds with taken := if r = .world then some (.world, 0) else none } } :=
    noted.map fun x => { x with free := x.free + 1, worlds := { x.worlds with taken := if r = .world then some (.world, 0) else none } }
  exact ⟨fun len => shows_settle s _ _ _ (ErrShown.congr (shown len) rfl), taken.trans (quiet_settle s _)⟩

/-! ## Vesper's silence (R306) -/

/-- What an access of Vesper left unanswered leaves. -/
theorem vesperSilent_leaves (off : Nat) (w : Bool) (s : State) :
    Quiet { s with red := { s.red with vsSilent := true } } (vesperSilent off w s) ∧ (w = false → .completerAbort 0 ∈ (vesperSilent off w s).out) ∧
      (s.red.vsSilent = true → (vesperSilent off w s).boot.escalated.isSome = true) ∧
      (s.regs.err.length = 12 → ErrShown Block.vs 0 (vesperSilent off w s)) := by
  have noted : Quiet s (record 0x0707 3 off (b2n w) (s := setErr Block.vs 0 s)) := (quiet_setErr _ _ s).trans (quiet_record ..)
  have shown (len : s.regs.err.length = 12) : ErrShown Block.vs 0 (record 0x0707 3 off (b2n w) (s := setErr Block.vs 0 s)) :=
    shows_record _ _ _ _ _ _ _ _ _ _ (shown_setErr (by rw [len]; decide) (by decide))
  unfold vesperSilent
  dsimp only
  generalize record 0x0707 3 off (b2n w) (s := setErr Block.vs 0 s) = u at *
  have silent : Quiet { s with red := { s.red with vsSilent := true } } (if s.red.vsSilent then escalate u else { u with red := { u.red with vsSilent := true } }) ∧
      (s.red.vsSilent = true → (if s.red.vsSilent then escalate u else { u with red := { u.red with vsSilent := true } }).boot.escalated.isSome = true) ∧
      (if s.red.vsSilent then escalate u else { u with red := { u.red with vsSilent := true } }).regs = u.regs := by
    by_cases again : s.red.vsSilent = true
    · rw [if_pos again]
      have same : ({ s with red := { s.red with vsSilent := true } } : State) = s := by rw [← again]
      rw [same]
      exact ⟨noted.trans (quiet_escalate u), fun _ => rfl, rfl⟩
    · rw [if_neg again]
      exact ⟨noted.map fun x => { x with red := { x.red with vsSilent := true } }, fun h => absurd h again, rfl⟩
  generalize (if s.red.vsSilent then escalate u else { u with red := { u.red with vsSilent := true } }) = v at *
  obtain ⟨calm, again, regs⟩ := silent
  have err (len : s.regs.err.length = 12) : ErrShown Block.vs 0 v := ErrShown.congr (shown len) (congrArg Regs.err regs)
  cases w with
  | true => exact ⟨calm, nofun, again, err⟩
  | false => exact ⟨calm.trans (quiet_emit _ v), fun _ => .head _, again, err⟩

theorem vsAccessTimeout_answers {s : State} (off : Nat) (w : Bool) (on : s.mainOn = true) :
    Answers (.vsAccessTimeout off w) s fun t => Quiet { s with red := { s.red with vsSilent := true } } t ∧
      (w = false → .completerAbort 0 ∈ t.out) ∧ (s.red.vsSilent = true → t.boot.escalated.isSome = true) ∧
      (s.regs.err.length = 12 → ErrShown Block.vs 0 t) := by
  obtain ⟨calm, abort, again, err⟩ := vesperSilent_leaves off w s
  refine ⟨_, congrArg (settled s) (if_pos on), ?_⟩
  generalize vesperSilent off w s = u at *
  have out : (settle s u).out = u.out := out_settle
    (by unfold State.locked; rw [show u.life = s.life from calm.life]) (by unfold State.noPair; rw [show u.fab = s.fab from calm.fab])
  exact ⟨calm.trans (quiet_settle s u), fun h => by rw [out]; exact abort h, fun h => by rw [boot_settle]; exact again h,
    fun len => shows_settle s u _ _ (err len)⟩

/-! ## The Meridian source (R422) -/

theorem exec_whileRunning {s : State} {h : State → State} (on : s.mainOn = true) : whileRunning h s = settled s (h s) := if_pos on

/-- The source Meridian goes on with: the one that agrees with the calendar, where one alone does. -/
theorem source_eq (was ref osc : Bool) (one : ¬ (ref = false ∧ osc = false)) :
    (if was then ref || !osc else ref && !osc) = if ref = osc then was else ref := by
  cases was <;> cases ref <;> cases osc <;> simp_all

theorem meridianSource_answers {s : State} (ref osc cal : Nat) (on : s.mainOn = true) :
    if s.clock.refclk = false ∨ agrees osc ref = true then Answers (.meridianSourceCheck ref osc cal) s (Quiet s)
    else Answers (.meridianSourceCheck ref osc cal) s fun t =>
      Quiet { s with clock := { s.clock with
        onRef := if agrees ref cal = agrees osc cal then s.clock.onRef else agrees ref cal } } t ∧
      (agrees ref cal = false → agrees osc cal = false → t.boot.escalated.isSome = true) := by
  have is : exec (.meridianSourceCheck ref osc cal) s = execMeridianSourceCheck ref osc cal s := rfl
  unfold execMeridianSourceCheck at is
  rw [exec_whileRunning on] at is
  split
  · next stays =>
    rw [if_pos stays] at is
    exact ⟨_, is, quiet_settle s s⟩
  · next differs =>
    rw [if_neg differs] at is
    generalize agrees ref cal = r at *
    generalize agrees osc cal = o at *
    by_cases none : r = false ∧ o = false
    · obtain ⟨rfl, rfl⟩ := none
      rw [if_pos (by decide)] at is
      refine ⟨_, is, ?_, fun _ _ => by rw [boot_settle]; rfl⟩
      exact (quiet_record ..).trans ((quiet_escalate _).trans (quiet_settle s _))
    · rw [if_neg (by cases r <;> cases o <;> simp_all), source_eq _ _ _ none] at is
      by_cases same : r = o
      · rw [if_pos same, if_pos rfl] at is
        refine ⟨_, is, ?_, fun hr ho => absurd ⟨hr, ho⟩ none⟩
        rw [if_pos same]
        exact (quiet_record ..).trans (quiet_settle s _)
      · rw [if_neg same] at is
        rw [if_neg same]
        by_cases keep : r = s.clock.onRef
        · rw [if_pos keep] at is
          refine ⟨_, is, ?_, fun hr ho => absurd ⟨hr, ho⟩ none⟩
          rw [keep]
          exact (quiet_record ..).trans (quiet_settle s _)
        · rw [if_neg keep] at is
          refine ⟨_, is, ?_, fun hr ho => absurd ⟨hr, ho⟩ none⟩
          exact ((quiet_record ..).map fun x => { x with clock := { x.clock with onRef := r } }).trans ((quiet_bump _ _).trans (quiet_settle s _))

end Sys2Proof.Safety
end

section
/-!
PROOFS. Control stages and control units (R419, R420, R432 to R435).
-/

-- In turn: a proof that waits for others beside it takes a thread and its stack from the memory that the check allows.
set_option Elab.async false

namespace Sys2Proof.Safety

open Sys2Proof.Machine

/-! ## Stages and faults that cannot be mended (R420, R423) -/

theorem quiet_stallIn (block : Nat) (s : State) : Quiet s (stallIn block s) := (quiet_bump _ s).trans (quiet_setErr _ _ _)

theorem shows_stallIn (block : Nat) (s : State) : Shows s (stallIn block s) := Shows.trans (t := bump 6 s) (.of_err rfl) (shows_setErr _ _ _)

theorem unmended_breakBlock {s u : State} (c : Nat) (calm : Quiet s u) : Unmended c s (breakBlock c u) := by
  have broken : Quiet { s with red := { s.red with broken := s.red.broken ||| 2 ^ c } } { u with red := { u.red with broken := u.red.broken ||| 2 ^ c } } :=
    calm.map fun x => { x with red := { x.red with broken := x.red.broken ||| 2 ^ c } }
  exact ⟨broken.trans (quiet_escalate _), rfl⟩

theorem shows_breakBlock (c : Nat) (s : State) : Shows s (breakBlock c s) := .of_err rfl

theorem unmended_settle {s t : State} {c : Nat} (h : Unmended c s t) : Unmended c s (settle s t) := by
  obtain ⟨calm, escalated⟩ := h
  exact ⟨calm.trans (quiet_settle s t), by rw [boot_settle]; exact escalated⟩

theorem stageCompared_stage {s u : State} (b n : Nat) (again p1 p2 : Bool) (calm : Quiet s u) :
    StageCompared b again p1 p2 s (settle s (controlStage b n again p1 p2 u)) := by
  unfold controlStage StageCompared
  by_cases agree : again = true
  · rw [if_pos agree, if_pos agree]
    exact calm.trans ((quiet_record ..).trans ((quiet_bump _ _).trans (quiet_settle _ _)))
  · rw [if_neg agree, if_neg agree]
    by_cases one : p1 ≠ p2
    · rw [if_pos one, if_pos one]
      have simplex : Quiet { s with red := { s.red with simplex := s.red.simplex ||| 2 ^ b } } { u with red := { u.red with simplex := u.red.simplex ||| 2 ^ b } } :=
        calm.map fun x => { x with red := { x.red with simplex := x.red.simplex ||| 2 ^ b } }
      exact simplex.trans ((quiet_record ..).trans (quiet_settle _ _))
    · rw [if_neg one, if_neg one]
      exact unmended_settle (unmended_breakBlock b (calm.trans (quiet_record ..)))

theorem shows_controlStage (b n : Nat) (again p1 p2 : Bool) (s : State) : Shows s (controlStage b n again p1 p2 s) := by
  unfold controlStage
  split
  · exact (shows_record _ _ _ _ _ _ _ s).trans (.of_err rfl)
  · split
    · exact Shows.trans (t := { s with red := { s.red with simplex := s.red.simplex ||| 2 ^ b } }) (.of_err rfl) (shows_record _ _ _ _ _ _ _ _)
    · exact (shows_record _ _ _ _ _ _ _ s).trans (shows_breakBlock _ _)

theorem controlDisagreement_answers {s : State} (b n : Nat) (again p1 p2 : Bool) (on : s.mainOn = true) :
    Answers (.controlStageDisagreement b n again p1 p2) s fun t => StageCompared b again p1 p2 s t ∧ (b < s.regs.err.length → ErrShown b 2 t) :=
  ⟨_, if_pos on, stageCompared_stage b n again p1 p2 (quiet_setErr b 2 s), fun block =>
    shows_settle s _ _ _ (shows_controlStage b n again p1 p2 _ _ _ (shown_setErr block (by decide)))⟩

theorem stallControl_answers {s : State} (b n : Nat) (again p1 p2 : Bool) (on : s.mainOn = true) :
    Answers (.stallLimit (.control b n again p1 p2)) s (StageCompared b again p1 p2 s) :=
  ⟨_, if_pos on, stageCompared_stage b n again p1 p2 (quiet_stallIn b s)⟩

theorem stallStore_answers {s : State} (area addr : Nat) (on : s.mainOn = true) :
    Answers (.stallLimit (.store area addr false)) s (Quiet s) ∧ Answers (.stallLimit (.store area addr true)) s (Unmended (areaBlock area) s) := by
  have noted : Quiet s (record 0x0809 1 area addr (s := stallIn (areaBlock area) s)) := (quiet_stallIn _ s).trans (quiet_record ..)
  exact ⟨⟨_, (if_pos on).trans (congrArg (settled s) (if_neg Bool.false_ne_true)), noted.trans (quiet_settle s _)⟩,
    ⟨_, (if_pos on).trans (congrArg (settled s) (if_pos rfl)), unmended_settle (unmended_breakBlock _ noted)⟩⟩

theorem stallDieLink_answers {s : State} (off : Nat) (w : Bool) (on : s.mainOn = true) :
    Answers (.stallLimit (.dieLink off w)) s fun t => Quiet { s with red := { s.red with vsSilent := true } } t ∧
      (s.red.vsSilent = true → t.boot.escalated.isSome = true) := by
  obtain ⟨calm, -, again, -⟩ := vesperSilent_leaves off w (bump 6 s)
  have counted : Quiet { s with red := { s.red with vsSilent := true } } { bump 6 s with red := { (bump 6 s).red with vsSilent := true } } :=
    (quiet_bump 6 s).map fun x => { x with red := { x.red with vsSilent := true } }
  exact ⟨_, if_pos on, counted.trans (calm.trans (quiet_settle s _)), fun h => by rw [boot_settle]; exact again h⟩

/-! ## Control units (R433 to R435) -/

/-- `t` is `s` but for the control units' state and signals: unit `u` has stood down to state `n`, its drop the last of `drops`. -/
structure Faulted (u : Bool) (s t : State) : Prop where
  rest : Quiet { s with red := t.red } t
  inStep : t.red.inStep = false
  simplex : t.red.simplex = s.red.simplex
  broken : t.red.broken = s.red.broken
  own : t.unit u = if 2 ≤ (s.red.drops.filter fun d => decide (d.1 = u ∧ s.now - d.2 < 60 * second)).length then 4 else 3
  other : t.unit (!u) = if s.red.iris = u then 0 else s.unit (!u)
  iris : t.red.iris = if s.red.iris = u then !u else s.red.iris
  switches : t.red.switches = if s.red.iris = u then satAdd s.red.switches 255 else s.red.switches

theorem Faulted.unitAtFault {u : Bool} {s t : State} (h : Faulted u s t) : UnitAtFault u s t := by
  obtain ⟨rest, inStep, simplex, broken, own, other, iris, switches⟩ := h
  refine ⟨rest, inStep, simplex, broken, own, ?_⟩
  by_cases active : s.red.iris = u
  · rw [if_pos active] at *
    exact ⟨iris, other, switches⟩
  · rw [if_neg active] at *
    exact ⟨iris, other, switches⟩

/-- The control units' state is kept by signals, but for the conditions last recorded. -/
theorem red_of_quiet {s t : State} (q : Quiet s t) : ({ t.red with conditions := 0 } : Redundancy) = { s.red with conditions := 0 } :=
  (congrArg State.red q.1 :)

theorem quiet_withRed {s t : State} (q : Quiet { s with red := t.red } t) {u : State} (calm : Quiet t u) : Quiet { s with red := u.red } u := by
  obtain ⟨rest, fns⟩ := q.trans calm
  refine ⟨rest.trans ?_, fns⟩
  exact (congrArg (fun r : Redundancy => { still s with red := r }) (red_of_quiet calm).symm :)

theorem unit_of_quiet {s t : State} (q : Quiet s t) (u : Bool) : t.unit u = s.unit u := by
  have red := red_of_quiet q
  unfold State.unit
  rw [show t.red.irisSt = s.red.irisSt from (congrArg Redundancy.irisSt red :), show t.red.aster = s.red.aster from (congrArg Redundancy.aster red :)]

theorem Faulted.of_quiet {u : Bool} {s t v : State} (h : Faulted u s t) (calm : Quiet t v) : Faulted u s v := by
  obtain ⟨rest, inStep, simplex, broken, own, other, iris, switches⟩ := h
  have red := red_of_quiet calm
  exact ⟨quiet_withRed rest calm, (congrArg Redundancy.inStep red :).trans inStep, (congrArg Redundancy.simplex red :).trans simplex,
    (congrArg Redundancy.broken red :).trans broken, (unit_of_quiet calm u).trans own, (unit_of_quiet calm _).trans other,
    (congrArg Redundancy.iris red :).trans iris, (congrArg Redundancy.switches red :).trans switches⟩

/-- The other unit is active in place of `u`. -/
def handedOver (u : Bool) (s : State) : State :=
  setUnit (!u) 0 { s with red := { s.red with iris := !u, switches := satAdd s.red.switches 255 } }

/-- Unit `u` has left step, and is in state `n`. -/
def stoodDown (u : Bool) (n : Nat) (drops : List (Bool × Nat)) (s : State) : State :=
  setUnit u n { s with red := { s.red with inStep := false, drops := drops } }

theorem quiet_switchOver (cause : Nat) {s : State} : Quiet (handedOver s.red.iris s) (switchOver cause s) :=
  (quiet_bump 0x0D _).trans ((quiet_setErr _ _ _).trans (quiet_record ..))

theorem Quiet.handedOver {s t : State} (q : Quiet s t) (u : Bool) : Quiet (handedOver u s) (handedOver u t) :=
  q.map (Safety.handedOver u) (fun x => by cases u <;> rfl) fun x => by cases u <;> rfl

theorem Quiet.stoodDown {s t : State} (q : Quiet s t) (u : Bool) (n : Nat) (l : List (Bool × Nat)) :
    Quiet (stoodDown u n l s) (stoodDown u n l t) :=
  q.map (Safety.stoodDown u n l) (fun x => by cases u <;> rfl) fun x => by cases u <;> rfl

/-- The state of unit `u` after its drop: RESYNC, or FAILED at the third within 60 s (R435). -/
def dropState (u : Bool) (s : State) : Nat :=
  if 2 ≤ (s.red.drops.filter fun d => decide (d.1 = u ∧ s.now - d.2 < 60 * second)).length then 4 else 3

theorem quiet_dropUnit (u : Bool) (s : State) :
    Quiet (stoodDown u (dropState u s) ((u, s.now) :: recentDrops s.now s.red.drops) s) (dropUnit u s) := by
  have count : (((u, s.now) :: recentDrops s.now s.red.drops).filter fun d => decide (d.1 = u)).length =
      (s.red.drops.filter fun d => decide (d.1 = u ∧ s.now - d.2 < 60 * second)).length + 1 := by
    rw [List.filter_cons_of_pos (by simp), List.length_cons]
    unfold recentDrops
    rw [List.filter_filter]
    simp only [Bool.decide_and]
  unfold dropUnit dropState
  dsimp only
  rw [count]
  by_cases third : 2 ≤ (s.red.drops.filter fun d => decide (d.1 = u ∧ s.now - d.2 < 60 * second)).length
  · rw [if_pos third, if_pos (Nat.succ_le_succ third)]
    exact quiet_record ..
  · rw [if_neg third, if_neg fun h => third (Nat.le_of_succ_le_succ h)]
    exact .refl _

theorem faulted_stoodDown (u : Bool) (l : List (Bool × Nat)) (s : State) :
    Faulted u s (stoodDown u (dropState u s) l (if s.red.iris = u then handedOver u s else s)) := by
  by_cases active : s.red.iris = u
  · rw [if_pos active]
    cases u <;> exact ⟨.refl _, rfl, rfl, rfl, rfl, (if_pos active).symm, (if_pos active).symm, (if_pos active).symm⟩
  · rw [if_neg active]
    cases u <;> exact ⟨.refl _, rfl, rfl, rfl, rfl, (if_neg active).symm, (if_neg active).symm, (if_neg active).symm⟩

/-- The unit at fault hands over where it is active, and leaves step (R434). -/
theorem faulted_faultUnit {s v : State} (u : Bool) (cause : Nat) (calm : Quiet s v) : Faulted u s (faultUnit u cause v) := by
  have red := red_of_quiet calm
  have iris : v.red.iris = s.red.iris := (congrArg Redundancy.iris red :)
  have base : Quiet (if s.red.iris = u then handedOver u s else s) (if v.red.iris = u then switchOver cause v else v) := by
    rw [iris]
    by_cases active : s.red.iris = u
    · rw [if_pos active, if_pos active]
      have handed := quiet_switchOver cause (s := v)
      rw [iris, active] at handed
      exact (calm.handedOver u).trans handed
    · rw [if_neg active, if_neg active]
      exact calm
  have same : dropState u (if v.red.iris = u then switchOver cause v else v) = dropState u s := by
    have red' := red_of_quiet base
    have kept : (if s.red.iris = u then handedOver u s else s).red.drops = s.red.drops ∧
        (if s.red.iris = u then handedOver u s else s).now = s.now := by
      split
      · cases u <;> exact ⟨rfl, rfl⟩
      · exact ⟨rfl, rfl⟩
    unfold dropState
    rw [show (if v.red.iris = u then switchOver cause v else v).red.drops = s.red.drops from (congrArg Redundancy.drops red' :).trans kept.1,
      base.now, kept.2]
  unfold faultUnit
  generalize (if v.red.iris = u then switchOver cause v else v) = w at *
  have down := quiet_dropUnit u w
  rw [same] at down
  exact (faulted_stoodDown u _ s).of_quiet ((base.stoodDown u _ _).trans down)

theorem unitAtFault_answers {s v : State} {u : Bool} {cause : Nat} (calm : Quiet s v) : UnitAtFault u s (settle s (faultUnit u cause v)) :=
  ((faulted_faultUnit u cause calm).of_quiet (quiet_settle s _)).unitAtFault

theorem shows_switchOver (cause : Nat) (s : State) : Shows s (switchOver cause s) :=
  Shows.trans (t := bump 0x0D (handedOver s.red.iris s)) (.of_err rfl) ((shows_setErr _ _ _).trans (shows_record _ _ _ _ _ _ _ _))

theorem shows_dropUnit (u : Bool) (s : State) : Shows s (dropUnit u s) := by
  have down (n : Nat) : Shows s (stoodDown u n ((u, s.now) :: recentDrops s.now s.red.drops) s) := .of_err rfl
  unfold dropUnit
  dsimp only
  split
  · exact (down 4).trans (shows_record _ _ _ _ _ _ _ _)
  · exact down 3

theorem shows_faultUnit (u : Bool) (cause : Nat) (s : State) : Shows s (faultUnit u cause s) := by
  unfold faultUnit
  split
  · exact (shows_switchOver cause s).trans (shows_dropUnit u _)
  · exact shows_dropUnit u s

/-! ## Disagreements (R432, R433) -/

theorem exec_cuMismatch {s : State} (m : CuMismatch) (on : s.mainOn = true) : exec (.cuMismatch m) s = settled s (cuHandle m s) := if_pos on

theorem cuMasked_quiet (how unit : Nat) (m : CuMismatch) (s : State) : Quiet s (cuMasked how unit m s) := (quiet_record ..).trans (quiet_bump _ _)

theorem shows_cuMasked (how unit : Nat) (m : CuMismatch) (s : State) : Shows s (cuMasked how unit m s) :=
  (shows_record _ _ _ _ _ _ _ _).trans (.of_err rfl)

/-- What the diagnosis leads to, when `v` is `s` but for signals. -/
abbrev Diagnosed (m : CuMismatch) (s t : State) : Prop :=
  if m.second = true then Unmended Block.cu s t
  else if m.asterPass ≠ m.irisPass then UnitAtFault m.asterPass s t
  else if m.asterPass = true ∧ m.ramRepair = true ∧ m.againOk = true then Quiet s t
  else Unmended Block.cu s t

theorem diagnosed_leaves {s v : State} (m : CuMismatch) (calm : Quiet s v) : Diagnosed m s (settle s (diagnosed m v)) := by
  have noted (n : Nat) : Quiet s (record 0x0801 3 3 n m.address (s := v)) := calm.trans (quiet_record ..)
  unfold Diagnosed diagnosed
  by_cases second : m.second = true
  · rw [if_pos second, if_pos second]
    exact unmended_settle (unmended_breakBlock _ (calm.trans ((quiet_bump _ _).trans (quiet_record ..))))
  · rw [if_neg second, if_neg second]
    by_cases one : m.asterPass ≠ m.irisPass
    · rw [if_pos one, if_pos one]
      exact unitAtFault_answers (noted _)
    · rw [if_neg one, if_neg one]
      by_cases repair : (m.asterPass && m.ramRepair) = true
      · rw [if_pos repair]
        rw [Bool.and_eq_true] at repair
        by_cases again : m.againOk = true
        · rw [if_pos again, if_pos ⟨repair.1, repair.2, again⟩]
          exact calm.trans ((cuMasked_quiet _ _ _ _).trans (quiet_settle s _))
        · rw [if_neg again, if_neg fun h => again h.2.2]
          exact unmended_settle (unmended_breakBlock _ (calm.trans ((quiet_bump _ _).trans (quiet_record ..))))
      · rw [if_neg repair, if_neg fun h => repair (by rw [h.1, h.2.1]; rfl)]
        exact unmended_settle (unmended_breakBlock _ (noted _))

theorem shows_diagnosed (m : CuMismatch) (s : State) : Shows s (diagnosed m s) := by
  have broken (n : Nat) (a : Bool) (v : State) (h : Shows s v) : Shows s (breakBlock Block.cu (record 0x0801 3 3 n m.address 0 a v)) :=
    h.trans ((shows_record _ _ _ _ _ _ _ _).trans (shows_breakBlock _ _))
  unfold diagnosed
  split
  · exact broken _ _ _ (.of_err rfl)
  · split
    · exact (shows_record _ _ _ _ _ _ _ _).trans (shows_faultUnit _ _ _)
    · split
      · split
        · exact shows_cuMasked _ _ _ _
        · exact broken _ _ _ (.of_err rfl)
      · exact broken _ _ _ (.refl s)

/-- A disagreement that a checker explains. -/
theorem cuMismatch_checker {s : State} {m : CuMismatch} {u : Bool} (on : s.mainOn = true) (step : s.red.inStep = true) (is : m.checker = some u) :
    Answers (.cuMismatch m) s fun t => if m.ramParity = true then Quiet s t else UnitAtFault u s t := by
  have go : exec (.cuMismatch m) s = settled s (if m.ramParity then cuMasked 2 (b2n u) m s
      else faultUnit u 1 (record 0x0801 3 3 (b2n u) m.address (s := s))) := by
    rw [exec_cuMismatch m on]
    unfold cuHandle cuProcedure
    rw [if_pos step, is]
    rfl
  refine ⟨_, go, ?_⟩
  dsimp only
  by_cases parity : m.ramParity = true
  · rw [if_pos parity, if_pos parity]
    exact (cuMasked_quiet _ _ _ _).trans (quiet_settle s _)
  · rw [if_neg parity, if_neg parity]
    exact unitAtFault_answers (quiet_record ..)

/-- A disagreement that no checker explains. -/
theorem cuMismatch_plain {s : State} {m : CuMismatch} (on : s.mainOn = true) (step : s.red.inStep = true) (is : m.checker = none) :
    Answers (.cuMismatch m) s fun t => (Block.cu < s.regs.err.length → ErrShown Block.cu 2 t) ∧
      if m.rollbackOk = true then Quiet s t else Diagnosed m s t := by
  have go : exec (.cuMismatch m) s = settled s (if m.rollbackOk then cuMasked 1 2 m (setErr Block.cu 2 (bump 0x0E s))
      else diagnosed m (setErr Block.cu 2 (bump 0x0E s))) := by
    rw [exec_cuMismatch m on]
    unfold cuHandle cuProcedure
    rw [if_pos step, is]
    rfl
  have noted : Quiet s (setErr Block.cu 2 (bump 0x0E s)) := (quiet_bump _ _).trans (quiet_setErr _ _ _)
  have shown (block : Block.cu < s.regs.err.length) : ErrShown Block.cu 2 (setErr Block.cu 2 (bump 0x0E s)) := shown_setErr block (by decide)
  refine ⟨_, go, ?_⟩
  generalize setErr Block.cu 2 (bump 0x0E s) = v at *
  by_cases ok : m.rollbackOk = true
  · rw [if_pos ok, if_pos ok]
    exact ⟨fun block => shows_settle s _ _ _ (shows_cuMasked _ _ _ _ _ _ (shown block)), noted.trans ((cuMasked_quiet _ _ _ _).trans (quiet_settle s _))⟩
  · rw [if_neg ok, if_neg ok]
    exact ⟨fun block => shows_settle s _ _ _ (shows_diagnosed m v _ _ (shown block)), diagnosed_leaves m noted⟩

theorem cuAlone_leaves {s v : State} (m : CuMismatch) (calm : Quiet s v) :
    if m.checker = some s.red.iris then Unmended Block.cu s (cuAlone m v) else Quiet s (cuAlone m v) := by
  unfold cuAlone
  rw [show v.red.iris = s.red.iris from (congrArg Redundancy.iris (red_of_quiet calm) :)]
  by_cases own : m.checker = some s.red.iris
  · rw [if_pos own, if_pos own]
    refine unmended_breakBlock _ (Quiet.trans ?_ (quiet_record ..))
    split
    · exact calm.trans (quiet_bump _ _)
    · exact calm
  · rw [if_neg own, if_neg own]
    exact calm

theorem cuMismatch_alone {s : State} (m : CuMismatch) (on : s.mainOn = true) (alone : s.red.inStep = false) :
    Answers (.cuMismatch m) s (if m.checker = some s.red.iris then Unmended Block.cu s else Quiet s) := by
  have go : exec (.cuMismatch m) s = settled s (cuAlone m s) := by
    rw [exec_cuMismatch m on]
    unfold cuHandle
    rw [if_neg (by rw [alone]; exact Bool.false_ne_true)]
  have left := cuAlone_leaves m (Quiet.refl s)
  refine ⟨_, go, ?_⟩
  by_cases own : m.checker = some s.red.iris
  · rw [if_pos own] at left ⊢
    exact unmended_settle left
  · rw [if_neg own] at left ⊢
    exact left.trans (quiet_settle s _)

/-- The mismatch that a stalled control unit is handled as. -/
def stalledUnit (u : Bool) : CuMismatch :=
  { checker := some u, ramParity := false, rollbackOk := false, asterPass := u, irisPass := !u, ramRepair := false, againOk := false
    second := false, address := 0 }

theorem exec_stallUnit {s : State} (u : Bool) (on : s.mainOn = true) :
    exec (.stallLimit (.controlUnit u)) s = settled s (cuHandle (stalledUnit u) (stallIn Block.cu s)) := if_pos on

theorem stallUnit_answers {s : State} (u : Bool) (on : s.mainOn = true) :
    (s.red.inStep = true → Answers (.stallLimit (.controlUnit u)) s (UnitAtFault u s)) ∧
      (s.red.inStep = false → s.red.iris = u → Answers (.stallLimit (.controlUnit u)) s (Unmended Block.cu s)) := by
  have noted := quiet_stallIn Block.cu s
  have go := exec_stallUnit u on
  have step : (stallIn Block.cu s).red.inStep = s.red.inStep := (congrArg Redundancy.inStep (red_of_quiet noted) :)
  unfold cuHandle at go
  rw [step] at go
  refine ⟨fun inStep => ?_, fun alone active => ?_⟩
  · rw [if_pos inStep] at go
    exact ⟨_, go, unitAtFault_answers (noted.trans (quiet_record ..))⟩
  · rw [if_neg (by rw [alone]; exact Bool.false_ne_true)] at go
    have left := cuAlone_leaves (stalledUnit u) noted
    rw [if_pos (show (stalledUnit u).checker = some s.red.iris from congrArg some active.symm)] at left
    exact ⟨_, go, unmended_settle left⟩

/-! ## The return of a unit (R435) -/

theorem unit_setUnit_self (u : Bool) (n : Nat) (s : State) : (setUnit u n s).unit u = n := by cases u <;> rfl

theorem unit_setUnit_other (u : Bool) (n : Nat) (s : State) : (setUnit (!u) n s).unit u = s.unit u := by cases u <;> rfl

theorem setUnit_leaves (u : Bool) (n : Nat) (s : State) : (setUnit u n s).red.iris = s.red.iris ∧ (setUnit u n s).red.inStep = s.red.inStep ∧
    Quiet { s with red := (setUnit u n s).red } (setUnit u n s) := by
  cases u <;> exact ⟨rfl, rfl, .refl _⟩

/-- The units are in step again. -/
def backInStep (s : State) : State := { s with red := { s.red with inStep := true } }

/-- What the self-test of the unit that left step leaves. -/
abbrev Resynced (pass : Bool) (s t : State) : Prop :=
  t.unit (!s.red.iris) = (if pass then 1 else 4) ∧ t.unit s.red.iris = s.unit s.red.iris ∧ t.red.iris = s.red.iris ∧
    t.red.inStep = (pass || s.red.inStep) ∧ Quiet { s with red := t.red } t

theorem resynced_of_quiet {pass : Bool} {s v : State} (unit : v.unit (!s.red.iris) = if pass then 1 else 4)
    (other : v.unit s.red.iris = s.unit s.red.iris) (iris : v.red.iris = s.red.iris) (step : v.red.inStep = (pass || s.red.inStep))
    (rest : Quiet { s with red := v.red } v) {t : State} (calm : Quiet v t) : Resynced pass s t := by
  have red := red_of_quiet calm
  exact ⟨(unit_of_quiet calm _).trans unit, (unit_of_quiet calm _).trans other, (congrArg Redundancy.iris red :).trans iris,
    (congrArg Redundancy.inStep red :).trans step, quiet_withRed rest calm⟩

theorem cuResync_answers {s : State} (us : Nat) (pass : Bool) (on : s.mainOn = true) (resync : s.unit (!s.red.iris) = 3) :
    Answers (.cuResync pass us) s (Resynced pass s) := by
  have go : exec (.cuResync pass us) s = settled s (
      if pass then record 0x0803 0 (b2n (!s.red.iris)) 1 us (s := setUnit (!s.red.iris) 1 (backInStep s))
      else record 0x0803 3 (b2n (!s.red.iris)) 2 us (s := setUnit (!s.red.iris) 4 s)) := by
    refine (if_pos on : exec (.cuResync pass us) s = _).trans (congrArg (settled s) ?_)
    exact if_pos resync
  refine ⟨_, go, ?_⟩
  cases pass with
  | true =>
    obtain ⟨iris, step, rest⟩ := setUnit_leaves (!s.red.iris) 1 (backInStep s)
    exact resynced_of_quiet (pass := true) (v := setUnit (!s.red.iris) 1 (backInStep s)) (unit_setUnit_self _ _ _) (unit_setUnit_other _ _ (backInStep s)) iris step rest
      ((quiet_record ..).trans (quiet_settle s _))
  | false =>
    obtain ⟨iris, step, rest⟩ := setUnit_leaves (!s.red.iris) 4 s
    exact resynced_of_quiet (pass := false) (v := setUnit (!s.red.iris) 4 s) (unit_setUnit_self _ _ _) (unit_setUnit_other _ _ _) iris step rest
      ((quiet_record ..).trans (quiet_settle s _))

theorem cuResync_idle {s : State} (us : Nat) (pass : Bool) (up : s.unit (!s.red.iris) ≠ 3) : Answers (.cuResync pass us) s (Quiet s) := by
  by_cases on : s.mainOn = true
  · exact ⟨_, (if_pos on : exec (.cuResync pass us) s = _).trans (congrArg (settled s) (if_neg up)), quiet_settle s s⟩
  · exact ⟨_, if_neg on, .refl s⟩

end Sys2Proof.Safety
end

section
/-!
PROOFS. Stalled lanes and splitters fence their pairs (R93, R419), and the containment of faults.
-/

-- In turn: a proof that waits for others beside it takes a thread and its stack from the memory that the check allows.
set_option Elab.async false

namespace Sys2Proof.Safety

open Sys2Proof.Machine

/-! ## Fenced pairs (R24, R93) -/

/-- `t` is `s` with pair `p` fenced: another pair keeps its state, or stands in for it in a full role. -/
structure Fences (p : Nat) (s t : State) : Prop where
  own : (t.pair p).st = .fenced
  other (q : Nat) : q ≠ p → (t.pair q).st = (s.pair q).st ∨ ((s.pair q).st.full = true ∧ (t.pair q).st.full = true)
  length : t.fab.pairs.length = s.fab.pairs.length
  store : t.store = s.store
  life : t.life = s.life
  custody : t.custody = s.custody
  idle : (s.pair p).jobs = [] → t.jobs = s.jobs ∧ t.mem = s.mem

theorem OnlyPairs.custody {s t : State} (h : OnlyPairs s t) : t.custody = s.custody :=
  have calm : Quiet { s with fab := { s.fab with pairs := t.fab.pairs } } t := h
  calm.custody

/-- A stand-in is a full pair in service, and takes a full role. -/
theorem full_of_replacement {s : State} {role : PairState} {q : Nat} (h : replacement s role = some q) :
    (s.pair q).st.full = true ∧ role.full = true := by
  unfold replacement at h
  split at h
  · next x found =>
    split at h
    · next full =>
      obtain rfl := Option.some.inj h
      have st : (s.pair x).st = .spare := by simpa using List.find?_some found
      exact ⟨by rw [st]; rfl, by rcases full with e | e <;> rw [e] <;> rfl⟩
    · nomatch h
  · split at h
    · next urgent =>
      have st : (s.pair q).st = .bulk := by simpa using List.find?_some h
      exact ⟨by rw [st]; rfl, by rw [urgent]; rfl⟩
    · nomatch h

theorem onlyPairs_standIn (p : Nat) (role : PairState) (s : State) : OnlyPairs s (standIn p role s) := by
  unfold standIn
  split
  · exact (onlyPairs_modPair _ _ s).trans (onlyPairs_changeRole _ _ _ _)
  · exact .of_quiet (.refl s)

theorem length_changeRole (p : Nat) (old new : PairState) (s : State) : (changeRole p old new s).fab.pairs.length = s.fab.pairs.length := by
  rw [(quiet_changeRole p old new s).fab]
  exact length_pairs_modPair p _ s

theorem length_standIn (p : Nat) (role : PairState) (s : State) : (standIn p role s).fab.pairs.length = s.fab.pairs.length := by
  unfold standIn
  split
  · exact (length_changeRole _ _ _ _).trans (length_pairs_modPair _ _ s)
  · rfl

theorem pair_of_length {s : State} {q : Nat} (h : s.fab.pairs.length ≤ q) : s.pair q = {} := by
  unfold State.pair
  rw [List.getD_eq_getElem?_getD, List.getElem?_eq_none h]
  rfl

theorem st_standIn (p : Nat) (role : PairState) (s : State) (q : Nat) :
    ((standIn p role s).pair q).st = (s.pair q).st ∨ ((s.pair q).st.full = true ∧ ((standIn p role s).pair q).st.full = true) := by
  have length := length_standIn p role s
  unfold standIn at length ⊢
  split
  · next x found =>
    rw [found] at length
    dsimp only at length ⊢
    obtain ⟨was, full⟩ := full_of_replacement found
    by_cases e : q = x
    · subst e
      by_cases inside : q < s.fab.pairs.length
      · right
        rw [pair_changeRole_self _ _ (by rw [length_pairs_modPair]; exact inside)]
        exact ⟨was, full⟩
      · left
        rw [pair_of_length (length ▸ Nat.not_lt.mp inside), pair_of_length (Nat.not_lt.mp inside)]
    · left
      rw [pair_changeRole_ne _ _ _ e, pair_modPair_ne _ _ e]
  · exact .inl rfl

/-- What withdrawing a fenced pair's jobs leaves alone. -/
theorem withdraw_leaves (j : Job) (s : State) : (withdraw j s).fab.pairs = s.fab.pairs ∧ (withdraw j s).store = s.store ∧
    (withdraw j s).life = s.life ∧ (withdraw j s).custody = s.custody := by
  have traced := (traced_leaveTrace j s).rest
  have fab : (leaveTrace j s).2.fab = s.fab := (congrArg State.fab traced :)
  have store : (leaveTrace j s).2.store = s.store := (congrArg State.store traced :)
  have life : (leaveTrace j s).2.life = s.life := (congrArg State.life traced :)
  have custody : (leaveTrace j s).2.custody = s.custody := (congrArg State.custody traced :)
  have held (u : State) : (releaseHold j u).fab.pairs = u.fab.pairs ∧ (releaseHold j u).store = u.store ∧ (releaseHold j u).life = u.life ∧
      (releaseHold j u).custody = u.custody := by
    unfold releaseHold
    split <;> exact ⟨rfl, rfl, rfl, rfl⟩
  obtain ⟨a, b, c, d⟩ := held (leaveTrace j s).2
  exact ⟨a.trans (congrArg Fabric.pairs fab), b.trans store, c.trans life, d.trans custody⟩

theorem withdrawAll_leaves : ∀ (l : List Job) (s : State), let t := l.foldl (fun s j => withdraw j s) s
    t.fab.pairs = s.fab.pairs ∧ t.store = s.store ∧ t.life = s.life ∧ t.custody = s.custody
  | [], _ => ⟨rfl, rfl, rfl, rfl⟩
  | j :: l, s => by
    obtain ⟨a, b, c, d⟩ := withdrawAll_leaves l (withdraw j s)
    obtain ⟨a', b', c', d'⟩ := withdraw_leaves j s
    exact ⟨a.trans a', b.trans b', c.trans c', d.trans d'⟩

/-- The records and counts of a fence. -/
def fenceNoted (p cause : Nat) (s : State) : State :=
  setErr Block.cf 4 (record 0x0101 3 p cause (currentRef (openJobs s p)) (openJobs s p).length
    (s := bump 1 (countCause cause { s with regs := { s.regs with fences := satAdd s.regs.fences 0xFFFFFFFF } })))

theorem quiet_fenceNoted (p cause : Nat) (s : State) :
    Quiet { s with regs := { s.regs with fences := satAdd s.regs.fences 0xFFFFFFFF } } (fenceNoted p cause s) := by
  have counted (u : State) : Quiet u (countCause cause u) := by
    unfold countCause
    split
    · exact (quiet_bump _ _).trans (quiet_setErr _ _ _)
    · split
      · exact (quiet_bump _ _).trans (quiet_setErr _ _ _)
      · exact quiet_setErr _ _ _
  exact (counted _).trans ((quiet_bump _ _).trans ((quiet_record ..).trans (quiet_setErr _ _ _)))

theorem fencePair_eq {p : Nat} (cause : Nat) {s : State} (up : ((s.pair p).st.full || (s.pair p).st.half) = true) :
    fencePair p cause s = modPair p (fun x => { x with jobs := x.jobs.filter fun r => !(openJobs s p).any fun j => decide (j.ref = r) })
      ((openJobs s p).foldl (fun s j => withdraw j s)
        (standIn p (s.pair p).st (modPair p (fun x => { x with
          st := .fenced, role := x.st, nested := 0, fences := s.now :: recentFences s.now (s.pair p).fences
          spent := decide ((s.now :: recentFences s.now (s.pair p).fences).length ≥ s.fenceLimit) }) (fenceNoted p cause s)))) := by
  unfold fencePair
  dsimp only
  rw [if_neg fun e => by rw [e] at up; exact absurd up (by decide), if_pos up]
  rfl

theorem fences_fencePair {p : Nat} (cause : Nat) {s : State} (inside : p < s.fab.pairs.length)
    (up : ((s.pair p).st.full || (s.pair p).st.half) = true) : Fences p s (fencePair p cause s) := by
  rw [fencePair_eq cause up]
  have noted := quiet_fenceNoted p cause s
  have none_ (h : (s.pair p).jobs = []) : openJobs s p = [] := by unfold openJobs; rw [h]; rfl
  generalize openJobs s p = l at *
  generalize fenceNoted p cause s = u at *
  have fab : u.fab = s.fab := noted.fab
  have pairs (q : Nat) : u.pair q = s.pair q := pair_congr (congrArg Fabric.pairs fab) q
  generalize hv : modPair p _ u = v
  have vp : (v.pair p).st = .fenced := by rw [← hv, pair_modPair_self _ (by rw [fab]; exact inside)]
  have vq (q : Nat) (ne : q ≠ p) : v.pair q = s.pair q := by rw [← hv, pair_modPair_ne _ _ ne, pairs]
  have rest : v.fab.pairs.length = s.fab.pairs.length ∧ v.store = s.store ∧ v.life = s.life ∧ v.custody = s.custody ∧ v.jobs = s.jobs ∧ v.mem = s.mem := by
    rw [← hv, length_pairs_modPair, fab]
    exact ⟨rfl, noted.store, noted.life, noted.custody, noted.jobs, noted.mem⟩
  clear hv
  obtain ⟨length, store, life, custody, jobs, mem⟩ := rest
  have stands := onlyPairs_standIn p (s.pair p).st v
  have st := st_standIn p (s.pair p).st v
  have lengths := length_standIn p (s.pair p).st v
  obtain ⟨jobs', mem', store', life'⟩ := stands.kept
  have custody' := stands.custody
  generalize standIn p (s.pair p).st v = w at *
  obtain ⟨pairs'', store'', life'', custody''⟩ := withdrawAll_leaves l w
  have wp : (w.pair p).st = .fenced := by
    rcases st p with same | full
    · rw [same, vp]
    · rw [vp] at full
      exact absurd full.1 (by decide)
  have inside' : p < w.fab.pairs.length := by rw [lengths, length]; exact inside
  refine ⟨?_, fun q ne => ?_, ?_, store''.trans (store'.trans store), life''.trans (life'.trans life), custody''.trans (custody'.trans custody), fun idle => ?_⟩
  · rw [pair_modPair_self _ (by rw [pairs'']; exact inside')]
    exact (congrArg Pair.st (pair_congr pairs'' p)).trans wp
  · rw [pair_modPair_ne _ _ ne, pair_congr pairs'' q, ← vq q ne]
    exact st q
  · rw [length_pairs_modPair, pairs'', lengths, length]
  · rw [none_ idle]
    exact ⟨jobs'.trans jobs, mem'.trans mem⟩

theorem stallLane_answers {s : State} {p : Nat} (on : s.mainOn = true) (inside : p < s.fab.pairs.length)
    (up : ((s.pair p).st.full || (s.pair p).st.half) = true) :
    Answers (.stallLimit (.lane p)) s fun t => (t.pair p).st = .fenced ∧ t.store = s.store ∧ t.life = s.life ∧
      t.custody = s.custody ∧ ((s.pair p).jobs = [] → t.jobs = s.jobs ∧ t.mem = s.mem) := by
  have fenced := fences_fencePair 4 inside up
  have calm := quiet_settle s (fencePair p 4 s)
  refine ⟨_, if_pos on, ?_, calm.store.trans fenced.store, calm.life.trans fenced.life, calm.custody.trans fenced.custody, fun idle => ?_⟩
  · rw [pair_congr (congrArg Fabric.pairs calm.fab), fenced.own]
  · obtain ⟨jobs, mem⟩ := fenced.idle idle
    exact ⟨calm.jobs.trans jobs, calm.mem.trans mem⟩

theorem stallSplitter_answers {s : State} {c : Nat} (on : s.mainOn = true) (inside : 2 * c + 1 < s.fab.pairs.length)
    (upA : ((s.pair (2 * c)).st.full || (s.pair (2 * c)).st.half) = true)
    (upB : ((s.pair (2 * c + 1)).st.full || (s.pair (2 * c + 1)).st.half) = true) :
    Answers (.stallLimit (.splitter c)) s fun t => (t.pair (2 * c)).st = .fenced ∧ (t.pair (2 * c + 1)).st = .fenced ∧
      t.store = s.store ∧ t.life = s.life ∧ t.custody = s.custody := by
  have first := fences_fencePair 4 (by omega) upA
  have up : (((fencePair (2 * c) 4 s).pair (2 * c + 1)).st.full || ((fencePair (2 * c) 4 s).pair (2 * c + 1)).st.half) = true := by
    rcases first.other (2 * c + 1) (by omega) with same | ⟨-, full⟩
    · rw [same]
      exact upB
    · rw [full]
      rfl
  have second := fences_fencePair 4 (by rw [first.length]; exact inside) up
  have calm := quiet_settle s (fencePair (2 * c + 1) 4 (fencePair (2 * c) 4 s))
  have pairs (q : Nat) := pair_congr (congrArg Fabric.pairs calm.fab) q
  refine ⟨_, if_pos on, ?_, ?_, calm.store.trans (second.store.trans first.store), calm.life.trans (second.life.trans first.life),
    calm.custody.trans (second.custody.trans first.custody)⟩
  · rw [pairs]
    rcases second.other (2 * c) (by omega) with same | ⟨full, -⟩
    · rw [same, first.own]
    · rw [first.own] at full
      exact absurd full (by decide)
  · rw [pairs, second.own]

/-! ## Other stalls, and the main die off (R419) -/

theorem stallDrbg_answers {s : State} (on : s.mainOn = true) :
    Answers (.stallLimit .drbg) s (Quiet (if s.rng.seeded then restartGenerator 2 s else s)) := by
  have go : exec (.stallLimit .drbg) s = settled s (if s.rng.seeded then restartGenerator 2 s else stallIn Block.rg s) := if_pos on
  refine ⟨_, go, ?_⟩
  split
  · exact quiet_settle s _
  · exact (quiet_stallIn _ s).trans (quiet_settle s _)

theorem mainDieOff_answers {s : State} (off : s.mainOn = false) :
    (∀ bad, Answers (.parityScrub bad) s (Quiet s)) ∧ (∀ r, Answers (.shadowMismatch r) s (Quiet s)) ∧
      (∀ off w, Answers (.vsAccessTimeout off w) s (Quiet s)) ∧ (∀ a b c, Answers (.meridianSourceCheck a b c) s (Quiet s)) ∧
      (∀ x, Answers (.stallLimit x) s (Quiet s)) ∧ (∀ p us, Answers (.cuResync p us) s (Quiet s)) ∧ (∀ m, Answers (.cuMismatch m) s (Quiet s)) ∧
      (∀ b n x y z, Answers (.controlStageDisagreement b n x y z) s (Quiet s)) := by
  have die : ¬ s.mainOn = true := by rw [off]; exact Bool.false_ne_true
  refine ⟨fun _ => ⟨_, congrArg (settled s) (if_neg die), quiet_settle s s⟩, fun _ => ⟨_, congrArg (settled s) (if_neg die), quiet_settle s s⟩,
    fun _ _ => ⟨_, congrArg (settled s) (if_neg die), quiet_settle s s⟩, fun _ _ _ => ⟨_, if_neg die, .refl s⟩, fun x => ?_,
    fun _ _ => ⟨_, if_neg die, .refl s⟩, fun _ => ⟨_, if_neg die, .refl s⟩, fun _ _ _ _ _ => ⟨_, if_neg die, .refl s⟩⟩
  cases x <;> exact ⟨_, if_neg die, .refl s⟩

/-- Settles O57: registers, stages, units and sources recover or escalate, and lanes and splitters fence their pairs. -/
theorem faultsAreContained : Obligations.FaultsAreContained := by
  unfold Obligations.FaultsAreContained
  refine ⟨fun s c off i on block inside info rw => parity_register on (by omega) (by omega) block info rw,
    fun s c on block len => parity_errEn on (by omega) (by omega) block len, fun s f off on vf page up alloc => parity_page on vf page ⟨up, alloc⟩,
    fun s r on => shadow_answers r on, fun s off w on => vsAccessTimeout_answers off w on, fun s ref osc cal on => meridianSource_answers ref osc cal on,
    fun s p on inside up => stallLane_answers on inside up, fun s c on inside upA upB => stallSplitter_answers on inside upA upB,
    fun s b n again p1 p2 on => stallControl_answers b n again p1 p2 on, fun s area addr on => stallStore_answers area addr on,
    fun s off w on => stallDieLink_answers off w on, fun s u on => stallUnit_answers u on, fun s on => stallDrbg_answers on,
    fun s c on => if_pos on, fun s b n again p1 p2 on => controlDisagreement_answers b n again p1 p2 on, fun s m on step => ?_,
    fun s m on alone => cuMismatch_alone m on alone, fun s us pass on resync => cuResync_answers us pass on resync,
    fun s us pass up => cuResync_idle us pass up, fun s off => mainDieOff_answers off⟩
  cases checker : m.checker with
  | some u => exact cuMismatch_checker on step checker
  | none => exact cuMismatch_plain on step checker

end Sys2Proof.Safety
end

section
/-!
PROOFS. The management port: frames, sessions, timers and FDP_RELAY (R345 to R359).
-/

-- In turn: a proof that waits for others beside it takes a thread and its stack from the memory that the check allows.
set_option Elab.async false

namespace Sys2Proof.Safety

open Sys2Proof.Machine

/-! ## What sending a session's messages leaves of its sessions (R355, R359) -/

/-- A session after messages of it are sent: who it is, its phase and its last answer stay; without a request so does its idle
timer. -/
structure SameSession (x y : Session) : Prop where
  id : y.id = x.id
  phase : y.phase = x.phase
  path : y.path = x.path
  entry : y.entry = x.entry
  th : y.th = x.th
  lastId : y.lastId = x.lastId
  lastResp : y.lastResp = x.lastResp
  idle : x.req = none → y.req = none ∧ y.last = x.last

theorem SameSession.refl (x : Session) : SameSession x x := ⟨rfl, rfl, rfl, rfl, rfl, rfl, rfl, fun h => ⟨h, rfl⟩⟩

theorem SameSession.trans {x y z : Session} (a : SameSession x y) (b : SameSession y z) : SameSession x z :=
  ⟨b.id.trans a.id, b.phase.trans a.phase, b.path.trans a.path, b.entry.trans a.entry, b.th.trans a.th, b.lastId.trans a.lastId,
    b.lastResp.trans a.lastResp, fun h => by
      obtain ⟨req, last⟩ := a.idle h
      obtain ⟨req', last'⟩ := b.idle req
      exact ⟨req', last'.trans last⟩⟩

theorem sameSession_replySent (now n : Nat) (m : Reply) (x : Session) : SameSession x (replySent now n m x) := by
  unfold replySent
  by_cases hello : m.ty = Fdp.helloReply
  · dsimp only
    rw [if_pos hello]
    split
    · exact ⟨rfl, rfl, rfl, rfl, rfl, rfl, rfl, fun h => ⟨rfl, by rw [h]⟩⟩
    · exact ⟨rfl, rfl, rfl, rfl, rfl, rfl, rfl, fun h => ⟨h, rfl⟩⟩
  · dsimp only
    rw [if_neg hello]
    split
    · exact ⟨rfl, rfl, rfl, rfl, rfl, rfl, rfl, fun h => ⟨rfl, by rw [h]⟩⟩
    · exact ⟨rfl, rfl, rfl, rfl, rfl, rfl, rfl, fun h => ⟨h, rfl⟩⟩

/-- The sessions of `t` are those of `s`, messages of some having been sent. -/
def SameSessions (s t : State) : Prop := ∃ h : Session → Session, t.mgmt.sessions = s.mgmt.sessions.map h ∧ ∀ x, SameSession x (h x)

theorem SameSessions.of_eq {s t : State} (h : t.mgmt.sessions = s.mgmt.sessions) : SameSessions s t :=
  ⟨id, by rw [h, List.map_id], .refl⟩

theorem SameSessions.trans {s t u : State} (a : SameSessions s t) (b : SameSessions t u) : SameSessions s u := by
  obtain ⟨h, is, same⟩ := a
  obtain ⟨k, is', same'⟩ := b
  exact ⟨k ∘ h, by rw [is', is, List.map_map], fun x => (same x).trans (same' (h x))⟩

theorem sameSessions_modSession (id : Nat) (h : Session → Session) (s : State) (same : ∀ x, SameSession x (h x)) :
    SameSessions s (modSession id h s) :=
  ⟨fun x => if x.id = id then h x else x, rfl, fun x => by
    dsimp only
    split
    · exact same x
    · exact .refl x⟩

theorem sessions_sendFrames (r : SessPath) (fs : List Bytes) (s : State) : (sendFrames r fs s).mgmt.sessions = s.mgmt.sessions := by
  have sent : ∀ (l : List Bytes) (mac : Bytes) (x : State), (l.foldl (fun s f => emit (.frame (ethFrame mac f)) s) x).mgmt = x.mgmt := by
    intro l mac
    induction l with
    | nil => exact fun _ => rfl
    | cons f l ih => exact fun x => ih _
  unfold sendFrames
  cases r with
  | port mac =>
    dsimp only
    split
    · exact congrArg Mgmt.sessions (sent fs mac s)
    · rfl
  | relay ch =>
    dsimp only
    split <;> rfl

theorem sameSessions_flush (id : Nat) : ∀ (l : List Reply) (s : State), SameSessions s (flushSession id l s)
  | [], s => sameSessions_modSession id _ s fun _ => ⟨rfl, rfl, rfl, rfl, rfl, rfl, rfl, fun h => ⟨h, rfl⟩⟩
  | m :: r, s => by
    unfold flushSession
    split
    · exact .of_eq rfl
    · next x _ =>
      dsimp only
      split
      · have sent := sameSessions_modSession id (replySent s.now (replyFrames x m).length m) s (sameSession_replySent _ _ _)
        exact sent.trans ((SameSessions.of_eq (sessions_sendFrames _ _ _)).trans (sameSessions_flush id r _))
      · exact sameSessions_modSession id _ s fun _ => ⟨rfl, rfl, rfl, rfl, rfl, rfl, rfl, fun h => ⟨h, rfl⟩⟩

theorem sameSessions_sendReply (id : Nat) (m : Reply) (s : State) : SameSessions s (sendReply id m s) := by
  unfold sendReply
  split
  · exact .of_eq rfl
  · exact sameSessions_flush _ _ _

theorem SameSessions.session? {s t : State} (w : SameSessions s t) (id : Nat) :
    ∃ h : Session → Session, t.session? id = (s.session? id).map h ∧ ∀ x, SameSession x (h x) := by
  obtain ⟨h, is, same⟩ := w
  refine ⟨h, ?_, same⟩
  unfold State.session?
  rw [is, List.find?_map]
  refine congrArg (fun p => Option.map h (List.find? p s.mgmt.sessions)) (funext fun x => ?_)
  show decide ((h x).id = id) = _
  rw [(same x).id]

theorem sendReply_session {s : State} {x : Session} {id : Nat} (hx : s.session? id = some x) (k : Nat) (m : Reply) :
    ∃ y, (sendReply k m s).session? id = some y ∧ SameSession x y := by
  obtain ⟨h, is, same⟩ := (sameSessions_sendReply k m s).session? id
  exact ⟨h x, by rw [is, hx]; rfl, same x⟩

theorem session_modSession_self {s : State} {x : Session} {id : Nat} {h : Session → Session} (hx : s.session? id = some x)
    (keeps : ∀ y, (h y).id = y.id := by exact fun _ => rfl) : (modSession id h s).session? id = some (h x) := by
  unfold State.session? at hx ⊢
  have own : x.id = id := by simpa using List.find?_some hx
  show List.find? _ (List.map _ _) = _
  rw [List.find?_map]
  rw [show (fun y : Session => decide (y.id = id)) ∘ (fun y => if y.id = id then h y else y) = fun y => decide (y.id = id) from
    funext fun y => by
      show decide ((if y.id = id then h y else y).id = id) = _
      split
      · rw [keeps]
      · rfl, hx]
  exact congrArg some (if_pos own)

theorem session_modSession_ne {s : State} {id k : Nat} {h : Session → Session} (ne : k ≠ id)
    (keeps : ∀ y, (h y).id = y.id := by exact fun _ => rfl) : (modSession id h s).session? k = s.session? k := by
  unfold State.session?
  show List.find? _ (List.map _ _) = _
  rw [List.find?_map]
  rw [show (fun y : Session => decide (y.id = k)) ∘ (fun y => if y.id = id then h y else y) = fun y => decide (y.id = k) from
    funext fun y => by
      show decide ((if y.id = id then h y else y).id = k) = _
      split
      · rw [keeps]
      · rfl]
  cases found : s.mgmt.sessions.find? fun y => decide (y.id = k) with
  | none => rfl
  | some y =>
    have own : y.id = k := by simpa using List.find?_some found
    exact congrArg some (if_neg (by rw [own]; exact ne))

theorem Quiet.sendReply {s t : State} (q : Quiet s t) (id : Nat) (m : Reply) : Quiet (Machine.sendReply id m s) (Machine.sendReply id m t) := by
  unfold Machine.sendReply
  rw [q.session?]
  split
  · exact q
  · exact Quiet.flushSession id _ q

theorem offPort_sendReply (id : Nat) (m : Reply) (s : State) : offPort (sendReply id m s) = offPort s := by
  unfold sendReply
  split
  · rfl
  · exact offPort_flushSession _ _ _

theorem offPort_sendError (r : SessPath) (code session : Nat) (s : State) : offPort (sendError r code session s) = offPort s := by
  unfold sendError
  dsimp only
  split
  · rfl
  · exact offPort_sendFrames _ _ _

theorem jobs_sendError (r : SessPath) (code session : Nat) (s : State) : (sendError r code session s).jobs = s.jobs := by
  unfold sendError
  dsimp only
  split
  · rfl
  · exact jobs_sendFrames _ _ _

theorem sessions_sendError (r : SessPath) (code session : Nat) (s : State) : (sendError r code session s).mgmt.sessions = s.mgmt.sessions := by
  unfold sendError
  dsimp only
  split
  · rfl
  · exact sessions_sendFrames _ _ _

/-! ## The end of a session (R356) -/

/-- A session without its keys: what `endSession` leaves but for its record. -/
def withoutSession (id : Nat) (s : State) : State :=
  { s with mgmt := { s.mgmt with
    sessions := s.mgmt.sessions.filter fun y => decide (y.id ≠ id)
    parts := s.mgmt.parts.filter fun p => decide (p.key ≠ 2 ^ 64 + id) } }

theorem quiet_endSession (x : Session) (how : Nat) (s : State) : Quiet (withoutSession x.id s) (endSession x how s) := by
  unfold endSession
  dsimp only
  split
  · exact quiet_record ..
  · exact .refl _

theorem session_withoutSession_self (id : Nat) (s : State) : (withoutSession id s).session? id = none := by
  refine List.find?_eq_none.mpr fun y h => ?_
  have ne := (List.mem_filter.mp h).2
  simpa using ne

theorem session_withoutSession_ne {id k : Nat} (s : State) (ne : k ≠ id) : (withoutSession id s).session? k = s.session? k := by
  unfold State.session? withoutSession
  dsimp only
  rw [List.find?_filter]
  refine congrArg (fun p => List.find? p s.mgmt.sessions) (funext fun y => ?_)
  by_cases own : y.id = k
  · simp [own, ne]
  · simp [own]

/-! ## A frame arrives (R346 to R349) -/

theorem exec_arrives {i : Instr} {s : State} {r : FdpRoute} {p : SessPath} {f : Bytes} {ty : Nat} (is : exec i s = arrive ty r s)
    (a : Arriving s r p f ty) : exec i s = settled s (receiveFrame p f s) := by
  obtain ⟨route, -, type, -⟩ := a
  rw [is]
  unfold arrive
  rw [route]
  exact if_pos type

theorem receive_discover {s : State} {r : FdpRoute} {p : SessPath} {f : Bytes} (a : Arriving s r p f Fdp.discover) :
    receiveFrame p f s = discovered p f (received s) := by
  obtain ⟨-, version, type, form⟩ := a
  unfold receiveFrame
  dsimp only
  rw [if_neg (not_not.mpr version), if_neg (by rw [form]; decide), if_pos type]

theorem receive_hello {s : State} {r : FdpRoute} {p : SessPath} {f : Bytes} (a : Arriving s r p f Fdp.hello) :
    receiveFrame p f s = helloFrame p f (received s) := by
  obtain ⟨-, version, type, form⟩ := a
  unfold receiveFrame
  dsimp only
  rw [if_neg (not_not.mpr version), if_neg (by rw [form]; decide), type, if_neg (by decide), if_pos rfl]

theorem receive_auth {s : State} {r : FdpRoute} {p : SessPath} {f : Bytes} (a : Arriving s r p f Fdp.auth) :
    receiveFrame p f s = sealedFrame p f authed (received s) := by
  obtain ⟨-, version, type, form⟩ := a
  unfold receiveFrame
  dsimp only
  rw [if_neg (not_not.mpr version), if_neg (by rw [form]; decide), type, if_neg (by decide), if_neg (by decide), if_pos rfl]

theorem receive_request {s : State} {r : FdpRoute} {p : SessPath} {f : Bytes} (a : Arriving s r p f Fdp.request) :
    receiveFrame p f s = sealedFrame p f requested (received s) := by
  obtain ⟨-, version, type, form⟩ := a
  unfold receiveFrame
  dsimp only
  rw [if_neg (not_not.mpr version), if_neg (by rw [form]; decide), type, if_neg (by decide), if_neg (by decide), if_neg (by decide), if_pos rfl]

theorem receive_close {s : State} {r : FdpRoute} {p : SessPath} {f : Bytes} (a : Arriving s r p f Fdp.close) :
    receiveFrame p f s = sealedFrame p f closed (received s) := by
  obtain ⟨-, version, type, form⟩ := a
  unfold receiveFrame
  dsimp only
  rw [if_neg (not_not.mpr version), if_neg (by rw [form]; decide), type, if_neg (by decide), if_neg (by decide), if_neg (by decide),
    if_neg (by decide), if_pos rfl]

/-- A sealed frame that is the whole of its message hands it on. -/
theorem sealedFrame_whole {s : State} {p : SessPath} {f m : Bytes} {x : Session} (go : Session → Bytes → State → State)
    (w : WholeMessage s p f x m) : sealedFrame p f go (received s) = go x m (accepted f x s) := by
  obtain ⟨session, path, opens, new, first, last, fits⟩ := w
  have got : acceptFrame p f (received s) =
      (some (x, m), modSession x.id (fun y => { y with rx := some (frameSeq f), fails := 0, last := s.now }) (received s)) := by
    unfold acceptFrame
    rw [show (received s).session? (frameSession f) = some x from session]
    dsimp only
    rw [if_neg (by rw [path]; decide), opens]
    dsimp only
    rw [new, if_neg Bool.false_ne_true]
    rfl
  unfold sealedFrame
  rw [got]
  dsimp only
  unfold addFragment
  dsimp only
  rw [if_pos first]
  dsimp only
  rw [List.nil_append, if_neg (Nat.not_lt.mpr fits), last, if_neg Bool.false_ne_true]

theorem id_of_whole {s : State} {p : SessPath} {f m : Bytes} {x : Session} (w : WholeMessage s p f x m) : x.id = frameSession f := by
  simpa using List.find?_some w.1

theorem session_of_whole {s : State} {p : SessPath} {f m : Bytes} {x : Session} (w : WholeMessage s p f x m) : s.session? x.id = some x := by
  rw [id_of_whole w]
  exact w.1

/-- The session of an accepted frame. -/
theorem session_accepted {s : State} {x : Session} (f : Bytes) (hx : s.session? x.id = some x) :
    (accepted f x s).session? x.id = some { x with rx := some (frameSeq f), fails := 0, last := s.now } :=
  session_modSession_self (s := received s) hx

/-! ## DISCOVER (R350) -/

theorem discovered_plain {s : State} {p : SessPath} {f : Bytes} (len : frameLen f = 0) (more : frameMore f = false) (frag : frameFrag f = 0)
    (session : frameSession f = 0) : discovered p f (received s) = sendFrames p (plainFrames Fdp.announce 0 (announceBytes s)) (received s) :=
  if_pos ⟨len, more, frag, session⟩

theorem discover_announces {s : State} {r : FdpRoute} {p : SessPath} {f : Bytes} (a : Arriving s r p f Fdp.discover) (len : frameLen f = 0)
    (more : frameMore f = false) (frag : frameFrag f = 0) (session : frameSession f = 0) :
    Answers (.discover r) s (Quiet (sendFrames p (plainFrames Fdp.announce 0 (announceBytes s)) (received s))) := by
  have is := exec_arrives (i := .discover r) rfl a
  rw [receive_discover a, discovered_plain len more frag session] at is
  exact ⟨_, is, quiet_settle s _⟩

theorem discover_relays {s : State} {ch : Nat} {f : Bytes} (a : Arriving s (.relay ch f) (.relay ch) f Fdp.discover) (len : frameLen f = 0)
    (more : frameMore f = false) (frag : frameFrag f = 0) (session : frameSession f = 0)
    (room : routeRoom s (.relay ch) (plainFrames Fdp.announce 0 (announceBytes s)) = true) :
    Answers (.discover (.relay ch f)) s fun t =>
      t.mgmt.relay.getD ch [] = s.mgmt.relay.getD ch [] ++ plainFrames Fdp.announce 0 (announceBytes s) ∧
      t.mgmt.sessions = s.mgmt.sessions ∧ t.jobs = s.jobs ∧ t.mem = s.mem := by
  obtain ⟨t, is, calm⟩ := discover_announces a len more frag session
  have runs : s.secureRuns = true := by
    have route := a.1
    unfold routeFrame at route
    dsimp only at route
    split at route
    · nomatch route
    · next h =>
      simp only [Bool.or_eq_true, Bool.not_eq_true', not_or, Bool.not_eq_false] at h
      exact h.1.1.2
  have sent : sendFrames (.relay ch) (plainFrames Fdp.announce 0 (announceBytes s)) (received s) =
      { received s with
        mgmt := { s.mgmt with relay := s.mgmt.relay.set ch (s.mgmt.relay.getD ch [] ++ plainFrames Fdp.announce 0 (announceBytes s)) }
        regs := { (received s).regs with
          mpTx := min (s.regs.mpTx + (plainFrames Fdp.announce 0 (announceBytes s)).length) 0xFFFFFFFF } } := by
    refine if_pos ?_
    rw [Bool.and_eq_true]
    exact ⟨room, runs⟩
  rw [sent] at calm
  refine ⟨t, is, ?_, (congrArg Mgmt.sessions calm.mgmt :), calm.jobs, calm.mem⟩
  rw [calm.mgmt]
  exact FMap.getD_set_self _ _ _ _

/-! ## HELLO (R350, R351) -/

theorem drawn_helloReply (m : Bytes) (s : State) : DrawnWith (fun _ _ => True) s (helloReply m s) :=
  (drawn_fwRandom 32 s).go fun _ s _ _ => (drawn_fwKey 0x09 s).go fun _ s _ _ => (drawn_fwRandom 32 s).go fun _ s _ _ =>
    (drawn_makeStatement _ s).go fun _ _ _ _ => ⟨trivial, .refl _⟩

theorem addFragment_whole {k ty frag : Nat} {more : Bool} {b m : Bytes} {s u : State} (h : addFragment k ty frag more b s = (some m, u)) :
    u = dropPart k s := by
  unfold addFragment at h
  dsimp only at h
  split at h
  · nomatch (congrArg Prod.fst h :)
  · split at h
    · nomatch (congrArg Prod.fst h :)
    · split at h
      · nomatch (congrArg Prod.fst h :)
      · exact (congrArg Prod.snd h).symm

theorem receive_helloWhole {s u : State} {r : FdpRoute} {p : SessPath} {f m : Bytes} (a : Arriving s r p f Fdp.hello) (session : frameSession f = 0)
    (whole : addFragment p.key Fdp.hello (frameFrag f) (frameMore f) (framePayload f) (received s) = (some m, u)) :
    receiveFrame p f s = helloed p m u := by
  rw [receive_hello a]
  unfold helloFrame
  rw [if_neg (not_not.mpr session), whole]

/-- A HELLO that sets up a session: its HELLO_REPLY is sent, and the session is there. -/
theorem sessionSetUp {s u v : State} {i : Instr} {p : SessPath} {m reply z : Bytes} (calmed : u.mgmt.sessions = s.mgmt.sessions ∧ u.mgmt.nextId = s.mgmt.nextId ∧
      u.mem = s.mem ∧ u.store = s.store ∧ u.life = s.life ∧ u.now = s.now) (drawn : helloReply m u = .ok ((reply, z), v))
    (is : exec i s = settled s (startSession p m u)) :
    let x := helloSession p m reply z v
    Answers i s (Quiet (sendReply x.id { ty := Fdp.helloReply, body := reply }
      { v with mgmt := { v.mgmt with sessions := s.mgmt.sessions ++ [x], nextId := nextSession x.id } })) ∧
    Answers i s fun t => t.mem = s.mem ∧ t.store = s.store ∧ t.life = s.life ∧
      ∃ y ∈ t.mgmt.sessions, y.id = s.mgmt.nextId ∧ y.phase = .replied ∧ y.entry = (m.at_ 32).toNat ∧ y.path = p ∧
        y.th = sha384 (m ++ reply) ∧ y.last = s.now := by
  intro x
  obtain ⟨sessions, nextId, mem, store, life, now⟩ := calmed
  have draws : Draws u v := by
    have all := drawn_helloReply m u
    rw [drawn] at all
    exact all.2
  have mgmt := draws.mgmt
  have same : v.mgmt.sessions = s.mgmt.sessions := (congrArg Mgmt.sessions mgmt).trans sessions
  have run : exec i s = settled s (sendReply x.id { ty := Fdp.helloReply, body := reply }
      { v with mgmt := { v.mgmt with sessions := s.mgmt.sessions ++ [x], nextId := nextSession x.id } }) := by
    rw [is]
    unfold startSession
    rw [drawn]
    dsimp only
    rw [same]
  refine ⟨⟨_, run, quiet_settle s _⟩, _, run, ?_⟩
  generalize hw : ({ v with mgmt := { v.mgmt with sessions := s.mgmt.sessions ++ [x], nextId := nextSession x.id } } : State) = w
  have off := offPort_sendReply x.id { ty := Fdp.helloReply, body := reply } w
  obtain ⟨h, sent, mild⟩ := sameSessions_sendReply x.id { ty := Fdp.helloReply, body := reply } w
  generalize sendReply x.id { ty := Fdp.helloReply, body := reply } w = t at *
  have calm := quiet_settle s t
  have off' : offPort t = offPort v := by rw [off, ← hw]; rfl
  refine ⟨calm.mem.trans ((congrArg State.mem off' :).trans (draws.mem.trans mem)), calm.store.trans ((congrArg State.store off' :).trans
    (draws.store.trans store)), calm.life.trans ((congrArg State.life off' :).trans (draws.life.trans life)), h x, ?_, ?_, (mild x).phase,
    (mild x).entry, (mild x).path, (mild x).th, ?_⟩
  · rw [calm.mgmt, sent, ← hw]
    exact List.mem_map_of_mem (List.mem_append_right _ (.head _))
  · exact (mild x).id.trans ((congrArg Mgmt.nextId mgmt).trans nextId)
  · exact ((mild x).idle rfl).2.trans (draws.now.trans now)

theorem hello_answers {s u : State} {r : FdpRoute} {p : SessPath} {f m : Bytes} (a : Arriving s r p f Fdp.hello) (session : frameSession f = 0)
    (whole : addFragment p.key Fdp.hello (frameFrag f) (frameMore f) (framePayload f) (received s) = (some m, u)) :
    if 10 ≤ (recentHellos u).length then Answers (.hello r) s (Quiet u)
    else if helloOk m = false then Answers (.hello r) s (Quiet (sendError p 0x05 0 u))
    else if 8 ≤ sessionCount u then Answers (.hello r) s (Quiet (sendError p 0x03 0 u))
    else match helloReply m { u with mgmt := { u.mgmt with hellos := s.now :: recentHellos u } } with
      | .error v => Answers (.hello r) s (Quiet { v with mgmt := { v.mgmt with work := v.mgmt.work ++ [.hello p m] } })
      | .ok ((reply, z), v) =>
        let x := helloSession p m reply z v
        Answers (.hello r) s (Quiet (sendReply x.id { ty := Fdp.helloReply, body := reply }
          { v with mgmt := { v.mgmt with sessions := s.mgmt.sessions ++ [x], nextId := nextSession x.id } })) ∧
        Answers (.hello r) s fun t => t.mem = s.mem ∧ t.store = s.store ∧ t.life = s.life ∧
          ∃ y ∈ t.mgmt.sessions, y.id = s.mgmt.nextId ∧ y.phase = .replied ∧ y.entry = (m.at_ 32).toNat ∧ y.path = p ∧
            y.th = sha384 (m ++ reply) ∧ y.last = s.now := by
  have is := exec_arrives (i := .hello r) rfl a
  rw [receive_helloWhole a session whole] at is
  have base : u.mgmt.sessions = s.mgmt.sessions ∧ u.mgmt.nextId = s.mgmt.nextId ∧ u.mem = s.mem ∧ u.store = s.store ∧ u.life = s.life ∧
      u.now = s.now := by
    rw [addFragment_whole whole]
    exact ⟨rfl, rfl, rfl, rfl, rfl, rfl⟩
  clear whole
  unfold helloed at is
  by_cases many : 10 ≤ (recentHellos u).length
  · rw [if_pos many] at is ⊢
    exact ⟨_, is, (quiet_bump _ u).trans (quiet_settle s _)⟩
  rw [if_neg many] at is ⊢
  by_cases form : helloOk m = false
  · rw [if_pos form] at is ⊢
    exact ⟨_, is, quiet_settle s _⟩
  rw [if_neg form] at is ⊢
  by_cases full : 8 ≤ sessionCount u
  · rw [if_pos full] at is ⊢
    exact ⟨_, is, quiet_settle s _⟩
  rw [if_neg full] at is ⊢
  obtain ⟨sessions, nextId, mem, store, life, now⟩ := base
  rw [now] at is
  generalize hw : ({ u with mgmt := { u.mgmt with hellos := s.now :: recentHellos u } } : State) = w at is ⊢
  have calmed : w.mgmt.sessions = s.mgmt.sessions ∧ w.mgmt.nextId = s.mgmt.nextId ∧ w.mem = s.mem ∧ w.store = s.store ∧ w.life = s.life ∧
      w.now = s.now := by
    rw [← hw]
    exact ⟨sessions, nextId, mem, store, life, now⟩
  match drawn : helloReply m w with
  | .error v =>
    unfold startSession at is
    rw [drawn] at is
    exact ⟨_, is, quiet_settle s _⟩
  | .ok ((reply, z), v) => exact sessionSetUp calmed drawn is

/-! ## AUTH (R351) -/

theorem auth_answers {s : State} {r : FdpRoute} {p : SessPath} {f m : Bytes} {x : Session} (a : Arriving s r p f Fdp.auth)
    (w : WholeMessage s p f x m) :
    let u := accepted f x s
    if x.phase ≠ .replied then Answers (.auth r) s (Quiet u)
    else if m.length < 4 ∨ m.zeroAt 2 2 = false ∨ m.length ≠ 4 + m.leAt 0 2 then
      Answers (.auth r) s (Quiet (sendError x.path 0x05 x.id u))
    else if ((s.custody.roles.find? x.entry).any fun k => verifySig k.alg false k.key (authTbs x) (m.drop 4)) = true then
      let ok := Bytes.ofNats [roleOfEntry x.entry, x.entry] ++ Bytes.ofLE 2 s.idleS ++ Bytes.ofNats [s.life.lc.code, 0, 0, 0]
      Answers (.auth r) s (Quiet (sendReply x.id { ty := Fdp.authOk, body := ok }
        (modSession x.id (fun y => { y with phase := .open_ }) u))) ∧
      Answers (.auth r) s fun t => (t.session? x.id).map (·.phase) = some .open_ ∧ t.jobs = s.jobs ∧ t.mem = s.mem
    else Answers (.auth r) s (Quiet (endSession x 3 (sendError x.path 0x04 x.id u))) ∧
      Answers (.auth r) s fun t => t.session? x.id = none ∧ t.jobs = s.jobs ∧ t.mem = s.mem := by
  intro u
  have is := exec_arrives (i := .auth r) rfl a
  rw [receive_auth a, sealedFrame_whole authed w] at is
  have found : u.session? x.id = some _ := session_accepted f (session_of_whole w)
  have plain : u.jobs = s.jobs ∧ u.mem = s.mem := ⟨rfl, rfl⟩
  have life : u.life = s.life := rfl
  have idle : u.idleS = s.idleS := rfl
  have roles : u.custody.roles = s.custody.roles := rfl
  change exec (.auth r) s = settled s (authed x m u) at is
  clear_value u
  obtain ⟨jobs, mem⟩ := plain
  unfold authed at is
  rw [roles, life, idle] at is
  dsimp only at is
  by_cases phase : x.phase ≠ .replied
  · rw [if_pos phase] at is ⊢
    exact ⟨_, is, quiet_settle s _⟩
  rw [if_neg phase] at is ⊢
  by_cases form : m.length < 4 ∨ m.zeroAt 2 2 = false ∨ m.length ≠ 4 + m.leAt 0 2
  · rw [if_pos form] at is ⊢
    exact ⟨_, is, quiet_settle s _⟩
  rw [if_neg form] at is ⊢
  by_cases good : ((s.custody.roles.find? x.entry).any fun k => verifySig k.alg false k.key (authTbs x) (m.drop 4)) = true
  · rw [if_pos good] at is ⊢
    generalize hm : Bytes.ofNats [roleOfEntry x.entry, x.entry] ++ Bytes.ofLE 2 s.idleS ++ Bytes.ofNats [s.life.lc.code, 0, 0, 0] = ok at is ⊢
    have opened := session_modSession_self (h := fun y => { y with phase := .open_ }) found
    have noted : Quiet (modSession x.id (fun y => { y with phase := .open_ }) u) (record 0x0403 0 x.id x.entry 1 x.path.chanCode
        (s := modSession x.id (fun y => { y with phase := .open_ }) u)) := quiet_record ..
    generalize record 0x0403 0 x.id x.entry 1 x.path.chanCode (s := modSession x.id (fun y => { y with phase := .open_ }) u) = v at is noted
    have calm := quiet_settle s (sendReply x.id { ty := Fdp.authOk, body := ok } v)
    refine ⟨⟨_, is, (noted.sendReply x.id { ty := Fdp.authOk, body := ok }).trans calm⟩, _, is, ?_, ?_, ?_⟩
    · rw [← noted.session?] at opened
      obtain ⟨y, sent, same⟩ := sendReply_session opened x.id { ty := Fdp.authOk, body := ok }
      rw [calm.session?, sent]
      exact congrArg some same.phase
    · exact calm.jobs.trans ((jobs_sendReply _ _ _).trans (noted.jobs.trans jobs))
    · exact calm.mem.trans ((congrArg State.mem (offPort_sendReply _ _ _) :).trans (noted.mem.trans mem))
  · rw [if_neg good] at is ⊢
    have ended := (quiet_endSession x 3 (sendError x.path 0x04 x.id u)).trans (quiet_settle s _)
    refine ⟨⟨_, is, quiet_settle s _⟩, _, is, ?_, ?_, ?_⟩
    · rw [ended.session?]
      exact session_withoutSession_self _ _
    · exact ended.jobs.trans ((jobs_sendError _ _ _ _).trans jobs)
    · exact ended.mem.trans ((congrArg State.mem (offPort_sendError _ _ _ _) :).trans mem)

/-! ## REQUEST (R353 to R355) -/

theorem requested_eq {s : State} {x y : Session} {m : Bytes} (found : s.session? x.id = some y) (id : y.id = x.id) (open_ : y.phase = .open_)
    (long : 0x80 ≤ m.length) :
    requested x m s =
      if (y.req.any fun q => decide (q.id = reqId m)) = true then s
      else if y.lastId = some (reqId m) then sendReply x.id { ty := Fdp.response, body := y.lastResp } s
      else if y.req.isSome then sendReply x.id (busyReply m) s
      else runWork x.id y.entry m (modSession x.id (fun z => { z with req := some { id := reqId m, op := reqOp m, payload := m, since := s.now } }) s) := by
  unfold requested
  rw [found]
  dsimp only
  rw [if_neg (by simp [open_, Nat.not_lt.mpr long]), id]

theorem request_answers {s : State} {r : FdpRoute} {p : SessPath} {f m : Bytes} {x : Session} (a : Arriving s r p f Fdp.request)
    (w : WholeMessage s p f x m) (open_ : x.phase = .open_) (long : 0x80 ≤ m.length) :
    let u := accepted f x s
    match x.req with
    | some q =>
      if q.id = reqId m then Answers (.request r) s (Quiet u)
      else if x.lastId = some (reqId m) then
        Answers (.request r) s (Quiet (sendReply x.id { ty := Fdp.response, body := x.lastResp } u))
      else Answers (.request r) s (Quiet (sendReply x.id (busyReply m) u))
    | none =>
      if x.lastId = some (reqId m) then
        Answers (.request r) s (Quiet (sendReply x.id { ty := Fdp.response, body := x.lastResp } u))
      else
        let v := modSession x.id (fun y => { y with req := some { id := reqId m, op := reqOp m, payload := m, since := s.now } }) u
        match runRequest x.id x.entry m v with
        | (some d, out, w) => Answers (.request r) s (Quiet (respond x.id d out w))
        | (none, _, w) => Answers (.request r) s (Quiet
            (if isExecute m then w else { w with mgmt := { w.mgmt with work := w.mgmt.work ++ [.request x.id x.entry m] } })) := by
  intro u
  have is := exec_arrives (i := .request r) rfl a
  rw [receive_request a, sealedFrame_whole requested w] at is
  have found : u.session? x.id = some _ := session_accepted f (session_of_whole w)
  have now : u.now = s.now := rfl
  change exec (.request r) s = settled s (requested x m u) at is
  clear_value u
  rw [requested_eq found rfl open_ long, now] at is
  dsimp only at is
  cases req : x.req with
  | some q =>
    rw [req] at is
    dsimp only
    by_cases same : q.id = reqId m
    · rw [if_pos (by simpa using same)] at is
      rw [if_pos same]
      exact ⟨_, is, quiet_settle s _⟩
    · rw [if_neg (by simpa using same)] at is
      rw [if_neg same]
      by_cases last : x.lastId = some (reqId m)
      · rw [if_pos last] at is ⊢
        exact ⟨_, is, quiet_settle s _⟩
      · rw [if_neg last] at is ⊢
        exact ⟨_, is, quiet_settle s _⟩
  | none =>
    rw [req, if_neg (by simp)] at is
    dsimp only
    by_cases last : x.lastId = some (reqId m)
    · rw [if_pos last] at is ⊢
      exact ⟨_, is, quiet_settle s _⟩
    · rw [if_neg last, if_neg (by simp)] at is
      rw [if_neg last]
      unfold runWork at is
      match ran : runRequest x.id x.entry m
          (modSession x.id (fun y => { y with req := some { id := reqId m, op := reqOp m, payload := m, since := s.now } }) u) with
      | (some d, out, v) =>
        rw [ran] at is
        exact ⟨_, is, quiet_settle s _⟩
      | (none, out, v) =>
        rw [ran] at is
        exact ⟨_, is, quiet_settle s _⟩

theorem request_reads {s : State} {r : FdpRoute} {p : SessPath} {f m : Bytes} {x : Session} (a : Arriving s r p f Fdp.request)
    (w : WholeMessage s p f x m) (open_ : x.phase = .open_) (free : x.req = none) (new : x.lastId ≠ some (reqId m)) (long : 0x80 ≤ m.length)
    (op : reqOp m = Op.dictRead) (stored : dictFlag1 m = false) (rows : firstFail (requestRows s x.entry m) = none) :
    Answers (.request r) s fun t => t.jobs = s.jobs ∧ t.mem = s.mem ∧ t.store = s.store ∧
      (t.session? x.id).map (·.lastId) = some (some (reqId m)) ∧
      let d := dictReadBy (sessionUser x.entry) m (modSession x.id
        (fun y => { y with req := some { id := reqId m, op := reqOp m, payload := m, since := s.now } }) (accepted f x s))
      (t.session? x.id).map (·.lastResp) =
        some (responseBytes { id := reqId m, op := Op.dictRead, payload := m } d.1 d.2) := by
  have answered := request_answers a w open_ long
  have found := session_accepted f (session_of_whole w)
  rw [free] at answered
  dsimp only at answered
  rw [if_neg new] at answered
  have asked := session_modSession_self (h := fun y => { y with req := some { id := reqId m, op := reqOp m, payload := m, since := s.now } }) found
  have plain : (modSession x.id (fun y => { y with req := some { id := reqId m, op := reqOp m, payload := m, since := s.now } }) (accepted f x s)).jobs = s.jobs ∧
      (modSession x.id (fun y => { y with req := some { id := reqId m, op := reqOp m, payload := m, since := s.now } }) (accepted f x s)).mem = s.mem ∧
      (modSession x.id (fun y => { y with req := some { id := reqId m, op := reqOp m, payload := m, since := s.now } }) (accepted f x s)).store = s.store := ⟨rfl, rfl, rfl⟩
  have checks : firstFail (requestRows (modSession x.id (fun y => { y with req := some { id := reqId m, op := reqOp m, payload := m, since := s.now } })
      (accepted f x s)) x.entry m) = none := rows
  generalize modSession x.id (fun y => { y with req := some { id := reqId m, op := reqOp m, payload := m, since := s.now } }) (accepted f x s) = v at *
  obtain ⟨jobs, mem, store⟩ := plain
  have ran : runRequest x.id x.entry m v = (some (dictReadBy (sessionUser x.entry) m v).1, (dictReadBy (sessionUser x.entry) m v).2, v) := by
    unfold runRequest
    rw [checks]
    dsimp only
    rw [if_pos op]
    unfold readStore
    rw [stored, if_neg Bool.false_ne_true]
  rw [ran] at answered
  dsimp only at answered ⊢
  generalize dictReadBy (sessionUser x.entry) m v = d at *
  obtain ⟨t, is, calm⟩ := answered
  have responded : respond x.id d.1 d.2 v = sendReply x.id
      { ty := Fdp.response, body := responseBytes { id := reqId m, op := Op.dictRead, payload := m } d.1 d.2, ends := true }
      (modSession x.id (fun y => { y with lastId := some (reqId m), lastResp := responseBytes { id := reqId m, op := Op.dictRead, payload := m } d.1 d.2 }) v) := by
    unfold respond
    rw [asked]
    dsimp only
    rw [op]
    rfl
  have stored' := session_modSession_self (h := fun y => { y with
    lastId := some (reqId m), lastResp := responseBytes { id := reqId m, op := Op.dictRead, payload := m } d.1 d.2 }) asked
  obtain ⟨y, sent, same⟩ := sendReply_session stored' x.id
    { ty := Fdp.response, body := responseBytes { id := reqId m, op := Op.dictRead, payload := m } d.1 d.2, ends := true }
  have off := offPort_respond x.id d.1 d.2 v
  refine ⟨t, is, calm.jobs.trans ((jobs_respond _ _ _ _).trans jobs), calm.mem.trans ((congrArg State.mem off :).trans mem),
    calm.store.trans ((congrArg State.store off :).trans store), ?_, ?_⟩
  · rw [calm.session?, responded, sent]
    exact congrArg some same.lastId
  · rw [calm.session?, responded, sent]
    exact congrArg some same.lastResp

end Sys2Proof.Safety
end

section
/-!
PROOFS. The management port: the end of sessions, the port's timers, beacons and FDP_RELAY (R345, R349, R351, R356, R358, R359).
-/

-- In turn: a proof that waits for others beside it takes a thread and its stack from the memory that the check allows.
set_option Elab.async false

namespace Sys2Proof.Safety

open Sys2Proof.Machine

/-! ## CLOSE (R356) -/

theorem close_answers {s : State} {r : FdpRoute} {p : SessPath} {f m : Bytes} {x : Session} (a : Arriving s r p f Fdp.close)
    (w : WholeMessage s p f x m) :
    Answers (.close r) s (Quiet (endSession x 2 (accepted f x s))) ∧
    Answers (.close r) s fun t => t.session? x.id = none ∧ (∀ k, k ≠ x.id → t.session? k = s.session? k) ∧ t.jobs = s.jobs ∧
      t.mem = s.mem := by
  have is := exec_arrives (i := .close r) rfl a
  rw [receive_close a, sealedFrame_whole closed w] at is
  change exec (.close r) s = settled s (endSession x 2 (accepted f x s)) at is
  have ended := (quiet_endSession x 2 (accepted f x s)).trans (quiet_settle s _)
  refine ⟨⟨_, is, quiet_settle s _⟩, _, is, ?_, fun k ne => ?_, ended.jobs, ended.mem⟩
  · rw [ended.session?]
    exact session_withoutSession_self _ _
  · rw [ended.session?, session_withoutSession_ne _ ne]
    exact session_modSession_ne (s := received s) ne

/-! ## The port's timers (R349, R351, R356) -/

theorem fragments_discarded (s : State) (k : Nat) : Answers (.fragmentTimeout k) s fun t =>
    (∀ p ∈ t.mgmt.parts, p ∈ s.mgmt.parts ∧ (p.key = k → s.now - p.start < second)) ∧
    (∀ p ∈ s.mgmt.parts, p.key ≠ k → p ∈ t.mgmt.parts) ∧ t = { s with mgmt := { s.mgmt with parts := t.mgmt.parts } } := by
  refine ⟨_, rfl, fun p h => ?_, fun p h ne => ?_, rfl⟩
  · obtain ⟨kept, new⟩ := List.mem_filter.mp h
    exact ⟨kept, fun own => by simpa [own] using new⟩
  · exact List.mem_filter.mpr ⟨h, by simp [ne]⟩

/-- The end of a session that is not open yet. -/
theorem endSession_replied {x : Session} (phase : x.phase = .replied) (how : Nat) (s : State) : endSession x how s = withoutSession x.id s :=
  if_neg (by rw [phase]; decide)

theorem id_of_session {s : State} {id : Nat} {x : Session} (h : s.session? id = some x) : x.id = id := by
  simpa using List.find?_some h

theorem auth_expires {s : State} {id t0 : Nat} {x : Session} (found : s.session? id = some x) (phase : x.phase = .replied)
    (since : x.replied = some t0) :
    Answers (.authTimeout id) s fun t => if s.now - t0 ≥ 10 * second then
        t.session? id = none ∧ (∀ k, k ≠ id → t.session? k = s.session? k) ∧ t = { s with mgmt := t.mgmt } else t = s := by
  have is : exec (.authTimeout id) s = .next (if s.now - t0 ≥ 10 * second then withoutSession id s else s) := by
    show execAuthTimeout id s = _
    unfold execAuthTimeout
    rw [found]
    dsimp only
    rw [phase, since, endSession_replied phase, id_of_session found]
    simp
  refine ⟨_, is, ?_⟩
  dsimp only
  by_cases late : s.now - t0 ≥ 10 * second
  · rw [if_pos late, if_pos late]
    exact ⟨session_withoutSession_self _ _, fun k ne => session_withoutSession_ne _ ne, rfl⟩
  · rw [if_neg late, if_neg late]

theorem idle_expires {s : State} {id : Nat} {x : Session} (found : s.session? id = some x) (phase : x.phase = .open_) (free : x.req = none) :
    if s.now - x.last ≥ s.idleS * second then
      Answers (.sessionIdleTimeout id) s (Quiet (endSession x 3 s)) ∧
      Answers (.sessionIdleTimeout id) s fun t => t.session? id = none ∧
        (∀ k, k ≠ id → t.session? k = s.session? k) ∧ t.jobs = s.jobs ∧ t.mem = s.mem
    else Answers (.sessionIdleTimeout id) s (· = s) := by
  have is : exec (.sessionIdleTimeout id) s =
      if s.now - x.last ≥ s.idleS * second then settled s (endSession x 3 s) else .next s := by
    show execSessionIdleTimeout id s = _
    unfold execSessionIdleTimeout
    rw [found]
    dsimp only
    rw [phase, free]
    simp
  by_cases late : s.now - x.last ≥ s.idleS * second
  · rw [if_pos late] at is ⊢
    have ended := (quiet_endSession x 3 s).trans (quiet_settle s _)
    rw [id_of_session found] at ended
    refine ⟨⟨_, is, quiet_settle s _⟩, _, is, ?_, fun k ne => ?_, ended.jobs, ended.mem⟩
    · rw [ended.session?]
      exact session_withoutSession_self _ _
    · rw [ended.session?]
      exact session_withoutSession_ne _ ne
  · rw [if_neg late] at is ⊢
    exact ⟨s, is, rfl⟩

/-! ## Beacons (R345) -/

theorem quiet_setBeacon (present : Bool) (s : State) : Quiet { s with mgmt := { s.mgmt with beacon := present } } (setBeacon present s) := by
  unfold setBeacon
  by_cases same : s.mgmt.beacon = present
  · rw [if_pos same, ← same]
    exact .refl _
  · rw [if_neg same]
    exact quiet_setErr _ _ _

theorem beacon_lost (s : State) : Answers (.plcaBeaconChange false) s (Quiet { s with mgmt := { s.mgmt with beacon := false } }) :=
  ⟨_, rfl, (quiet_setBeacon false s).trans (quiet_settle s _)⟩

theorem beacon_seen (s : State) : Answers (.plcaBeaconChange true) s (Quiet { s with
    mgmt := { s.mgmt with beacon := s.mgmt.beacon || (s.mpOn && s.clock.refclk) } }) := by
  have is : exec (.plcaBeaconChange true) s = settled s (if (true && !(s.mpOn && s.clock.refclk)) = true then s else setBeacon true s) := rfl
  refine ⟨_, is, .trans ?_ (quiet_settle s _)⟩
  cases on : s.mpOn && s.clock.refclk with
  | false =>
    rw [Bool.or_false]
    exact .refl _
  | true =>
    rw [Bool.or_true]
    exact quiet_setBeacon true s

/-! ## FDP_RELAY (R358, R359) -/

theorem offPort_drain (ch : Nat) : ∀ (l : List Session) (s : State), offPort (l.foldl
    (fun s x => if x.path = .relay ch ∧ x.waiting ≠ [] then flushSession x.id x.waiting s else s) s) = offPort s
  | [], _ => rfl
  | x :: r, s => by
    rw [List.foldl_cons, offPort_drain ch r]
    split
    · exact offPort_flushSession _ _ _
    · rfl

theorem mem_drainWaiting (ch : Nat) (s : State) : (drainWaiting ch s).mem = s.mem :=
  (congrArg State.mem (offPort_drain ch s.mgmt.sessions s) :)

/-- A command that has delivered its frames, or has none to deliver, hands over those that are pending, or waits. -/
theorem exec_fdpRelay {s : State} {j : Job} (hj : s.admin? 0 Op.fdpRelay = some j)
    (ready : j.phase = 1 ∨ j.phase = 0 ∧ firstFail (relayRows s j.entry) = none ∧ relayInLen j.entry = 0) :
    exec .fdpRelay s = match relayWaits j s with
      | (some d, t) => settled s (decideJob j.ref d t)
      | (none, t) => settled s t := by
  show execFdpRelay s = _
  unfold execFdpRelay runAdminSteps
  rw [hj]
  dsimp only
  obtain waits | ⟨start, rows, none⟩ := ready
  · rw [if_pos waits] <;> rfl
  · rw [if_neg (by rw [start]; decide), rows]
    dsimp only
    rw [if_pos none] <;> rfl

/-- Bytes for the host, where there are any. -/
theorem mem_written {s : State} (f a : Nat) (b : Bytes) (unlogged : (s.fn f).log = none) :
    (if b.isEmpty then s else hostWrite f a b s).mem = Memory.putAll s.mem (hostKey f a) b := by
  cases b with
  | nil => rfl
  | cons x r =>
    rw [if_neg (by simp), hostWrite_unlogged _ _ _ _ unlogged]

theorem relay_hands {s : State} {j : Job} (hj : s.admin? 0 Op.fdpRelay = some j)
    (ready : j.phase = 1 ∨ j.phase = 0 ∧ firstFail (relayRows s j.entry) = none ∧ relayInLen j.entry = 0) :
    let ch := relayCh j.entry
    let l := (takeFrames (relayRoom j.entry) (s.mgmt.relay.getD ch [])).1
    let b := l.flatMap relayRecord
    let u := { s with mgmt := { s.mgmt with
      relay := s.mgmt.relay.set ch (takeFrames (relayRoom j.entry) (s.mgmt.relay.getD ch [])).2 } }
    let since := if j.phase = 0 then s.now else j.since
    if s.mgmt.relay.getD ch [] ≠ [] ∨ elapsedUs s.now since (relayWait j.entry) = true then
      Completes .fdpRelay s j { status := 0x00, r0 := b.length, r1 := l.length }
        (drainWaiting ch (if b.isEmpty then u else hostWrite 0 (relayOut j.entry) b u)) ∧
      Answers .fdpRelay s fun t => Tidy s → (s.fn 0).log = none →
        t.hostRead 0 (relayOut j.entry) b.length = b ∧ OnlyWrites 0 (relayOut j.entry) b.length s t
    else Answers .fdpRelay s (Quiet (modJob j.ref (fun j => { j with phase := 1, since := since }) s)) := by
  intro ch l b u since
  have is := exec_fdpRelay hj ready
  unfold relayWaits at is
  dsimp only at is
  by_cases due : s.mgmt.relay.getD ch [] ≠ [] ∨ elapsedUs s.now since (relayWait j.entry) = true
  · rw [if_pos due] at is ⊢
    change exec .fdpRelay s = settled s (decideJob j.ref { status := 0x00, r0 := b.length, r1 := l.length }
      (drainWaiting ch (if b.isEmpty then u else hostWrite 0 (relayOut j.entry) b u))) at is
    refine ⟨completes_of_exec is, _, is, fun tidy unlogged => writes_of_mem tidy ?_⟩
    rw [(quiet_settle s _).mem]
    exact (mem_drainWaiting ch _).trans (mem_written (s := u) 0 (relayOut j.entry) b unlogged)
  · rw [if_neg due] at is ⊢
    exact ⟨_, is, quiet_settle s _⟩

theorem relay_malformed {s u : State} {j : Job} (hj : s.admin? 0 Op.fdpRelay = some j) (start : j.phase = 0)
    (rows : firstFail (relayRows s j.entry) = none) (some_ : relayInLen j.entry ≠ 0) (read : j.reads = .arrived)
    (stops : deliverRelay (relayCh j.entry) (j.input 0 s).length (j.input 0 s) s = (true, u)) :
    Completes .fdpRelay s j { status := 0x20, detail := 0x54 } u := by
  refine completes_of_exec (i := .fdpRelay) ?_
  show execFdpRelay s = _
  unfold execFdpRelay
  refine runAdminSteps_of_done hj ?_
  dsimp only
  rw [if_neg (by rw [start]; decide), rows]
  dsimp only
  rw [if_neg some_]
  unfold afterReads
  rw [if_pos read]
  dsimp only
  rw [stops, if_pos rfl]

/-- Settles O51: a frame of the port or of a relay channel is handled by its type, a session by its phase, and FDP_RELAY by its step. -/
theorem managementPort : Obligations.ManagementPort := by
  unfold Obligations.ManagementPort
  exact ⟨fun s r p f a len more frag session => discover_announces a len more frag session,
    fun s ch f a len more frag session room => discover_relays a len more frag session room,
    fun s u r p f m a session whole => hello_answers a session whole,
    fun s r p f m x a w => auth_answers a w,
    fun s r p f m x a w open_ long => request_answers a w open_ long,
    fun s r p f m x a w open_ free new long op stored rows => request_reads a w open_ free new long op stored rows,
    fun s r p f m x a w => close_answers a w,
    fragments_discarded,
    fun s id t0 x found phase since => auth_expires found phase since,
    fun s id x found phase free => idle_expires found phase free,
    beacon_lost, beacon_seen,
    fun s j hj ready => relay_hands hj ready,
    fun s u j hj start rows some_ read stops => relay_malformed hj start rows some_ read stops⟩

end Sys2Proof.Safety
end

section
/-!
PROOFS. Keys are created and rotated (R207, R212 to R214): the attribute word, what placing a key leaves, KEY_CREATE, REKEY and
REATTR.
-/

-- In turn: a proof that waits for others beside it takes a thread and its stack from the memory that the check allows.
set_option Elab.async false

namespace Sys2Proof.Safety

open Sys2Proof.Machine

/-! ## The attribute word (R192 to R194) -/

section
variable (t g e u a x : Nat)

theorem mkAttr_tenant : attrTenant (mkAttr t g e u a x) = t % 65536 := by
  unfold attrTenant mkAttr
  omega

theorem mkAttr_gen : attrGen (mkAttr t g e u a x) = g % 65536 := by
  unfold attrGen bitsOf mkAttr
  rw [Nat.shiftRight_eq_div_pow]
  omega

theorem mkAttr_uses : attrUses (mkAttr t g e u a x) = u % 64 := by
  unfold attrUses bitsOf mkAttr
  rw [Nat.shiftRight_eq_div_pow]
  omega

theorem mkAttr_alg : attrAlg (mkAttr t g e u a x) = a % 32 := by
  unfold attrAlg bitsOf mkAttr
  rw [Nat.shiftRight_eq_div_pow]
  omega

end

theorem attrUses_lt (a : Nat) : attrUses a < 64 := Nat.mod_lt _ (by decide)
theorem attrAlg_lt (a : Nat) : attrAlg a < 32 := Nat.mod_lt _ (by decide)

section
variable (a g : Nat)

theorem withGen_tenant : attrTenant (attrWithGen a g) = attrTenant a :=
  (mkAttr_tenant ..).trans (Nat.mod_mod _ _)

theorem withGen_uses : attrUses (attrWithGen a g) = attrUses a :=
  (mkAttr_uses ..).trans (Nat.mod_eq_of_lt (attrUses_lt a))

theorem withGen_alg : attrAlg (attrWithGen a g) = attrAlg a :=
  (mkAttr_alg ..).trans (Nat.mod_eq_of_lt (attrAlg_lt a))

end

/-! ## Two copies that agree (R196) -/

/-- Two copies with the same attributes, counter, limit and times. -/
def SameFields (a b : SlotCopy) : Prop := a.attr = b.attr ∧ a.count = b.count ∧ a.limit = b.limit ∧ a.nb = b.nb ∧ a.na = b.na

/-- Two copies of one key with the same fields. -/
def Alike (a b : SlotCopy) : Prop := a.key.clear = b.key.clear ∧ SameFields a b

theorem copiesAgree_iff (x : Slot) : copiesAgree x = true ↔ Alike x.a x.b := by
  simp only [copiesAgree, Alike, SameFields, Bool.and_eq_true, decide_eq_true_eq, and_assoc]

theorem freshCopies_are (c : SlotCopy) (ka kb : Bytes) (s : State) :
    ∃ a b, (freshCopies c ka kb s).1 = ({ c with key := a }, { c with key := b }) ∧ a.clear = ka ∧ b.clear = kb :=
  ⟨_, _, rfl, clear_maskKey .., clear_maskKey ..⟩

theorem movedCopies_are (h : SlotCopy → SlotCopy) (x : Slot) (s : State) :
    ∃ a b, (movedCopies h x s).1 = ({ h x.a with key := a }, { h x.b with key := b }) ∧ a.clear = x.a.key.clear ∧ b.clear = x.b.key.clear :=
  ⟨_, _, rfl, clear_remask .., clear_remask ..⟩

theorem masks_movedCopies (h : SlotCopy → SlotCopy) (x : Slot) (s : State) : Masks s (movedCopies h x s).2 :=
  (masks_remask ..).trans (masks_remask ..)

/-! ## Placing a key (R191, R195, R207) -/

/-- Slot `x` with the copies of a key placed in it under its next generation. -/
def keyed (x : Slot) (c : SlotCopy × SlotCopy) (now point : Nat) (blob : Bytes) : Slot :=
  { x with
    st := .loaded, a := { c.1 with attr := attrWithGen c.1.attr (nextGen x.lastGen) }
    b := { c.2 with attr := attrWithGen c.2.attr (nextGen x.lastGen) }, lastGen := nextGen x.lastGen
    genTime := now, point := point, pendingP := none, reloadDue := false, blob := blob }

theorem slot_of_placeKey {s t : State} {n point : Nat} {c : SlotCopy × SlotCopy} (h : placeKey n c point s = some t) :
    (∃ blob, t.slot n = keyed (s.slot n) c s.now point blob) ∧ (∀ m, m ≠ n → t.slot m = s.slot m) ∧
      t = { s with store := { s.store with slots := t.store.slots } } := by
  obtain ⟨blob, -, rfl⟩ := Option.map_eq_some_iff.mp h
  exact ⟨⟨blob, slot_modSlot_self ..⟩, fun m ne => slot_modSlot_ne _ _ ne, rfl⟩

/-- Sides that hold the same key and domain key make the same blob. -/
theorem placeKey_of_alike {s : State} (n point : Nat) {c : SlotCopy × SlotCopy} (keys : s.domainKeys.1 = s.domainKeys.2)
    (alike : Alike c.1 c.2) : ∃ t, placeKey n c point s = some t := by
  obtain ⟨key, attr, count, limit, nb, na⟩ := alike
  have blob : sideBlob s.domainKeys.1 n { c.1 with attr := attrWithGen c.1.attr (nextGen (s.slot n).lastGen) } s =
      sideBlob s.domainKeys.2 n { c.2 with attr := attrWithGen c.2.attr (nextGen (s.slot n).lastGen) } s := by
    unfold sideBlob
    dsimp only
    rw [keys, key, attr, count, limit, nb, na]
  exact ⟨_, Option.map_eq_some_iff.mpr ⟨_, if_pos blob, rfl⟩⟩

/-- The public key that a command which places a key writes for the host; none for AES. -/
def pubOf (x : Slot) : Bytes := if isAes (attrAlg x.a.attr) then [] else publicOf (attrAlg x.a.attr) x.a.key.clear

theorem length_pubOf (x : Slot) : (pubOf x).length = pubNeed (attrAlg x.a.attr) := by
  unfold pubOf pubNeed
  split
  · rfl
  · exact length_fit ..

/-- What a command that places a key leaves: `t` is the state with the key placed, `v` the one after the command. -/
structure PlacedIn (f addr n : Nat) (r : JobRef) (t v : State) : Prop where
  slots (m : Nat) : v.slot m = t.slot m
  life : v.life = t.life
  outcome : (v.job? r).map (·.outcome) =
    some (some { status := 0x00, r0 := n + 65536 * attrGen (v.slot n).a.attr, r1 := pubNeed (attrAlg (v.slot n).a.attr) })
  mem : (t.fn f).log = none → v.mem = Memory.putAll t.mem (hostKey f addr) (pubOf (t.slot n))

theorem writePub_leaves (f addr n : Nat) (t : State) :
    (writePub f addr n t).1 = pubNeed (attrAlg (t.slot n).a.attr) ∧ (writePub f addr n t).2.store = t.store ∧
      (writePub f addr n t).2.life = t.life ∧ (writePub f addr n t).2.jobs = t.jobs ∧
      ((t.fn f).log = none → (writePub f addr n t).2.mem = Memory.putAll t.mem (hostKey f addr) (pubOf (t.slot n))) := by
  unfold writePub pubOf pubNeed
  dsimp only
  by_cases aes : isAes (attrAlg (t.slot n).a.attr) = true
  · rw [if_pos aes, if_pos aes, if_pos aes]
    exact ⟨rfl, rfl, rfl, rfl, fun _ => rfl⟩
  · rw [if_neg aes, if_neg aes, if_neg aes]
    obtain ⟨store, life, -⟩ := frame_hostWrite f addr (publicOf (attrAlg (t.slot n).a.attr) (t.slot n).a.key.clear) t
    refine ⟨rfl, store, life, (written_hostWrite ..).jobs, fun unlogged => ?_⟩
    rw [hostWrite_unlogged _ _ _ _ unlogged]

theorem placed_leaves {s t : State} {i : Instr} {f addr n op : Nat} {l : List Nat} {k : Job} {r : JobRef}
    (u : State) (own : k ∈ t.jobs) (ref : k.ref = r)
    (is : exec i s = settled s (decideJob r (placed f addr n op l u (some t)).1 (placed f addr n op l u (some t)).2)) :
    Answers i s (PlacedIn f addr n r t) := by
  subst ref
  obtain ⟨len, store, life, jobs, mem⟩ := writePub_leaves f addr n t
  have placedIs : placed f addr n op l u (some t) =
      ({ status := Status.ok, r0 := handleNow (writePub f addr n t).2 n, r1 := (writePub f addr n t).1 }, keyCmd n f op (writePub f addr n t).2) := rfl
  rw [placedIs, len] at is
  generalize (writePub f addr n t).2 = w at *
  have noted : Quiet w (keyCmd n f op w) := quiet_record ..
  have calm := quiet_settle s (decideJob k.ref
    { status := Status.ok, r0 := handleNow w n, r1 := pubNeed (attrAlg (t.slot n).a.attr) } (keyCmd n f op w))
  have slots (m : Nat) : (settle s (decideJob k.ref { status := Status.ok, r0 := handleNow w n, r1 := pubNeed (attrAlg (t.slot n).a.attr) }
      (keyCmd n f op w))).slot m = t.slot m :=
    (slot_of_quiet calm m).trans ((slot_of_quiet noted m).trans (slot_of_store store m))
  have handle : handleNow w n = n + 65536 * attrGen (t.slot n).a.attr := by
    unfold handleNow
    rw [slot_of_store store n]
  refine ⟨_, is, slots, calm.life.trans (noted.life.trans life), ?_, fun unlogged => calm.mem.trans (noted.mem.trans (mem unlogged))⟩
  rw [slots n, job_congr calm.jobs, handle]
  exact outcome_decideJob _ (by rw [noted.jobs, jobs]; exact own)

/-! ## Slot commands run (R205, R215) -/

theorem runSlotCmd_of_done {s t : State} {f op : Nat} {waits : Bytes → List Nat} {body : Job → State → Option Done × State} {j : Job} {d : Done}
    (hj : s.admin? f op = some j) (taken : slotTaken s j = false) (waiting : (waits j.entry).any (slotWaits s) = false)
    (hb : body j s = (some d, t)) : runSlotCmd f op waits body s = settled s (decideJob j.ref d t) := by
  refine runAdminSteps_of_done hj ?_
  rw [taken, waiting, Bool.and_false, Bool.or_false, if_neg Bool.false_ne_true, hb]

theorem runSlotCmd_of_wait {s t : State} {f op : Nat} {waits : Bytes → List Nat} {body : Job → State → Option Done × State} {j : Job}
    (hj : s.admin? f op = some j) (taken : slotTaken s j = false) (waiting : (waits j.entry).any (slotWaits s) = false)
    (hb : body j s = (none, t)) : runSlotCmd f op waits body s = settled s t := by
  refine runAdminSteps_of_wait hj ?_
  rw [taken, waiting, Bool.and_false, Bool.or_false, if_neg Bool.false_ne_true, hb]

/-- A job is still of the table, by its name, when random bytes have been drawn. -/
theorem listed_of_draws {s u : State} {j : Job} (d : Draws s u) (hj : j ∈ s.jobs) : ∃ k ∈ u.jobs, k.ref = j.ref := by
  have listed := List.mem_map_of_mem (f := undrawnJob) hj
  rw [← d.jobs] at listed
  obtain ⟨k, hk, same⟩ := List.mem_map.mp listed
  exact ⟨k, hk, (congrArg Job.ref same :)⟩

theorem mem_of_admin {s : State} {f op : Nat} {j : Job} (hj : s.admin? f op = some j) : j ∈ s.jobs := List.mem_of_find?_eq_some hj

theorem domainKeys_of_store {s t : State} (h : t.store = s.store) : t.domainKeys = s.domainKeys := by
  unfold State.domainKeys
  rw [slot_of_store h 0]

/-! ## KEY_CREATE (R207) -/

theorem targetSlot_of_store {s t : State} (h : t.store = s.store) (n : Nat) : t.targetSlot n = s.targetSlot n := by
  unfold State.targetSlot State.lowestEmpty State.slot
  rw [h]

/-- The copies of a KEY_CREATE's key. -/
def createdCopy (f : Nat) (e : Bytes) (s : State) : SlotCopy :=
  { attr := mkAttr (s.fn f).tenant 0 (e.leAt 0x16 2) ((e.at_ 0x13).toNat % 64) ((e.at_ 0x12).toNat % 32) ((e.at_ 0x14).toNat % 4)
    limit := e.leAt 0x18 6, nb := e.leAt 0x20 8, na := e.leAt 0x28 8 }

theorem createKey_eq {s t : State} {f n : Nat} {e key : Bytes} (target : s.targetSlot (e.leAt 0x10 2) = some n)
    (placedIs : placeKey n (freshCopies (createdCopy f e s) key key s).1 (pointFrom s.lease 0 (e.leAt 0x18 6))
      (freshCopies (createdCopy f e s) key key s).2 = some t) :
    createKey f e key s = placed f (e.leAt 0x30 8) n Op.keyCreate [0] s (some t) := by
  unfold createKey
  rw [target]
  exact congrArg (placed f (e.leAt 0x30 8) n Op.keyCreate [0] s) placedIs

theorem keyCreate_places {s u : State} {f n : Nat} {j : Job} {key : Bytes} (hj : s.admin? f Op.keyCreate = some j) (free : SlotsFree s j)
    (rows : firstFail (createRows s f j.entry) = none) (drawn : fwKey ((j.entry.at_ 0x12).toNat % 32) s = .ok (key, u))
    (target : s.targetSlot (j.entry.leAt 0x10 2) = some n) (keys : s.domainKeys.1 = s.domainKeys.2) :
    Answers (.keyCreate f) s fun v =>
      let x := v.slot n
      x.st = .loaded ∧ x.a.key.clear = key ∧ x.b.key.clear = key ∧
      x.a.attr = attrWithGen (mkAttr (s.fn f).tenant 0 (j.entry.leAt 0x16 2) ((j.entry.at_ 0x13).toNat % 64)
        ((j.entry.at_ 0x12).toNat % 32) ((j.entry.at_ 0x14).toNat % 4)) (nextGen (s.slot n).lastGen) ∧
      x.a.count = 0 ∧ x.a.limit = j.entry.leAt 0x18 6 ∧ x.a.nb = j.entry.leAt 0x20 8 ∧ x.a.na = j.entry.leAt 0x28 8 ∧
      copiesAgree x = true ∧ x.lastGen = nextGen (s.slot n).lastGen ∧ (∀ m, m ≠ n → v.slot m = s.slot m) ∧ v.life = s.life ∧
      (v.job? j.ref).map (·.outcome) = some (some { status := 0x00, r0 := n + 65536 * attrGen x.a.attr
                                                    r1 := pubNeed ((j.entry.at_ 0x12).toNat % 32) }) ∧
      (Tidy s → (s.fn f).log = none → OnlyWrites f (j.entry.leAt 0x30 8) (pubNeed ((j.entry.at_ 0x12).toNat % 32)) s v) := by
  obtain ⟨taken, waiting⟩ := free
  have draws : Draws s u := by
    have all := drawn_fwKey ((j.entry.at_ 0x12).toNat % 32) s
    rw [drawn] at all
    exact all.2
  have tenant : (u.fn f).tenant = (s.fn f).tenant := (congrArg Fn.tenant (draws.2 f) :)
  obtain ⟨k, listed, ref⟩ := listed_of_draws draws (mem_of_admin hj)
  have masks := masks_freshCopies (createdCopy f j.entry u) key key u
  obtain ⟨a, b, copies, clearA, clearB⟩ := freshCopies_are (createdCopy f j.entry u) key key u
  have made (t : State) := createKey_eq (f := f) (key := key) (t := t) ((targetSlot_of_store draws.store _).trans target)
  rw [copies] at made
  generalize (freshCopies (createdCopy f j.entry u) key key u).2 = w at masks made
  have kept : w.store = s.store := (congrArg State.store masks :).trans draws.store
  obtain ⟨t, placedIs⟩ := placeKey_of_alike n (pointFrom u.lease 0 (j.entry.leAt 0x18 6)) (s := w)
    (c := ({ createdCopy f j.entry u with key := a }, { createdCopy f j.entry u with key := b }))
    (by rw [domainKeys_of_store kept]; exact keys) ⟨clearA.trans clearB.symm, rfl, rfl, rfl, rfl, rfl⟩
  have is : exec (.keyCreate f) s = settled s (decideJob j.ref (placed f (j.entry.leAt 0x30 8) n Op.keyCreate [0] u (some t)).1
      (placed f (j.entry.leAt 0x30 8) n Op.keyCreate [0] u (some t)).2) := by
    rw [← made t placedIs]
    show execKeyCreate f s = _
    unfold execKeyCreate
    refine runSlotCmd_of_done hj taken waiting ?_
    rw [rows]
    dsimp only
    unfold withDrawn
    rw [drawn]
  obtain ⟨⟨blob, here⟩, others, rest⟩ := slot_of_placeKey placedIs
  have jobs : t.jobs = u.jobs := by
    rw [rest]
    exact (congrArg State.jobs masks :)
  have life : t.life = s.life := by
    rw [rest]
    exact (congrArg State.life masks :).trans draws.life
  have mem : t.mem = s.mem := by
    rw [rest]
    exact (congrArg State.mem masks :).trans draws.mem
  have log : (t.fn f).log = (s.fn f).log := by
    rw [rest]
    exact (congrArg (fun x : State => (x.fn f).log) masks :).trans (draws.log f)
  rw [slot_of_store kept] at here
  obtain ⟨v, ran, done⟩ := placed_leaves (k := k) u (by rw [jobs]; exact listed) ref is
  have slot : v.slot n = keyed (s.slot n) _ w.now (pointFrom u.lease 0 (j.entry.leAt 0x18 6)) blob := (done.slots n).trans here
  have attr : (v.slot n).a.attr = attrWithGen (mkAttr (s.fn f).tenant 0 (j.entry.leAt 0x16 2) ((j.entry.at_ 0x13).toNat % 64)
      ((j.entry.at_ 0x12).toNat % 32) ((j.entry.at_ 0x14).toNat % 4)) (nextGen (s.slot n).lastGen) := by
    rw [slot, ← tenant]
    rfl
  have alg : attrAlg (v.slot n).a.attr = (j.entry.at_ 0x12).toNat % 32 := by
    rw [attr, withGen_alg]
    exact (mkAttr_alg ..).trans (Nat.mod_mod _ _)
  have outcome := done.outcome
  rw [alg] at outcome
  refine ⟨v, ran, by rw [slot]; rfl, by rw [slot]; exact clearA, by rw [slot]; exact clearB, attr, by rw [slot]; rfl, by rw [slot]; rfl,
    by rw [slot]; rfl, by rw [slot]; rfl, ?_, by rw [slot]; rfl, fun m ne => ?_, done.life.trans life, outcome, fun tidy unlogged => ?_⟩
  · rw [slot, copiesAgree_iff]
    exact ⟨clearA.trans clearB.symm, rfl, rfl, rfl, rfl, rfl⟩
  · rw [done.slots, others m ne, slot_of_store kept]
  · have written := done.mem (log.trans unlogged)
    rw [mem] at written
    have only := (writes_of_mem tidy written).2
    rw [length_pubOf, ← done.slots, alg] at only
    exact only

theorem keyCreate_waits {s u : State} {f : Nat} {j : Job} (hj : s.admin? f Op.keyCreate = some j) (free : SlotsFree s j)
    (rows : firstFail (createRows s f j.entry) = none) (drawn : fwKey ((j.entry.at_ 0x12).toNat % 32) s = .error u) :
    Answers (.keyCreate f) s (Quiet (acceptCmd j u)) := by
  obtain ⟨taken, waiting⟩ := free
  have is : exec (.keyCreate f) s = settled s (acceptCmd j u) := by
    show execKeyCreate f s = _
    unfold execKeyCreate
    refine runSlotCmd_of_wait hj taken waiting ?_
    rw [rows]
    dsimp only
    unfold withDrawn
    rw [drawn]
  exact ⟨_, is, quiet_settle s _⟩

end Sys2Proof.Safety
end

section
/-!
PROOFS. Keys are rotated (R212 to R214): REKEY and REATTR.
-/

-- In turn: a proof that waits for others beside it takes a thread and its stack from the memory that the check allows.
set_option Elab.async false

namespace Sys2Proof.Safety

open Sys2Proof.Machine

/-! ## What changes in the slot store alone -/

/-- The slots and the mask generators alone change. -/
def InSlots (s t : State) : Prop :=
  t = { s with store := { s.store with slots := t.store.slots }, fab := { s.fab with gens := t.fab.gens } }

theorem InSlots.refl (s : State) : InSlots s s := rfl

theorem InSlots.trans {s t u : State} (a : InSlots s t) (b : InSlots t u) : InSlots s u := by
  unfold InSlots at a b ⊢
  rw [b, a]

theorem inSlots_of_masks {s t : State} (h : Masks s t) : InSlots s t := by
  unfold Masks at h
  rw [h]
  rfl

section
variable {s t : State} (h : InSlots s t)
include h

theorem InSlots.jobs : t.jobs = s.jobs := (congrArg State.jobs h :)
theorem InSlots.mem : t.mem = s.mem := (congrArg State.mem h :)
theorem InSlots.life : t.life = s.life := (congrArg State.life h :)
theorem InSlots.now : t.now = s.now := (congrArg (fun x : State => x.clock.meridian) h :)

end

/-! ## The generation that retires, and the one that is archived (R212, R213) -/

theorem retire_leaves (n : Nat) (old : Slot) (s : State) : InSlots s (retire n old s) ∧ (∀ m, m ≠ n → (retire n old s).slot m = s.slot m) ∧
    ∃ r, (retire n old s).slot n = { s.slot n with retiring := r } := by
  unfold retire
  dsimp only
  split
  · exact ⟨rfl, fun m ne => slot_modSlot_ne _ _ ne, _, slot_modSlot_self ..⟩
  · exact ⟨.refl s, fun _ _ => rfl, _, rfl⟩

/-- The old key in the archive slot `arc`, where there is one; the other slots stay. -/
structure Archived (arc : Nat) (old : Slot) (s t : State) : Prop where
  rest : InSlots s t
  others (m : Nat) : m ≠ arc ∨ arc = 0 → t.slot m = s.slot m
  here : arc ≠ 0 → (t.slot arc).st = .loaded ∧ (t.slot arc).a.key.clear = old.a.key.clear ∧ (t.slot arc).a.count = old.a.count ∧
    (t.slot arc).a.limit = old.a.limit ∧ (t.slot arc).point = old.point ∧ (t.slot arc).a.na = archiveEnd old.a.na s.now

theorem archive_places {s : State} {arc : Nat} {old : Slot} (keys : s.domainKeys.1 = s.domainKeys.2) (agree : copiesAgree old = true) :
    ∃ t, archive arc old s = some t ∧ Archived arc old s t := by
  unfold archive
  by_cases none : arc = 0
  · rw [if_pos none]
    exact ⟨s, rfl, .refl s, fun _ _ => rfl, fun some_ => absurd none some_⟩
  rw [if_neg none]
  dsimp only
  have masks := masks_movedCopies (fun c => { c with na := archiveEnd c.na s.now }) old s
  obtain ⟨a, b, copies, clearA, clearB⟩ := movedCopies_are (fun c => { c with na := archiveEnd c.na s.now }) old s
  rw [copies]
  generalize (movedCopies (fun c => { c with na := archiveEnd c.na s.now }) old s).2 = w at masks ⊢
  obtain ⟨key, attr, count, limit, nb, na⟩ := (copiesAgree_iff old).mp agree
  obtain ⟨t, placedIs⟩ := placeKey_of_alike arc old.point (s := w)
    (c := ({ { old.a with na := archiveEnd old.a.na s.now } with key := a }, { { old.b with na := archiveEnd old.b.na s.now } with key := b }))
    (by rw [domainKeys_of_store (congrArg State.store masks :)]; exact keys)
    ⟨clearA.trans (key.trans clearB.symm), attr, count, limit, nb, congrArg (archiveEnd · s.now) na⟩
  obtain ⟨⟨blob, here⟩, others, rest⟩ := slot_of_placeKey placedIs
  refine ⟨t, placedIs, (inSlots_of_masks masks).trans (by rw [rest]; rfl), fun m ne => ?_, fun _ => ?_⟩
  · rw [others m (ne.resolve_right none), slot_of_masks masks]
  · rw [here]
    exact ⟨rfl, clearA, rfl, rfl, rfl, rfl⟩

/-! ## The key that is placed (R212) -/

/-- The slot that a rotation leaves holds what was placed in it. -/
theorem keyed_leaves {x old : Slot} {ca cb : SlotCopy} {a b : Masked} {now point : Nat} {blob : Bytes} {retiring : Option Retiring}
    {pending : Option Nat}
    (h : x = { keyed old ({ ca with key := a }, { cb with key := b }) now point blob with pendingP := pending, retiring := retiring }) :
    x.st = .loaded ∧ x.a.key.clear = a.clear ∧ x.b.key.clear = b.clear ∧ x.lastGen = nextGen old.lastGen ∧
      x.a.attr = attrWithGen ca.attr (nextGen old.lastGen) ∧ x.a.count = ca.count ∧ x.a.limit = ca.limit ∧ x.a.nb = ca.nb ∧
      x.a.na = ca.na ∧ x.point = point := by
  subst h
  exact ⟨rfl, rfl, rfl, rfl, rfl, rfl, rfl, rfl, rfl, rfl⟩

/-! ## REKEY (R212) -/

theorem attrTenant_lt (a : Nat) : attrTenant a < 65536 := Nat.mod_lt _ (by decide)

/-- A copy with other attributes, its counter 0. -/
def restarted (attr : Nat) (c : SlotCopy) : SlotCopy := { c with attr := attr, count := 0 }

theorem restarted_leaves (attr : Nat) (c : SlotCopy) : (restarted attr c).attr = attr ∧ (restarted attr c).count = 0 ∧
    (restarted attr c).limit = c.limit ∧ (restarted attr c).nb = c.nb ∧ (restarted attr c).na = c.na := ⟨rfl, rfl, rfl, rfl, rfl⟩

/-- The attributes of a REKEY's key, but for its generation. -/
def rekeyedAttr (a : Nat) : Nat := mkAttr (attrTenant a) 0 (attrEpoch a + 1) (attrUses a) (attrAlg a) (attrExport a)

/-- The copies of a REKEY's key. -/
def rekeyedCopy (old : Slot) : SlotCopy := restarted (rekeyedAttr old.a.attr) old.a

theorem rekeyedCopy_leaves (old : Slot) : (rekeyedCopy old).attr = rekeyedAttr old.a.attr ∧ (rekeyedCopy old).count = 0 ∧
    (rekeyedCopy old).limit = old.a.limit ∧ (rekeyedCopy old).nb = old.a.nb ∧ (rekeyedCopy old).na = old.a.na := restarted_leaves _ _

theorem rekeySlot_eq {s s1 t : State} {f : Nat} {e key : Bytes}
    (archived : archive (e.leAt 0x16 2) (s.slot (hSlot (e.leAt 0x10 4))) s = some s1)
    (placedIs : placeKey (hSlot (e.leAt 0x10 4)) (freshCopies (rekeyedCopy (s.slot (hSlot (e.leAt 0x10 4)))) key key s1).1
      (pointFrom s.lease 0 (s.slot (hSlot (e.leAt 0x10 4))).a.limit)
      (freshCopies (rekeyedCopy (s.slot (hSlot (e.leAt 0x10 4)))) key key s1).2 = some t) :
    rekeySlot f e key s = placed f (e.leAt 0x30 8) (hSlot (e.leAt 0x10 4)) Op.keyRotate [0, hSlot (e.leAt 0x10 4)] s
      (some (retire (hSlot (e.leAt 0x10 4)) (s.slot (hSlot (e.leAt 0x10 4))) t)) := by
  unfold rekeySlot
  dsimp only
  rw [archived, Option.bind_some]
  exact congrArg (fun o : Option State => placed f (e.leAt 0x30 8) (hSlot (e.leAt 0x10 4)) Op.keyRotate [0, hSlot (e.leAt 0x10 4)] s
    (o.map (retire (hSlot (e.leAt 0x10 4)) (s.slot (hSlot (e.leAt 0x10 4)))))) placedIs

/-- The slot that is rotated holds a key, and the archive slot none. -/
theorem archive_ne_of_rekeyRows {s : State} {f : Nat} {e : Bytes} (rows : firstFail (rekeyRows s f e) = none) (some_ : e.leAt 0x16 2 ≠ 0) :
    e.leAt 0x16 2 ≠ hSlot (e.leAt 0x10 4) := by
  have empty := row_of_firstFail (b := decide (e.leAt 0x16 2 ≠ 0) && decide ((s.slot (e.leAt 0x16 2)).st ≠ .empty)) (d := bad 0x20) rows
    (by simp [rekeyRows])
  have present := row_of_firstFail (b := decide ((s.slot (hSlot (e.leAt 0x10 4))).st = .empty) ||
    decide ((s.slot (hSlot (e.leAt 0x10 4))).st = .erasing) || decide ((s.slot (hSlot (e.leAt 0x10 4))).st = .loading))
    (d := { status := Status.keyAbsent }) rows (by simp [rekeyRows, presentRows])
  intro same
  rw [same] at empty some_
  simp_all

theorem rekey_places {s u : State} {f : Nat} {j : Job} {key : Bytes} (hj : s.admin? f Op.keyRotate = some j)
    (mode : (j.entry.at_ 0x14).toNat % 2 = 0) (free : SlotsFree s j) (rows : firstFail (rekeyRows s f j.entry) = none)
    (keys : s.domainKeys.1 = s.domainKeys.2) (agree : copiesAgree (s.slot (hSlot (j.entry.leAt 0x10 4))) = true)
    (drawn : fwKey (attrAlg (s.slot (hSlot (j.entry.leAt 0x10 4))).a.attr) s = .ok (key, u)) :
    Answers (.rekey f) s fun v =>
      let n := hSlot (j.entry.leAt 0x10 4)
      let arc := j.entry.leAt 0x16 2
      let old := s.slot n
      let x := v.slot n
      x.st = .loaded ∧ x.a.key.clear = key ∧ x.b.key.clear = key ∧ x.lastGen = nextGen old.lastGen ∧ x.a.count = 0 ∧
      x.a.limit = old.a.limit ∧ x.a.nb = old.a.nb ∧ x.a.na = old.a.na ∧ attrTenant x.a.attr = attrTenant old.a.attr ∧
      attrUses x.a.attr = attrUses old.a.attr ∧ attrAlg x.a.attr = attrAlg old.a.attr ∧
      (∀ m, m ≠ n → (m ≠ arc ∨ arc = 0) → v.slot m = s.slot m) ∧
      (arc ≠ 0 → (v.slot arc).st = .loaded ∧ (v.slot arc).a.key.clear = old.a.key.clear ∧
        (v.slot arc).a.count = old.a.count ∧ (v.slot arc).a.limit = old.a.limit ∧ (v.slot arc).point = old.point ∧
        (v.slot arc).a.na = archiveEnd old.a.na s.now) ∧ v.life = s.life ∧
      ∃ d, (v.job? j.ref).map (·.outcome) = some (some d) ∧ d.status = 0x00 ∧ d.r0 = n + 65536 * attrGen x.a.attr := by
  have apart := archive_ne_of_rekeyRows rows
  obtain ⟨taken, waiting⟩ := free
  have draws : Draws s u := by
    have all := drawn_fwKey (attrAlg (s.slot (hSlot (j.entry.leAt 0x10 4))).a.attr) s
    rw [drawn] at all
    exact all.2
  obtain ⟨k, listed, ref⟩ := listed_of_draws draws (mem_of_admin hj)
  have step : exec (.rekey f) s = settled s (decideJob j.ref (rekeySlot f j.entry key u).1 (rekeySlot f j.entry key u).2) := by
    show execRekey f s = _
    unfold execRekey
    refine runSlotCmd_of_done hj taken waiting ?_
    dsimp only
    rw [if_neg (not_not.mpr mode), rows]
    dsimp only
    unfold withDrawn
    rw [drawn]
  have keysU : u.domainKeys.1 = u.domainKeys.2 := by rw [domainKeys_of_store draws.store]; exact keys
  have made (s1 t : State) := rekeySlot_eq (s := u) (s1 := s1) (t := t) (f := f) (e := j.entry) (key := key)
  rw [slot_of_store draws.store] at made
  dsimp only
  generalize hn : hSlot (j.entry.leAt 0x10 4) = n at *
  generalize j.entry.leAt 0x16 2 = arc at *
  obtain ⟨s1, archiveIs, archived⟩ := archive_places (s := u) (arc := arc) keysU agree
  have kept (m : Nat) (h : m ≠ arc ∨ arc = 0) : s1.slot m = s.slot m := (archived.others m h).trans (slot_of_store draws.store m)
  have slotN : s1.slot n = s.slot n := kept n (by by_cases none : arc = 0; exacts [.inr none, .inl (apart none).symm])
  have made := made s1
  have masks := masks_freshCopies (rekeyedCopy (s.slot n)) key key s1
  obtain ⟨a, b, copies, clearA, clearB⟩ := freshCopies_are (rekeyedCopy (s.slot n)) key key s1
  rw [copies] at made
  generalize (freshCopies (rekeyedCopy (s.slot n)) key key s1).2 = w at masks made
  have keysW : w.domainKeys.1 = w.domainKeys.2 := by
    unfold State.domainKeys at keys ⊢
    rw [slot_of_masks masks, kept 0 (by omega)]
    exact keys
  obtain ⟨t, placedIs⟩ := placeKey_of_alike n (pointFrom u.lease 0 (s.slot n).a.limit) (s := w)
    (c := ({ rekeyedCopy (s.slot n) with key := a }, { rekeyedCopy (s.slot n) with key := b })) keysW
    ⟨clearA.trans clearB.symm, rfl, rfl, rfl, rfl, rfl⟩
  rw [made t archiveIs placedIs] at step
  obtain ⟨⟨blob, here⟩, others, rest⟩ := slot_of_placeKey placedIs
  rw [slot_of_masks masks, slotN] at here
  obtain ⟨inSlots, alone, retiring, retired⟩ := retire_leaves n (s.slot n) t
  generalize retire n (s.slot n) t = z at *
  have all : InSlots u z := archived.rest.trans ((inSlots_of_masks masks).trans (.trans (by rw [rest]; rfl) inSlots))
  obtain ⟨v, ran, done⟩ := placed_leaves (k := k) u (by rw [all.jobs]; exact listed) ref step
  obtain ⟨attr, count, limit, nb, na⟩ := rekeyedCopy_leaves (s.slot n)
  obtain ⟨st, keyA, keyB, lastGen, attrIs, countIs, limitIs, nbIs, naIs, -⟩ := keyed_leaves (pending := none)
    ((done.slots n).trans (retired.trans (by rw [here]; rfl)))
  have others' (m : Nat) (ne : m ≠ n) : v.slot m = s1.slot m := by
    rw [done.slots, alone m ne, others m ne, slot_of_masks masks]
  refine ⟨v, ran, st, keyA.trans clearA, keyB.trans clearB, lastGen, countIs.trans count, limitIs.trans limit, nbIs.trans nb, naIs.trans na,
    ?_, ?_, ?_, fun m ne h => (others' m ne).trans (kept m h), fun some_ => ?_, done.life.trans (all.life.trans draws.life), _, done.outcome,
    rfl, rfl⟩
  · rw [attrIs, withGen_tenant, attr, rekeyedAttr, mkAttr_tenant, Nat.mod_eq_of_lt (attrTenant_lt _)]
  · rw [attrIs, withGen_uses, attr, rekeyedAttr, mkAttr_uses, Nat.mod_eq_of_lt (attrUses_lt _)]
  · rw [attrIs, withGen_alg, attr, rekeyedAttr, mkAttr_alg, Nat.mod_eq_of_lt (attrAlg_lt _)]
  · rw [others' arc (apart some_), ← draws.now]
    exact archived.here some_

/-! ## REATTR (R212) -/

/-- A copy with other attributes, limit and times. -/
def reattributed (attr limit nb na : Nat) (c : SlotCopy) : SlotCopy := { c with attr := attr, limit := limit, nb := nb, na := na }

theorem reattributed_leaves (attr limit nb na : Nat) (c : SlotCopy) :
    (reattributed attr limit nb na c).attr = attr ∧ (reattributed attr limit nb na c).count = c.count ∧
      (reattributed attr limit nb na c).limit = limit ∧ (reattributed attr limit nb na c).nb = nb ∧
      (reattributed attr limit nb na c).na = na := ⟨rfl, rfl, rfl, rfl, rfl⟩

/-- The attributes of a REATTR's key, but for its generation. -/
def reattrAttr (e : Bytes) (a : Nat) : Nat :=
  mkAttr (attrTenant a) 0 (attrEpoch a) ((e.at_ 0x15).toNat % 64) (attrAlg a) ((e.at_ 0x3C).toNat % 4)

/-- The copies of a REATTR's key. -/
def reattrCopy (e : Bytes) (c : SlotCopy) : SlotCopy :=
  reattributed (reattrAttr e c.attr) (e.leAt 0x18 6) (e.leAt 0x20 8) (e.leAt 0x28 8) c

theorem reattrCopy_leaves (e : Bytes) (c : SlotCopy) :
    (reattrCopy e c).attr = reattrAttr e c.attr ∧ (reattrCopy e c).count = c.count ∧ (reattrCopy e c).limit = e.leAt 0x18 6 ∧
      (reattrCopy e c).nb = e.leAt 0x20 8 ∧ (reattrCopy e c).na = e.leAt 0x28 8 := reattributed_leaves _ _ _ _ _

theorem sameFields_withKey {c d : SlotCopy} (h : SameFields c d) (a b : Masked) : SameFields { c with key := a } { d with key := b } := h

theorem sameFields_reattrCopy (e : Bytes) {a b : SlotCopy} (attr : a.attr = b.attr) (count : a.count = b.count) :
    SameFields (reattrCopy e a) (reattrCopy e b) := by
  obtain ⟨attrA, countA, limitA, nbA, naA⟩ := reattrCopy_leaves e a
  obtain ⟨attrB, countB, limitB, nbB, naB⟩ := reattrCopy_leaves e b
  exact ⟨attrA.trans ((congrArg (reattrAttr e) attr).trans attrB.symm), countA.trans (count.trans countB.symm), limitA.trans limitB.symm,
    nbA.trans nbB.symm, naA.trans naB.symm⟩

/-- The rotation point of a REATTR, from the state `t` with the key placed. -/
def reattrDone (n : Nat) (old : Slot) (t : State) : State := retire n old (modSlot n (fun x => { x with pendingP := old.pendingP }) t)

theorem inSlots_pended (n : Nat) (p : Option Nat) (t : State) : InSlots t (modSlot n (fun x => { x with pendingP := p }) t) := rfl

theorem reattrSlot_eq {s t : State} {f n : Nat} {e : Bytes} (named : hSlot (e.leAt 0x10 4) = n)
    (placedIs : placeKey n (movedCopies (reattrCopy e) (s.slot n) s).1 (s.slot n).point (movedCopies (reattrCopy e) (s.slot n) s).2 = some t) :
    reattrSlot f e s = ({ status := Status.ok, r0 := handleNow (reattrDone n (s.slot n) t) n },
      keyCmd n f Op.keyRotate (reattrDone n (s.slot n) t)) := by
  subst named
  unfold reattrSlot
  dsimp only
  change (match placeKey _ (movedCopies (reattrCopy e) _ s).1 _ (movedCopies (reattrCopy e) _ s).2 with
    | none => _
    | some t => _) = _
  rw [placedIs] <;> rfl

theorem reattr_places {s : State} {f : Nat} {j : Job} (hj : s.admin? f Op.keyRotate = some j) (mode : (j.entry.at_ 0x14).toNat % 2 = 1)
    (free : SlotsFree s j) (rows : firstFail (reattrRows s f j.entry) = none) (keys : s.domainKeys.1 = s.domainKeys.2)
    (agree : copiesAgree (s.slot (hSlot (j.entry.leAt 0x10 4))) = true) :
    Answers (.reattr f) s fun v =>
      let n := hSlot (j.entry.leAt 0x10 4)
      let x := v.slot n
      x.st = .loaded ∧ x.a.key.clear = (s.slot n).a.key.clear ∧ x.b.key.clear = (s.slot n).b.key.clear ∧
      x.lastGen = nextGen (s.slot n).lastGen ∧ x.a.count = (s.slot n).a.count ∧
      x.a.limit = j.entry.leAt 0x18 6 ∧ x.a.nb = j.entry.leAt 0x20 8 ∧ x.a.na = j.entry.leAt 0x28 8 ∧
      attrUses x.a.attr = (j.entry.at_ 0x15).toNat % 64 ∧ x.point = (s.slot n).point ∧
      (∀ m, m ≠ n → v.slot m = s.slot m) ∧ v.mem = s.mem ∧ v.life = s.life ∧
      (v.job? j.ref).map (·.outcome) = some (some { status := 0x00, r0 := n + 65536 * attrGen x.a.attr }) := by
  obtain ⟨taken, waiting⟩ := free
  have step : exec (.reattr f) s = settled s (decideJob j.ref (reattrSlot f j.entry s).1 (reattrSlot f j.entry s).2) := by
    show execReattr f s = _
    unfold execReattr
    refine runSlotCmd_of_done hj taken waiting ?_
    dsimp only
    rw [if_neg (not_not.mpr mode), rows]
  have made (n : Nat) (t : State) := reattrSlot_eq (s := s) (t := t) (f := f) (n := n) (e := j.entry)
  dsimp only
  generalize hSlot (j.entry.leAt 0x10 4) = n at *
  have made := made n
  have masks := masks_movedCopies (reattrCopy j.entry) (s.slot n) s
  obtain ⟨a, b, copies, clearA, clearB⟩ := movedCopies_are (reattrCopy j.entry) (s.slot n) s
  rw [copies] at made
  generalize (movedCopies (reattrCopy j.entry) (s.slot n) s).2 = w at masks made
  obtain ⟨key, attr, count, -⟩ := (copiesAgree_iff _).mp agree
  obtain ⟨t, placedIs⟩ := placeKey_of_alike n (s.slot n).point (s := w)
    (c := ({ reattrCopy j.entry (s.slot n).a with key := a }, { reattrCopy j.entry (s.slot n).b with key := b }))
    (by rw [domainKeys_of_store (congrArg State.store masks :)]; exact keys)
    ⟨clearA.trans (key.trans clearB.symm), sameFields_withKey (sameFields_reattrCopy j.entry attr count) a b⟩
  rw [made t rfl placedIs] at step
  obtain ⟨⟨blob, here⟩, others, rest⟩ := slot_of_placeKey placedIs
  rw [slot_of_masks masks] at here
  obtain ⟨inSlots, alone, retiring, retired⟩ := retire_leaves n (s.slot n) (modSlot n (fun x => { x with pendingP := (s.slot n).pendingP }) t)
  rw [slot_modSlot_self, here] at retired
  change InSlots _ (reattrDone n (s.slot n) t) at inSlots
  change ∀ m, m ≠ n → (reattrDone n (s.slot n) t).slot m = _ at alone
  change (reattrDone n (s.slot n) t).slot n = _ at retired
  generalize reattrDone n (s.slot n) t = z at *
  have all : InSlots s z := (inSlots_of_masks masks).trans (.trans (t := t) (by rw [rest]; rfl) (.trans (inSlots_pended ..) inSlots))
  have noted : Quiet z (keyCmd n f Op.keyRotate z) := quiet_record ..
  have calm := quiet_settle s (decideJob j.ref { status := Status.ok, r0 := handleNow z n } (keyCmd n f Op.keyRotate z))
  have slots (m : Nat) : (settle s (decideJob j.ref { status := Status.ok, r0 := handleNow z n } (keyCmd n f Op.keyRotate z))).slot m = z.slot m :=
    (slot_of_quiet calm m).trans (slot_of_quiet noted m)
  obtain ⟨st, keyA, keyB, lastGen, attrIs, countIs, limitIs, nbIs, naIs, pointIs⟩ := keyed_leaves ((slots n).trans retired)
  obtain ⟨attrA, countA, limitA, nbA, naA⟩ := reattrCopy_leaves j.entry (s.slot n).a
  refine ⟨_, step, st, keyA.trans clearA, keyB.trans clearB, lastGen, countIs.trans countA, limitIs.trans limitA, nbIs.trans nbA,
    naIs.trans naA, ?_, pointIs, fun m ne => ?_, calm.mem.trans (noted.mem.trans all.mem), calm.life.trans (noted.life.trans all.life), ?_⟩
  · rw [attrIs, withGen_uses, attrA, reattrAttr, mkAttr_uses, Nat.mod_mod]
  · rw [slots, alone m ne, slot_modSlot_ne _ _ ne, others m ne, slot_of_masks masks]
  · rw [slots, job_congr calm.jobs]
    exact outcome_decideJob _ (by rw [noted.jobs, all.jobs]; exact mem_of_admin hj)

/-- Settles O30: the sides' blobs agree where their copies do, so the key is placed; a rotation first archives the old one. -/
theorem keysAreCreatedAndRotated : Obligations.KeysAreCreatedAndRotated := by
  unfold Obligations.KeysAreCreatedAndRotated
  exact ⟨fun s u f j n key hj free rows drawn target keys => keyCreate_places hj free rows drawn target keys,
    fun s u f j hj free rows drawn => keyCreate_waits hj free rows drawn,
    fun s u f j key hj mode free rows keys agree drawn => rekey_places hj mode free rows keys agree drawn,
    fun s f j hj mode free rows keys agree => reattr_places hj mode free rows keys agree,
    fun s t n c point placedIs => slot_of_placeKey placedIs⟩

end Sys2Proof.Safety
end

section
/-!
PROOFS. Keys are exported, queried, imported and erased (R208 to R211, R215).
-/

-- In turn: a proof that waits for others beside it takes a thread and its stack from the memory that the check allows.
set_option Elab.async false

namespace Sys2Proof.Safety

open Sys2Proof.Machine

/-! ## KEY_EXPORT and KEY_QUERY (R210, R215) -/

theorem keyExport_writes {s : State} {f : Nat} {j : Job} {b : Bytes} (hj : s.admin? f Op.keyExport = some j) (free : SlotsFree s j)
    (rows : firstFail (exportRows s f j.entry) = none)
    (made : exportBlob s (hSlot (j.entry.leAt 0x10 4)) ((j.entry.at_ 0x14).toNat % 2) (j.entry.leAt 0x16 2) = some b) :
    Completes (.keyExport f) s j { status := 0x00, r0 := b.length } (hostWrite f (j.entry.leAt 0x18 8) b s) := by
  obtain ⟨taken, waiting⟩ := free
  have is : exec (.keyExport f) s = settled s (decideJob j.ref { status := 0x00, r0 := b.length }
      (keyCmd (hSlot (j.entry.leAt 0x10 4)) f Op.keyExport (hostWrite f (j.entry.leAt 0x18 8) b s))) := by
    show execKeyExport f s = _
    unfold execKeyExport
    refine runSlotCmd_of_done hj taken waiting ?_
    dsimp only
    rw [rows]
    dsimp only
    rw [made]
  exact completes_of_quiet is (quiet_record ..)

theorem keyQuery_writes {s : State} {f : Nat} {j : Job} (hj : s.admin? f Op.keyQuery = some j) (taken : slotTaken s j = false)
    (rows : firstFail (queryRows s f j.entry) = none) :
    let b := slotRecord s (j.entry.leAt 0x10 2) ++ queryPub s (j.entry.leAt 0x10 2)
    Completes (.keyQuery f) s j { status := 0x00, r0 := b.length } (hostWrite f (j.entry.leAt 0x18 8) b s) := by
  intro b
  refine completes_of_exec ?_
  show execKeyQuery f s = _
  unfold execKeyQuery
  refine runSlotCmd_of_done hj taken rfl ?_
  dsimp only
  rw [checked_of_none _ _ _ rows]

/-! ## KEY_IMPORT (R208, R209) -/

/-- The copies of an import's key. -/
def importedCopy (b : Bytes) : SlotCopy :=
  { attr := b.leAt 0x10 8, limit := b.leAt 0x18 6, count := b.leAt 0x20 6, nb := b.leAt 0x28 8, na := b.leAt 0x30 8 }

theorem importKey_eq {s t : State} {f n : Nat} {e b key : Bytes}
    (keyA : blobKey (unwrapKeys s ((b.at_ 6).toNat % 2) (e.leAt 0x12 2)).1 b = some key)
    (keyB : blobKey (unwrapKeys s ((b.at_ 6).toNat % 2) (e.leAt 0x12 2)).2.1 b = some key)
    (placedIs : placeKey n (freshCopies (importedCopy b) key key s).1 (pointFrom s.lease (b.leAt 0x20 6) (b.leAt 0x18 6))
      (freshCopies (importedCopy b) key key s).2 = some t) :
    importKey f e b n s = placed f (e.leAt 0x20 8) n Op.keyImport [0, e.leAt 0x12 2] s (some t) := by
  unfold importKey
  dsimp only
  rw [keyA, keyB]
  exact congrArg (placed f (e.leAt 0x20 8) n Op.keyImport [0, e.leAt 0x12 2] s) placedIs

/-- An import goes on from `u`, where the slot it goes to holds nothing but its last generation. -/
structure Importing (n : Nat) (j : Job) (b key : Bytes) (s u : State) : Prop where
  listed : ∃ k ∈ u.jobs, k.ref = j.ref
  life : u.life = s.life
  others (m : Nat) : m ≠ n → u.slot m = s.slot m
  lastGen : (u.slot n).lastGen = (s.slot n).lastGen
  domain : u.domainKeys.1 = u.domainKeys.2
  keyA : blobKey (unwrapKeys u ((b.at_ 6).toNat % 2) (j.entry.leAt 0x12 2)).1 b = some key
  keyB : blobKey (unwrapKeys u ((b.at_ 6).toNat % 2) (j.entry.leAt 0x12 2)).2.1 b = some key

theorem import_places {s u : State} {i : Instr} {f n : Nat} {j : Job} {b key : Bytes} (h : Importing n j b key s u)
    (is : exec i s = settled s (decideJob j.ref (importKey f j.entry b n u).1 (importKey f j.entry b n u).2)) :
    Answers i s fun v =>
      let x := v.slot n
      x.st = .loaded ∧ x.a.key.clear = key ∧ x.b.key.clear = key ∧ copiesAgree x = true ∧
      x.a.count = b.leAt 0x20 6 ∧ x.a.limit = b.leAt 0x18 6 ∧ x.a.nb = b.leAt 0x28 8 ∧ x.a.na = b.leAt 0x30 8 ∧
      x.lastGen = nextGen (s.slot n).lastGen ∧ (∀ m, m ≠ n → v.slot m = s.slot m) ∧ v.life = s.life ∧
      ∃ d, (v.job? j.ref).map (·.outcome) = some (some d) ∧ d.status = 0x00 ∧ d.r0 = n + 65536 * attrGen x.a.attr := by
  obtain ⟨⟨k, listed, ref⟩, life, others, lastGen, domain, keyA, keyB⟩ := h
  have made (t : State) := importKey_eq (f := f) (n := n) (t := t) keyA keyB
  have masks := masks_freshCopies (importedCopy b) key key u
  obtain ⟨a, c, copies, clearA, clearB⟩ := freshCopies_are (importedCopy b) key key u
  rw [copies] at made
  generalize (freshCopies (importedCopy b) key key u).2 = w at masks made
  obtain ⟨t, placedIs⟩ := placeKey_of_alike n (pointFrom u.lease (b.leAt 0x20 6) (b.leAt 0x18 6)) (s := w)
    (c := ({ importedCopy b with key := a }, { importedCopy b with key := c }))
    (by rw [domainKeys_of_store (congrArg State.store masks :)]; exact domain) ⟨clearA.trans clearB.symm, rfl, rfl, rfl, rfl, rfl⟩
  rw [made t placedIs] at is
  obtain ⟨⟨blob, here⟩, alone, rest⟩ := slot_of_placeKey placedIs
  rw [slot_of_masks masks] at here
  have all : InSlots u t := (inSlots_of_masks masks).trans (by rw [rest]; rfl)
  obtain ⟨v, ran, done⟩ := placed_leaves (k := k) u (by rw [all.jobs]; exact listed) ref is
  have slot : v.slot n = keyed (u.slot n) ({ importedCopy b with key := a }, { importedCopy b with key := c }) w.now
      (pointFrom u.lease (b.leAt 0x20 6) (b.leAt 0x18 6)) blob := (done.slots n).trans here
  refine ⟨v, ran, by rw [slot]; rfl, by rw [slot]; exact clearA, by rw [slot]; exact clearB, ?_, by rw [slot]; rfl, by rw [slot]; rfl,
    by rw [slot]; rfl, by rw [slot]; rfl, by rw [slot, ← lastGen]; rfl, fun m ne => ?_, done.life.trans (all.life.trans life), _,
    done.outcome, rfl, rfl⟩
  · rw [slot, copiesAgree_iff]
    exact ⟨clearA.trans clearB.symm, rfl, rfl, rfl, rfl, rfl⟩
  · rw [done.slots, alone m ne, slot_of_masks masks, others m ne]

/-! ### Where an import goes -/

theorem endJobs_none {p : Job → Bool} {s : State} (none : s.jobs.any p = false) (d : Job → Done) (atOnce : Bool) : endJobs p d atOnce s = s := by
  have empty : s.jobs.filter p = [] := List.filter_eq_nil_iff.mpr fun j h => by simpa using List.any_eq_false.mp none j h
  unfold endJobs
  rw [empty, List.foldl_nil]

theorem revokeJobs_none {n : Nat} {s : State} (none : s.jobs.any (holdsSlot n) = false) (again : Bool) : revokeJobs n again s = s :=
  endJobs_none (List.any_eq_false.mpr fun j h => by simp [List.any_eq_false.mp none j h]) _ _

/-- An accepted command holds no slot that it did not hold before. -/
theorem holders_acceptCmd {n : Nat} {j : Job} {s : State} (none : s.jobs.any (holdsSlot n) = false) :
    (acceptCmd j s).jobs.any (holdsSlot n) = false := by
  refine List.any_eq_false.mpr fun k h => ?_
  obtain ⟨x, hx, rfl⟩ := List.mem_map.mp h
  have kept := List.any_eq_false.mp none x hx
  split
  · exact kept
  · exact kept

theorem listed_acceptCmd {j : Job} {s : State} (h : j ∈ s.jobs) : ∃ k ∈ (acceptCmd j s).jobs, k.ref = j.ref :=
  ⟨_, List.mem_map_of_mem h, by split <;> rfl⟩

theorem exec_keyImport {s u : State} {f : Nat} {j : Job} {d : Done} (hj : s.admin? f Op.keyImport = some j) (free : SlotsFree s j)
    (rows : firstFail (importRows s f j.entry) = none) (read : j.reads = .arrived)
    (good : firstFail (blobRows s f j.entry (j.input 0 s)) = none)
    (goes : importInto f j (j.input 0 s) (acceptCmd j s) = (some d, u)) : exec (.keyImport f) s = settled s (decideJob j.ref d u) := by
  obtain ⟨taken, waiting⟩ := free
  show execKeyImport f s = _
  unfold execKeyImport
  refine runSlotCmd_of_done hj taken waiting ?_
  rw [rows]
  dsimp only
  unfold afterReads
  rw [if_pos read]
  dsimp only
  have input : j.input 0 (acceptCmd j s) = j.input 0 s := by
    unfold Job.input
    rw [if_pos read, if_pos read]
  have checks : firstFail (blobRows (acceptCmd j s) f j.entry (j.input 0 s)) = none := good
  rw [input, checks]
  exact goes

/-- The keys that unwrap a blob come from other slots than the one it goes to. -/
theorem unwrapKeys_of_others {s u : State} {n kind w : Nat} (others : ∀ m, m ≠ n → u.slot m = s.slot m)
    (ne : (if kind = 0 then 0 else w) ≠ n) :
    (unwrapKeys u kind w).1 = (unwrapKeys s kind w).1 ∧ (unwrapKeys u kind w).2.1 = (unwrapKeys s kind w).2.1 := by
  unfold unwrapKeys
  dsimp only
  rw [others _ ne]
  exact ⟨rfl, rfl⟩

/-- A blob wrapped for a slot names one that holds a key. -/
theorem wrap_of_blobRows {s : State} {f : Nat} {e b : Bytes} (rows : firstFail (blobRows s f e b) = none)
    (kind : (b.at_ 6).toNat % 2 = 1) : (s.slot (e.leAt 0x12 2)).st = .loaded := by
  have usable := row_of_firstFail (b := decide ((b.at_ 6).toNat % 2 = 1) &&
    !(decide (e.leAt 0x12 2 ≠ 0) && wrapUsable s (s.fn f).tenant (e.leAt 0x12 2))) (d := bad 0x28) rows (by simp [blobRows])
  rw [kind] at usable
  simp only [wrapUsable] at usable
  simp_all

theorem keyImport_places {s : State} {f n : Nat} {j : Job} {key : Bytes} (hj : s.admin? f Op.keyImport = some j) (free : SlotsFree s j)
    (rows : firstFail (importRows s f j.entry) = none) (read : j.reads = .arrived)
    (good : firstFail (blobRows s f j.entry (j.input 0 s)) = none)
    (keyA : blobKey (unwrapKeys s (((j.input 0 s).at_ 6).toNat % 2) (j.entry.leAt 0x12 2)).1 (j.input 0 s) = some key)
    (keyB : blobKey (unwrapKeys s (((j.input 0 s).at_ 6).toNat % 2) (j.entry.leAt 0x12 2)).2.1 (j.input 0 s) = some key)
    (domain : s.domainKeys.1 = s.domainKeys.2)
    (target : if replacesBad s f (j.entry.leAt 0x10 2) then n = j.entry.leAt 0x10 2 else s.targetSlot (j.entry.leAt 0x10 2) = some n)
    (unheld : s.jobs.any (holdsSlot n) = false) :
    Answers (.keyImport f) s fun v =>
      let x := v.slot n
      x.st = .loaded ∧ x.a.key.clear = key ∧ x.b.key.clear = key ∧ copiesAgree x = true ∧
      x.a.count = (j.input 0 s).leAt 0x20 6 ∧ x.a.limit = (j.input 0 s).leAt 0x18 6 ∧ x.a.nb = (j.input 0 s).leAt 0x28 8 ∧
      x.a.na = (j.input 0 s).leAt 0x30 8 ∧ x.lastGen = nextGen (s.slot n).lastGen ∧ (∀ m, m ≠ n → v.slot m = s.slot m) ∧
      v.life = s.life ∧ ∃ d, (v.job? j.ref).map (·.outcome) = some (some d) ∧ d.status = 0x00 ∧ d.r0 = n + 65536 * attrGen x.a.attr := by
  have run {u : State} {d : Done} := exec_keyImport (u := u) (d := d) hj free rows read good
  have wrap := wrap_of_blobRows good
  have listed := listed_acceptCmd (mem_of_admin hj)
  generalize j.input 0 s = b at *
  by_cases replaces : replacesBad s f (j.entry.leAt 0x10 2) = true
  · rw [if_pos replaces] at target
    subst target
    have bad : j.entry.leAt 0x10 2 ≠ 0 ∧ (s.slot (j.entry.leAt 0x10 2)).st = .bad := by
      unfold replacesBad at replaces
      simp only [Bool.and_eq_true, decide_eq_true_eq] at replaces
      exact replaces.1
    generalize hn : j.entry.leAt 0x10 2 = n at *
    obtain ⟨some_, st⟩ := bad
    obtain ⟨u, hu⟩ : ∃ u, u = modSlot n emptySlot (modSlot n (fun x => { x with reloadDue := false }) (acceptCmd j s)) := ⟨_, rfl⟩
    have goes : importInto f j b (acceptCmd j s) = (some (importKey f j.entry b n u).1, (importKey f j.entry b n u).2) := by
      have none : (modSlot n (fun x => { x with reloadDue := false }) (acceptCmd j s)).jobs.any (holdsSlot n) = false :=
        holders_acceptCmd unheld
      unfold importInto
      dsimp only
      rw [hn, if_pos (show replacesBad (acceptCmd j s) f n = true from replaces), revokeJobs_none none, if_neg (by rw [none]; decide), hu]
    have others (m : Nat) (ne : m ≠ n) : u.slot m = s.slot m := by
      rw [hu, slot_modSlot_ne _ _ ne, slot_modSlot_ne _ _ ne]
      rfl
    have apart : (if (b.at_ 6).toNat % 2 = 0 then 0 else j.entry.leAt 0x12 2) ≠ n := by
      split
      · exact some_.symm
      · next kind =>
        intro same
        have loaded := wrap (by omega)
        rw [same, st] at loaded
        cases loaded
    obtain ⟨sameA, sameB⟩ := unwrapKeys_of_others others apart
    refine import_places ⟨by rw [hu]; exact listed, by rw [hu]; rfl, others, ?_, ?_, by rw [sameA]; exact keyA, by rw [sameB]; exact keyB⟩ (run goes)
    · rw [hu, slot_modSlot_self, slot_modSlot_self]
      rfl
    · unfold State.domainKeys at domain ⊢
      rw [others 0 some_.symm]
      exact domain
  · rw [if_neg replaces] at target
    have goes : importInto f j b (acceptCmd j s) =
        (some (importKey f j.entry b n (acceptCmd j s)).1, (importKey f j.entry b n (acceptCmd j s)).2) := by
      unfold importInto
      dsimp only
      rw [if_neg (show ¬ replacesBad (acceptCmd j s) f (j.entry.leAt 0x10 2) = true from replaces),
        targetSlot_of_store (show (acceptCmd j s).store = s.store from rfl), target]
    exact import_places ⟨listed, rfl, fun _ _ => rfl, rfl, domain, keyA, keyB⟩ (run goes)

/-! ## KEY_ERASE (R211) -/

theorem keyErase_empties {s : State} {f : Nat} {j : Job} (hj : s.admin? f Op.keyErase = some j) (start : j.phase = 0)
    (told : j.silent = false) (taken : slotTaken s j = false) (rows : firstFail (eraseRows s f j.entry) = none)
    (unheld : s.jobs.any (holdsSlot (j.entry.leAt 0x10 2)) = false) :
    Answers (.keyErase f) s fun t =>
      t.slot (j.entry.leAt 0x10 2) = { lastGen := (s.slot (j.entry.leAt 0x10 2)).lastGen } ∧
      (∀ m, m ≠ j.entry.leAt 0x10 2 → t.slot m = s.slot m) ∧
      (t.job? j.ref).map (·.outcome) = some (some { status := 0x00 }) ∧ (∀ k, k ≠ j.ref → t.job? k = s.job? k) ∧
      t.mem = s.mem ∧ t.life = s.life := by
  have is : exec (.keyErase f) s = settled s (decideJob j.ref { status := Status.ok } (keyCmd (j.entry.leAt 0x10 2) f Op.keyErase
      (modSlot (j.entry.leAt 0x10 2) emptySlot (modSlot (j.entry.leAt 0x10 2) (fun x => { x with st := .erasing }) (acceptCmd j s))))) := by
    have none : (modSlot (j.entry.leAt 0x10 2) (fun x => { x with st := .erasing }) (acceptCmd j s)).jobs.any
      (holdsSlot (j.entry.leAt 0x10 2)) = false := holders_acceptCmd unheld
    show execKeyErase f s = _
    unfold execKeyErase
    refine runSlotCmd_of_done hj taken rfl ?_
    rw [if_pos start, rows]
    dsimp only
    unfold eraseGoes
    dsimp only
    rw [revokeJobs_none none, if_neg (by rw [none]; decide)]
    exact if_neg (by rw [told]; decide)
  generalize j.entry.leAt 0x10 2 = n at *
  obtain ⟨u, hu⟩ : ∃ u, u = modSlot n emptySlot (modSlot n (fun x => { x with st := .erasing }) (acceptCmd j s)) := ⟨_, rfl⟩
  rw [← hu] at is
  have noted : Quiet u (keyCmd n f Op.keyErase u) := quiet_record ..
  have calm := quiet_settle s (decideJob j.ref { status := Status.ok } (keyCmd n f Op.keyErase u))
  have slots (m : Nat) : (settle s (decideJob j.ref { status := Status.ok } (keyCmd n f Op.keyErase u))).slot m = u.slot m :=
    (slot_of_quiet calm m).trans (slot_of_quiet noted m)
  have jobs : u.jobs = (acceptCmd j s).jobs := by rw [hu]; rfl
  refine ⟨_, is, ?_, fun m ne => ?_, ?_, fun k ne => ?_, calm.mem.trans (noted.mem.trans (by rw [hu]; rfl)),
    calm.life.trans (noted.life.trans (by rw [hu]; rfl))⟩
  · rw [slots, hu, slot_modSlot_self, slot_modSlot_self]
    rfl
  · rw [slots, hu, slot_modSlot_ne _ _ ne, slot_modSlot_ne _ _ ne]
    rfl
  · obtain ⟨x, hx, ref⟩ := listed_acceptCmd (mem_of_admin hj)
    rw [job_congr calm.jobs, ← ref]
    exact outcome_decideJob _ (by rw [noted.jobs, jobs]; exact hx)
  · rw [job_congr calm.jobs, job_decideJob_ne _ _ ne, job_congr (noted.jobs.trans jobs)]
    exact job_modJob_ne ne

/-- Settles O31: a command whose checks pass writes its blob or record, places the key it unwraps, or empties its slot. -/
theorem keysAreExportedImportedAndErased : Obligations.KeysAreExportedImportedAndErased := by
  unfold Obligations.KeysAreExportedImportedAndErased
  exact ⟨fun s f j b hj free rows made => keyExport_writes hj free rows made, fun s f j hj taken rows => keyQuery_writes hj taken rows,
    fun s f j n key hj free rows read good keyA keyB domain target unheld =>
      keyImport_places hj free rows read good keyA keyB domain target unheld,
    fun s f j hj start told taken rows unheld => keyErase_empties hj start told taken rows unheld⟩

end Sys2Proof.Safety
end

section
/-!
PROOFS. Pair faults, retries and the reactions they hold up (R93, R94, R425, R429 to R431).
-/

-- In turn: a proof that waits for others beside it takes a thread and its stack from the memory that the check allows.
set_option Elab.async false

namespace Sys2Proof.Safety

open Sys2Proof.Machine

/-! ## The jobs of a fenced pair (R93) -/

/-- A job as its withdrawal leaves it: off its pair and its data dropped, its claim the retry's. -/
def Withdrawn (e : Bytes) (k : Job) : Prop :=
  k.withdrawn = true ∧ k.claim = true ∧ k.hold = 0 ∧ k.outcome = none ∧ k.inA = [] ∧ k.inB = [] ∧ k.entry = e

/-- A withdrawn job, `n` bytes of its destination written. -/
def withdrawnJob (n : Nat) (k : Job) : Job :=
  { k with
    withdrawn := true, claim := true, engine := .none_, reads := .none_, salt := [], hold := 0, written := n
    inA := [], inB := []
    keyA := if sessionOf k.entry then k.keyA else {}, keyB := if sessionOf k.entry then k.keyB else {} }

theorem withdrawn_job {e : Bytes} {k : Job} (n : Nat) (outcome : k.outcome = none) (entry : k.entry = e) : Withdrawn e (withdrawnJob n k) :=
  ⟨rfl, rfl, rfl, outcome, rfl, rfl, entry⟩

theorem job_withdraw (j : Job) (s : State) :
    ∃ n, ∀ r, (withdraw j s).job? r = (s.job? r).map fun k => if r = j.ref then withdrawnJob n k else k := by
  refine ⟨(leaveTrace j s).1, fun r => ?_⟩
  have jobs : (releaseHold j (leaveTrace j s).2).jobs = s.jobs :=
    (jobs_releaseHold _ _).trans (congrArg State.jobs (traced_leaveTrace j s).rest :)
  exact (job_modJob _ j.ref r (withdrawnJob (leaveTrace j s).1) fun _ => rfl).trans
    (congrArg (Option.map fun k => if r = j.ref then withdrawnJob (leaveTrace j s).1 k else k) (job_congr jobs r))

theorem regs_withdraw (j : Job) (s : State) : (withdraw j s).regs = s.regs := by
  have held : (releaseHold j (leaveTrace j s).2).regs = (leaveTrace j s).2.regs := by
    unfold releaseHold
    split <;> rfl
  exact held.trans (congrArg State.regs (traced_leaveTrace j s).rest :)

theorem regs_withdrawAll : ∀ (l : List Job) (s : State), (l.foldl (fun s j => withdraw j s) s).regs = s.regs
  | [], _ => rfl
  | j :: l, s => (regs_withdrawAll l (withdraw j s)).trans (regs_withdraw j s)

/-- The job of a name satisfies `P`. -/
def JobIs (r : JobRef) (P : Job → Prop) (s : State) : Prop := ∃ k, s.job? r = some k ∧ P k

theorem jobIs_withdraw {r : JobRef} {e : Bytes} {P : Job → Prop} (stays : ∀ n k, P k → P (withdrawnJob n k)) (j : Job) {s : State}
    (h : JobIs r P s) : JobIs r P (withdraw j s) := by
  obtain ⟨k, is, p⟩ := h
  obtain ⟨n, after⟩ := job_withdraw j s
  refine ⟨_, (after r).trans (congrArg _ is), ?_⟩
  split
  · exact stays n k p
  · exact p

/-- A job withdrawn once stays so while others are. -/
theorem withdrawAll_keeps {r : JobRef} {e : Bytes} : ∀ (l : List Job) (s : State), JobIs r (Withdrawn e) s →
    JobIs r (Withdrawn e) (l.foldl (fun s j => withdraw j s) s)
  | [], _, h => h
  | j :: l, s, h => withdrawAll_keeps l _ (jobIs_withdraw (e := e) (fun n k w => withdrawn_job n w.2.2.2.1 w.2.2.2.2.2.2) j h)

theorem withdrawAll_withdraws : ∀ (l : List Job) (s : State), (∀ j ∈ l, JobIs j.ref (fun k => k.outcome = none ∧ k.entry = j.entry) s) →
    ∀ j ∈ l, JobIs j.ref (Withdrawn j.entry) (l.foldl (fun s j => withdraw j s) s)
  | [], _, _ => fun _ h => nomatch h
  | i :: l, s, all => by
    have first : JobIs i.ref (Withdrawn i.entry) (withdraw i s) := by
      obtain ⟨k, is, outcome, entry⟩ := all i (.head _)
      obtain ⟨n, after⟩ := job_withdraw i s
      refine ⟨_, (after i.ref).trans (congrArg _ is), ?_⟩
      dsimp only
      rw [if_pos rfl]
      exact withdrawn_job n outcome entry
    intro j hj
    rcases List.mem_cons.mp hj with rfl | rest
    · exact withdrawAll_keeps l _ first
    · exact withdrawAll_withdraws l _
        (fun j h => jobIs_withdraw (e := j.entry) (fun _ _ p => p) i (all j (List.mem_cons_of_mem _ h))) j rest

theorem withdrawAll_others {r : JobRef} : ∀ (l : List Job) (s : State), (∀ j ∈ l, j.ref ≠ r) →
    (l.foldl (fun s j => withdraw j s) s).job? r = s.job? r
  | [], _, _ => rfl
  | j :: l, s, ne => by
    rw [List.foldl_cons, withdrawAll_others l _ fun k h => ne k (List.mem_cons_of_mem _ h)]
    obtain ⟨n, after⟩ := job_withdraw j s
    rw [after]
    simp only [if_neg (ne j (.head _)).symm, Option.map_id_fun', id]

theorem jobs_of_openJobs {s : State} {p : Nat} {j : Job} (h : j ∈ openJobs s p) : s.job? j.ref = some j ∧ j.outcome = none := by
  obtain ⟨r, -, is⟩ := List.mem_filterMap.mp h
  obtain ⟨k, found, open_⟩ := Option.bind_eq_some_iff.mp is
  split at open_
  · next none_ =>
    obtain rfl := Option.some.inj open_
    rw [ref_of_job found]
    exact ⟨found, Option.isNone_iff_eq_none.mp none_⟩
  · nomatch open_

/-- A fenced pair takes no other pair's place. -/
theorem pair_standIn_fenced {s : State} {p : Nat} (fenced : (s.pair p).st = .fenced) (q : Nat) (role : PairState) :
    (standIn q role s).pair p = s.pair p := by
  unfold standIn
  split
  · next x found =>
    have ne : p ≠ x := fun same => by
      have full := (full_of_replacement found).1
      rw [← same, fenced] at full
      exact absurd full (by decide)
    rw [pair_changeRole_ne _ _ _ ne, pair_modPair_ne _ _ ne]
  · rfl

/-! ## PAIR_FAULT (R93, R425) -/

theorem fence_withdraws {s : State} {p cause : Nat} (inside : p < s.fab.pairs.length) (up : ((s.pair p).st.full || (s.pair p).st.half) = true) :
    Answers (.pairFault p cause) s fun t =>
      (t.pair p).st = .fenced ∧ (t.pair p).role = (s.pair p).st ∧ (t.pair p).nested = 0 ∧
      (t.pair p).spent = decide ((recentFences s.now (s.pair p).fences).length + 1 ≥ s.fenceLimit) ∧
      t.regs.fences = satAdd s.regs.fences 0xFFFFFFFF ∧ t.store = s.store ∧ t.life = s.life ∧
      (∀ j ∈ openJobs s p, j.ref ∉ (t.pair p).jobs ∧ ∃ k, t.job? j.ref = some k ∧ k.withdrawn = true ∧ k.claim = true ∧
        k.hold = 0 ∧ k.outcome = none ∧ k.inA = [] ∧ k.inB = [] ∧ k.entry = j.entry) ∧
      ∀ r, (∀ j ∈ openJobs s p, j.ref ≠ r) → t.job? r = s.job? r := by
  have is : exec (.pairFault p cause) s = settled s (fencePair p cause s) := rfl
  have fenced := fences_fencePair cause inside up
  have listed := fun j => jobs_of_openJobs (s := s) (p := p) (j := j)
  rw [fencePair_eq cause up] at is fenced
  have noted := quiet_fenceNoted p cause s
  generalize openJobs s p = l at *
  generalize fenceNoted p cause s = u at *
  have pairs (q : Nat) : u.pair q = s.pair q := pair_congr (congrArg Fabric.pairs noted.fab) q
  generalize hv : modPair p _ u = v at is fenced
  have own : v.pair p = { s.pair p with
      st := .fenced, role := (s.pair p).st, nested := 0, fences := s.now :: recentFences s.now (s.pair p).fences
      spent := decide ((s.now :: recentFences s.now (s.pair p).fences).length ≥ s.fenceLimit) } := by
    rw [← hv, pair_modPair_self _ (by rw [congrArg (fun x : Fabric => x.pairs.length) noted.fab]; exact inside), pairs]
  have regs : v.regs.fences = satAdd s.regs.fences 0xFFFFFFFF := by
    rw [← hv]
    exact (congrArg (fun x : State => x.regs.fences) noted.1 :)
  have jobs : v.jobs = s.jobs := by
    rw [← hv]
    exact noted.jobs
  have size : v.fab.pairs.length = s.fab.pairs.length := by
    rw [← hv, length_pairs_modPair]
    exact congrArg (fun x : Fabric => x.pairs.length) noted.fab
  clear hv
  have stands := onlyPairs_standIn p (s.pair p).st v
  have kept := pair_standIn_fenced (by rw [own]) p (s.pair p).st
  have lengths := length_standIn p (s.pair p).st v
  obtain ⟨jobs', -⟩ := stands.kept
  have regs' : (standIn p (s.pair p).st v).regs.fences = v.regs.fences := (congrArg (fun x : State => x.regs.fences) stands.1 :)
  generalize standIn p (s.pair p).st v = w at *
  obtain ⟨pairs'', -⟩ := withdrawAll_leaves l w
  have open_ (j : Job) (h : j ∈ l) : JobIs j.ref (fun k => k.outcome = none ∧ k.entry = j.entry) w := by
    obtain ⟨found, outcome⟩ := listed j h
    exact ⟨j, (job_congr (jobs'.trans jobs) _).trans found, outcome, rfl⟩
  have taken := withdrawAll_withdraws l w open_
  have others (r : JobRef) := withdrawAll_others (r := r) l w
  have regs'' := regs_withdrawAll l w
  generalize l.foldl (fun s j => withdraw j s) w = x at *
  have xp : x.pair p = v.pair p := (pair_congr pairs'' p).trans kept
  have insideX : p < x.fab.pairs.length := by rw [pairs'', lengths, size]; exact inside
  generalize hy : modPair p _ x = y at is fenced
  have yp : y.pair p = { x.pair p with jobs := (x.pair p).jobs.filter fun r => !l.any fun j => decide (j.ref = r) } := by
    rw [← hy, pair_modPair_self _ insideX]
  have rest : y.jobs = x.jobs ∧ y.regs = x.regs := by
    rw [← hy]
    exact ⟨rfl, rfl⟩
  clear hy
  have calm := quiet_settle s y
  have after : (settle s y).pair p = y.pair p := pair_congr (congrArg Fabric.pairs calm.fab) p
  have job (r : JobRef) : (settle s y).job? r = x.job? r := job_congr (calm.jobs.trans rest.1) r
  refine ⟨_, is, ?_, ?_, ?_, ?_, ?_, calm.store.trans fenced.store, calm.life.trans fenced.life, fun j h => ⟨fun still => ?_, ?_⟩, fun r ne => ?_⟩
  · rw [after, fenced.own]
  · rw [after, yp, xp, own]
  · rw [after, yp, xp, own]
  · rw [after, yp, xp, own]
    rfl
  · have same : (settle s y).regs.fences = y.regs.fences := (congrArg (fun x : State => x.regs.fences) calm.1 :)
    rw [same, rest.2, regs'', regs', regs]
  · rw [after, yp] at still
    have out := (List.mem_filter.mp still).2
    rw [List.any_eq_true.mpr ⟨j, h, by simp⟩] at out
    exact absurd out (by decide)
  · rw [job]
    exact taken j h
  · rw [job, others r ne]
    exact job_congr (jobs'.trans jobs) r

theorem fault_nests {s : State} {p cause : Nat} (inside : p < s.fab.pairs.length) (fenced : (s.pair p).st = .fenced) :
    Answers (.pairFault p cause) s fun t =>
      t.pair p = { s.pair p with nested := (s.pair p).nested + 1 } ∧ (∀ q, q ≠ p → t.pair q = s.pair q) ∧
      ((s.pair p).nested ≠ 0 → t.boot.escalated.isSome = true) ∧ t.jobs = s.jobs ∧ t.mem = s.mem ∧ t.store = s.store := by
  have is : exec (.pairFault p cause) s = settled s (fencePair p cause s) := rfl
  unfold fencePair at is
  dsimp only at is
  rw [if_pos fenced] at is
  have counted (u : State) : Quiet u (countCause cause u) := by
    unfold countCause
    split
    · exact (quiet_bump _ _).trans (quiet_setErr _ _ _)
    · split
      · exact (quiet_bump _ _).trans (quiet_setErr _ _ _)
      · exact quiet_setErr _ _ _
  obtain ⟨u, hu⟩ : ∃ u, u = modPair p (fun x => { x with nested := x.nested + 1 }) s := ⟨_, rfl⟩
  rw [← hu] at is
  have noted : Quiet u (record 0x0101 3 p cause (nested := true) (s := bump 0x0F (countCause cause u))) :=
    (counted u).trans ((quiet_bump _ _).trans (quiet_record ..))
  generalize record 0x0101 3 p cause (nested := true) (s := bump 0x0F (countCause cause u)) = v at *
  obtain ⟨w, hw⟩ : ∃ w, w = if (s.pair p).nested = 0 then v else escalate v := ⟨_, rfl⟩
  have last : Quiet v w ∧ ((s.pair p).nested ≠ 0 → w.boot.escalated.isSome = true) := by
    rw [hw]
    split
    · next none => exact ⟨.refl v, fun some_ => absurd none some_⟩
    · exact ⟨⟨rfl, fun _ => rfl⟩, fun _ => rfl⟩
  rw [← hw] at is
  have calm := (noted.trans last.1).trans (quiet_settle s w)
  have pairs (q : Nat) : (settle s w).pair q = u.pair q := pair_congr (congrArg Fabric.pairs calm.fab) q
  refine ⟨_, is, ?_, fun q ne => ?_, fun again => ?_, calm.jobs.trans (by rw [hu]; rfl), calm.mem.trans (by rw [hu]; rfl),
    calm.store.trans (by rw [hu]; rfl)⟩
  · rw [pairs, hu, pair_modPair_self _ inside]
  · rw [pairs, hu, pair_modPair_ne _ _ ne]
  · rw [boot_settle]
    exact last.2 again

/-! ## JOB_RETRY (R94, R430) -/

/-- The job whose retry settles, its claim given up. -/
def freed (j : Job) : Job := { j with claim := false, stop := none }

/-- The state once the retry of job `r` has given up its claim. -/
def unclaimed (r : JobRef) (s : State) : State := modJob r freed s

theorem job_unclaimed_self {s : State} {r : JobRef} {j : Job} (hj : s.job? r = some j) : (unclaimed r s).job? r = some (freed j) :=
  job_modJob_self hj

theorem job_unclaimed_ne {s : State} {r k : JobRef} (ne : k ≠ r) : (unclaimed r s).job? k = s.job? k := job_modJob_ne ne

theorem exec_jobRetry {s : State} {r : JobRef} {j : Job} (hj : s.job? r = some j) (withdrawn : j.withdrawn = true) (open_ : j.outcome = none) :
    exec (.jobRetry r) s = match retryEnd s j with
      | some d => settledOn r.fn s (decideJob r d (scrub j (unclaimed r s)))
      | none => match presentsAgain s j with
        | some d => if j.silent then settledOn r.fn s (decideJob r d (scrub j (unclaimed r s)))
          else settledOn r.fn s (endJob (freed j) d false (unclaimed r s))
        | none => .next (unclaimed r s) := by
  show execJobRetry r s = _
  unfold execJobRetry
  rw [hj]
  dsimp only
  rw [if_pos ⟨withdrawn, open_⟩] <;> rfl

theorem scrub_leaves (j : Job) (s : State) : (scrub j s).fab = s.fab ∧ (scrub j s).store = s.store ∧ Grows s (scrub j s) := by
  unfold scrub
  split
  · have written := written_hostWrite j.ref.fn (dstOf j.entry) (Bytes.zeros (unsealWritten j s)) s
    exact ⟨(congrArg State.fab written.1 :), (congrArg State.store written.1 :), (Grows.of_written written).trans .of_fns⟩
  · exact ⟨rfl, rfl, .refl s⟩

theorem busy_unclaimed {s : State} {r : JobRef} (busy : (s.fn r.fn).aqBusy = false) : ((unclaimed r s).fn r.fn).aqBusy = false := busy

/-- A retry that decides its job. -/
theorem retry_decides {s : State} {r : JobRef} {j : Job} {d : Done} (hj : s.job? r = some j) (busy : (s.fn r.fn).aqBusy = false)
    (is : exec (.jobRetry r) s = settledOn r.fn s (decideJob r d (scrub j (unclaimed r s)))) :
    Answers (.jobRetry r) s fun t => t.job? r = some { j with claim := false, stop := none, outcome := some d } ∧
      (∀ k, k ≠ r → t.job? k = s.job? k) ∧ t.fab = s.fab ∧ t.store = s.store := by
  obtain ⟨fab, store, grows⟩ := scrub_leaves j (unclaimed r s)
  have jobs := jobs_scrub j (unclaimed r s)
  have idle : ((decideJob r d (scrub j (unclaimed r s))).fn r.fn).aqBusy = false := grows.busy (busy_unclaimed busy)
  rw [settledOn_of_not_busy _ idle] at is
  generalize scrub j (unclaimed r s) = u at *
  have calm := quiet_settle s (decideJob r d u)
  refine ⟨_, is, ?_, fun k ne => ?_, calm.fab.trans fab, calm.store.trans store⟩
  · rw [job_congr calm.jobs, job_decideJob_self, job_congr jobs, job_unclaimed_self hj]
    rfl
  · rw [job_congr calm.jobs, job_decideJob_ne _ _ ne, job_congr jobs, job_unclaimed_ne ne]

theorem retry_settles {s : State} {r : JobRef} {j : Job} (hj : s.job? r = some j) (withdrawn : j.withdrawn = true) (open_ : j.outcome = none)
    (busy : (s.fn r.fn).aqBusy = false) (plain : (retryEnd s j).isSome = true ∨ presentsAgain s j = none) :
    Answers (.jobRetry r) s fun t =>
      t.job? r = some { j with claim := false, stop := none, outcome := retryEnd s j } ∧
      (∀ k, k ≠ r → t.job? k = s.job? k) ∧ t.fab = s.fab ∧ t.store = s.store ∧ (retryEnd s j = none → t.mem = s.mem) := by
  have is := exec_jobRetry hj withdrawn open_
  cases ends : retryEnd s j with
  | some d =>
    rw [ends] at is
    obtain ⟨t, run, own, others, fab, store⟩ := retry_decides hj busy is
    exact ⟨t, run, own, others, fab, store, fun none_ => nomatch none_⟩
  | none =>
    have quietly : presentsAgain s j = none := plain.resolve_left (by rw [ends]; decide)
    rw [ends, quietly] at is
    refine ⟨_, is, ?_, fun k ne => job_unclaimed_ne ne, rfl, rfl, fun _ => rfl⟩
    rw [job_unclaimed_self hj, freed, open_]

/-- A reaction that was suppressed, or a timeout, presents itself again. -/
theorem presentsAgain_isSome {s : State} {j : Job} (h : j.stop.isSome = true ∨ expired s j = true) : ∃ d, presentsAgain s j = some d := by
  unfold presentsAgain
  cases stop : j.stop with
  | some d => exact ⟨d, rfl⟩
  | none =>
    have late : expired s j = true := h.resolve_left (by rw [stop]; decide)
    exact ⟨_, if_pos late⟩

theorem retry_ends {s : State} {r : JobRef} {j : Job} (hj : s.job? r = some j) (withdrawn : j.withdrawn = true) (open_ : j.outcome = none)
    (goes : retryEnd s j = none) (busy : (s.fn r.fn).aqBusy = false) (again : j.stop.isSome = true ∨ expired s j = true)
    (told : j.silent = false) (live : j.ended = false) (reads : j.reads ≠ .outstanding) (serving : (s.fn r.fn).run ≠ .resetting)
    (core : onCore r s = false) : Answers (.jobRetry r) s fun t => t.job? r = none := by
  obtain ⟨d, presents⟩ := presentsAgain_isSome again
  have is := exec_jobRetry hj withdrawn open_
  obtain rfl := ref_of_job hj
  rw [goes, presents] at is
  dsimp only at is
  rw [if_neg (by rw [told]; exact Bool.false_ne_true)] at is
  have waits : awaits (freed j) d = false := by simp [awaits, freed, reads]
  have ends : endJob (freed j) d false (unclaimed j.ref s) = writeMirror (freed j).ref.fn ((unclaimed j.ref s).cqOf (freed j).ref)
      (completeJob (freed j) ((freed j).stop.getD d) (squash (freed j) (unclaimed j.ref s))) :=
    endJob_free (j := freed j) (s := unclaimed j.ref s) serving live open_ rfl core waits
  rw [ends, settledOn_of_not_busy _ ((grows_endFree (freed j) _ _ _ _).busy (busy_unclaimed busy))] at is
  refine ⟨_, is, ?_⟩
  dsimp only
  rw [job_congr (quiet_settle _ _).jobs, job_congr (jobs_writeMirror _ _ _)]
  exact job_completeJob_self (freed j) _ _

theorem retry_drains {s : State} {r : JobRef} {j : Job} {d : Done} (hj : s.job? r = some j) (withdrawn : j.withdrawn = true)
    (open_ : j.outcome = none) (busy : (s.fn r.fn).aqBusy = false) (goes : retryEnd s j = none) (stop : j.stop = some d)
    (silent : j.silent = true) :
    Answers (.jobRetry r) s fun t =>
      t.job? r = some { j with claim := false, stop := none, outcome := some d } ∧ ∀ k, k ≠ r → t.job? k = s.job? k := by
  have is := exec_jobRetry hj withdrawn open_
  have presents : presentsAgain s j = some d := by
    unfold presentsAgain
    rw [stop]
  rw [goes, presents] at is
  dsimp only at is
  rw [if_pos silent] at is
  obtain ⟨t, run, own, others, -⟩ := retry_decides hj busy is
  exact ⟨t, run, own, others⟩

/-! ## A timeout that finds the claim held (R429, R431) -/

/-- A counter keeps its value. -/
def SameCount (k : Nat) (s t : State) : Prop := t.dict.counters.getD k 0 = s.dict.counters.getD k 0

theorem sameCount_acceptRecord {k : Nat} (other : k ≠ 0x1B) (e : EventRec) (s : State) : SameCount k s (acceptRecord e s) := by
  have rolled : (rollWindow s).dict = s.dict := by
    unfold rollWindow
    split <;> rfl
  have bumped (u : State) : SameCount k u (bump 0x1B u) := FMap.getD_set_ne _ _ _ other
  unfold acceptRecord
  split
  · rfl
  · dsimp only
    generalize rollWindow s = u at *
    unfold SameCount at *
    rw [← rolled]
    split
    · rfl
    · split
      · exact bumped { u with evr := { u.evr with suppressed := u.evr.suppressed.set e.code (u.evr.suppressed.getD e.code 0 + 1) } }
      · split
        · exact bumped u
        · rfl

/-- A step that changes neither LOCKED nor the pairs owes at most a GUARANTEE record. -/
theorem sameCount_settle {k : Nat} (other : k ≠ 0x1B) {old s : State} (locked : old.locked = s.locked) (pairs : old.noPair = s.noPair) :
    SameCount k s (settle old s) := by
  unfold settle
  by_cases off : (!old.evaluates || !s.evaluates) = true
  · rw [if_pos off]
    rfl
  · rw [if_neg off]
    dsimp only
    rw [if_pos locked, if_pos pairs]
    unfold noteConditions
    split
    · rfl
    · exact sameCount_acceptRecord other _ { s with red := { s.red with conditions := s.conditions } }

theorem bump_counts (k : Nat) (s : State) : (bump k s).dict.counters.getD k 0 = satAdd (s.dict.counters.getD k 0) 0xFFFFFFFF :=
  FMap.getD_set_self ..

/-- A reaction that a retry's claim holds up takes its place behind those it does not outrank. -/
theorem suppress_leaves {s : State} {j : Job} (d : Done) (hj : s.job? j.ref = some j) (rank : reactionRank d = 0) :
    let t := suppress j d false s
    (∃ k, t.job? j.ref = some k ∧ k.claim = j.claim ∧ k.outcome = j.outcome ∧ k.stop.isSome = true ∧ (∀ e, j.stop = some e → k.stop = some e)) ∧
      (∀ k, k ≠ j.ref → t.job? k = s.job? k) ∧ t.dict.counters.getD 0x12 0 = satAdd (s.dict.counters.getD 0x12 0) 0xFFFFFFFF ∧
      t.mem = s.mem ∧ s.locked = t.locked ∧ s.noPair = t.noPair := by
  intro t
  cases stop : j.stop with
  | none =>
    have is : t = modJob j.ref (fun k => { k with stop := some d, silent := false }) (bump 0x12 s) := if_pos (by rw [stop]; rfl)
    rw [is]
    refine ⟨⟨_, job_modJob_self (s := bump 0x12 s) hj, rfl, rfl, rfl, fun _ e => nomatch e⟩, fun k ne => job_modJob_ne (s := bump 0x12 s) ne,
      bump_counts 0x12 s, rfl, rfl, rfl⟩
  | some e =>
    have is : t = bump 0x12 s := if_neg (by rw [stop]; simp [rank])
    rw [is]
    exact ⟨⟨j, hj, rfl, rfl, by rw [stop]; rfl, fun _ h => stop.trans h⟩, fun _ _ => rfl, bump_counts 0x12 s, rfl, rfl, rfl⟩

theorem timeout_heldUp {s : State} {r : JobRef} {j : Job} (hj : s.job? r = some j) (plain : r.jq ≠ 0) (late : expired s j = true)
    (serving : (s.fn r.fn).run ≠ .resetting) (open_ : j.outcome = none) (live : j.ended = false) (claim : j.claim = true) :
    Answers (.jobTimeout r) s fun t =>
      (∃ k, t.job? r = some k ∧ k.claim = true ∧ k.outcome = none ∧ k.stop.isSome = true ∧
        (∀ d, j.stop = some d → k.stop = some d)) ∧ (∀ k, k ≠ r → t.job? k = s.job? k) ∧
      t.dict.counters.getD 0x12 0 = satAdd (s.dict.counters.getD 0x12 0) 0xFFFFFFFF ∧ t.mem = s.mem := by
  obtain rfl := ref_of_job hj
  obtain ⟨d, hd⟩ : ∃ d : Done, d = { status := Status.timeout, detail := if j.committed then 0x02 else 0x01 } := ⟨_, rfl⟩
  have rank : reactionRank d = 0 := by rw [hd]; rfl
  have free : j.taken = false := by simp [Job.taken, live, open_]
  have is : exec (.jobTimeout j.ref) s = settled s (suppress j d false s) := by
    show execJobTimeout j.ref s = _
    unfold execJobTimeout
    rw [hj]
    dsimp only
    rw [if_pos late, free, if_neg (by simp [safeToEnd, plain]), if_neg plain, ← hd]
    unfold endJob
    rw [if_neg serving, free, if_neg Bool.false_ne_true, if_pos claim]
  obtain ⟨⟨k, own, claimed, outcome, stop, first⟩, others, counted, mem, locked, pairs⟩ := suppress_leaves d hj rank
  generalize suppress j d false s = u at *
  have calm := quiet_settle s u
  refine ⟨_, is, ⟨k, ?_, claimed.trans claim, outcome.trans open_, stop, first⟩, fun n ne => ?_, ?_, calm.mem.trans mem⟩
  · rw [job_congr calm.jobs]
    exact own
  · rw [job_congr calm.jobs]
    exact others n ne
  · exact (sameCount_settle (by decide) locked pairs).trans counted

/-- Settles O22: each open job of a fenced pair is withdrawn under its retry's claim, and the retry settles it. -/
theorem faultsFenceAndRetrySettles : Obligations.FaultsFenceAndRetrySettles := by
  unfold Obligations.FaultsFenceAndRetrySettles
  exact ⟨fun s p cause inside up => fence_withdraws inside up, fun s p cause inside fenced => fault_nests inside fenced,
    fun s r j hj withdrawn open_ busy plain => retry_settles hj withdrawn open_ busy plain,
    fun s r j hj withdrawn open_ goes busy again told live reads serving core =>
      retry_ends hj withdrawn open_ goes busy again told live reads serving core,
    fun s r j d hj withdrawn open_ busy goes stop silent => retry_drains hj withdrawn open_ busy goes stop silent,
    fun s r j hj plain late serving open_ live claim => timeout_heldUp hj plain late serving open_ live claim⟩

end Sys2Proof.Safety
end

section
/-!
PROOFS. What a job takes with it when it leaves the table: slots' copies, cores, and the bytes of memory it may write (R124, R127,
R164, R273).
-/

-- In turn: a proof that waits for others beside it takes a thread and its stack from the memory that the check allows.
set_option Elab.async false

namespace Sys2Proof.Safety

open Sys2Proof.Machine

/-! ## Slots and cores -/

/-- `t` is `s` after jobs have left: no working copy of a slot changes, and a core runs what it ran or nothing. -/
structure Vacates (s t : State) : Prop where
  copy (n : Nat) : (t.slot n).a = (s.slot n).a
  cur (c : Nat) : (t.core c).cur = (s.core c).cur ∨ (t.core c).cur = none

namespace Vacates

theorem refl (s : State) : Vacates s s := ⟨fun _ => rfl, fun _ => .inl rfl⟩

theorem trans {s t u : State} (a : Vacates s t) (b : Vacates t u) : Vacates s u where
  copy n := (b.copy n).trans (a.copy n)
  cur c := by
    rcases b.cur c with same | none
    · rw [same]
      exact a.cur c
    · exact .inr none

theorem of_fields {s t : State} (slots : t.store = s.store := by exact rfl) (pk : t.pk = s.pk := by exact rfl) : Vacates s t :=
  ⟨fun n => congrArg Slot.a (slot_of_store slots n), fun c => .inl (congrArg PkCore.cur (core_congr (congrArg Pk.cores pk) c))⟩

theorem of_quiet {s t : State} (q : Quiet s t) : Vacates s t := .of_fields q.store q.pk

theorem of_written {s t : State} (w : Written s t) : Vacates s t := .of_fields w.store w.pk

theorem foldl {α : Type} {h : State → α → State} (each : ∀ s a, Vacates s (h s a)) : ∀ (l : List α) (s : State), Vacates s (l.foldl h s)
  | [], s => .refl s
  | a :: l, s => (each s a).trans (Vacates.foldl each l _)

end Vacates

theorem vacates_writeMirror (f c : Nat) (s : State) : Vacates s (writeMirror f c s) := by
  unfold writeMirror
  split
  · exact .refl s
  · split
    · exact .refl s
    · dsimp only
      have written (b : CompQueue) (a : Nat) (l : Bytes) : Vacates s (setCq f c b (hostWrite f a l s)) :=
        (Vacates.of_written (written_hostWrite f a l s)).trans .of_fields
      split
      · exact (written _ _ _).trans (.of_quiet (quiet_vecEvent _ _ _ _))
      · exact written _ _ _

theorem vacates_enterD3 (f : Nat) (s : State) : Vacates s (enterD3 f s) := by
  unfold enterD3
  split
  · exact (Vacates.foldl (fun s c => vacates_writeMirror f c s) _ s).trans .of_fields
  · exact .refl s

theorem vacates_squash (j : Job) (s : State) : Vacates s (squash j s) := by
  have wrote (f a : Nat) (b : Bytes) (u : State) : Vacates u (drewFree (hostWrite f a b u)) :=
    (Vacates.of_written (written_hostWrite f a b u)).trans .of_fields
  unfold squash
  split
  · refine .trans (t := disturb j s) ?_ ?_
    · unfold disturb
      split
      · exact .foldl (fun u w => wrote _ _ _ u) _ s
      · exact .refl s
    · unfold scrub
      split
      · exact wrote _ _ _ _
      · exact .refl _
  · exact .refl s

/-- Off its pair a job leaves signals besides the fabric's change. -/
theorem leavePair_still (r : JobRef) (s : State) : ∃ fab, Quiet { s with fab := fab } (leavePair r s) := by
  unfold leavePair
  split
  · exact ⟨_, .refl s⟩
  · unfold returnRole
    dsimp only
    split
    · split
      · exact ⟨_, (quiet_record ..).trans (quiet_setErr _ _ _)⟩
      · exact ⟨_, .refl _⟩
    · exact ⟨_, .refl _⟩

theorem vacates_leavePk (r : JobRef) (s : State) : Vacates s (leavePk r s) := by
  refine ⟨fun n => congrArg Slot.a (slot_of_store ?_ n), fun c => ?_⟩
  · unfold leavePk
    dsimp only
    split <;> rfl
  · rw [core_leavePk, cur_withoutJob]
    split
    · exact .inr rfl
    · exact .inl rfl

theorem vacates_releaseHold (j : Job) (s : State) : Vacates s (releaseHold j s) := by
  unfold releaseHold
  split
  · exact .refl s
  · exact .of_fields

theorem vacates_freeRetiring (n gen : Nat) (s : State) : Vacates s (freeRetiring n gen s) := by
  unfold freeRetiring
  split
  · split
    · refine ⟨fun m => ?_, fun c => .inl rfl⟩
      by_cases same : m = n
      · rw [same, slot_modSlot_self]
      · rw [slot_modSlot_ne _ _ same]
    · exact .refl s
  · exact .refl s

theorem vacates_leavePair (r : JobRef) (s : State) : Vacates s (leavePair r s) := by
  obtain ⟨fab, quiet⟩ := leavePair_still r s
  exact .trans (t := { s with fab := fab }) .of_fields (.of_quiet quiet)

/-- A job that leaves the table, before its function may sleep. -/
def leftOff (j : Job) (s : State) : State :=
  leavePk j.ref (releaseHold j (leavePair j.ref { s with
    jobs := s.jobs.filter fun k => decide (k.ref ≠ j.ref), rng := { s.rng with fills := s.rng.fills.filter fun x => decide (x ≠ j.ref) } }))

theorem vacates_leftOff (j : Job) (s : State) : Vacates s (leftOff j s) :=
  .trans .of_fields ((vacates_leavePair j.ref _).trans ((vacates_releaseHold j _).trans (vacates_leavePk j.ref _)))

theorem cur_leftOff (j : Job) (s : State) (c : Nat) : ((leftOff j s).core c).cur ≠ some j.ref := by
  unfold leftOff
  rw [core_leavePk, cur_withoutJob]
  split
  · exact nofun
  · assumption

theorem dropOne_eq (j : Job) (s : State) :
    dropOne j s = enterD3 j.ref.fn (if j.gen = 0 then leftOff j s else freeRetiring j.slot j.gen (leftOff j s)) := rfl

/-- The last step of a job's leaving. -/
theorem vacates_leftOn (j : Job) (s : State) : Vacates (leftOff j s) (dropOne j s) := by
  rw [dropOne_eq]
  refine .trans ?_ (vacates_enterD3 _ _)
  split
  · exact .refl _
  · exact vacates_freeRetiring _ _ _

theorem vacates_dropOne (j : Job) (s : State) : Vacates s (dropOne j s) := (vacates_leftOff j s).trans (vacates_leftOn j s)

theorem vacates_closeCall (r : JobRef) (s : State) : Vacates s (closeCall r s) := by
  unfold closeCall
  split
  · exact .refl s
  · dsimp only
    split
    · exact .trans .of_fields ((vacates_squash _ _).trans (vacates_dropOne _ _))
    · exact .of_fields

/-- A job that has left the table is on no core. -/
theorem cur_dropJob (j : Job) (s : State) (c : Nat) : ((dropJob j s).core c).cur ≠ some j.ref := by
  have off := cur_leftOff j s c
  rcases ((vacates_leftOn j s).trans (vacates_closeCall j.ref _)).cur c with same | none
  · rw [dropJob, same]
    exact off
  · rw [dropJob, none]
    exact nofun

theorem vacates_dropJob (j : Job) (s : State) : Vacates s (dropJob j s) := (vacates_dropOne j s).trans (vacates_closeCall _ _)

theorem vacates_recorded (j : Job) (d : Done) (s : State) :
    Vacates s (finishEntry j.ref.fn j.ref.jq j.ref.index
      (issueRecord j.ref.fn (s.cqOf j.ref) (recordBytes j d s.now) true (irqNowOf j.entry) s)) := by
  have issued : Vacates s (issueRecord j.ref.fn (s.cqOf j.ref) (recordBytes j d s.now) true (irqNowOf j.entry) s) := by
    unfold issueRecord
    split
    · exact .refl s
    · dsimp only
      have wrote (f c a : Nat) (b : Bytes) (q : CompQueue) : Vacates s (setCq f c q (hostWrite f a b s)) :=
        (Vacates.of_written (written_hostWrite f a b s)).trans .of_fields
      split
      · exact (wrote _ _ _ _ _).trans (vacates_writeMirror _ _ _)
      · exact wrote _ _ _ _ _
  refine issued.trans ?_
  unfold finishEntry
  split
  · exact .refl _
  · exact .of_fields

theorem vacates_completeJob (j : Job) (d : Done) (s : State) : Vacates s (completeJob j d s) := by
  unfold completeJob
  split
  · refine .trans ?_ (vacates_dropJob j _)
    unfold returnRecord
    split
    · exact .refl s
    · exact .of_fields
  · exact (vacates_recorded j d s).trans (vacates_dropJob j _)

theorem cur_completeJob (j : Job) (d : Done) (s : State) (c : Nat) : ((completeJob j d s).core c).cur ≠ some j.ref := by
  unfold completeJob
  split <;> exact cur_dropJob j _ c

/-! ## Memory -/

/-- From `s` to `t` function `f`, whose pages are not logged, writes no byte of memory outside the ranges `l`. -/
def WritesIn (f : Nat) (l : List (Nat × Nat × Nat)) (s t : State) : Prop :=
  Memory.wf s.mem = true → (s.fn f).log = none →
    Memory.wf t.mem = true ∧ (t.fn f).log = none ∧ ∀ k, Outside l k → Memory.get t.mem k = Memory.get s.mem k

section
variable {f : Nat} {l : List (Nat × Nat × Nat)}

theorem WritesIn.refl (s : State) : WritesIn f l s s := fun wf log => ⟨wf, log, fun _ _ => rfl⟩

theorem WritesIn.trans {s t u : State} (a : WritesIn f l s t) (b : WritesIn f l t u) : WritesIn f l s u := fun wf log => by
  obtain ⟨wf', log', mem⟩ := a wf log
  obtain ⟨wf'', log'', mem'⟩ := b wf' log'
  exact ⟨wf'', log'', fun k out => (mem' k out).trans (mem k out)⟩

theorem WritesIn.of_mem {s t : State} (mem : t.mem = s.mem) (log : (s.fn f).log = none → (t.fn f).log = none) : WritesIn f l s t :=
  fun wf unlogged => ⟨by rw [mem]; exact wf, log unlogged, fun k _ => by rw [mem]⟩

theorem WritesIn.of_quiet {s t : State} (q : Quiet s t) : WritesIn f l s t :=
  .of_mem q.mem fun log => (q.log f).trans log

theorem writesIn_hostWrite {a : Nat} {b : Bytes} (s : State) (listed : (f, a, b.length) ∈ l) : WritesIn f l s (hostWrite f a b s) :=
  fun wf log => by
    rw [hostWrite_unlogged _ _ _ _ log]
    refine ⟨Memory.wf_putAll _ _ _ wf, log, fun k out => ?_⟩
    have apart : k < hostKey f a ∨ hostKey f a + b.length ≤ k := out (f, a, b.length) listed
    exact Memory.get_putAll_outside _ _ _ _ wf apart

theorem writesIn_setCq (c : Nat) (q : CompQueue) (s : State) : WritesIn f l s (setCq f c q s) :=
  .of_mem rfl fun log => by
    unfold setCq
    rw [fn_modFn_self]
    exact log

theorem writesIn_writeMirror {c : Nat} {q : CompQueue} {s : State} (hc : s.cq? f c = some q) (listed : (f, q.mirror, 4) ∈ l) :
    WritesIn f l s (writeMirror f c s) := by
  unfold writeMirror
  rw [hc]
  dsimp only
  split
  · exact .refl s
  · have wrote : WritesIn f l s (setCq f c { q with covered := q.pi, irqNow := false } (hostWrite f q.mirror (Bytes.ofLE 4 q.pi.toNat) s)) :=
      (writesIn_hostWrite s (by rw [length_ofLE]; exact listed)).trans (writesIn_setCq c _ _)
    split
    · exact wrote.trans (.of_quiet (quiet_vecEvent _ _ _ _))
    · exact wrote

theorem writesIn_issueRecord {c : Nat} {q : CompQueue} {s : State} {b : Bytes} (irqNow : Bool) (hc : s.cq? f c = some q)
    (record : (f, q.recAt q.pi, b.length) ∈ l) (mirror : (f, q.mirror, 4) ∈ l) : WritesIn f l s (issueRecord f c b true irqNow s) := by
  rw [issueRecord_of_cq b true irqNow hc]
  have wrote := (writesIn_hostWrite s record).trans (writesIn_setCq c (withRecord s.now true irqNow q) (hostWrite f (q.recAt q.pi) b s))
  split
  · exact wrote.trans (writesIn_writeMirror (cq_setCq_self _ f c _) mirror)
  · exact wrote

end

theorem length_recordBytes (j : Job) (d : Done) (now : Nat) : (recordBytes j d now).length = 32 := by
  have tag : (tagOf j.entry).length = 8 := length_slice _ _ _
  simp [recordBytes, length_ofLE, tag, Bytes.ofNats]

/-- A job that leaves wakes no sleep, where its function is not about to. -/
theorem mem_dropOne {j : Job} {s : State} (awake : (s.fn j.ref.fn).quiesce = none) : (dropOne j s).mem = s.mem := by
  have off : (leftOff j s).mem = s.mem ∧ ((leftOff j s).fn j.ref.fn).quiesce = none := by
    unfold leftOff
    obtain ⟨fab, quiet⟩ := leavePair_still j.ref { s with
      jobs := s.jobs.filter fun k => decide (k.ref ≠ j.ref), rng := { s.rng with fills := s.rng.fills.filter fun x => decide (x ≠ j.ref) } }
    have kept (u : State) : (leavePk j.ref (releaseHold j u)).mem = u.mem := by
      unfold leavePk releaseHold
      dsimp only
      split <;> split <;> rfl
    have same (u : State) (f : Nat) : (leavePk j.ref (releaseHold j u)).fn f = u.fn f := by
      unfold State.fn
      rw [fns_leavePk, fns_releaseHold]
    refine ⟨(kept _).trans quiet.mem, ?_⟩
    rw [same]
    exact (congrArg Fn.quiesce (quiet.2 j.ref.fn) :).trans awake
  have freed (u : State) (n gen : Nat) : (freeRetiring n gen u).mem = u.mem := by
    unfold freeRetiring
    split
    · split <;> rfl
    · rfl
  rw [dropOne_eq]
  obtain ⟨mem, quiesce⟩ := off
  split
  · unfold enterD3
    rw [quiesce]
    exact mem
  · have still : ((freeRetiring j.slot j.gen (leftOff j s)).fn j.ref.fn).quiesce = none := by
      unfold State.fn
      rw [fns_freeRetiring]
      exact quiesce
    unfold enterD3
    rw [still]
    exact (freed _ _ _).trans mem

theorem closeCall_none {r : JobRef} {s : State} (none : ∀ x ∈ s.worlds.calls, x.job ≠ r) : closeCall r s = s := by
  have missing : (s.worlds.calls.find? fun c => decide (c.job = r)) = .none :=
    List.find?_eq_none.mpr fun x h => by simpa using none x h
  unfold closeCall
  rw [missing]

end Sys2Proof.Safety
end

section
/-!
PROOFS. Yield points, finish points, core faults and their verdicts (R261, R267, R268, R270, R271, R273).
-/

-- In turn: a proof that waits for others beside it takes a thread and its stack from the memory that the check allows.
set_option Elab.async false

namespace Sys2Proof.Safety

open Sys2Proof.Machine

/-! ## Yield points (R270, R271, R273) -/

/-- The job that a core runs, by its name. -/
theorem cur_of_bind {s : State} {c : Nat} {j : Job} (h : (s.core c).cur.bind s.job? = some j) :
    (s.core c).cur = some j.ref ∧ s.job? j.ref = some j := by
  obtain ⟨r, cur, found⟩ := Option.bind_eq_some_iff.mp h
  rw [ref_of_job found]
  exact ⟨cur, found⟩

theorem yield_ends {s : State} {c : Nat} {j : Job} {d : Done} (runs : (s.core c).cur.bind s.job? = some j) (stop : j.stop = some d)
    (told : j.silent = false) (busy : (s.fn j.ref.fn).aqBusy = false) :
    Answers (.pkYieldPoint c) s fun t => t.job? j.ref = none ∧ (∀ n, (t.slot n).a = (s.slot n).a) ∧ t.life = s.life := by
  have grows := (grows_completeJob j d s).trans (grows_writeMirror j.ref.fn (s.cqOf j.ref) _)
  have is : exec (.pkYieldPoint c) s = settled s (writeMirror j.ref.fn (s.cqOf j.ref) (completeJob j d s)) := by
    rw [← settledOn_of_not_busy s (grows.busy busy)]
    show execPkYieldPoint c s = _
    unfold execPkYieldPoint
    dsimp only
    rw [runs]
    dsimp only
    rw [stop]
    exact congrArg (settledOn j.ref.fn s) (if_neg (by rw [told]; exact Bool.false_ne_true))
  have calm := quiet_settle s (writeMirror j.ref.fn (s.cqOf j.ref) (completeJob j d s))
  have left := ((vacates_completeJob j d s).trans (vacates_writeMirror j.ref.fn (s.cqOf j.ref) _)).trans (.of_quiet calm)
  have winds := (winds_completeJob j d s).trans ((winds_writeMirror j.ref.fn (s.cqOf j.ref) _).trans (.of_quiet calm))
  refine ⟨_, is, ?_, left.copy, winds.life⟩
  rw [job_congr calm.jobs, job_congr (jobs_writeMirror _ _ _)]
  exact job_completeJob_self j d s

theorem yield_goesOn {s : State} {c : Nat} {j : Job} (runs : (s.core c).cur.bind s.job? = some j) (stop : j.stop = none)
    (stays : (j.result.isNone && mayPark s c (s.core c) j) = false) : Answers (.pkYieldPoint c) s fun t => t = s := by
  refine ⟨s, ?_, rfl⟩
  show execPkYieldPoint c s = _
  unfold execPkYieldPoint
  dsimp only
  rw [runs]
  dsimp only
  rw [stop]
  exact if_neg (by rw [stays]; exact Bool.false_ne_true)

theorem mem_leavePk (r : JobRef) (s : State) : (leavePk r s).mem = s.mem := by
  unfold leavePk
  dsimp only
  split <;> rfl

/-- A core that takes a job keeps the one it has parked. -/
structure Takes (c : Nat) (k : Job) (s t : State) : Prop where
  parked : (t.core c).parked = (s.core c).parked
  parkedAt : (t.core c).parkedAt = (s.core c).parkedAt
  others (r : JobRef) : r ≠ k.ref → t.job? r = s.job? r
  queue : k.ref ∉ t.pk.queue
  mem : t.mem = s.mem

theorem takes_taking {c : Nat} (k : Job) {s : State} (inside : c < s.pk.cores.length) : Takes c k s (taking c k s) := by
  refine ⟨?_, ?_, fun r ne => job_taking_ne ne, not_mem_filter_ne _ _, kept_taking.1⟩
  · rw [core_taking inside]
  · rw [core_taking inside]

/-- A refused job leaves the core again, with its completion. -/
theorem takes_refused {c : Nat} {k : Job} {s u : State} (inside : c < s.pk.cores.length) (d : Done) (pk : u.pk = (taking c k s).pk)
    (jobs : u.jobs = (taking c k s).jobs) (mem : u.mem = (taking c k s).mem) : Takes c k s (leavePk k.ref (decideJob k.ref d u)) := by
  have core : (leavePk k.ref (decideJob k.ref d u)).core c = { s.core c with cur := none, erased := (s.core c).erased + 1 } := by
    rw [core_leavePk, core_congr (s := taking c k s) (by rw [decideJob_pk, pk]), core_taking inside]
    exact if_pos rfl
  refine ⟨by rw [core], by rw [core], fun r ne => ?_, ?_, ?_⟩
  · rw [(frees_leavePk k.ref _).job r ne, job_decideJob_ne _ _ ne, job_congr jobs]
    exact job_taking_ne ne
  · rw [queue_leavePk]
    exact not_mem_filter_ne _ _
  · rw [mem_leavePk]
    exact mem.trans kept_taking.1

theorem takes_takeJob {c : Nat} (k : Job) {s : State} (inside : c < s.pk.cores.length) : Takes c k s (takeJob c k s) := by
  rw [takeJob_eq]
  split
  · have marks := quiet_markBad (present k s).1.slot (taking c k s)
    exact takes_refused inside _ marks.pk marks.jobs marks.mem
  · split
    · exact takes_refused inside _ rfl rfl rfl
    · exact takes_taking k inside

theorem yield_parks {s : State} {c : Nat} {j k : Job} (inside : c < s.pk.cores.length) (runs : (s.core c).cur.bind s.job? = some j)
    (stop : j.stop = none) (parks : (j.result.isNone && mayPark s c (s.core c) j) = true) :
    let s1 := modCore c (fun x => { x with cur := none, parked := some j.ref, parkedAt := s.now }) s
    corePick s1 ((startable s1).filter (mayTake s1 c)) = some k → k.ref ≠ j.ref →
    Answers (.pkYieldPoint c) s fun t => (t.core c).parked = some j.ref ∧ (t.core c).parkedAt = s.now ∧
      t.job? j.ref = some j ∧ k.ref ∉ t.pk.queue ∧ t.mem = s.mem := by
  intro s1 picked ne
  have is : exec (.pkYieldPoint c) s = settled s (takeJob c k s1) := by
    show execPkYieldPoint c s = _
    unfold execPkYieldPoint
    dsimp only
    rw [runs]
    dsimp only
    rw [stop]
    dsimp only
    rw [if_pos parks, picked]
  have core : s1.core c = { s.core c with cur := none, parked := some j.ref, parkedAt := s.now } := core_modCore_self _ inside
  have size : c < s1.pk.cores.length := by
    show c < (s.pk.cores.set c _).length
    rw [List.length_set]
    exact inside
  have found : s1.job? j.ref = some j := (cur_of_bind runs).2
  have mem : s1.mem = s.mem := rfl
  have takes := takes_takeJob k size
  have calm := quiet_settle s (takeJob c k s1)
  generalize takeJob c k s1 = t at *
  clear_value s1
  have same : (settle s t).core c = t.core c := core_congr (congrArg Pk.cores calm.pk) c
  refine ⟨_, is, ?_, ?_, ?_, ?_, calm.mem.trans (takes.mem.trans mem)⟩
  · rw [same, takes.parked, core]
  · rw [same, takes.parkedAt, core]
  · rw [job_congr calm.jobs, takes.others _ ne.symm]
    exact found
  · rw [congrArg Pk.queue calm.pk]
    exact takes.queue

/-! ## Core faults (R268) -/

/-- The state in which a core's fault is noted. -/
theorem quiet_faultNoted (core detail f : Nat) (s : State) :
    Quiet s (record 0x0501 2 core 1 detail f (s := setErr Block.pk 4 (bump 7 s))) :=
  (quiet_bump _ _).trans ((quiet_setErr _ _ _).trans (quiet_record ..))

/-- A core under test, its fault noted. -/
def underTest (now : Nat) (x : PkCore) : PkCore := { x with st := .testing, cur := none, faults := now :: recentFaults now x.faults }

theorem coreFault_active {s : State} {c detail : Nat} (active : (s.core c).st = .active) :
    ∃ u, Quiet s u ∧ coreFault c detail s = modCore c (underTest s.now)
      (match (s.core c).cur.bind s.job? with | some j => restartJob c j detail u | none => u) := by
  unfold coreFault
  dsimp only
  rw [if_pos active]
  exact ⟨_, quiet_faultNoted c detail _ s, rfl⟩

/-- The job of a faulting core leaves it: it goes back to the queue once, and ends the second time. -/
structure Restarts (c detail : Nat) (j : Job) (s t : State) : Prop where
  size : t.pk.cores.length = s.pk.cores.length
  mem : t.mem = s.mem
  store : t.store = s.store
  fns : t.fns = s.fns
  others (r : JobRef) : r ≠ j.ref → t.job? r = s.job? r
  own : ∃ k, t.job? j.ref = some k ∧ k.draws = [] ∧ k.result = none ∧
    if j.restarts = 0 then k.restarts = 1 ∧ k.badCore = some c ∧ t.pk.queue.head? = some j.ref
    else k.outcome = some { status := 0x51, detail := detail }

theorem restarts_restartJob {s : State} {c : Nat} {j : Job} (detail : Nat) (found : s.job? j.ref = some j) (held : onCore j.ref s = true)
    (stop : j.stop = none) : Restarts c detail j s (restartJob c j detail s) := by
  have size : (leavePk j.ref s).pk.cores.length = s.pk.cores.length := by
    unfold leavePk
    dsimp only
    split <;> exact List.length_map _
  have store : (leavePk j.ref s).store = s.store := by
    unfold leavePk
    dsimp only
    split <;> rfl
  have mem := mem_leavePk j.ref s
  have fns := fns_leavePk j.ref s
  have others (r : JobRef) := (frees_leavePk j.ref s).job r
  have own : (leavePk j.ref s).job? j.ref = some (eraseContext j) := by
    rw [leavePk_of_held held]
    exact job_modJob_self (h := eraseContext) found
  unfold restartJob
  dsimp only
  generalize leavePk j.ref s = u at *
  rw [stop]
  dsimp only
  by_cases first : j.restarts = 0
  · rw [if_pos first]
    refine ⟨size, mem, store, fns, fun r ne => (job_modJob_ne ne).trans (others r ne), _, job_modJob_self own, rfl, rfl, ?_⟩
    rw [if_pos first]
    exact ⟨rfl, rfl, rfl⟩
  · rw [if_neg first]
    refine ⟨size, mem, store, fns, fun r ne => (job_decideJob_ne u _ ne).trans (others r ne), _, job_modJob_self own, rfl, rfl, ?_⟩
    rw [if_neg first]

theorem onCore_of_quiet {s u : State} (q : Quiet s u) (r : JobRef) : onCore r u = onCore r s := by
  unfold onCore
  rw [q.pk]

/-- A fault of an active core with a job that nothing has stopped. -/
theorem coreFault_restarts {s : State} {c : Nat} {j : Job} (detail : Nat) (inside : c < s.pk.cores.length) (active : (s.core c).st = .active)
    (runs : (s.core c).cur.bind s.job? = some j) (stop : j.stop = none) (busy : (s.fn j.ref.fn).aqBusy = false) {i : Instr}
    (is : exec i s = settledOn j.ref.fn s (coreFault c detail s)) :
    Answers i s fun t => (t.core c).st = .testing ∧ (t.core c).cur = none ∧
      (t.core c).faults.head? = some s.now ∧ t.mem = s.mem ∧ t.store = s.store ∧ (∀ r, r ≠ j.ref → t.job? r = s.job? r) ∧
      ∃ k, t.job? j.ref = some k ∧ k.draws = [] ∧ k.result = none ∧
        if j.restarts = 0 then k.restarts = 1 ∧ k.badCore = some c ∧ t.pk.queue.head? = some j.ref
        else k.outcome = some { status := 0x51, detail := detail } := by
  obtain ⟨cur, found⟩ := cur_of_bind runs
  obtain ⟨u, noted, faults⟩ := coreFault_active (detail := detail) active
  rw [runs] at faults
  dsimp only at faults
  have held : onCore j.ref u = true := (onCore_of_quiet noted _).trans (onCore_of_cur inside cur)
  obtain ⟨size, mem, store, fns, others, own⟩ := restarts_restartJob (c := c) detail ((job_congr noted.jobs _).trans found) held stop
  rw [faults] at is
  generalize restartJob c j detail u = v at *
  have idle : ((modCore c (underTest s.now) v).fn j.ref.fn).aqBusy = false := by
    have same : (modCore c (underTest s.now) v).fn j.ref.fn = u.fn j.ref.fn := by
      show v.fn j.ref.fn = _
      unfold State.fn
      rw [fns]
    rw [same]
    exact (congrArg Fn.aqBusy (noted.2 j.ref.fn) :).trans busy
  rw [settledOn_of_not_busy _ idle] at is
  have sizeV : c < v.pk.cores.length := by
    rw [size, congrArg (fun x : Pk => x.cores.length) noted.pk]
    exact inside
  have core : (modCore c (underTest s.now) v).core c = underTest s.now (v.core c) := core_modCore_self _ sizeV
  have calm := quiet_settle s (modCore c (underTest s.now) v)
  have same : (settle s (modCore c (underTest s.now) v)).core c = underTest s.now (v.core c) :=
    (core_congr (congrArg Pk.cores calm.pk) c).trans core
  refine ⟨_, is, by rw [same]; rfl, by rw [same]; rfl, by rw [same]; rfl, calm.mem.trans (mem.trans noted.mem),
    calm.store.trans (store.trans noted.store), fun r ne => ?_, ?_⟩
  · rw [job_congr calm.jobs]
    exact (others r ne).trans (job_congr noted.jobs r)
  · obtain ⟨k, named, draws, result, ends⟩ := own
    refine ⟨k, (job_congr calm.jobs _).trans named, draws, result, ?_⟩
    rw [congrArg Pk.queue calm.pk]
    exact ends

theorem finish_faults {s : State} {c d : Nat} {j : Job} {p : PkResult} (inside : c < s.pk.cores.length) (active : (s.core c).st = .active)
    (runs : (s.core c).cur.bind s.job? = some j) (stop : j.stop = none) (result : j.result = some p) (fails : p.check = some d)
    (busy : (s.fn j.ref.fn).aqBusy = false) :
    Answers (.pkFinishPoint c) s fun t => (t.core c).st = .testing ∧ (t.core c).cur = none ∧ t.mem = s.mem ∧ t.store = s.store := by
  have is : exec (.pkFinishPoint c) s = settledOn j.ref.fn s (coreFault c d s) := by
    show execPkFinishPoint c s = _
    unfold execPkFinishPoint
    rw [runs]
    dsimp only
    rw [result]
    dsimp only
    rw [stop]
    dsimp only
    rw [fails]
  obtain ⟨t, run, st, cur, -, mem, store, -⟩ := coreFault_restarts d inside active runs stop busy is
  exact ⟨t, run, st, cur, mem, store⟩

theorem fault_restarts {s : State} {c detail : Nat} {j : Job} (inside : c < s.pk.cores.length) (active : (s.core c).st = .active)
    (runs : (s.core c).cur.bind s.job? = some j) (listed : detail ∈ checksOf j.entry) (stop : j.stop = none)
    (busy : (s.fn j.ref.fn).aqBusy = false) :
    Answers (.pkCoreFault c detail) s fun t => (t.core c).st = .testing ∧ (t.core c).cur = none ∧
      (t.core c).faults.head? = some s.now ∧ t.mem = s.mem ∧ t.store = s.store ∧ (∀ r, r ≠ j.ref → t.job? r = s.job? r) ∧
      ∃ k, t.job? j.ref = some k ∧ k.draws = [] ∧ k.result = none ∧
        if j.restarts = 0 then k.restarts = 1 ∧ k.badCore = some c ∧ t.pk.queue.head? = some j.ref
        else k.outcome = some { status := 0x51, detail := detail } := by
  refine coreFault_restarts detail inside active runs stop busy ?_
  show execPkCoreFault c detail s = _
  unfold execPkCoreFault
  rw [runs]
  exact if_pos (by simpa using listed)

theorem fault_alone {s : State} {c detail : Nat} (inside : c < s.pk.cores.length) (active : (s.core c).st = .active)
    (none_ : (s.core c).cur.bind s.job? = none) (known : detail = 0 ∨ detail = 8) :
    Answers (.pkCoreFault c detail) s fun t => (t.core c).st = .testing ∧ (t.core c).cur = none ∧
      (t.core c).faults.head? = some s.now ∧ t.jobs = s.jobs ∧ t.mem = s.mem ∧ t.store = s.store := by
  have is : exec (.pkCoreFault c detail) s = settled s (coreFault c detail s) := by
    show execPkCoreFault c detail s = _
    unfold execPkCoreFault
    rw [none_]
    exact if_pos known
  obtain ⟨u, noted, faults⟩ := coreFault_active (detail := detail) active
  rw [none_] at faults
  dsimp only at faults
  rw [faults] at is
  have sizeU : c < u.pk.cores.length := by
    rw [congrArg (fun x : Pk => x.cores.length) noted.pk]
    exact inside
  have core : (modCore c (underTest s.now) u).core c = underTest s.now (u.core c) := core_modCore_self _ sizeU
  have calm := quiet_settle s (modCore c (underTest s.now) u)
  have same : (settle s (modCore c (underTest s.now) u)).core c = underTest s.now (u.core c) :=
    (core_congr (congrArg Pk.cores calm.pk) c).trans core
  exact ⟨_, is, by rw [same]; rfl, by rw [same]; rfl, by rw [same]; rfl, calm.jobs.trans noted.jobs, calm.mem.trans noted.mem,
    calm.store.trans noted.store⟩

theorem failCore_leaves {s : State} {c : Nat} (inside : c < s.pk.cores.length) :
    ((failCore c s).core c).st = .failed ∧ (∀ k, k ≠ c → (failCore c s).core k = s.core k) ∧ (failCore c s).mem = s.mem ∧
      (failCore c s).store = s.store := by
  have core := core_modCore_self (fun x => { x with st := .failed, cur := none, parked := none }) inside
  have others (k : Nat) (ne : k ≠ c) := core_modCore_ne (fun x => { x with st := .failed, cur := none, parked := none }) s ne
  have is : (failCore c s).pk.cores = (modCore c (fun x => { x with st := .failed, cur := none, parked := none }) s).pk.cores ∧
      (failCore c s).mem = s.mem ∧ (failCore c s).store = s.store := by
    unfold failCore
    dsimp only
    split <;> exact ⟨rfl, rfl, rfl⟩
  obtain ⟨cores, mem, store⟩ := is
  refine ⟨?_, fun k ne => ?_, mem, store⟩
  · rw [core_congr cores, core]
  · rw [core_congr cores, others k ne]

theorem verdict_answers {s : State} {c : Nat} (pass : Bool) (inside : c < s.pk.cores.length) (testing : (s.core c).st = .testing) :
    Answers (.pkCoreKatVerdict c pass) s fun t =>
      (t.core c).st = (if pass = true ∧ (recentFaults s.now (s.core c).faults).length < 4 then .active else .failed) ∧
      (∀ k, k ≠ c → t.core k = s.core k) ∧ t.mem = s.mem ∧ t.store = s.store := by
  have is : exec (.pkCoreKatVerdict c pass) s =
      if (pass && decide ((recentFaults s.now (s.core c).faults).length < 4)) = true then
        .next (record 0x0501 0 c 2 (s := modCore c (fun y => { y with st := .active }) s))
      else settled s (failCore c (record 0x0501 3 c 3 (s := s))) := if_pos testing
  by_cases good : pass = true ∧ (recentFaults s.now (s.core c).faults).length < 4
  · rw [if_pos (by simpa using good)] at is
    have noted : Quiet (modCore c (fun y => { y with st := .active }) s)
      (record 0x0501 0 c 2 (s := modCore c (fun y => { y with st := .active }) s)) := quiet_record ..
    have core (k : Nat) := core_congr (congrArg Pk.cores noted.pk) k
    refine ⟨_, is, ?_, fun k ne => ?_, noted.mem, noted.store⟩
    · rw [core, core_modCore_self _ inside, if_pos good]
    · rw [core, core_modCore_ne _ _ ne]
  · rw [if_neg (by simpa using good)] at is
    have noted : Quiet s (record 0x0501 3 c 3 (s := s)) := quiet_record ..
    generalize record 0x0501 3 c 3 (s := s) = u at *
    obtain ⟨st, others, mem, store⟩ := failCore_leaves (s := u) (c := c)
      (by rw [congrArg (fun x : Pk => x.cores.length) noted.pk]; exact inside)
    have calm := quiet_settle s (failCore c u)
    have core (k : Nat) := core_congr (congrArg Pk.cores calm.pk) k
    refine ⟨_, is, ?_, fun k ne => ?_, calm.mem.trans (mem.trans noted.mem), calm.store.trans (store.trans noted.store)⟩
    · rw [core, if_neg good]
      exact st
    · rw [core, others k ne]
      exact core_congr (congrArg Pk.cores noted.pk) k

/-! ## Finish points (R261, R267, R270) -/

/-- A public-key result's new slot, where it has one, changes slots and mask generators besides signals. -/
theorem placeSecret_leaves (j : Job) (p : PkResult) (s : State) :
    (∃ store fab, Quiet { s with store := store, fab := fab } (placeSecret j p s).2) ∧ (pkToSlot j.entry = false → (placeSecret j p s).2 = s) := by
  refine ⟨?_, fun plain => ?_⟩
  · unfold placeSecret
    dsimp only
    split
    · split
      · exact ⟨_, _, .refl s⟩
      · split
        · exact ⟨_, _, .refl s⟩
        · next n _ =>
          generalize hc : mkAttr (s.fn j.ref.fn).tenant 0 (newEpoch j.entry) (newUses j.entry) 0x03 (newExport j.entry) = attr
          have masks := masks_freshCopies { attr := attr } p.key p.key s
          split
          · next t placedIs =>
            have rest := (slot_of_placeKey placedIs).2.2
            have all : InSlots s t := (inSlots_of_masks masks).trans (by rw [rest]; rfl)
            exact ⟨t.store, t.fab, by rw [← show t = { s with store := t.store, fab := t.fab } by rw [all]]; exact .refl t⟩
          · show ∃ store fab, Quiet _ (if (s.slot 0).st = .loaded ∧ copiesAgree (s.slot 0) = false then markBad 0 s else s)
            split
            · exact ⟨_, s.fab, quiet_markBad 0 s⟩
            · exact ⟨_, _, .refl s⟩
    · exact ⟨_, _, .refl s⟩
  · unfold placeSecret
    rw [plain, if_neg Bool.false_ne_true]

/-- The state once a result whose checks held is placed and written. -/
def released (j : Job) (p : PkResult) (s : State) : State :=
  if isOk (placeSecret j p s).1 then writeOuts j p (placeSecret j p s).2 else (placeSecret j p s).2

theorem exec_pkFinishPoint {s : State} {c : Nat} {j : Job} {p : PkResult} (runs : (s.core c).cur.bind s.job? = some j) (stop : j.stop = none)
    (result : j.result = some p) (holds : p.check = none) :
    exec (.pkFinishPoint c) s = settled s (writeMirror j.ref.fn (s.cqOf j.ref) (completeJob j (placeSecret j p s).1 (released j p s))) := by
  show execPkFinishPoint c s = _
  unfold execPkFinishPoint
  rw [runs]
  dsimp only
  rw [result]
  dsimp only
  rw [stop]
  dsimp only
  rw [holds]
  rfl

theorem written_writeOuts (j : Job) (p : PkResult) (s : State) : Written s (writeOuts j p s) :=
  (written_hostWrite ..).trans (written_hostWrite ..)

/-! ### What a record leaves of a function's sleep and of its calls -/

/-- No function begins to sleep, and no call ends. -/
def Wakes (s t : State) : Prop := (∀ f, (t.fn f).quiesce = (s.fn f).quiesce) ∧ t.worlds = s.worlds

theorem Wakes.refl (s : State) : Wakes s s := ⟨fun _ => rfl, rfl⟩

theorem Wakes.trans {s t u : State} (a : Wakes s t) (b : Wakes t u) : Wakes s u := ⟨fun f => (b.1 f).trans (a.1 f), b.2.trans a.2⟩

theorem Wakes.of_quiet {s t : State} (q : Quiet s t) : Wakes s t := ⟨fun f => (congrArg Fn.quiesce (q.2 f) :), q.worlds⟩

theorem Wakes.of_written {s t : State} (w : Written s t) : Wakes s t := ⟨fun f => (congrArg Fn.quiesce (w.2 f) :), w.worlds⟩

theorem wakes_modFn (f : Nat) (h : Fn → Fn) (s : State) (keeps : ∀ g, (h g).quiesce = g.quiesce := by exact fun _ => rfl) :
    Wakes s (modFn f h s) := by
  refine ⟨fun k => ?_, rfl⟩
  by_cases same : k = f
  · rw [same, fn_modFn_self]
    exact keeps _
  · rw [fn_modFn_ne s h same]

theorem wakes_setCq (f c : Nat) (q : CompQueue) (s : State) : Wakes s (setCq f c q s) := wakes_modFn f _ s

theorem wakes_writeMirror (f c : Nat) (s : State) : Wakes s (writeMirror f c s) := by
  unfold writeMirror
  split
  · exact .refl s
  · split
    · exact .refl s
    · dsimp only
      have wrote (a : Nat) (b : Bytes) (q : CompQueue) : Wakes s (setCq f c q (hostWrite f a b s)) :=
        (Wakes.of_written (written_hostWrite f a b s)).trans (wakes_setCq _ _ _ _)
      split
      · exact (wrote _ _ _).trans (.of_quiet (quiet_vecEvent _ _ _ _))
      · exact wrote _ _ _

theorem wakes_issueRecord (f c : Nat) (b : Bytes) (reserved irqNow : Bool) (s : State) : Wakes s (issueRecord f c b reserved irqNow s) := by
  unfold issueRecord
  split
  · exact .refl s
  · dsimp only
    have wrote (a : Nat) (q : CompQueue) : Wakes s (setCq f c q (hostWrite f a b s)) :=
      (Wakes.of_written (written_hostWrite f a b s)).trans (wakes_setCq _ _ _ _)
    split
    · exact (wrote _ _).trans (wakes_writeMirror _ _ _)
    · exact wrote _ _

theorem wakes_finishEntry (f q : Nat) (i : Word) (s : State) : Wakes s (finishEntry f q i s) := by
  unfold finishEntry
  split
  · exact .refl s
  · exact wakes_modFn f _ s

/-! ### The record of a job -/

/-- A completion queue keeps its mirror's address while a job of it completes. -/
theorem cq_mirror_completeJob {j : Job} {q : CompQueue} {s : State} (d : Done) (ring : j.ref.jq ≠ subQueue)
    (hc : s.cq? j.ref.fn (s.cqOf j.ref) = some q) :
    ∃ q', (completeJob j d s).cq? j.ref.fn (s.cqOf j.ref) = some q' ∧ q'.mirror = q.mirror := by
  have kept {u v : State} {x : CompQueue} (m : Mirrors u v) (here : u.cq? j.ref.fn (s.cqOf j.ref) = some x) :
      ∃ y, v.cq? j.ref.fn (s.cqOf j.ref) = some y ∧ y.mirror = x.mirror := by
    rcases m j.ref.fn (s.cqOf j.ref) with e | e <;> rw [e, here]
    · exact ⟨x, rfl, rfl⟩
    · exact ⟨_, rfl, rfl⟩
  unfold completeJob
  rw [if_neg ring, issueRecord_of_cq _ true _ hc]
  have here := cq_setCq_self (hostWrite j.ref.fn (q.recAt q.pi) (recordBytes j d s.now) s) j.ref.fn (s.cqOf j.ref)
    (withRecord s.now true (irqNowOf j.entry) q)
  generalize setCq j.ref.fn (s.cqOf j.ref) (withRecord s.now true (irqNowOf j.entry) q)
    (hostWrite j.ref.fn (q.recAt q.pi) (recordBytes j d s.now) s) = u at here ⊢
  have issued : ∃ y, (if (q.pi + 1 - q.covered).toNat ≥ 64 then writeMirror j.ref.fn (s.cqOf j.ref) u else u).cq? j.ref.fn (s.cqOf j.ref) =
      some y ∧ y.mirror = q.mirror := by
    split
    · obtain ⟨y, at_, mirror⟩ := kept (mirrors_writeMirror _ _ _) here
      exact ⟨y, at_, mirror.trans (withRecord_mirror ..)⟩
    · exact ⟨_, here, withRecord_mirror ..⟩
  obtain ⟨y, at_, mirror⟩ := issued
  obtain ⟨z, last, same⟩ := kept (mirrors_dropJob j _) ((cq_finishEntry j.ref.fn j.ref.jq j.ref.index _ _ _).trans at_)
  exact ⟨z, last, same.trans mirror⟩

/-- The bytes that completing a job may write are its record and its mirror. -/
theorem writesIn_completeJob {j : Job} {q : CompQueue} {s : State} {l : List (Nat × Nat × Nat)} (d : Done) (ring : j.ref.jq ≠ subQueue)
    (hc : s.cq? j.ref.fn (s.cqOf j.ref) = some q) (awake : (s.fn j.ref.fn).quiesce = none) (uncalled : ∀ x ∈ s.worlds.calls, x.job ≠ j.ref)
    (record : (j.ref.fn, q.recAt q.pi, 32) ∈ l) (mirror : (j.ref.fn, q.mirror, 4) ∈ l) :
    WritesIn j.ref.fn l s (writeMirror j.ref.fn (s.cqOf j.ref) (completeJob j d s)) := by
  obtain ⟨z, last, same⟩ := cq_mirror_completeJob d ring hc
  refine .trans ?_ (writesIn_writeMirror last (by rw [same]; exact mirror))
  unfold completeJob
  rw [if_neg ring]
  have issued := writesIn_issueRecord (b := recordBytes j d s.now) (irqNowOf j.entry) hc (by rw [length_recordBytes]; exact record) mirror
  have wakes := wakes_issueRecord j.ref.fn (s.cqOf j.ref) (recordBytes j d s.now) true (irqNowOf j.entry) s
  generalize issueRecord j.ref.fn (s.cqOf j.ref) (recordBytes j d s.now) true (irqNowOf j.entry) s = u at issued wakes ⊢
  have finished : WritesIn j.ref.fn l u (finishEntry j.ref.fn j.ref.jq j.ref.index u) := by
    unfold finishEntry
    split
    · exact .refl u
    · exact .of_mem rfl fun log => by
        unfold setJq
        rw [fn_modFn_self]
        exact log
  have wakes' := wakes.trans (wakes_finishEntry j.ref.fn j.ref.jq j.ref.index u)
  generalize finishEntry j.ref.fn j.ref.jq j.ref.index u = v at finished wakes' ⊢
  obtain ⟨quiesce, worlds⟩ := wakes'
  have dropped := frees_dropOne j v
  refine issued.trans (finished.trans (.of_mem ?_ fun log => ?_))
  · unfold dropJob
    rw [closeCall_none fun x h => uncalled x (by rw [← worlds]; exact dropped.calls x h)]
    exact mem_dropOne ((quiesce _).trans awake)
  · unfold dropJob
    rw [closeCall_none fun x h => uncalled x (by rw [← worlds]; exact dropped.calls x h)]
    exact dropped.log _ log

theorem writesIn_released {j : Job} {p : PkResult} {s : State} {l : List (Nat × Nat × Nat)}
    (first : (j.ref.fn, outAddr j.entry 0, p.out0.length) ∈ l) (second : (j.ref.fn, outAddr j.entry 1, p.out1.length) ∈ l) :
    WritesIn j.ref.fn l s (released j p s) := by
  obtain ⟨⟨store, fab, quiet⟩, -⟩ := placeSecret_leaves j p s
  have placed : WritesIn j.ref.fn l s (placeSecret j p s).2 :=
    .trans (t := { s with store := store, fab := fab }) (.of_mem rfl fun log => log) (.of_quiet quiet)
  unfold released
  split
  · exact placed.trans ((writesIn_hostWrite _ first).trans (writesIn_hostWrite _ second))
  · exact placed

/-- What a released result leaves of queues, calls and sleep. -/
theorem released_leaves (j : Job) (p : PkResult) (s : State) :
    (∀ f c, (released j p s).cq? f c = s.cq? f c) ∧ (∀ f q, (released j p s).jq? f q = s.jq? f q) ∧ Wakes s (released j p s) := by
  obtain ⟨⟨store, fab, quiet⟩, -⟩ := placeSecret_leaves j p s
  have cqs (f c : Nat) : (placeSecret j p s).2.cq? f c = s.cq? f c := quiet.cq? f c
  have jqs (f q : Nat) : (placeSecret j p s).2.jq? f q = s.jq? f q := quiet.jq? f q
  have wakes : Wakes s (placeSecret j p s).2 := .trans (t := { s with store := store, fab := fab }) ⟨fun _ => rfl, rfl⟩ (.of_quiet quiet)
  unfold released
  split
  · have written := written_writeOuts j p (placeSecret j p s).2
    exact ⟨fun f c => (written.cq? f c).trans (cqs f c), fun f q => (written.jq? f q).trans (jqs f q), wakes.trans (.of_written written)⟩
  · exact ⟨cqs, jqs, wakes⟩

theorem finish_releases {s : State} {c : Nat} {j : Job} {p : PkResult} {q : CompQueue} (runs : (s.core c).cur.bind s.job? = some j)
    (stop : j.stop = none) (result : j.result = some p) (holds : p.check = none) (ring : j.ref.jq ≠ subQueue)
    (hc : s.cq? j.ref.fn (s.cqOf j.ref) = some q) :
    Answers (.pkFinishPoint c) s fun t => t.job? j.ref = none ∧ (t.core c).cur ≠ some j.ref ∧
      (∃ q', t.cq? j.ref.fn (s.cqOf j.ref) = some q' ∧ q'.pi = q.pi + 1 ∧ q'.ci = q.ci ∧ q'.covered = q'.pi) ∧
      (pkToSlot j.entry = false → ∀ n, (t.slot n).a = (s.slot n).a) ∧
      (Tidy s → (s.fn j.ref.fn).log = none → (s.fn j.ref.fn).quiesce = none → (∀ x ∈ s.worlds.calls, x.job ≠ j.ref) → ∀ k,
        Outside [(j.ref.fn, outAddr j.entry 0, p.out0.length), (j.ref.fn, outAddr j.entry 1, p.out1.length),
          (j.ref.fn, q.recAt q.pi, 32), (j.ref.fn, q.mirror, 4)] k → Memory.get t.mem k = Memory.get s.mem k) := by
  have is := exec_pkFinishPoint runs stop result holds
  obtain ⟨cqs, jqs, quiesce, worlds⟩ := released_leaves j p s
  have wrote := writesIn_released (j := j) (p := p) (s := s) (l := [(j.ref.fn, outAddr j.entry 0, p.out0.length),
    (j.ref.fn, outAddr j.entry 1, p.out1.length), (j.ref.fn, q.recAt q.pi, 32), (j.ref.fn, q.mirror, 4)])
    (.head _) (.tail _ (.head _))
  have copies (plain : pkToSlot j.entry = false) (n : Nat) : ((released j p s).slot n).a = (s.slot n).a := by
    have same := (placeSecret_leaves j p s).2 plain
    unfold released
    rw [same]
    split
    · exact (Vacates.of_written (written_writeOuts j p s)).copy n
    · rfl
  have cqOf : (released j p s).cqOf j.ref = s.cqOf j.ref := by
    unfold State.cqOf
    rw [jqs]
  generalize (placeSecret j p s).1 = d at is
  generalize released j p s = u at *
  have hu : u.cq? j.ref.fn (u.cqOf j.ref) = some q := by rw [cqOf, cqs]; exact hc
  obtain ⟨q', here, one⟩ := oneMore_completeJob d ring hu
  have written := writesIn_completeJob (l := [(j.ref.fn, outAddr j.entry 0, p.out0.length),
    (j.ref.fn, outAddr j.entry 1, p.out1.length), (j.ref.fn, q.recAt q.pi, 32), (j.ref.fn, q.mirror, 4)]) d ring hu
  rw [cqOf] at here written
  obtain ⟨q'', here', ⟨pi, ci, -⟩, covered⟩ := oneMore_writeMirror here one
  have calm := quiet_settle s (writeMirror j.ref.fn (s.cqOf j.ref) (completeJob j d u))
  have left := (vacates_writeMirror j.ref.fn (s.cqOf j.ref) (completeJob j d u)).trans (.of_quiet calm)
  refine ⟨_, is, ?_, ?_, ⟨q'', (calm.cq? _ _).trans here', pi, ci, covered⟩, fun plain n => ?_, fun tidy unlogged awake uncalled k out => ?_⟩
  · rw [job_congr calm.jobs, job_congr (jobs_writeMirror _ _ _)]
    exact job_completeJob_self j d u
  · rcases left.cur c with same | none
    · rw [same]
      exact cur_completeJob j d u c
    · rw [none]
      exact nofun
  · rw [((vacates_completeJob j d u).trans left).copy n]
    exact copies plain n
  · obtain ⟨wf, log, mem⟩ := wrote tidy.1 unlogged
    obtain ⟨-, -, mem'⟩ := written ((quiesce _).trans awake) (by rw [worlds]; exact uncalled) (.tail _ (.tail _ (.head _)))
      (.tail _ (.tail _ (.tail _ (.head _)))) wf log
    rw [calm.mem, mem' k out, mem k out]

/-- Settles O29: a core's job ends, goes on or makes room at a yield point, is released at its finish point, and a fault restarts it once. -/
theorem coresYieldFinishAndFail : Obligations.CoresYieldFinishAndFail := by
  unfold Obligations.CoresYieldFinishAndFail
  exact ⟨fun s c j d runs stop told busy => yield_ends runs stop told busy, fun s c j runs stop stays => yield_goesOn runs stop stays,
    fun s c j k inside runs stop parks => yield_parks inside runs stop parks,
    fun s c j p q runs stop result holds ring hc => finish_releases runs stop result holds ring hc,
    fun s c d j p inside active runs stop result fails busy => finish_faults inside active runs stop result fails busy,
    fun s c detail inside active none_ known => fault_alone inside active none_ known,
    fun s c detail j inside active runs listed stop busy => fault_restarts inside active runs listed stop busy,
    fun s c pass inside testing => verdict_answers pass inside testing⟩

end Sys2Proof.Safety
end

section
/-!
PROOFS. A reset of the link (R451): what it takes from the link and what it makes of PF0.
-/

-- In turn: a proof that waits for others beside it takes a thread and its stack from the memory that the check allows.
set_option Elab.async false

namespace Sys2Proof.Safety

open Sys2Proof.Machine

/-! ## What giving up work leaves of the link and of a function that is not on its way to D3hot -/

/-- Where a function stands. -/
def standing (g : Fn) : FnRun × Option Nat × Nat := (g.run, g.quiesce, g.resetCause)

/-- `t` has the link of `s`, and its function `k` stands where it does in `s`, unless it is on its way to D3hot. -/
structure Stays (k : Nat) (s t : State) : Prop where
  link : t.link = s.link
  fn : (s.fn k).quiesce = none → standing (t.fn k) = standing (s.fn k)

section
variable {k : Nat}

theorem Stays.refl (s : State) : Stays k s s := ⟨rfl, fun _ => rfl⟩

theorem Stays.trans {s t u : State} (a : Stays k s t) (b : Stays k t u) : Stays k s u where
  link := b.link.trans a.link
  fn h := by
    have same := a.fn h
    exact (b.fn ((congrArg (fun x => x.2.1) same :).trans h)).trans same

theorem Stays.foldl {α : Type} {h : State → α → State} (each : ∀ s a, Stays k s (h s a)) : ∀ (l : List α) (s : State), Stays k s (l.foldl h s)
  | [], s => .refl s
  | a :: l, s => (each s a).trans (Stays.foldl each l _)

theorem Stays.of_quiet {s t : State} (q : Quiet s t) : Stays k s t := ⟨q.link, fun _ => (congrArg standing (q.2 k) :)⟩

theorem Stays.of_written {s t : State} (w : Written s t) : Stays k s t := ⟨(congrArg State.link w.1 :), fun _ => (congrArg standing (w.2 k) :)⟩

/-- Changes outside the link and the functions. -/
theorem Stays.of_fields {s t : State} (link : t.link = s.link := by exact rfl) (fns : t.fns = s.fns := by exact rfl) : Stays k s t where
  link := link
  fn _ := by unfold State.fn; rw [fns]

theorem stays_setFn {f : Nat} {g : Fn} {s : State} (h : standing g = standing (s.fn f) := by exact rfl) : Stays k s (setFn f g s) where
  link := rfl
  fn _ := by
    rw [fn_setFn]
    split
    · next e => rw [e, h]
    · rfl

theorem stays_setFn_ne {f : Nat} (g : Fn) (s : State) (ne : k ≠ f) : Stays k s (setFn f g s) :=
  ⟨rfl, fun _ => congrArg standing (fn_setFn_ne s g ne)⟩

theorem stays_hostWrite (f a : Nat) (b : Bytes) (s : State) : Stays k s (hostWrite f a b s) := .of_written (written_hostWrite f a b s)

theorem stays_writeMirror (f c : Nat) (s : State) : Stays k s (writeMirror f c s) := by
  unfold writeMirror
  split
  · exact .refl s
  · split
    · exact .refl s
    · have put (q : CompQueue) (b : Bytes) (a : Nat) : Stays k s (setCq f c q (hostWrite f a b s)) := (stays_hostWrite f a b s).trans stays_setFn
      dsimp only
      split
      · exact (put _ _ _).trans (.of_quiet (quiet_vecEvent _ _ _ _))
      · exact put _ _ _

theorem stays_enterD3 (f : Nat) (s : State) : Stays k s (enterD3 f s) := by
  unfold enterD3
  split
  · next sleeps =>
    have flushed : Stays k s (flushMirrors f s) := .foldl (fun s c => stays_writeMirror f c s) _ s
    refine ⟨flushed.link, fun h => ?_⟩
    have ne : k ≠ f := fun e => by simp [← e, h] at sleeps
    exact (congrArg standing (fn_modFn_ne _ _ ne)).trans (flushed.fn h)
  · exact .refl s

theorem stays_disturb (j : Job) (s : State) : Stays k s (disturb j s) := by
  unfold disturb
  split
  · exact .foldl (fun s w => (stays_hostWrite j.ref.fn w.addr
      (disturbed s.free (s.hostRead j.ref.fn w.addr w.len) w) s).trans .of_fields) _ s
  · exact .refl s

theorem stays_squash (j : Job) (s : State) : Stays k s (squash j s) := by
  unfold squash
  split
  · refine (stays_disturb j s).trans ?_
    unfold scrub
    split
    · exact (stays_hostWrite _ _ _ _).trans .of_fields
    · exact .refl _
  · exact .refl s

theorem stays_leaveTrace (j : Job) (s : State) : Stays k s (leaveTrace j s).2 := by
  unfold leaveTrace
  split
  · split
    · dsimp only
      split
      · exact .refl s
      · exact (stays_hostWrite _ _ _ _).trans .of_fields
    · exact .refl s
  · exact stays_disturb j s

theorem stays_leavePair (r : JobRef) (s : State) : Stays k s (leavePair r s) := by
  unfold leavePair
  split
  · exact .refl s
  · refine .trans .of_fields ?_
    unfold returnRole
    dsimp only
    split
    · split
      · exact .trans .of_fields (.of_quiet ((quiet_record ..).trans (quiet_setErr _ _ _)))
      · exact .of_fields
    · exact .of_fields

theorem stays_releaseHold (j : Job) (s : State) : Stays k s (releaseHold j s) := by
  unfold releaseHold
  split
  · exact .refl s
  · exact .of_fields

theorem stays_freeRetiring (n gen : Nat) (s : State) : Stays k s (freeRetiring n gen s) := by
  unfold freeRetiring
  split
  · split
    · exact .of_fields
    · exact .refl s
  · exact .refl s

theorem stays_leavePk (r : JobRef) (s : State) : Stays k s (leavePk r s) := by
  unfold leavePk
  dsimp only
  split <;> exact .of_fields

theorem stays_dropOne (j : Job) (s : State) : Stays k s (dropOne j s) := by
  have off (u : State) (h : Stays k s u) : Stays k s (leavePk j.ref (releaseHold j (leavePair j.ref u))) :=
    h.trans ((stays_leavePair j.ref _).trans ((stays_releaseHold j _).trans (stays_leavePk j.ref _)))
  unfold dropOne
  dsimp only
  refine .trans ?_ (stays_enterD3 _ _)
  split
  · exact off _ .of_fields
  · exact (off _ .of_fields).trans (stays_freeRetiring _ _ _)

theorem stays_closeCall (r : JobRef) (s : State) : Stays k s (closeCall r s) := by
  unfold closeCall
  split
  · exact .refl s
  · dsimp only
    split
    · exact .trans .of_fields ((stays_squash _ _).trans (stays_dropOne _ _))
    · exact .of_fields

theorem stays_releaseEntry (j : Job) (s : State) : Stays k s (releaseEntry j s) := by
  unfold releaseEntry
  dsimp only
  split
  · exact .of_fields
  · exact .trans .of_fields stays_setFn

theorem stays_abandonAdmin (j : Job) (s : State) : Stays k s (abandonAdmin j s) := by
  unfold abandonAdmin
  split
  · exact .of_fields
  · split
    · exact stays_setFn
    · unfold abandonCeremony
      split
      · exact .refl s
      · split
        · exact .of_fields
        · exact .refl s

theorem stays_resetJob (s : State) (j : Job) : Stays k s (resetJob s j) := by
  have traced : Stays k s (if j.ref.jq = 0 then abandonAdmin j s
      else if j.committed && j.outcome.isNone then (leaveTrace j s).2 else s) := by
    split
    · exact stays_abandonAdmin j s
    · split
      · exact stays_leaveTrace j s
      · exact .refl s
  unfold resetJob
  split
  · exact .of_fields
  · dsimp only
    generalize (if j.ref.jq = 0 then abandonAdmin j s else if j.committed && j.outcome.isNone then (leaveTrace j s).2 else s) = u at traced
    have read : Stays k s (if j.reads = .outstanding then modFn j.ref.fn (fun g => { g with reading := j.ref :: g.reading }) u else u) := by
      split
      · exact traced.trans stays_setFn
      · exact traced
    split
    · exact read.trans ((stays_dropOne j _).trans (stays_closeCall j.ref _))
    · exact read.trans (stays_releaseEntry j _)

theorem stays_givesUp (f : Nat) (s : State) :
    Stays k s (dropStalled f ((s.jobs.filter fun j => decide (j.ref.fn = f)).foldl resetJob s)) := by
  refine .trans (.foldl (fun s j => stays_resetJob s j) (s.jobs.filter fun j => decide (j.ref.fn = f)) s) ?_
  obtain ⟨o, is⟩ := dropStalled_leaves f ((s.jobs.filter fun j => decide (j.ref.fn = f)).foldl resetJob s)
  rw [is]
  exact .of_fields

/-- The reset of another function. -/
theorem stays_beginReset {f : Nat} (cause : Nat) (ne : k ≠ f) (s : State) : Stays k s (beginReset f cause s) := by
  unfold beginReset
  split
  · exact .refl s
  · exact stays_setFn_ne _ _ ne
  · exact (stays_givesUp f s).trans (stays_setFn_ne _ _ ne)

end

/-! ## The VFs' resets beside PF0 -/

theorem stays_stopLogs (k : Nat) (s : State) : Stays k s (stopLogs s) := ⟨rfl, fun _ => by rw [fn_stopLogs]; rfl⟩

theorem stays_resetVfs (cause : Nat) (s : State) : Stays 0 s (resetVfs cause s) := by
  unfold resetVfs
  have all (l : List Nat) (vfs : ∀ f ∈ l, f ≠ 0) : ∀ u : State, Stays 0 u (l.foldl (fun s f => beginReset f cause s) u) := by
    induction l with
    | nil => exact .refl
    | cons f l ih =>
      exact fun u => (stays_beginReset cause (vfs f (.head _)).symm u).trans (ih (fun f h => vfs f (.tail _ h)) _)
  exact all _ (fun f h => by simpa using (List.mem_filter.mp h).2) s

theorem life_resetVfs (cause : Nat) (s : State) : (resetVfs cause s).life = s.life := by
  unfold resetVfs
  generalize s.fns.keys.filter (· ≠ 0) = l
  induction l generalizing s with
  | nil => rfl
  | cons f l ih => exact (ih _).trans (life_beginReset f cause s)

/-! ## A reset of the link (R451) -/

theorem resetLink_eq (s : State) : resetLink s = resetVfs 7 (stopLogs (beginReset 0 7 (linkDown s))) := by
  show startReset 0 7 (linkDown s) = _
  unfold startReset
  rw [if_neg fun h => h.2.1 rfl, if_pos rfl, if_pos rfl]

theorem resetLink_begins {s : State} (live : InService s 0) :
    ((resetLink s).fn 0).run = .resetting ∧ ((resetLink s).fn 0).resetCause = 7 ∧
      (resetLink s).link = { degraded := s.link.degraded } ∧ (resetLink s).life = s.life := by
  have up : InService (linkDown s) 0 := live
  rw [resetLink_eq]
  have link : (beginReset 0 7 (linkDown s)).link = (linkDown s).link := by
    rw [beginReset_eq 7 up]
    exact (stays_givesUp (k := 0) 0 (linkDown s)).link
  have stands : standing ((beginReset 0 7 (linkDown s)).fn 0) = (.resetting, none, 7) := by
    rw [beginReset_eq 7 up, fn_modFn_self]
    rfl
  have life := life_beginReset 0 7 (linkDown s)
  generalize beginReset 0 7 (linkDown s) = u at link stands life
  have rest := (stays_stopLogs 0 u).trans (stays_resetVfs 7 (stopLogs u))
  have held := (rest.fn (congrArg (fun x => x.2.1) stands :)).trans stands
  exact ⟨(congrArg (fun x => x.1) held :), (congrArg (fun x => x.2.2) held :), rest.link.trans link, (life_resetVfs 7 _).trans life⟩

/-- Without jobs, no byte of memory and no slot changes. -/
theorem resetLink_idle {s : State} (live : InService s 0) (empty : s.jobs = []) :
    (resetLink s).mem = s.mem ∧ (resetLink s).store = s.store := by
  have up : InService (linkDown s) 0 := live
  have idle : (linkDown s).inFlight 0 = 0 := by
    show (s.jobs.filter _).length = 0
    rw [empty]
    rfl
  rw [resetLink_eq]
  obtain ⟨o, begun⟩ := beginReset_idle 7 up idle
  rw [begun]
  have all := vfsReset 7 (s := stopLogs { modFn 0 (resetFn 7 (linkDown s).now) (linkDown s) with out := o }) empty
  exact ⟨(congrArg State.mem all.rest :), (congrArg State.store all.rest :)⟩

theorem linkReset_answers {s : State} (on : s.linkOn = true) (live : InService s 0) :
    Answers .linkReset s fun t => (t.fn 0).run = .resetting ∧ (t.fn 0).resetCause = 7 ∧
      t.link = { degraded := s.link.degraded } ∧ t.life = s.life ∧ (s.jobs = [] → t.mem = s.mem ∧ t.store = s.store) := by
  have calm := quiet_settle s (resetLink s)
  obtain ⟨run, cause, link, life⟩ := resetLink_begins live
  refine ⟨_, if_pos on, (calm.run 0).trans run, (congrArg Fn.resetCause (calm.2 0) :).trans cause, calm.link.trans link, calm.life.trans life,
    fun empty => ?_⟩
  obtain ⟨mem, store⟩ := resetLink_idle live empty
  exact ⟨calm.mem.trans mem, calm.store.trans store⟩

end Sys2Proof.Safety
end

section
/-!
PROOFS. Training, inbound FLITs, DOE objects and SPDM requests outside a session (R85, R148, R149, R183, R184).
-/

-- In turn: a proof that waits for others beside it takes a thread and its stack from the memory that the check allows.
set_option Elab.async false

namespace Sys2Proof.Safety

open Sys2Proof.Machine

/-! ## Training (R148, R149) -/

theorem linkUp_answers {s : State} (rate width : Nat) (flit : Bool) (on : s.linkOn = true) :
    Answers (.linkUp rate width flit) s (Quiet { s with link := { s.link with
      rate := rate, width := if width = 2 then 1 else width, flit := flit || decide (rate = 6)
      degraded := decide (rate ≠ 6) || decide ((if width = 2 then 1 else width) ≠ 16) } }) :=
  answers_settled (if_pos on) (quiet_record ..)

/-! ## Inbound FLITs (R85, R158, R186) -/

/-- An AER error with a header draws its four words, and is a signal otherwise. -/
theorem quiet_aerUncor_header (f : Nat) {b : Nat} (header : hasHeader b = true) (s : State) :
    Quiet { s with free := s.free + 4 } (aerUncor f b s) := by
  unfold aerUncor
  simp only [header]
  exact (Quiet.of_fn f _ (by simp only [stillFn]; split <;> rfl)).map fun x => { x with free := s.free + 4 }

theorem quiet_aerCor (f b : Nat) (s : State) : Quiet s (aerCor f b s) := by
  unfold aerCor modFn
  exact .of_fn f _ rfl

/-- A message sent last is there after the conditions are noted, where LOCKED and NO_PAIR are as before. -/
theorem sent_settle {s t u : State} (q : Quiet t u) (m : OutMsg) (life : t.life = s.life := by exact rfl)
    (pairs : t.fab.pairs = s.fab.pairs := by exact rfl) : m ∈ (settle s (emit m u)).out := by
  rw [out_settle]
  · exact List.mem_cons_self
  · exact congrArg (fun l : Life => decide (l.lc = .locked)) (q.life.trans life).symm
  · exact congrArg (fun b : List Pair => !b.any fun p => p.counts.full) ((congrArg Fabric.pairs q.fab).trans pairs).symm

/-- A run of split failures ended. -/
def splitsEnded (s : State) : State := { s with fab := { s.fab with rxSplit := 0 } }

theorem flit_accepted {s : State} (v : IdeCheck) (on : s.linkOn = true) :
    exec (.inboundFlit true true v) s = settled s (ideVerdict v (splitsEnded s)) := by
  show execInboundFlit true true v s = _
  unfold execInboundFlit
  rw [on]
  rfl

theorem flit_insecure {s : State} (st : Nat) (on : s.linkOn = true) :
    Answers (.inboundFlit true true (.bothSides st)) s fun t =>
      Quiet (ideInsecure st { s with fab := { s.fab with rxSplit := 0 }, free := s.free + 4 }) t ∧ t.link.ide.find? st = some .insecure := by
  have calm : Quiet (ideInsecure st { s with fab := { s.fab with rxSplit := 0 }, free := s.free + 4 })
      (settle s (ideVerdict (.bothSides st) (splitsEnded s))) :=
    (quiet_aerUncor_header 0 (b := 28) rfl (ideInsecure st (splitsEnded s))).trans (quiet_settle _ _)
  exact ⟨_, flit_accepted _ on, calm, by rw [calm.link]; exact FMap.find?_set_self _ _ _⟩

theorem flit_oneSide {s : State} (on : s.linkOn = true) :
    Answers (.inboundFlit true true .oneSide) s fun t =>
      Quiet { s with fab := { s.fab with rxSplit := 0 }, free := s.free + 1 } t ∧ t.boot.escalated.isSome = true := by
  have noted : Quiet (drewFree (splitsEnded s)) (ideVerdict .oneSide (splitsEnded s)) := (quiet_record ..).trans (quiet_escalate _)
  exact ⟨_, flit_accepted _ on, noted.trans (quiet_settle _ _), by rw [boot_settle]; rfl⟩

theorem flit_replayed {s : State} (v : IdeCheck) (on : s.linkOn = true) :
    Answers (.inboundFlit false false v) s fun t => Quiet { s with fab := { s.fab with rxSplit := 0 } } t ∧ .replayRequest ∈ t.out := by
  have is : exec (.inboundFlit false false v) s = .next (emit .replayRequest (aerCor 0 0 (splitsEnded s))) := by
    show execInboundFlit false false v s = _
    unfold execInboundFlit
    rw [on]
    rfl
  exact ⟨_, is, (quiet_aerCor 0 0 (splitsEnded s)).trans (quiet_emit _ _), List.mem_cons_self⟩

/-- One more split failure. -/
def splitCounted (s : State) : State := { s with fab := { s.fab with rxSplit := s.fab.rxSplit + 1 } }

theorem flit_split {s : State} (a : Bool) (v : IdeCheck) (on : s.linkOn = true) :
    Answers (.inboundFlit a (!a) v) s fun t => Quiet { s with fab := { s.fab with rxSplit := s.fab.rxSplit + 1 } } t ∧
      .replayRequest ∈ t.out ∧ (3 ≤ s.fab.rxSplit + 1 → t.boot.escalated.isSome = true) := by
  have is : exec (.inboundFlit a (!a) v) s = settled s (splitFailure (b2n a) s) := by
    show execInboundFlit a (!a) v s = _
    unfold execInboundFlit
    rw [on]
    cases a <;> rfl
  obtain ⟨u, failed, noted, third⟩ : ∃ u, splitFailure (b2n a) s = emit .replayRequest u ∧ Quiet (splitCounted s) u ∧
      (3 ≤ s.fab.rxSplit + 1 → u.boot.escalated.isSome = true) := by
    have recorded : Quiet (splitCounted s) (record 0x0104 1 0 (b2n a) (s.fab.rxSplit + 1) (s := bump 2 (splitCounted s))) :=
      (quiet_bump _ _).trans (quiet_record ..)
    refine ⟨_, rfl, ?_, fun three => ?_⟩
    · dsimp only
      split
      · exact recorded.trans (quiet_escalate _)
      · exact recorded
    · dsimp only
      rw [if_pos three]
      rfl
  rw [failed] at is
  exact ⟨_, is, (noted.trans (quiet_emit _ _)).trans (quiet_settle _ _), sent_settle noted .replayRequest,
    fun three => by rw [boot_settle]; exact third three⟩

/-! ## DOE objects (R183) -/

theorem exec_spdmRequest (obj : Bytes) (s : State) :
    exec (.spdmRequest obj) s = .next (if s.linkOn = true ∧ s.secureRuns = true ∧ s.link.held = none then doeServe obj s else s) := by
  show Host.Outcome.next (if s.linkOn && s.secureRuns && s.link.held.isNone then doeServe obj s else s) = _
  refine congrArg Host.Outcome.next (if_congr ?_ rfl rfl)
  rw [Bool.and_eq_true, Bool.and_eq_true, Option.isNone_iff_eq_none, and_assoc]

theorem doeServe_malformed {obj : Bytes} (s : State)
    (h : obj.length < 8 ∨ 65536 < obj.length ∨ obj.leAt 0 2 ≠ 1 ∨ obj.leAt 4 4 % 2 ^ 18 * 4 ≠ obj.length) : doeServe obj s = s := by
  unfold doeServe
  exact if_pos (by rcases h with h | h | h | h <;> simp only [h, gt_iff_lt, true_or, or_true, not_false_eq_true, ne_eq])

theorem spdmRequest_malformed {obj : Bytes} (s : State)
    (h : obj.length < 8 ∨ 65536 < obj.length ∨ obj.leAt 0 2 ≠ 1 ∨ obj.leAt 4 4 % 2 ^ 18 * 4 ≠ obj.length) :
    Answers (.spdmRequest obj) s (· = s) :=
  ⟨_, exec_spdmRequest obj s, by rw [doeServe_malformed s h, ite_self]⟩

/-- A well-formed object in PF0's mailbox that firmware serves. -/
structure Served (obj : Bytes) (s : State) : Prop where
  on : s.linkOn = true
  runs : s.secureRuns = true
  free : s.link.held = none
  long : 8 ≤ obj.length
  short : obj.length ≤ 65536
  vendor : obj.leAt 0 2 = 1
  length : obj.leAt 4 4 % 2 ^ 18 * 4 = obj.length

theorem Served.answers {obj : Bytes} {s : State} (h : Served obj s) {P : State → Prop}
    (holds : P (if (obj.at_ 2).toNat = 0 then doeReply (doeDiscovery (obj.drop 8)) s
      else if (obj.at_ 2).toNat = 1 then doeAnswer obj 1 (spdmRespond none (obj.drop 8) s)
      else if (obj.at_ 2).toNat = 2 then
        match spdmOpened (obj.drop 8) s with
        | none => s
        | some (x, b) => doeAnswer obj 2 (spdmSecured x b s)
      else s)) : Answers (.spdmRequest obj) s P := by
  refine ⟨_, exec_spdmRequest obj s, ?_⟩
  rw [if_pos ⟨h.on, h.runs, h.free⟩]
  unfold doeServe
  dsimp only
  rwa [if_neg]
  rintro (e | e | e | e)
  · exact absurd h.short (by omega)
  · exact absurd h.long (by omega)
  · exact e h.vendor
  · exact e h.length

/-! ## The mailbox's answer -/

/-- A response placed, but for its interrupt. -/
def placedIn (obj : Bytes) (n : Bool) (s : State) : State := modLink (fun l => { l with doe := obj, held := none, doeInt := n || l.doeInt }) s

/-- A response in the mailbox, with its interrupt or without, and signals. -/
theorem doeReply_places (obj : Bytes) (s : State) : ∃ n, Quiet (placedIn obj n s) (doeReply obj s) := by
  unfold doeReply
  dsimp only
  split
  · refine ⟨true, .trans ?_ (quiet_vecEvent 0 63 false _)⟩
    exact .of_still rfl rfl
  · refine ⟨false, ?_⟩
    exact .of_still rfl rfl

/-- What a response in the mailbox leaves of the link. -/
theorem link_doeReply (obj : Bytes) (s : State) :
    (doeReply obj s).link.doe = obj ∧ (doeReply obj s).link.spdm = s.link.spdm ∧ (doeReply obj s).link.conn = s.link.conn ∧
      (doeReply obj s).link.ide = s.link.ide ∧ (doeReply obj s).link.ideKeys = s.link.ideKeys := by
  obtain ⟨n, calm⟩ := doeReply_places obj s
  rw [calm.link]
  exact ⟨rfl, rfl, rfl, rfl, rfl⟩

theorem workStands_doeReply (obj : Bytes) (s : State) : WorkStands s (doeReply obj s) := by
  obtain ⟨n, calm⟩ := doeReply_places obj s
  exact ⟨calm.jobs, calm.mem, calm.store, calm.life, calm.custody⟩

/-! ## DOE Discovery and GET_VERSION (R183, R184) -/

theorem at_drop (b : Bytes) (n i : Nat) : Bytes.at_ (b.drop n) i = b.at_ (n + i) := by
  unfold Bytes.at_
  rw [List.getD_eq_getElem?_getD, List.getD_eq_getElem?_getD, List.getElem?_drop]

theorem discovery_answers {obj : Bytes} {s : State} (h : Served obj s) (ty : obj.at_ 2 = 0) (index : (obj.at_ 8).toNat < 3) :
    Answers (.spdmRequest obj) s fun t =>
      t.link.doe = doeObject 0 (Bytes.ofLE 2 1 ++
        Bytes.ofNats [(obj.at_ 8).toNat, if (obj.at_ 8).toNat < 2 then (obj.at_ 8).toNat + 1 else 0]) ∧
      t.link.spdm = s.link.spdm ∧ t.link.conn = s.link.conn ∧ WorkStands s t := by
  refine h.answers ?_
  rw [if_pos (by rw [ty]; rfl)]
  obtain ⟨doe, spdm, conn, _, _⟩ := link_doeReply (doeDiscovery (obj.drop 8)) s
  refine ⟨doe.trans ?_, spdm, conn, workStands_doeReply _ _⟩
  unfold doeDiscovery
  dsimp only
  rw [at_drop, if_pos index]

/-- The device's answer to GET_VERSION. -/
def versions : Bytes := Bytes.ofNats [0x10, 0x04, 0, 0, 0, 3, 0, 0x10, 0, 0x11, 0, 0x12]

/-- A connection begun anew by request `m`. -/
def reconnected (m : Bytes) (s : State) : State :=
  modLink (fun l => { l with conn := { phase := 1, base := m ++ versions }, spdm := [] }) s

theorem spdmRespond_version {m : Bytes} (s : State) (ver : m.at_ 0 = 0x10) (code : m.at_ 1 = 0x84) :
    spdmRespond none m s = .ok (versions, reconnected m s) := by
  have codeIs : spdmCode m = 0x84 := by unfold spdmCode; rw [code]; rfl
  have verIs : spdmVerOf m = 0x10 := by unfold spdmVerOf; rw [ver]; rfl
  unfold spdmRespond spdmRun
  dsimp only
  rw [if_neg fun h => by rw [codeIs] at h; exact absurd h.1 (by decide)]
  have ran : spdmPlain m s = .ok (versions, reconnected m s) := by
    unfold spdmPlain
    dsimp only
    rw [codeIs]
    show spdmVersion m _ = _
    unfold spdmVersion
    rw [verIs]
    rfl
  rw [ran]
  show Except.ok (spdmFits _ _ _) = _
  unfold spdmFits
  rw [if_pos (.inl (by rw [verIs]; decide))]

theorem getVersion_answers {obj : Bytes} {s : State} (h : Served obj s) (ty : obj.at_ 2 = 1) (ver : obj.at_ 8 = 0x10) (code : obj.at_ 9 = 0x84) :
    Answers (.spdmRequest obj) s fun t =>
      t.link.doe = doeObject 1 (Bytes.ofNats [0x10, 0x04, 0, 0, 0, 3, 0, 0x10, 0, 0x11, 0, 0x12]) ∧ t.link.conn.phase = 1 ∧
      t.link.spdm = [] ∧ WorkStands s t := by
  refine h.answers ?_
  rw [if_neg (by rw [ty]; decide), if_pos (by rw [ty]; rfl), spdmRespond_version s ((at_drop obj 8 0).trans ver) ((at_drop obj 8 1).trans code)]
  obtain ⟨doe, spdm, conn, _, _⟩ := link_doeReply (doeObject 1 versions) (reconnected (obj.drop 8) s)
  have stands : WorkStands s (reconnected (obj.drop 8) s) := ⟨rfl, rfl, rfl, rfl, rfl⟩
  exact ⟨doe, congrArg SpdmConn.phase conn, spdm, WorkStands.trans stands (workStands_doeReply _ _)⟩

end Sys2Proof.Safety
end

section
/-!
PROOFS. IDE_KM inside a secured session (R186).
-/

-- In turn: a proof that waits for others beside it takes a thread and its stack from the memory that the check allows.
set_option Elab.async false

namespace Sys2Proof.Safety

open Sys2Proof.Machine

/-! ## A vendor-defined request and its payload -/

theorem spdmMsg_split (ver code : Nat) (p : Bytes) : spdmMsg ver code 0 0 (vendorBody p) =
    ((Bytes.ofNats [ver, code, 0, 0] ++ Bytes.ofNats [3, 0, 2, 1, 0]) ++ Bytes.ofLE 2 p.length) ++ p := by
  unfold spdmMsg vendorBody
  rw [List.append_assoc, List.append_assoc, List.append_assoc]

theorem spdmVerOf_msg {ver : Nat} (short : ver < 256) (code : Nat) (body : Bytes) : spdmVerOf (spdmMsg ver code 0 0 body) = ver := by
  show (BitVec.ofNat 8 ver).toNat = ver
  rw [BitVec.toNat_ofNat]
  exact Nat.mod_eq_of_lt short

theorem vendor_header (ver : Nat) (p : Bytes) : (spdmMsg ver 0xFE 0 0 (vendorBody p)).slice 4 5 = Bytes.ofNats [3, 0, 2, 1, 0] := by
  rw [spdmMsg_split, slice_append_left _ (by simp [length_ofLE, Bytes.ofNats]), slice_append_left _ (by simp [Bytes.ofNats]),
    slice_append_right (a := Bytes.ofNats [ver, 0xFE, 0, 0]) (o := 4) (n := 5) rfl rfl]

theorem vendor_payload (ver : Nat) {p : Bytes} (short : p.length < 65536) :
    (spdmMsg ver 0xFE 0 0 (vendorBody p)).slice 11 ((spdmMsg ver 0xFE 0 0 (vendorBody p)).leAt 9 2) = p := by
  have length : (spdmMsg ver 0xFE 0 0 (vendorBody p)).leAt 9 2 = p.length := by
    rw [spdmMsg_split, leAt_append_left _ (by simp [length_ofLE, Bytes.ofNats]), leAt_last (o := 9) rfl]
    exact Nat.mod_eq_of_lt short
  rw [length, spdmMsg_split]
  exact slice_append_right (by simp [length_ofLE, Bytes.ofNats]) rfl

/-! ## A request in its session's next place -/

/-- A session after one request more. -/
def counted (x : SpdmSession) : SpdmSession := { x with req := { x.req with seq := x.req.seq + 1 } }

/-- The state in which a request of session `x` is run: counted, and the transcript of measurements ended. -/
def asked (x : SpdmSession) (s : State) : State := setMeasLog (some (counted x)) [] (modSpdm x.id (fun _ => counted x) s)

theorem spdm_modSpdm {s : State} {id : Nat} {h : SpdmSession → SpdmSession} (named : ∀ y, y.id = id → (h y).id = id) :
    (modSpdm id h s).spdm? id = (s.spdm? id).map h := by
  show List.find? _ (s.link.spdm.map fun x => if x.id = id then h x else x) = (s.link.spdm.find? _).map h
  rw [List.find?_map]
  have same : ((fun y : SpdmSession => decide (y.id = id)) ∘ fun x => if x.id = id then h x else x) = fun y => decide (y.id = id) := by
    funext y
    by_cases is : y.id = id
    · simp [is, named y is]
    · simp [is]
  rw [same]
  cases found : s.link.spdm.find? fun y => decide (y.id = id) with
  | none => rfl
  | some y => exact congrArg some (if_pos (of_decide_eq_true (List.find?_some found :)))

theorem spdm_asked {s : State} {x : SpdmSession} (found : s.spdm? x.id = some x) :
    (asked x s).spdm? x.id = some { counted x with meas := [] } := by
  show (modSpdm x.id (fun y => { y with meas := [] }) (modSpdm x.id (fun _ => counted x) s)).spdm? x.id = _
  rw [spdm_modSpdm (h := fun y => { y with meas := [] }) fun _ h => h, spdm_modSpdm (id := x.id) (h := fun _ => counted x) fun _ _ => rfl, found]
  rfl

section
variable {s t : State} {x : SpdmSession} {p r : Bytes}

/-- The request of session `x` that carries the IDE_KM object `p`. -/
abbrev carried (x : SpdmSession) (p : Bytes) : Bytes := spdmMsg x.ver 0xFE 0 0 (vendorBody p)

/-- The response that carries `r`. -/
abbrev responded (x : SpdmSession) (r : Bytes) : Bytes := spdmMsg x.ver 0x7E 0 0 (vendorBody r)

theorem spdmInner_vendor (up : x.handshake = false) (ver : x.ver < 256) (short : p.length < 65536)
    (answer : ideAnswer p (asked x s) = some (r, t)) :
    spdmInner (counted x) (carried x p) (modSpdm x.id (fun _ => counted x) s) = .ok (responded x r, t) := by
  have verIs : spdmVerOf (carried x p) = x.ver := spdmVerOf_msg ver _ _
  unfold spdmInner
  dsimp only
  rw [if_neg (by rw [verIs]; exact fun h => h rfl), if_neg (by show ¬ x.handshake = true; rw [up]; decide)]
  show spdmVendor (carried x p) (asked x s) = _
  unfold spdmVendor
  dsimp only
  rw [verIs, if_pos (vendor_header x.ver p), vendor_payload x.ver short, answer]

/-- A connection replaced. -/
def withConn (c : SpdmConn) (s : State) : State := modLink (fun l => { l with conn := c }) s

/-- A response goes as it is where it fits, and by chunks else. -/
theorem spdmFits_leaves (ver : Nat) (m : Bytes) (s : State) : ∃ m' c, spdmFits ver m s = (m', withConn c s) ∧
    (s.link.conn.room = 0 ∨ m.length ≤ s.link.conn.room ∨ ver < 0x12 → m' = m) := by
  unfold spdmFits
  dsimp only
  split
  · exact ⟨m, s.link.conn, rfl, fun _ => rfl⟩
  · next big => exact ⟨_, _, rfl, fun fits => (big (by rcases fits with h | h | h <;> simp only [h, true_or, or_true])).elim⟩

theorem sealDir_answered (found : s.spdm? x.id = some x) (kept : t.link.spdm = (asked x s).link.spdm) (c : SpdmConn) :
    sealDir (counted x) (withConn c t) = x.rsp := by
  have there : (withConn c t).spdm? x.id = some { counted x with meas := [] } := by
    rw [← spdm_asked found]
    show List.find? _ t.link.spdm = _
    rw [kept]
    rfl
  unfold sealDir
  rw [show (counted x).id = x.id from rfl, there]
  exact if_pos rfl

theorem spdmSecured_vendor (found : s.spdm? x.id = some x) (up : x.handshake = false) (ver : x.ver < 256) (short : p.length < 65536)
    (answer : ideAnswer p (asked x s) = some (r, t)) (kept : t.link.spdm = (asked x s).link.spdm) :
    ∃ m c, spdmSecured x (carried x p) s = .ok (spdmSeal x.id x.ver x.rsp m, modSpdm x.id
        (fun y => if y.rsp = x.rsp then { y with rsp := { x.rsp with seq := x.rsp.seq + 1 } } else y) (withConn c t)) ∧
      (t.link.conn.room = 0 ∨ (responded x r).length ≤ t.link.conn.room ∨ x.ver < 0x12 → m = responded x r) := by
  obtain ⟨m, c, fits, whole⟩ := spdmFits_leaves x.ver (responded x r) t
  have run : spdmRespond (some (counted x)) (carried x p) (modSpdm x.id (fun _ => counted x) s) = .ok (m, withConn c t) := by
    unfold spdmRespond spdmRun
    dsimp only
    rw [if_neg fun h => absurd (h.1 : (0xFE#8).toNat = 0x85 ∨ (0xFE#8).toNat = 0x86) (by decide), spdmInner_vendor up ver short answer]
    show Except.ok (spdmFits (spdmVerOf (carried x p)) (responded x r) t) = _
    rw [spdmVerOf_msg ver, fits]
  refine ⟨m, c, ?_, whole⟩
  unfold spdmSecured
  show Drawn.go (spdmRespond (some (counted x)) (carried x p) (modSpdm x.id (fun _ => counted x) s)) _ = _
  rw [run]
  show Except.ok (spdmSeal x.id x.ver (sealDir (counted x) (withConn c t)) m, modSpdm x.id (fun y =>
    if y.rsp = sealDir (counted x) (withConn c t) then
      { y with rsp := { sealDir (counted x) (withConn c t) with seq := (sealDir (counted x) (withConn c t)).seq + 1 } } else y) (withConn c t)) = _
  rw [sealDir_answered found kept]

/-! ## What an IDE_KM object leaves -/

/-- An open secured session in which firmware takes a request. -/
structure Secured (x : SpdmSession) (s : State) : Prop where
  found : s.spdm? x.id = some x
  up : x.handshake = false
  runs : s.secureRuns = true
  free : s.link.held = none
  ver : x.ver < 256

theorem ideKm_answers (h : Secured x s) (short : p.length < 65536) (answer : ideAnswer p (asked x s) = some (r, t))
    (kept : t.link.spdm = (asked x s).link.spdm) :
    ∃ u, ideKm x.id p s = .next u ∧ u.link.ideKeys = t.link.ideKeys ∧ u.link.ide = t.link.ide ∧ u.link.doe ≠ [] ∧ WorkStands t u ∧
      (t.link.conn.room = 0 ∨ (responded x r).length ≤ t.link.conn.room ∨ x.ver < 0x12 →
        u.link.doe = doeObject 2 (spdmSeal x.id x.ver x.rsp (responded x r))) := by
  obtain ⟨m, c, secured, whole⟩ := spdmSecured_vendor h.found h.up h.ver short answer kept
  have is : ideKm x.id p s = .next (doeReply (doeObject 2 (spdmSeal x.id x.ver x.rsp m)) (modSpdm x.id
      (fun y => if y.rsp = x.rsp then { y with rsp := { x.rsp with seq := x.rsp.seq + 1 } } else y) (withConn c t))) := by
    unfold ideKm
    rw [h.found]
    dsimp only
    rw [h.up, h.runs, h.free, if_neg (by decide), secured]
  generalize sent : modSpdm x.id (fun y => if y.rsp = x.rsp then { y with rsp := { x.rsp with seq := x.rsp.seq + 1 } } else y) (withConn c t) = v at is
  obtain ⟨keys, ide, stands⟩ : v.link.ideKeys = t.link.ideKeys ∧ v.link.ide = t.link.ide ∧ WorkStands t v := by
    subst sent
    exact ⟨rfl, rfl, rfl, rfl, rfl, rfl, rfl⟩
  obtain ⟨doe, _, _, ideIs, keysAre⟩ := link_doeReply (doeObject 2 (spdmSeal x.id x.ver x.rsp m)) v
  refine ⟨_, is, keysAre.trans keys, ideIs.trans ide, ?_, WorkStands.trans stands (workStands_doeReply _ _), fun fits => by rw [doe, whole fits]⟩
  rw [doe]
  exact List.cons_ne_nil _ _

end

end Sys2Proof.Safety
end

section
/-!
PROOFS. The commands of IDE_KM (R186), and the host link's commands together.
-/

-- In turn: a proof that waits for others beside it takes a thread and its stack from the memory that the check allows.
set_option Elab.async false

namespace Sys2Proof.Safety

open Sys2Proof.Machine

/-! ## IDE_KM objects -/

/-- The key set, direction and sub-stream of an IDE_KM message are what was put there. -/
theorem select_parts : ∀ keySet ≤ 1, ∀ sub ≤ 2, ∀ tx : Bool, ideSelect keySet sub tx < 256 ∧ ideSelect keySet sub tx % 2 = keySet ∧
    (ideSelect keySet sub tx).testBit 1 = tx ∧ ideSelect keySet sub tx / 16 = sub := by
  decide

theorem length_ideObject (op stream status select port : Nat) : (ideObject op stream status select port).length = 8 := rfl

theorem ideReq_object {op stream select : Nat} (d : Bytes) (opIs : 0 < op ∧ op < 256) (streamIs : stream < 256) (selectIs : select < 256) :
    ideReq (ideObject op stream 0 select 0 ++ d) = ⟨op, stream, select, 0, d⟩ := by
  have byte {n : Nat} (h : n < 256) : (BitVec.ofNat 8 n).toNat = n := by
    rw [BitVec.toNat_ofNat]
    exact Nat.mod_eq_of_lt h
  show IdeReq.mk (BitVec.ofNat 8 op).toNat (BitVec.ofNat 8 stream).toNat (BitVec.ofNat 8 select).toNat
    (if (BitVec.ofNat 8 op).toNat = 0 then (0#8).toNat else (0#8).toNat) d = _
  rw [byte opIs.2, byte streamIs, byte selectIs, ite_self]
  rfl

section
variable {stream keySet sub : Nat} {tx : Bool}

theorem ideAnswer_prog (d : Bytes) (s : State) (low : stream < 256) (set : keySet ≤ 1) (part : sub ≤ 2) :
    ideAnswer (ideObject 2 stream 0 (ideSelect keySet sub tx) 0 ++ d) s = some (ideKeyProg ⟨2, stream, ideSelect keySet sub tx, 0, d⟩ s) := by
  unfold ideAnswer
  rw [ideReq_object d (by decide) low (select_parts keySet set sub part tx).1]
  rfl

theorem ideAnswer_go (d : Bytes) (s : State) (low : stream < 256) (set : keySet ≤ 1) (part : sub ≤ 2) :
    ideAnswer (ideObject 4 stream 0 (ideSelect keySet sub tx) 0 ++ d) s = some (ideKeyGo ⟨4, stream, ideSelect keySet sub tx, 0, d⟩ s) := by
  unfold ideAnswer
  rw [ideReq_object d (by decide) low (select_parts keySet set sub part tx).1]
  rfl

theorem ideAnswer_stop (d : Bytes) (s : State) (low : stream < 256) (set : keySet ≤ 1) (part : sub ≤ 2) :
    ideAnswer (ideObject 5 stream 0 (ideSelect keySet sub tx) 0 ++ d) s = some (ideKeyStop ⟨5, stream, ideSelect keySet sub tx, 0, d⟩ s) := by
  unfold ideAnswer
  rw [ideReq_object d (by decide) low (select_parts keySet set sub part tx).1]
  rfl

theorem index_request (op : Nat) (d : Bytes) (set : keySet ≤ 1) (part : sub ≤ 2) :
    (IdeReq.mk op stream (ideSelect keySet sub tx) 0 d).index = ideIndex stream keySet sub tx := by
  obtain ⟨_, setIs, txIs, subIs⟩ := select_parts keySet set sub part tx
  unfold IdeReq.index IdeReq.keySet IdeReq.tx IdeReq.sub
  rw [setIs, txIs, subIs]

theorem index_otherSet (set : keySet ≤ 1) : ideIndex stream (1 - keySet) sub tx ≠ ideIndex stream keySet sub tx := by
  unfold ideIndex
  omega

end

theorem find?_ideOff (i j : Nat) (m : FMap IdeKey) :
    (ideOff i m).find? j = (m.find? j).map fun k => { k with active := k.active && decide (j ≠ i) } :=
  FMap.find?_mapVal m (fun n k => { k with active := k.active && decide (n ≠ i) }) j

theorem ideSetActive_congr {l k : Link} (h : l.ideKeys = k.ideKeys) (stream keySet : Nat) :
    ideSetActive l stream keySet = ideSetActive k stream keySet := by
  unfold ideSetActive
  rw [h]

theorem workStands_modLink (h : Link → Link) (x : SpdmSession) (s : State) : WorkStands s (modLink h (asked x s)) := ⟨rfl, rfl, rfl, rfl, rfl⟩

section
variable {s : State} {x : SpdmSession} (h : Secured x s)
include h

/-! ## QUERY -/

theorem ideKmQuery_answers (port : Nat) : Answers (.ideKmQuery x.id port) s fun t =>
    t.link.doe ≠ [] ∧ t.link.ideKeys = s.link.ideKeys ∧ t.link.ide = s.link.ide ∧ WorkStands s t ∧
      (s.link.conn.room = 0 ∨ 195 ≤ s.link.conn.room ∨ x.ver < 0x12 →
        t.link.doe = doeObject 2 (spdmSeal x.id x.ver x.rsp
          (spdmMsg x.ver 0x7E 0 0 (vendorBody (ideQuery (ideReq (Bytes.ofNats [0, 0, 0, port])) s))))) := by
  have answer : ideAnswer (Bytes.ofNats [0, 0, 0, port]) (asked x s) =
      some (ideQuery (ideReq (Bytes.ofNats [0, 0, 0, port])) s, asked x s) := rfl
  obtain ⟨t, is, keys, ide, doe, stands, whole⟩ := ideKm_answers h (p := Bytes.ofNats [0, 0, 0, port]) (show 4 < 65536 by decide) answer rfl
  have long : (responded x (ideQuery (ideReq (Bytes.ofNats [0, 0, 0, port])) s)).length = 195 := by
    unfold responded spdmMsg vendorBody ideQuery
    simp [length_ofLE, Bytes.ofNats]
  rw [long] at whole
  exact ⟨t, is, doe, keys, ide, WorkStands.trans (workStands_modLink id x s) stands, whole⟩

variable {stream keySet sub : Nat} {tx : Bool}

/-- A request whose answer changes the link alone, and no session. -/
theorem ideObject_answers {op stream select : Nat} {d r : Bytes} {k : Link → Link} (short : d.length < 65528)
    (answer : ideAnswer (ideObject op stream 0 select 0 ++ d) (asked x s) = some (r, modLink k (asked x s)))
    (spdm : (k (asked x s).link).spdm = (asked x s).link.spdm) :
    ∃ t, ideKm x.id (ideObject op stream 0 select 0 ++ d) s = .next t ∧
      t.link.ideKeys = (k (asked x s).link).ideKeys ∧ t.link.ide = (k (asked x s).link).ide ∧ WorkStands s t := by
  obtain ⟨t, is, keys, ide, _, stands, _⟩ := ideKm_answers h (by rw [List.length_append, length_ideObject]; omega) answer spdm
  exact ⟨t, is, keys, ide, WorkStands.trans (workStands_modLink k x s) stands⟩

variable (low : stream ≤ 8) (set : keySet ≤ 1) (part : sub ≤ 2)
include low set part

/-! ## KEY_PROG -/

theorem ideKmKeyProg_answers {key iv : Bytes} (keyLen : key.length = 32) (ivLen : iv.length = 8) :
    Answers (.ideKmKeyProg x.id stream keySet sub tx key iv) s fun t => WorkStands s t ∧
      if (s.link.ideKeys.find? (ideIndex stream keySet sub tx)).any (·.active) = true then t.link.ideKeys = s.link.ideKeys
      else t.link.ideKeys.find? (ideIndex stream keySet sub tx) = some { key := key, iv := iv } ∧
        ∀ i, i ≠ ideIndex stream keySet sub tx → t.link.ideKeys.find? i = s.link.ideKeys.find? i := by
  have opens : exec (.ideKmKeyProg x.id stream keySet sub tx key iv) s =
      ideKm x.id (ideObject 2 stream 0 (ideSelect keySet sub tx) 0 ++ (key ++ iv)) s := by
    rw [← List.append_assoc]
    rfl
  have length : (key ++ iv).length = 40 := by rw [List.length_append, keyLen, ivLen]
  have inside : ¬ (ideStream stream = false ∨ (IdeReq.mk 2 stream (ideSelect keySet sub tx) 0 (key ++ iv)).sub > 2) := by
    unfold IdeReq.sub ideStream
    rw [(select_parts keySet set sub part tx).2.2.2]
    rintro (no | no)
    · exact of_decide_eq_false no low
    · omega
  by_cases used : ((asked x s).link.ideKeys.find? (ideIndex stream keySet sub tx)).any (·.active) = true
  · have answer : ideKeyProg ⟨2, stream, ideSelect keySet sub tx, 0, key ++ iv⟩ (asked x s) =
        (ideObject 3 stream 4 (ideSelect keySet sub tx) 0, modLink id (asked x s)) := by
      unfold ideKeyProg
      dsimp only
      rw [if_neg fun no => no length, if_neg fun no => no rfl, if_neg inside, index_request 2 _ set part, if_pos used]
      rfl
    obtain ⟨t, is, keys, _, stands⟩ :=
      ideObject_answers h (by omega) ((ideAnswer_prog _ _ (by omega) set part).trans (congrArg some answer)) rfl
    exact ⟨t, opens.trans is, stands, (if_pos used).mpr keys⟩
  · have answer : ideKeyProg ⟨2, stream, ideSelect keySet sub tx, 0, key ++ iv⟩ (asked x s) =
        (ideObject 3 stream 0 (ideSelect keySet sub tx) 0, modLink (fun l => { l with
          ideKeys := l.ideKeys.set (ideIndex stream keySet sub tx) { key := key, iv := iv } }) (asked x s)) := by
      unfold ideKeyProg
      dsimp only
      rw [if_neg fun no => no length, if_neg fun no => no rfl, if_neg inside, index_request 2 _ set part, if_neg used,
        List.take_left' keyLen, List.drop_left' keyLen]
      rfl
    obtain ⟨t, is, keys, _, stands⟩ :=
      ideObject_answers h (by omega) ((ideAnswer_prog _ _ (by omega) set part).trans (congrArg some answer)) rfl
    refine ⟨t, opens.trans is, stands, (if_neg used).mpr ?_⟩
    rw [keys]
    exact ⟨FMap.find?_set_self _ _ _, fun i ne => FMap.find?_set_ne _ _ ne⟩

/-! ## K_SET_GO -/

/-- The link once key `k` of a set is in use. -/
def inUse (stream keySet sub : Nat) (tx : Bool) (k : IdeKey) (l : Link) : Link :=
  let l' := { l with ideKeys :=
    (ideOff (ideIndex stream (1 - keySet) sub tx) l.ideKeys).set (ideIndex stream keySet sub tx) { k with active := true } }
  if ideSetActive l' stream keySet then { l' with ide := l'.ide.set stream .secure } else l'

omit h low set part in
theorem ideKeys_inUse (k : IdeKey) (l : Link) : (inUse stream keySet sub tx k l).ideKeys =
    (ideOff (ideIndex stream (1 - keySet) sub tx) l.ideKeys).set (ideIndex stream keySet sub tx) { k with active := true } := by
  unfold inUse
  dsimp only
  split <;> rfl

omit h low set part in
theorem spdm_inUse (k : IdeKey) (l : Link) : (inUse stream keySet sub tx k l).spdm = l.spdm := by
  unfold inUse
  dsimp only
  split <;> rfl

omit h low set part in
theorem ide_inUse (k : IdeKey) (l : Link) (all : ideSetActive (inUse stream keySet sub tx k l) stream keySet = true) :
    (inUse stream keySet sub tx k l).ide.find? stream = some .secure := by
  rw [ideSetActive_congr (k := { l with ideKeys :=
    (ideOff (ideIndex stream (1 - keySet) sub tx) l.ideKeys).set (ideIndex stream keySet sub tx) { k with active := true } })
    (ideKeys_inUse k l)] at all
  unfold inUse
  dsimp only
  rw [if_pos all]
  exact FMap.find?_set_self _ _ _

theorem ideKmKSetGo_answers {k : IdeKey} (there : s.link.ideKeys.find? (ideIndex stream keySet sub tx) = some k) :
    Answers (.ideKmKSetGo x.id stream keySet sub tx) s fun t =>
      (t.link.ideKeys.find? (ideIndex stream keySet sub tx)) = some { k with active := true } ∧
      (t.link.ideKeys.find? (ideIndex stream (1 - keySet) sub tx)).any (·.active) = false ∧
      (ideSetActive t.link stream keySet = true → t.link.ide.find? stream = some .secure) ∧ WorkStands s t := by
  have opens : exec (.ideKmKSetGo x.id stream keySet sub tx) s =
      ideKm x.id (ideObject 4 stream 0 (ideSelect keySet sub tx) 0 ++ []) s := by
    rw [List.append_nil]
    rfl
  obtain ⟨_, setIs, txIs, subIs⟩ := select_parts keySet set sub part tx
  have answer : ideKeyGo ⟨4, stream, ideSelect keySet sub tx, 0, []⟩ (asked x s) =
      (ideObject 6 stream 0 (ideSelect keySet sub tx) 0, modLink (inUse stream keySet sub tx k) (asked x s)) := by
    unfold ideKeyGo
    dsimp only
    rw [index_request 4 _ set part, show (asked x s).link.ideKeys.find? _ = some k from there]
    unfold IdeReq.keySet IdeReq.tx IdeReq.sub
    dsimp only
    rw [setIs, txIs, subIs]
    rfl
  obtain ⟨t, is, keys, ide, stands⟩ := ideObject_answers h (by decide) ((ideAnswer_go _ _ (by omega) set part).trans (congrArg some answer)) (spdm_inUse k _)
  refine ⟨t, opens.trans is, ?_, ?_, fun all => ?_, stands⟩
  · rw [keys, ideKeys_inUse, FMap.find?_set_self]
  · rw [keys, ideKeys_inUse, FMap.find?_set_ne _ _ (index_otherSet set), find?_ideOff]
    cases (asked x s).link.ideKeys.find? (ideIndex stream (1 - keySet) sub tx) with
    | none => rfl
    | some v => simp
  · rw [ide]
    rw [ideSetActive_congr keys] at all
    exact ide_inUse k _ all

/-! ## K_SET_STOP -/

theorem ideKmKSetStop_answers : Answers (.ideKmKSetStop x.id stream keySet sub tx) s fun t =>
    t.link.ideKeys.find? (ideIndex stream keySet sub tx) = none ∧
    (∀ i, i ≠ ideIndex stream keySet sub tx → t.link.ideKeys.find? i = s.link.ideKeys.find? i) ∧
    ((s.link.ideKeys.find? (ideIndex stream keySet sub tx)).any (·.active) = true → t.link.ide.find? stream = some .insecure) ∧
    WorkStands s t := by
  have opens : exec (.ideKmKSetStop x.id stream keySet sub tx) s =
      ideKm x.id (ideObject 5 stream 0 (ideSelect keySet sub tx) 0 ++ []) s := by
    rw [List.append_nil]
    rfl
  have answer : ideKeyStop ⟨5, stream, ideSelect keySet sub tx, 0, []⟩ (asked x s) =
      (ideObject 6 stream 0 (ideSelect keySet sub tx) 0, modLink (fun l => { l with
        ideKeys := l.ideKeys.erase (ideIndex stream keySet sub tx)
        ide := if (s.link.ideKeys.find? (ideIndex stream keySet sub tx)).any (·.active) then l.ide.set stream .insecure else l.ide }) (asked x s)) := by
    unfold ideKeyStop
    dsimp only
    rw [index_request 5 _ set part]
    rfl
  obtain ⟨t, is, keys, ide, stands⟩ := ideObject_answers h (by decide) ((ideAnswer_stop _ _ (by omega) set part).trans (congrArg some answer)) rfl
  refine ⟨t, opens.trans is, ?_, fun i ne => ?_, fun used => ?_, stands⟩
  · rw [keys, FMap.find?_erase_self]
  · rw [keys, FMap.find?_erase_ne _ ne]
    rfl
  · rw [ide, if_pos used, FMap.find?_set_self]

end

/-! ## The host link -/

/-- Settles O56: each command's own lemma, for training, reset, FLITs, the mailbox and IDE_KM. -/
theorem hostLinkCommands : Obligations.HostLinkCommands := by
  unfold Obligations.HostLinkCommands
  refine ⟨fun s rate width flit on => linkUp_answers rate width flit on, fun s on up there => linkReset_answers on ⟨up, there⟩,
    fun s on => answers_settled (flit_accepted .clean on) (.refl _), fun s st on => flit_insecure st on, fun s on => flit_oneSide on,
    fun s v on => flit_replayed v on, fun s a v on => flit_split a v on, fun s obj => ⟨_, exec_spdmRequest obj s, rfl⟩,
    fun s obj bad => spdmRequest_malformed s bad, fun s obj on runs free long short vendor length => ?_, fun s => ⟨_, rfl, rfl⟩,
    fun s x found up runs free ver => ?_⟩
  · have served : Served obj s := ⟨on, runs, free, long, short, vendor, length⟩
    exact ⟨discovery_answers served, getVersion_answers served⟩
  · have secured : Secured x s := ⟨found, up, runs, free, ver⟩
    exact ⟨ideKmQuery_answers secured, fun _ _ _ _ _ _ keyLen ivLen low set part => ideKmKeyProg_answers secured low set part keyLen ivLen,
      fun _ _ _ _ _ there low set part => ideKmKSetGo_answers secured low set part there,
      fun _ _ _ _ low set part => ideKmKSetStop_answers secured low set part⟩

end Sys2Proof.Safety
end
